-- ==== Sys2Proof/Word.lean ====
section
/-!
DEFINITION. Sys2Proof/Word.lean: the word types of the model and the sparse maps its stores are held in.
A register of the device is 32 bits wide (R16 and the register maps), a byte is 8 bits, the timebase and the word
cell's wide values are 64 and 40 bits wide.
-/

namespace Sys2Proof

/-- A byte. -/
abbrev Byte := BitVec 8

/-- A register word: every register is 32 bits wide. -/
abbrev Word32 := BitVec 32

/-- A timebase count (R65). -/
abbrev Time := BitVec 64

/-- A sparse store: (key, value) pairs, keys strictly rising, no pair holding what an unlisted key reads as. -/
abbrev SMap (α : Type) := List (Nat × α)

/-- Saturating increment of a counter whose greatest value is `top`. -/
def satInc (top x : Nat) : Nat := if x < top then x + 1 else top

/-- Two's-complement reading of the low `w` bits of a natural number. -/
def toSigned (w n : Nat) : Int :=
  let m := n % 2 ^ w
  if m < 2 ^ (w - 1) then (m : Int) else (m : Int) - (2 ^ w : Nat)

/-- The low `w` bits of an integer as a natural number (two's complement). -/
def ofSigned (w : Nat) (i : Int) : Nat := (i % ((2 ^ w : Nat) : Int)).toNat

/-- Bits [hi:lo] of a natural number. -/
def bitsOf (n hi lo : Nat) : Nat := (n >>> lo) % 2 ^ (hi + 1 - lo)

/-- A truth value as one bit. -/
def b2n (b : Bool) : Nat := if b then 1 else 0

end Sys2Proof
end

