-- ==== Sys2Proof/Syntax.lean ====
section
/-!
DEFINITION. Sys2Proof/Syntax.lean: the commands the block takes, one constructor per row of spec/opcode_table.json, and
the operand records they carry.  A command's operands say which unit it concerns and what the outside world supplied
(a request, a beat, a measurement); everything else is in the state.
-/

namespace Sys2Proof

/-- The requester of an access: the NoC master endpoint (R362), for the control-core cluster the issuing core (tag
bits [9:8]), whether a core issued it in machine mode (R521), and the peek attribute, which only master 61 can set
(R359). -/
structure Src where
  master : Fin 64
  core : Fin 4
  machine : Bool
  peek : Bool
deriving DecidableEq, Repr

/-- The 3-bit response codes of R365. -/
inductive Resp where
  | ok | derr | perr | serr | aerr | terr | retry
deriving DecidableEq, Repr

/-- One word cell: die FDd, tile t = 128 c + r, cell k = 4 i + j (R76, R77). -/
structure CellId where
  die : Fin 4
  tile : Fin 2048
  cell : Fin 16
deriving DecidableEq, Repr

/-- The fields of an instruction word other than its opcode (R116). -/
structure Fields where
  s : Bool
  dst : BitVec 5
  sa : BitVec 5
  sb : BitVec 5
  sh : BitVec 5
  u : Bool
  p0u : BitVec 2
  p1u : BitVec 2
deriving DecidableEq, Repr

/-- A beat: 16 bytes with the parity bit each arrived with, and its last bit (R171, R182). -/
structure Beat where
  data : BitVec 128
  par : BitVec 16
  last : Bool
  err : Bool
deriving DecidableEq, Repr

/-- A single-flit request (R357): who asks, its tag, class and page hint, write or read, the 48-bit address of its
first byte, its byte count, the write data, the bytes of it that fail their parity check at the target, the
injection stamp. -/
structure Req where
  src : Src
  tag : Fin 1024
  cls : Fin 4
  page : Fin 4
  write : Bool
  addr : BitVec 48
  len : Nat
  data : List Byte
  badPar : List Nat
  stamp : BitVec 16
deriving DecidableEq, Repr

/-- Sources of a global clock network (R224): an output of a fabric PLL, a clock-capable pin, a lane clock (recovered or
transmit), or a cluster output. -/
inductive ClockSource where
  | pll (f : Fin 8) (o : Fin 4)
  | pin (n : Fin 12)
  | lane (l : Fin 40) (tx : Bool)
  | fabric (cluster : Fin 131072) (out : Fin 64)
deriving DecidableEq, Repr, Inhabited

/-- How an edge stands to the edge commands before it: at an instant of its own, at the same instant as the last, or within 200 ps
of it (R238, R239). -/
inductive EdgeRel where
  | alone | same | near
deriving DecidableEq, Repr

/-! ## What configuration can choose in the fabric (R210 to R231, R261, R315) -/

/-- What drives a segment, a cluster input or a transmit input: an output of the cluster's cells (2 cell for OA, 2 cell + 1 for
OB), a segment that ends at the cluster, an output pin of the block the cluster is attached to, a signal of the crossings the
cluster is attached to on an edge (p below 32 a payload index, 32 + j the xerr of lane j, 36 xlost), the lock of a fabric PLL
output (R225), a tick toggle signal (R73), the input of a high-performance pin of the die (R547), an output of
the lane the cluster is attached to (R446: 0 to 511 rx_data, 512 rx_valid, 513 rx_err, 514 rx_lock, 515 tx_ready), an output of the
legacy configuration-error primitive (R350), a mailbox signal (R493). -/
inductive Drive where
  | none
  | output (k : Fin 64)
  | segment (n : Fin 112)
  | block (p : Fin 256)
  | crossing (edge : Fin 10) (p : Fin 64)
  | lock (f : Fin 8) (o : Fin 4)
  | toggle (n : Fin 4)
  | pad (i : Fin 192)
  | lane (p : Fin 516)
  | legacyError (b : Fin 33)
  | mbx (p : Fin 64)
deriving DecidableEq, Repr, Inhabited

/-- A source of a crossbar (R210): a cluster input or a local feedback (2 cell for OA, 2 cell + 1 for OB). -/
inductive Pick where
  | none
  | input (i : Fin 96)
  | feedback (k : Fin 64)
deriving DecidableEq, Repr, Inhabited

/-- A signal taken at a cluster. -/
structure Tap where
  cluster : Fin 131072
  pick : Pick
deriving DecidableEq, Repr, Inhabited

/-- A selected clock (R227): constant 0, a global network, a regional clock of the flask, or a wire clock. The optional inversion
names which edge of the source is the rising edge of the selected clock. -/
inductive ClockPick where
  | zero
  | global (g : Fin 32) (inverted : Bool)
  | regional (r : Fin 24) (inverted : Bool)
  | wire (inverted : Bool)
deriving DecidableEq, Repr, Inhabited

/-- A regional clock (R226): its global network, its enable from fabric logic (none: always enabled) and the exponent of its
divider 1, 2, 4 or 8. -/
structure Regional where
  net : Fin 32
  enable : Option Tap
  div : Fin 4
deriving DecidableEq, Repr, Inhabited

/-- A fabric PLL (R225): M, D, and O by output. -/
structure PllCfg where
  m : Nat
  d : Nat
  o : List Nat
deriving DecidableEq, Repr, Inhabited

/-- The value of an isolation cell (R315). -/
inductive Iso where
  | zero | one | hold
deriving DecidableEq, Repr, Inhabited

/-- A flit at an input port of a router (R355): 0 to 3 from north, east, south and west, 4 to 7 from local or edge ports; its
header with the 12 parity bits, its data with the 64 parity bits. -/
structure RouterFlit where
  input : Fin 8
  hdr : BitVec 96
  par : BitVec 12
  data : BitVec 512
  dpar : BitVec 64
deriving DecidableEq, Repr, Inhabited

/-- What a control core does at an address: a load or store, an instruction fetch, a load-reserve, a store-conditional or
an AMO (R520). -/
inductive CoreAccess where
  | plain | fetch | lr | amo
deriving DecidableEq, Repr

/-- Fused contents of hub OTP (R334, R468, R511, R513, R536): owner key digests, image keys (slots 1 to 4), legacy keys
(slots 0, 1), revoke fuses by slot, Yilpen revoke fuses, hl_dis, the counters of types 1 to 4, SMBus address, OTP
default of the debug domain, fused power ceiling in W and maximum voltage in mV, the identity fused on each die (R33, in the
order FD0 to FD3, hub, LD0, LD1; none: as the model gives it) and the assembly record (R39).  `made` says that the part has
been fused at manufacture. -/
structure Otp where
  made : Bool
  ownerKeys : SMap (BitVec 256)
  imageKeys : SMap (BitVec 256)
  legacyKeys : SMap (BitVec 256)
  ownerRev : BitVec 4
  imageRev : BitVec 4
  legacyRev : BitVec 2
  ykeyRev : BitVec 2
  hlDis : Bool
  svn : SMap Nat
  smbus : BitVec 7
  dbgMode : BitVec 2
  ceilW : BitVec 8
  vmaxMv : BitVec 16
  dieIds : List Word32
  asm : List Byte
deriving DecidableEq, Repr, Inhabited

/-- A commit record (R506): sequence, state (1 trial, 2 confirmed, 3 reverted), slots, previous slots, highest heat,
directory entries and manifests of this and the previous set. -/
structure Commit where
  seq : Nat
  state : Nat
  slots : Nat
  prevSlots : Nat
  heat : Nat
  dir : List Byte
  prevDir : List Byte
  manifest : List Byte
  prevManifest : List Byte
deriving DecidableEq, Repr

/-- FLASH0 and FLASH1 where they answer: the line map that resolution ends with, and whether a line arrangement returned the
line key (R296, R555). -/
structure FlashFound where
  flash0 : Option (BitVec 24 × Bool)
  flash1 : Option (BitVec 24 × Bool)
deriving DecidableEq, Repr

/-- What a warm restart samples and finds anew: PROFILE (R549), the flash devices, and whether the boot ROM finds a good MC
slot (R512). -/
structure Restart where
  profile : BitVec 2
  flash : FlashFound
  mcOk : Bool
deriving DecidableEq, Repr

/-- What the board and the package present at power-on: straps (R549), fuses with the die identities and the assembly record
(R33, R39; they count at the first power-on, when the part has just been made), what is found of the flash devices, banks with good VCCO (R545), whether the boot ROM finds a good MC slot
(R512), and the commit and board records of the firmware store as the board first brings them (R503, R506). -/
structure PowerOn where
  profile : BitVec 2
  iopull : BitVec 2
  refqual : BitVec 3
  otp : Otp
  flash : FlashFound
  bankHp : BitVec 24
  bankHv : BitVec 14
  mcOk : Bool
  commit : Option Commit
  board : List Byte
deriving DecidableEq, Repr

/-- What a read of a range of the flash address space brings: the bytes of FLASH0 and FLASH1, each from the first device address that
the range needs (R297). -/
structure FlashRead where
  flash0 : List Byte
  flash1 : List Byte
deriving DecidableEq, Repr, Inhabited

/-- The two copies of the flash directory as read, and the sizes of the devices in bytes (R297, R298). -/
structure FlashDir where
  copyA : FlashRead
  copyB : FlashRead
  size0 : Nat
  size1 : Nat
deriving DecidableEq, Repr, Inhabited

/-- The commands of the block: one constructor per row of spec/opcode_table.json, in its order but for
WATCHDOG_EXPIRY, which the idle step builds (compiled code builds no constructor with a tag above 244). -/
inductive Instr where
  /-- POWER_ON (R542). -/
  | powerOn (p : PowerOn)
  /-- POWER_OFF (R543). -/
  | powerOff
  /-- REFERENCE_QUALIFIED (R51). -/
  | referenceQualified (refB : Bool) (start : Restart)
  /-- PLLS_LOCKED (R558). -/
  | pllsLocked
  /-- TIMEBASE_START (R65). -/
  | timebaseStart
  /-- HOT_RESUME_COMPLETE (R58). -/
  | hotResumeComplete
  /-- REFERENCE_LOST (R54). -/
  | referenceLost (refB : Bool)
  /-- RETENTION_MONITOR_EXPIRY (R58). -/
  | retentionMonitorExpiry
  /-- REFERENCE_DRIFT_FAILED (R53). -/
  | referenceDriftFailed (refB : Bool)
  /-- REFERENCE_SWITCH_COMMAND (R56). -/
  | referenceSwitchCommand (src : Src) (w : Word32)
  /-- CLOCK_GATE_WRITE (R61). -/
  | clockGateWrite (src : Src) (d : Fin 24) (w : Word32)
  /-- CLKMON_SELECT (R64). -/
  | clkmonSelect (src : Src) (w : Word32)
  /-- TIMEBASE_SYNC_MESSAGE (R66). -/
  | timebaseSyncMessage (die : Fin 7) (wander : Int)
  /-- TIMEBASE_FREE_RUN (R68). -/
  | timebaseFreeRun (die : Fin 7)
  /-- TB_TIME_LO_READ (R65). -/
  | tbTimeLoRead (src : Src)
  /-- TICK (R71). -/
  | tick (n : Fin 4)
  /-- TICK_ENABLE (R74). -/
  | tickEnable (src : Src) (n : Fin 4) (w : Word32)
  /-- TICK_PERIOD_WRITE (R74). -/
  | tickPeriodWrite (src : Src) (n : Fin 4) (w : Word32)
  /-- WATCHDOG_EXPIRY (R529). -/
  | watchdogExpiry (k : Fin 4)
  /-- NOP (R120). -/
  | nop (a : CellId) (f : Fields)
  /-- ADD (R120). -/
  | add (a : CellId) (f : Fields)
  /-- SUB (R120). -/
  | sub (a : CellId) (f : Fields)
  /-- AND (R120). -/
  | and (a : CellId) (f : Fields)
  /-- OR (R120). -/
  | or (a : CellId) (f : Fields)
  /-- XOR (R120). -/
  | xor (a : CellId) (f : Fields)
  /-- MIN (R120). -/
  | min (a : CellId) (f : Fields)
  /-- MAX (R120). -/
  | max (a : CellId) (f : Fields)
  /-- ABSD (R120). -/
  | absd (a : CellId) (f : Fields)
  /-- SHL (R126). -/
  | shl (a : CellId) (f : Fields)
  /-- SHR (R126). -/
  | shr (a : CellId) (f : Fields)
  /-- ASR (R126). -/
  | asr (a : CellId) (f : Fields)
  /-- MOV (R119). -/
  | mov (a : CellId) (f : Fields)
  /-- SEL (R122). -/
  | sel (a : CellId) (f : Fields)
  /-- CMP (R128). -/
  | cmp (a : CellId) (f : Fields)
  /-- MUL (R135). -/
  | mul (a : CellId) (f : Fields)
  /-- MAC (R120). -/
  | mac (a : CellId) (f : Fields)
  /-- MSU (R120). -/
  | msu (a : CellId) (f : Fields)
  /-- CLRACC (R120). -/
  | clracc (a : CellId) (f : Fields)
  /-- CMAC (R132). -/
  | cmac (a : CellId) (f : Fields)
  /-- CADD (R132). -/
  | cadd (a : CellId) (f : Fields)
  /-- CLD (R132). -/
  | cld (a : CellId) (f : Fields)
  /-- TAP (R131). -/
  | tap (a : CellId) (f : Fields)
  /-- ILLEGAL_INSTRUCTION (R140). -/
  | illegalInstruction (a : CellId) (w : Word32)
  /-- POUR_END (R153). -/
  | pourEnd (d : Fin 4) (t : Fin 2048)
  /-- MOULD_SCRUB_READ (R149). -/
  | mouldScrubRead (d : Fin 4) (t : Fin 2048)
  /-- MOULD_WRITEBACK (R146). -/
  | mouldWriteback (d : Fin 4) (t : Fin 2048)
  /-- HALT (R159). -/
  | halt (src : Src) (d : Fin 4) (t : Fin 2048)
  /-- HALT_RELEASE (R159). -/
  | haltRelease (src : Src) (d : Fin 4) (t : Fin 2048)
  /-- DOORBELL (R164). -/
  | doorbell (src : Src) (d : Fin 4) (t : Fin 2048)
  /-- PREEMPTION_EVENT (R164). -/
  | preemptionEvent (d : Fin 4) (t : Fin 2048)
  /-- PREEMPTION_TAKEN (R165). -/
  | preemptionTaken (d : Fin 4) (t : Fin 2048)
  /-- URGENT_RETURN (R165). -/
  | urgentReturn (d : Fin 4) (t : Fin 2048)
  /-- MOULD_WRITE (R160). -/
  | mouldWrite (r : Req)
  /-- SCHEDULE_WRITE (R160). -/
  | scheduleWrite (r : Req)
  /-- STAGING_WRITE (R160). -/
  | stagingWrite (r : Req)
  /-- FENCE_ARM (R161). -/
  | fenceArm (src : Src) (d : Fin 4) (t : Fin 2048)
  /-- FENCE_CANCEL (R163). -/
  | fenceCancel (src : Src) (d : Fin 4) (t : Fin 2048)
  /-- CELL_STORE_ACCESS (R114). -/
  | cellStoreAccess (r : Req)
  /-- CELL_STORE_ACCESS_DONE (R114). -/
  | cellStoreAccessDone (a : CellId)
  /-- CELL_STATE_WRITE (R115). -/
  | cellStateWrite (src : Src) (a : CellId) (off : Fin 64) (w : Word32)
  /-- INGRESS_BEAT (R103). -/
  | ingressBeat (d : Fin 4) (p : Fin 64)
  /-- EGRESS_BEAT (R107). -/
  | egressBeat (d : Fin 4) (p : Fin 64)
  /-- PORT_CONFIG_WRITE (R110). -/
  | portConfigWrite (src : Src) (d : Fin 4) (p : Fin 64) (win : Bool) (w : Word32)
  /-- PORT_COUNT_READ (R113). -/
  | portCountRead (src : Src) (d : Fin 4) (p : Fin 64)
  /-- WT_PCNT_READ (R156). -/
  | wtPcntRead (src : Src) (d : Fin 4) (t : Fin 2048)
  /-- QUEUE_WRITE (R173). -/
  | queueWrite (d : Fin 4) (q : Fin 64) (b : Beat) (bad : Bool)
  /-- QUEUE_READ (R173). -/
  | queueRead (d : Fin 4) (q : Fin 64)
  /-- QUEUE_FLUSH (R176). -/
  | queueFlush (src : Src) (d : Fin 4) (q : Fin 64)
  /-- QUEUE_FLUSH_RELEASE (R176). -/
  | queueFlushRelease (d : Fin 4) (q : Fin 64)
  /-- QUEUE_CONFIG_WRITE (R172). -/
  | queueConfigWrite (src : Src) (d : Fin 4) (q : Fin 64) (w : Word32)
  /-- QUEUE_REGISTER_POP (R184). -/
  | queueRegisterPop (src : Src) (d : Fin 4) (q : Fin 64)
  /-- QUEUE_REGISTER_PUSH (R185). -/
  | queueRegisterPush (src : Src) (d : Fin 4) (q : Fin 64) (w : Word32)
  /-- DMA_RUN (R187). -/
  | dmaRun (src : Src) (d : Fin 4) (q : Fin 64) (w : Word32)
  /-- DMA_TRANSFER (R186). -/
  | dmaTransfer (d : Fin 4) (q : Fin 64)
  /-- DMA_PARTIAL_FLIT (R189). -/
  | dmaPartialFlit (d : Fin 4) (q : Fin 64)
  /-- DMA_RESPONSE (R191). -/
  | dmaResponse (d : Fin 4) (q : Fin 64) (lost : Bool)
  /-- RISER_SPILL_WRITE (R193). -/
  | riserSpillWrite (d : Fin 4) (i : Fin 32)
  /-- RISER_REFILL_READ (R193). -/
  | riserRefillRead (d : Fin 4) (i : Fin 32)
  /-- RISER_RESPONSE (R197). -/
  | riserResponse (d : Fin 4) (i : Fin 32) (lost : Bool)
  /-- PUBLISH (R200). -/
  | publish (r : Req)
  /-- ACKNOWLEDGE (R201). -/
  | acknowledge (r : Req)
  /-- HELD_PUBLISH_RELEASE (R202). -/
  | heldPublishRelease (slot : Fin 4096)
  /-- RESULT_POLICY_WRITE (R205). -/
  | resultPolicyWrite (src : Src) (slot : Fin 4096) (w : Word32)
  /-- GLOBAL_CLOCK_SWITCH (R224). -/
  | globalClockSwitch (d : Fin 4) (g : Fin 32) (src : ClockSource) (en oldRuns newRuns : Bool)
  /-- BRAM_WRITE (R235). -/
  | bramWrite (d : Fin 4) (blk : Fin 2560) (port : Fin 2) (rel : EdgeRel)
  /-- BRAM_READ (R241). -/
  | bramRead (d : Fin 4) (blk : Fin 2560) (port : Fin 2) (rel : EdgeRel)
  /-- BRAM_SCRUB_STEP (R244). -/
  | bramScrubStep (d : Fin 4) (blk : Fin 2560) (bUsed aWrote : Bool)
  /-- BRAM_RAW_WRITE (R245). -/
  | bramRawWrite (src : Src)
  /-- BRAM_RAW_READ (R245). -/
  | bramRawRead (src : Src)
  /-- BRAM_CHECKED_READ (R245). -/
  | bramCheckedRead (src : Src)
  /-- MAC24_OPERATION (R249). -/
  | mac24Operation (d : Fin 4) (blk : Fin 6144) (rel : EdgeRel)
  /-- CROSSING_RECEIVE (R272). -/
  | crossingReceive (g : Fin 480) (dir : Fin 2) (err : BitVec 152) (rel : EdgeRel)
  /-- PROBE_ROTATION (R271). -/
  | probeRotation (g : Fin 480) (dir : Fin 2)
  /-- SPARE_TEST_DONE (R272). -/
  | spareTestDone (g : Fin 480) (dir : Fin 2)
  /-- TRANSIENT_PARITY_FAILURE (R272). -/
  | transientParityFailure (g : Fin 480) (dir : Fin 2)
  /-- HOLD_REQUEST (R273). -/
  | holdRequest (g : Fin 480) (dir : Fin 2)
  /-- PROBE_SUBSTITUTE (R273). -/
  | probeSubstitute (g : Fin 480) (dir : Fin 2)
  /-- LIVE_SHIFT (R273). -/
  | liveShift (g : Fin 480) (dir : Fin 2)
  /-- CROSSING_INJECT (R427). -/
  | crossingInject (src : Src) (w : Word32)
  /-- FLIT_RECEIVE (R280). -/
  | flitReceive (g : Fin 480) (dir : Fin 2) (flit : BitVec 768) (uiBad : BitVec 16)
  /-- FLIT_REPLAY (R280). -/
  | flitReplay (link : Fin 20) (seq : BitVec 12)
  /-- PACKET_SHIFT (R281). -/
  | packetShift (g : Fin 480) (dir : Fin 2) (seq : BitVec 12)
  /-- ROUTE_DRAIN_START (R356). -/
  | routeDrainStart
  /-- ROUTE_SWITCH (R356). -/
  | routeSwitch
  /-- WIRE_CHECK_DONE (R43). -/
  | wireCheckDone (fails : List (Nat × Nat × List Nat)) (flash : FlashDir)
  /-- LOAD_PATTERN (R299). -/
  | loadPattern (src : Src) (p : Fin 4)
  /-- LOAD_MASTER (R294). -/
  | loadMaster (src : Src)
  /-- HOST_START (R300). -/
  | hostStart (src : Src)
  /-- ABORT_LOAD (R308). -/
  | abortLoad (src : Src)
  /-- UNLOAD (R309). -/
  | unload (src : Src)
  /-- LOAD_FLASK_FROM_MEMORY (R317). -/
  | loadFlaskFromMemory (src : Src)
  /-- BAR4_WRITE (R300). -/
  | bar4Write (off : BitVec 28) (data : List Byte)
  /-- HEADER_RECEIVED (R295). -/
  | headerReceived (flash : Option FlashRead)
  /-- CHUNK_RECEIVED (R287). -/
  | chunkReceived (flash : Option FlashRead)
  /-- FRAMES_RECORD (R291). -/
  | framesRecord
  /-- TILE_DATA_RECORD (R291). -/
  | tileDataRecord
  /-- REGISTER_SETTINGS_RECORD (R291). -/
  | registerSettingsRecord
  /-- CROSSING_TABLE_RECORD (R292). -/
  | crossingTableRecord
  /-- PIN_TABLE_RECORD (R292). -/
  | pinTableRecord
  /-- DIE_END_RECORD (R293). -/
  | dieEndRecord
  /-- END_OF_CHUNK_RECORD (R290). -/
  | endOfChunkRecord
  /-- LOAD_CLEAR_DONE (R308). -/
  | loadClearDone
  /-- HOST_DEADLINE_EXPIRY (R301). -/
  | hostDeadlineExpiry
  /-- CROSSING_TRAINING_DONE (R302). -/
  | crossingTrainingDone
  /-- START_UP_SEQUENCE (R306). -/
  | startUpSequence
  /-- STARTUP_GSR (R307). -/
  | startupGsr
  /-- STARTUP_IOEN (R307). -/
  | startupIoen
  /-- STARTUP_GWE (R307). -/
  | startupGwe
  /-- STARTUP_DONE (R307). -/
  | startupDone
  /-- LEGACY_STARTUP_EVENT (R348). -/
  | legacyStartupEvent (e : Fin 3)
  /-- PERST_N_ASSERT (R457). -/
  | perstNAssert
  /-- PERST_N_RELEASE (R457). -/
  | perstNRelease
  /-- CAPTURE (R320). -/
  | capture (src : Src) (flask : Fin 64) (net : Fin 32)
  /-- CAPTURE_TAKEN (R320). -/
  | captureTaken (near : List Nat)
  /-- READ_CAPTURE_FRAME (R322). -/
  | readCaptureFrame (src : Src) (flask : Fin 64) (k : BitVec 16)
  /-- READ_CONFIGURATION_FRAME (R322). -/
  | readConfigurationFrame (src : Src) (die : Fin 4) (frame : BitVec 16)
  /-- CANCEL_CAPTURE (R320). -/
  | cancelCapture (src : Src) (flask : Fin 64)
  /-- READBACK_LOCK_READ (R322). -/
  | readbackLockRead (src : Src)
  /-- READBACK_LOCK_RELEASE (R322). -/
  | readbackLockRelease (src : Src)
  /-- FETTLER_FRAME_CHECK (R323). -/
  | fettlerFrameCheck (d : Fin 4) (upset : Option (List Byte)) (misread : Bool) (vote : Option Byte)
  /-- FETTLER_REQUEST_POP (R327). -/
  | fettlerRequestPop (src : Src) (d : Fin 4) (flash : Option (FlashRead × FlashRead))
  /-- WRITE_FRAME (R327). -/
  | writeFrame (src : Src) (die : Fin 4) (frame : BitVec 16)
  /-- WRITE_FRAME_REBUILD_SIGNATURE (R327). -/
  | writeFrameRebuildSignature (src : Src) (die : Fin 4) (frame : BitVec 16)
  /-- FRAME_REWRITE_DONE (R327). -/
  | frameRewriteDone (back : Option (List Byte))
  /-- READ_LEGACY_FRAME (R351). -/
  | readLegacyFrame (src : Src) (frame : BitVec 24)
  /-- LEGACY_CAPTURE_TRIGGER (R350). -/
  | legacyCaptureTrigger (near : List Nat)
  /-- LEGACY_GLOBAL_SET_RESET (R349). -/
  | legacyGlobalSetReset (level : Bool)
  /-- LEGACY_PIN_CLOCK_LOST (R338). -/
  | legacyPinClockLost (f : Fin 8)
  /-- LEGACY_PLL_RELOCK (R338). -/
  | legacyPllRelock (f : Fin 8)
  /-- NOC_REQUEST_INJECT (R357). -/
  | nocRequestInject (r : Req) (panic : Bool)
  /-- ROUTER_FORWARD (R356). -/
  | routerForward (r : Fin 116) (port : Fin 8) (arrive : Option RouterFlit) (credit : BitVec 8)
  /-- TARGET_REQUEST (R365). -/
  | targetRequest (r : Req)
  /-- RESPONSE_ARRIVAL (R363). -/
  | responseArrival (r : Req) (code : Fin 8) (stamp : BitVec 16) (data : List Byte) (bad : List Nat)
  /-- MASTER_TIMEOUT (R363). -/
  | masterTimeout (m : Fin 64) (core : Fin 4) (t : Fin 1024)
  /-- TAG_RELEASE (R363). -/
  | tagRelease (m : Fin 64) (t : Fin 1024)
  /-- TARGET_TIMEOUT (R364). -/
  | targetTimeout (r : Req)
  /-- HISTOGRAM_LEVEL_SAMPLE (R374). -/
  | histogramLevelSample (h : Fin 16) (measured : Nat)
  /-- HISTOGRAM_CLEAR (R374). -/
  | histogramClear (src : Src) (h : Fin 16) (w : Word32)
  /-- TRACE_CLEAR (R373). -/
  | traceClear (src : Src) (r : Fin 116)
  /-- NOC_MSTAT_READ (R363). -/
  | nocMstatRead (src : Src) (m : Fin 64)
  /-- PROBE_COUNT_READ (R373). -/
  | probeCountRead (src : Src) (r : Fin 116) (k : Fin 4)
  /-- XGCNT_READ (R272). -/
  | xgcntRead (src : Src) (g : Fin 480) (dir : Fin 2)
  /-- DRAM_READ (R383). -/
  | dramRead (r : Req)
  /-- DRAM_WRITE (R388). -/
  | dramWrite (r : Req)
  /-- CORRECTION_WRITEBACK (R386). -/
  | correctionWriteback (block : BitVec 42)
  /-- PATROL_SCRUB (R386). -/
  | patrolScrub (hbm : Bool) (unit : Fin 4)
  /-- REFRESH (R389). -/
  | refresh (bank : BitVec 32)
  /-- PAGE_TIMEOUT (R390). -/
  | pageTimeout (bank : BitVec 32)
  /-- POWER_DOWN_ENTRY (R391). -/
  | powerDownEntry (hbm : Bool) (unit : Fin 4) (rank : BitVec 32)
  /-- DRAM_TEMPERATURE_READ (R392). -/
  | dramTemperatureRead (hbm : Bool) (unit : Fin 4) (temp : Int)
  /-- TRACKING (R394). -/
  | tracking (hbm : Bool) (unit : Fin 4) (sub : Fin 32)
  /-- PERIODIC_RETRAIN (R395). -/
  | periodicRetrain (hbm : Bool) (unit : Fin 4) (rank : BitVec 32) (busy fin : Bool)
  /-- COMMAND_PARITY_ERROR (R396). -/
  | commandParityError (hbm : Bool) (unit : Fin 4) (sub : Fin 32) (again retrained : Bool) (reqs : List Req)
  /-- SOFT_REPAIR (R397). -/
  | softRepair (src : Src) (hbm : Bool)
  /-- HARD_REPAIR (R398). -/
  | hardRepair (src : Src) (hbm : Bool)
  /-- REPAIR_COMPLETE (R397). -/
  | repairComplete (hbm : Bool) (res : Fin 8)
  /-- POISON_BLOCK (R385). -/
  | poisonBlock (src : Src)
  /-- CLEAR_BLOCK (R385). -/
  | clearBlock (src : Src)
  /-- REGION_ENABLE (R381). -/
  | regionEnable (src : Src) (r : Fin 64) (w : Word32)
  /-- REGION_INIT_DONE (R409). -/
  | regionInitDone (r : Fin 64)
  /-- REGION_DISABLE (R421). -/
  | regionDisable (src : Src) (r : Fin 64) (w : Word32)
  /-- ENCRYPTED_READ (R411). -/
  | encryptedRead (r : Req)
  /-- ENCRYPTED_WRITE (R413). -/
  | encryptedWrite (r : Req)
  /-- SECTOR_EVICTION (R412). -/
  | sectorEviction (e : Fin 6)
  /-- LOAD_NEW_KEY (R418). -/
  | loadNewKey (src : Src) (r : Fin 64)
  /-- LOAD_CURRENT_KEY (R418). -/
  | loadCurrentKey (src : Src) (r : Fin 64)
  /-- ZERO_KEY_BUFFER (R418). -/
  | zeroKeyBuffer (src : Src)
  /-- CLEAR_SECTOR (R414). -/
  | clearSector (src : Src)
  /-- POISON_SECTOR (R413). -/
  | poisonSector (src : Src)
  /-- REBUILD_LOST_NODE (R416). -/
  | rebuildLostNode (src : Src)
  /-- REKEY (R419). -/
  | rekey (src : Src) (r : Fin 64) (w : Word32)
  /-- REKEY_WALK_STEP (R419). -/
  | rekeyWalkStep (r : Fin 64)
  /-- ROTATION_COMPLETE (R419). -/
  | rotationComplete (r : Fin 64)
  /-- BUCKET_LEAK (R423). -/
  | bucketLeak
  /-- RAW_WRITE (R427). -/
  | rawWrite (src : Src)
  /-- RAW_READ (R427). -/
  | rawRead (src : Src)
  /-- CHECKED_READ (R428). -/
  | checkedRead (src : Src)
  /-- PARITY_INJECT (R429). -/
  | parityInject (src : Src) (w : Word32)
  /-- LOG_ENTRY_ACCEPT (R434). -/
  | logEntryAccept
  /-- LOG_READ_COPY (R437). -/
  | logReadCopy (src : Src) (p : Fin 4) (q : Word32)
  /-- LOG_PERSIST (R438). -/
  | logPersist (n : Fin 4097) (erased : Nat)
  /-- LANE_ENABLE (R449). -/
  | laneEnable (src : Src) (l : Fin 40) (w : Word32)
  /-- LANE_PIN_CHECK_DONE (R449). -/
  | lanePinCheckDone (l : Fin 40) (fault : Fin 5)
  /-- RX_LOCK (R450). -/
  | rxLock (l : Fin 40) (ps : Word32)
  /-- LOCK_LOSS_TIMEOUT (R453). -/
  | lockLossTimeout (l : Fin 40)
  /-- FALL_BACK_REQUEST (R451). -/
  | fallBackRequest (l : Fin 40)
  /-- FALL_BACK_DETECT (R451). -/
  | fallBackDetect (l : Fin 40)
  /-- FALL_BACK_END (R451). -/
  | fallBackEnd (l : Fin 40) (inv : BitVec 4) (rev fail : Bool)
  /-- ADAPTATION_EPOCH (R452). -/
  | adaptationEpoch (l : Fin 40)
  /-- FEC_CODEWORD_RECEIVE (R443). -/
  | fecCodewordReceive (l : Fin 40) (wrong : Nat)
  /-- LANE_WORD_RELEASE (R448). -/
  | laneWordRelease (l : Fin 40) (tx late : Bool) (words : List (List (Fin 4)))
  /-- LOOPBACK_SELECT (R454). -/
  | loopbackSelect (src : Src) (l : Fin 40) (w : Word32)
  /-- LANE_SETTING_WRITE (R455). -/
  | laneSettingWrite (src : Src) (l : Fin 40) (rate : Bool) (w : Word32)
  /-- FEC_COUNT_READ (R443). -/
  | fecCountRead (src : Src) (g : Fin 10)
  /-- CECNT_READ (R383). -/
  | cecntRead (src : Src) (hbm : Bool) (unit : Fin 4)
  /-- TLP_READ (R461). -/
  | tlpRead (bar : Fin 3) (off : BitVec 36) (len : Fin 4097)
  /-- TLP_WRITE (R461). -/
  | tlpWrite (bar : Fin 3) (off : BitVec 36) (data : List Byte)
  /-- TRANSLATION_ENABLE (R460). -/
  | translationEnable (src : Src) (n : Fin 16) (w : Word32)
  /-- GOVERNOR_WINDOW_END (R476). -/
  | governorWindowEnd (avg : BitVec 32) (doms : List Nat)
  /-- SEQUENCER_RAISE_START (R474). -/
  | sequencerRaiseStart
  /-- SEQUENCER_FREQUENCY_SWITCH (R474). -/
  | sequencerFrequencySwitch
  /-- SEQUENCER_STEP_COMPLETE (R474). -/
  | sequencerStepComplete
  /-- CAP_WRITE (R478). -/
  | capWrite (src : Src) (w : Word32)
  /-- SLEEP_REQUEST (R479). -/
  | sleepRequest (src : Src)
  /-- DEEP_SLEEP_REQUEST (R480). -/
  | deepSleepRequest (src : Src)
  /-- RUN_REQUEST (R481). -/
  | runRequest (src : Src)
  /-- TAG_DRAIN_COMPLETE (R479). -/
  | tagDrainComplete
  /-- SMBUS_READ_TEMPERATURE (R468). -/
  | smbusReadTemperature
  /-- SMBUS_READ_POWER (R468). -/
  | smbusReadPower
  /-- SMBUS_READ_STATUS (R468). -/
  | smbusReadStatus
  /-- SMBUS_WAKE (R468). -/
  | smbusWake
  /-- SMBUS_FIRMWARE_COMMAND (R468). -/
  | smbusFirmwareCommand (code : BitVec 8) (reply : Option (List Byte))
  /-- SENSOR_SAMPLE (R469). -/
  | sensorSample (n : Fin 12) (temps : List (BitVec 12))
  /-- TRIP_RELEASE (R483). -/
  | tripRelease (src : Src) (w : Word32)
  /-- AGEING_MEASUREMENT (R484). -/
  | ageingMeasurement (n : Fin 12) (ppm : Nat)
  /-- MC_RESTART (R467). -/
  | mcRestart (watchdog : Bool)
  /-- LOCK_READ (R490). -/
  | lockRead (src : Src) (c : Fin 32)
  /-- LOCK_RELEASE (R490). -/
  | lockRelease (src : Src) (c : Fin 32)
  /-- GO (R492). -/
  | go (src : Src) (c : Fin 32) (len : BitVec 5)
  /-- TAKE (R489). -/
  | take (src : Src) (c : Fin 32)
  /-- DONE (R492). -/
  | done (src : Src) (c : Fin 32) (len : BitVec 5)
  /-- WITHDRAW (R489). -/
  | withdraw (src : Src) (c : Fin 32)
  /-- MAILBOX_TIMEOUT (R495). -/
  | mailboxTimeout (c : Fin 32)
  /-- FORCE (R565). -/
  | force (src : Src) (c : Fin 32)
  /-- LOG_SERVICE (R498). -/
  | logService (c : Fin 9) (busy : Bool)
  /-- ATTESTATION (R517). -/
  | attestation (c : Fin 9) (busy : Bool)
  /-- CERTIFICATE_CHAIN (R518). -/
  | certificateChain (c : Fin 9) (busy : Bool)
  /-- DEVICE_NONCE (R518). -/
  | deviceNonce (c : Fin 9)
  /-- PROGRAM_OWNER_KEY (R514). -/
  | programOwnerKey (c : Fin 9)
  /-- REVOKE_OWNER_KEY (R514). -/
  | revokeOwnerKey (c : Fin 9)
  /-- BLOW_HL_DIS (R334). -/
  | blowHlDis (c : Fin 9)
  /-- REVOKE_IMAGE_KEY (R514). -/
  | revokeImageKey (c : Fin 9)
  /-- REVOKE_LEGACY_KEY (R514). -/
  | revokeLegacyKey (c : Fin 9)
  /-- KEY_WRITE (R515). -/
  | keyWrite (c : Fin 9)
  /-- CHECK_AND_STAGE (R502). -/
  | checkAndStage (src : Src)
  /-- STAGING_COMPLETE (R504). -/
  | stagingComplete (ok : Bool)
  /-- ACTIVATE (R506). -/
  | activate (src : Src)
  /-- CONFIRM (R509). -/
  | confirm (src : Src) (healthy : Bool)
  /-- DISCARD_STAGED_SET (R502). -/
  | discardStagedSet (src : Src)
  /-- TRIAL_TIMER_EXPIRY (R510). -/
  | trialTimerExpiry
  /-- CORE_RESET (R525). -/
  | coreReset (src : Src) (i : Fin 4)
  /-- CORE_BOOT (R526). -/
  | coreBoot (i : Fin 4) (img : List Byte)
  /-- SEC_DROP (R522). -/
  | secDrop (src : Src) (i : Fin 4)
  /-- WATCHDOG_KICK (R529). -/
  | watchdogKick (src : Src) (i : Fin 4)
  /-- CLEAN (R523). -/
  | clean (src : Src) (hi : BitVec 16)
  /-- INVALIDATE (R523). -/
  | invalidate (src : Src) (hi : BitVec 16)
  /-- CLEAN_AND_INVALIDATE (R523). -/
  | cleanAndInvalidate (src : Src) (hi : BitVec 16)
  /-- CORE_IO_ACCESS (R520). -/
  | coreIoAccess (r : Req) (kind : CoreAccess) (pc : BitVec 64) (prv : Fin 4)
  /-- TRIGGER_HIT (R534). -/
  | triggerHit (i : Fin 4) (t : Fin 8) (kind : Fin 3) (addr val : BitVec 64) (prv : Fin 4) (pc : BitVec 64) (regs : List (BitVec 16 × BitVec 64))
  /-- TAP_RESET (R531). -/
  | tapReset
  /-- IDCODE (R531). -/
  | idcode
  /-- SAMPLE_PRELOAD (R531). -/
  | samplePreload (cells load : List Bool)
  /-- EXTEST (R532). -/
  | extest (cells load : List Bool)
  /-- EXTEST_PULSE (R532). -/
  | extestPulse (cells load : List Bool)
  /-- EXTEST_TRAIN (R532). -/
  | extestTrain (cells load : List Bool)
  /-- CLAMP (R532). -/
  | clamp
  /-- HIGHZ (R532). -/
  | highz
  /-- DTMCS (R531). -/
  | dtmcs (w : Word32)
  /-- DMI (R531). -/
  | dmi (op : Fin 3) (addr : BitVec 7) (w : Word32) (pc : BitVec 64) (prv : Fin 4) (regs : List (BitVec 16 × BitVec 64)) (exc : Bool)
  /-- BYPASS (R531). -/
  | bypass (code : BitVec 8)
  /-- DEBUG_HALT (R533). -/
  | debugHalt (h : Fin 5) (pc : BitVec 64) (prv : Fin 4) (regs : List (BitVec 16 × BitVec 64))
  /-- DEBUG_RESUME (R530). -/
  | debugResume (h : Fin 5) (pc : BitVec 64) (regs : List (BitVec 16 × BitVec 64))
  /-- ABSTRACT_REGISTER_ACCESS (R533). -/
  | abstractRegisterAccess (h : Fin 5) (write : Bool) (n : BitVec 16) (v : BitVec 64)
  /-- ABSTRACT_MEMORY_ACCESS (R533). -/
  | abstractMemoryAccess (h : Fin 5) (write : Bool) (size : Fin 4) (addr v : BitVec 64)
  /-- SYSTEM_BUS_ACCESS (R535). -/
  | systemBusAccess (write : Bool) (size : Fin 4) (addr v : BitVec 64)
  /-- UNLOCK (R538). -/
  | unlock (src : Src)
  /-- UNLOCK_CHECK_DONE (R539). -/
  | unlockCheckDone
  /-- RELOCK (R539). -/
  | relock (src : Src)
  /-- BANK_VCCO_CHANGE (R545). -/
  | bankVccoChange (hv : Bool) (bank : Fin 24) (good : Bool)
  /-- PIN_FAULT (R553). -/
  | pinFault (q : Fin 1216) (pad : Bool)
  /-- REGISTER_WRITE (R16). -/
  | registerWrite (src : Src) (addr : BitVec 48) (w : Word32)
  /-- LOSS_OF_LOCK (R453). -/
  | lossOfLock (l : Fin 40)
  /-- HOST_LINK_STATE_CHANGE (R456). -/
  | hostLinkStateChange (up flit : Bool) (speed : Fin 7) (width : Fin 17) (link : Fin 3) (d3hot : Bool)
  /-- TRAINING_COMPLETE (R393). -/
  | trainingComplete (hbm : Bool) (unit : Fin 4) (ok : Bool) (pcs pop : Word32)
  /-- FLIP_FLOP_CLOCK_EDGE (R223). -/
  | flipFlopClockEdge (d : Fin 4) (cl : Fin 131072) (half : Fin 2) (rel : EdgeRel) (hit : List (Fin 32))
  /-- ASYNCHRONOUS_SET_RESET (R223). -/
  | asynchronousSetReset (d : Fin 4) (cl : Fin 131072) (half : Fin 2)
deriving DecidableEq, Repr

end Sys2Proof
end

