-- ==== Sys2Proof/Config.lean ====
section
/-!
DEFINITION. Sys2Proof/Config.lean: what the specification names by reference to another standard or leaves open, as
constants without a body.  Nothing can evaluate them or prove a value of them, so a statement holds whatever they are.
-/

namespace Sys2Proof.Config

/-- A free value of `w` bits: the n-th value the specification leaves undefined or unstated (log entry 10). -/
opaque freeValue (w : Nat) (n : Nat) : BitVec w

/-- The private key of the device identity (R516), and the per-message number that the crypto engine draws for the signature of a
digest (R517). -/
opaque identityKey : BitVec 256
opaque signNonce (digest : BitVec 256) : BitVec 256

/-- The owner public key whose SHA-256 digest is fused: a request block (R514) does not carry it, and the manual does not say where
MC firmware finds it (log entry 109). -/
opaque ownerKey (keyDigest : BitVec 256) : BitVec 512

/-- The certificate chain in OTP (R516). -/
opaque certificateChain : List Byte

/-- The digest of every fuse outside the key material (R517). -/
opaque otpDigest (fuses : Otp) : BitVec 256

/-- Base and length of the alternate area of a pattern, in a board record (R503). -/
opaque boardArea (board : List Byte) (pattern : Nat) : Nat × Nat

/-- Random numbers of the hub's random number source (R406, R518, R538). -/
opaque random (n : Nat) : BitVec 256

/-- Which primitive polynomial of degree 8 makes the field of the Reed-Solomon codes of R380, and the exponent of the first root of
their generators; the manual gives neither. -/
opaque rsField : Fin 16
opaque rsRoot : Fin 255
/-- Bytes in error of an uncorrectable block, 0xFF if unknown, for the log entry of R387. -/
opaque rsBadBytes (hbm : Bool) (data : List Byte) (delta : BitVec 128) : BitVec 8
/-- The fixed check pattern that marks poison in a symbol-ECC block (R385). -/
opaque poisonPattern (hbm : Bool) : BitVec 128
/-- The frequency in kHz of the controller clock of DDR5 channel or HBM stack `unit` (R63), which the manual does not give. -/
opaque controllerKhz (hbm : Bool) (unit : Nat) : Nat
/-- Whether a block written under one code reads as PERR (true) or DERR (false) under the other (R382). -/
opaque codeMismatchPoison (block : Nat) : Bool
/-- Which bytes of a block written under symbol ECC fail their parity once byte parity applies (R382, R384). -/
opaque codeMismatchParity (block : Nat) : BitVec 64

/-- Rank (bit 23) and bank (bits [21:16]) of a DRAM address under a DDR_MAP value, as bits of PPRLOC_HI, and its row
(R387, R397); the manual gives no map. -/
opaque dramRankBank (map addr : Nat) : BitVec 32
opaque dramRow (map addr : Nat) : BitVec 18

/-- The set of the 16-way L2 that a block belongs to (R519, log entry 63). -/
opaque l2Set (block : Nat) : Fin 2048

/-- The HBM port of a pseudo-channel and the fabric target port of an address of a user window (R356); the manual gives neither. -/
opaque hbmPort (pc : Nat) : Fin 8
opaque userPort (addr : Nat) : Fin 12

/-- The settings that the logic frames of a flask hold for one logic cell (R207), a cluster, a block RAM and a MAC24 block; the
frame format is not in the manual. -/
opaque cellFrameBits (frames : SMap (List Byte)) (die cell : Nat) : BitVec 128
opaque clusterFrameBits (frames : SMap (List Byte)) (die cluster : Nat) : BitVec 64
opaque bramFrameBits (frames : SMap (List Byte)) (die block : Nat) : BitVec 64
opaque mac24FrameBits (frames : SMap (List Byte)) (die block : Nat) : BitVec 64
/-- What the logic frames of a flask let drive a segment that starts at a cluster and a cluster input (R211, R215, R231, R261), a
transmit input of a crossing (R261), a LUT or control input of a cluster (192 LUT inputs, then 23 control inputs, R210), an
input pin of a block RAM and of a MAC24 (R231). -/
opaque segmentDrive (frames : SMap (List Byte)) (die cluster seg : Nat) : Drive
opaque inputDrive (frames : SMap (List Byte)) (die cluster input : Nat) : Drive
opaque transmitDrive (frames : SMap (List Byte)) (group dir signal : Nat) : Drive
opaque crossbarPick (frames : SMap (List Byte)) (die cluster sink : Nat) : Pick
opaque bramPick (frames : SMap (List Byte)) (die block pin : Nat) : Pick
opaque macPick (frames : SMap (List Byte)) (die block pin : Nat) : Pick
/-- The attached cluster, counted from the north, that an input pin is assigned to (R231). -/
opaque bramPinRow (pin : Nat) : Fin 8
opaque macPinRow (pin : Nat) : Fin 2
/-- The clock that a cluster half, a block RAM port and a MAC24 block select (R227, R233, R250), and a regional clock (R226). -/
opaque halfClock (frames : SMap (List Byte)) (die cluster half : Nat) : ClockPick
opaque bramClock (frames : SMap (List Byte)) (die block port : Nat) : ClockPick
opaque macClock (frames : SMap (List Byte)) (die block : Nat) : ClockPick
opaque regional (frames : SMap (List Byte)) (die clock : Nat) : Regional
/-- What the die-global frames set: the source and the enable of a global network, the figures of a fabric PLL (R224, R225), and
the isolation value of a segment, of a transmit input and of a network's source and enable from fabric logic (R315). -/
opaque networkSource (frames : SMap (List Byte)) (die network : Nat) : Option ClockSource
opaque networkEnable (frames : SMap (List Byte)) (die network : Nat) : Option Tap
opaque pllSettings (frames : SMap (List Byte)) (die pll : Nat) : PllCfg
opaque segmentIso (frames : SMap (List Byte)) (die cluster seg : Nat) : Iso
opaque transmitIso (frames : SMap (List Byte)) (group dir signal : Nat) : Iso
opaque networkIso (frames : SMap (List Byte)) (die network : Nat) : Iso
/-- The frequency in kHz that the board gives a clock-capable pin of a die, and that of a clock made by logic. -/
opaque pinKhz (die pin : Nat) : Nat
opaque logicKhz (die cluster out : Nat) : Nat
/-- The level that the board gives a high-voltage pin when the n-th free value is drawn. -/
opaque padLevel (n pin : Nat) : Bool
/-- The crossbar selection of a bit of tx_data of a lane, or of fb_req (512), and which of the lane's 12 attached clusters it lies at (R446). -/
opaque lanePick (frames : SMap (List Byte)) (lane pin : Nat) : Pick
opaque lanePinRow (pin : Nat) : Fin 12
/-- What the image makes of a pin: for high-performance pin `pin` of a die the signals of its output and its output enable, and for
any pin (index of R292) its pull while it is not driven (R291, R547). -/
opaque padTap (frames : SMap (List Byte)) (die pin : Nat) : Tap × Tap
opaque padPull (frames : SMap (List Byte)) (pin : Nat) : Option Bool
/-- The cells of the boundary register that give a pin (index of R292) its level and its output enable: the BSDL description that R532
names is not in the spec (log entry 115). -/
opaque bsdlCells (pin : Nat) : Nat × Nat
/-- The value of a signal that nothing determines (log entry 10): an undriven routing resource, a combinational loop. -/
opaque floating (n : Nat) (key : Nat) : Bool
/-- What the frames of a load set for a lane (LN_LANEl_CFG, LN_LANEl_RATE) and for a lane group (LN_GRPg_CFG): their resets are
"image". -/
opaque laneImage (frames : SMap (List Byte)) (lane : Nat) : BitVec 32 × BitVec 32
opaque laneGroupImage (frames : SMap (List Byte)) (group : Nat) : BitVec 32


/-- The recast engine (R339, R340, R341): the native records that a chunk payload of a Tarod body gives, or none where it
refuses the body (R333, R339, R341). The TRD-2260 formats are not in the manual. -/
opaque recast (die : Nat) (keys : SMap (BitVec 256)) (chunk : Nat) (payload : List Byte) : Option (List Byte)
/-- The start-up cycles n of the legacy release of global set/reset, of I/O and of global write enable (R348), and whether
the legacy image is encrypted, of the Tarod image that a header names by its digests. -/
opaque legacyStart (header : List Byte) : Nat × Nat × Nat
opaque legacyEncrypted (header : List Byte) : Bool
/-- Whether a legacy frame address is in range, and the legacy address of a native frame (R350, R351). -/
opaque legacyFrameOk (frame : Nat) : Bool
opaque legacyAddress (frame : Nat) : Nat
/-- A legacy frame rebuilt from native frames, capture bits and block RAM contents (R351): 404 bytes. -/
opaque legacyFrame (frames : SMap (List Byte)) (capt : SMap Bool) (bram : SMap (BitVec 72)) (die frame : Nat) : List Byte

/-- What the output register of a block RAM port of a Tarod die holds while the legacy design asserts its global set/reset
(R349: the legacy rule, which the manual does not restate). -/
opaque legacyGsrOut (die port : Nat) (old : BitVec 72) : BitVec 72

/-- Digests of Yilpen keys 0 and 1 in the boot ROM (R501), and of the boot ROM (R517). -/
opaque yilpenKey (k : Nat) : BitVec 256
opaque bootRomDigest : BitVec 256

end Sys2Proof.Config
end

