-- ==== Sys2Proof/Machine/RegTable.lean ====
section
/-!
DEFINITION. Sys2Proof/Machine/RegTable.lean: every register of the specification, one descriptor each, taken from
the register maps of the chapters: base address (R24, R27), strides, reset domain (R18), clock domain (R19), peek
entry (R20), the requesters that may write or read it, and its fields with access type (R16) and reset value.
Reserved bits (RSV) are the bits no field covers.  A field whose Reset entry names straps, fuses, OTP or the image
stands here with 0; POWER_ON and the loader store its value.
-/

namespace Sys2Proof.Machine

/-- Access types of R16; RSV bits are those no field covers. -/
inductive Acc where
  | ro | rw | w1c | w1s | wo
deriving DecidableEq, Repr

/-- Reset domains of R18. -/
inductive Domain where
  | por | warm | host | load | dbg
deriving DecidableEq, Repr

/-- Clock domains that update a register (R19). -/
inductive ClockDom where
  | hub | die | wa | tb | noc
deriving DecidableEq, Repr

/-- The registers of the specification; indices are given beside the name wherever a register is named. -/
inductive RegName where
  | dieId | glbFeature | glbWirechk | glbXstat | glbXctrl | glbXinj | glbTarod | glbPinctrl | glbFlmap
  | glbBankpwrHp | glbBankpwrHv | glbPinflt | glbXgstat | glbXgcnt | clkRefstat | clkRefctrl | clkMon | clkGate
  | tbTimeLo | tbTimeHi | tbStat | tbTickCtrl | tbTickPeriod | tbTickStartLo | tbTickStartHi | tbTickCount
  | wtStat | wtIstat | wtPstat | wtPcnt | wtCtrl | wtFenceCtrl | wtFenceLo | wtFenceHi | waStat | waMisrun
  | waPortCfg | waPortWin | waPortStat | waPortCnt | waSqCfg | waSqStat | waSqRdmeta | waSqWrctl | waSqRd
  | waSqWr | waDmBaseLo | waDmBaseHi | waDmHead | waDmTail | waDmCtrl | waRsBaseLo | waRsBaseHi | waRsCfg
  | waRsStat | rslPol | rslValidsum | rslStat | eccBktCfg | eccBktStat | eccOvf | eccBrsel | eccBraddr
  | eccBrdataLo | eccBrdataHi | eccBrchk | eccBrcmd | eccRtsel | eccRtaddrLo | eccRtaddrHi | eccRtcmd
  | eccRtbuf | eccPinj | logCfg | logStat | logWseq | logPseq | logRdseq | logRdflg | logRd | cfgStat
  | cfgErrinfo | cfgCmd | cfgHdeadline | cfgHpos | cfgMaddrLo | cfgMaddrHi | ftlStat | ftlReq | ftlPass
  | ftlFlask | ftlRblock | ftlRbcmd | ftlRbtLo | ftlRbtHi | ftlTrbcmd | ftlRcmd | ftlRsrcLo | ftlRsrcHi
  | ftlRbuf | ftlRbwin | ftlTrbwin | nocMcfg | nocMstat | nocPanicLo | nocPanicHi | nocTsel | nocPrbCtrl
  | nocPrbFilt | nocPrbAddr | nocPrbCnt | nocPrbTstat | nocHistCfg | nocHistBase | nocHistCount | nocHistMin
  | nocHistMax | nocHistBin | nocTwin | ddrMap | ddrChCfg | hbmCfg | ddrChStat | hbmStkStat | hbmStkPcfail
  | ddrChCecnt | hbmStkCecnt | ddrRgnBase | ddrRgnLimit | ddrRgnCfg | ddrPcmd | ddrPaddrLo | ddrPaddrHi
  | ddrPprcmd | ddrPprlocLo | ddrPprlocHi | hbmPprcmd | hbmPprlocLo | hbmPprlocHi | encKeybuf | encKeycmd
  | encScmd | encSaddrLo | encSaddrHi | encAlarm | encRgnCtrl | encRgnStat | encRgnBoundLo | encRgnBoundHi
  | lnLaneCfg | lnLaneRate | lnLaneStat | lnLaneLat | lnGrpCfg | lnGrpFec | pciStat | pciWerr | pciWerrLo
  | pciWerrHi | pciTrLo | pciTrHi | pciTrCfg | pciQvec | pwrMode | pwrStat | pwrFuse | pwrCap | pwrPrio
  | pwrMeas | pwrTrip | pwrTl | pwrMargin | pwrSens | mbxLock | mbxCtrl | mbxStat | mbxCfg | mbxTgoLo
  | mbxTgoHi | mbxTdoneLo | mbxTdoneHi | mbxData | mbxPosted | updCmd | updStat | updBufLo | updBufHi
  | updTrial | secOtpstat | secSvn | ccCoreCtrl | ccBootLo | ccBootHi | ccWdt | ccCmoLo | ccCmoHi | dbgCfg
  | dbgNonce | dbgUnlkbuf | dbgUnlkcmd | glbAsmrec | ccMsip | ccMtimecmpLo | ccMtimecmpHi | ccMtimeLo
  | ccMtimeHi | plicPriority | plicPending | plicEnable | plicThreshold | plicClaim | msixTable | msixPba
deriving DecidableEq, Repr

/-- One field of a register: the register, its bits [hi:lo], its access type and its reset value. -/
structure Fld where
  reg : RegName
  hi : Nat
  lo : Nat
  acc : Acc
  rst : Nat
deriving DecidableEq, Repr

/-- The width of a field in bits. -/
def Fld.width (f : Fld) : Nat := f.hi + 1 - f.lo

/-- What the header line of a register map gives. `strides` lists (byte stride, number of copies) per index. -/
structure RegDesc where
  base : Nat
  strides : List (Nat × Nat)
  domain : Domain
  clock : ClockDom
  peek : Bool
  writers : Option (List Nat)
  readers : Option (List Nat)
  fields : List Fld
deriving Repr


/-! DIE_ID (01_seven_dies_two_stacks.md) -/
/-- Reset entry: fuses. -/
def F.dieId_type : Fld := ⟨.dieId, 31, 28, .ro, 0⟩
/-- Reset entry: fuses. -/
def F.dieId_site : Fld := ⟨.dieId, 27, 24, .ro, 0⟩
/-- Reset entry: fuses. -/
def F.dieId_major : Fld := ⟨.dieId, 23, 20, .ro, 0⟩
/-- Reset entry: fuses. -/
def F.dieId_minor : Fld := ⟨.dieId, 19, 16, .ro, 0⟩
/-- Reset entry: fuses. -/
def F.dieId_feature : Fld := ⟨.dieId, 15, 8, .ro, 0⟩
/-- DIE_ID: 01_seven_dies_two_stacks.md. -/
def D.dieId : RegDesc :=
  ⟨0xf0100000000, [(0x1000000, 12)], .por, .die, false, none, none,
      [F.dieId_type, F.dieId_site, F.dieId_major, F.dieId_minor, F.dieId_feature]⟩

/-! GLB_FEATURE (01_seven_dies_two_stacks.md) -/
/-- Reset entry: computed. -/
def F.glbFeature_aboveMask : Fld := ⟨.glbFeature, 23, 20, .ro, 0⟩
/-- Reset entry: computed. -/
def F.glbFeature_maxLevel : Fld := ⟨.glbFeature, 15, 8, .ro, 0⟩
/-- Reset entry: computed. -/
def F.glbFeature_devLevel : Fld := ⟨.glbFeature, 7, 0, .ro, 0⟩
/-- GLB_FEATURE: 01_seven_dies_two_stacks.md. -/
def D.glbFeature : RegDesc :=
  ⟨0xf0000000010, [], .por, .hub, false, none, none,
      [F.glbFeature_aboveMask, F.glbFeature_maxLevel, F.glbFeature_devLevel]⟩

/-! GLB_WIRECHK (01_seven_dies_two_stacks.md) -/
def F.glbWirechk_done : Fld := ⟨.glbWirechk, 31, 31, .ro, 0⟩
def F.glbWirechk_asmCrcErr : Fld := ⟨.glbWirechk, 30, 30, .ro, 0⟩
def F.glbWirechk_edgeFailed : Fld := ⟨.glbWirechk, 25, 16, .ro, 0⟩
def F.glbWirechk_edgeNewspare : Fld := ⟨.glbWirechk, 9, 0, .ro, 0⟩
/-- GLB_WIRECHK: 01_seven_dies_two_stacks.md. -/
def D.glbWirechk : RegDesc :=
  ⟨0xf0000000040, [], .warm, .hub, false, none, none,
      [F.glbWirechk_done, F.glbWirechk_asmCrcErr, F.glbWirechk_edgeFailed, F.glbWirechk_edgeNewspare]⟩

/-! GLB_XSTAT (09_die_crossings.md) -/
def F.glbXstat_lostAny : Fld := ⟨.glbXstat, 31, 31, .ro, 0⟩
def F.glbXstat_retiredAny : Fld := ⟨.glbXstat, 30, 30, .ro, 0⟩
def F.glbXstat_edgeLost : Fld := ⟨.glbXstat, 25, 16, .ro, 0⟩
def F.glbXstat_edgeRetired : Fld := ⟨.glbXstat, 9, 0, .ro, 0⟩
/-- GLB_XSTAT: 09_die_crossings.md. -/
def D.glbXstat : RegDesc :=
  ⟨0xf0000000044, [], .warm, .hub, false, none, none,
      [F.glbXstat_lostAny, F.glbXstat_retiredAny, F.glbXstat_edgeLost, F.glbXstat_edgeRetired]⟩

/-! GLB_XCTRL (09_die_crossings.md) -/
def F.glbXctrl_freeze : Fld := ⟨.glbXctrl, 31, 31, .rw, 0⟩
/-- GLB_XCTRL: 09_die_crossings.md. -/
def D.glbXctrl : RegDesc :=
  ⟨0xf0000000048, [], .warm, .hub, false, none, none,
      [F.glbXctrl_freeze]⟩

/-! GLB_XINJ (09_die_crossings.md) -/
def F.glbXinj_arm : Fld := ⟨.glbXinj, 31, 31, .rw, 0⟩
def F.glbXinj_mode : Fld := ⟨.glbXinj, 30, 30, .rw, 0⟩
def F.glbXinj_group : Fld := ⟨.glbXinj, 28, 20, .rw, 0⟩
def F.glbXinj_dir : Fld := ⟨.glbXinj, 19, 19, .rw, 0⟩
def F.glbXinj_signal : Fld := ⟨.glbXinj, 18, 11, .rw, 0⟩
/-- GLB_XINJ: 09_die_crossings.md. -/
def D.glbXinj : RegDesc :=
  ⟨0xf000000004c, [], .warm, .hub, false, none, none,
      [F.glbXinj_arm, F.glbXinj_mode, F.glbXinj_group, F.glbXinj_dir, F.glbXinj_signal]⟩

/-! GLB_TAROD (12_tarod_mode.md) -/
def F.glbTarod_active : Fld := ⟨.glbTarod, 31, 31, .ro, 0⟩
def F.glbTarod_die : Fld := ⟨.glbTarod, 30, 30, .ro, 0⟩
def F.glbTarod_up : Fld := ⟨.glbTarod, 29, 29, .ro, 0⟩
/-- Reset entry: OTP. -/
def F.glbTarod_hlDis : Fld := ⟨.glbTarod, 28, 28, .ro, 0⟩
def F.glbTarod_grade : Fld := ⟨.glbTarod, 27, 26, .ro, 0⟩
def F.glbTarod_enc : Fld := ⟨.glbTarod, 25, 25, .ro, 0⟩
def F.glbTarod_gsr : Fld := ⟨.glbTarod, 24, 24, .ro, 0⟩
def F.glbTarod_fpllLock : Fld := ⟨.glbTarod, 23, 16, .ro, 0⟩
/-- Reset entry: OTP. -/
def F.glbTarod_lkeyRev : Fld := ⟨.glbTarod, 3, 2, .ro, 0⟩
/-- Reset entry: OTP. -/
def F.glbTarod_lkeySet : Fld := ⟨.glbTarod, 1, 0, .ro, 0⟩
/-- GLB_TAROD: 12_tarod_mode.md. -/
def D.glbTarod : RegDesc :=
  ⟨0xf0000000050, [], .load, .hub, false, none, none,
      [F.glbTarod_active, F.glbTarod_die, F.glbTarod_up, F.glbTarod_hlDis, F.glbTarod_grade, F.glbTarod_enc,
     F.glbTarod_gsr, F.glbTarod_fpllLock, F.glbTarod_lkeyRev, F.glbTarod_lkeySet]⟩

/-! GLB_PINCTRL (22_electrical_pins_package.md) -/
def F.glbPinctrl_faultOff : Fld := ⟨.glbPinctrl, 31, 31, .rw, 0⟩
/-- GLB_PINCTRL: 22_electrical_pins_package.md. -/
def D.glbPinctrl : RegDesc :=
  ⟨0xf0000000060, [], .warm, .hub, false, none, none,
      [F.glbPinctrl_faultOff]⟩

/-! GLB_FLMAPn (22_electrical_pins_package.md) -/
def F.glbFlmap_found : Fld := ⟨.glbFlmap, 31, 31, .ro, 0⟩
def F.glbFlmap_remapped : Fld := ⟨.glbFlmap, 30, 30, .ro, 0⟩
def F.glbFlmap_keyMiss : Fld := ⟨.glbFlmap, 29, 29, .ro, 0⟩
def F.glbFlmap_map : Fld := ⟨.glbFlmap, 23, 0, .ro, 0xfac688⟩
/-- GLB_FLMAPn: 22_electrical_pins_package.md. -/
def D.glbFlmap : RegDesc :=
  ⟨0xf0000000068, [(0x4, 2)], .warm, .hub, false, none, none,
      [F.glbFlmap_found, F.glbFlmap_remapped, F.glbFlmap_keyMiss, F.glbFlmap_map]⟩

/-! GLB_BANKPWR_HP (22_electrical_pins_package.md) -/
def F.glbBankpwrHp_good : Fld := ⟨.glbBankpwrHp, 23, 0, .ro, 0⟩
/-- GLB_BANKPWR_HP: 22_electrical_pins_package.md. -/
def D.glbBankpwrHp : RegDesc :=
  ⟨0xf0000000070, [], .por, .hub, false, none, none,
      [F.glbBankpwrHp_good]⟩

/-! GLB_BANKPWR_HV (22_electrical_pins_package.md) -/
def F.glbBankpwrHv_good : Fld := ⟨.glbBankpwrHv, 13, 0, .ro, 0⟩
/-- GLB_BANKPWR_HV: 22_electrical_pins_package.md. -/
def D.glbBankpwrHv : RegDesc :=
  ⟨0xf0000000074, [], .por, .hub, false, none, none,
      [F.glbBankpwrHv_good]⟩

/-! GLB_PINFLTw (22_electrical_pins_package.md) -/
def F.glbPinflt_fault : Fld := ⟨.glbPinflt, 31, 0, .w1c, 0⟩
/-- GLB_PINFLTw: 22_electrical_pins_package.md. -/
def D.glbPinflt : RegDesc :=
  ⟨0xf0000000100, [(0x4, 38)], .warm, .hub, false, none, none,
      [F.glbPinflt_fault]⟩

/-! GLB_XGSTATg_d (09_die_crossings.md) -/
def F.glbXgstat_role : Fld := ⟨.glbXgstat, 31, 30, .ro, 0⟩
def F.glbXgstat_failed : Fld := ⟨.glbXgstat, 29, 29, .ro, 0⟩
def F.glbXgstat_retired : Fld := ⟨.glbXgstat, 28, 28, .ro, 0⟩
def F.glbXgstat_pending : Fld := ⟨.glbXgstat, 27, 27, .ro, 0⟩
def F.glbXgstat_late : Fld := ⟨.glbXgstat, 26, 26, .w1c, 0⟩
def F.glbXgstat_transient : Fld := ⟨.glbXgstat, 25, 25, .w1c, 0⟩
def F.glbXgstat_used : Fld := ⟨.glbXgstat, 23, 20, .ro, 0⟩
def F.glbXgstat_spareBad : Fld := ⟨.glbXgstat, 19, 12, .ro, 0⟩
def F.glbXgstat_probe : Fld := ⟨.glbXgstat, 7, 0, .ro, 0xff⟩
/-- GLB_XGSTATg_d: 09_die_crossings.md. -/
def D.glbXgstat : RegDesc :=
  ⟨0xf0000008000, [(0x10, 480), (0x8, 2)], .warm, .hub, false, none, none,
      [F.glbXgstat_role, F.glbXgstat_failed, F.glbXgstat_retired, F.glbXgstat_pending, F.glbXgstat_late,
     F.glbXgstat_transient, F.glbXgstat_used, F.glbXgstat_spareBad, F.glbXgstat_probe]⟩

/-! GLB_XGCNTg_d (09_die_crossings.md) -/
def F.glbXgcnt_lostLanes : Fld := ⟨.glbXgcnt, 31, 16, .ro, 0⟩
def F.glbXgcnt_parErrs : Fld := ⟨.glbXgcnt, 15, 0, .ro, 0⟩
/-- GLB_XGCNTg_d: 09_die_crossings.md. -/
def D.glbXgcnt : RegDesc :=
  ⟨0xf0000008004, [(0x10, 480), (0x8, 2)], .warm, .hub, true, none, none,
      [F.glbXgcnt_lostLanes, F.glbXgcnt_parErrs]⟩

/-! CLK_REFSTAT (02_reference_timebase_ticks.md) -/
def F.clkRefstat_aQual : Fld := ⟨.clkRefstat, 31, 31, .ro, 0⟩
def F.clkRefstat_bQual : Fld := ⟨.clkRefstat, 30, 30, .ro, 0⟩
def F.clkRefstat_active : Fld := ⟨.clkRefstat, 29, 29, .ro, 0⟩
def F.clkRefstat_locked : Fld := ⟨.clkRefstat, 28, 28, .ro, 0⟩
def F.clkRefstat_switched : Fld := ⟨.clkRefstat, 27, 27, .w1c, 0⟩
def F.clkRefstat_hotResume : Fld := ⟨.clkRefstat, 26, 26, .w1c, 0⟩
def F.clkRefstat_cmdErr : Fld := ⟨.clkRefstat, 25, 25, .w1c, 0⟩
def F.clkRefstat_warmByLoss : Fld := ⟨.clkRefstat, 24, 24, .w1c, 0⟩
/-- Reset entry: straps. -/
def F.clkRefstat_refqual : Fld := ⟨.clkRefstat, 18, 16, .ro, 0⟩
def F.clkRefstat_aLosses : Fld := ⟨.clkRefstat, 15, 8, .ro, 0⟩
def F.clkRefstat_bLosses : Fld := ⟨.clkRefstat, 7, 0, .ro, 0⟩
/-- CLK_REFSTAT: 02_reference_timebase_ticks.md. -/
def D.clkRefstat : RegDesc :=
  ⟨0xf0000010000, [], .por, .hub, false, none, none,
      [F.clkRefstat_aQual, F.clkRefstat_bQual, F.clkRefstat_active, F.clkRefstat_locked, F.clkRefstat_switched,
     F.clkRefstat_hotResume, F.clkRefstat_cmdErr, F.clkRefstat_warmByLoss, F.clkRefstat_refqual,
     F.clkRefstat_aLosses, F.clkRefstat_bLosses]⟩

/-! CLK_REFCTRL (02_reference_timebase_ticks.md) -/
def F.clkRefctrl_switch : Fld := ⟨.clkRefctrl, 2, 2, .wo, 0⟩
def F.clkRefctrl_revert : Fld := ⟨.clkRefctrl, 1, 1, .rw, 0⟩
def F.clkRefctrl_prefer : Fld := ⟨.clkRefctrl, 0, 0, .rw, 0⟩
/-- CLK_REFCTRL: 02_reference_timebase_ticks.md. -/
def D.clkRefctrl : RegDesc :=
  ⟨0xf0000010004, [], .por, .hub, false, none, none,
      [F.clkRefctrl_switch, F.clkRefctrl_revert, F.clkRefctrl_prefer]⟩

/-! CLK_MON (02_reference_timebase_ticks.md) -/
def F.clkMon_src : Fld := ⟨.clkMon, 31, 24, .rw, 0⟩
def F.clkMon_divm1 : Fld := ⟨.clkMon, 15, 0, .rw, 1⟩
/-- CLK_MON: 02_reference_timebase_ticks.md. -/
def D.clkMon : RegDesc :=
  ⟨0xf0000010010, [], .warm, .hub, false, none, none,
      [F.clkMon_src, F.clkMon_divm1]⟩

/-! CLK_GATEd (02_reference_timebase_ticks.md) -/
/-- Reset entry: per table. -/
def F.clkGate_deep : Fld := ⟨.clkGate, 2, 2, .rw, 0⟩
/-- Reset entry: per table. -/
def F.clkGate_sleep : Fld := ⟨.clkGate, 1, 1, .rw, 0⟩
/-- Reset entry: per table. -/
def F.clkGate_run : Fld := ⟨.clkGate, 0, 0, .rw, 0⟩
/-- CLK_GATEd: 02_reference_timebase_ticks.md. -/
def D.clkGate : RegDesc :=
  ⟨0xf0000010100, [(0x4, 24)], .warm, .hub, false, none, none,
      [F.clkGate_deep, F.clkGate_sleep, F.clkGate_run]⟩

/-! TB_TIME_LO (02_reference_timebase_ticks.md) -/
def F.tbTimeLo_timeLo : Fld := ⟨.tbTimeLo, 31, 0, .ro, 0⟩
/-- TB_TIME_LO: 02_reference_timebase_ticks.md. -/
def D.tbTimeLo : RegDesc :=
  ⟨0xf0000020000, [], .por, .tb, true, none, none,
      [F.tbTimeLo_timeLo]⟩

/-! TB_TIME_HI (02_reference_timebase_ticks.md) -/
def F.tbTimeHi_timeHi : Fld := ⟨.tbTimeHi, 31, 0, .ro, 0⟩
/-- TB_TIME_HI: 02_reference_timebase_ticks.md. -/
def D.tbTimeHi : RegDesc :=
  ⟨0xf0000020004, [], .por, .tb, false, none, none,
      [F.tbTimeHi_timeHi]⟩

/-! TB_STAT (02_reference_timebase_ticks.md) -/
def F.tbStat_misaligned : Fld := ⟨.tbStat, 22, 16, .ro, 0⟩
def F.tbStat_free : Fld := ⟨.tbStat, 6, 0, .ro, 0⟩
/-- TB_STAT: 02_reference_timebase_ticks.md. -/
def D.tbStat : RegDesc :=
  ⟨0xf0000020010, [], .warm, .tb, false, none, none,
      [F.tbStat_misaligned, F.tbStat_free]⟩

/-! TB_TICKn_CTRL (02_reference_timebase_ticks.md) -/
/-- Reset entry: 1 for n = 0, else 0. -/
def F.tbTickCtrl_en : Fld := ⟨.tbTickCtrl, 31, 31, .rw, 0⟩
def F.tbTickCtrl_badPeriod : Fld := ⟨.tbTickCtrl, 30, 30, .w1c, 0⟩
def F.tbTickCtrl_pending : Fld := ⟨.tbTickCtrl, 29, 29, .ro, 0⟩
/-- TB_TICKn_CTRL: 02_reference_timebase_ticks.md. -/
def D.tbTickCtrl : RegDesc :=
  ⟨0xf0000020100, [(0x20, 4)], .warm, .tb, false, none, none,
      [F.tbTickCtrl_en, F.tbTickCtrl_badPeriod, F.tbTickCtrl_pending]⟩

/-! TB_TICKn_PERIOD (02_reference_timebase_ticks.md) -/
def F.tbTickPeriod_period : Fld := ⟨.tbTickPeriod, 24, 0, .rw, 0xf4240⟩
/-- TB_TICKn_PERIOD: 02_reference_timebase_ticks.md. -/
def D.tbTickPeriod : RegDesc :=
  ⟨0xf0000020104, [(0x20, 4)], .warm, .tb, false, none, none,
      [F.tbTickPeriod_period]⟩

/-! TB_TICKn_START_LO (02_reference_timebase_ticks.md) -/
def F.tbTickStartLo_start : Fld := ⟨.tbTickStartLo, 31, 0, .rw, 0⟩
/-- TB_TICKn_START_LO: 02_reference_timebase_ticks.md. -/
def D.tbTickStartLo : RegDesc :=
  ⟨0xf0000020108, [(0x20, 4)], .warm, .tb, false, none, none,
      [F.tbTickStartLo_start]⟩

/-! TB_TICKn_START_HI (02_reference_timebase_ticks.md) -/
def F.tbTickStartHi_start : Fld := ⟨.tbTickStartHi, 31, 0, .rw, 0⟩
/-- TB_TICKn_START_HI: 02_reference_timebase_ticks.md. -/
def D.tbTickStartHi : RegDesc :=
  ⟨0xf000002010c, [(0x20, 4)], .warm, .tb, false, none, none,
      [F.tbTickStartHi_start]⟩

/-! TB_TICKn_COUNT (02_reference_timebase_ticks.md) -/
def F.tbTickCount_count : Fld := ⟨.tbTickCount, 31, 0, .ro, 0⟩
/-- TB_TICKn_COUNT: 02_reference_timebase_ticks.md. -/
def D.tbTickCount : RegDesc :=
  ⟨0xf0000020110, [(0x20, 4)], .warm, .tb, false, none, none,
      [F.tbTickCount_count]⟩

/-! WT_STAT (03_word_array_structure.md) -/
def F.wtStat_parErr : Fld := ⟨.wtStat, 31, 31, .w1c, 0⟩
def F.wtStat_storeConflict : Fld := ⟨.wtStat, 30, 30, .w1c, 0⟩
def F.wtStat_swErr : Fld := ⟨.wtStat, 29, 29, .w1c, 0⟩
def F.wtStat_hdrErr : Fld := ⟨.wtStat, 28, 28, .w1c, 0⟩
def F.wtStat_collision : Fld := ⟨.wtStat, 27, 27, .w1c, 0⟩
def F.wtStat_parCell : Fld := ⟨.wtStat, 15, 0, .ro, 0⟩
/-- WT_STAT: 03_word_array_structure.md. -/
def D.wtStat : RegDesc :=
  ⟨0x30000004000, [(0x1000000000, 4), (0x10000, 2048)], .load, .wa, false, none, none,
      [F.wtStat_parErr, F.wtStat_storeConflict, F.wtStat_swErr, F.wtStat_hdrErr, F.wtStat_collision,
     F.wtStat_parCell]⟩

/-! WT_ISTAT (04_word_cell_instructions.md) -/
def F.wtIstat_illOp : Fld := ⟨.wtIstat, 31, 31, .w1c, 0⟩
def F.wtIstat_illSel : Fld := ⟨.wtIstat, 30, 30, .w1c, 0⟩
def F.wtIstat_illForm : Fld := ⟨.wtIstat, 29, 29, .w1c, 0⟩
def F.wtIstat_illCell : Fld := ⟨.wtIstat, 15, 0, .w1c, 0⟩
/-- WT_ISTAT: 04_word_cell_instructions.md. -/
def D.wtIstat : RegDesc :=
  ⟨0x30000004004, [(0x1000000000, 4), (0x10000, 2048)], .load, .wa, false, none, none,
      [F.wtIstat_illOp, F.wtIstat_illSel, F.wtIstat_illForm, F.wtIstat_illCell]⟩

/-! WT_PSTAT (05_moulds_pours_preemption.md) -/
def F.wtPstat_misrun : Fld := ⟨.wtPstat, 31, 31, .w1c, 0⟩
def F.wtPstat_delayed : Fld := ⟨.wtPstat, 30, 30, .w1c, 0⟩
def F.wtPstat_preLost : Fld := ⟨.wtPstat, 29, 29, .w1c, 0⟩
def F.wtPstat_mouldUe : Fld := ⟨.wtPstat, 28, 28, .w1c, 0⟩
def F.wtPstat_schedUe : Fld := ⟨.wtPstat, 27, 27, .w1c, 0⟩
def F.wtPstat_mouldCe : Fld := ⟨.wtPstat, 26, 26, .w1c, 0⟩
def F.wtPstat_noEnd : Fld := ⟨.wtPstat, 25, 25, .w1c, 0⟩
def F.wtPstat_running : Fld := ⟨.wtPstat, 24, 24, .ro, 0⟩
def F.wtPstat_urgent : Fld := ⟨.wtPstat, 23, 23, .ro, 0⟩
def F.wtPstat_halted : Fld := ⟨.wtPstat, 22, 22, .ro, 0⟩
def F.wtPstat_ueSlot : Fld := ⟨.wtPstat, 19, 16, .ro, 0⟩
def F.wtPstat_entry : Fld := ⟨.wtPstat, 4, 0, .ro, 0⟩
/-- WT_PSTAT: 05_moulds_pours_preemption.md. -/
def D.wtPstat : RegDesc :=
  ⟨0x30000004008, [(0x1000000000, 4), (0x10000, 2048)], .load, .wa, false, none, none,
      [F.wtPstat_misrun, F.wtPstat_delayed, F.wtPstat_preLost, F.wtPstat_mouldUe, F.wtPstat_schedUe,
     F.wtPstat_mouldCe, F.wtPstat_noEnd, F.wtPstat_running, F.wtPstat_urgent, F.wtPstat_halted,
     F.wtPstat_ueSlot, F.wtPstat_entry]⟩

/-! WT_PCNT (05_moulds_pours_preemption.md) -/
def F.wtPcnt_misruns : Fld := ⟨.wtPcnt, 31, 16, .ro, 0⟩
def F.wtPcnt_preempts : Fld := ⟨.wtPcnt, 15, 0, .ro, 0⟩
/-- WT_PCNT: 05_moulds_pours_preemption.md. -/
def D.wtPcnt : RegDesc :=
  ⟨0x3000000400c, [(0x1000000000, 4), (0x10000, 2048)], .load, .wa, true, none, none,
      [F.wtPcnt_misruns, F.wtPcnt_preempts]⟩

/-! WT_CTRL (05_moulds_pours_preemption.md) -/
def F.wtCtrl_halt : Fld := ⟨.wtCtrl, 31, 31, .rw, 0⟩
def F.wtCtrl_ring : Fld := ⟨.wtCtrl, 30, 30, .wo, 0⟩
/-- WT_CTRL: 05_moulds_pours_preemption.md. -/
def D.wtCtrl : RegDesc :=
  ⟨0x30000004010, [(0x1000000000, 4), (0x10000, 2048)], .load, .wa, false, none, none,
      [F.wtCtrl_halt, F.wtCtrl_ring]⟩

/-! WT_FENCE_CTRL (05_moulds_pours_preemption.md) -/
def F.wtFenceCtrl_arm : Fld := ⟨.wtFenceCtrl, 31, 31, .rw, 0⟩
def F.wtFenceCtrl_done : Fld := ⟨.wtFenceCtrl, 30, 30, .w1c, 0⟩
def F.wtFenceCtrl_late : Fld := ⟨.wtFenceCtrl, 29, 29, .w1c, 0⟩
/-- WT_FENCE_CTRL: 05_moulds_pours_preemption.md. -/
def D.wtFenceCtrl : RegDesc :=
  ⟨0x30000004020, [(0x1000000000, 4), (0x10000, 2048)], .load, .wa, false, none, none,
      [F.wtFenceCtrl_arm, F.wtFenceCtrl_done, F.wtFenceCtrl_late]⟩

/-! WT_FENCE_LO (05_moulds_pours_preemption.md) -/
def F.wtFenceLo_t : Fld := ⟨.wtFenceLo, 31, 0, .rw, 0⟩
/-- WT_FENCE_LO: 05_moulds_pours_preemption.md. -/
def D.wtFenceLo : RegDesc :=
  ⟨0x30000004024, [(0x1000000000, 4), (0x10000, 2048)], .load, .wa, false, none, none,
      [F.wtFenceLo_t]⟩

/-! WT_FENCE_HI (05_moulds_pours_preemption.md) -/
def F.wtFenceHi_t : Fld := ⟨.wtFenceHi, 31, 0, .rw, 0⟩
/-- WT_FENCE_HI: 05_moulds_pours_preemption.md. -/
def D.wtFenceHi : RegDesc :=
  ⟨0x30000004028, [(0x1000000000, 4), (0x10000, 2048)], .load, .wa, false, none, none,
      [F.wtFenceHi_t]⟩

/-! WA_STAT (03_word_array_structure.md) -/
def F.waStat_held : Fld := ⟨.waStat, 31, 31, .ro, 1⟩
def F.waStat_errCols : Fld := ⟨.waStat, 15, 0, .ro, 0⟩
/-- WA_STAT: 03_word_array_structure.md. -/
def D.waStat : RegDesc :=
  ⟨0xf0100100000, [(0x1000000, 4)], .load, .die, false, none, none,
      [F.waStat_held, F.waStat_errCols]⟩

/-! WA_MISRUN (05_moulds_pours_preemption.md) -/
def F.waMisrun_cols : Fld := ⟨.waMisrun, 15, 0, .ro, 0⟩
/-- WA_MISRUN: 05_moulds_pours_preemption.md. -/
def D.waMisrun : RegDesc :=
  ⟨0xf0100100004, [(0x1000000, 4)], .load, .die, false, none, none,
      [F.waMisrun_cols]⟩

/-! WA_PORTn_CFG (03_word_array_structure.md) -/
def F.waPortCfg_en : Fld := ⟨.waPortCfg, 31, 31, .rw, 0⟩
def F.waPortCfg_dir : Fld := ⟨.waPortCfg, 30, 30, .rw, 0⟩
def F.waPortCfg_tick : Fld := ⟨.waPortCfg, 29, 28, .rw, 0⟩
def F.waPortCfg_lastMode : Fld := ⟨.waPortCfg, 27, 26, .rw, 0⟩
/-- WA_PORTn_CFG: 03_word_array_structure.md. -/
def D.waPortCfg : RegDesc :=
  ⟨0xf0100101000, [(0x1000000, 4), (0x10, 64)], .load, .die, false, none, none,
      [F.waPortCfg_en, F.waPortCfg_dir, F.waPortCfg_tick, F.waPortCfg_lastMode]⟩

/-! WA_PORTn_WIN (03_word_array_structure.md) -/
def F.waPortWin_start : Fld := ⟨.waPortWin, 31, 16, .rw, 0⟩
def F.waPortWin_beats : Fld := ⟨.waPortWin, 15, 0, .rw, 0⟩
/-- WA_PORTn_WIN: 03_word_array_structure.md. -/
def D.waPortWin : RegDesc :=
  ⟨0xf0100101004, [(0x1000000, 4), (0x10, 64)], .load, .die, false, none, none,
      [F.waPortWin_start, F.waPortWin_beats]⟩

/-! WA_PORTn_STAT (03_word_array_structure.md) -/
def F.waPortStat_underrun : Fld := ⟨.waPortStat, 31, 31, .w1c, 0⟩
def F.waPortStat_overrun : Fld := ⟨.waPortStat, 30, 30, .w1c, 0⟩
def F.waPortStat_collision : Fld := ⟨.waPortStat, 29, 29, .w1c, 0⟩
def F.waPortStat_laneGap : Fld := ⟨.waPortStat, 28, 28, .w1c, 0⟩
def F.waPortStat_parErr : Fld := ⟨.waPortStat, 27, 27, .w1c, 0⟩
def F.waPortStat_winTrunc : Fld := ⟨.waPortStat, 26, 26, .w1c, 0⟩
/-- WA_PORTn_STAT: 03_word_array_structure.md. -/
def D.waPortStat : RegDesc :=
  ⟨0xf0100101008, [(0x1000000, 4), (0x10, 64)], .load, .die, false, none, none,
      [F.waPortStat_underrun, F.waPortStat_overrun, F.waPortStat_collision, F.waPortStat_laneGap,
     F.waPortStat_parErr, F.waPortStat_winTrunc]⟩

/-! WA_PORTn_CNT (03_word_array_structure.md) -/
def F.waPortCnt_drops : Fld := ⟨.waPortCnt, 31, 16, .ro, 0⟩
def F.waPortCnt_bubbles : Fld := ⟨.waPortCnt, 15, 0, .ro, 0⟩
/-- WA_PORTn_CNT: 03_word_array_structure.md. -/
def D.waPortCnt : RegDesc :=
  ⟨0xf010010100c, [(0x1000000, 4), (0x10, 64)], .load, .die, true, none, none,
      [F.waPortCnt_drops, F.waPortCnt_bubbles]⟩

/-! WA_SQn_CFG (06_streams_risers_results.md) -/
/-- Reset entry: image. -/
def F.waSqCfg_en : Fld := ⟨.waSqCfg, 31, 31, .rw, 0⟩
def F.waSqCfg_flush : Fld := ⟨.waSqCfg, 30, 30, .wo, 0⟩
/-- Reset entry: image. -/
def F.waSqCfg_attach : Fld := ⟨.waSqCfg, 29, 28, .ro, 0⟩
/-- Reset entry: image. -/
def F.waSqCfg_pkt : Fld := ⟨.waSqCfg, 27, 27, .rw, 0⟩
/-- Reset entry: image. -/
def F.waSqCfg_riser : Fld := ⟨.waSqCfg, 26, 26, .rw, 0⟩
/-- Reset entry: image. -/
def F.waSqCfg_rslot : Fld := ⟨.waSqCfg, 25, 21, .rw, 0⟩
/-- Reset entry: image. -/
def F.waSqCfg_flask : Fld := ⟨.waSqCfg, 15, 12, .ro, 0⟩
/-- Reset entry: image. -/
def F.waSqCfg_depth : Fld := ⟨.waSqCfg, 11, 9, .ro, 0⟩
/-- Reset entry: image. -/
def F.waSqCfg_afull : Fld := ⟨.waSqCfg, 7, 0, .rw, 0⟩
/-- WA_SQn_CFG: 06_streams_risers_results.md. -/
def D.waSqCfg : RegDesc :=
  ⟨0xf0100102000, [(0x1000000, 4), (0x40, 64)], .load, .die, false, none, none,
      [F.waSqCfg_en, F.waSqCfg_flush, F.waSqCfg_attach, F.waSqCfg_pkt, F.waSqCfg_riser, F.waSqCfg_rslot,
     F.waSqCfg_flask, F.waSqCfg_depth, F.waSqCfg_afull]⟩

/-! WA_SQn_STAT (06_streams_risers_results.md) -/
def F.waSqStat_full : Fld := ⟨.waSqStat, 31, 31, .ro, 0⟩
def F.waSqStat_empty : Fld := ⟨.waSqStat, 30, 30, .ro, 1⟩
def F.waSqStat_almost : Fld := ⟨.waSqStat, 29, 29, .ro, 0⟩
def F.waSqStat_rewound : Fld := ⟨.waSqStat, 28, 28, .w1c, 0⟩
def F.waSqStat_oversize : Fld := ⟨.waSqStat, 27, 27, .w1c, 0⟩
def F.waSqStat_parErr : Fld := ⟨.waSqStat, 26, 26, .w1c, 0⟩
def F.waSqStat_cfgErr : Fld := ⟨.waSqStat, 25, 25, .w1c, 0⟩
def F.waSqStat_level : Fld := ⟨.waSqStat, 14, 0, .ro, 0⟩
/-- WA_SQn_STAT: 06_streams_risers_results.md. -/
def D.waSqStat : RegDesc :=
  ⟨0xf0100102004, [(0x1000000, 4), (0x40, 64)], .load, .die, false, none, none,
      [F.waSqStat_full, F.waSqStat_empty, F.waSqStat_almost, F.waSqStat_rewound, F.waSqStat_oversize,
     F.waSqStat_parErr, F.waSqStat_cfgErr, F.waSqStat_level]⟩

/-! WA_SQn_RDMETA (06_streams_risers_results.md) -/
def F.waSqRdmeta_avail : Fld := ⟨.waSqRdmeta, 31, 31, .ro, 0⟩
def F.waSqRdmeta_last : Fld := ⟨.waSqRdmeta, 30, 30, .ro, 0⟩
def F.waSqRdmeta_err : Fld := ⟨.waSqRdmeta, 29, 29, .ro, 0⟩
/-- WA_SQn_RDMETA: 06_streams_risers_results.md. -/
def D.waSqRdmeta : RegDesc :=
  ⟨0xf0100102008, [(0x1000000, 4), (0x40, 64)], .load, .die, false, none, none,
      [F.waSqRdmeta_avail, F.waSqRdmeta_last, F.waSqRdmeta_err]⟩

/-! WA_SQn_WRCTL (06_streams_risers_results.md) -/
def F.waSqWrctl_last : Fld := ⟨.waSqWrctl, 1, 1, .rw, 0⟩
def F.waSqWrctl_bad : Fld := ⟨.waSqWrctl, 0, 0, .rw, 0⟩
/-- WA_SQn_WRCTL: 06_streams_risers_results.md. -/
def D.waSqWrctl : RegDesc :=
  ⟨0xf010010200c, [(0x1000000, 4), (0x40, 64)], .load, .die, false, none, none,
      [F.waSqWrctl_last, F.waSqWrctl_bad]⟩

/-! WA_SQn_RDk (06_streams_risers_results.md) -/
def F.waSqRd_data : Fld := ⟨.waSqRd, 31, 0, .ro, 0⟩
/-- WA_SQn_RDk: 06_streams_risers_results.md. -/
def D.waSqRd : RegDesc :=
  ⟨0xf0100102010, [(0x1000000, 4), (0x40, 64), (0x4, 4)], .load, .die, true, none, none,
      [F.waSqRd_data]⟩

/-! WA_SQn_WRk (06_streams_risers_results.md) -/
def F.waSqWr_data : Fld := ⟨.waSqWr, 31, 0, .rw, 0⟩
/-- WA_SQn_WRk: 06_streams_risers_results.md. -/
def D.waSqWr : RegDesc :=
  ⟨0xf0100102020, [(0x1000000, 4), (0x40, 64), (0x4, 4)], .load, .die, false, none, none,
      [F.waSqWr_data]⟩

/-! WA_DMn_BASE_LO (06_streams_risers_results.md) -/
def F.waDmBaseLo_base : Fld := ⟨.waDmBaseLo, 31, 12, .rw, 0⟩
/-- WA_DMn_BASE_LO: 06_streams_risers_results.md. -/
def D.waDmBaseLo : RegDesc :=
  ⟨0xf0100106000, [(0x1000000, 4), (0x20, 64)], .load, .die, false, none, none,
      [F.waDmBaseLo_base]⟩

/-! WA_DMn_BASE_HI (06_streams_risers_results.md) -/
def F.waDmBaseHi_base : Fld := ⟨.waDmBaseHi, 15, 0, .rw, 0⟩
/-- WA_DMn_BASE_HI: 06_streams_risers_results.md. -/
def D.waDmBaseHi : RegDesc :=
  ⟨0xf0100106004, [(0x1000000, 4), (0x20, 64)], .load, .die, false, none, none,
      [F.waDmBaseHi_base]⟩

/-! WA_DMn_HEAD (06_streams_risers_results.md) -/
def F.waDmHead_ptr : Fld := ⟨.waDmHead, 29, 4, .rw, 0⟩
/-- WA_DMn_HEAD: 06_streams_risers_results.md. -/
def D.waDmHead : RegDesc :=
  ⟨0xf0100106008, [(0x1000000, 4), (0x20, 64)], .load, .die, false, none, none,
      [F.waDmHead_ptr]⟩

/-! WA_DMn_TAIL (06_streams_risers_results.md) -/
def F.waDmTail_ptr : Fld := ⟨.waDmTail, 29, 4, .rw, 0⟩
/-- WA_DMn_TAIL: 06_streams_risers_results.md. -/
def D.waDmTail : RegDesc :=
  ⟨0xf010010600c, [(0x1000000, 4), (0x20, 64)], .load, .die, false, none, none,
      [F.waDmTail_ptr]⟩

/-! WA_DMn_CTRL (06_streams_risers_results.md) -/
def F.waDmCtrl_run : Fld := ⟨.waDmCtrl, 31, 31, .rw, 0⟩
def F.waDmCtrl_err : Fld := ⟨.waDmCtrl, 30, 30, .w1c, 0⟩
def F.waDmCtrl_resp : Fld := ⟨.waDmCtrl, 29, 27, .ro, 0⟩
def F.waDmCtrl_rt : Fld := ⟨.waDmCtrl, 26, 26, .rw, 0⟩
def F.waDmCtrl_irq : Fld := ⟨.waDmCtrl, 25, 25, .rw, 0⟩
def F.waDmCtrl_size : Fld := ⟨.waDmCtrl, 24, 20, .rw, 0xc⟩
def F.waDmCtrl_panicThr : Fld := ⟨.waDmCtrl, 7, 0, .rw, 0⟩
/-- WA_DMn_CTRL: 06_streams_risers_results.md. -/
def D.waDmCtrl : RegDesc :=
  ⟨0xf0100106010, [(0x1000000, 4), (0x20, 64)], .load, .die, false, none, none,
      [F.waDmCtrl_run, F.waDmCtrl_err, F.waDmCtrl_resp, F.waDmCtrl_rt, F.waDmCtrl_irq, F.waDmCtrl_size,
     F.waDmCtrl_panicThr]⟩

/-! WA_RSi_BASE_LO (06_streams_risers_results.md) -/
def F.waRsBaseLo_base : Fld := ⟨.waRsBaseLo, 31, 16, .rw, 0⟩
/-- WA_RSi_BASE_LO: 06_streams_risers_results.md. -/
def D.waRsBaseLo : RegDesc :=
  ⟨0xf0100104000, [(0x1000000, 4), (0x20, 32)], .load, .die, false, none, none,
      [F.waRsBaseLo_base]⟩

/-! WA_RSi_BASE_HI (06_streams_risers_results.md) -/
def F.waRsBaseHi_base : Fld := ⟨.waRsBaseHi, 15, 0, .rw, 0⟩
/-- WA_RSi_BASE_HI: 06_streams_risers_results.md. -/
def D.waRsBaseHi : RegDesc :=
  ⟨0xf0100104004, [(0x1000000, 4), (0x20, 32)], .load, .die, false, none, none,
      [F.waRsBaseHi_base]⟩

/-! WA_RSi_CFG (06_streams_risers_results.md) -/
def F.waRsCfg_size : Fld := ⟨.waRsCfg, 4, 0, .rw, 0x10⟩
/-- WA_RSi_CFG: 06_streams_risers_results.md. -/
def D.waRsCfg : RegDesc :=
  ⟨0xf0100104008, [(0x1000000, 4), (0x20, 32)], .load, .die, false, none, none,
      [F.waRsCfg_size]⟩

/-! WA_RSi_STAT (06_streams_risers_results.md) -/
def F.waRsStat_spilling : Fld := ⟨.waRsStat, 31, 31, .ro, 0⟩
def F.waRsStat_degraded : Fld := ⟨.waRsStat, 30, 30, .ro, 0⟩
def F.waRsStat_wrErr : Fld := ⟨.waRsStat, 29, 29, .w1c, 0⟩
def F.waRsStat_rdErr : Fld := ⟨.waRsStat, 28, 28, .w1c, 0⟩
def F.waRsStat_midLevel : Fld := ⟨.waRsStat, 26, 0, .ro, 0⟩
/-- WA_RSi_STAT: 06_streams_risers_results.md. -/
def D.waRsStat : RegDesc :=
  ⟨0xf010010400c, [(0x1000000, 4), (0x20, 32)], .load, .die, false, none, none,
      [F.waRsStat_spilling, F.waRsStat_degraded, F.waRsStat_wrErr, F.waRsStat_rdErr, F.waRsStat_midLevel]⟩

/-! RSL_POLs (06_streams_risers_results.md) -/
def F.rslPol_pol : Fld := ⟨.rslPol, 1, 1, .rw, 0⟩
def F.rslPol_en : Fld := ⟨.rslPol, 0, 0, .rw, 0⟩
/-- RSL_POLs: 06_streams_risers_results.md. -/
def D.rslPol : RegDesc :=
  ⟨0xf0108200000, [(0x4, 4096)], .load, .hub, false, none, none,
      [F.rslPol_pol, F.rslPol_en]⟩

/-! RSL_VALIDSUMw (06_streams_risers_results.md) -/
def F.rslValidsum_valid : Fld := ⟨.rslValidsum, 31, 0, .ro, 0⟩
/-- RSL_VALIDSUMw: 06_streams_risers_results.md. -/
def D.rslValidsum : RegDesc :=
  ⟨0xf0108204000, [(0x4, 128)], .load, .hub, false, none, none,
      [F.rslValidsum_valid]⟩

/-! RSL_STAT (06_streams_risers_results.md) -/
def F.rslStat_pendFull : Fld := ⟨.rslStat, 31, 31, .w1c, 0⟩
def F.rslStat_stale : Fld := ⟨.rslStat, 30, 30, .w1c, 0⟩
def F.rslStat_pend : Fld := ⟨.rslStat, 6, 0, .ro, 0⟩
/-- RSL_STAT: 06_streams_risers_results.md. -/
def D.rslStat : RegDesc :=
  ⟨0xf0108204400, [], .load, .hub, false, none, none,
      [F.rslStat_pendFull, F.rslStat_stale, F.rslStat_pend]⟩

/-! ECC_BKTb_CFG (16_error_codes_logs.md) -/
def F.eccBktCfg_ie : Fld := ⟨.eccBktCfg, 31, 31, .rw, 1⟩
def F.eccBktCfg_leak : Fld := ⟨.eccBktCfg, 30, 26, .rw, 0x14⟩
def F.eccBktCfg_thr : Fld := ⟨.eccBktCfg, 15, 8, .rw, 0x10⟩
/-- ECC_BKTb_CFG: 16_error_codes_logs.md. -/
def D.eccBktCfg : RegDesc :=
  ⟨0xf0000080000, [(0x8, 96)], .warm, .hub, false, some [10, 11], none,
      [F.eccBktCfg_ie, F.eccBktCfg_leak, F.eccBktCfg_thr]⟩

/-! ECC_BKTb_STAT (16_error_codes_logs.md) -/
def F.eccBktStat_ovf : Fld := ⟨.eccBktStat, 31, 31, .w1c, 0⟩
def F.eccBktStat_count : Fld := ⟨.eccBktStat, 7, 0, .ro, 0⟩
/-- ECC_BKTb_STAT: 16_error_codes_logs.md. -/
def D.eccBktStat : RegDesc :=
  ⟨0xf0000080004, [(0x8, 96)], .warm, .hub, false, none, none,
      [F.eccBktStat_ovf, F.eccBktStat_count]⟩

/-! ECC_OVFw (16_error_codes_logs.md) -/
def F.eccOvf_ovf : Fld := ⟨.eccOvf, 31, 0, .ro, 0⟩
/-- ECC_OVFw: 16_error_codes_logs.md. -/
def D.eccOvf : RegDesc :=
  ⟨0xf0000080400, [(0x4, 3)], .warm, .hub, false, none, none,
      [F.eccOvf_ovf]⟩

/-! ECC_BRSEL (08_block_ram_and_mac24.md) -/
def F.eccBrsel_die : Fld := ⟨.eccBrsel, 31, 30, .rw, 0⟩
def F.eccBrsel_raw : Fld := ⟨.eccBrsel, 16, 16, .rw, 0⟩
def F.eccBrsel_block : Fld := ⟨.eccBrsel, 11, 0, .rw, 0⟩
/-- ECC_BRSEL: 08_block_ram_and_mac24.md. -/
def D.eccBrsel : RegDesc :=
  ⟨0xf0000081000, [], .warm, .hub, false, none, none,
      [F.eccBrsel_die, F.eccBrsel_raw, F.eccBrsel_block]⟩

/-! ECC_BRADDR (08_block_ram_and_mac24.md) -/
def F.eccBraddr_word : Fld := ⟨.eccBraddr, 9, 0, .rw, 0⟩
/-- ECC_BRADDR: 08_block_ram_and_mac24.md. -/
def D.eccBraddr : RegDesc :=
  ⟨0xf0000081004, [], .warm, .hub, false, none, none,
      [F.eccBraddr_word]⟩

/-! ECC_BRDATA_LO (08_block_ram_and_mac24.md) -/
def F.eccBrdataLo_data : Fld := ⟨.eccBrdataLo, 31, 0, .rw, 0⟩
/-- ECC_BRDATA_LO: 08_block_ram_and_mac24.md. -/
def D.eccBrdataLo : RegDesc :=
  ⟨0xf0000081008, [], .warm, .hub, false, none, none,
      [F.eccBrdataLo_data]⟩

/-! ECC_BRDATA_HI (08_block_ram_and_mac24.md) -/
def F.eccBrdataHi_data : Fld := ⟨.eccBrdataHi, 31, 0, .rw, 0⟩
/-- ECC_BRDATA_HI: 08_block_ram_and_mac24.md. -/
def D.eccBrdataHi : RegDesc :=
  ⟨0xf000008100c, [], .warm, .hub, false, none, none,
      [F.eccBrdataHi_data]⟩

/-! ECC_BRCHK (08_block_ram_and_mac24.md) -/
def F.eccBrchk_chk : Fld := ⟨.eccBrchk, 7, 0, .rw, 0⟩
/-- ECC_BRCHK: 08_block_ram_and_mac24.md. -/
def D.eccBrchk : RegDesc :=
  ⟨0xf0000081010, [], .warm, .hub, false, none, none,
      [F.eccBrchk_chk]⟩

/-! ECC_BRCMD (08_block_ram_and_mac24.md) -/
def F.eccBrcmd_busy : Fld := ⟨.eccBrcmd, 31, 31, .ro, 0⟩
def F.eccBrcmd_resp : Fld := ⟨.eccBrcmd, 30, 28, .ro, 0⟩
def F.eccBrcmd_sbit : Fld := ⟨.eccBrcmd, 27, 27, .ro, 0⟩
def F.eccBrcmd_dbit : Fld := ⟨.eccBrcmd, 26, 26, .ro, 0⟩
def F.eccBrcmd_op : Fld := ⟨.eccBrcmd, 1, 0, .wo, 0⟩
/-- ECC_BRCMD: 08_block_ram_and_mac24.md. -/
def D.eccBrcmd : RegDesc :=
  ⟨0xf0000081014, [], .warm, .hub, false, none, none,
      [F.eccBrcmd_busy, F.eccBrcmd_resp, F.eccBrcmd_sbit, F.eccBrcmd_dbit, F.eccBrcmd_op]⟩

/-! ECC_RTSEL (16_error_codes_logs.md) -/
def F.eccRtsel_target : Fld := ⟨.eccRtsel, 31, 28, .rw, 0⟩
def F.eccRtsel_die : Fld := ⟨.eccRtsel, 27, 26, .rw, 0⟩
/-- ECC_RTSEL: 16_error_codes_logs.md. -/
def D.eccRtsel : RegDesc :=
  ⟨0xf0000081100, [], .warm, .hub, false, some [10, 11], none,
      [F.eccRtsel_target, F.eccRtsel_die]⟩

/-! ECC_RTADDR_LO (16_error_codes_logs.md) -/
def F.eccRtaddrLo_addr : Fld := ⟨.eccRtaddrLo, 31, 0, .rw, 0⟩
/-- ECC_RTADDR_LO: 16_error_codes_logs.md. -/
def D.eccRtaddrLo : RegDesc :=
  ⟨0xf0000081104, [], .warm, .hub, false, some [10, 11], none,
      [F.eccRtaddrLo_addr]⟩

/-! ECC_RTADDR_HI (16_error_codes_logs.md) -/
def F.eccRtaddrHi_addr : Fld := ⟨.eccRtaddrHi, 15, 0, .rw, 0⟩
/-- ECC_RTADDR_HI: 16_error_codes_logs.md. -/
def D.eccRtaddrHi : RegDesc :=
  ⟨0xf0000081108, [], .warm, .hub, false, some [10, 11], none,
      [F.eccRtaddrHi_addr]⟩

/-! ECC_RTCMD (16_error_codes_logs.md) -/
def F.eccRtcmd_busy : Fld := ⟨.eccRtcmd, 31, 31, .ro, 0⟩
def F.eccRtcmd_resp : Fld := ⟨.eccRtcmd, 30, 28, .ro, 0⟩
def F.eccRtcmd_sbit : Fld := ⟨.eccRtcmd, 27, 27, .ro, 0⟩
def F.eccRtcmd_dbit : Fld := ⟨.eccRtcmd, 26, 26, .ro, 0⟩
def F.eccRtcmd_op : Fld := ⟨.eccRtcmd, 1, 0, .wo, 0⟩
/-- ECC_RTCMD: 16_error_codes_logs.md. -/
def D.eccRtcmd : RegDesc :=
  ⟨0xf000008110c, [], .warm, .hub, false, some [10, 11], none,
      [F.eccRtcmd_busy, F.eccRtcmd_resp, F.eccRtcmd_sbit, F.eccRtcmd_dbit, F.eccRtcmd_op]⟩

/-! ECC_RTBUF (16_error_codes_logs.md) -/
def F.eccRtbuf_byte : Fld := ⟨.eccRtbuf, 31, 0, .rw, 0⟩
/-- ECC_RTBUF: 16_error_codes_logs.md. -/
def D.eccRtbuf : RegDesc :=
  ⟨0xf0000081200, [(0x4, 20)], .warm, .hub, false, some [10, 11], none,
      [F.eccRtbuf_byte]⟩

/-! ECC_PINJ (16_error_codes_logs.md) -/
def F.eccPinj_kind : Fld := ⟨.eccPinj, 31, 28, .rw, 0⟩
def F.eccPinj_die : Fld := ⟨.eccPinj, 27, 26, .rw, 0⟩
def F.eccPinj_index : Fld := ⟨.eccPinj, 25, 10, .rw, 0⟩
def F.eccPinj_b : Fld := ⟨.eccPinj, 9, 4, .rw, 0⟩
def F.eccPinj_arm : Fld := ⟨.eccPinj, 0, 0, .rw, 0⟩
/-- ECC_PINJ: 16_error_codes_logs.md. -/
def D.eccPinj : RegDesc :=
  ⟨0xf0000081300, [], .warm, .hub, false, none, none,
      [F.eccPinj_kind, F.eccPinj_die, F.eccPinj_index, F.eccPinj_b, F.eccPinj_arm]⟩

/-! LOG_CFG (16_error_codes_logs.md) -/
def F.logCfg_snapN : Fld := ⟨.logCfg, 31, 16, .rw, 0⟩
def F.logCfg_irqSev : Fld := ⟨.logCfg, 15, 13, .rw, 3⟩
/-- LOG_CFG: 16_error_codes_logs.md. -/
def D.logCfg : RegDesc :=
  ⟨0xf0000070000, [], .por, .hub, false, some [10, 11], none,
      [F.logCfg_snapN, F.logCfg_irqSev]⟩

/-! LOG_STAT (16_error_codes_logs.md) -/
def F.logStat_lost : Fld := ⟨.logStat, 31, 16, .ro, 0⟩
def F.logStat_dropped : Fld := ⟨.logStat, 15, 0, .ro, 0⟩
/-- LOG_STAT: 16_error_codes_logs.md. -/
def D.logStat : RegDesc :=
  ⟨0xf0000070004, [], .por, .hub, false, none, none,
      [F.logStat_lost, F.logStat_dropped]⟩

/-! LOG_WSEQ (16_error_codes_logs.md) -/
def F.logWseq_seq : Fld := ⟨.logWseq, 31, 0, .ro, 0⟩
/-- LOG_WSEQ: 16_error_codes_logs.md. -/
def D.logWseq : RegDesc :=
  ⟨0xf0000070008, [], .por, .hub, false, none, none,
      [F.logWseq_seq]⟩

/-! LOG_PSEQ (16_error_codes_logs.md) -/
def F.logPseq_seq : Fld := ⟨.logPseq, 31, 0, .rw, 0⟩
/-- LOG_PSEQ: 16_error_codes_logs.md. -/
def D.logPseq : RegDesc :=
  ⟨0xf000007000c, [], .por, .hub, false, some [10], none,
      [F.logPseq_seq]⟩

/-! LOG_RDSEQp (16_error_codes_logs.md) -/
def F.logRdseq_seq : Fld := ⟨.logRdseq, 31, 0, .rw, 0⟩
/-- LOG_RDSEQp: 16_error_codes_logs.md. -/
def D.logRdseq : RegDesc :=
  ⟨0xf0000070100, [(0x40, 4)], .por, .hub, false, none, none,
      [F.logRdseq_seq]⟩

/-! LOG_RDFLGp (16_error_codes_logs.md) -/
def F.logRdflg_gone : Fld := ⟨.logRdflg, 31, 31, .ro, 0⟩
def F.logRdflg_ue : Fld := ⟨.logRdflg, 30, 30, .ro, 0⟩
/-- LOG_RDFLGp: 16_error_codes_logs.md. -/
def D.logRdflg : RegDesc :=
  ⟨0xf0000070104, [(0x40, 4)], .por, .hub, false, none, none,
      [F.logRdflg_gone, F.logRdflg_ue]⟩

/-! LOG_RDp_k (16_error_codes_logs.md) -/
def F.logRd_data : Fld := ⟨.logRd, 31, 0, .ro, 0⟩
/-- LOG_RDp_k: 16_error_codes_logs.md. -/
def D.logRd : RegDesc :=
  ⟨0xf0000070110, [(0x40, 4), (0x4, 8)], .por, .hub, false, none, none,
      [F.logRd_data]⟩

/-! CFG_STAT (10_images_and_loading.md) -/
def F.cfgStat_done : Fld := ⟨.cfgStat, 31, 31, .ro, 0⟩
def F.cfgStat_errPin : Fld := ⟨.cfgStat, 30, 30, .ro, 0⟩
def F.cfgStat_busy : Fld := ⟨.cfgStat, 29, 29, .ro, 0⟩
def F.cfgStat_onMaster : Fld := ⟨.cfgStat, 28, 28, .ro, 0⟩
def F.cfgStat_source : Fld := ⟨.cfgStat, 27, 26, .ro, 0⟩
def F.cfgStat_pattern : Fld := ⟨.cfgStat, 25, 24, .ro, 0⟩
def F.cfgStat_loaded : Fld := ⟨.cfgStat, 23, 20, .ro, 0⟩
def F.cfgStat_phase : Fld := ⟨.cfgStat, 19, 17, .ro, 0⟩
def F.cfgStat_cmdErr : Fld := ⟨.cfgStat, 16, 16, .w1c, 0⟩
def F.cfgStat_stray : Fld := ⟨.cfgStat, 15, 15, .w1c, 0⟩
def F.cfgStat_dirB : Fld := ⟨.cfgStat, 14, 14, .w1c, 0⟩
/-- Reset entry: straps. -/
def F.cfgStat_profile : Fld := ⟨.cfgStat, 13, 12, .ro, 0⟩
/-- Reset entry: straps. -/
def F.cfgStat_iopull : Fld := ⟨.cfgStat, 11, 10, .ro, 0⟩
def F.cfgStat_nflash : Fld := ⟨.cfgStat, 9, 8, .ro, 0⟩
def F.cfgStat_lastErr : Fld := ⟨.cfgStat, 7, 0, .ro, 0⟩
/-- CFG_STAT: 10_images_and_loading.md. -/
def D.cfgStat : RegDesc :=
  ⟨0xf0000040000, [], .warm, .hub, false, none, none,
      [F.cfgStat_done, F.cfgStat_errPin, F.cfgStat_busy, F.cfgStat_onMaster, F.cfgStat_source,
     F.cfgStat_pattern, F.cfgStat_loaded, F.cfgStat_phase, F.cfgStat_cmdErr, F.cfgStat_stray, F.cfgStat_dirB,
     F.cfgStat_profile, F.cfgStat_iopull, F.cfgStat_nflash, F.cfgStat_lastErr]⟩

/-! CFG_ERRINFO (10_images_and_loading.md) -/
def F.cfgErrinfo_err : Fld := ⟨.cfgErrinfo, 31, 24, .ro, 0⟩
def F.cfgErrinfo_src : Fld := ⟨.cfgErrinfo, 23, 21, .ro, 0⟩
def F.cfgErrinfo_pattern : Fld := ⟨.cfgErrinfo, 20, 19, .ro, 0⟩
def F.cfgErrinfo_die : Fld := ⟨.cfgErrinfo, 18, 15, .ro, 0xf⟩
def F.cfgErrinfo_chunk : Fld := ⟨.cfgErrinfo, 13, 0, .ro, 0⟩
/-- CFG_ERRINFO: 10_images_and_loading.md. -/
def D.cfgErrinfo : RegDesc :=
  ⟨0xf0000040004, [], .warm, .hub, false, none, none,
      [F.cfgErrinfo_err, F.cfgErrinfo_src, F.cfgErrinfo_pattern, F.cfgErrinfo_die, F.cfgErrinfo_chunk]⟩

/-! CFG_CMD (10_images_and_loading.md) -/
def F.cfgCmd_op : Fld := ⟨.cfgCmd, 31, 28, .wo, 0⟩
def F.cfgCmd_pattern : Fld := ⟨.cfgCmd, 27, 26, .wo, 0⟩
/-- CFG_CMD: 10_images_and_loading.md. -/
def D.cfgCmd : RegDesc :=
  ⟨0xf0000040010, [], .warm, .hub, false, some [1, 10, 11], none,
      [F.cfgCmd_op, F.cfgCmd_pattern]⟩

/-! CFG_HDEADLINE (10_images_and_loading.md) -/
def F.cfgHdeadline_us : Fld := ⟨.cfgHdeadline, 31, 0, .rw, 0⟩
/-- CFG_HDEADLINE: 10_images_and_loading.md. -/
def D.cfgHdeadline : RegDesc :=
  ⟨0xf0000040014, [], .warm, .hub, false, some [1, 10, 11], none,
      [F.cfgHdeadline_us]⟩

/-! CFG_HPOS (10_images_and_loading.md) -/
def F.cfgHpos_pos : Fld := ⟨.cfgHpos, 31, 0, .ro, 0⟩
/-- CFG_HPOS: 10_images_and_loading.md. -/
def D.cfgHpos : RegDesc :=
  ⟨0xf0000040018, [], .warm, .hub, false, none, none,
      [F.cfgHpos_pos]⟩

/-! CFG_MADDR_LO (10_images_and_loading.md) -/
def F.cfgMaddrLo_addr : Fld := ⟨.cfgMaddrLo, 31, 9, .rw, 0⟩
/-- CFG_MADDR_LO: 10_images_and_loading.md. -/
def D.cfgMaddrLo : RegDesc :=
  ⟨0xf0000040020, [], .warm, .hub, false, some [1, 10, 11], none,
      [F.cfgMaddrLo_addr]⟩

/-! CFG_MADDR_HI (10_images_and_loading.md) -/
def F.cfgMaddrHi_addr : Fld := ⟨.cfgMaddrHi, 15, 0, .rw, 0⟩
/-- CFG_MADDR_HI: 10_images_and_loading.md. -/
def D.cfgMaddrHi : RegDesc :=
  ⟨0xf0000040024, [], .warm, .hub, false, some [1, 10, 11], none,
      [F.cfgMaddrHi_addr]⟩

/-! FTL_STATd (11_flasks_readback_fettling.md) -/
def F.ftlStat_scanning : Fld := ⟨.ftlStat, 31, 31, .ro, 0⟩
def F.ftlStat_mism : Fld := ⟨.ftlStat, 30, 30, .w1c, 0⟩
def F.ftlStat_hard : Fld := ⟨.ftlStat, 29, 29, .w1c, 0⟩
def F.ftlStat_ovf : Fld := ⟨.ftlStat, 28, 28, .w1c, 0⟩
def F.ftlStat_sigCe : Fld := ⟨.ftlStat, 27, 27, .w1c, 0⟩
def F.ftlStat_sigUe : Fld := ⟨.ftlStat, 26, 26, .w1c, 0⟩
def F.ftlStat_vote : Fld := ⟨.ftlStat, 25, 25, .w1c, 0⟩
def F.ftlStat_unrep : Fld := ⟨.ftlStat, 24, 24, .w1c, 0⟩
def F.ftlStat_qlevel : Fld := ⟨.ftlStat, 23, 19, .ro, 0⟩
def F.ftlStat_passes : Fld := ⟨.ftlStat, 15, 0, .ro, 0⟩
/-- FTL_STATd: 11_flasks_readback_fettling.md. -/
def D.ftlStat : RegDesc :=
  ⟨0xf0000050000, [(0x10, 4)], .load, .hub, false, none, none,
      [F.ftlStat_scanning, F.ftlStat_mism, F.ftlStat_hard, F.ftlStat_ovf, F.ftlStat_sigCe, F.ftlStat_sigUe,
     F.ftlStat_vote, F.ftlStat_unrep, F.ftlStat_qlevel, F.ftlStat_passes]⟩

/-! FTL_REQd (11_flasks_readback_fettling.md) -/
def F.ftlReq_valid : Fld := ⟨.ftlReq, 31, 31, .ro, 0⟩
def F.ftlReq_kind : Fld := ⟨.ftlReq, 30, 30, .ro, 0⟩
def F.ftlReq_chunk : Fld := ⟨.ftlReq, 29, 16, .ro, 0⟩
def F.ftlReq_frame : Fld := ⟨.ftlReq, 15, 0, .ro, 0⟩
/-- FTL_REQd: 11_flasks_readback_fettling.md. -/
def D.ftlReq : RegDesc :=
  ⟨0xf0000050004, [(0x10, 4)], .load, .hub, true, none, none,
      [F.ftlReq_valid, F.ftlReq_kind, F.ftlReq_chunk, F.ftlReq_frame]⟩

/-! FTL_PASSd (11_flasks_readback_fettling.md) -/
def F.ftlPass_lastUs : Fld := ⟨.ftlPass, 15, 0, .ro, 0⟩
/-- FTL_PASSd: 11_flasks_readback_fettling.md. -/
def D.ftlPass : RegDesc :=
  ⟨0xf0000050008, [(0x10, 4)], .load, .hub, false, none, none,
      [F.ftlPass_lastUs]⟩

/-! FTL_FLASKf (11_flasks_readback_fettling.md) -/
def F.ftlFlask_state : Fld := ⟨.ftlFlask, 31, 30, .ro, 0⟩
def F.ftlFlask_iso : Fld := ⟨.ftlFlask, 29, 29, .ro, 0⟩
def F.ftlFlask_captured : Fld := ⟨.ftlFlask, 28, 28, .ro, 0⟩
def F.ftlFlask_enc : Fld := ⟨.ftlFlask, 27, 27, .ro, 0⟩
def F.ftlFlask_err : Fld := ⟨.ftlFlask, 23, 16, .ro, 0⟩
def F.ftlFlask_loads : Fld := ⟨.ftlFlask, 15, 0, .ro, 0⟩
/-- FTL_FLASKf: 11_flasks_readback_fettling.md. -/
def D.ftlFlask : RegDesc :=
  ⟨0xf0000050100, [(0x4, 64)], .load, .hub, false, none, none,
      [F.ftlFlask_state, F.ftlFlask_iso, F.ftlFlask_captured, F.ftlFlask_enc, F.ftlFlask_err, F.ftlFlask_loads]⟩

/-! FTL_RBLOCK (11_flasks_readback_fettling.md) -/
def F.ftlRblock_owner : Fld := ⟨.ftlRblock, 3, 0, .rw, 0⟩
/-- FTL_RBLOCK: 11_flasks_readback_fettling.md. -/
def D.ftlRblock : RegDesc :=
  ⟨0xf0000050200, [], .warm, .hub, true, none, none,
      [F.ftlRblock_owner]⟩

/-! FTL_RBCMD (11_flasks_readback_fettling.md) -/
def F.ftlRbcmd_op : Fld := ⟨.ftlRbcmd, 31, 29, .wo, 0⟩
def F.ftlRbcmd_busy : Fld := ⟨.ftlRbcmd, 28, 28, .ro, 0⟩
def F.ftlRbcmd_res : Fld := ⟨.ftlRbcmd, 27, 26, .ro, 0⟩
def F.ftlRbcmd_die : Fld := ⟨.ftlRbcmd, 25, 24, .wo, 0⟩
def F.ftlRbcmd_flask : Fld := ⟨.ftlRbcmd, 23, 18, .wo, 0⟩
def F.ftlRbcmd_arg : Fld := ⟨.ftlRbcmd, 15, 0, .wo, 0⟩
/-- FTL_RBCMD: 11_flasks_readback_fettling.md. -/
def D.ftlRbcmd : RegDesc :=
  ⟨0xf0000050204, [], .warm, .hub, false, none, none,
      [F.ftlRbcmd_op, F.ftlRbcmd_busy, F.ftlRbcmd_res, F.ftlRbcmd_die, F.ftlRbcmd_flask, F.ftlRbcmd_arg]⟩

/-! FTL_RBT_LO (11_flasks_readback_fettling.md) -/
def F.ftlRbtLo_t : Fld := ⟨.ftlRbtLo, 31, 0, .rw, 0⟩
/-- FTL_RBT_LO: 11_flasks_readback_fettling.md. -/
def D.ftlRbtLo : RegDesc :=
  ⟨0xf0000050208, [], .warm, .hub, false, none, none,
      [F.ftlRbtLo_t]⟩

/-! FTL_RBT_HI (11_flasks_readback_fettling.md) -/
def F.ftlRbtHi_t : Fld := ⟨.ftlRbtHi, 31, 0, .rw, 0⟩
/-- FTL_RBT_HI: 11_flasks_readback_fettling.md. -/
def D.ftlRbtHi : RegDesc :=
  ⟨0xf000005020c, [], .warm, .hub, false, none, none,
      [F.ftlRbtHi_t]⟩

/-! FTL_TRBCMD (12_tarod_mode.md) -/
def F.ftlTrbcmd_op : Fld := ⟨.ftlTrbcmd, 31, 29, .wo, 0⟩
def F.ftlTrbcmd_busy : Fld := ⟨.ftlTrbcmd, 28, 28, .ro, 0⟩
def F.ftlTrbcmd_res : Fld := ⟨.ftlTrbcmd, 27, 26, .ro, 0⟩
def F.ftlTrbcmd_frame : Fld := ⟨.ftlTrbcmd, 23, 0, .wo, 0⟩
/-- FTL_TRBCMD: 12_tarod_mode.md. -/
def D.ftlTrbcmd : RegDesc :=
  ⟨0xf0000050300, [], .warm, .hub, false, none, none,
      [F.ftlTrbcmd_op, F.ftlTrbcmd_busy, F.ftlTrbcmd_res, F.ftlTrbcmd_frame]⟩

/-! FTL_RCMD (11_flasks_readback_fettling.md) -/
def F.ftlRcmd_op : Fld := ⟨.ftlRcmd, 31, 29, .wo, 0⟩
def F.ftlRcmd_busy : Fld := ⟨.ftlRcmd, 28, 28, .ro, 0⟩
def F.ftlRcmd_res : Fld := ⟨.ftlRcmd, 27, 26, .ro, 0⟩
def F.ftlRcmd_die : Fld := ⟨.ftlRcmd, 25, 24, .wo, 0⟩
def F.ftlRcmd_frame : Fld := ⟨.ftlRcmd, 15, 0, .wo, 0⟩
/-- FTL_RCMD: 11_flasks_readback_fettling.md. -/
def D.ftlRcmd : RegDesc :=
  ⟨0xf0000050400, [], .warm, .hub, false, some [10], none,
      [F.ftlRcmd_op, F.ftlRcmd_busy, F.ftlRcmd_res, F.ftlRcmd_die, F.ftlRcmd_frame]⟩

/-! FTL_RSRCr_LO (11_flasks_readback_fettling.md) -/
def F.ftlRsrcLo_addr : Fld := ⟨.ftlRsrcLo, 31, 0, .rw, 0⟩
/-- FTL_RSRCr_LO: 11_flasks_readback_fettling.md. -/
def D.ftlRsrcLo : RegDesc :=
  ⟨0xf0000050800, [(0x8, 68)], .load, .hub, false, some [1, 10], none,
      [F.ftlRsrcLo_addr]⟩

/-! FTL_RSRCr_HI (11_flasks_readback_fettling.md) -/
def F.ftlRsrcHi_kind : Fld := ⟨.ftlRsrcHi, 31, 28, .rw, 0⟩
def F.ftlRsrcHi_addr : Fld := ⟨.ftlRsrcHi, 15, 0, .rw, 0⟩
/-- FTL_RSRCr_HI: 11_flasks_readback_fettling.md. -/
def D.ftlRsrcHi : RegDesc :=
  ⟨0xf0000050804, [(0x8, 68)], .load, .hub, false, some [1, 10], none,
      [F.ftlRsrcHi_kind, F.ftlRsrcHi_addr]⟩

/-! FTL_RBUF (11_flasks_readback_fettling.md) -/
def F.ftlRbuf_byte : Fld := ⟨.ftlRbuf, 31, 0, .rw, 0⟩
/-- FTL_RBUF: 11_flasks_readback_fettling.md. -/
def D.ftlRbuf : RegDesc :=
  ⟨0xf0000052000, [(0x4, 512)], .warm, .hub, false, some [10], none,
      [F.ftlRbuf_byte]⟩

/-! FTL_RBWIN (11_flasks_readback_fettling.md) -/
def F.ftlRbwin_byte : Fld := ⟨.ftlRbwin, 31, 0, .ro, 0⟩
/-- FTL_RBWIN: 11_flasks_readback_fettling.md. -/
def D.ftlRbwin : RegDesc :=
  ⟨0xf0000054000, [(0x4, 512)], .warm, .hub, false, none, none,
      [F.ftlRbwin_byte]⟩

/-! FTL_TRBWIN (12_tarod_mode.md) -/
def F.ftlTrbwin_byte : Fld := ⟨.ftlTrbwin, 31, 0, .ro, 0⟩
/-- FTL_TRBWIN: 12_tarod_mode.md. -/
def D.ftlTrbwin : RegDesc :=
  ⟨0xf0000055000, [(0x4, 128)], .warm, .hub, false, none, none,
      [F.ftlTrbwin_byte]⟩

/-! NOC_MCFGm (13_network_on_chip.md) -/
def F.nocMcfg_tagLim : Fld := ⟨.nocMcfg, 29, 20, .rw, 0⟩
def F.nocMcfg_tmoUs : Fld := ⟨.nocMcfg, 9, 0, .rw, 0x64⟩
/-- NOC_MCFGm: 13_network_on_chip.md. -/
def D.nocMcfg : RegDesc :=
  ⟨0xf0000090000, [(0x10, 64)], .warm, .hub, false, some [10, 11], none,
      [F.nocMcfg_tagLim, F.nocMcfg_tmoUs]⟩

/-! NOC_MSTATm (13_network_on_chip.md) -/
def F.nocMstat_outst : Fld := ⟨.nocMstat, 31, 21, .ro, 0⟩
def F.nocMstat_tmos : Fld := ⟨.nocMstat, 15, 8, .ro, 0⟩
def F.nocMstat_late : Fld := ⟨.nocMstat, 7, 0, .ro, 0⟩
/-- NOC_MSTATm: 13_network_on_chip.md. -/
def D.nocMstat : RegDesc :=
  ⟨0xf0000090004, [(0x10, 64)], .warm, .hub, true, none, none,
      [F.nocMstat_outst, F.nocMstat_tmos, F.nocMstat_late]⟩

/-! NOC_PANIC_LO (13_network_on_chip.md) -/
def F.nocPanicLo_panic : Fld := ⟨.nocPanicLo, 31, 0, .ro, 0⟩
/-- NOC_PANIC_LO: 13_network_on_chip.md. -/
def D.nocPanicLo : RegDesc :=
  ⟨0xf0000090400, [], .warm, .hub, false, none, none,
      [F.nocPanicLo_panic]⟩

/-! NOC_PANIC_HI (13_network_on_chip.md) -/
def F.nocPanicHi_panic : Fld := ⟨.nocPanicHi, 31, 0, .ro, 0⟩
/-- NOC_PANIC_HI: 13_network_on_chip.md. -/
def D.nocPanicHi : RegDesc :=
  ⟨0xf0000090404, [], .warm, .hub, false, none, none,
      [F.nocPanicHi_panic]⟩

/-! NOC_TSEL (13_network_on_chip.md) -/
def F.nocTsel_router : Fld := ⟨.nocTsel, 6, 0, .rw, 0⟩
/-- NOC_TSEL: 13_network_on_chip.md. -/
def D.nocTsel : RegDesc :=
  ⟨0xf0000090800, [], .warm, .hub, false, none, none,
      [F.nocTsel_router]⟩

/-! NOC_PRBr_CTRL (13_network_on_chip.md) -/
def F.nocPrbCtrl_en : Fld := ⟨.nocPrbCtrl, 31, 31, .rw, 0⟩
def F.nocPrbCtrl_trace : Fld := ⟨.nocPrbCtrl, 30, 30, .rw, 0⟩
def F.nocPrbCtrl_wrap : Fld := ⟨.nocPrbCtrl, 29, 29, .rw, 0⟩
def F.nocPrbCtrl_port : Fld := ⟨.nocPrbCtrl, 28, 26, .rw, 0⟩
def F.nocPrbCtrl_sel : Fld := ⟨.nocPrbCtrl, 25, 18, .rw, 0⟩
/-- NOC_PRBr_CTRL: 13_network_on_chip.md. -/
def D.nocPrbCtrl : RegDesc :=
  ⟨0xf0000091000, [(0x40, 116)], .warm, .noc, false, none, none,
      [F.nocPrbCtrl_en, F.nocPrbCtrl_trace, F.nocPrbCtrl_wrap, F.nocPrbCtrl_port, F.nocPrbCtrl_sel]⟩

/-! NOC_PRBr_FILT (13_network_on_chip.md) -/
def F.nocPrbFilt_srcEn : Fld := ⟨.nocPrbFilt, 31, 31, .rw, 0⟩
def F.nocPrbFilt_addrEn : Fld := ⟨.nocPrbFilt, 30, 30, .rw, 0⟩
def F.nocPrbFilt_src : Fld := ⟨.nocPrbFilt, 29, 24, .rw, 0⟩
def F.nocPrbFilt_cls : Fld := ⟨.nocPrbFilt, 23, 20, .rw, 0xf⟩
def F.nocPrbFilt_ops : Fld := ⟨.nocPrbFilt, 19, 16, .rw, 0xf⟩
/-- NOC_PRBr_FILT: 13_network_on_chip.md. -/
def D.nocPrbFilt : RegDesc :=
  ⟨0xf0000091004, [(0x40, 116)], .warm, .noc, false, none, none,
      [F.nocPrbFilt_srcEn, F.nocPrbFilt_addrEn, F.nocPrbFilt_src, F.nocPrbFilt_cls, F.nocPrbFilt_ops]⟩

/-! NOC_PRBr_ADDR (13_network_on_chip.md) -/
def F.nocPrbAddr_gran : Fld := ⟨.nocPrbAddr, 23, 0, .rw, 0⟩
/-- NOC_PRBr_ADDR: 13_network_on_chip.md. -/
def D.nocPrbAddr : RegDesc :=
  ⟨0xf0000091008, [(0x40, 116)], .warm, .noc, false, none, none,
      [F.nocPrbAddr_gran]⟩

/-! NOC_PRBr_CNTk (13_network_on_chip.md) -/
def F.nocPrbCnt_count : Fld := ⟨.nocPrbCnt, 31, 0, .ro, 0⟩
/-- NOC_PRBr_CNTk: 13_network_on_chip.md. -/
def D.nocPrbCnt : RegDesc :=
  ⟨0xf0000091010, [(0x40, 116), (0x4, 4)], .warm, .noc, true, none, none,
      [F.nocPrbCnt_count]⟩

/-! NOC_PRBr_TSTAT (13_network_on_chip.md) -/
def F.nocPrbTstat_full : Fld := ⟨.nocPrbTstat, 31, 31, .ro, 0⟩
def F.nocPrbTstat_clear : Fld := ⟨.nocPrbTstat, 30, 30, .wo, 0⟩
def F.nocPrbTstat_level : Fld := ⟨.nocPrbTstat, 8, 0, .ro, 0⟩
/-- NOC_PRBr_TSTAT: 13_network_on_chip.md. -/
def D.nocPrbTstat : RegDesc :=
  ⟨0xf0000091020, [(0x40, 116)], .warm, .noc, false, none, none,
      [F.nocPrbTstat_full, F.nocPrbTstat_clear, F.nocPrbTstat_level]⟩

/-! NOC_HISTh_CFG (13_network_on_chip.md) -/
def F.nocHistCfg_en : Fld := ⟨.nocHistCfg, 31, 31, .rw, 0⟩
def F.nocHistCfg_freeze : Fld := ⟨.nocHistCfg, 30, 30, .rw, 0⟩
def F.nocHistCfg_clear : Fld := ⟨.nocHistCfg, 29, 29, .wo, 0⟩
def F.nocHistCfg_shift : Fld := ⟨.nocHistCfg, 28, 24, .rw, 0⟩
def F.nocHistCfg_kind : Fld := ⟨.nocHistCfg, 23, 20, .rw, 0⟩
def F.nocHistCfg_index : Fld := ⟨.nocHistCfg, 19, 12, .rw, 0⟩
def F.nocHistCfg_sample : Fld := ⟨.nocHistCfg, 11, 8, .rw, 0⟩
/-- NOC_HISTh_CFG: 13_network_on_chip.md. -/
def D.nocHistCfg : RegDesc :=
  ⟨0xf0000094000, [(0x100, 16)], .warm, .hub, false, none, none,
      [F.nocHistCfg_en, F.nocHistCfg_freeze, F.nocHistCfg_clear, F.nocHistCfg_shift, F.nocHistCfg_kind,
     F.nocHistCfg_index, F.nocHistCfg_sample]⟩

/-! NOC_HISTh_BASE (13_network_on_chip.md) -/
def F.nocHistBase_base : Fld := ⟨.nocHistBase, 31, 0, .rw, 0⟩
/-- NOC_HISTh_BASE: 13_network_on_chip.md. -/
def D.nocHistBase : RegDesc :=
  ⟨0xf0000094004, [(0x100, 16)], .warm, .hub, false, none, none,
      [F.nocHistBase_base]⟩

/-! NOC_HISTh_COUNT (13_network_on_chip.md) -/
def F.nocHistCount_value : Fld := ⟨.nocHistCount, 31, 0, .ro, 0⟩
/-- NOC_HISTh_COUNT: 13_network_on_chip.md. -/
def D.nocHistCount : RegDesc :=
  ⟨0xf0000094008, [(0x100, 16)], .warm, .hub, false, none, none,
      [F.nocHistCount_value]⟩

/-! NOC_HISTh_MIN (13_network_on_chip.md) -/
def F.nocHistMin_value : Fld := ⟨.nocHistMin, 31, 0, .ro, 0xffffffff⟩
/-- NOC_HISTh_MIN: 13_network_on_chip.md. -/
def D.nocHistMin : RegDesc :=
  ⟨0xf000009400c, [(0x100, 16)], .warm, .hub, false, none, none,
      [F.nocHistMin_value]⟩

/-! NOC_HISTh_MAX (13_network_on_chip.md) -/
def F.nocHistMax_value : Fld := ⟨.nocHistMax, 31, 0, .ro, 0⟩
/-- NOC_HISTh_MAX: 13_network_on_chip.md. -/
def D.nocHistMax : RegDesc :=
  ⟨0xf0000094010, [(0x100, 16)], .warm, .hub, false, none, none,
      [F.nocHistMax_value]⟩

/-! NOC_HISTh_BINb (13_network_on_chip.md) -/
def F.nocHistBin_value : Fld := ⟨.nocHistBin, 31, 0, .ro, 0⟩
/-- NOC_HISTh_BINb: 13_network_on_chip.md. -/
def D.nocHistBin : RegDesc :=
  ⟨0xf0000094080, [(0x100, 16), (0x4, 32)], .warm, .hub, false, none, none,
      [F.nocHistBin_value]⟩

/-! NOC_TWIN (13_network_on_chip.md) -/
def F.nocTwin_trace : Fld := ⟨.nocTwin, 31, 0, .ro, 0⟩
/-- NOC_TWIN: 13_network_on_chip.md. -/
def D.nocTwin : RegDesc :=
  ⟨0xf0000098000, [(0x4, 2048)], .warm, .hub, false, none, none,
      [F.nocTwin_trace]⟩

/-! DDR_MAP (14_dram_controllers.md) -/
def F.ddrMap_lock : Fld := ⟨.ddrMap, 31, 31, .ro, 0⟩
def F.ddrMap_ilvMask : Fld := ⟨.ddrMap, 27, 24, .rw, 0⟩
def F.ddrMap_present : Fld := ⟨.ddrMap, 23, 20, .rw, 0⟩
def F.ddrMap_fitted : Fld := ⟨.ddrMap, 9, 0, .rw, 0⟩
/-- DDR_MAP: 14_dram_controllers.md. -/
def D.ddrMap : RegDesc :=
  ⟨0xf00000a0000, [], .warm, .hub, false, some [10, 11], none,
      [F.ddrMap_lock, F.ddrMap_ilvMask, F.ddrMap_present, F.ddrMap_fitted]⟩

/-! DDR_CHc_CFG (14_dram_controllers.md) -/
def F.ddrChCfg_pdTmo : Fld := ⟨.ddrChCfg, 31, 24, .rw, 0x20⟩
def F.ddrChCfg_pageTmo : Fld := ⟨.ddrChCfg, 23, 16, .rw, 0x10⟩
def F.ddrChCfg_ageMax : Fld := ⟨.ddrChCfg, 15, 8, .rw, 0x20⟩
def F.ddrChCfg_scrub : Fld := ⟨.ddrChCfg, 4, 4, .rw, 1⟩
def F.ddrChCfg_scrubH : Fld := ⟨.ddrChCfg, 3, 0, .rw, 5⟩
/-- DDR_CHc_CFG: 14_dram_controllers.md. -/
def D.ddrChCfg : RegDesc :=
  ⟨0xf00000a0100, [(0x40, 4)], .warm, .hub, false, some [10, 11], none,
      [F.ddrChCfg_pdTmo, F.ddrChCfg_pageTmo, F.ddrChCfg_ageMax, F.ddrChCfg_scrub, F.ddrChCfg_scrubH]⟩

/-! HBM_CFG (14_dram_controllers.md) -/
def F.hbmCfg_pdTmo : Fld := ⟨.hbmCfg, 31, 24, .rw, 0x20⟩
def F.hbmCfg_pageTmo : Fld := ⟨.hbmCfg, 23, 16, .rw, 0x10⟩
def F.hbmCfg_ageMax : Fld := ⟨.hbmCfg, 15, 8, .rw, 0x20⟩
def F.hbmCfg_scrub : Fld := ⟨.hbmCfg, 4, 4, .rw, 1⟩
def F.hbmCfg_scrubH : Fld := ⟨.hbmCfg, 3, 0, .rw, 5⟩
/-- HBM_CFG: 14_dram_controllers.md. -/
def D.hbmCfg : RegDesc :=
  ⟨0xf00000b0000, [], .warm, .hub, false, some [10, 11], none,
      [F.hbmCfg_pdTmo, F.hbmCfg_pageTmo, F.hbmCfg_ageMax, F.hbmCfg_scrub, F.hbmCfg_scrubH]⟩

/-! DDR_CHc_STAT (14_dram_controllers.md) -/
def F.ddrChStat_found : Fld := ⟨.ddrChStat, 31, 31, .ro, 0⟩
def F.ddrChStat_trained : Fld := ⟨.ddrChStat, 30, 30, .ro, 0⟩
def F.ddrChStat_failed : Fld := ⟨.ddrChStat, 29, 29, .ro, 0⟩
def F.ddrChStat_tracking : Fld := ⟨.ddrChStat, 28, 28, .ro, 0⟩
def F.ddrChStat_hot : Fld := ⟨.ddrChStat, 27, 27, .ro, 0⟩
def F.ddrChStat_ranks : Fld := ⟨.ddrChStat, 25, 24, .ro, 0⟩
def F.ddrChStat_width : Fld := ⟨.ddrChStat, 23, 22, .ro, 0⟩
def F.ddrChStat_density : Fld := ⟨.ddrChStat, 21, 20, .ro, 0⟩
def F.ddrChStat_speed : Fld := ⟨.ddrChStat, 19, 16, .ro, 0⟩
def F.ddrChStat_cap : Fld := ⟨.ddrChStat, 7, 0, .ro, 0⟩
/-- DDR_CHc_STAT: 14_dram_controllers.md. -/
def D.ddrChStat : RegDesc :=
  ⟨0xf00000a0104, [(0x40, 4)], .warm, .hub, false, some [10, 11], none,
      [F.ddrChStat_found, F.ddrChStat_trained, F.ddrChStat_failed, F.ddrChStat_tracking, F.ddrChStat_hot,
     F.ddrChStat_ranks, F.ddrChStat_width, F.ddrChStat_density, F.ddrChStat_speed, F.ddrChStat_cap]⟩

/-! HBM_STKs_STAT (14_dram_controllers.md) -/
def F.hbmStkStat_found : Fld := ⟨.hbmStkStat, 31, 31, .ro, 0⟩
def F.hbmStkStat_trained : Fld := ⟨.hbmStkStat, 30, 30, .ro, 0⟩
def F.hbmStkStat_failed : Fld := ⟨.hbmStkStat, 29, 29, .ro, 0⟩
def F.hbmStkStat_tracking : Fld := ⟨.hbmStkStat, 28, 28, .ro, 0⟩
def F.hbmStkStat_hot : Fld := ⟨.hbmStkStat, 27, 27, .ro, 0⟩
/-- HBM_STKs_STAT: 14_dram_controllers.md. -/
def D.hbmStkStat : RegDesc :=
  ⟨0xf00000b0100, [(0x40, 2)], .warm, .hub, false, some [10, 11], none,
      [F.hbmStkStat_found, F.hbmStkStat_trained, F.hbmStkStat_failed, F.hbmStkStat_tracking, F.hbmStkStat_hot]⟩

/-! HBM_STKs_PCFAIL (14_dram_controllers.md) -/
def F.hbmStkPcfail_pc : Fld := ⟨.hbmStkPcfail, 31, 0, .ro, 0⟩
/-- HBM_STKs_PCFAIL: 14_dram_controllers.md. -/
def D.hbmStkPcfail : RegDesc :=
  ⟨0xf00000b0104, [(0x40, 2)], .warm, .hub, false, some [10, 11], none,
      [F.hbmStkPcfail_pc]⟩

/-! DDR_CHc_CECNT (14_dram_controllers.md) -/
def F.ddrChCecnt_sub1 : Fld := ⟨.ddrChCecnt, 31, 16, .ro, 0⟩
def F.ddrChCecnt_sub0 : Fld := ⟨.ddrChCecnt, 15, 0, .ro, 0⟩
/-- DDR_CHc_CECNT: 14_dram_controllers.md. -/
def D.ddrChCecnt : RegDesc :=
  ⟨0xf00000a0108, [(0x40, 4)], .warm, .hub, true, some [10, 11], none,
      [F.ddrChCecnt_sub1, F.ddrChCecnt_sub0]⟩

/-! HBM_STKs_CECNT (14_dram_controllers.md) -/
def F.hbmStkCecnt_sub0 : Fld := ⟨.hbmStkCecnt, 15, 0, .ro, 0⟩
/-- HBM_STKs_CECNT: 14_dram_controllers.md. -/
def D.hbmStkCecnt : RegDesc :=
  ⟨0xf00000b0108, [(0x40, 2)], .warm, .hub, true, some [10, 11], none,
      [F.hbmStkCecnt_sub0]⟩

/-! DDR_RGNr_BASE (14_dram_controllers.md) -/
def F.ddrRgnBase_mib : Fld := ⟨.ddrRgnBase, 27, 0, .rw, 0⟩
/-- DDR_RGNr_BASE: 14_dram_controllers.md. -/
def D.ddrRgnBase : RegDesc :=
  ⟨0xf00000a1000, [(0x10, 64)], .warm, .hub, false, some [10, 11], none,
      [F.ddrRgnBase_mib]⟩

/-! DDR_RGNr_LIMIT (14_dram_controllers.md) -/
def F.ddrRgnLimit_mib : Fld := ⟨.ddrRgnLimit, 27, 0, .rw, 0⟩
/-- DDR_RGNr_LIMIT: 14_dram_controllers.md. -/
def D.ddrRgnLimit : RegDesc :=
  ⟨0xf00000a1004, [(0x10, 64)], .warm, .hub, false, some [10, 11], none,
      [F.ddrRgnLimit_mib]⟩

/-! DDR_RGNr_CFG (14_dram_controllers.md) -/
def F.ddrRgnCfg_en : Fld := ⟨.ddrRgnCfg, 31, 31, .rw, 0⟩
def F.ddrRgnCfg_code : Fld := ⟨.ddrRgnCfg, 30, 30, .rw, 0⟩
def F.ddrRgnCfg_enc : Fld := ⟨.ddrRgnCfg, 29, 29, .rw, 0⟩
def F.ddrRgnCfg_cfgErr : Fld := ⟨.ddrRgnCfg, 28, 28, .w1c, 0⟩
def F.ddrRgnCfg_encCfg : Fld := ⟨.ddrRgnCfg, 27, 0, .rw, 0⟩
/-- DDR_RGNr_CFG: 14_dram_controllers.md. -/
def D.ddrRgnCfg : RegDesc :=
  ⟨0xf00000a1008, [(0x10, 64)], .warm, .hub, false, some [10, 11], none,
      [F.ddrRgnCfg_en, F.ddrRgnCfg_code, F.ddrRgnCfg_enc, F.ddrRgnCfg_cfgErr, F.ddrRgnCfg_encCfg]⟩

/-! DDR_PCMD (14_dram_controllers.md) -/
def F.ddrPcmd_op : Fld := ⟨.ddrPcmd, 31, 30, .wo, 0⟩
def F.ddrPcmd_busy : Fld := ⟨.ddrPcmd, 29, 29, .ro, 0⟩
def F.ddrPcmd_resp : Fld := ⟨.ddrPcmd, 28, 26, .ro, 0⟩
/-- DDR_PCMD: 14_dram_controllers.md. -/
def D.ddrPcmd : RegDesc :=
  ⟨0xf00000a0400, [], .warm, .hub, false, some [10, 11], none,
      [F.ddrPcmd_op, F.ddrPcmd_busy, F.ddrPcmd_resp]⟩

/-! DDR_PADDR_LO (14_dram_controllers.md) -/
def F.ddrPaddrLo_addr : Fld := ⟨.ddrPaddrLo, 31, 6, .rw, 0⟩
/-- DDR_PADDR_LO: 14_dram_controllers.md. -/
def D.ddrPaddrLo : RegDesc :=
  ⟨0xf00000a0404, [], .warm, .hub, false, some [10, 11], none,
      [F.ddrPaddrLo_addr]⟩

/-! DDR_PADDR_HI (14_dram_controllers.md) -/
def F.ddrPaddrHi_addr : Fld := ⟨.ddrPaddrHi, 15, 0, .rw, 0⟩
/-- DDR_PADDR_HI: 14_dram_controllers.md. -/
def D.ddrPaddrHi : RegDesc :=
  ⟨0xf00000a0408, [], .warm, .hub, false, some [10, 11], none,
      [F.ddrPaddrHi_addr]⟩

/-! DDR_PPRCMD (14_dram_controllers.md) -/
def F.ddrPprcmd_op : Fld := ⟨.ddrPprcmd, 31, 30, .wo, 0⟩
def F.ddrPprcmd_busy : Fld := ⟨.ddrPprcmd, 29, 29, .ro, 0⟩
def F.ddrPprcmd_res : Fld := ⟨.ddrPprcmd, 28, 26, .ro, 0⟩
/-- DDR_PPRCMD: 14_dram_controllers.md. -/
def D.ddrPprcmd : RegDesc :=
  ⟨0xf00000a0300, [], .warm, .hub, false, some [10, 11], none,
      [F.ddrPprcmd_op, F.ddrPprcmd_busy, F.ddrPprcmd_res]⟩

/-! DDR_PPRLOC_LO (14_dram_controllers.md) -/
def F.ddrPprlocLo_row : Fld := ⟨.ddrPprlocLo, 17, 0, .rw, 0⟩
/-- DDR_PPRLOC_LO: 14_dram_controllers.md. -/
def D.ddrPprlocLo : RegDesc :=
  ⟨0xf00000a0304, [], .warm, .hub, false, some [10, 11], none,
      [F.ddrPprlocLo_row]⟩

/-! DDR_PPRLOC_HI (14_dram_controllers.md) -/
def F.ddrPprlocHi_mem : Fld := ⟨.ddrPprlocHi, 31, 31, .rw, 0⟩
def F.ddrPprlocHi_unit : Fld := ⟨.ddrPprlocHi, 30, 29, .rw, 0⟩
def F.ddrPprlocHi_sub : Fld := ⟨.ddrPprlocHi, 28, 24, .rw, 0⟩
def F.ddrPprlocHi_rank : Fld := ⟨.ddrPprlocHi, 23, 23, .rw, 0⟩
def F.ddrPprlocHi_bank : Fld := ⟨.ddrPprlocHi, 21, 16, .rw, 0⟩
/-- DDR_PPRLOC_HI: 14_dram_controllers.md. -/
def D.ddrPprlocHi : RegDesc :=
  ⟨0xf00000a0308, [], .warm, .hub, false, some [10, 11], none,
      [F.ddrPprlocHi_mem, F.ddrPprlocHi_unit, F.ddrPprlocHi_sub, F.ddrPprlocHi_rank, F.ddrPprlocHi_bank]⟩

/-! HBM_PPRCMD (14_dram_controllers.md) -/
def F.hbmPprcmd_op : Fld := ⟨.hbmPprcmd, 31, 30, .wo, 0⟩
def F.hbmPprcmd_busy : Fld := ⟨.hbmPprcmd, 29, 29, .ro, 0⟩
def F.hbmPprcmd_res : Fld := ⟨.hbmPprcmd, 28, 26, .ro, 0⟩
/-- HBM_PPRCMD: 14_dram_controllers.md. -/
def D.hbmPprcmd : RegDesc :=
  ⟨0xf00000b0300, [], .warm, .hub, false, some [10, 11], none,
      [F.hbmPprcmd_op, F.hbmPprcmd_busy, F.hbmPprcmd_res]⟩

/-! HBM_PPRLOC_LO (14_dram_controllers.md) -/
def F.hbmPprlocLo_row : Fld := ⟨.hbmPprlocLo, 17, 0, .rw, 0⟩
/-- HBM_PPRLOC_LO: 14_dram_controllers.md. -/
def D.hbmPprlocLo : RegDesc :=
  ⟨0xf00000b0304, [], .warm, .hub, false, some [10, 11], none,
      [F.hbmPprlocLo_row]⟩

/-! HBM_PPRLOC_HI (14_dram_controllers.md) -/
def F.hbmPprlocHi_mem : Fld := ⟨.hbmPprlocHi, 31, 31, .rw, 0⟩
def F.hbmPprlocHi_unit : Fld := ⟨.hbmPprlocHi, 30, 29, .rw, 0⟩
def F.hbmPprlocHi_sub : Fld := ⟨.hbmPprlocHi, 28, 24, .rw, 0⟩
def F.hbmPprlocHi_rank : Fld := ⟨.hbmPprlocHi, 23, 23, .rw, 0⟩
def F.hbmPprlocHi_bank : Fld := ⟨.hbmPprlocHi, 21, 16, .rw, 0⟩
/-- HBM_PPRLOC_HI: 14_dram_controllers.md. -/
def D.hbmPprlocHi : RegDesc :=
  ⟨0xf00000b0308, [], .warm, .hub, false, some [10, 11], none,
      [F.hbmPprlocHi_mem, F.hbmPprlocHi_unit, F.hbmPprlocHi_sub, F.hbmPprlocHi_rank, F.hbmPprlocHi_bank]⟩

/-! ENC_KEYBUFk (15_sector_encryption.md) -/
def F.encKeybuf_key : Fld := ⟨.encKeybuf, 31, 0, .wo, 0⟩
/-- ENC_KEYBUFk: 15_sector_encryption.md. -/
def D.encKeybuf : RegDesc :=
  ⟨0xf00000c0000, [(0x4, 24)], .warm, .hub, false, some [10], some [10, 11],
      [F.encKeybuf_key]⟩

/-! ENC_KEYCMD (15_sector_encryption.md) -/
def F.encKeycmd_op : Fld := ⟨.encKeycmd, 31, 30, .wo, 0⟩
def F.encKeycmd_region : Fld := ⟨.encKeycmd, 29, 24, .wo, 0⟩
def F.encKeycmd_busy : Fld := ⟨.encKeycmd, 23, 23, .ro, 0⟩
def F.encKeycmd_res : Fld := ⟨.encKeycmd, 22, 21, .ro, 0⟩
/-- ENC_KEYCMD: 15_sector_encryption.md. -/
def D.encKeycmd : RegDesc :=
  ⟨0xf00000c0080, [], .warm, .hub, false, some [10], some [10, 11],
      [F.encKeycmd_op, F.encKeycmd_region, F.encKeycmd_busy, F.encKeycmd_res]⟩

/-! ENC_SCMD (15_sector_encryption.md) -/
def F.encScmd_op : Fld := ⟨.encScmd, 31, 30, .wo, 0⟩
def F.encScmd_busy : Fld := ⟨.encScmd, 29, 29, .ro, 0⟩
def F.encScmd_resp : Fld := ⟨.encScmd, 28, 26, .ro, 0⟩
/-- ENC_SCMD: 15_sector_encryption.md. -/
def D.encScmd : RegDesc :=
  ⟨0xf00000c0100, [], .warm, .hub, false, some [10], some [10, 11],
      [F.encScmd_op, F.encScmd_busy, F.encScmd_resp]⟩

/-! ENC_SADDR_LO (15_sector_encryption.md) -/
def F.encSaddrLo_addr : Fld := ⟨.encSaddrLo, 31, 9, .rw, 0⟩
/-- ENC_SADDR_LO: 15_sector_encryption.md. -/
def D.encSaddrLo : RegDesc :=
  ⟨0xf00000c0104, [], .warm, .hub, false, some [10], some [10, 11],
      [F.encSaddrLo_addr]⟩

/-! ENC_SADDR_HI (15_sector_encryption.md) -/
def F.encSaddrHi_addr : Fld := ⟨.encSaddrHi, 15, 0, .rw, 0⟩
/-- ENC_SADDR_HI: 15_sector_encryption.md. -/
def D.encSaddrHi : RegDesc :=
  ⟨0xf00000c0108, [], .warm, .hub, false, some [10], some [10, 11],
      [F.encSaddrHi_addr]⟩

/-! ENC_ALARM (15_sector_encryption.md) -/
def F.encAlarm_tamper : Fld := ⟨.encAlarm, 31, 31, .w1c, 0⟩
def F.encAlarm_lost : Fld := ⟨.encAlarm, 30, 30, .w1c, 0⟩
def F.encAlarm_region : Fld := ⟨.encAlarm, 5, 0, .ro, 0⟩
/-- ENC_ALARM: 15_sector_encryption.md. -/
def D.encAlarm : RegDesc :=
  ⟨0xf00000c0200, [], .warm, .hub, false, some [10], some [10, 11],
      [F.encAlarm_tamper, F.encAlarm_lost, F.encAlarm_region]⟩

/-! ENC_RGNr_CTRL (15_sector_encryption.md) -/
def F.encRgnCtrl_rekey : Fld := ⟨.encRgnCtrl, 31, 31, .wo, 0⟩
def F.encRgnCtrl_heal : Fld := ⟨.encRgnCtrl, 30, 30, .rw, 0⟩
def F.encRgnCtrl_rate : Fld := ⟨.encRgnCtrl, 22, 16, .rw, 8⟩
/-- ENC_RGNr_CTRL: 15_sector_encryption.md. -/
def D.encRgnCtrl : RegDesc :=
  ⟨0xf00000c1000, [(0x20, 64)], .warm, .hub, false, some [10], some [10, 11],
      [F.encRgnCtrl_rekey, F.encRgnCtrl_heal, F.encRgnCtrl_rate]⟩

/-! ENC_RGNr_STAT (15_sector_encryption.md) -/
def F.encRgnStat_state : Fld := ⟨.encRgnStat, 31, 30, .ro, 0⟩
def F.encRgnStat_curKey : Fld := ⟨.encRgnStat, 29, 29, .ro, 0⟩
def F.encRgnStat_newKey : Fld := ⟨.encRgnStat, 28, 28, .ro, 0⟩
def F.encRgnStat_rkErr : Fld := ⟨.encRgnStat, 27, 27, .w1c, 0⟩
def F.encRgnStat_lost : Fld := ⟨.encRgnStat, 7, 0, .ro, 0⟩
/-- ENC_RGNr_STAT: 15_sector_encryption.md. -/
def D.encRgnStat : RegDesc :=
  ⟨0xf00000c1004, [(0x20, 64)], .warm, .hub, false, some [10], some [10, 11],
      [F.encRgnStat_state, F.encRgnStat_curKey, F.encRgnStat_newKey, F.encRgnStat_rkErr, F.encRgnStat_lost]⟩

/-! ENC_RGNr_BOUND_LO (15_sector_encryption.md) -/
def F.encRgnBoundLo_b : Fld := ⟨.encRgnBoundLo, 31, 0, .ro, 0⟩
/-- ENC_RGNr_BOUND_LO: 15_sector_encryption.md. -/
def D.encRgnBoundLo : RegDesc :=
  ⟨0xf00000c1008, [(0x20, 64)], .warm, .hub, false, some [10], some [10, 11],
      [F.encRgnBoundLo_b]⟩

/-! ENC_RGNr_BOUND_HI (15_sector_encryption.md) -/
def F.encRgnBoundHi_b : Fld := ⟨.encRgnBoundHi, 31, 0, .ro, 0⟩
/-- ENC_RGNr_BOUND_HI: 15_sector_encryption.md. -/
def D.encRgnBoundHi : RegDesc :=
  ⟨0xf00000c100c, [(0x20, 64)], .warm, .hub, false, some [10], some [10, 11],
      [F.encRgnBoundHi_b]⟩

/-! LN_LANEl_CFG (17_lanes_and_host_link.md) -/
/-- Reset entry: image. -/
def F.lnLaneCfg_en : Fld := ⟨.lnLaneCfg, 31, 31, .rw, 0⟩
/-- Reset entry: image. -/
def F.lnLaneCfg_mode : Fld := ⟨.lnLaneCfg, 30, 29, .rw, 0⟩
/-- Reset entry: image. -/
def F.lnLaneCfg_precode : Fld := ⟨.lnLaneCfg, 28, 28, .rw, 0⟩
/-- Reset entry: image. -/
def F.lnLaneCfg_invTx : Fld := ⟨.lnLaneCfg, 27, 27, .rw, 0⟩
/-- Reset entry: image. -/
def F.lnLaneCfg_invRx : Fld := ⟨.lnLaneCfg, 26, 26, .rw, 0⟩
def F.lnLaneCfg_lb : Fld := ⟨.lnLaneCfg, 25, 24, .rw, 0⟩
/-- Reset entry: image. -/
def F.lnLaneCfg_width : Fld := ⟨.lnLaneCfg, 23, 21, .rw, 0⟩
/-- Reset entry: image. -/
def F.lnLaneCfg_fbEn : Fld := ⟨.lnLaneCfg, 20, 20, .rw, 0⟩
/-- Reset entry: image. -/
def F.lnLaneCfg_swing : Fld := ⟨.lnLaneCfg, 19, 16, .rw, 0⟩
/-- LN_LANEl_CFG: 17_lanes_and_host_link.md. -/
def D.lnLaneCfg : RegDesc :=
  ⟨0xf00000d0000, [(0x20, 40)], .load, .hub, false, none, none,
      [F.lnLaneCfg_en, F.lnLaneCfg_mode, F.lnLaneCfg_precode, F.lnLaneCfg_invTx, F.lnLaneCfg_invRx,
     F.lnLaneCfg_lb, F.lnLaneCfg_width, F.lnLaneCfg_fbEn, F.lnLaneCfg_swing]⟩

/-! LN_LANEl_RATE (17_lanes_and_host_link.md) -/
/-- Reset entry: image. -/
def F.lnLaneRate_kbd : Fld := ⟨.lnLaneRate, 26, 0, .rw, 0⟩
/-- LN_LANEl_RATE: 17_lanes_and_host_link.md. -/
def D.lnLaneRate : RegDesc :=
  ⟨0xf00000d0004, [(0x20, 40)], .load, .hub, false, none, none,
      [F.lnLaneRate_kbd]⟩

/-! LN_LANEl_STAT (17_lanes_and_host_link.md) -/
def F.lnLaneStat_lock : Fld := ⟨.lnLaneStat, 31, 31, .ro, 0⟩
def F.lnLaneStat_retired : Fld := ⟨.lnLaneStat, 30, 30, .ro, 0⟩
def F.lnLaneStat_fbActive : Fld := ⟨.lnLaneStat, 29, 29, .ro, 0⟩
def F.lnLaneStat_inv : Fld := ⟨.lnLaneStat, 28, 28, .ro, 0⟩
def F.lnLaneStat_fbFail : Fld := ⟨.lnLaneStat, 27, 27, .w1c, 0⟩
def F.lnLaneStat_late : Fld := ⟨.lnLaneStat, 26, 26, .w1c, 0⟩
def F.lnLaneStat_cfgErr : Fld := ⟨.lnLaneStat, 25, 25, .w1c, 0⟩
def F.lnLaneStat_pin : Fld := ⟨.lnLaneStat, 18, 16, .ro, 0⟩
/-- LN_LANEl_STAT: 17_lanes_and_host_link.md. -/
def D.lnLaneStat : RegDesc :=
  ⟨0xf00000d0008, [(0x20, 40)], .load, .hub, false, none, none,
      [F.lnLaneStat_lock, F.lnLaneStat_retired, F.lnLaneStat_fbActive, F.lnLaneStat_inv, F.lnLaneStat_fbFail,
     F.lnLaneStat_late, F.lnLaneStat_cfgErr, F.lnLaneStat_pin]⟩

/-! LN_LANEl_LAT (17_lanes_and_host_link.md) -/
def F.lnLaneLat_ps : Fld := ⟨.lnLaneLat, 31, 0, .ro, 0⟩
/-- LN_LANEl_LAT: 17_lanes_and_host_link.md. -/
def D.lnLaneLat : RegDesc :=
  ⟨0xf00000d000c, [(0x20, 40)], .load, .hub, false, none, none,
      [F.lnLaneLat_ps]⟩

/-! LN_GRPg_CFG (17_lanes_and_host_link.md) -/
/-- Reset entry: image. -/
def F.lnGrpCfg_fec : Fld := ⟨.lnGrpCfg, 31, 31, .rw, 0⟩
/-- Reset entry: image. -/
def F.lnGrpCfg_bond : Fld := ⟨.lnGrpCfg, 30, 29, .rw, 0⟩
/-- Reset entry: image. -/
def F.lnGrpCfg_attach : Fld := ⟨.lnGrpCfg, 28, 28, .rw, 0⟩
def F.lnGrpCfg_rev : Fld := ⟨.lnGrpCfg, 1, 0, .ro, 0⟩
/-- LN_GRPg_CFG: 17_lanes_and_host_link.md. -/
def D.lnGrpCfg : RegDesc :=
  ⟨0xf00000d0800, [(0x20, 10)], .load, .hub, false, none, none,
      [F.lnGrpCfg_fec, F.lnGrpCfg_bond, F.lnGrpCfg_attach, F.lnGrpCfg_rev]⟩

/-! LN_GRPg_FEC (17_lanes_and_host_link.md) -/
def F.lnGrpFec_uncorr : Fld := ⟨.lnGrpFec, 31, 16, .ro, 0⟩
def F.lnGrpFec_corr : Fld := ⟨.lnGrpFec, 15, 0, .ro, 0⟩
/-- LN_GRPg_FEC: 17_lanes_and_host_link.md. -/
def D.lnGrpFec : RegDesc :=
  ⟨0xf00000d0804, [(0x20, 10)], .load, .hub, true, none, none,
      [F.lnGrpFec_uncorr, F.lnGrpFec_corr]⟩

/-! PCI_STAT (17_lanes_and_host_link.md) -/
def F.pciStat_dlUp : Fld := ⟨.pciStat, 31, 31, .ro, 0⟩
/-- Reset entry: OTP. -/
def F.pciStat_hlDis : Fld := ⟨.pciStat, 30, 30, .ro, 0⟩
def F.pciStat_flit : Fld := ⟨.pciStat, 29, 29, .ro, 0⟩
def F.pciStat_speed : Fld := ⟨.pciStat, 28, 26, .ro, 0⟩
def F.pciStat_width : Fld := ⟨.pciStat, 25, 21, .ro, 0⟩
def F.pciStat_laneBad : Fld := ⟨.pciStat, 15, 0, .ro, 0⟩
/-- PCI_STAT: 17_lanes_and_host_link.md. -/
def D.pciStat : RegDesc :=
  ⟨0xf00000e0000, [], .host, .hub, false, some [1, 10], none,
      [F.pciStat_dlUp, F.pciStat_hlDis, F.pciStat_flit, F.pciStat_speed, F.pciStat_width, F.pciStat_laneBad]⟩

/-! PCI_WERR (17_lanes_and_host_link.md) -/
def F.pciWerr_valid : Fld := ⟨.pciWerr, 31, 31, .w1c, 0⟩
def F.pciWerr_code : Fld := ⟨.pciWerr, 30, 28, .ro, 0⟩
def F.pciWerr_bar2 : Fld := ⟨.pciWerr, 27, 27, .ro, 0⟩
/-- PCI_WERR: 17_lanes_and_host_link.md. -/
def D.pciWerr : RegDesc :=
  ⟨0xf00000e0004, [], .host, .hub, false, some [1, 10], none,
      [F.pciWerr_valid, F.pciWerr_code, F.pciWerr_bar2]⟩

/-! PCI_WERR_LO (17_lanes_and_host_link.md) -/
def F.pciWerrLo_addr : Fld := ⟨.pciWerrLo, 31, 0, .ro, 0⟩
/-- PCI_WERR_LO: 17_lanes_and_host_link.md. -/
def D.pciWerrLo : RegDesc :=
  ⟨0xf00000e0008, [], .host, .hub, false, some [1, 10], none,
      [F.pciWerrLo_addr]⟩

/-! PCI_WERR_HI (17_lanes_and_host_link.md) -/
def F.pciWerrHi_addr : Fld := ⟨.pciWerrHi, 15, 0, .ro, 0⟩
/-- PCI_WERR_HI: 17_lanes_and_host_link.md. -/
def D.pciWerrHi : RegDesc :=
  ⟨0xf00000e000c, [], .host, .hub, false, some [1, 10], none,
      [F.pciWerrHi_addr]⟩

/-! PCI_TRn_LO (17_lanes_and_host_link.md) -/
def F.pciTrLo_base : Fld := ⟨.pciTrLo, 31, 20, .rw, 0⟩
/-- PCI_TRn_LO: 17_lanes_and_host_link.md. -/
def D.pciTrLo : RegDesc :=
  ⟨0xf00000e0100, [(0x10, 16)], .host, .hub, false, some [1, 10], none,
      [F.pciTrLo_base]⟩

/-! PCI_TRn_HI (17_lanes_and_host_link.md) -/
def F.pciTrHi_base : Fld := ⟨.pciTrHi, 15, 0, .rw, 0⟩
/-- PCI_TRn_HI: 17_lanes_and_host_link.md. -/
def D.pciTrHi : RegDesc :=
  ⟨0xf00000e0104, [(0x10, 16)], .host, .hub, false, some [1, 10], none,
      [F.pciTrHi_base]⟩

/-! PCI_TRn_CFG (17_lanes_and_host_link.md) -/
def F.pciTrCfg_en : Fld := ⟨.pciTrCfg, 31, 31, .rw, 0⟩
def F.pciTrCfg_strict : Fld := ⟨.pciTrCfg, 30, 30, .rw, 0⟩
def F.pciTrCfg_class : Fld := ⟨.pciTrCfg, 29, 28, .rw, 1⟩
def F.pciTrCfg_page : Fld := ⟨.pciTrCfg, 27, 26, .rw, 0⟩
def F.pciTrCfg_cfgErr : Fld := ⟨.pciTrCfg, 25, 25, .w1c, 0⟩
/-- PCI_TRn_CFG: 17_lanes_and_host_link.md. -/
def D.pciTrCfg : RegDesc :=
  ⟨0xf00000e0108, [(0x10, 16)], .host, .hub, false, some [1, 10], none,
      [F.pciTrCfg_en, F.pciTrCfg_strict, F.pciTrCfg_class, F.pciTrCfg_page, F.pciTrCfg_cfgErr]⟩

/-! PCI_QVECq (17_lanes_and_host_link.md) -/
def F.pciQvec_vec : Fld := ⟨.pciQvec, 7, 0, .rw, 0⟩
/-- PCI_QVECq: 17_lanes_and_host_link.md. -/
def D.pciQvec : RegDesc :=
  ⟨0xf00000e0400, [(0x4, 256)], .host, .hub, false, some [1, 10], none,
      [F.pciQvec_vec]⟩

/-! PWR_MODE (18_management_power_ageing.md) -/
def F.pwrMode_mode : Fld := ⟨.pwrMode, 1, 0, .rw, 0⟩
/-- PWR_MODE: 18_management_power_ageing.md. -/
def D.pwrMode : RegDesc :=
  ⟨0xf0000030000, [], .warm, .hub, false, some [1, 10, 11], none,
      [F.pwrMode_mode]⟩

/-! PWR_STAT (18_management_power_ageing.md) -/
def F.pwrStat_mode : Fld := ⟨.pwrStat, 31, 30, .ro, 0⟩
def F.pwrStat_busy : Fld := ⟨.pwrStat, 29, 29, .ro, 0⟩
def F.pwrStat_capMiss : Fld := ⟨.pwrStat, 28, 28, .w1c, 0⟩
def F.pwrStat_refused : Fld := ⟨.pwrStat, 27, 27, .w1c, 0⟩
def F.pwrStat_wakeSrc : Fld := ⟨.pwrStat, 26, 24, .ro, 0⟩
def F.pwrStat_mcRestart : Fld := ⟨.pwrStat, 23, 23, .w1c, 0⟩
/-- PWR_STAT: 18_management_power_ageing.md. -/
def D.pwrStat : RegDesc :=
  ⟨0xf0000030004, [], .warm, .hub, false, some [10], none,
      [F.pwrStat_mode, F.pwrStat_busy, F.pwrStat_capMiss, F.pwrStat_refused, F.pwrStat_wakeSrc,
     F.pwrStat_mcRestart]⟩

/-! PWR_FUSE (18_management_power_ageing.md) -/
/-- Reset entry: OTP. -/
def F.pwrFuse_vmaxMv : Fld := ⟨.pwrFuse, 31, 16, .ro, 0⟩
/-- Reset entry: OTP. -/
def F.pwrFuse_ceilW : Fld := ⟨.pwrFuse, 7, 0, .ro, 0⟩
/-- PWR_FUSE: 18_management_power_ageing.md. -/
def D.pwrFuse : RegDesc :=
  ⟨0xf0000030008, [], .por, .hub, false, some [10], none,
      [F.pwrFuse_vmaxMv, F.pwrFuse_ceilW]⟩

/-! PWR_CAP (18_management_power_ageing.md) -/
/-- Reset entry: ceiling. -/
def F.pwrCap_capW : Fld := ⟨.pwrCap, 7, 0, .rw, 0⟩
/-- PWR_CAP: 18_management_power_ageing.md. -/
def D.pwrCap : RegDesc :=
  ⟨0xf0000030010, [], .warm, .hub, false, some [1, 10, 11], none,
      [F.pwrCap_capW]⟩

/-! PWR_PRIO (18_management_power_ageing.md) -/
def F.pwrPrio_order : Fld := ⟨.pwrPrio, 31, 0, .rw, 0xff987654⟩
/-- PWR_PRIO: 18_management_power_ageing.md. -/
def D.pwrPrio : RegDesc :=
  ⟨0xf0000030014, [], .warm, .hub, false, some [10], none,
      [F.pwrPrio_order]⟩

/-! PWR_MEAS (18_management_power_ageing.md) -/
def F.pwrMeas_mw : Fld := ⟨.pwrMeas, 31, 0, .ro, 0⟩
/-- PWR_MEAS: 18_management_power_ageing.md. -/
def D.pwrMeas : RegDesc :=
  ⟨0xf0000030018, [], .warm, .hub, false, some [10], none,
      [F.pwrMeas_mw]⟩

/-! PWR_TRIP (18_management_power_ageing.md) -/
def F.pwrTrip_active : Fld := ⟨.pwrTrip, 31, 31, .ro, 0⟩
def F.pwrTrip_therm : Fld := ⟨.pwrTrip, 30, 30, .ro, 0⟩
def F.pwrTrip_release : Fld := ⟨.pwrTrip, 29, 29, .wo, 0⟩
def F.pwrTrip_early : Fld := ⟨.pwrTrip, 28, 28, .w1c, 0⟩
def F.pwrTrip_warn : Fld := ⟨.pwrTrip, 11, 0, .rw, 0x5a0⟩
/-- PWR_TRIP: 18_management_power_ageing.md. -/
def D.pwrTrip : RegDesc :=
  ⟨0xf0000030020, [], .warm, .hub, false, some [1, 10, 11], none,
      [F.pwrTrip_active, F.pwrTrip_therm, F.pwrTrip_release, F.pwrTrip_early, F.pwrTrip_warn]⟩

/-! PWR_TLk (18_management_power_ageing.md) -/
def F.pwrTl_retired : Fld := ⟨.pwrTl, 31, 24, .rw, 0⟩
def F.pwrTl_cur : Fld := ⟨.pwrTl, 14, 12, .ro, 7⟩
def F.pwrTl_ceil : Fld := ⟨.pwrTl, 10, 8, .rw, 7⟩
/-- Reset entry: image, or 0b000. -/
def F.pwrTl_floor : Fld := ⟨.pwrTl, 6, 4, .ro, 0⟩
/-- PWR_TLk: 18_management_power_ageing.md. -/
def D.pwrTl : RegDesc :=
  ⟨0xf0000030100, [(0x10, 10)], .warm, .hub, false, some [10], none,
      [F.pwrTl_retired, F.pwrTl_cur, F.pwrTl_ceil, F.pwrTl_floor]⟩

/-! PWR_MARGINk (18_management_power_ageing.md) -/
def F.pwrMargin_steps : Fld := ⟨.pwrMargin, 31, 0, .rw, 0⟩
/-- PWR_MARGINk: 18_management_power_ageing.md. -/
def D.pwrMargin : RegDesc :=
  ⟨0xf0000030104, [(0x10, 10)], .por, .hub, false, some [1, 10], none,
      [F.pwrMargin_steps]⟩

/-! PWR_SENSn (18_management_power_ageing.md) -/
def F.pwrSens_temp : Fld := ⟨.pwrSens, 27, 16, .ro, 0⟩
def F.pwrSens_agePpm : Fld := ⟨.pwrSens, 15, 0, .ro, 0⟩
/-- PWR_SENSn: 18_management_power_ageing.md. -/
def D.pwrSens : RegDesc :=
  ⟨0xf0000030200, [(0x4, 12)], .warm, .hub, false, some [10], none,
      [F.pwrSens_temp, F.pwrSens_agePpm]⟩

/-! MBX_CHc_LOCK (19_mailboxes.md) -/
def F.mbxLock_owner : Fld := ⟨.mbxLock, 3, 0, .rw, 0⟩
/-- MBX_CHc_LOCK: 19_mailboxes.md. -/
def D.mbxLock : RegDesc :=
  ⟨0xf0000060000, [(0x100, 32)], .warm, .hub, true, none, none,
      [F.mbxLock_owner]⟩

/-! MBX_CHc_CTRL (19_mailboxes.md) -/
def F.mbxCtrl_go : Fld := ⟨.mbxCtrl, 31, 31, .w1s, 0⟩
def F.mbxCtrl_take : Fld := ⟨.mbxCtrl, 30, 30, .wo, 0⟩
def F.mbxCtrl_done : Fld := ⟨.mbxCtrl, 29, 29, .wo, 0⟩
def F.mbxCtrl_withdraw : Fld := ⟨.mbxCtrl, 28, 28, .wo, 0⟩
def F.mbxCtrl_len : Fld := ⟨.mbxCtrl, 4, 0, .rw, 8⟩
/-- MBX_CHc_CTRL: 19_mailboxes.md. -/
def D.mbxCtrl : RegDesc :=
  ⟨0xf0000060004, [(0x100, 32)], .warm, .hub, false, none, none,
      [F.mbxCtrl_go, F.mbxCtrl_take, F.mbxCtrl_done, F.mbxCtrl_withdraw, F.mbxCtrl_len]⟩

/-! MBX_CHc_STAT (19_mailboxes.md) -/
def F.mbxStat_state : Fld := ⟨.mbxStat, 31, 29, .ro, 0⟩
def F.mbxStat_tmo : Fld := ⟨.mbxStat, 28, 28, .w1c, 0⟩
def F.mbxStat_lost : Fld := ⟨.mbxStat, 27, 27, .w1c, 0⟩
def F.mbxStat_owner : Fld := ⟨.mbxStat, 23, 20, .ro, 0⟩
/-- Reset entry: per CFG. -/
def F.mbxStat_rcv : Fld := ⟨.mbxStat, 19, 16, .ro, 0⟩
def F.mbxStat_len : Fld := ⟨.mbxStat, 4, 0, .ro, 8⟩
/-- MBX_CHc_STAT: 19_mailboxes.md. -/
def D.mbxStat : RegDesc :=
  ⟨0xf0000060008, [(0x100, 32)], .warm, .hub, false, none, none,
      [F.mbxStat_state, F.mbxStat_tmo, F.mbxStat_lost, F.mbxStat_owner, F.mbxStat_rcv, F.mbxStat_len]⟩

/-! MBX_CHc_CFG (19_mailboxes.md) -/
def F.mbxCfg_force : Fld := ⟨.mbxCfg, 31, 31, .wo, 0⟩
/-- Reset entry: 10 for c = 0 to 15; 1 for c = 16 to 31. -/
def F.mbxCfg_rcv : Fld := ⟨.mbxCfg, 27, 24, .rw, 0⟩
def F.mbxCfg_unit : Fld := ⟨.mbxCfg, 16, 16, .rw, 0⟩
def F.mbxCfg_tmo : Fld := ⟨.mbxCfg, 15, 0, .rw, 0x3e8⟩
/-- MBX_CHc_CFG: 19_mailboxes.md. -/
def D.mbxCfg : RegDesc :=
  ⟨0xf000006000c, [(0x100, 32)], .warm, .hub, false, some [10], none,
      [F.mbxCfg_force, F.mbxCfg_rcv, F.mbxCfg_unit, F.mbxCfg_tmo]⟩

/-! MBX_CHc_TGO_LO (19_mailboxes.md) -/
def F.mbxTgoLo_t : Fld := ⟨.mbxTgoLo, 31, 0, .ro, 0⟩
/-- MBX_CHc_TGO_LO: 19_mailboxes.md. -/
def D.mbxTgoLo : RegDesc :=
  ⟨0xf0000060010, [(0x100, 32)], .warm, .hub, false, none, none,
      [F.mbxTgoLo_t]⟩

/-! MBX_CHc_TGO_HI (19_mailboxes.md) -/
def F.mbxTgoHi_t : Fld := ⟨.mbxTgoHi, 31, 0, .ro, 0⟩
/-- MBX_CHc_TGO_HI: 19_mailboxes.md. -/
def D.mbxTgoHi : RegDesc :=
  ⟨0xf0000060014, [(0x100, 32)], .warm, .hub, false, none, none,
      [F.mbxTgoHi_t]⟩

/-! MBX_CHc_TDONE_LO (19_mailboxes.md) -/
def F.mbxTdoneLo_t : Fld := ⟨.mbxTdoneLo, 31, 0, .ro, 0⟩
/-- MBX_CHc_TDONE_LO: 19_mailboxes.md. -/
def D.mbxTdoneLo : RegDesc :=
  ⟨0xf0000060018, [(0x100, 32)], .warm, .hub, false, none, none,
      [F.mbxTdoneLo_t]⟩

/-! MBX_CHc_TDONE_HI (19_mailboxes.md) -/
def F.mbxTdoneHi_t : Fld := ⟨.mbxTdoneHi, 31, 0, .ro, 0⟩
/-- MBX_CHc_TDONE_HI: 19_mailboxes.md. -/
def D.mbxTdoneHi : RegDesc :=
  ⟨0xf000006001c, [(0x100, 32)], .warm, .hub, false, none, none,
      [F.mbxTdoneHi_t]⟩

/-! MBX_CHc_DATAk (19_mailboxes.md) -/
def F.mbxData_data : Fld := ⟨.mbxData, 31, 0, .rw, 0⟩
/-- MBX_CHc_DATAk: 19_mailboxes.md. -/
def D.mbxData : RegDesc :=
  ⟨0xf0000060040, [(0x100, 32), (0x4, 16)], .warm, .hub, false, none, none,
      [F.mbxData_data]⟩

/-! MBX_POSTED (19_mailboxes.md) -/
def F.mbxPosted_posted : Fld := ⟨.mbxPosted, 31, 0, .ro, 0⟩
/-- MBX_POSTED: 19_mailboxes.md. -/
def D.mbxPosted : RegDesc :=
  ⟨0xf0000064000, [], .warm, .hub, false, none, some [10, 11],
      [F.mbxPosted_posted]⟩

/-! UPD_CMD (20_update_and_attestation.md) -/
def F.updCmd_op : Fld := ⟨.updCmd, 31, 29, .wo, 0⟩
/-- UPD_CMD: 20_update_and_attestation.md. -/
def D.updCmd : RegDesc :=
  ⟨0xf0108300000, [], .warm, .hub, false, some [1, 10, 11], none,
      [F.updCmd_op]⟩

/-! UPD_STAT (20_update_and_attestation.md) -/
def F.updStat_state : Fld := ⟨.updStat, 31, 29, .ro, 0⟩
def F.updStat_cmdErr : Fld := ⟨.updStat, 28, 28, .w1c, 0⟩
def F.updStat_err : Fld := ⟨.updStat, 7, 0, .ro, 0⟩
/-- UPD_STAT: 20_update_and_attestation.md. -/
def D.updStat : RegDesc :=
  ⟨0xf0108300004, [], .warm, .hub, false, some [1, 10, 11], none,
      [F.updStat_state, F.updStat_cmdErr, F.updStat_err]⟩

/-! UPD_BUF_LO (20_update_and_attestation.md) -/
def F.updBufLo_addr : Fld := ⟨.updBufLo, 31, 9, .rw, 0⟩
/-- UPD_BUF_LO: 20_update_and_attestation.md. -/
def D.updBufLo : RegDesc :=
  ⟨0xf0108300008, [], .warm, .hub, false, some [1, 10, 11], none,
      [F.updBufLo_addr]⟩

/-! UPD_BUF_HI (20_update_and_attestation.md) -/
def F.updBufHi_addr : Fld := ⟨.updBufHi, 15, 0, .rw, 0⟩
/-- UPD_BUF_HI: 20_update_and_attestation.md. -/
def D.updBufHi : RegDesc :=
  ⟨0xf010830000c, [], .warm, .hub, false, some [1, 10, 11], none,
      [F.updBufHi_addr]⟩

/-! UPD_TRIAL (20_update_and_attestation.md) -/
def F.updTrial_ms : Fld := ⟨.updTrial, 15, 0, .ro, 0⟩
/-- UPD_TRIAL: 20_update_and_attestation.md. -/
def D.updTrial : RegDesc :=
  ⟨0xf0108300010, [], .warm, .tb, false, some [1, 10, 11], none,
      [F.updTrial_ms]⟩

/-! SEC_OTPSTAT (20_update_and_attestation.md) -/
/-- Reset entry: OTP. -/
def F.secOtpstat_okeySet : Fld := ⟨.secOtpstat, 31, 28, .ro, 0⟩
/-- Reset entry: OTP. -/
def F.secOtpstat_okeyRev : Fld := ⟨.secOtpstat, 27, 24, .ro, 0⟩
/-- Reset entry: OTP. -/
def F.secOtpstat_ikeySet : Fld := ⟨.secOtpstat, 23, 20, .ro, 0⟩
/-- Reset entry: OTP. -/
def F.secOtpstat_ikeyRev : Fld := ⟨.secOtpstat, 19, 16, .ro, 0⟩
/-- Reset entry: OTP. -/
def F.secOtpstat_ykeyRev : Fld := ⟨.secOtpstat, 15, 14, .ro, 0⟩
/-- Reset entry: OTP. -/
def F.secOtpstat_hlDis : Fld := ⟨.secOtpstat, 13, 13, .ro, 0⟩
/-- SEC_OTPSTAT: 20_update_and_attestation.md. -/
def D.secOtpstat : RegDesc :=
  ⟨0xf0108310000, [], .por, .hub, false, some [], none,
      [F.secOtpstat_okeySet, F.secOtpstat_okeyRev, F.secOtpstat_ikeySet, F.secOtpstat_ikeyRev,
     F.secOtpstat_ykeyRev, F.secOtpstat_hlDis]⟩

/-! SEC_SVN (20_update_and_attestation.md) -/
/-- Reset entry: OTP. -/
def F.secSvn_svn4 : Fld := ⟨.secSvn, 31, 24, .ro, 0⟩
/-- Reset entry: OTP. -/
def F.secSvn_svn3 : Fld := ⟨.secSvn, 23, 16, .ro, 0⟩
/-- Reset entry: OTP. -/
def F.secSvn_svn2 : Fld := ⟨.secSvn, 15, 8, .ro, 0⟩
/-- Reset entry: OTP. -/
def F.secSvn_svn1 : Fld := ⟨.secSvn, 7, 0, .ro, 0⟩
/-- SEC_SVN: 20_update_and_attestation.md. -/
def D.secSvn : RegDesc :=
  ⟨0xf0108310004, [], .por, .hub, false, some [], none,
      [F.secSvn_svn4, F.secSvn_svn3, F.secSvn_svn2, F.secSvn_svn1]⟩

/-! CC_COREi_CTRL (21_control_cores_debug.md) -/
def F.ccCoreCtrl_rst : Fld := ⟨.ccCoreCtrl, 31, 31, .rw, 0⟩
def F.ccCoreCtrl_secEn : Fld := ⟨.ccCoreCtrl, 30, 30, .ro, 1⟩
def F.ccCoreCtrl_secDrop : Fld := ⟨.ccCoreCtrl, 29, 29, .wo, 0⟩
def F.ccCoreCtrl_running : Fld := ⟨.ccCoreCtrl, 28, 28, .ro, 0⟩
def F.ccCoreCtrl_halted : Fld := ⟨.ccCoreCtrl, 27, 27, .ro, 0⟩
def F.ccCoreCtrl_bootErr : Fld := ⟨.ccCoreCtrl, 26, 26, .w1c, 0⟩
def F.ccCoreCtrl_wdtReset : Fld := ⟨.ccCoreCtrl, 25, 25, .w1c, 0⟩
/-- CC_COREi_CTRL: 21_control_cores_debug.md. -/
def D.ccCoreCtrl : RegDesc :=
  ⟨0xf0108320000, [(0x20, 4)], .warm, .hub, false, some [1, 10, 11], none,
      [F.ccCoreCtrl_rst, F.ccCoreCtrl_secEn, F.ccCoreCtrl_secDrop, F.ccCoreCtrl_running, F.ccCoreCtrl_halted,
     F.ccCoreCtrl_bootErr, F.ccCoreCtrl_wdtReset]⟩

/-! CC_BOOT_LO (21_control_cores_debug.md) -/
def F.ccBootLo_addr : Fld := ⟨.ccBootLo, 31, 12, .rw, 0⟩
/-- CC_BOOT_LO: 21_control_cores_debug.md. -/
def D.ccBootLo : RegDesc :=
  ⟨0xf0108320100, [], .warm, .hub, false, some [1, 10, 11], none,
      [F.ccBootLo_addr]⟩

/-! CC_BOOT_HI (21_control_cores_debug.md) -/
def F.ccBootHi_addr : Fld := ⟨.ccBootHi, 15, 0, .rw, 0⟩
/-- CC_BOOT_HI: 21_control_cores_debug.md. -/
def D.ccBootHi : RegDesc :=
  ⟨0xf0108320104, [], .warm, .hub, false, some [1, 10, 11], none,
      [F.ccBootHi_addr]⟩

/-! CC_WDTi (21_control_cores_debug.md) -/
def F.ccWdt_en : Fld := ⟨.ccWdt, 31, 31, .rw, 0⟩
def F.ccWdt_expired : Fld := ⟨.ccWdt, 30, 30, .w1c, 0⟩
def F.ccWdt_kick : Fld := ⟨.ccWdt, 29, 29, .wo, 0⟩
def F.ccWdt_periodUs : Fld := ⟨.ccWdt, 23, 0, .rw, 0xf4240⟩
/-- CC_WDTi: 21_control_cores_debug.md. -/
def D.ccWdt : RegDesc :=
  ⟨0xf0108320200, [(0x10, 4)], .warm, .tb, false, some [1, 10, 11], none,
      [F.ccWdt_en, F.ccWdt_expired, F.ccWdt_kick, F.ccWdt_periodUs]⟩

/-! CC_CMO_LO (21_control_cores_debug.md) -/
def F.ccCmoLo_addr : Fld := ⟨.ccCmoLo, 31, 12, .rw, 0⟩
/-- CC_CMO_LO: 21_control_cores_debug.md. -/
def D.ccCmoLo : RegDesc :=
  ⟨0xf0108320300, [], .warm, .hub, false, some [1, 10, 11], none,
      [F.ccCmoLo_addr]⟩

/-! CC_CMO_HI (21_control_cores_debug.md) -/
def F.ccCmoHi_op : Fld := ⟨.ccCmoHi, 31, 30, .wo, 0⟩
def F.ccCmoHi_busy : Fld := ⟨.ccCmoHi, 29, 29, .ro, 0⟩
def F.ccCmoHi_addr : Fld := ⟨.ccCmoHi, 15, 0, .rw, 0⟩
/-- CC_CMO_HI: 21_control_cores_debug.md. -/
def D.ccCmoHi : RegDesc :=
  ⟨0xf0108320304, [], .warm, .hub, false, some [1, 10, 11], none,
      [F.ccCmoHi_op, F.ccCmoHi_busy, F.ccCmoHi_addr]⟩

/-! DBG_CFG (21_control_cores_debug.md) -/
/-- Reset entry: OTP. -/
def F.dbgCfg_mode : Fld := ⟨.dbgCfg, 31, 30, .ro, 0⟩
/-- Reset entry: OTP. -/
def F.dbgCfg_otpMode : Fld := ⟨.dbgCfg, 29, 28, .ro, 0⟩
def F.dbgCfg_hold : Fld := ⟨.dbgCfg, 27, 27, .rw, 0⟩
def F.dbgCfg_mcScope : Fld := ⟨.dbgCfg, 26, 26, .ro, 0⟩
def F.dbgCfg_secScope : Fld := ⟨.dbgCfg, 25, 25, .ro, 0⟩
def F.dbgCfg_sbPeek : Fld := ⟨.dbgCfg, 24, 24, .rw, 1⟩
def F.dbgCfg_bsRef : Fld := ⟨.dbgCfg, 23, 23, .w1c, 0⟩
/-- DBG_CFG: 21_control_cores_debug.md. -/
def D.dbgCfg : RegDesc :=
  ⟨0xf00000f0000, [], .dbg, .hub, false, some [11], none,
      [F.dbgCfg_mode, F.dbgCfg_otpMode, F.dbgCfg_hold, F.dbgCfg_mcScope, F.dbgCfg_secScope, F.dbgCfg_sbPeek,
     F.dbgCfg_bsRef]⟩

/-! DBG_NONCEk (21_control_cores_debug.md) -/
/-- Reset entry: random. -/
def F.dbgNonce_nonce : Fld := ⟨.dbgNonce, 31, 0, .ro, 0⟩
/-- DBG_NONCEk: 21_control_cores_debug.md. -/
def D.dbgNonce : RegDesc :=
  ⟨0xf00000f0100, [(0x4, 8)], .por, .hub, false, some [11], none,
      [F.dbgNonce_nonce]⟩

/-! DBG_UNLKBUF (21_control_cores_debug.md) -/
def F.dbgUnlkbuf_byte : Fld := ⟨.dbgUnlkbuf, 31, 0, .wo, 0⟩
/-- DBG_UNLKBUF: 21_control_cores_debug.md. -/
def D.dbgUnlkbuf : RegDesc :=
  ⟨0xf00000f0200, [(0x4, 48)], .por, .hub, false, some [11], none,
      [F.dbgUnlkbuf_byte]⟩

/-! DBG_UNLKCMD (21_control_cores_debug.md) -/
def F.dbgUnlkcmd_op : Fld := ⟨.dbgUnlkcmd, 31, 30, .wo, 0⟩
def F.dbgUnlkcmd_busy : Fld := ⟨.dbgUnlkcmd, 29, 29, .ro, 0⟩
def F.dbgUnlkcmd_res : Fld := ⟨.dbgUnlkcmd, 28, 27, .ro, 0⟩
/-- DBG_UNLKCMD: 21_control_cores_debug.md. -/
def D.dbgUnlkcmd : RegDesc :=
  ⟨0xf00000f0300, [], .por, .hub, false, some [10, 11], none,
      [F.dbgUnlkcmd_op, F.dbgUnlkcmd_busy, F.dbgUnlkcmd_res]⟩

/-! GLB_ASMREC (01_seven_dies_two_stacks.md) -/
def F.glbAsmrec_record : Fld := ⟨.glbAsmrec, 31, 0, .ro, 0⟩
/-- GLB_ASMREC: 01_seven_dies_two_stacks.md. -/
def D.glbAsmrec : RegDesc :=
  ⟨0xf0000002000, [(0x4, 2048)], .por, .hub, false, none, none,
      [F.glbAsmrec_record]⟩

/-! msip (21_control_cores_debug.md) -/
def F.ccMsip_msip : Fld := ⟨.ccMsip, 0, 0, .rw, 0⟩
/-- msip: 21_control_cores_debug.md. -/
def D.ccMsip : RegDesc :=
  ⟨0xf0108700000, [(0x4, 4)], .warm, .tb, false, none, none,
      [F.ccMsip_msip]⟩

/-! mtimecmp (low word) (21_control_cores_debug.md) -/
def F.ccMtimecmpLo_mtimecmp : Fld := ⟨.ccMtimecmpLo, 31, 0, .rw, 0⟩
/-- mtimecmp (low word): 21_control_cores_debug.md. -/
def D.ccMtimecmpLo : RegDesc :=
  ⟨0xf0108704000, [(0x8, 4)], .warm, .tb, false, none, none,
      [F.ccMtimecmpLo_mtimecmp]⟩

/-! mtimecmp (high word) (21_control_cores_debug.md) -/
def F.ccMtimecmpHi_mtimecmp : Fld := ⟨.ccMtimecmpHi, 31, 0, .rw, 0⟩
/-- mtimecmp (high word): 21_control_cores_debug.md. -/
def D.ccMtimecmpHi : RegDesc :=
  ⟨0xf0108704004, [(0x8, 4)], .warm, .tb, false, none, none,
      [F.ccMtimecmpHi_mtimecmp]⟩

/-! mtime (low word) (21_control_cores_debug.md) -/
def F.ccMtimeLo_mtime : Fld := ⟨.ccMtimeLo, 31, 0, .ro, 0⟩
/-- mtime (low word): 21_control_cores_debug.md. -/
def D.ccMtimeLo : RegDesc :=
  ⟨0xf010870bff8, [], .warm, .tb, false, none, none,
      [F.ccMtimeLo_mtime]⟩

/-! mtime (high word) (21_control_cores_debug.md) -/
def F.ccMtimeHi_mtime : Fld := ⟨.ccMtimeHi, 31, 0, .ro, 0⟩
/-- mtime (high word): 21_control_cores_debug.md. -/
def D.ccMtimeHi : RegDesc :=
  ⟨0xf010870bffc, [], .warm, .tb, false, none, none,
      [F.ccMtimeHi_mtime]⟩

/-! PLIC priority (21_control_cores_debug.md) -/
def F.plicPriority_priority : Fld := ⟨.plicPriority, 2, 0, .rw, 0⟩
/-- PLIC priority: 21_control_cores_debug.md. -/
def D.plicPriority : RegDesc :=
  ⟨0xf0108800000, [(0x4, 512)], .warm, .hub, false, none, none,
      [F.plicPriority_priority]⟩

/-! PLIC pending (21_control_cores_debug.md) -/
def F.plicPending_pending : Fld := ⟨.plicPending, 31, 0, .ro, 0⟩
/-- PLIC pending: 21_control_cores_debug.md. -/
def D.plicPending : RegDesc :=
  ⟨0xf0108801000, [(0x4, 16)], .warm, .hub, false, none, none,
      [F.plicPending_pending]⟩

/-! PLIC enable (21_control_cores_debug.md) -/
def F.plicEnable_enable : Fld := ⟨.plicEnable, 31, 0, .rw, 0⟩
/-- PLIC enable: 21_control_cores_debug.md. -/
def D.plicEnable : RegDesc :=
  ⟨0xf0108802000, [(0x80, 8), (0x4, 16)], .warm, .hub, false, none, none,
      [F.plicEnable_enable]⟩

/-! PLIC threshold (21_control_cores_debug.md) -/
def F.plicThreshold_threshold : Fld := ⟨.plicThreshold, 2, 0, .rw, 0⟩
/-- PLIC threshold: 21_control_cores_debug.md. -/
def D.plicThreshold : RegDesc :=
  ⟨0xf0108a00000, [(0x1000, 8)], .warm, .hub, false, none, none,
      [F.plicThreshold_threshold]⟩

/-! PLIC claim (21_control_cores_debug.md) -/
def F.plicClaim_claim : Fld := ⟨.plicClaim, 31, 0, .ro, 0⟩
/-- PLIC claim: 21_control_cores_debug.md. -/
def D.plicClaim : RegDesc :=
  ⟨0xf0108a00004, [(0x1000, 8)], .warm, .hub, false, none, none,
      [F.plicClaim_claim]⟩

/-! MSI-X table (17_lanes_and_host_link.md) -/
def F.msixTable_entry : Fld := ⟨.msixTable, 31, 0, .rw, 0⟩
/-- MSI-X table: 17_lanes_and_host_link.md. -/
def D.msixTable : RegDesc :=
  ⟨0x1000003f00000, [(0x4, 1024)], .host, .hub, false, none, none,
      [F.msixTable_entry]⟩

/-! MSI-X pending bits (17_lanes_and_host_link.md) -/
def F.msixPba_pending : Fld := ⟨.msixPba, 31, 0, .ro, 0⟩
/-- MSI-X pending bits: 17_lanes_and_host_link.md. -/
def D.msixPba : RegDesc :=
  ⟨0x1000003f01000, [(0x4, 8)], .host, .hub, false, none, none,
      [F.msixPba_pending]⟩

/-- The descriptor of each register. -/
def RegName.desc : RegName → RegDesc
  | .dieId => D.dieId
  | .glbFeature => D.glbFeature
  | .glbWirechk => D.glbWirechk
  | .glbXstat => D.glbXstat
  | .glbXctrl => D.glbXctrl
  | .glbXinj => D.glbXinj
  | .glbTarod => D.glbTarod
  | .glbPinctrl => D.glbPinctrl
  | .glbFlmap => D.glbFlmap
  | .glbBankpwrHp => D.glbBankpwrHp
  | .glbBankpwrHv => D.glbBankpwrHv
  | .glbPinflt => D.glbPinflt
  | .glbXgstat => D.glbXgstat
  | .glbXgcnt => D.glbXgcnt
  | .clkRefstat => D.clkRefstat
  | .clkRefctrl => D.clkRefctrl
  | .clkMon => D.clkMon
  | .clkGate => D.clkGate
  | .tbTimeLo => D.tbTimeLo
  | .tbTimeHi => D.tbTimeHi
  | .tbStat => D.tbStat
  | .tbTickCtrl => D.tbTickCtrl
  | .tbTickPeriod => D.tbTickPeriod
  | .tbTickStartLo => D.tbTickStartLo
  | .tbTickStartHi => D.tbTickStartHi
  | .tbTickCount => D.tbTickCount
  | .wtStat => D.wtStat
  | .wtIstat => D.wtIstat
  | .wtPstat => D.wtPstat
  | .wtPcnt => D.wtPcnt
  | .wtCtrl => D.wtCtrl
  | .wtFenceCtrl => D.wtFenceCtrl
  | .wtFenceLo => D.wtFenceLo
  | .wtFenceHi => D.wtFenceHi
  | .waStat => D.waStat
  | .waMisrun => D.waMisrun
  | .waPortCfg => D.waPortCfg
  | .waPortWin => D.waPortWin
  | .waPortStat => D.waPortStat
  | .waPortCnt => D.waPortCnt
  | .waSqCfg => D.waSqCfg
  | .waSqStat => D.waSqStat
  | .waSqRdmeta => D.waSqRdmeta
  | .waSqWrctl => D.waSqWrctl
  | .waSqRd => D.waSqRd
  | .waSqWr => D.waSqWr
  | .waDmBaseLo => D.waDmBaseLo
  | .waDmBaseHi => D.waDmBaseHi
  | .waDmHead => D.waDmHead
  | .waDmTail => D.waDmTail
  | .waDmCtrl => D.waDmCtrl
  | .waRsBaseLo => D.waRsBaseLo
  | .waRsBaseHi => D.waRsBaseHi
  | .waRsCfg => D.waRsCfg
  | .waRsStat => D.waRsStat
  | .rslPol => D.rslPol
  | .rslValidsum => D.rslValidsum
  | .rslStat => D.rslStat
  | .eccBktCfg => D.eccBktCfg
  | .eccBktStat => D.eccBktStat
  | .eccOvf => D.eccOvf
  | .eccBrsel => D.eccBrsel
  | .eccBraddr => D.eccBraddr
  | .eccBrdataLo => D.eccBrdataLo
  | .eccBrdataHi => D.eccBrdataHi
  | .eccBrchk => D.eccBrchk
  | .eccBrcmd => D.eccBrcmd
  | .eccRtsel => D.eccRtsel
  | .eccRtaddrLo => D.eccRtaddrLo
  | .eccRtaddrHi => D.eccRtaddrHi
  | .eccRtcmd => D.eccRtcmd
  | .eccRtbuf => D.eccRtbuf
  | .eccPinj => D.eccPinj
  | .logCfg => D.logCfg
  | .logStat => D.logStat
  | .logWseq => D.logWseq
  | .logPseq => D.logPseq
  | .logRdseq => D.logRdseq
  | .logRdflg => D.logRdflg
  | .logRd => D.logRd
  | .cfgStat => D.cfgStat
  | .cfgErrinfo => D.cfgErrinfo
  | .cfgCmd => D.cfgCmd
  | .cfgHdeadline => D.cfgHdeadline
  | .cfgHpos => D.cfgHpos
  | .cfgMaddrLo => D.cfgMaddrLo
  | .cfgMaddrHi => D.cfgMaddrHi
  | .ftlStat => D.ftlStat
  | .ftlReq => D.ftlReq
  | .ftlPass => D.ftlPass
  | .ftlFlask => D.ftlFlask
  | .ftlRblock => D.ftlRblock
  | .ftlRbcmd => D.ftlRbcmd
  | .ftlRbtLo => D.ftlRbtLo
  | .ftlRbtHi => D.ftlRbtHi
  | .ftlTrbcmd => D.ftlTrbcmd
  | .ftlRcmd => D.ftlRcmd
  | .ftlRsrcLo => D.ftlRsrcLo
  | .ftlRsrcHi => D.ftlRsrcHi
  | .ftlRbuf => D.ftlRbuf
  | .ftlRbwin => D.ftlRbwin
  | .ftlTrbwin => D.ftlTrbwin
  | .nocMcfg => D.nocMcfg
  | .nocMstat => D.nocMstat
  | .nocPanicLo => D.nocPanicLo
  | .nocPanicHi => D.nocPanicHi
  | .nocTsel => D.nocTsel
  | .nocPrbCtrl => D.nocPrbCtrl
  | .nocPrbFilt => D.nocPrbFilt
  | .nocPrbAddr => D.nocPrbAddr
  | .nocPrbCnt => D.nocPrbCnt
  | .nocPrbTstat => D.nocPrbTstat
  | .nocHistCfg => D.nocHistCfg
  | .nocHistBase => D.nocHistBase
  | .nocHistCount => D.nocHistCount
  | .nocHistMin => D.nocHistMin
  | .nocHistMax => D.nocHistMax
  | .nocHistBin => D.nocHistBin
  | .nocTwin => D.nocTwin
  | .ddrMap => D.ddrMap
  | .ddrChCfg => D.ddrChCfg
  | .hbmCfg => D.hbmCfg
  | .ddrChStat => D.ddrChStat
  | .hbmStkStat => D.hbmStkStat
  | .hbmStkPcfail => D.hbmStkPcfail
  | .ddrChCecnt => D.ddrChCecnt
  | .hbmStkCecnt => D.hbmStkCecnt
  | .ddrRgnBase => D.ddrRgnBase
  | .ddrRgnLimit => D.ddrRgnLimit
  | .ddrRgnCfg => D.ddrRgnCfg
  | .ddrPcmd => D.ddrPcmd
  | .ddrPaddrLo => D.ddrPaddrLo
  | .ddrPaddrHi => D.ddrPaddrHi
  | .ddrPprcmd => D.ddrPprcmd
  | .ddrPprlocLo => D.ddrPprlocLo
  | .ddrPprlocHi => D.ddrPprlocHi
  | .hbmPprcmd => D.hbmPprcmd
  | .hbmPprlocLo => D.hbmPprlocLo
  | .hbmPprlocHi => D.hbmPprlocHi
  | .encKeybuf => D.encKeybuf
  | .encKeycmd => D.encKeycmd
  | .encScmd => D.encScmd
  | .encSaddrLo => D.encSaddrLo
  | .encSaddrHi => D.encSaddrHi
  | .encAlarm => D.encAlarm
  | .encRgnCtrl => D.encRgnCtrl
  | .encRgnStat => D.encRgnStat
  | .encRgnBoundLo => D.encRgnBoundLo
  | .encRgnBoundHi => D.encRgnBoundHi
  | .lnLaneCfg => D.lnLaneCfg
  | .lnLaneRate => D.lnLaneRate
  | .lnLaneStat => D.lnLaneStat
  | .lnLaneLat => D.lnLaneLat
  | .lnGrpCfg => D.lnGrpCfg
  | .lnGrpFec => D.lnGrpFec
  | .pciStat => D.pciStat
  | .pciWerr => D.pciWerr
  | .pciWerrLo => D.pciWerrLo
  | .pciWerrHi => D.pciWerrHi
  | .pciTrLo => D.pciTrLo
  | .pciTrHi => D.pciTrHi
  | .pciTrCfg => D.pciTrCfg
  | .pciQvec => D.pciQvec
  | .pwrMode => D.pwrMode
  | .pwrStat => D.pwrStat
  | .pwrFuse => D.pwrFuse
  | .pwrCap => D.pwrCap
  | .pwrPrio => D.pwrPrio
  | .pwrMeas => D.pwrMeas
  | .pwrTrip => D.pwrTrip
  | .pwrTl => D.pwrTl
  | .pwrMargin => D.pwrMargin
  | .pwrSens => D.pwrSens
  | .mbxLock => D.mbxLock
  | .mbxCtrl => D.mbxCtrl
  | .mbxStat => D.mbxStat
  | .mbxCfg => D.mbxCfg
  | .mbxTgoLo => D.mbxTgoLo
  | .mbxTgoHi => D.mbxTgoHi
  | .mbxTdoneLo => D.mbxTdoneLo
  | .mbxTdoneHi => D.mbxTdoneHi
  | .mbxData => D.mbxData
  | .mbxPosted => D.mbxPosted
  | .updCmd => D.updCmd
  | .updStat => D.updStat
  | .updBufLo => D.updBufLo
  | .updBufHi => D.updBufHi
  | .updTrial => D.updTrial
  | .secOtpstat => D.secOtpstat
  | .secSvn => D.secSvn
  | .ccCoreCtrl => D.ccCoreCtrl
  | .ccBootLo => D.ccBootLo
  | .ccBootHi => D.ccBootHi
  | .ccWdt => D.ccWdt
  | .ccCmoLo => D.ccCmoLo
  | .ccCmoHi => D.ccCmoHi
  | .dbgCfg => D.dbgCfg
  | .dbgNonce => D.dbgNonce
  | .dbgUnlkbuf => D.dbgUnlkbuf
  | .dbgUnlkcmd => D.dbgUnlkcmd
  | .glbAsmrec => D.glbAsmrec
  | .ccMsip => D.ccMsip
  | .ccMtimecmpLo => D.ccMtimecmpLo
  | .ccMtimecmpHi => D.ccMtimecmpHi
  | .ccMtimeLo => D.ccMtimeLo
  | .ccMtimeHi => D.ccMtimeHi
  | .plicPriority => D.plicPriority
  | .plicPending => D.plicPending
  | .plicEnable => D.plicEnable
  | .plicThreshold => D.plicThreshold
  | .plicClaim => D.plicClaim
  | .msixTable => D.msixTable
  | .msixPba => D.msixPba

/-- Registers with their descriptors, part 1. -/
def regTable1 : List (RegName × RegDesc) :=
  [(.dieId, D.dieId), (.glbFeature, D.glbFeature), (.glbWirechk, D.glbWirechk), (.glbXstat, D.glbXstat),
   (.glbXctrl, D.glbXctrl), (.glbXinj, D.glbXinj), (.glbTarod, D.glbTarod), (.glbPinctrl, D.glbPinctrl),
   (.glbFlmap, D.glbFlmap), (.glbBankpwrHp, D.glbBankpwrHp), (.glbBankpwrHv, D.glbBankpwrHv), (.glbPinflt,
   D.glbPinflt), (.glbXgstat, D.glbXgstat), (.glbXgcnt, D.glbXgcnt), (.clkRefstat, D.clkRefstat), (.clkRefctrl,
   D.clkRefctrl), (.clkMon, D.clkMon), (.clkGate, D.clkGate), (.tbTimeLo, D.tbTimeLo), (.tbTimeHi, D.tbTimeHi),
   (.tbStat, D.tbStat), (.tbTickCtrl, D.tbTickCtrl), (.tbTickPeriod, D.tbTickPeriod), (.tbTickStartLo,
   D.tbTickStartLo), (.tbTickStartHi, D.tbTickStartHi), (.tbTickCount, D.tbTickCount), (.wtStat, D.wtStat),
   (.wtIstat, D.wtIstat), (.wtPstat, D.wtPstat), (.wtPcnt, D.wtPcnt), (.wtCtrl, D.wtCtrl), (.wtFenceCtrl,
   D.wtFenceCtrl), (.wtFenceLo, D.wtFenceLo), (.wtFenceHi, D.wtFenceHi), (.waStat, D.waStat), (.waMisrun,
   D.waMisrun)]

/-- Registers with their descriptors, part 2. -/
def regTable2 : List (RegName × RegDesc) :=
  [(.waPortCfg, D.waPortCfg), (.waPortWin, D.waPortWin), (.waPortStat, D.waPortStat), (.waPortCnt, D.waPortCnt),
   (.waSqCfg, D.waSqCfg), (.waSqStat, D.waSqStat), (.waSqRdmeta, D.waSqRdmeta), (.waSqWrctl, D.waSqWrctl),
   (.waSqRd, D.waSqRd), (.waSqWr, D.waSqWr), (.waDmBaseLo, D.waDmBaseLo), (.waDmBaseHi, D.waDmBaseHi),
   (.waDmHead, D.waDmHead), (.waDmTail, D.waDmTail), (.waDmCtrl, D.waDmCtrl), (.waRsBaseLo, D.waRsBaseLo),
   (.waRsBaseHi, D.waRsBaseHi), (.waRsCfg, D.waRsCfg), (.waRsStat, D.waRsStat), (.rslPol, D.rslPol),
   (.rslValidsum, D.rslValidsum), (.rslStat, D.rslStat), (.eccBktCfg, D.eccBktCfg), (.eccBktStat, D.eccBktStat),
   (.eccOvf, D.eccOvf), (.eccBrsel, D.eccBrsel), (.eccBraddr, D.eccBraddr), (.eccBrdataLo, D.eccBrdataLo),
   (.eccBrdataHi, D.eccBrdataHi), (.eccBrchk, D.eccBrchk), (.eccBrcmd, D.eccBrcmd), (.eccRtsel, D.eccRtsel),
   (.eccRtaddrLo, D.eccRtaddrLo), (.eccRtaddrHi, D.eccRtaddrHi), (.eccRtcmd, D.eccRtcmd), (.eccRtbuf,
   D.eccRtbuf)]

/-- Registers with their descriptors, part 3. -/
def regTable3 : List (RegName × RegDesc) :=
  [(.eccPinj, D.eccPinj), (.logCfg, D.logCfg), (.logStat, D.logStat), (.logWseq, D.logWseq), (.logPseq,
   D.logPseq), (.logRdseq, D.logRdseq), (.logRdflg, D.logRdflg), (.logRd, D.logRd), (.cfgStat, D.cfgStat),
   (.cfgErrinfo, D.cfgErrinfo), (.cfgCmd, D.cfgCmd), (.cfgHdeadline, D.cfgHdeadline), (.cfgHpos, D.cfgHpos),
   (.cfgMaddrLo, D.cfgMaddrLo), (.cfgMaddrHi, D.cfgMaddrHi), (.ftlStat, D.ftlStat), (.ftlReq, D.ftlReq),
   (.ftlPass, D.ftlPass), (.ftlFlask, D.ftlFlask), (.ftlRblock, D.ftlRblock), (.ftlRbcmd, D.ftlRbcmd),
   (.ftlRbtLo, D.ftlRbtLo), (.ftlRbtHi, D.ftlRbtHi), (.ftlTrbcmd, D.ftlTrbcmd), (.ftlRcmd, D.ftlRcmd),
   (.ftlRsrcLo, D.ftlRsrcLo), (.ftlRsrcHi, D.ftlRsrcHi), (.ftlRbuf, D.ftlRbuf), (.ftlRbwin, D.ftlRbwin),
   (.ftlTrbwin, D.ftlTrbwin), (.nocMcfg, D.nocMcfg), (.nocMstat, D.nocMstat), (.nocPanicLo, D.nocPanicLo),
   (.nocPanicHi, D.nocPanicHi), (.nocTsel, D.nocTsel), (.nocPrbCtrl, D.nocPrbCtrl)]

/-- Registers with their descriptors, part 4. -/
def regTable4 : List (RegName × RegDesc) :=
  [(.nocPrbFilt, D.nocPrbFilt), (.nocPrbAddr, D.nocPrbAddr), (.nocPrbCnt, D.nocPrbCnt), (.nocPrbTstat,
   D.nocPrbTstat), (.nocHistCfg, D.nocHistCfg), (.nocHistBase, D.nocHistBase), (.nocHistCount, D.nocHistCount),
   (.nocHistMin, D.nocHistMin), (.nocHistMax, D.nocHistMax), (.nocHistBin, D.nocHistBin), (.nocTwin, D.nocTwin),
   (.ddrMap, D.ddrMap), (.ddrChCfg, D.ddrChCfg), (.hbmCfg, D.hbmCfg), (.ddrChStat, D.ddrChStat), (.hbmStkStat,
   D.hbmStkStat), (.hbmStkPcfail, D.hbmStkPcfail), (.ddrChCecnt, D.ddrChCecnt), (.hbmStkCecnt, D.hbmStkCecnt),
   (.ddrRgnBase, D.ddrRgnBase), (.ddrRgnLimit, D.ddrRgnLimit), (.ddrRgnCfg, D.ddrRgnCfg), (.ddrPcmd, D.ddrPcmd),
   (.ddrPaddrLo, D.ddrPaddrLo), (.ddrPaddrHi, D.ddrPaddrHi), (.ddrPprcmd, D.ddrPprcmd), (.ddrPprlocLo,
   D.ddrPprlocLo), (.ddrPprlocHi, D.ddrPprlocHi), (.hbmPprcmd, D.hbmPprcmd), (.hbmPprlocLo, D.hbmPprlocLo),
   (.hbmPprlocHi, D.hbmPprlocHi), (.encKeybuf, D.encKeybuf), (.encKeycmd, D.encKeycmd), (.encScmd, D.encScmd),
   (.encSaddrLo, D.encSaddrLo), (.encSaddrHi, D.encSaddrHi)]

/-- Registers with their descriptors, part 5. -/
def regTable5 : List (RegName × RegDesc) :=
  [(.encAlarm, D.encAlarm), (.encRgnCtrl, D.encRgnCtrl), (.encRgnStat, D.encRgnStat), (.encRgnBoundLo,
   D.encRgnBoundLo), (.encRgnBoundHi, D.encRgnBoundHi), (.lnLaneCfg, D.lnLaneCfg), (.lnLaneRate, D.lnLaneRate),
   (.lnLaneStat, D.lnLaneStat), (.lnLaneLat, D.lnLaneLat), (.lnGrpCfg, D.lnGrpCfg), (.lnGrpFec, D.lnGrpFec),
   (.pciStat, D.pciStat), (.pciWerr, D.pciWerr), (.pciWerrLo, D.pciWerrLo), (.pciWerrHi, D.pciWerrHi),
   (.pciTrLo, D.pciTrLo), (.pciTrHi, D.pciTrHi), (.pciTrCfg, D.pciTrCfg), (.pciQvec, D.pciQvec), (.pwrMode,
   D.pwrMode), (.pwrStat, D.pwrStat), (.pwrFuse, D.pwrFuse), (.pwrCap, D.pwrCap), (.pwrPrio, D.pwrPrio),
   (.pwrMeas, D.pwrMeas), (.pwrTrip, D.pwrTrip), (.pwrTl, D.pwrTl), (.pwrMargin, D.pwrMargin), (.pwrSens,
   D.pwrSens), (.mbxLock, D.mbxLock), (.mbxCtrl, D.mbxCtrl), (.mbxStat, D.mbxStat), (.mbxCfg, D.mbxCfg),
   (.mbxTgoLo, D.mbxTgoLo), (.mbxTgoHi, D.mbxTgoHi), (.mbxTdoneLo, D.mbxTdoneLo)]

/-- Registers with their descriptors, part 6. -/
def regTable6 : List (RegName × RegDesc) :=
  [(.mbxTdoneHi, D.mbxTdoneHi), (.mbxData, D.mbxData), (.mbxPosted, D.mbxPosted), (.updCmd, D.updCmd),
   (.updStat, D.updStat), (.updBufLo, D.updBufLo), (.updBufHi, D.updBufHi), (.updTrial, D.updTrial),
   (.secOtpstat, D.secOtpstat), (.secSvn, D.secSvn), (.ccCoreCtrl, D.ccCoreCtrl), (.ccBootLo, D.ccBootLo),
   (.ccBootHi, D.ccBootHi), (.ccWdt, D.ccWdt), (.ccCmoLo, D.ccCmoLo), (.ccCmoHi, D.ccCmoHi), (.dbgCfg,
   D.dbgCfg), (.dbgNonce, D.dbgNonce), (.dbgUnlkbuf, D.dbgUnlkbuf), (.dbgUnlkcmd, D.dbgUnlkcmd), (.glbAsmrec,
   D.glbAsmrec), (.ccMsip, D.ccMsip), (.ccMtimecmpLo, D.ccMtimecmpLo), (.ccMtimecmpHi, D.ccMtimecmpHi),
   (.ccMtimeLo, D.ccMtimeLo), (.ccMtimeHi, D.ccMtimeHi), (.plicPriority, D.plicPriority), (.plicPending,
   D.plicPending), (.plicEnable, D.plicEnable), (.plicThreshold, D.plicThreshold), (.plicClaim, D.plicClaim),
   (.msixTable, D.msixTable), (.msixPba, D.msixPba)]

/-- Every register with its descriptor. -/
def regTable : List (RegName × RegDesc) :=
  regTable1 ++ regTable2 ++ regTable3 ++ regTable4 ++ regTable5 ++ regTable6

end Sys2Proof.Machine
end

