-- ==== Sys2Proof/Machine/State.lean ====
section
/-!
DEFINITION. Sys2Proof/Machine/State.lean: the state of the block as plain data: every register (sparse, by address;
an unlisted register holds its reset value of RegTable), every buffer, queue, counter and mode the manual names
beside them, and the queue of waiting commands.
-/

namespace Sys2Proof.Machine

/-- A fault: the machine stops. No meaning of this model ends in one; the constructor is raised by none and stands
only because the outcome type asks for a fault type.  Safe. -/
inductive Fault where
  | none_
deriving DecidableEq, Repr

/-- A refusal. `notModelled` is raised by a dispatch arm whose command has no meaning yet: safe, it stops. -/
inductive Refusal where
  | notModelled (mnemonic : String)
deriving DecidableEq, Repr

/-! ## Clocks and timebase (R48 to R75) -/

/-- Where clock start-up stands: held off (R542); waiting for a reference; a reference active and PLLs locking (R53
steps 2, 3); PLLs locked and the timebase not started; running; every reference lost (R57); a hot resume in
progress (R58). -/
inductive ClkPhase where
  | heldOff | waitRef | locking | locked | running | outage | resuming
deriving DecidableEq, Repr, Inhabited

/-- The CLKMON output (R63, R64): the source cycles it still stays low, the fraction of a source cycle that has passed (in
millionths), the source cycle of its period that comes next, and its level. -/
structure MonSt where
  low : Nat
  part : Nat
  pos : Nat
  high : Bool
deriving DecidableEq, Repr, Inhabited

/-- Clock state outside the registers: the phase, whether this start-up is a warm restart, the retention monitor
(running, expired), the count held in an outage (R57), whether a reference has been declared failed (R53), whether it has been
lost or declared failed since start-up began (R56), the straps sampled last (R549), and the CLKMON output. -/
structure ClkSt where
  phase : ClkPhase
  warm : Bool
  retRunning : Bool
  retExpired : Bool
  held : Nat
  failedA : Bool
  failedB : Bool
  lostA : Bool
  lostB : Bool
  profile : BitVec 2
  iopull : BitVec 2
  mon : MonSt
deriving DecidableEq, Repr, Inhabited

/-- A tick that a die has fired and its word array has not taken (R71): die, generator, the count, and the count of the
generator's tick before on that die plus 1. -/
structure OwedTick where
  die : Nat
  gen : Nat
  count : Nat
  prev : Nat
deriving DecidableEq, Repr

/-- The hub timebase and the seven die copies (R65, R66): index 0 to 3 FD0 to FD3, 4 hub, 5 LD0, 6 LD1. `offs` is a copy's
offset from the hub, `drift` the counts a copy has still to gain or lose of a reported wander, `slew` the copies that correct
themselves (R67), `jumped` those whose last count skipped one, `sync` the count of the last sync message plus 1 (R68).
`fresh` says that the count has just been reached by a start, so its ticks are still to be judged. Per tick generator:
`period` the period in force while a new one is pending (0: that of the register), `anchor` one more than the count the
schedule is reckoned from once a period has changed while it ran (R74; 0: the start register); `since` the count of the
write that last changed en; `prev` the count of its last
tick plus 1, at key n on the hub and at 4 * (d + 1) + n on FDd; `toggles` the tick toggle signals of the hub and
`dieToggles` those of FD0 to FD3 (R73); `owed` the ticks that word arrays have still to take; `phase` by die the fraction of
a word-array cycle that has passed, in MHz times ns, and `edged` the dies whose word-array clock had an edge in the present
ns (R72); `half` the half of the cycle that the next idle step takes (log entry 1). -/
structure TbSt where
  count : Nat
  running : Bool
  fresh : Bool
  offs : SMap Int
  drift : SMap Int
  slew : List Nat
  jumped : List Nat
  sync : SMap Nat
  period : SMap Nat
  anchor : SMap Nat
  since : SMap Nat
  prev : SMap Nat
  toggles : BitVec 4
  dieToggles : SMap (BitVec 4)
  owed : List OwedTick
  phase : SMap Nat
  edged : List Nat
  half : Bool
deriving DecidableEq, Repr, Inhabited

/-- Levels and states of pins that no register shows: user outputs (0 held off, 1 pre-load state, 2 user), whether they are
forced to their safe states (R57, R482), the levels that pins forced to hold-last keep (a pin not listed: high impedance), lane
transmitters forced idle, CFG_DONE, CFG_ERR_N, THERM_N and PERST_N asserted, the drivers switched off by a fault (R553), the
levels of FLASHn_CS_N and FLASHn_SCK (bit n). CLKMON stands in the clock state, ALARM_N follows ENC_ALARM (R417). -/
structure PinSt where
  user : Nat
  safe : Bool
  last : SMap Bool
  txIdle : Bool
  cfgDone : Bool
  cfgErr : Bool
  therm : Bool
  perst : Bool
  off : List Nat
  flashCs : BitVec 2
  flashSck : BitVec 2
deriving DecidableEq, Repr, Inhabited

/-! ## The word array (R76 to R115, R141 to R169) -/

/-- The four flags of a bank (R127). -/
structure CFlags where
  z : Bool
  n : Bool
  c : Bool
  sat : Bool
deriving DecidableEq, Repr, Inhabited

/-- What a pipeline stage after F still has to write, with its target (R137): D registers, accumulators, flags,
output registers (with the predicate flag that last_mode 2 samples, R108) and store bytes.  Bytes carry their parity in bit 8. -/
inductive CellWrite where
  | dreg (k : Nat) (v : BitVec 9)
  | acc (k : Nat) (v : BitVec 36)
  | flags (k : Nat) (f : CFlags)
  | out (k : Nat) (v : BitVec 9) (c : Bool)
  | store (k : Nat) (v : BitVec 9)
deriving DecidableEq, Repr

/-- A write of the X or W stage that lands at the end of word-array cycle `due` of die `die`. -/
structure Pend where
  due : Nat
  die : Nat
  w : CellWrite
deriving DecidableEq, Repr

/-- The lead fields a tile latches (R144, R145). -/
structure Lead where
  tick : Nat
  mpol : Bool
  preFab : Bool
  preBell : Bool
  urg : Nat
deriving DecidableEq, Repr, Inhabited

/-- A mould held in the tile's registers while it is current (R149): its slot and its 17 codewords after correction,
`none` where the codeword was uncorrectable (R147). Before any mould has become current the list is empty. -/
structure CurMould where
  slot : Nat
  words : List (Option (BitVec 64))
deriving DecidableEq, Repr, Inhabited

/-- Where a schedule stands: the entry, the slots it has still to issue, and its nopre and end bits (R150). -/
structure SeqPos where
  entry : Nat
  left : Nat
  nopre : Bool
  last : Bool
deriving DecidableEq, Repr, Inhabited

/-- Preemption state of a tile (R165). -/
inductive Urgent where
  | off | swap | run
deriving DecidableEq, Repr, Inhabited

/-- The sequencer of one tile. `running` says a pour is in progress, `pos` where its main schedule stands (`none`
once no slot is left), `endAt` the cycle in which the pour then ends (R153); `cur` the current mould; `urgent`, `upos`
the swap cycle and urgent schedule; `bank` the active bank; `evt` a recognised event that waits, `mayTake` that the
cycle just issued lets it be taken next, `guard` that no main slot has entered F since the last return (R168); `bell` a
doorbell written in the present cycle, `bellDue` one that this cycle recognises (R164); `ticksHeld` the ticks that fell in a
swap cycle or urgent schedule, as (count, previous tick plus 1, cycle) (R169); `logged` the codewords R562 remembers;
`scrub` the next codeword of R149, `scrubbed` that the present cycle's free read of mould memory is spent, `used` that the
tile's memory has been written, so that the scrub has something to find; `wb` the corrected codewords that wait for a free
cycle (R146); `busy` that the sequencer reads mould memory in this cycle (R149); `cut` that the clocks
stopped during its pour, which the next tick counts as a misrun (R60, R479); `slot` that a slot entered F in the present
cycle, so that the sequencer moves on at its end; `lastMain` the cycle of the last main slot; `wasBank` the bank active in the
cycle before, whose ACC0 the cascade output registered (R85); `commitAt` the count of the last fence commit plus 1 (R163). -/
structure TileSt where
  lead : Lead
  running : Bool
  pos : Option SeqPos
  endAt : Nat
  cur : CurMould
  urgent : Urgent
  upos : Option SeqPos
  bank : Bool
  evt : Bool
  mayTake : Bool
  guard : Bool
  bell : Bool
  bellDue : Bool
  ticksHeld : List (Nat × Nat × Nat)
  logged : List Nat
  scrub : Nat
  scrubbed : Bool
  used : Bool
  wb : List (Nat × BitVec 72)
  busy : Bool
  cut : Bool
  slot : Bool
  lastMain : Nat
  wasBank : Bool
  commitAt : Nat
deriving DecidableEq, Repr, Inhabited

/-- A cell-store access that waits for phase B (R114): the request, the tile, the cell and the byte address in its store. -/
structure StoreWait where
  req : Req
  tile : Nat
  cell : Nat
  addr : Nat
deriving DecidableEq, Repr

/-- A beat on an ingress spine: the cycle it left the port, and 16 lanes as (valid, byte with parity). -/
structure SpineBeat where
  port : Nat
  cycle : Nat
  lanes : List (Option (BitVec 9))
deriving DecidableEq, Repr

/-- A byte on an egress spine: the cycle it enters the port, its lane, the distance and tile it comes from, the byte
and the predicate flag of its cell (R106, R108). -/
structure SpineByte where
  port : Nat
  cycle : Nat
  lane : Nat
  dist : Nat
  tile : Nat
  v : BitVec 9
  c : Bool
deriving DecidableEq, Repr

/-- A stream port: the window cycle counter since its tick, whether the window is open, the beat held under
last_mode 1 (R108), whether a beat with last closed the window under last_mode 1 (R105), and pending writes to its
configuration (R110). -/
structure PortSt where
  since : Nat
  active : Bool
  closed : Bool
  held : Option Beat
  newCfg : Option Word32
  newWin : Option Word32
deriving DecidableEq, Repr, Inhabited

/-- The word array of one die. `cycle` counts word-array clock edges; the maps are keyed by die-local numbers: mould
codeword (tile*16+slot)*17+q, schedule and staging entry tile*32+i, cell tile*16+k, D register (cell*2+bank)*16+r,
accumulator and pointer (cell*2+bank)*2+a, flags cell*2+bank, store byte cell*512+a, output register cell*4+dir,
switch channel tile*32+h, express channel tile*8+2*dir+j.  `out`, `chan` and `expr` hold only what is readable in
the present cycle (R89, R92). `phB` names the cells whose phase B a fetched instruction of this cycle has read. -/
structure WaDie where
  cycle : Nat
  tiles : SMap TileSt
  mould : SMap (BitVec 72)
  sched : SMap (BitVec 39)
  stage : SMap (BitVec 39)
  dreg : SMap (BitVec 9)
  acc : SMap (BitVec 36)
  ptr : SMap (BitVec 10)
  flags : SMap CFlags
  store : SMap (BitVec 9)
  out : SMap (BitVec 9)
  chan : SMap (BitVec 9)
  expr : SMap (BitVec 9)
  pend : List Pend
  phB : List Nat
  spineIn : List SpineBeat
  spineOut : List SpineByte
  ports : SMap PortSt
  waits : List StoreWait
deriving DecidableEq, Repr, Inhabited

/-! ## Stream queues, DMA channels, risers and result slots (R170 to R205) -/

/-- A stream queue. `beats` are the stored beats, oldest first (for a riser queue, those in its head); `rptr` the place of
the oldest in the queue's block RAMs and `old` what the places that hold no beat last held, as 128 data bits below 16 parity bits
(R171); `rslot` the riser it uses since it was last enabled (R192); `commit` how
many of the stored beats (head, middle and tail together) are committed; `unseenR` the reads the write side does not
yet see and `unseenW` the beats the read side does not yet see (R173); `dropping` that the rest of a bad packet is
discarded (R178); `open_` that a packet is open; `flushing` steps 1 to 3 of R176. -/
structure QueueSt where
  beats : List Beat
  rptr : Nat
  old : SMap (BitVec 144)
  rslot : Option Nat
  commit : Nat
  unseenR : Nat
  unseenW : Nat
  dropping : Bool
  open_ : Bool
  flushing : Bool
deriving DecidableEq, Repr, Inhabited

/-- An engine request in flight: its tag and class, where it goes, whether it writes, the beats it carries or (for a read) the
beats its target returned, their number, and the target's answer, which the engine receives when the response arrives. -/
structure EngReq where
  tag : Nat
  cls : Fin 4
  addr : Nat
  write : Bool
  beats : List Beat
  count : Nat
  resp : Resp
deriving DecidableEq, Repr

/-- A stream DMA channel: its requests in flight, oldest first; the beats of the open packet it has still to pass
(`none`: the next beat is a header); the ring offset it has issued up to and the offset acknowledged so far (R188, R189). -/
structure DmaSt where
  flight : List EngReq
  pktLeft : Option Nat
  issued : Nat
  acked : Nat
deriving DecidableEq, Repr, Inhabited

/-- A riser (R192, R193): its tail, the last bits of the beats in its middle, the write and
read offsets in the spill region, its requests in flight, and whether its last flit was a spill (R196). The middle's data bytes
are in HBM. -/
structure RiserSt where
  spilled : Bool
  tail : List Beat
  mid : List Bool
  wptr : Nat
  rptr : Nat
  flight : List EngReq
deriving DecidableEq, Repr, Inhabited

/-- A result slot (R198): payload bytes 0 to 55, SEQ, VALID, OVERWRITTEN. -/
structure Slot where
  payload : List Byte
  seq : BitVec 32
  valid : Bool
  lost : Bool
deriving DecidableEq, Repr

/-- A publish held in the 64-entry table (R202). -/
structure HeldPub where
  slot : Nat
  req : Req
deriving DecidableEq, Repr

/-! ## Memory (R375 to R399) -/

/-- What a stored DRAM block has beside its 64 data bytes: the code it was written under (R380, R382), its poison
marker (R385), the difference between the stored check bits and those of its data, and the bytes whose stored
parity fails. -/
structure BlockMeta where
  byParity : Bool
  poison : Bool
  delta : BitVec 128
  badPar : BitVec 64
deriving DecidableEq, Repr, Inhabited

/-- A block that a row repair has copied to its buffer: its number, and its data and descriptor before and after (R397). -/
structure RepairBlock where
  block : Nat
  data0 : List (BitVec 8)
  meta0 : BlockMeta
  data1 : List (BitVec 8)
  meta1 : BlockMeta
deriving DecidableEq, Repr

/-- A row repair in progress (R397): hard or soft, the location word, the requests for the row that were queued when it began,
whether the row has been copied, the buffer. -/
structure Repair where
  hard : Bool
  loc : BitVec 64
  before : List Req
  copied : Bool
  blocks : List RepairBlock
deriving DecidableEq, Repr

/-- An open row (R390): the bank (location word with row 0), the row, the page hint that governs it, and the count of its last
access. -/
structure OpenRow where
  bank : Nat
  row : Nat
  hint : Nat
  last : Nat
deriving DecidableEq, Repr

/-- A request that waits at a memory unit, the count at which it came, and whether it is a write that has been answered since it is in
the unit's queue (R388, R389). -/
structure HeldReq where
  req : Req
  since : Nat
  answered : Bool
deriving DecidableEq, Repr

/-- The DRAM behind both controllers: data bytes by physical address, block descriptors by block number, corrected
blocks that wait to be written back (R386), units whose failure has been logged (R379), the repair in progress on
each memory, soft repairs in force, open rows, powered-down ranks or PCs, the count of the last command to each (R391), whether the catch-up refresh of R58 runs, the
ranks and PCs in a retrain slice (R395), the requests that wait in a unit's queue or in the network for credit (R388, R393),
oldest first, the last 63 commands of each channel and PC, newest first, by whether they served a request under PANIC (R370), the
next block of each patrol scrub by channel (0 to 3) and stack (4, 5) (R386), and
the commands of DDR_PCMD and ENC_SCMD in progress (busy), operation and address, and that of ECC_RTCMD, requester and operation. -/
structure Dram where
  bytes : SMap (BitVec 8)
  bmeta : SMap BlockMeta
  wback : List (Nat × List (BitVec 8))
  failLogged : List Nat
  repair : Option Repair
  repairHbm : Option Repair
  soft : List (BitVec 64)
  openRows : List OpenRow
  pdown : List Nat
  lastCmd : SMap Nat
  catchUp : Bool
  slice : List Nat
  held : List HeldReq
  served : SMap (List Bool)
  patrol : SMap Nat
  pcmd : Option (Nat × Nat)
  scmd : Option (Nat × Nat)
  rtcmd : Option (Nat × Nat)
deriving DecidableEq, Repr, Inhabited

/-! ## Sector encryption (R400 to R421) -/

/-- A key set: XTS key 1, XTS key 2, tag key (R403). -/
structure KeySet where
  k1 : BitVec 256
  k2 : BitVec 256
  tagKey : BitVec 256
deriving DecidableEq, Repr

/-- A sector-cache line (R412): region, sector, plaintext, dirty, convert-first (R419). -/
structure CLine where
  region : Nat
  sector : Nat
  data : BitVec 4096
  dirty : Bool
  convert : Bool
deriving DecidableEq, Repr

/-- A heal line (R414): region, sector, bytes written so far, their mask, the writes held without a response. -/
structure HealLine where
  region : Nat
  sector : Nat
  data : BitVec 4096
  mask : BitVec 512
  held : List Req
deriving DecidableEq, Repr

/-- A region: its key slots, tree key, highest counter hc (R404), the write counters of its sectors (an unlisted
sector has counter 0), and the numbers of the metadata blocks that hold something other than what the engines wrote
there (R428): their bytes are then those of the DRAM, and every other counter block and inner node holds what the
counters give (R405). -/
structure EncRegion where
  cur : Option KeySet
  new : Option KeySet
  treeKey : BitVec 256
  hc : Nat
  ctr : SMap Nat
  rawMeta : List Nat
deriving DecidableEq, Repr, Inhabited

/-- A tree node: region, level, index within its level (R405). -/
structure Node where
  region : Nat
  level : Nat
  index : Nat
deriving DecidableEq, Repr

/-- One encryption engine: its sector cache and node cache, most recently used first, open heal lines, lost list (R416). -/
structure EncEngine where
  lines : List CLine
  heal : List HealLine
  nodes : List Node
  lost : List Node
deriving DecidableEq, Repr, Inhabited

/-! ## The network on chip (R353 to R374) -/

/-- A tag in use (R362, R363): the injection stamp, the timebase of the injection on the master's die, the timeout that
applies to it in microseconds, whether it is a write, its class, and whether it timed out and is held out of use. -/
structure TagSt where
  stamp : Nat
  start : Nat
  tmo : Nat
  write : Bool
  cls : Nat
  out : Bool
deriving DecidableEq, Repr

/-- A flit that waits at a router output (R368): the flit, the cycles it has waited for credit, and the link direction whose
receive buffer it still holds (R279). -/
structure WaitFlit where
  flit : RouterFlit
  waited : Nat
  link : Option Nat
deriving DecidableEq, Repr, Inhabited

/-- The arbitration of a router output (R368): for the last cycles, newest first, whether each served real-time while other
classes waited; the input served last, by class; that bulk was served after coherent last. -/
structure ArbSt where
  hist : List Bool
  last : SMap Nat
  bulk : Bool
deriving DecidableEq, Repr, Inhabited

/-- The NoC outside its registers: tags by 1024 * master + tag; the flits that wait at each output and the outputs' arbitration, by
8 * router + port, oldest first; trace buffers by router (entries of 32 bytes, oldest
first), whether endpoints hold injection for a route change, the requests that wait at their endpoints until injection goes on
(R356, R372), oldest first, and the die-to-die edges the routes in use count as
lost (none: every edge works). -/
structure NocSt where
  tags : SMap TagSt
  waiting : SMap (List WaitFlit)
  arb : SMap ArbSt
  traces : SMap (List (List (BitVec 8)))
  drain : Bool
  held : List Req
  lostEdges : List Nat
deriving DecidableEq, Repr, Inhabited

/-! ## Crossings between dies (R256 to R282) -/

/-- One byte lane of a bridge group: 0 registered, 1 direct, 2 unused (R263); the global network that is its group clock
(R264); the safe value of each of its 8 crossings:
0, 1, or 2 for hold-last (R275). -/
structure LaneCfg where
  kind : Nat
  net : Nat
  safe : List Nat
deriving DecidableEq, Repr, Inhabited

/-- A hold of a failed wire (R273): the wire, whether the request has reached the sending end, the edge
counts K1 and K and the sparing tick it chose. -/
structure XHold where
  wire : Nat
  asked : Bool
  k1 : Nat
  k : Nat
  tau : Nat
deriving DecidableEq, Repr

/-- A held-out probe under its PRBS7 test (R272): the wire that disagreed with it, the edge count at which the test began, and
whether an error has shown. -/
structure XTest where
  wire : Nat
  at_ : Nat
  bad : Bool
deriving DecidableEq, Repr

/-- One group and direction (R264 to R275). `lanes` its byte lanes; `failedW` its failed wires and `repair` those of the OTP map;
`count` the group edge count and `turn` the 64-cycle turn of the probe's rotation that has been taken last; `test` the test of a held-out probe; `holds` the holds, oldest first; `sub` the wire whose signal is taken from the probe;
`fails` the recent parity failures as (lane, edge count); `open_` lanes with a failure no comparison has explained, with the turns
of the probe since; `tx` the transmit registers, `rx`, `xerr` what the receiving logic sees; `crcRun` successive CRC failures and
`shift` the sequence number of a shift to come (packet groups). -/
structure XGroup where
  lanes : List LaneCfg
  failedW : List Nat
  repair : List Nat
  count : Nat
  turn : Nat
  test : Option XTest
  holds : List XHold
  sub : Option Nat
  fails : List (Nat × Nat)
  open_ : List (Nat × Nat)
  tx : BitVec 128
  rx : BitVec 144
  xerr : BitVec 16
  xlost : Bool
  crcRun : Nat
  shift : Option Nat
deriving DecidableEq, Repr, Inhabited

/-- One link direction (R278 to R281), by 2 * edge + direction: the sequence number its receiver expects, the next its
sender uses, the replay buffer (sequence number and flit bits [671:0]), flits sent per virtual channel that no
credit has returned for; at the receiver, the flits that have come ahead of the expected one and the credits it owes by virtual
channel; and the groups used so far, for the rotation. -/
structure LinkSt where
  expect : Nat
  next : Nat
  replay : List (Nat × BitVec 672)
  used : SMap Nat
  early : List (Nat × BitVec 672)
  owed : SMap Nat
  turn : Nat
deriving DecidableEq, Repr, Inhabited

/-! ## Lanes and host link (R440 to R465) -/

/-- Where the bring-up of a lane stands (R449, R450, R453): off, pin check, adapting, locked in data mode, lock lost. -/
inductive LaneStage where
  | off | pins | adapt | data | lost
deriving DecidableEq, Repr, Inhabited

/-- A NoC transaction of a host TLP (R461): the request, its tag once issued, its answer once there. -/
structure HostPiece where
  req : Req
  tag : Option (Fin 1024)
  ans : Option (Resp × List Byte)
deriving DecidableEq, Repr

/-- A TLP the endpoint has received and not completed (R461): a write or a read, through BAR2 (master 59) or not, under a
translation with strict 1, its pieces in address order. -/
structure HostTlp where
  write : Bool
  bar2 : Bool
  strict : Bool
  pieces : List HostPiece
deriving DecidableEq, Repr

/-- What a lane's rx interface shows: rx_data, rx_valid, rx_err (R446). -/
structure LaneRx where
  data : BitVec 512
  valid : Bool
  err : Bool
deriving DecidableEq, Repr, Inhabited

/-- Lanes and the host link outside their registers: bring-up stages by lane, times of the uncorrectable codewords of the
last second by group (R453), the links, by first lane, whose last codeword was uncorrectable (R443), the lanes whose fb_req is 1 (R446), the rx interfaces, the words sent last, the last
levels of the precoders and of their inverses (R442), and the link partner's states: link L0, L1 or L2 (0, 1, 2), function in D3hot (R456), and the TLPs not yet completed, oldest first. -/
structure LaneSt where
  stage : SMap LaneStage
  fecBad : SMap (List Nat)
  fecErr : List Nat
  fbReq : List Nat
  rx : SMap LaneRx
  sent : SMap (BitVec 512)
  txLast : SMap Nat
  rxLast : SMap Nat
  linkState : Nat
  d3hot : Bool
  tlps : List HostTlp
deriving DecidableEq, Repr, Inhabited

/-! ## Fabric, block RAM, MAC24, flasks and fettler (R206 to R255, R311 to R329) -/

/-- A global clock network (R224): its source and its enable, whether a source outside the device's own clocks (a pin, fabric
logic) toggles, and the change of source and enable that waits until both sources run. -/
structure GclkSt where
  src : Option ClockSource
  en : Bool
  ext : Bool
  want : Option (ClockSource × Bool × Bool)
deriving DecidableEq, Repr, Inhabited

/-- What a block RAM port shows: 8 bytes with ninth bits in [71:64], and its error outputs (R236, R240, R241). -/
structure BramOut where
  data : BitVec 72
  perr : BitVec 8
  sbit : Bool
  dbit : Bool
deriving DecidableEq, Repr, Inhabited

/-- A block RAM port: the read data as last read, and its output register (R236). -/
structure BramPort where
  rd : BramOut
  out : BramOut
deriving DecidableEq, Repr, Inhabited

/-- What a block RAM port did at its last edge of the present instant (R238, R239): the physical word it accessed, whether it
read, the bytes of the word it wrote and their values. -/
structure BramAccess where
  word : Nat
  read : Bool
  wrote : BitVec 8
  data : BitVec 72
deriving DecidableEq, Repr, Inhabited

/-- The scrub of a block RAM: its word, and whether the word's error has been counted in this pass (R244). -/
structure ScrubSt where
  pos : Nat
  counted : Bool
deriving DecidableEq, Repr, Inhabited

/-- The A and D inputs of a MAC24 with the controls that travel with them (R250). -/
structure MacAd where
  a : BitVec 24
  d : BitVec 24
  presel : BitVec 2
  zsel : BitVec 3
  sub : Bool
deriving DecidableEq, Repr, Inhabited

/-- The registers of a MAC24 block: point I of its three paths, point K of two, points E, M and Q (P and ovf). -/
structure MacSt where
  iAd : MacAd
  iB : BitVec 18
  iC : BitVec 56
  kAd : List MacAd
  kB : List (BitVec 18)
  e : MacAd
  eSat : Bool
  m : BitVec 42
  mCtl : MacAd
  p : BitVec 56
  ovf : Bool
deriving DecidableEq, Repr, Inhabited

/-- A repair request of a fettler: signature rebuild or frame mismatch, the chunk and the frame (R326). -/
structure FtlReq where
  rebuild : Bool
  chunk : Nat
  frame : Nat
deriving DecidableEq, Repr

/-- A capture that waits for its edge: flask, network, time (R320). -/
structure CaptureCmd where
  flask : Nat
  net : Nat
  t : Nat
deriving DecidableEq, Repr

/-- The registered signals of the fabric at one instant: what every edge of that instant sees (R221, R238, R264). -/
structure FabView where
  ffs : SMap Bool
  bram : SMap (BitVec 72)
  bramPorts : SMap BramPort
  mac : SMap MacSt
  xg : SMap XGroup
deriving DecidableEq, Repr, Inhabited

/-- The fabric of the four dies. Keys: frames and signatures 49152 * die + frame; clusters 131072 * die + cluster;
flip-flops 64 * cluster key + 2 * cell + (0 FFA, 1 FFB); block RAMs 2560 * die + block, ports 2 * that + (0 A, 1 B),
words 1024 * that + word; MAC24 blocks 6144 * die + block; networks 32 * die + g.  An unlisted flip-flop holds its
init, an unlisted block RAM word its initial contents, an unlisted network the source its image selects.  `gsrOff` and `gwe` are
the dies whose global set/reset is
released and whose global write enable is 1; `flaskHeld`, `flaskOff` the flasks whose flip-flops are held at init and
whose write enable is 0 (R316); `view` the registered signals at the present instant and `touched` what block RAM ports (2 *
block key + port) did in it (R238, R239); `isoHeld` the values that isolation cells set to hold-last keep, segments 112 * cluster
key + number, transmit inputs 2 ^ 26 + 128 * (2 * group + direction) + index (R315, R316); `pllOff` the legacy
FPLLs (8 * die + i) that stopped with their pin clock; `badFrame` the frame of each die that failed its check last (R350); `requests` the fettler queues; `skip` the frames that are not
queued again; `at_` the next frame of each scan and `since` the count at which its pass began; `digests` the chunk digest store and `owners` the image of each of its entries (image number,
chunk); `encDies` the dies whose die-global frames came from an encrypted image. -/
structure FabSt where
  frames : SMap (List (BitVec 8))
  sigs : SMap (BitVec 53)
  ffs : SMap Bool
  capt : SMap Bool
  view : Option FabView
  touched : SMap BramAccess
  isoHeld : SMap Bool
  badFrame : SMap Nat
  gsrOff : List Nat
  gwe : List Nat
  flaskHeld : List Nat
  flaskOff : List Nat
  gclk : SMap GclkSt
  pllOff : List Nat
  bram : SMap (BitVec 72)
  bramPorts : SMap BramPort
  scrubs : SMap ScrubSt
  mac : SMap MacSt
  capture : Option CaptureCmd
  requests : SMap (List FtlReq)
  skip : List Nat
  at_ : SMap Nat
  since : SMap Nat
  digests : SMap (BitVec 72)
  owners : SMap (Nat × Nat)
  encDies : List Nat
deriving DecidableEq, Repr, Inhabited

/-! ## Loads (R283 to R310) -/

/-- Where a load stands. -/
inductive LoadStage where
  | idle | header | write | follower | training | trained | startup | clearing
deriving DecidableEq, Repr, Inhabited

/-- The loader: stage; source (1 pattern, 2 master, 3 host, 4 memory), pattern number, flash or memory address of the
image; the header in force and, while its follower loads, the native header; the chunk digests, the next chunk, the
unread records of the chunk in hand; what the load set has received so far (frames and die ends by die, edges, pin
table) and the dies it has written; the deadline; the bytes of the host stream that wait, and the
writes to BAR4 whose credits are withheld (R300); the phase to return to; that
the failed load falls back to the master pattern after clearing; count of step 0, the start-up events done (bits gsr,
ioen, gwe, done) and those of the legacy die, their counts, and that die (0: none); the digests of the headers in force (0 to 3 native by die, 8 + d Tarod,
16 + f flask partial), and those of the headers accepted last for each place (R287); the crossing tables by edge and the pin table in force; the flash directory;
the source before the load; the queues that the image enables at the gwe step; the lanes lost since power-on or warm
restart as (group, direction, lane), and the payload positions that a load has moved crossings to: 128 * (2 * group + direction) +
index of a crossing gives 128 * group + index (R276). -/
structure LoadSt where
  stage : LoadStage
  src : Nat
  pattern : Nat
  base : Nat
  hdr : List Byte
  native : List Byte
  table : List (BitVec 256)
  chunk : Nat
  rest : List Byte
  inChunk : Bool
  frames : SMap Nat
  dieEnds : List Nat
  edges : List Nat
  gotPins : Bool
  wrote : Bool
  wroteDies : List Nat
  deadline : Nat
  staging : List Byte
  bar4 : List (Nat × List Byte)
  prevPhase : Nat
  fallBack : Bool
  step0 : Nat
  events : BitVec 4
  legacy : BitVec 4
  legacySteps : List Nat
  tarod : Nat
  images : SMap (BitVec 256)
  accepted : SMap (BitVec 256)
  tables : SMap (List Byte)
  pinTable : List Byte
  flash : FlashDir
  prevSource : Nat
  enable : List Nat
  lost : List (Nat × Nat × Nat)
  moved : SMap Nat
deriving DecidableEq, Repr, Inhabited

/-! ## Power, mailboxes, update, cores and debug (R466 to R540) -/

/-- A sequencer step: raising or lowering, its domains, whether frequencies change (R474). -/
structure SeqStep where
  raising : Bool
  doms : List Nat
  freq : Bool
deriving DecidableEq, Repr

/-- Power: the steps planned and where the present one stands (0 none, 1 rails rising before T, 2 rails falling after
T), the counts of the plan and of the last clearing of busy; the governor's runs of windows below and above, its cap
misses, the TICK0 ticks of the window in progress, that a window has ended and its average is still to be judged (R476), the
groups of domains it has lowered (last first); the mode requested and where entry stands (0 none, 1 waits for the
tick, 2 drains tags), a wake source that came during entry; whether masters have stopped issuing; the sites whose warning has been
given (R486); whether the MC runs, is halted by a debugger; its SRAM. -/
structure PwrSt where
  plan : List SeqStep
  stage : Nat
  planAt : Nat
  clearedAt : Nat
  below : Nat
  above : Nat
  misses : Nat
  winTicks : Nat
  winOver : Bool
  lowered : List (List Nat)
  request : Nat
  entry : Nat
  wakeAfter : Nat
  stopIssue : Bool
  warned : List Nat
  mcRuns : Bool
  mcHalted : Bool
  sram : SMap (BitVec 39)
deriving DecidableEq, Repr, Inhabited

/-- A mailbox channel outside its registers: the count at which its message times out plus 1 (0: none), and that its
owner was reset in state 3 (R565), and that its host vector waits for the data link layer (R494). -/
structure MbxSt where
  due : Nat
  orphan : Bool
  owed : Bool
deriving DecidableEq, Repr, Inhabited

/-- Firmware update: the current commit record, the copy (0 or 1) it lies in and the record in the other copy; the staged manifest, its changed
types; the trial time left in ns; the slot of the lane firmware each lane runs and that of the training firmware in use;
the device nonce valid for one owner request; the board record; the directory entries and board record staged. -/
structure UpdSt where
  commit : Option Commit
  copy : Nat
  other : Option Commit
  staged : List Byte
  changed : List Nat
  trialLeft : Nat
  laneFw : SMap Nat
  trainFw : Nat
  nonce : Option (BitVec 256)
  board : List Byte
  newDir : List Byte
  newBoard : List Byte
deriving DecidableEq, Repr, Inhabited

/-- A control core outside its registers: its reservation (a 64-byte block), the watchdog time left in ns, the debugger's
halt-on-reset request, a halt request that waits, and where its boot stands since its last reset: 0 not loaded, 1 loaded while
DBG_CFG.hold keeps it in reset (R537), 2 failed. -/
structure CoreSt where
  resv : Option Nat
  wdtLeft : Nat
  resetHalt : Bool
  haltReq : Bool
  boot : Nat
deriving DecidableEq, Repr, Inhabited

/-- An L2 line: 64 bytes and dirty. -/
structure L2Line where
  data : BitVec 512
  dirty : Bool
deriving DecidableEq, Repr

/-- Debug and TAP: hart registers (65536 * hart + abstract register number), debug-module registers, trigger masks
(ytmask, 8 * core + trigger), the TAP instruction, the boundary register as latched, the pins it drives (0 none,
1 EXTEST, 2 pulse, 3 train, 4 clamp, 5 high impedance), and an unlock check in progress with its request. -/
structure DbgSt where
  hregs : SMap (BitVec 64)
  dm : SMap Word32
  ir : BitVec 8
  bsr : List Bool
  bsMode : Nat
  unlock : Option (List Byte)
  sberror : Nat
deriving DecidableEq, Repr, Inhabited

/-! ## Log (R432 to R438) -/

/-- A log entry (R432): stamp, site, unit kind, unit index, event, severity, payload bytes 13 to 31. -/
structure LogEntry where
  stamp : BitVec 64
  site : Nat
  kind : Nat
  index : Nat
  event : Nat
  sev : Nat
  payload : List Byte
deriving DecidableEq, Repr

/-- The log outside its registers: entries awaiting the ring in order of arrival, the ring as SEC-DED codewords
(4 * slot + codeword), the timebase of the last snapshot, the TICK0 ticks since, the flash log area as
(sequence number, record). -/
structure LogSt where
  queue : List LogEntry
  ring : SMap (BitVec 72)
  lastSnap : Nat
  snapTicks : Nat
  flash : List (Nat × List Byte)
deriving DecidableEq, Repr, Inhabited

/-- What leaves the block: a response to an access, a response to a NoC request, a request a master has injected, a request delivered to the user logic of a die, an MSI-X message, bytes on the
SMBus, a TAP data register, a lane frame, a completion for the host, a report written by MC firmware, a pin pulsed low for a
time in ns, the levels of a lane word. -/
inductive Output where
  | resp (src : Src) (code : Resp) (data : List Byte)
  | flit (r : Req) (code : Resp) (data : List Byte) (bad : List Nat)
  | req (r : Req) (hdrBad : Bool)
  | msix (vector : Nat)
  | user (die : Nat) (r : Req)
  | beat (die queue : Nat) (b : Beat) (perr : Bool)
  | bytes (what : String) (data : List Byte)
  | pulse (pin : String) (ns : Nat)
  | symbols (lane : Nat) (levels : List Nat)
deriving DecidableEq, Repr

/-- A register write that waits for its clock (R19): the address, the word, who wrote it. -/
structure WaitingWrite where
  addr : Nat
  word : Word32
  src : Src
deriving DecidableEq, Repr

/-! ## The whole machine -/

/-- The state of the block; `riserLast` is the riser that the riser engine served last (R196). -/
structure State where
  regs : SMap Word32
  clk : ClkSt
  pins : PinSt
  tb : TbSt
  wa : SMap WaDie
  queues : SMap QueueSt
  dma : SMap DmaSt
  risers : SMap RiserSt
  riserLast : Nat
  slots : SMap Slot
  heldPubs : List HeldPub
  dram : Dram
  noc : NocSt
  xg : SMap XGroup
  links : SMap LinkSt
  lanes : LaneSt
  encR : SMap EncRegion
  encE : SMap EncEngine
  log : LogSt
  fab : FabSt
  load : LoadSt
  otp : Otp
  pwr : PwrSt
  mbx : SMap MbxSt
  upd : UpdSt
  cores : SMap CoreSt
  l2 : SMap L2Line
  dbg : DbgSt
  plic : BitVec 512
  plicBusy : BitVec 512
  deferred : List WaitingWrite
  free : Nat
  outbox : List Output
  pending : List Instr
deriving DecidableEq, Repr, Inhabited

/-- The block as it stands before power is good: held off (R542), every register at its reset value, every store
empty, no command waiting. -/
def State.reset : State :=
  { (default : State) with tb := { (default : TbSt) with offs := [] } }

/-- What a meaning answers. -/
abbrev Out := Host.Outcome State Fault Refusal

end Sys2Proof.Machine
end

