-- ==== Sys2Proof/Machine/Ops.lean ====
section
/-!
DEFINITION. Sys2Proof/Machine/Ops.lean: the named operations every meaning is written with: sparse stores, registers
and their fields, response codes and requesters, parity and error codes, the timebase, leaky buckets, the log's entry
queue, interrupts, and the responses that leave the block.
-/

namespace Sys2Proof

/-! ## Sparse stores -/

/-- The value listed at a key. -/
def SMap.find? {α : Type} : SMap α → Nat → Option α
  | [], _ => none
  | (a, v) :: t, k => if a = k then some v else SMap.find? t k

/-- The value at a key; `d` is what an unlisted key reads as. -/
def SMap.get {α : Type} (d : α) (m : SMap α) (k : Nat) : α := (SMap.find? m k).getD d

/-- Remove a key. -/
def SMap.erase {α : Type} (m : SMap α) (k : Nat) : SMap α := List.filter (fun e => e.1 != k) m

/-- Put a value at a key, keeping the keys rising. -/
def SMap.insert {α : Type} : SMap α → Nat → α → SMap α
  | [], k, v => [(k, v)]
  | (a, w) :: t, k, v =>
    if k < a then (k, v) :: (a, w) :: t
    else if a = k then (k, v) :: t
    else (a, w) :: SMap.insert t k v

/-- Write a key: the value an unlisted key reads as removes the entry, so equal stores are equal lists. -/
def SMap.set {α : Type} [DecidableEq α] (d : α) (m : SMap α) (k : Nat) (v : α) : SMap α :=
  if v = d then SMap.erase m k else SMap.insert m k v

/-- Return every key that `p` names to what an unlisted key reads as. -/
def SMap.clear {α : Type} (m : SMap α) (p : Nat → Bool) : SMap α := List.filter (fun e => !p e.1) m

/-- The canonical form: keys strictly rising, no entry equal to what an unlisted key reads as. -/
def SMap.wf {α : Type} [DecidableEq α] (d : α) : SMap α → Bool
  | [] => true
  | (_, v) :: [] => decide (v ≠ d)
  | (a, v) :: (b, w) :: t => decide (v ≠ d) && decide (a < b) && SMap.wf d ((b, w) :: t)

/-! ## Bytes and parity -/

/-- The low `n` bytes of a number, least significant first (R23). -/
def leBytes : Nat → Nat → List Byte
  | 0, _ => []
  | n + 1, v => BitVec.ofNat 8 v :: leBytes n (v / 256)

/-- The number a list of bytes spells, least significant first. -/
def leNat : List Byte → Nat
  | [] => 0
  | b :: t => b.toNat + 256 * leNat t

/-- The number of ones among the low `n` bits. -/
def ones : Nat → Nat → Nat
  | 0, _ => 0
  | n + 1, v => v % 2 + ones n (v / 2)

/-- The parity bit that makes the count of ones odd (R87). -/
def oddPar (w v : Nat) : Nat := (1 + ones w v) % 2

/-- A byte with freshly generated odd parity in bit 8 (R87, R88). -/
def mkByte (v : Nat) : BitVec 9 := BitVec.ofNat 9 (v % 256 + 256 * oddPar 8 (v % 256))

/-- Whether a byte and its parity bit hold an odd number of ones (R87). -/
def byteOk (b : BitVec 9) : Bool := ones 9 b.toNat % 2 == 1

/-- A 9-bit pointer with freshly generated parity in bit 9 (R87). -/
def mkPtr (v : Nat) : BitVec 10 := BitVec.ofNat 10 (v % 512 + 512 * oddPar 9 (v % 512))

/-- Whether a pointer passes its parity check. -/
def ptrOk (p : BitVec 10) : Bool := ones 10 p.toNat % 2 == 1

/-- Four bytes with their parity bits in bits [35:32], one per byte. -/
def mkAcc (v : Nat) : BitVec 36 :=
  BitVec.ofNat 36 (v % 2 ^ 32 +
    2 ^ 32 * (oddPar 8 (bitsOf v 7 0) + 2 * oddPar 8 (bitsOf v 15 8) + 4 * oddPar 8 (bitsOf v 23 16)
      + 8 * oddPar 8 (bitsOf v 31 24)))

/-- The bytes of an accumulator that fail their parity checks. -/
def accBad (a : BitVec 36) : List Nat :=
  (List.range 4).filter (fun i => ones 9 (bitsOf a.toNat (8 * i + 7) (8 * i) + 256 * bitsOf a.toNat (32 + i) (32 + i)) % 2 == 0)

/-- Whether every byte of an accumulator passes its parity check. -/
def accOk (a : BitVec 36) : Bool :=
  mkAcc (a.toNat % 2 ^ 32) == a

/-- The parity bits of 16 bytes, bit i for byte i. -/
def parOf16 (d : BitVec 128) : BitVec 16 :=
  BitVec.ofNat 16 ((List.range 16).foldl (fun acc i => acc + 2 ^ i * oddPar 8 (bitsOf d.toNat (8 * i + 7) (8 * i))) 0)

/-! ## SEC-DED codes (R564) and CRC-32 -/

/-- The columns of the code with `r` check bits for `n` data bits: values of weight 3, then of weight 5. -/
def secCols (r n : Nat) : List Nat :=
  (((List.range (2 ^ r)).filter (fun v => ones r v == 3)) ++
   ((List.range (2 ^ r)).filter (fun v => ones r v == 5))).take n

/-- The exclusive OR of the columns of the data bits that are 1. -/
def secFold : List Nat → Nat → Nat
  | [], _ => 0
  | h :: t, d => (if d % 2 = 1 then h else 0) ^^^ secFold t (d / 2)

/-- The check bits of `n` data bits. -/
def secCheck (r n d : Nat) : Nat := secFold (secCols r n) d

/-- What a read makes of a codeword. -/
inductive SecRead where
  | clean (d : Nat)
  | fixed (d : Nat)
  | bad (d : Nat)
deriving DecidableEq, Repr

/-- Read a codeword of `n` data bits and `r` check bits (R564). -/
def secRead (r n d chk : Nat) : SecRead :=
  let syn := secCheck r n d ^^^ chk
  if syn = 0 then .clean d
  else if ones r syn = 1 then .fixed d
  else match (secCols r n).findIdx? (· == syn) with
    | some j => .fixed (d ^^^ 2 ^ j)
    | none => .bad d

/-- The data a codeword read delivers. -/
def SecRead.data : SecRead → Nat
  | .clean d => d
  | .fixed d => d
  | .bad d => d

/-- A (72,64) codeword: data in bits [63:0], check bits in [71:64]. -/
def enc72 (d : Nat) : BitVec 72 := BitVec.ofNat 72 (d % 2 ^ 64 + 2 ^ 64 * secCheck 8 64 (d % 2 ^ 64))

/-- Read a (72,64) codeword. -/
def dec72 (w : BitVec 72) : SecRead := secRead 8 64 (w.toNat % 2 ^ 64) (w.toNat / 2 ^ 64)

/-- A (39,32) codeword: data in bits [31:0], check bits in [38:32]. -/
def enc39 (d : Nat) : BitVec 39 := BitVec.ofNat 39 (d % 2 ^ 32 + 2 ^ 32 * secCheck 7 32 (d % 2 ^ 32))

/-- Read a (39,32) codeword. -/
def dec39 (w : BitVec 39) : SecRead := secRead 7 32 (w.toNat % 2 ^ 32) (w.toNat / 2 ^ 32)

/-- A (53,46) codeword: data in bits [45:0], check bits in [52:46]. -/
def enc53 (d : Nat) : BitVec 53 := BitVec.ofNat 53 (d % 2 ^ 46 + 2 ^ 46 * secCheck 7 46 (d % 2 ^ 46))

/-- Read a (53,46) codeword. -/
def dec53 (w : BitVec 53) : SecRead := secRead 7 46 (w.toNat % 2 ^ 46) (w.toNat / 2 ^ 46)

/-- One bit of the reflected CRC-32 (IEEE 802.3, R278). -/
def crcBit (c : Nat) : Nat := if c % 2 = 1 then (c / 2) ^^^ 0xEDB88320 else c / 2

/-- CRC-32 of a byte string (IEEE 802.3 polynomial, reflected, initial and final value all ones). -/
def crc32 (bs : List Byte) : BitVec 32 :=
  BitVec.ofNat 32 ((bs.foldl (fun c b =>
    crcBit (crcBit (crcBit (crcBit (crcBit (crcBit (crcBit (crcBit (c ^^^ b.toNat))))))))) 0xFFFFFFFF) ^^^ 0xFFFFFFFF)

/-! ## Requesters and response codes -/

/-- The requester number of R362. -/
def Src.requester (q : Src) : Nat :=
  let m := q.master.val
  if m < 48 then 6 + m / 12
  else if m < 56 then 6 + (m - 48) / 2
  else if m < 58 then 2 + q.core.val
  else if m < 60 then 1
  else if m = 60 then 10
  else if m = 61 then 11
  else 0

/-- The number of a response code (R365). -/
def Resp.code : Resp → Nat
  | .ok => 0
  | .derr => 1
  | .perr => 2
  | .serr => 3
  | .aerr => 4
  | .terr => 5
  | .retry => 6

/-- Whether a read carries the peek attribute: only master 61 can set it (R359). -/
def Src.peeks (q : Src) : Bool := q.peek && q.master.val == 61

/-- Whether the bytes of a beat pass their parity check. -/
def Beat.parOk (b : Beat) : Bool := parOf16 b.data == b.par

/-- Lane i of a beat with its parity bit. -/
def Beat.lane (b : Beat) (i : Nat) : BitVec 9 :=
  BitVec.ofNat 9 (bitsOf b.data.toNat (8 * i + 7) (8 * i) + 256 * b2n (b.par.getLsbD i))

namespace Machine

/-! ## Registers -/

/-- Bits [hi:lo] of a register word. -/
def wordField (w : Word32) (hi lo : Nat) : Nat := bitsOf w.toNat hi lo

/-- The mask of bits [hi:lo]. -/
def fieldMask (hi lo : Nat) : Word32 := BitVec.ofNat 32 ((2 ^ (hi + 1 - lo) - 1) <<< lo)

/-- A register word with bits [hi:lo] replaced by the low bits of `v`. -/
def setWordField (w : Word32) (hi lo v : Nat) : Word32 :=
  (w &&& ~~~(fieldMask hi lo)) ||| (BitVec.ofNat 32 (v <<< lo) &&& fieldMask hi lo)

/-- The field of a word. -/
def Fld.of (f : Fld) (w : Word32) : Nat := wordField w f.hi f.lo

/-- A word with the field replaced. -/
def Fld.put (f : Fld) (w : Word32) (v : Nat) : Word32 := setWordField w f.hi f.lo v

/-- The byte address of a copy of a register (R24, R27). -/
def strideSum : List (Nat × Nat) → List Nat → Nat
  | (st, _) :: t, i :: r => st * i + strideSum t r
  | _, _ => 0

/-- The 48-bit address of register `n` at indices `idx`. -/
def regAddr (n : RegName) (idx : List Nat) : Nat := n.desc.base + strideSum n.desc.strides idx

/-- The reset values of CLK_GATEd (R61): bit 2 deep, bit 1 sleep, bit 0 run. -/
def clkGateReset (d : Nat) : Nat :=
  if d ≤ 2 then 7 else if d = 3 then 7
  else if d = 4 ∨ d = 5 ∨ d = 9 then 1
  else if d = 6 ∨ d = 7 ∨ d = 8 ∨ d = 10 ∨ d = 11 then 3
  else if d < 20 then 1 else 3

/-- The reset value a register's fields give. -/
def fieldsReset (fs : List Fld) : Word32 := fs.foldl (fun w f => f.put w f.rst) 0#32

/-- The value a register returns to at its reset (R18).  DIE_ID carries the fused type and site (R33) and feature
level 1 (R34); the other fused fields are the model's (log entry 3). -/
def resetWord (n : RegName) (idx : List Nat) : Word32 :=
  match n, idx with
  | .clkGate, [d] => BitVec.ofNat 32 (clkGateReset d)
  | .tbTickCtrl, [0] => 0x80000000#32
  | .mbxCfg, [c] => F.mbxCfg_rcv.put (fieldsReset n.desc.fields) (if c < 16 then 10 else 1)
  | .mbxStat, [c] => F.mbxStat_rcv.put (fieldsReset n.desc.fields) (if c < 16 then 10 else 1)
  | .dieId, [i] => BitVec.ofNat 32 ((if i < 4 then 1 else if i = 8 then 2 else 3) * 2 ^ 28 + i * 2 ^ 24 + 2 ^ 20 + 0x100)
  | .glbFeature, _ => 0x00000101#32
  | .msixTable, [k] => if k % 4 = 3 then 1#32 else 0#32
  | _, _ => fieldsReset n.desc.fields

/-- A register's stored word. -/
def State.reg (s : State) (n : RegName) (idx : List Nat) : Word32 :=
  SMap.get (resetWord n idx) s.regs (regAddr n idx)

/-- Replace a register's stored word. -/
def State.setReg (s : State) (n : RegName) (idx : List Nat) (v : Word32) : State :=
  { s with regs := SMap.set (resetWord n idx) s.regs (regAddr n idx) v }

/-- A field of a register. -/
def State.get (s : State) (f : Fld) (idx : List Nat) : Nat := f.of (s.reg f.reg idx)

/-- Replace a field of a register. -/
def State.put (s : State) (f : Fld) (idx : List Nat) (v : Nat) : State :=
  s.setReg f.reg idx (f.put (s.reg f.reg idx) v)

/-- A one-bit field as a truth value. -/
def State.flag (s : State) (f : Fld) (idx : List Nat) : Bool := s.get f idx != 0

/-- Set a one-bit field. -/
def State.raise (s : State) (f : Fld) (idx : List Nat) : State := s.put f idx 1

/-- A 64-bit value held in a LO and a HI register. -/
def State.pair (s : State) (lo hi : RegName) (idx : List Nat) : Nat :=
  (s.reg lo idx).toNat + 2 ^ 32 * (s.reg hi idx).toNat

/-- Count one event in a field, saturating at its greatest value. -/
def State.countUp (s : State) (f : Fld) (idx : List Nat) : State :=
  s.put f idx (satInc (2 ^ f.width - 1) (s.get f idx))

/-- What a write stores, field by field, by access type (R16): RW stores, W1C clears, W1S sets, RO and WO and the
reserved bits keep what they hold. -/
def writeFields (fs : List Fld) (old v : Word32) : Word32 :=
  fs.foldl (fun w f =>
    match f.acc with
    | .rw => f.put w (f.of v)
    | .w1c => f.put w (Nat.land (f.of w) (Nat.xor (f.of v) (2 ^ f.width - 1)))
    | .w1s => f.put w (Nat.lor (f.of w) (f.of v))
    | .ro => w
    | .wo => w) old

/-- What a read returns, field by field (R16): WO and reserved bits read 0. -/
def readFields (fs : List Fld) (w : Word32) : Word32 :=
  fs.foldl (fun r f =>
    match f.acc with
    | .wo => r
    | _ => f.put r (f.of w)) 0#32

/-- Store a write to a register by its access types (R16). -/
def State.writeReg (s : State) (n : RegName) (idx : List Nat) (v : Word32) : State :=
  s.setReg n idx (writeFields n.desc.fields (s.reg n idx) v)

/-- The word a plain read of a register returns (R16). -/
def State.readReg (s : State) (n : RegName) (idx : List Nat) : Word32 :=
  readFields n.desc.fields (s.reg n idx)

/-- The indices of the copy of a register at an address, given the offset from its base: none where no copy lies there. -/
def findIdx : List (Nat × Nat) → Nat → Option (List Nat)
  | [], off => if off = 0 then some [] else none
  | (st, n) :: t, off =>
    let i := off / st
    if i < n then (findIdx t (off % st)).map (i :: ·) else none

/-- The register at an address, with its indices. -/
def lookupReg (a : Nat) : Option (RegName × List Nat) :=
  regTable.findSome? (fun e =>
    if e.2.base ≤ a then (findIdx e.2.strides (a - e.2.base)).map (fun i => (e.1, i)) else none)

/-- Return every register of the domains that `p` names to its reset value (R18). -/
def State.resetDomains (s : State) (p : Domain → Bool) : State :=
  { s with regs := s.regs.filter (fun e =>
      match lookupReg e.1 with
      | some (n, _) => !p n.desc.domain
      | none => true) }

/-- Return the registers `p` names, by name and indices, to their reset value. -/
def State.resetRegs (s : State) (p : RegName → List Nat → Bool) : State :=
  { s with regs := s.regs.filter (fun e =>
      match lookupReg e.1 with
      | some (n, i) => !p n i
      | none => true) }

/-! ## Responses -/

/-- A response or message leaves the block. -/
def State.emit (s : State) (o : Output) : State := { s with outbox := s.outbox ++ [o] }

/-- Answer a register access. -/
def State.answer (s : State) (q : Src) (code : Resp) : State := s.emit (.resp q code [])

/-- Answer a register read with its word. -/
def State.answerWord (s : State) (q : Src) (w : Word32) : State := s.emit (.resp q .ok (leBytes 4 w.toNat))

/-- Answer a NoC request; `bad` lists the bytes whose parity fails as delivered. -/
def State.respond (s : State) (r : Req) (code : Resp) (data : List Byte := []) (bad : List Nat := []) : State :=
  s.emit (.flit r code data bad)

/-- A fresh free value: the counter it is drawn with, advanced (log entry 10). -/
def State.draw (s : State) : Nat × State := (s.free, { s with free := s.free + 1 })

/-- Whether a requester may write a register (R365): the register's list of writers. -/
def mayWrite (n : RegName) (q : Src) : Bool :=
  match n.desc.writers with
  | none => true
  | some l => l.contains q.requester

/-- Whether a requester may read a register. -/
def mayRead (n : RegName) (q : Src) : Bool :=
  match n.desc.readers with
  | none => true
  | some l => l.contains q.requester

/-! ## Time and clocks -/

/-- The index of a site's timebase copy (R68): FD0 to FD3, hub, LD0, LD1. -/
def copyOf (site : Nat) : Nat := if site < 4 then site else if site = 8 then 4 else site - 5

/-- The count of the timebase copy of a die, by its site number (R66). -/
def State.now (s : State) (site : Nat) : Nat :=
  ((s.tb.count : Int) + SMap.get 0 s.tb.offs (copyOf site)).toNat % 2 ^ 64

/-- The power mode (R61): 0 run, 1 sleep, 2 deep sleep. -/
def State.mode (s : State) : Nat := s.get F.pwrStat_mode []

/-- Whether the PLLs clock the device: locked at start-up, running, or past step 3 of a hot resume (R53, R57, R58). -/
def State.clocked (s : State) : Bool :=
  s.clk.phase == .running || s.clk.phase == .locked || (s.clk.phase == .resuming && s.tb.running)

/-- Whether the enable bit of clock domain `d` for the present power mode is set (R61). -/
def State.gateOn (s : State) (d : Nat) : Bool :=
  match s.mode with
  | 0 => s.flag F.clkGate_run [d]
  | 1 => s.flag F.clkGate_sleep [d]
  | _ => s.flag F.clkGate_deep [d]

/-- Whether the clock of domain `d` runs: fabric and word-array clocks also stop on a trip (R482), and restart in step 6 of a
hot resume (R58). -/
def State.runs (s : State) (d : Nat) : Bool :=
  s.clocked && s.gateOn d && !(12 ≤ d && d < 20 && (s.flag F.pwrTrip_active [] || s.clk.phase == .resuming))

/-! ## Writes to registers and their clocks (R19) -/

/-- Whether a register clock stands in a powered device: the clocks of the hub and of the dies before the PLLs lock and in an
outage (R53, R57), that of the timebase until it starts, that of the NoC while its domain is stopped.  A stopped word-array
clock answers TERR instead (R80). -/
def State.standing (s : State) (c : ClockDom) : Bool :=
  s.clk.phase != .heldOff &&
    match c with
    | .hub => !s.clocked
    | .die => !s.clocked
    | .wa => false
    | .tb => !s.tb.running
    | .noc => !s.runs 5

/-- Whether a write to a register waits for the next edge of the register's clock: the clock stands, or writes of that clock
wait already (log entry 22). -/
def State.regWaits (s : State) (n : RegName) : Bool :=
  s.standing n.desc.clock ||
    s.deferred.any (fun e => match lookupReg e.addr with
      | some (m, _) => m.desc.clock == n.desc.clock
      | none => false)

/-- A write that waits. -/
def State.defer (s : State) (q : Src) (a : Nat) (w : Word32) : State := { s with deferred := s.deferred ++ [⟨a, w, q⟩] }

/-- A register write of `w` whose effect is `f`: it acts, or waits for the register's clock, and completes OK (R19). -/
def State.regAct (s : State) (q : Src) (n : RegName) (idx : List Nat) (w : Word32) (f : State → State) : State :=
  (if s.regWaits n then s.defer q (regAddr n idx) w else f s).answer q .ok

/-- A register write that a listed writer may make; any other completes with SERR and has no effect (R365). -/
def State.command (s : State) (q : Src) (n : RegName) (idx : List Nat) (w : Word32) (f : State → State) : State :=
  if mayWrite n q then s.regAct q n idx w f else s.answer q .serr

/-! ## Log, interrupts and buckets -/

/-- The 16-bit source field of a log entry (R432). -/
def LogEntry.source (e : LogEntry) : Nat := e.site % 16 * 4096 + e.kind % 16 * 256 + e.index % 256

/-- The 32 bytes of a log entry (R432). -/
def LogEntry.bytes (e : LogEntry) : List Byte :=
  leBytes 8 e.stamp.toNat ++ leBytes 2 e.source ++ leBytes 2 e.event ++ leBytes 1 e.sev
    ++ (e.payload ++ List.replicate 19 0#8).take 19

/-- A unit writes a log entry: it waits for the ring, or is dropped and counted where its unit already holds 8 (R434). -/
def State.logEv (s : State) (site kind index event sev : Nat) (payload : List Byte) : State :=
  let e : LogEntry := ⟨BitVec.ofNat 64 (s.now site), site, kind, index, event, sev, payload⟩
  if (s.log.queue.filter (fun x => x.source == e.source)).length < 8 then
    { s with log := { s.log with queue := s.log.queue ++ [e] } }
  else s.countUp F.logStat_dropped []

/-- The interrupts of R464 and R527: PLIC source and MSI-X vector. -/
inductive Irq where
  | log | ecc | crossing | fettler | alarm | lost | rekey | lanes | power | wdt (k : Nat) | queue (q : Nat) | mbx (c : Nat)
  | fabric (d i : Nat)
deriving DecidableEq, Repr

/-- The source number at the interrupt controller (R527). -/
def Irq.plic : Irq → Nat
  | .log => 1
  | .ecc => 2
  | .crossing => 3
  | .fettler => 4
  | .alarm => 5
  | .lost => 6
  | .rekey => 7
  | .lanes => 8
  | .power => 9
  | .wdt k => 10 + k
  | .queue q => 64 + q
  | .mbx c => 16 + c
  | .fabric d i => 320 + 16 * d + i

/-- An MSI-X message leaves, or its pending bit is set while its table entry is masked (R459, R464). -/
def State.sendMsix (s : State) (v : Nat) : State :=
  if (s.reg .msixTable [4 * v + 3]).getLsbD 0 then
    s.setReg .msixPba [v / 32] ((s.reg .msixPba [v / 32]) ||| BitVec.ofNat 32 (2 ^ (v % 32)))
  else s.emit (.msix v)

/-- Raise an interrupt source: pending at the interrupt controller, and its MSI-X vector (R464, R527). Stream-queue
sources use the vector PCI_QVECq assigns. -/
def State.interrupt (s : State) (i : Irq) : State :=
  let s := { s with plic := s.plic ||| BitVec.ofNat 512 (2 ^ i.plic) }
  match i with
  | .power => s
  | .wdt _ => s
  | .fabric _ _ => s
  | .mbx c => s.sendMsix (16 + c)
  | .queue q => if s.get F.pciQvec_vec [q] ≠ 0 then s.sendMsix (s.get F.pciQvec_vec [q]) else s
  | _ => s.sendMsix (i.plic - 1)

/-- Whether a bucket counts; the others are reserved (R426). -/
def bucketReal (b : Nat) : Bool :=
  if b < 64 then b % 16 < 9 || (b < 32 && b % 16 < 11)
  else b ≤ 75 || (80 ≤ b && b ≤ 83)

/-- The die a bucket belongs to, as a site number: its entries carry it (R432). -/
def bucketSite (b : Nat) : Nat := if b < 64 then b / 16 else if b < 80 then 8 else if b < 82 then 10 else 11

/-- Count an event into a leaky bucket; at or above its threshold the bucket overflows (R423, R424).  `loc` is the
location the log entry gives. -/
def State.bucket (s : State) (b : Nat) (loc : List Byte := []) : State :=
  if bucketReal b then
    let c := satInc 255 (s.get F.eccBktStat_count [b])
    let thr := s.get F.eccBktCfg_thr [b]
    if thr ≠ 0 ∧ thr ≤ c then
      let s := (s.put F.eccBktStat_count [b] 0).raise F.eccBktStat_ovf [b]
      let s := s.logEv (bucketSite b) 14 (b % 64) 0x0003 2
        (leBytes 1 b ++ leBytes 1 thr ++ leBytes 1 (s.get F.eccBktCfg_leak [b]) ++ loc)
      if s.flag F.eccBktCfg_ie [b] then s.interrupt .ecc else s
    else s.put F.eccBktStat_count [b] c
  else s

/-! ## The word arrays -/

/-- The word array of a die. -/
def State.die (s : State) (d : Nat) : WaDie := SMap.get default s.wa d

/-- Replace the word array of a die. -/
def State.setDie (s : State) (d : Nat) (w : WaDie) : State := { s with wa := SMap.set default s.wa d w }

/-- Whether the word array of a die is held (R80). -/
def State.held (s : State) (d : Nat) : Bool := s.flag F.waStat_held [d]

/-- The sequencer of a tile. -/
def WaDie.tile (w : WaDie) (t : Nat) : TileSt := SMap.get default w.tiles t

/-- Replace the sequencer of a tile. -/
def WaDie.setTile (w : WaDie) (t : Nat) (x : TileSt) : WaDie := { w with tiles := SMap.set default w.tiles t x }

/-- The sequencer of tile t of die d. -/
def State.tile (s : State) (d t : Nat) : TileSt := (s.die d).tile t

/-- Replace the sequencer of tile t of die d. -/
def State.setTile (s : State) (d t : Nat) (x : TileSt) : State := s.setDie d ((s.die d).setTile t x)

/-- A stream queue. -/
def State.queue (s : State) (d q : Nat) : QueueSt := SMap.get default s.queues (64 * d + q)

/-- Replace a stream queue. -/
def State.setQueue (s : State) (d q : Nat) (x : QueueSt) : State :=
  { s with queues := SMap.set default s.queues (64 * d + q) x }

end Machine
end Sys2Proof
end

