-- ==== Sys2Proof/Machine/Groups.lean ====
section
/-!
DEFINITION. Sys2Proof/Machine/Groups.lean: the edges between dies and their groups, and the routes packets take over them (R30
to R32, R45, R256, R356).
-/

namespace Sys2Proof.Machine

/-! ## Edges, groups, dies (R30) -/

/-- First group and number of groups of an edge. -/
def edgeFirst : List Nat := [0, 64, 128, 192, 256, 288, 320, 352, 384, 432]
def edgeGroups (k : Nat) : Nat := if k < 4 then 64 else if k < 8 then 32 else 48

/-- The edge of a group. -/
def edgeOf (g : Nat) : Nat := (edgeFirst.filter (· ≤ g)).length - 1

/-- The groups of an edge. -/
def groupsOf (k : Nat) : List Nat := (List.range (edgeGroups k)).map (edgeFirst.getD k 0 + ·)

/-- The two dies of an edge, as site numbers, first-named first. -/
def edgeDies (k : Nat) : Nat × Nat :=
  [(0, 1), (2, 3), (0, 2), (1, 3), (10, 0), (10, 2), (11, 1), (11, 3), (8, 2), (8, 3)].getD k (0, 0)

/-- The sending and the receiving die of a direction. -/
def sender (k dir : Nat) : Nat := if dir = 0 then (edgeDies k).1 else (edgeDies k).2
def receiver (k dir : Nat) : Nat := if dir = 0 then (edgeDies k).2 else (edgeDies k).1

/-- The crossing-parity bucket of a receiving die (R426). -/
def crossBucket (site : Nat) : Nat :=
  if site < 4 then 16 * site + 6 else if site = 8 then 73 else if site = 10 then 81 else 83

/-! ## Group state -/

/-- A group and direction. -/
def State.xgroup (s : State) (g dir : Nat) : XGroup := SMap.get default s.xg (2 * g + dir)
def State.setXg (s : State) (g dir : Nat) (x : XGroup) : State := { s with xg := SMap.set default s.xg (2 * g + dir) x }

/-- Role of a group: 0 none, 1 bridge, 2 packet, 3 hub-I/O (R256). -/
def State.role (s : State) (g : Nat) : Nat := s.get F.glbXgstat_role [g, 0]

/-- Whether a group has failed in the start-up check or has been retired. -/
def State.groupDown (s : State) (g : Nat) : Bool :=
  (List.range 2).any (fun d => s.flag F.glbXgstat_failed [g, d] || s.flag F.glbXgstat_retired [g, d])

/-- Whether a group works as a packet group. -/
def State.packetWorks (s : State) (g : Nat) : Bool := s.role g == 2 && !s.groupDown g

/-- Whether an edge has lost its last packet group (R47, R282); before a load has given its groups roles, whether every group
of it has failed (R45). -/
def State.edgeLost (s : State) (k : Nat) : Bool :=
  if (groupsOf k).any (fun g => s.role g == 2) then !(groupsOf k).any (fun g => s.packetWorks g)
  else (groupsOf k).all (fun g => s.groupDown g)

/-! ## Levels and routes (R356) -/

/-- The dies, as site numbers. -/
def allDies : List Nat := [0, 1, 2, 3, 8, 10, 11]

/-- The edges the routes in use count as working. -/
def State.liveEdges (s : State) : List Nat := (List.range 10).filter (fun k => !s.noc.lostEdges.contains k)

/-- The dies one hop away from a set of dies. -/
def neighbours (edges ds : List Nat) : List Nat :=
  allDies.filter (fun d => edges.any (fun k =>
    ((edgeDies k).1 == d && ds.contains (edgeDies k).2) || ((edgeDies k).2 == d && ds.contains (edgeDies k).1)))

/-- The dies within `n` hops of the hub. -/
def reach (edges : List Nat) : Nat → List Nat
  | 0 => [8]
  | n + 1 =>
    let r := reach edges n
    allDies.filter (fun d => r.contains d || (neighbours edges r).contains d)

/-- The level of a die: its distance from the hub in edges; 7 where no path leads there. -/
def levelOf (edges : List Nat) (d : Nat) : Nat := ((List.range 7).find? (fun n => (reach edges n).contains d)).getD 7

/-- Whether a hop goes up: to a lower level, or to an equal level and a lower die number. -/
def hopUp (edges : List Nat) (a b : Nat) : Bool :=
  let la := levelOf edges a
  let lb := levelOf edges b
  decide (lb < la) || (la == lb && decide (b < a))

/-- Die-level routes of at most `n` hops from `a` to `b`, up hops before down hops, neighbours in ascending die number;
`lanes` says whether lane dies may be passed. -/
def routes (edges : List Nat) (b : Nat) (lanes : Bool) : Nat → Bool → Nat → List (List Nat)
  | 0, _, a => if a = b then [[]] else []
  | n + 1, down, a =>
    if a = b then [[]]
    else
      (neighbours edges [a]).flatMap (fun d =>
        let up := hopUp edges a d
        if (down && up) || (d != b && !lanes && 10 ≤ d) then []
        else (routes edges b lanes n (down || !up) d).map (d :: ·))

/-- The route the NoC uses: fewest hops, then the lower-numbered die at the first difference; through a lane die only
when no other route exists. -/
def dieRoute (edges : List Nat) (a b : Nat) : Option (List Nat) :=
  let best (rs : List (List Nat)) : Option (List Nat) :=
    rs.foldl (fun acc r =>
      match acc with
      | none => some r
      | some x => if r.length < x.length then some r else some x) none
  match best (routes edges b false 6 false a) with
  | some r => some r
  | none => best (routes edges b true 6 false a)

/-- The routes in use are those of the edges that work now: at the end of the start-up check and when a load gives the groups
their roles (R45, R256, R356). -/
def State.freshRoutes (s : State) : State :=
  { s with noc := { s.noc with lostEdges := (List.range 10).filter (fun k => s.edgeLost k) } }

/-- Whether packets go from one die to another. -/
def State.routed (s : State) (a b : Nat) : Bool := (dieRoute s.liveEdges a b).isSome

/-- Whether packets from the hub reach a die. -/
def State.reachable (s : State) (site : Nat) : Bool := s.routed 8 site

end Sys2Proof.Machine
end

