-- ==== Sys2Proof/Machine/Clocks.lean ====
section
/-!
DEFINITION. Sys2Proof/Machine/Clocks.lean: clock gating, CLKMON, the timebase copies and the tick generators
(R61 to R75), and the commands of the references that concern the clocks alone (R53, R56, R58).
-/

namespace Sys2Proof.Machine

/-! ## Gating and CLKMON -/

/-- A write to CLK_GATEd: fixed bits ignore it, and deep is writable for domain 3 only (R61, R62). -/
def State.clkGateWrite (s : State) (d : Nat) (w : Word32) : State :=
  if d ≤ 2 then s
  else
    let s := (s.put F.clkGate_run [d] (F.clkGate_run.of w)).put F.clkGate_sleep [d] (F.clkGate_sleep.of w)
    if d = 3 then s.put F.clkGate_deep [d] (F.clkGate_deep.of w) else s

def execClockGateWrite (src : Src) (d : Fin 24) (w : Word32) (s : State) : Out :=
  .next (s.regAct src .clkGate [d] w (·.clkGateWrite d w))

/-- A write to CLK_MON: a change of src or divm1 keeps the output low for 16 cycles of the new source (R64). -/
def State.clkMonWrite (s : State) (w : Word32) : State :=
  let old := s.reg .clkMon []
  let s := s.writeReg .clkMon [] w
  if s.reg .clkMon [] = old then s else { s with clk := { s.clk with mon := ⟨16, 0, 0, false⟩ } }

def execClkmonSelect (src : Src) (w : Word32) (s : State) : Out := .next (s.regAct src .clkMon [] w (·.clkMonWrite w))

/-- The divisor of CLKMON: divm1 + 1, where a divm1 of 0 is treated as 1 (R63). -/
def State.monDiv (s : State) : Nat := max 2 (s.get F.clkMon_divm1 [] + 1)

/-- One cycle of the selected source: it runs down the cycles held low, or moves the divided output on: high for the first
half of its period, an odd divisor n for (n + 1) / 2 source cycles (R63, R64). -/
def State.monCycle (s : State) : State :=
  let m := s.clk.mon
  let m' : MonSt :=
    if 0 < m.low then { m with low := m.low - 1, pos := 0, high := false }
    else { m with pos := (m.pos + 1) % s.monDiv, high := decide (m.pos < (s.monDiv + 1) / 2) }
  { s with clk := { s.clk with mon := m' } }

/-- Whether the source is the toggle signal of generator n, which rises at every other tick. -/
def State.monToggle (s : State) (n : Nat) : Bool := s.get F.clkMon_src [] == 0x18 + n

/-! ## References -/

/-- Whether a reference is qualified; the active one (R53). -/
def State.qualified (s : State) (refB : Bool) : Bool := s.flag (if refB then F.clkRefstat_bQual else F.clkRefstat_aQual) []
def State.setQualified (s : State) (refB q : Bool) : State :=
  s.put (if refB then F.clkRefstat_bQual else F.clkRefstat_aQual) [] (b2n q)
def State.activeB (s : State) : Bool := s.flag F.clkRefstat_active []

/-- A change of the active reference: switched is set and the change logged; `cause` 0 loss, 1 command, 2 revert (R56). -/
def State.switchTo (s : State) (refB : Bool) (cause : Nat) : State :=
  if s.activeB == refB then s
  else ((s.put F.clkRefstat_active [] (b2n refB)).raise F.clkRefstat_switched []).logEv 8 9 0 0x0201 1
    (leBytes 1 (b2n refB) ++ leBytes 1 cause)

/-- A write to CLK_REFCTRL (R56). -/
def State.refControl (s : State) (w : Word32) : State :=
  let s := s.writeReg .clkRefctrl [] w
  if F.clkRefctrl_switch.of w = 1 then
    let b := s.flag F.clkRefctrl_prefer []
    if s.qualified b then s.switchTo b 1 else s.raise F.clkRefstat_cmdErr []
  else s

def execReferenceSwitchCommand (src : Src) (w : Word32) (s : State) : Out :=
  .next (s.regAct src .clkRefctrl [] w (·.refControl w))

/-- REFERENCE_DRIFT_FAILED: the second reference is declared failed (R53). -/
def execReferenceDriftFailed (refB : Bool) (s : State) : Out :=
  if s.activeB != refB && s.qualified refB && s.qualified (!refB) then
    let s1 := s.setQualified refB false
    .next { s1 with clk := if refB then { s1.clk with failedB := true, lostB := true } else { s1.clk with failedA := true, lostA := true } }
  else .next s

/-- RETENTION_MONITOR_EXPIRY: the next qualification gives a warm restart (R58). -/
def execRetentionMonitorExpiry (s : State) : Out :=
  if s.clk.retRunning then .next { s with clk := { s.clk with retRunning := false, retExpired := true } } else .next s

/-! ## Timebase copies (R66 to R68) -/

/-- The offset of a die copy from the hub timebase. -/
def State.offset (s : State) (c : Nat) : Int := SMap.get 0 s.tb.offs c
def State.setOffset (s : State) (c : Nat) (o : Int) : State := { s with tb := { s.tb with offs := SMap.set 0 s.tb.offs c o } }

/-- A bit per die in a field of TB_STAT. -/
def State.putDieBit (s : State) (f : Fld) (c : Nat) (b : Bool) : State :=
  let m := s.get f []
  s.put f [] (if b then Nat.lor m (2 ^ c) else Nat.land m (Nat.xor (2 ^ f.width - 1) (2 ^ c)))

/-- The site of a copy (R66). -/
def siteOfCopy (c : Nat) : Nat := if c < 4 then c else if c = 4 then 8 else c + 5

/-- The offset a copy has once the wander reported so far has come about. -/
def State.trueOffset (s : State) (c : Nat) : Int := s.offset c + SMap.get 0 s.tb.drift c

/-- TIMEBASE_SYNC_MESSAGE: `wander` is what the copy drifts against the hub, counts it gains or loses one by one. The copy
corrects itself with single counts; one more than a count out slews, misaligned and logged (R66, R67). -/
def execTimebaseSyncMessage (die : Fin 7) (wander : Int) (s : State) : Out :=
  if die.val = 4 ∨ !s.tb.running then .next s
  else
    let s1 := s.putDieBit F.tbStat_free die false
    let s1 := ({ s1 with tb := { s1.tb with
      drift := SMap.set 0 s1.tb.drift die (SMap.get 0 s1.tb.drift die + wander)
      sync := SMap.set 0 s1.tb.sync die (s1.tb.count + 1) } } : State)
    let o := s1.trueOffset die
    let s2 := ({ s1 with tb := { s1.tb with slew := die.val :: s1.tb.slew.filter (· != die.val) } } : State)
    if o.natAbs ≤ 1 then .next s2
    else
      let was := (s.get F.tbStat_misaligned []).testBit die
      let s3 := s2.putDieBit F.tbStat_misaligned die true
      .next (if was then s3 else s3.logEv (siteOfCopy die) 9 0 0x0203 1 (leBytes 1 die.val ++ leBytes 8 (ofSigned 64 o)))

/-- The sign of an offset. -/
def unit1 (o : Int) : Int := if 0 < o then 1 else if o < 0 then -1 else 0

/-- A copy's next count (R67): what has drifted comes about count by count; a copy that corrects itself holds or adds one
count, a misaligned one only once in 1,024 counts, until it is aligned with the hub. -/
def State.copyCount (s : State) (c : Nat) : State :=
  let d := unit1 (SMap.get 0 s.tb.drift c)
  let o := s.offset c + d
  let mis := (s.get F.tbStat_misaligned []).testBit c
  let fix : Int := if s.tb.slew.contains c && d == 0 && (!mis || s.tb.count % 1024 == 0) then -(unit1 o) else 0
  let s1 := ({ s with tb := { s.tb with
    offs := SMap.set 0 s.tb.offs c (o + fix)
    drift := SMap.set 0 s.tb.drift c (SMap.get 0 s.tb.drift c - d)
    jumped := if 0 < d + fix then c :: s.tb.jumped else s.tb.jumped } } : State)
  if s1.tb.slew.contains c && s1.trueOffset c == 0 then
    ({ s1 with tb := { s1.tb with slew := s1.tb.slew.filter (· != c) } } : State).putDieBit F.tbStat_misaligned c false
  else s1

/-- The copies of the dies other than the hub. -/
def dieCopies : List Nat := [0, 1, 2, 3, 5, 6]

/-- Every copy whose offset is not steady takes its next count. -/
def State.copiesCount (s : State) : State :=
  dieCopies.foldl (fun s c =>
    if s.offset c == 0 && SMap.get 0 s.tb.drift c == 0 && !s.tb.slew.contains c then s else s.copyCount c)
    ({ s with tb := { s.tb with jumped := [] } } : State)

/-- TIMEBASE_FREE_RUN: no sync message for 64 µs (R68). -/
def execTimebaseFreeRun (die : Fin 7) (s : State) : Out :=
  if die.val = 4 then .next s else .next (s.putDieBit F.tbStat_free die true)

/-- A read of TB_TIME_LO: a normal read latches bits [63:32] into TB_TIME_HI; a peek read does not (R20). -/
def State.timeLoRead (s : State) (src : Src) : Word32 × State :=
  let t := s.now 8
  (BitVec.ofNat 32 t, if src.peeks then s else s.setReg .tbTimeHi [] (BitVec.ofNat 32 (t / 2 ^ 32)))

def execTbTimeLoRead (src : Src) (s : State) : Out :=
  let (w, s1) := s.timeLoRead src
  .next (s1.answerWord src w)

/-! ## Tick generators (R71 to R75) -/

/-- The period in force. -/
def State.periodOf (s : State) (n : Nat) : Nat :=
  let p := SMap.get 0 s.tb.period n
  if p = 0 then s.get F.tbTickPeriod_period [n] else p

/-- The count the schedule is reckoned from. -/
def State.anchorOf (s : State) (n : Nat) : Nat :=
  let a := SMap.get 0 s.tb.anchor n
  if a = 0 then s.pair .tbTickStartLo .tbTickStartHi [n] else a - 1

/-- Whether generator n is scheduled on count `t` (R71). -/
def State.onSchedule (s : State) (n t : Nat) : Bool :=
  s.flag F.tbTickCtrl_en [n] && decide (((t : Int) - (s.anchorOf n : Int)) % (s.periodOf n : Int) = 0)

/-- Whether it fires now: scheduled, and not fired on this count before. -/
def State.tickDue (s : State) (n : Nat) : Bool :=
  s.tb.running && s.onSchedule n s.tb.count && SMap.get 0 s.tb.prev n != s.tb.count + 1

/-- The first count at or after `t` on which generator n fires. -/
def State.nextTick (s : State) (n t : Nat) : Nat := t + (((s.anchorOf n : Int) - (t : Int)) % (s.periodOf n : Int)).toNat

/-- The key of a generator's last tick on FDd. -/
def dieTickKey (d n : Nat) : Nat := 4 * (d + 1) + n

/-- The scheduled count that the copy of FDd has reached and has not fired on: its present count, the one it skipped, or one
at or after the enabling write that a copy ahead of the hub had passed (R71, R74). -/
def State.dieReached (s : State) (d n : Nat) : Option Nat :=
  let now := s.now d
  let back := now - (s.offset d).toNat - b2n (s.tb.jumped.contains d)
  let t := s.nextTick n (max back (max (SMap.get 0 s.tb.since n) (SMap.get 0 s.tb.prev (dieTickKey d n))))
  if s.tb.running && s.flag F.tbTickCtrl_en [n] && decide (t ≤ now) then some t else none

/-- Whether the word array of FDd has a clock edge now on which it can take a tick (R71, R72). -/
def State.atEdge (s : State) (d : Nat) : Bool := s.get F.pwrTl_cur [4 + d] == 7 || s.tb.edged.contains d

/-- Whether generator n has something to do now: the hub or a die fires it, or a word array takes it. -/
def State.tickActs (s : State) (n : Nat) : Bool :=
  s.tickDue n || (List.range 4).any (fun d => (s.dieReached d n).isSome) ||
    s.tb.owed.any (fun o => o.gen == n && s.atEdge o.die)

/-- The moment of frequency changes and live shifts: a TICK0 tick, or a multiple of 1,048,576 ns (R72, R273). -/
def State.nextMoment (s : State) (t : Nat) : Nat :=
  if s.flag F.tbTickCtrl_en [0] then s.nextTick 0 t else (t + 1048575) / 1048576 * 1048576

/-- A write to TB_TICKn_CTRL (R71, R74). -/
def State.tickControl (s : State) (n : Nat) (w : Word32) : State :=
  let was := s.flag F.tbTickCtrl_en [n]
  let s := s.writeReg .tbTickCtrl [n] w
  let now := s.flag F.tbTickCtrl_en [n]
  if was == now then s
  else
    let s := { s with tb := { s.tb with period := SMap.set 0 s.tb.period n 0, anchor := SMap.set 0 s.tb.anchor n 0 } }
    let s := s.put F.tbTickCtrl_pending [n] 0
    let s := ({ s with tb := { s.tb with since := SMap.set 0 s.tb.since n s.tb.count } } : State)
    if now then s.setReg .tbTickCount [n] 0#32 else s

def execTickEnable (src : Src) (n : Fin 4) (w : Word32) (s : State) : Out :=
  .next (s.regAct src .tbTickCtrl [n] w (·.tickControl n w))

/-- A write to TB_TICKn_PERIOD (R74, R75). -/
def State.tickPeriod (s : State) (n : Nat) (w : Word32) : State :=
  let p := F.tbTickPeriod_period.of w
  if p < 64 ∨ 16777216 < p then s.raise F.tbTickCtrl_badPeriod [n]
  else if s.flag F.tbTickCtrl_en [n] then
    let old := s.periodOf n
    let s := { s with tb := { s.tb with period := SMap.set 0 s.tb.period n old } }
    (s.put F.tbTickPeriod_period [n] p).raise F.tbTickCtrl_pending [n]
  else s.put F.tbTickPeriod_period [n] p

def execTickPeriodWrite (src : Src) (n : Fin 4) (w : Word32) (s : State) : Out :=
  .next (s.regAct src .tbTickPeriod [n] w (·.tickPeriod n w))

/-- A write to TB_TICKn_START: ignored while en is 1 (R74). -/
def State.tickStart (s : State) (r : RegName) (n : Nat) (w : Word32) : State :=
  if s.flag F.tbTickCtrl_en [n] then s else s.writeReg r [n] w

/-- The generator fires at the hub: COUNT, the toggle signal, and a pending period that counts from this tick (R73, R74). -/
def State.tickFires (s : State) (n : Nat) : State :=
  let c := s.tb.count
  let s := s.setReg .tbTickCount [n] (s.reg .tbTickCount [n] + 1)
  let s := { s with tb := { s.tb with prev := SMap.set 0 s.tb.prev n (c + 1), toggles := s.tb.toggles ^^^ BitVec.ofNat 4 (2 ^ n) } }
  if s.flag F.tbTickCtrl_pending [n] then
    let s := { s with tb := { s.tb with period := SMap.set 0 s.tb.period n 0, anchor := SMap.set 0 s.tb.anchor n (c + 1) } }
    s.put F.tbTickCtrl_pending [n] 0
  else s

/-- CLKMON sees a toggle signal that rises. -/
def State.monTick (s : State) (n : Nat) : State := if s.monToggle n && s.tb.toggles.getLsbD n then s.monCycle else s

/-- The tick fires on FDd, on the count `c` of its copy: its toggle signal changes, and its word array has the tick to take
while its clock runs (R71, R73, log entry 48). -/
def State.dieFires (s : State) (d n c : Nat) : State :=
  let k := dieTickKey d n
  { s with tb := { s.tb with
    prev := SMap.set 0 s.tb.prev k (c + 1)
    dieToggles := SMap.set 0 s.tb.dieToggles d (SMap.get 0 s.tb.dieToggles d ^^^ BitVec.ofNat 4 (2 ^ n))
    owed := if s.runs (16 + d) then s.tb.owed ++ [⟨d, n, c, SMap.get 0 s.tb.prev k⟩] else s.tb.owed } }

end Sys2Proof.Machine
end

