-- ==== Sys2Proof/Machine/Lanes.lean ====
section
/-!
DEFINITION. Sys2Proof/Machine/Lanes.lean: serial lanes, their bring-up, fall-back, FEC counts and retirement, and the
state of the host link (R440 to R458).
-/

namespace Sys2Proof.Machine

/-! ## Lanes, links, holders (R440) -/

/-- Site of a lane's die. -/
def laneSite (l : Nat) : Nat := if l < 20 then 10 else 11

/-- Whether the host link or a Tarod instance holds a lane (R440, R334, R336). -/
def State.laneHeld (s : State) (l : Nat) : Bool :=
  (l < 16 && !s.flag F.pciStat_hlDis []) ||
  (s.flag F.glbTarod_active [] && (if s.flag F.glbTarod_die [] then 20 ≤ l else decide (l < 20)))

/-- The lanes of the link a lane belongs to, by the bond field of its group: 3 acts as 0. -/
def State.linkOf (s : State) (l : Nat) : List Nat :=
  match s.get F.lnGrpCfg_bond [l / 4] with
  | 1 => [l / 2 * 2, l / 2 * 2 + 1]
  | 2 => (List.range 4).map (l / 4 * 4 + ·)
  | _ => [l]

/-- The number of a lane's link within its group. -/
def State.linkNo (s : State) (l : Nat) : Nat :=
  match s.get F.lnGrpCfg_bond [l / 4] with
  | 1 => l % 4 / 2
  | 2 => 0
  | _ => l % 4

/-- Bring-up stage. -/
def State.stage (s : State) (l : Nat) : LaneStage := SMap.get .off s.lanes.stage l
def State.setStage (s : State) (l : Nat) (g : LaneStage) : State :=
  { s with lanes := { s.lanes with stage := SMap.set .off s.lanes.stage l g } }

/-- Whether a mode, rate and width lie in the table of R441 and R447. -/
def laneLegal (mode kbd width : Nat) : Bool :=
  width ≤ 4 &&
  (match mode with
  | 0 => 1250000 ≤ kbd && kbd ≤ 32000000
  | 1 => 25000000 ≤ kbd && kbd ≤ 106250000
  | _ => false)

/-- Whether a lane belongs to a Tarod instance on die f (R336), and the modes and rates such a lane may have (R441). -/
def laneOfTarod (f l : Nat) : Bool := (f == 2 && decide (l < 20)) || (f == 3 && decide (20 ≤ l))
def legacyLaneLegal (mode kbd : Nat) : Bool := mode == 2 && decide (1250000 ≤ kbd ∧ kbd ≤ 10312500)

/-- The bit rate of a lane on its fabric side, in kb/s: two bits a symbol in PAM4, 514/544 of the line with FEC (R441, R443). -/
def fabricRateOf (mode kbd : Nat) (fec : Bool) : Nat :=
  let line := kbd * (if mode = 1 then 2 else 1)
  if fec then line * 514 / 544 else line
def State.fabricRate (s : State) (l : Nat) : Nat :=
  fabricRateOf (s.get F.lnLaneCfg_mode [l]) (s.get F.lnLaneRate_kbd [l]) (s.flag F.lnGrpCfg_fec [l / 4])

/-- The fabric target frequency in kHz, which a tclk may not exceed (R247, R447; grade 2, log entry 1). -/
def fabricTarget : Nat := 800000

/-- The die a lane is attached to: the group's attach field chooses it, a Tarod instance takes the groups of its lane die (R446). -/
def State.laneDie (s : State) (l : Nat) : Nat :=
  let far := s.flag F.lnGrpCfg_attach [l / 4] || (s.flag F.glbTarod_active [] && s.flag F.glbTarod_die [] == decide (20 ≤ l))
  (if l < 20 then 0 else 1) + (if far then 2 else 0)

/-- The i-th of a lane's 12 attached clusters (R446). -/
def laneCluster (l i : Nat) : Nat := 256 * (if l < 20 then 0 else 511) + 12 * (l % 20) + i

/-- The lane whose attached clusters hold a cluster of die d. -/
def State.laneAt (s : State) (d cl : Nat) : Option Nat :=
  let l := cl % 256 / 12 + (if d % 2 = 0 then 0 else 20)
  if cl % 256 < 240 ∧ cl / 256 = (if d % 2 = 0 then 0 else 511) ∧ s.laneDie l = d then some l else none

/-- tclk of a lane in kHz: the fabric-side bit rate divided by w = 32 * 2^width (R447); 0 while the lane is not active. -/
def State.laneKhz (s : State) (l : Nat) : Nat :=
  if s.flag F.lnLaneCfg_en [l] then s.fabricRate l / (32 * 2 ^ s.get F.lnLaneCfg_width [l]) else 0

/-! ## Retirement (R453, R458) -/

/-- The widest width the good lanes of the host link allow, from either end. -/
def linkWidth (bad : Nat) : Nat :=
  ([16, 8, 4, 2, 1].find? (fun w =>
    (List.range w).all (fun i => !bad.testBit i) || (List.range w).all (fun i => !bad.testBit (15 - i)))).getD 0

/-- A lane is retired; `cause` 0 pin fault, 1 lock, 2 FEC. -/
def State.retireLane (s : State) (l cause : Nat) : State :=
  let s := ((s.raise F.lnLaneStat_retired [l]).put F.lnLaneStat_lock [l] 0).setReg .lnLaneLat [l] 0#32
  let s := ((s.put F.lnLaneStat_fbActive [l] 0).setStage l .off).logEv (laneSite l) 10 l 0x0801 4 (leBytes 1 l ++ leBytes 1 cause)
  let s := s.interrupt .lanes
  if l < 16 && !s.flag F.pciStat_hlDis [] then
    let bad := Nat.lor (s.get F.pciStat_laneBad []) (2 ^ l)
    let s := (s.put F.pciStat_laneBad [] bad).put F.pciStat_width [] (min (s.get F.pciStat_width []) (linkWidth bad))
    s.logEv 10 11 0 0x0804 2 (leBytes 1 (s.get F.pciStat_speed []) ++ leBytes 1 (s.get F.pciStat_width []))
  else s

/-- A lane drops lock and adapts again; one whose pins are still being checked ends that first (R449). -/
def State.adaptLane (s : State) (l : Nat) : State :=
  let s := (s.put F.lnLaneStat_lock [l] 0).setReg .lnLaneLat [l] 0#32
  if s.stage l = .pins then s else s.setStage l .adapt

/-- A lane starts with its pin check (R449). -/
def State.startLane (s : State) (l : Nat) : State :=
  let s := ((s.put F.lnLaneStat_retired [l] 0).put F.lnLaneStat_pin [l] 0).put F.lnLaneStat_fbActive [l] 0
  ((s.put F.lnLaneStat_lock [l] 0).setReg .lnLaneLat [l] 0#32).setStage l .pins

/-! ## Register writes -/

/-- A write to LN_LANEl_CFG (R440, R441, R447, R449, R454, R455). -/
def State.laneConfig (s : State) (l : Nat) (w : Word32) : State :=
  if s.laneHeld l || !laneLegal (F.lnLaneCfg_mode.of w) (s.get F.lnLaneRate_kbd [l]) (F.lnLaneCfg_width.of w) then
    s.raise F.lnLaneStat_cfgErr [l]
  else
    let was := s.flag F.lnLaneCfg_en [l]
    let mode := s.get F.lnLaneCfg_mode [l]
    let lb := s.get F.lnLaneCfg_lb [l]
    let s := s.writeReg .lnLaneCfg [l] w
    if F.lnLaneCfg_en.of w = 0 then ((s.put F.lnLaneStat_lock [l] 0).setReg .lnLaneLat [l] 0#32).setStage l .off
    else if !was then s.startLane l
    else if s.flag F.lnLaneStat_retired [l] then s
    else if F.lnLaneCfg_lb.of w ≠ lb then s.startLane l
    else if F.lnLaneCfg_mode.of w ≠ mode then s.adaptLane l
    else s

/-- A write to LN_LANEl_RATE (R441, R455). -/
def State.laneRate (s : State) (l : Nat) (w : Word32) : State :=
  if s.laneHeld l || !laneLegal (s.get F.lnLaneCfg_mode [l]) (F.lnLaneRate_kbd.of w) 0 then s.raise F.lnLaneStat_cfgErr [l]
  else
    let old := s.reg .lnLaneRate [l]
    let s := s.writeReg .lnLaneRate [l] w
    if s.reg .lnLaneRate [l] ≠ old ∧ s.flag F.lnLaneCfg_en [l] ∧ !s.flag F.lnLaneStat_retired [l] then s.adaptLane l else s

/-- A write to LN_GRPg_CFG: attach only while every lane of the group has en 0 (R440, R446). -/
def State.laneGroup (s : State) (g : Nat) (w : Word32) : State :=
  let ls := (List.range 4).map (4 * g + ·)
  if ls.any (fun l => s.laneHeld l) then ls.foldl (fun s l => s.raise F.lnLaneStat_cfgErr [l]) s
  else
    let idle := ls.all (fun l => !s.flag F.lnLaneCfg_en [l])
    s.writeReg .lnGrpCfg [g] (if idle then w else F.lnGrpCfg_attach.put w (s.get F.lnGrpCfg_attach [g]))

/-- A write to LN_LANEl_STAT, LN_LANEl_LAT or LN_GRPg_FEC: one of a held lane or group is ignored and sets cfg_err (R440). -/
def State.laneStatus (s : State) (n : RegName) (i : Nat) (w : Word32) : State :=
  let ls := if n = .lnGrpFec then (List.range 4).map (4 * i + ·) else [i]
  if ls.any (fun l => s.laneHeld l) then ls.foldl (fun s l => s.raise F.lnLaneStat_cfgErr [l]) s else s.writeReg n [i] w

def execLaneEnable (src : Src) (l : Fin 40) (w : Word32) (s : State) : Out :=
  .next (s.regAct src .lnLaneCfg [l] (w ||| 0x80000000#32) (·.laneConfig l (w ||| 0x80000000#32)))

def execLoopbackSelect (src : Src) (l : Fin 40) (w : Word32) (s : State) : Out := .next (s.regAct src .lnLaneCfg [l] w (·.laneConfig l w))

def execLaneSettingWrite (src : Src) (l : Fin 40) (rate : Bool) (w : Word32) (s : State) : Out :=
  .next (s.regAct src (if rate then .lnLaneRate else .lnLaneCfg) [l] w (fun s => if rate then s.laneRate l w else s.laneConfig l w))

/-! ## Bring-up, lock and fall-back (R449 to R451) -/

/-- LANE_PIN_CHECK_DONE: `fault` 0 none, else the code of the pin field. -/
def execLanePinCheckDone (l : Fin 40) (fault : Fin 5) (s : State) : Out :=
  if s.stage l ≠ .pins then .next s
  else if fault.val = 0 then .next (s.setStage l .adapt)
  else .next ((s.put F.lnLaneStat_pin [l] fault).retireLane l 0)

/-- RX_LOCK: adaptation converges; `ps` is the lane's latency (R448, R450). -/
def execRxLock (l : Fin 40) (ps : Word32) (s : State) : Out :=
  if s.stage l = .adapt ∨ s.stage l = .lost then
    .next (((s.raise F.lnLaneStat_lock [l]).setReg .lnLaneLat [l] ps).setStage l .data)
  else .next s

/-- LOSS_OF_LOCK: rx_lock falls and the 100 ms wait begins (R453). -/
def execLossOfLock (l : Fin 40) (s : State) : Out :=
  if s.stage l = .data then .next (((s.put F.lnLaneStat_lock [l] 0).setReg .lnLaneLat [l] 0#32).setStage l .lost) else .next s

/-- The fall-back starts on a lane's link; during one it is ignored (R451, R455). -/
def State.fallBack (s : State) (l : Nat) : State :=
  if s.flag F.lnLaneStat_fbActive [l] then s
  else ((s.linkOf l).filter (fun k => !s.flag F.lnLaneStat_retired [k] && s.flag F.lnLaneCfg_en [k])).foldl (fun s k =>
    ((s.raise F.lnLaneStat_fbActive [k]).put F.lnLaneStat_lock [k] 0).setReg .lnLaneLat [k] 0#32) s

/-- LOCK_LOSS_TIMEOUT: 100 ms without lock start the fall-back where fb_en is 1, else retire the lane (R451, R453; log
entry 123). -/
def execLockLossTimeout (l : Fin 40) (s : State) : Out :=
  if (s.stage l = .lost ∨ s.stage l = .adapt) ∧ !s.flag F.lnLaneStat_fbActive [l] then
    if s.flag F.lnLaneCfg_fbEn [l] && !s.flag F.lnLaneStat_fbFail [l] then .next (s.fallBack l) else .next (s.retireLane l 1)
  else .next s

/-- FALL_BACK_REQUEST: a rising fb_req of a lane that is enabled (R451). -/
def execFallBackRequest (l : Fin 40) (s : State) : Out :=
  if s.flag F.lnLaneCfg_en [l] && !s.laneHeld l then .next (s.fallBack l) else .next s

/-- FALL_BACK_DETECT: a receiver in data mode has seen the pattern (R451). -/
def execFallBackDetect (l : Fin 40) (s : State) : Out := if s.stage l = .data then .next (s.fallBack l) else .next s

/-- FALL_BACK_END: each receiver of the fall-back corrects polarity (`inv`, by lane of the link) and exactly reversed order, or
sets fb_fail; the lanes return to data mode and relock; logged, vector 7 (R451). -/
def execFallBackEnd (l : Fin 40) (inv : BitVec 4) (rev fail : Bool) (s : State) : Out :=
  if !s.flag F.lnLaneStat_fbActive [l] then .next s
  else
    let ls := s.linkOf l
    let s1 := (((List.range ls.length).zip ls).filter (fun p => s.flag F.lnLaneStat_fbActive [p.2])).foldl (fun s p =>
      let k := p.2
      let s := (s.put F.lnLaneStat_fbActive [k] 0).setStage k .adapt
      if fail then s.raise F.lnLaneStat_fbFail [k] else s.put F.lnLaneStat_inv [k] (b2n (inv.getLsbD p.1))) s
    let bit := 2 ^ s.linkNo l
    let old := s.get F.lnGrpCfg_rev [l / 4]
    let s2 := if rev && !fail && s.linkNo l < 2 then s1.put F.lnGrpCfg_rev [l / 4] (Nat.lor old bit) else s1
    .next ((s2.logEv (laneSite l) 10 l 0x0802 1
      (leBytes 1 (ls.headD l) ++ leBytes 1 inv.toNat ++ leBytes 1 (b2n rev) ++ leBytes 1 (b2n fail))).interrupt .lanes)

/-! ## FEC, late words, counts -/

/-- FEC_CODEWORD_RECEIVE: a codeword of the link that a lane belongs to: up to 15 wrong symbols are corrected and counted; more are
uncorrectable and counted, the words of the link until its next codeword come with rx_err, and more than 1,000 in a second retire the
group's lanes (R443, R453). -/
def execFecCodewordReceive (l : Fin 40) (wrong : Nat) (s : State) : Out :=
  let g := l.val / 4
  let k := (s.linkOf l).headD l
  let rest := s.lanes.fecErr.filter (· != k)
  if !s.flag F.lnGrpCfg_fec [g] then .next s
  else if wrong ≤ 15 then
    let s1 := ({ s with lanes := { s.lanes with fecErr := rest } } : State)
    .next (if wrong = 0 then s1 else s1.countUp F.lnGrpFec_corr [g])
  else
    let s := ({ s with lanes := { s.lanes with fecErr := k :: rest } } : State)
    let now := s.now (laneSite l)
    let times := (SMap.get [] s.lanes.fecBad g).filter (fun t => now < t + 1000000000) ++ [now]
    let s1 := (s.countUp F.lnGrpFec_uncorr [g])
    let s2 := { s1 with lanes := { s1.lanes with fecBad := SMap.set [] s1.lanes.fecBad g times } }
    if 1000 < times.length then
      let ls := ((List.range 4).map (4 * g + ·)).filter (fun l => s2.flag F.lnLaneCfg_en [l] && !s2.flag F.lnLaneStat_retired [l])
      .next (ls.foldl (fun s l => s.retireLane l 2) { s2 with lanes := { s2.lanes with fecBad := SMap.set [] s2.lanes.fecBad g [] } })
    else .next s2

/-- A read of LN_GRPg_FEC: a normal read clears the counts. -/
def State.fecRead (s : State) (src : Src) (g : Nat) : Word32 × State :=
  let w := s.readReg .lnGrpFec [g]
  (w, if src.peeks then s else s.setReg .lnGrpFec [g] 0#32)

def execFecCountRead (src : Src) (g : Fin 10) (s : State) : Out :=
  let (w, s1) := s.fecRead src g
  .next (s1.answerWord src w)

/-! ## Host link (R456, R457) -/

/-- Mailbox vectors toward the host that waited for the data link layer leave (R494). -/
def State.mbxFlush (s : State) : State :=
  (List.range 32).foldl (fun s c =>
    let m := SMap.get default s.mbx c
    if m.owed then ({ s with mbx := SMap.set default s.mbx c { m with owed := false } } : State).sendMsix (16 + c) else s) s

/-- HOST_LINK_STATE_CHANGE: the link partner moves the link up or down, between L0, L1 and L2, or the function between
D0 and D3hot. With hl_dis 1 there is no host link (R334). -/
def execHostLinkStateChange (up flit : Bool) (speed : Fin 7) (width : Fin 17) (link : Fin 3) (d3hot : Bool) (s : State) : Out :=
  if s.flag F.pciStat_hlDis [] || s.pins.perst || !s.runs 10 then .next s
  else
    let s1 := ((s.put F.pciStat_dlUp [] (b2n up)).put F.pciStat_flit [] (b2n (up && flit))).put F.pciStat_speed [] (if up then speed else 0)
    let w := min width.val (linkWidth (s.get F.pciStat_laneBad []))
    let s2 := s1.put F.pciStat_width [] (if up then w else 0)
    let s3 := ({ s2 with lanes := { s2.lanes with linkState := link, d3hot := d3hot } } : State)
    .next (if up then s3.mbxFlush else s3)

/-- A total reference loss, trip or full load makes the transmitters idle; each lane in use adapts again (R445, R455, R57). -/
def State.lanesRestart (s : State) : State :=
  (List.range 40).foldl (fun s l => if s.stage l = .data ∨ s.stage l = .lost then s.adaptLane l else s) s

end Sys2Proof.Machine
end

