-- ==== Sys2Proof/Machine/Fabric.lean ====
section
/-!
DEFINITION. Sys2Proof/Machine/Fabric.lean: where clusters, blocks and frames lie (R209, R230, R311, R313), the settings of logic
cells and clusters, the flip-flops, and the clocks of a fabric die (R206 to R209, R223 to R229).
-/

namespace Sys2Proof.Machine

/-! ## Where things lie -/

/-- Clusters are numbered 256 x + y within a die (column x, row y, R209). -/
def clusterKey (d cl : Nat) : Nat := 131072 * d + cl

/-- The flask, within its die, of a cluster (R311). -/
def flaskOfCluster (cl : Nat) : Nat := cl / 256 / 128 + 4 * (cl % 256 / 64)

/-- The flask of a block RAM: block 160 s + 32 k + r lies in section s, rows 8 r to 8 r + 7 (R230). -/
def flaskOfBram (b : Nat) : Nat := b / 160 / 4 + 4 * (b % 32 / 8)

/-- The flask of a MAC24 block: block 384 s + 128 k + q lies in section s, rows 2 q and 2 q + 1 (R230). -/
def flaskOfMac (b : Nat) : Nat := b / 384 / 4 + 4 * (b % 128 / 32)

/-- The attached cluster of a block RAM in its row r of 8, and of a MAC24 in its row r of 2 (R230, R231). -/
def bramCluster (b r : Nat) : Nat := 256 * (32 * (b / 160) + 4 + 6 * (b % 160 / 32)) + 8 * (b % 32) + r
def macCluster (b r : Nat) : Nat :=
  let k := b % 384 / 128
  256 * (32 * (b / 384) + (if k = 2 then 25 else 7 + 12 * k)) + 2 * (b % 128) + r

/-- The block that a cluster is attached to: a block RAM, a MAC24, or none (R230, R231). -/
def bramAt (cl : Nat) : Option Nat :=
  let x := cl / 256
  if 4 ≤ x % 32 ∧ x % 32 ≤ 28 ∧ (x % 32 - 4) % 6 = 0 then some (160 * (x / 32) + 32 * ((x % 32 - 4) / 6) + cl % 256 / 8) else none
def macAt (cl : Nat) : Option Nat :=
  let x := cl / 256
  let at_ (k : Nat) : Option Nat := some (384 * (x / 32) + 128 * k + cl % 256 / 2)
  if x % 32 = 7 then at_ 0 else if x % 32 = 19 then at_ 1 else if x % 32 = 25 then at_ 2 else none

/-- The flask that a frame of a die belongs to, and whether it is a content frame (R313); none for die-global frames. -/
def flaskOfFrame (f : Nat) : Option Nat := if f < 47104 then some (f / 2944) else none
def contentFrame (f : Nat) : Bool := f < 47104 && 2224 ≤ f % 2944

/-- The region whose source FTL_RSRCr gives: a flask, or the die-global frames (R327). -/
def regionOfFrame (d f : Nat) : Nat :=
  match flaskOfFrame f with
  | some k => 16 * d + k
  | none => 64 + d

/-- A blank frame. -/
def blankFrame : List Byte := List.replicate 2048 0#8

/-- A configuration frame as stored. -/
def State.frame (s : State) (d f : Nat) : List Byte := SMap.get blankFrame s.fab.frames (49152 * d + f)

/-- Replace a configuration frame. -/
def State.setFrame (s : State) (d f : Nat) (b : List Byte) : State :=
  { s with fab := { s.fab with frames := SMap.set blankFrame s.fab.frames (49152 * d + f) b } }

/-- The logic frames of a flask, and the die-global frames of a die (R312, R313). -/
def State.logicFrames (s : State) (d k : Nat) : SMap (List Byte) :=
  List.filter (fun e => decide (49152 * d + 2944 * k ≤ e.1 ∧ e.1 < 49152 * d + 2944 * k + 2224)) s.fab.frames
def State.globalFrames (s : State) (d : Nat) : SMap (List Byte) :=
  List.filter (fun e => decide (49152 * d + 47104 ≤ e.1 ∧ e.1 < 49152 * (d + 1))) s.fab.frames

/-- Whether the isolation of a flask is engaged (R315). -/
def State.isolated (s : State) (d k : Nat) : Bool := s.flag F.ftlFlask_iso [16 * d + k]

/-! ## The logic cell (R206 to R208) -/

/-- The configuration fields of one logic cell; `stage` is the wide-multiplexer stage that ob = MUX shows (R213). -/
structure CellCfg where
  mask : BitVec 64
  dual : Bool
  da : Nat
  dbBypass : Bool
  oa : Nat
  ob : Nat
  ceEn : List Bool
  srEn : List Bool
  srVal : List Bool
  init : List Bool
  stage : Nat
deriving DecidableEq, Repr, Inhabited

/-- The settings of a cell, from the logic frames of a flask (log entry 20: the place of each field is the model's). -/
def cellCfgOf (fr : SMap (List Byte)) (d cl cell : Nat) : CellCfg :=
  let b := Config.cellFrameBits fr d (32 * cl + cell)
  let n := b.toNat
  { mask := b.extractLsb' 0 64, dual := b.getLsbD 64, da := bitsOf n 66 65, dbBypass := b.getLsbD 67,
    oa := bitsOf n 69 68, ob := bitsOf n 71 70, ceEn := [b.getLsbD 72, b.getLsbD 73], srEn := [b.getLsbD 74, b.getLsbD 75],
    srVal := [b.getLsbD 76, b.getLsbD 77], init := [b.getLsbD 78, b.getLsbD 79], stage := bitsOf n 82 80 }
def State.cellCfg (s : State) (d cl cell : Nat) : CellCfg := cellCfgOf (s.logicFrames d (flaskOfCluster cl)) d cl cell

/-- Whether the result of multiplexer stage k (1 M2 to 5 M32) leaves on output OB of a cell (R213). -/
def muxStage (cell k : Nat) : Bool := 1 ≤ k && k ≤ 5 && (cell + 1) % 2 ^ k == 0

/-- The combinations that the loader refuses: FFB from the A6 bypass outside dual mode, ob = MUX in a cell without a multiplexer
output (R207, R208). -/
def CellCfg.illegal (c : CellCfg) (cell : Nat) : Bool :=
  (c.dbBypass && !c.dual) || (decide (2 ≤ c.ob) && !muxStage cell c.stage)

/-- O6 (R206): any function of A1 to A6, or in dual mode the upper half of the mask at A1 to A5. -/
def CellCfg.o6 (c : CellCfg) (a : Nat) : Bool :=
  if c.dual then c.mask.getLsbD (32 + a % 32) else c.mask.getLsbD (a % 64)

/-- O5 (R206): the lower half of the mask in dual mode; a single-mode cell has no stated O5, `free` stands for it. -/
def CellCfg.o5 (c : CellCfg) (free : Bool) (a : Nat) : Bool := if c.dual then c.mask.getLsbD (a % 32) else free

/-- SR kind by half and carry source of a cluster: 0 constant 0, 1 constant 1, 2 CI, 3 co of the cluster to the north (R212). -/
structure ClusterCfg where
  async : List Bool
  carry : Nat
deriving DecidableEq, Repr, Inhabited

def State.clusterCfg (s : State) (d cl : Nat) : ClusterCfg :=
  let b := Config.clusterFrameBits (s.logicFrames d (flaskOfCluster cl)) d cl
  { async := [b.getLsbD 0, b.getLsbD 1], carry := bitsOf b.toNat 3 2 }

/-- Carry-out of a cell (R212). -/
def carryOut (o6 o5 ci : Bool) : Bool := if o6 then ci else o5

/-- What the signals of one cell are with its inputs given. -/
structure CellSig where
  a6 : Bool
  o6 : Bool
  o5 : Bool
  sum : Bool
deriving DecidableEq, Repr, Inhabited

/-- The D input of FFA (R207): O6, SUM or the A6 bypass; of FFB: O5 or the A6 bypass. -/
def CellCfg.dA (c : CellCfg) (x : CellSig) : Bool := match c.da with
  | 0 => x.o6
  | 1 => x.sum
  | _ => x.a6
def CellCfg.dB (c : CellCfg) (x : CellSig) : Bool := if c.dbBypass then x.a6 else x.o5

/-- The result of stage k (1 M2 to 5 M32) that ends at a cell (R213): it combines two results of the stage before; `sel` gives the
select of a stage at a cell. Select 0 takes the lower cells. -/
def wideMux (o6 : Nat → Bool) (sel : Nat → Nat → Bool) (cell : Nat) : Nat → Bool
  | 0 => o6 cell
  | k + 1 => if sel k cell then wideMux o6 sel cell k else wideMux o6 sel (cell - 2 ^ k) k

/-! ## Flip-flops (R223) -/

/-- A flip-flop: half of its cell, 0 FFA and 1 FFB. -/
def ffKey (d cl cell b : Nat) : Nat := 64 * clusterKey d cl + 2 * cell + b

/-- Q of a flip-flop. -/
def State.ff (s : State) (d cl cell b : Nat) : Bool :=
  SMap.get ((s.cellCfg d cl cell).init.getD b false) s.fab.ffs (ffKey d cl cell b)

/-- Set Q of a flip-flop. -/
def State.setFf (s : State) (d cl cell b : Nat) (v : Bool) : State :=
  { s with fab := { s.fab with
    ffs := SMap.set ((s.cellCfg d cl cell).init.getD b false) s.fab.ffs (ffKey d cl cell b) v } }

/-- Whether a Tarod instance runs on a die. -/
def State.tarodOn (s : State) (d : Nat) : Bool := s.flag F.glbTarod_active [] && s.get F.glbTarod_die [] + 2 == d

/-- Whether a Tarod instance's global set/reset input holds the flip-flops of a die (R349). -/
def State.legacyGsr (s : State) (d : Nat) : Bool := s.tarodOn d && s.flag F.glbTarod_gsr []

/-- Whether global set/reset is asserted at a cluster: for the die, for its flask (R316), or by a legacy design (R349). -/
def State.gsrAt (s : State) (d cl : Nat) : Bool :=
  !s.fab.gsrOff.contains d || s.fab.flaskHeld.contains (16 * d + flaskOfCluster cl) || s.legacyGsr d

/-- Whether global write enable is 1 in a flask of a die, and at a cluster. -/
def State.gweIn (s : State) (d k : Nat) : Bool := s.fab.gwe.contains d && !s.fab.flaskOff.contains (16 * d + k)
def State.gweAt (s : State) (d cl : Nat) : Bool := s.gweIn d (flaskOfCluster cl)

/-- The next Q of a flip-flop at a clock edge of its half, by the precedence of R223; `sr` is the level of its half's SR input and
`ce` that of its group's clock enable. -/
def State.ffNext (s : State) (d cl cell b : Nat) (sr ce dIn : Bool) : Bool :=
  let c := s.cellCfg d cl cell
  let q := s.ff d cl cell b
  if s.gsrAt d cl then c.init.getD b false
  else if !s.gweAt d cl then q
  else if c.srEn.getD b false && sr then c.srVal.getD b false
  else if c.ceEn.getD b false && !ce then q
  else dIn

/-- Flip-flops of the clusters that `p` names return to init (R223). -/
def State.initFfs (s : State) (p : Nat → Nat → Bool) : State :=
  { s with fab := { s.fab with ffs := SMap.clear s.fab.ffs (fun k => p (k / 64 / 131072) (k / 64 % 131072)) } }

/-! ## Global and regional clocks (R224 to R229) -/

/-- A global clock network; the image selects the source of an unlisted one. -/
def State.gclock (s : State) (d g : Nat) : GclkSt :=
  SMap.get ⟨Config.networkSource (s.globalFrames d) d g, true, true, none⟩ s.fab.gclk (32 * d + g)

/-- The figures of a fabric PLL, and the frequency in kHz of one of its outputs: 100 MHz * M / (D * O); 0 where the figures leave
the limits of R225 (log entry 105). -/
def State.pll (s : State) (d f : Nat) : PllCfg := Config.pllSettings (s.globalFrames d) d f
def pllKhz (c : PllCfg) (out : Nat) : Nat :=
  let o := c.o.getD out 0
  let vco := 100000 * c.m / c.d
  if 8 ≤ c.m ∧ c.m ≤ 128 ∧ 1 ≤ c.d ∧ c.d ≤ 4 ∧ 1 ≤ o ∧ o ≤ 128 ∧ 1600000 ≤ vco ∧ vco ≤ 4000000 ∧
      100000 * c.m / (c.d * o) ≤ 1600000 then 100000 * c.m / (c.d * o) else 0

/-- Whether a fabric PLL output runs: it follows the host reference, and on a Tarod die its pin clock (R225, R338). It is also the
lock signal that the output gives to fabric logic. -/
def State.pllRuns (s : State) (d f out : Nat) : Bool :=
  s.clocked && !s.fab.pllOff.contains (8 * d + f) && pllKhz (s.pll d f) out != 0

/-- Whether a source of a network runs; `ext` says whether a pin or a clock made by logic toggles. -/
def State.sourceRuns (s : State) (d : Nat) (src : ClockSource) (ext : Bool) : Bool :=
  match src with
  | .pll f o => s.pllRuns d f o
  | .lane l _ => s.laneKhz l != 0
  | _ => ext

/-- A change of source and enable of a network completes where both its sources run; otherwise it waits, and the output holds low
(R224). -/
def State.settleNet (s : State) (d g : Nat) : State :=
  let x := s.gclock d g
  match x.want with
  | none => s
  | some (src, en, ext) =>
    let old := match x.src with
      | some o => s.sourceRuns d o x.ext
      | none => true
    if old && s.sourceRuns d src ext then
      { s with fab := { s.fab with gclk := SMap.insert s.fab.gclk (32 * d + g) ⟨some src, en, ext, none⟩ } }
    else s

/-- GLOBAL_CLOCK_SWITCH: a change of source or enable of network g; `oldRuns` and `newRuns` say whether a pin or a clock made by
logic toggles, where the old or the new source is one (R224). -/
def execGlobalClockSwitch (d : Fin 4) (g : Fin 32) (src : ClockSource) (en oldRuns newRuns : Bool) (s : State) : Out :=
  let x := s.gclock d g
  let s1 := ({ s with fab := { s.fab with
    gclk := SMap.insert s.fab.gclk (32 * d.val + g.val) { x with ext := oldRuns, want := some (src, en, newRuns) } } } : State)
  .next (s1.settleNet d g)

/-- The waiting changes whose sources have come to run complete. -/
def State.settleNets (s : State) : State :=
  s.fab.gclk.foldl (fun s e => if e.2.want.isSome then s.settleNet (e.1 / 32) (e.1 % 32) else s) s

/-- The frequency in kHz of global network n of the device (32 * die + g); 0 where it stands. Its enable from fabric logic is
judged apart (R224). -/
def State.gclkKhz (s : State) (n : Nat) : Nat :=
  let d := n / 32
  let x := s.gclock d (n % 32)
  if !s.clocked || !x.en || x.want.isSome then 0
  else
    match x.src with
    | some (.pll f o) => if s.pllRuns d f o then pllKhz (s.pll d f) o else 0
    | some (.lane l _) => s.laneKhz l
    | some (.pin p) => if x.ext then Config.pinKhz d p else 0
    | some (.fabric cl o) => if x.ext then Config.logicKhz d cl o else 0
    | none => 0

/-- Whether the source and the selector of network g of a die let it run. -/
def State.netRuns (s : State) (d g : Nat) : Bool :=
  let x := s.gclock d g
  s.clocked && x.en && x.want.isNone && (match x.src with
    | some src => s.sourceRuns d src x.ext
    | none => false)

/-- Whether the two networks of a group clock are driven, on both dies of the edge, by fabric PLL outputs with equal M, D and O
(R264). -/
def State.groupClockOk (s : State) (edge net : Nat) : Bool :=
  let figures (d : Nat) : Option (Nat × Nat × Nat) :=
    match Config.networkSource (s.globalFrames d) d net with
    | some (.pll f o) => let c := s.pll d f; some (c.m, c.d, c.o.getD o 0)
    | _ => none
  (figures (edgeDies edge).1).isSome && figures (edgeDies edge).1 == figures (edgeDies edge).2

end Sys2Proof.Machine
end

