-- ==== Sys2Proof/Machine/Queues.lean ====
section
/-!
DEFINITION. Sys2Proof/Machine/Queues.lean: stream queues, their packet mode, flags and register ports (R170 to R185,
R190, R195).
-/

namespace Sys2Proof.Machine

/-! ## Settings and sizes -/

/-- Whether queue q of die d is enabled, in packet mode, a riser queue since it was last enabled; its riser; its direction (R100,
R170, R192). -/
def State.sqEn (s : State) (d q : Nat) : Bool := s.flag F.waSqCfg_en [d, q]
def State.sqPkt (s : State) (d q : Nat) : Bool := s.flag F.waSqCfg_pkt [d, q]
def State.sqRiser (s : State) (d q : Nat) : Bool := (s.queue d q).rslot.isSome
def State.sqSlot (s : State) (d q : Nat) : Nat := (s.queue d q).rslot.getD 0
def State.egress (s : State) (d q : Nat) : Bool := s.flag F.waPortCfg_dir [d, q]

/-- A riser. -/
def State.riser (s : State) (d i : Nat) : RiserSt := SMap.get default s.risers (32 * d + i)
def State.setRiser (s : State) (d i : Nat) (x : RiserSt) : State :=
  { s with risers := SMap.set default s.risers (32 * d + i) x }

/-- Beats a riser's tail and head each hold (R192). -/
def riserSide : Nat := 1024

/-- Beats the spill region of a riser holds (R192). -/
def State.midCap (s : State) (d i : Nat) : Nat := 2 ^ (s.get F.waRsCfg_size [d, i]) / 16

/-- The depth of a queue in beats (R171). -/
def State.sqDepth (s : State) (d q : Nat) : Nat := 1024 * 2 ^ s.get F.waSqCfg_depth [d, q]

/-- The 144-bit word of a beat: 16 bytes and their parity bits (R171). -/
def beatWord (b : Beat) : BitVec 144 := b.par ++ b.data

/-- The beats after the first n leave; the block RAM places they stood in go on holding their words. -/
def QueueSt.keep (x : QueueSt) (depth n : Nat) : QueueSt :=
  { x with
    beats := x.beats.take n,
    old := (List.range (x.beats.length - n)).foldl (fun m k =>
      match x.beats[n + k]? with
      | some b => SMap.insert m ((x.rptr + n + k) % depth) (beatWord b)
      | none => m) x.old }

/-- The oldest beat leaves. -/
def QueueSt.pop (x : QueueSt) (depth : Nat) : QueueSt :=
  match x.beats with
  | [] => x
  | b :: rest => { x with beats := rest, old := SMap.insert x.old (x.rptr % depth) (beatWord b), rptr := (x.rptr + 1) % depth }

/-- The beats of a queue that keeps them in block RAM. -/
def State.ramBeats (s : State) (d q : Nat) : List Beat := if s.sqRiser d q then [] else (s.queue d q).beats

/-- The word at a place of a queue's block RAMs: that of the beat stored there, or what the place last held; none where nothing
has been written there (R171). -/
def State.queueWord (s : State) (d q pos : Nat) : Option (BitVec 144) :=
  let n := s.sqDepth d q
  let x := s.queue d q
  match (s.ramBeats d q)[(pos + n - x.rptr % n) % n]? with
  | some b => some (beatWord b)
  | none => SMap.find? x.old pos

/-- Overwrite the word at a place of a queue's block RAMs; its last bit and bad mark lie elsewhere (R171). -/
def State.setQueueWord (s : State) (d q pos : Nat) (w : BitVec 144) : State :=
  let n := s.sqDepth d q
  let x := s.queue d q
  let i := (pos + n - x.rptr % n) % n
  if i < (s.ramBeats d q).length then
    s.setQueue d q { x with beats := x.beats.modify i (fun b => { b with data := w.setWidth 128, par := w.extractLsb' 128 16 }) }
  else s.setQueue d q { x with old := SMap.insert x.old pos w }

/-- The capacity an open packet may fill (R179). -/
def State.sqCap (s : State) (d q : Nat) : Nat :=
  if s.sqRiser d q then riserSide + s.midCap d (s.sqSlot d q) else s.sqDepth d q

/-- Beats a queue stores, in all its parts. -/
def State.sqStored (s : State) (d q : Nat) : Nat :=
  let x := s.queue d q
  if s.sqRiser d q then
    let r := s.riser d (s.sqSlot d q)
    x.beats.length + r.mid.length + r.tail.length
  else x.beats.length

/-- The write side's full flag (R174 to R176, R195): its own view, in which reads it does not yet see still occupy. -/
def State.sqFull (s : State) (d q : Nat) : Bool :=
  let x := s.queue d q
  x.flushing || (if s.sqRiser d q then decide (riserSide ≤ (s.riser d (s.sqSlot d q)).tail.length)
    else decide (s.sqDepth d q ≤ x.beats.length + x.unseenR))

/-- Beats visible to the read side (R173, R175, R177). -/
def State.sqVisible (s : State) (d q : Nat) : Nat :=
  let x := s.queue d q
  if x.flushing then 0
  else if s.sqRiser d q then x.beats.length - x.unseenW
  else (if s.sqPkt d q then min x.commit x.beats.length else x.beats.length) - x.unseenW

/-- The write-side level (R175). -/
def State.sqWriteLevel (s : State) (d q : Nat) : Nat := s.sqStored d q + (s.queue d q).unseenR

/-- The almost-full flag (R175). -/
def State.sqAlmost (s : State) (d q : Nat) : Bool :=
  let a := s.get F.waSqCfg_afull [d, q]
  a != 0 && decide (64 * a ≤ s.sqWriteLevel d q)

/-! ## PANIC (R190, R369) -/

/-- The NoC master of a die's stream DMA engine for queue q (R186, R362). -/
def dmaMaster (d q : Nat) : Nat := 48 + 2 * d + q / 32

/-- Whether the channel of queue q raises PANIC: the queue holds too few beats, in all its parts. -/
def State.channelPanic (s : State) (d q : Nat) : Bool :=
  s.flag F.waDmCtrl_run [d, q] && s.flag F.waDmCtrl_rt [d, q] && !s.egress d q &&
    decide (s.sqStored d q < 64 * s.get F.waDmCtrl_panicThr [d, q])

/-- Set the PANIC level of a fabric master port in NOC_PANIC_LO or NOC_PANIC_HI (R369). -/
def State.setPanic (s : State) (m : Nat) (b : Bool) : State :=
  let n := if m < 32 then RegName.nocPanicLo else .nocPanicHi
  let w := s.reg n []
  let bit := BitVec.ofNat 32 (2 ^ (m % 32))
  s.setReg n [] (if b then w ||| bit else w &&& ~~~bit)

/-- The PANIC level of a stream DMA engine, 48 to 55: that of its channels. -/
def State.enginePanic (s : State) (m : Nat) : Bool :=
  (List.range 32).any (fun i => s.channelPanic ((m - 48) / 2) (32 * (m % 2) + i))

/-- The PANIC level of a master (R369): fabric master ports and stream DMA engines can raise it. -/
def State.masterPanic (s : State) (m : Nat) : Bool :=
  if m < 32 then (s.reg .nocPanicLo []).getLsbD m
  else if m < 48 then (s.reg .nocPanicHi []).getLsbD (m - 32)
  else if m < 56 then s.enginePanic m
  else false

/-- What NOC_PANIC_HI shows: the levels of masters 32 to 63. -/
def State.panicHi (s : State) : Word32 :=
  BitVec.ofNat 32 ((List.range 32).foldl (fun t i => t + 2 ^ i * b2n (s.masterPanic (32 + i))) 0)

/-! ## Moving beats -/

/-- Beats of a riser pass straight from tail to head while its middle is empty and the head has room; only committed
beats move in packet mode (R193, R194). -/
def State.riserPass (s : State) (d q : Nat) : State :=
  let i := s.sqSlot d q
  let r := s.riser d i
  let x := s.queue d q
  if s.sqRiser d q && r.mid.isEmpty && r.flight.isEmpty && !s.flag F.waRsStat_spilling [d, i] then
    let room := riserSide - x.beats.length
    let may := if s.sqPkt d q then x.commit - x.beats.length else r.tail.length
    let n := min (min room may) r.tail.length
    let s := s.setRiser d i { r with tail := r.tail.drop n }
    s.setQueue d q { x with beats := x.beats ++ r.tail.take n, unseenW := x.unseenW + n }
  else s

/-- Store a beat on the write side. -/
def State.sqStore (s : State) (d q : Nat) (b : Beat) : State :=
  if s.sqRiser d q then
    let i := s.sqSlot d q
    let r := s.riser d i
    s.setRiser d i { r with tail := r.tail ++ [b] }
  else
    let x := s.queue d q
    s.setQueue d q { x with beats := x.beats ++ [b] }

/-- Return the write pointer to the commit pointer: the open packet's beats leave (R178, R194). -/
def State.sqRewind (s : State) (d q : Nat) : State :=
  let x := s.queue d q
  let s := s.raise F.waSqStat_rewound [d, q]
  if s.sqRiser d q then
    let i := s.sqSlot d q
    let r := s.riser d i
    let keep := x.commit - x.beats.length
    let mid := r.mid.take keep
    let tail := r.tail.take (keep - r.mid.length)
    let flight := if tail.length < r.tail.length then r.flight.filter (fun f => !f.write) else r.flight
    let s := s.setRiser d i { r with mid := mid, tail := tail, flight := flight, wptr := r.rptr + 16 * mid.length }
    if mid.isEmpty && flight.isEmpty then s.put F.waRsStat_spilling [d, i] 0 else s
  else s.setQueue d q (x.keep (s.sqDepth d q) x.commit)

/-- Mark the open packet bad with a beat that carries `last` or not (R178). -/
def State.sqMarkBad (s : State) (d q : Nat) (last : Bool) : State :=
  let s := s.sqRewind d q
  s.setQueue d q { s.queue d q with dropping := !last, open_ := !last }

/-- What becomes of an offered beat. -/
inductive Offer where
  | taken | full | disabled
deriving DecidableEq, Repr

/-- Offer a beat to a queue's write side (R172 to R180). -/
def State.sqOffer (s : State) (d q : Nat) (b : Beat) (bad : Bool) : Offer × State :=
  let x := s.queue d q
  if !s.sqEn d q then (.disabled, s)
  else if x.flushing then (.full, s)
  else if s.sqPkt d q && x.dropping then
    (.taken, s.setQueue d q { x with dropping := !b.last, open_ := !b.last })
  else if s.sqFull d q then (.full, s)
  else
    let s := if b.parOk then s else s.raise F.waSqStat_parErr [d, q]
    if s.sqPkt d q then
      if bad || !b.parOk then (.taken, s.sqMarkBad d q b.last)
      else
        let s := s.sqStore d q b
        let n := s.sqStored d q
        if b.last then
          let x := s.queue d q
          let fresh := if s.sqRiser d q then 0 else n - x.commit
          let s := s.setQueue d q { x with commit := n, open_ := false, unseenW := x.unseenW + fresh }
          (.taken, s.riserPass d q)
        else
          let s := s.setQueue d q { s.queue d q with open_ := true }
          if s.sqCap d q ≤ n - (s.queue d q).commit then
            (.taken, (s.sqMarkBad d q false).raise F.waSqStat_oversize [d, q])
          else (.taken, s.riserPass d q)
    else
      let s := s.sqStore d q b
      let x := s.queue d q
      let s := if s.sqRiser d q then s else s.setQueue d q { x with unseenW := x.unseenW + 1 }
      (.taken, s.riserPass d q)

/-- Take the beat at the head of the read side, if one is visible (R173, R174). -/
def State.sqTake (s : State) (d q : Nat) : Option Beat × State :=
  if !s.sqEn d q || s.sqVisible d q == 0 then (none, s)
  else
    let x := s.queue d q
    match x.beats with
    | [] => (none, s)
    | b :: rest =>
      let s := if b.parOk then s else s.raise F.waSqStat_parErr [d, q]
      let y := if s.sqRiser d q then { x with beats := rest } else x.pop (s.sqDepth d q)
      let s := s.setQueue d q { y with commit := x.commit - 1, unseenR := x.unseenR + 1 }
      (some b, s.riserPass d q)

/-- The beat at the head of the read side (R184). -/
def State.sqHead (s : State) (d q : Nat) : Option Beat :=
  if !s.sqEn d q || s.sqVisible d q == 0 then none else (s.queue d q).beats.head?

/-! ## Commands -/

/-- Whether the flask that owns the interface of a fabric-attached queue is isolated: s_valid and m_ready are then 0 (R183). -/
def State.sqIsolated (s : State) (d q : Nat) : Bool :=
  s.flag F.ftlFlask_iso [16 * d + s.get F.waSqCfg_flask [d, q]]

/-- Whether a beat can pass between a queue and fabric logic at an edge of the interface's clock: the queue is fabric-attached and
the clock is one of the die's, which stands while the fabric domain is stopped (R182, R183, R228). -/
def State.sqFabric (s : State) (d q : Nat) : Bool :=
  s.get F.waSqCfg_attach [d, q] == 0 && !s.sqIsolated d q && s.runs (12 + d)

/-- QUEUE_WRITE: fabric logic offers a beat (R182); a fabric-attached ingress queue. Only data, parity, last and bad enter. -/
def execQueueWrite (d : Fin 4) (q : Fin 64) (b : Beat) (bad : Bool) (s : State) : Out :=
  if s.sqFabric d q && !s.egress d q then .next (s.sqOffer d q { b with err := false } bad).2 else .next s

/-- QUEUE_READ: the fabric takes a visible beat (R182); m_err says parity failed in storage or spill. -/
def execQueueRead (d : Fin 4) (q : Fin 64) (s : State) : Out :=
  if s.sqFabric d q && s.egress d q then
    match s.sqTake d q with
    | (some b, s) => .next (s.emit (.beat d q b (b.err || !b.parOk)))
    | (none, s) => .next s
  else .next s

/-- QUEUE_FLUSH: full and empty are forced and the wait of R176 starts. -/
def State.sqFlush (s : State) (d q : Nat) : State := s.setQueue d q { s.queue d q with flushing := true }

def execQueueFlush (src : Src) (d : Fin 4) (q : Fin 64) (s : State) : Out := .next (s.regAct src .waSqCfg [d, q] (F.waSqCfg_flush.put (s.reg .waSqCfg [d, q]) 1) (·.sqFlush d q))

/-- A riser without contents, not degraded. -/
def State.emptyRiser (s : State) (d i : Nat) : State :=
  ((s.setRiser d i default).put F.waRsStat_spilling [d, i] 0).put F.waRsStat_degraded [d, i] 0

/-- QUEUE_FLUSH_RELEASE: pointers zeroed, the open packet discarded, flags released; a riser's middle is emptied and it
is no longer degraded (R176, R195, R197). -/
def execQueueFlushRelease (d : Fin 4) (q : Fin 64) (s : State) : Out :=
  let x := s.queue d q
  if x.flushing then
    match x.rslot with
    | some i => .next ((s.setQueue d q { (default : QueueSt) with old := x.old, rslot := some i }).emptyRiser d i)
    | none =>
      .next (s.setQueue d q { (default : QueueSt) with old := (x.keep (s.sqDepth d q) 0).old })
  else .next s

/-- Whether an enabled queue other than q uses riser i. -/
def State.riserTaken (s : State) (d q i : Nat) : Bool :=
  (List.range 64).any (fun j => j != q && s.sqEn d j && (s.queue d j).rslot == some i)

/-- Whether a riser queue may be enabled (R192). -/
def State.riserOk (s : State) (d q i : Nat) : Bool :=
  let size := s.get F.waRsCfg_size [d, i]
  let base := s.pair .waRsBaseLo .waRsBaseHi [d, i]
  16 ≤ size && size ≤ 30 && base % 2 ^ size == 0 && 0x010000000000 ≤ base && base + 2 ^ size ≤ 0x010C00000000 &&
    !s.riserTaken d q i

/-- The riser that the settings of a queue name. -/
def State.sqNamed (s : State) (d q : Nat) : Option Nat :=
  if s.flag F.waSqCfg_riser [d, q] then some (s.get F.waSqCfg_rslot [d, q]) else none

/-- A queue becomes active with the storage its settings name (R192). One that changes its storage starts empty, as does the riser
it takes, which a disabled queue then gives up (DESIGN CHOICE, log entry 100). -/
def State.sqEnable (s : State) (d q : Nat) : State :=
  let x := s.queue d q
  let want := s.sqNamed d q
  let s := s.put F.waSqCfg_en [d, q] 1
  if x.rslot = want then s.setQueue d q { x with dropping := false, open_ := false }
  else
    let old := if x.rslot.isSome then x.old else (x.keep (s.sqDepth d q) 0).old
    let s := match want with
      | some i =>
        ((List.range 64).foldl (fun (s : State) j =>
          if j ≠ q ∧ (s.queue d j).rslot = some i then s.setQueue d j { (default : QueueSt) with old := (s.queue d j).old } else s)
          s).emptyRiser d i
      | none => s
    s.setQueue d q { (default : QueueSt) with old := old, rslot := want }

/-- A write to WA_SQn_CFG (R172, R176, R192): the settings it may change, whether it enables, and refusals. -/
def State.sqConfig (s : State) (d q : Nat) (w : Word32) : State :=
  let was := s.sqEn d q
  let changes := F.waSqCfg_pkt.of w != s.get F.waSqCfg_pkt [d, q] || F.waSqCfg_riser.of w != s.get F.waSqCfg_riser [d, q]
    || F.waSqCfg_rslot.of w != s.get F.waSqCfg_rslot [d, q]
  let s := s.put F.waSqCfg_afull [d, q] (F.waSqCfg_afull.of w)
  let s := if was then (if changes then s.raise F.waSqStat_cfgErr [d, q] else s)
    else ((s.put F.waSqCfg_pkt [d, q] (F.waSqCfg_pkt.of w)).put F.waSqCfg_riser [d, q] (F.waSqCfg_riser.of w)).put
      F.waSqCfg_rslot [d, q] (F.waSqCfg_rslot.of w)
  let s :=
    if F.waSqCfg_en.of w = 0 then s.put F.waSqCfg_en [d, q] 0
    else if was then s
    else if s.held d || (s.sqNamed d q).any (fun i => !s.riserOk d q i) then s.raise F.waSqStat_cfgErr [d, q]
    else s.sqEnable d q
  if F.waSqCfg_flush.of w = 1 then s.sqFlush d q else s

def execQueueConfigWrite (src : Src) (d : Fin 4) (q : Fin 64) (w : Word32) (s : State) : Out :=
  .next (s.regAct src .waSqCfg [d, q] w (·.sqConfig d q w))

/-- The word RDk of a queue shows (R184). -/
def State.sqRdWord (s : State) (d q k : Nat) : Word32 :=
  match s.sqHead d q with
  | some b => b.data.extractLsb' (32 * k) 32
  | none => 0#32

/-- A read of RD3: pops only a register-attached egress queue, with avail 1, by a normal read (R184). -/
def State.sqPop (s : State) (src : Src) (d q : Nat) : Word32 × State :=
  let w := s.sqRdWord d q 3
  if s.get F.waSqCfg_attach [d, q] = 2 ∧ s.egress d q ∧ !src.peeks then (w, (s.sqTake d q).2) else (w, s)

def execQueueRegisterPop (src : Src) (d : Fin 4) (q : Fin 64) (s : State) : Out :=
  let (w, s1) := s.sqPop src d q
  .next (s1.answerWord src w)

/-- Whether WR0 to WR3 of a queue accept writes (R185). -/
def State.sqWritable (s : State) (d q : Nat) : Bool :=
  s.get F.waSqCfg_attach [d, q] == 2 && !s.egress d q && s.sqEn d q

/-- A write to WR3: the beat is pushed with fresh parity and WRCTL's marks, or RETRY where the queue is full (R185). -/
def State.sqPush (s : State) (d q : Nat) (w : Word32) : Resp × State :=
  if !s.sqWritable d q then (.aerr, s)
  else if s.sqFull d q && !(s.sqPkt d q && (s.queue d q).dropping && !(s.queue d q).flushing) then (.retry, s)
  else
    let data : BitVec 128 := w ++ s.reg .waSqWr [d, q, 2] ++ s.reg .waSqWr [d, q, 1] ++ s.reg .waSqWr [d, q, 0]
    let b : Beat := ⟨data, parOf16 data, s.flag F.waSqWrctl_last [d, q], false⟩
    let bad := s.flag F.waSqWrctl_bad [d, q]
    let s := (s.setReg .waSqWr [d, q, 3] w).setReg .waSqWrctl [d, q] 0#32
    (.ok, (s.sqOffer d q b bad).2)

def execQueueRegisterPush (src : Src) (d : Fin 4) (q : Fin 64) (w : Word32) (s : State) : Out :=
  let (c, s1) := s.sqPush d q w
  .next (s1.answer src c)

end Sys2Proof.Machine
end

