-- ==== Sys2Proof/Machine/Bram.lean ====
section
/-!
DEFINITION. Sys2Proof/Machine/Bram.lean: the block RAMs of a fabric die: shapes, the two codes, ports, collisions,
scrub and raw test access (R230 to R246).
-/

namespace Sys2Proof.Machine

/-- Settings of a block RAM: code, scrub, and by port (A, B) its shape code (0 72x1K, 1 36x2K, 2 18x4K, 3 9x8K), read-during-write
mode (0 write-first, 1 read-first, 2 keep), parity source (carry or generate), output register and clock; `queue` the stream queue
that R171 reserves the block for, and the block's number in that queue. -/
structure BramCfg where
  secded : Bool
  scrub : Bool
  queue : Option (Nat × Nat)
  shape : List Nat
  rdw : List Nat
  carry : List Bool
  outReg : List Bool
  clock : List ClockPick
deriving DecidableEq, Repr, Inhabited

/-- The settings of a block, from the logic frames of its flask (log entry 20: the place of each field is the model's). A block
reserved for a stream queue uses 72x1K, byte parity and carry on both ports (R242). -/
def State.bramCfg (s : State) (d blk : Nat) : BramCfg :=
  let fr := s.logicFrames d (flaskOfBram blk)
  let b := Config.bramFrameBits fr d blk
  let n := b.toNat
  let own := b.getLsbD 2
  let sec := b.getLsbD 0 && !own
  { secded := sec, scrub := b.getLsbD 1, queue := if own then some (bitsOf n 20 15, bitsOf n 25 21) else none,
    shape := if sec || own then [0, 0] else [bitsOf n 4 3, bitsOf n 6 5],
    rdw := [bitsOf n 8 7, bitsOf n 10 9], carry := if own then [true, true] else [b.getLsbD 11, b.getLsbD 12],
    outReg := [b.getLsbD 13, b.getLsbD 14], clock := [Config.bramClock fr d blk 0, Config.bramClock fr d blk 1] }
def BramCfg.reserved (c : BramCfg) : Bool := c.queue.isSome

/-- Bytes per port word (R234). -/
def BramCfg.width (c : BramCfg) (port : Nat) : Nat := 8 / 2 ^ (c.shape.getD port 0)

/-- Key of a block, and of a physical word. -/
def bramKey (d blk : Nat) : Nat := 2560 * d + blk
def bramWordKey (d blk w : Nat) : Nat := 1024 * bramKey d blk + w

/-- A byte of a 72-bit word with its ninth bit. -/
def lane72 (w : BitVec 72) (b : Nat) : BitVec 9 :=
  BitVec.ofNat 9 (bitsOf w.toNat (8 * b + 7) (8 * b) + 256 * b2n (w.getLsbD (64 + b)))

/-- A 72-bit word of eight bytes with their ninth bits. -/
def word72 (l : List (BitVec 9)) : BitVec 72 :=
  BitVec.ofNat 72 ((List.range 8).foldl (fun t b =>
    let v := (l.getD b 0#9).toNat
    t + 2 ^ (8 * b) * (v % 256) + 2 ^ (64 + b) * (v / 256)) 0)

/-- A word with the lanes `p` names taken from another. -/
def mergeLanes (p : Nat → Bool) (old new : BitVec 72) : BitVec 72 :=
  word72 ((List.range 8).map (fun b => if p b then lane72 new b else lane72 old b))

/-- The initial contents of a word (R236, R313): block b of a flask, in the order of block numbers, lies at byte 9,216 b of the
flask's content frames, nine bytes a word; under SEC-DED the loader computes the check bits. -/
def State.bramInit (s : State) (d blk w : Nat) : BitVec 72 :=
  let o := 9216 * ((blk / 160 % 4 * 5 + blk % 160 / 32) * 8 + blk % 8) + 9 * w
  let f := 2944 * flaskOfBram blk + 2224
  let v := leNat ((List.range 9).map (fun i => (s.frame d (f + (o + i) / 2048)).getD ((o + i) % 2048) 0#8))
  if (s.bramCfg d blk).secded then enc72 (v % 2 ^ 64) else BitVec.ofNat 72 v

/-- Where a word of a reserved block lies in its queue (log entry 102): block k of a queue holds half k % 2 of the beats at places
1,024 (k / 2) to 1,024 (k / 2) + 1,023. -/
def State.queuePlace (s : State) (d blk w : Nat) : Option (Nat × Nat × Nat) :=
  match (s.bramCfg d blk).queue with
  | some (q, k) =>
    let pos := 1024 * (k / 2) + w
    if pos < s.sqDepth d q then some (q, pos, k % 2) else none
  | none => none

/-- Half h of a stored beat as a physical word, and a beat with one half replaced. -/
def halfWord (b : BitVec 144) (h : Nat) : BitVec 72 := (b.extractLsb' (128 + 8 * h) 8) ++ (b.extractLsb' (64 * h) 64)
def putHalf (b : BitVec 144) (h : Nat) (v : BitVec 72) : BitVec 144 :=
  let other := halfWord b (1 - h)
  let lo := if h = 0 then v else other
  let hi := if h = 0 then other else v
  (hi.extractLsb' 64 8) ++ (lo.extractLsb' 64 8) ++ (hi.extractLsb' 0 64) ++ (lo.extractLsb' 0 64)

/-- A physical word as stored: a beat of the queue that the block is reserved for (R171), else what has been written, or the
initial contents (R236). -/
def State.bramWord (s : State) (d blk w : Nat) : BitVec 72 :=
  match s.queuePlace d blk w with
  | some (q, pos, h) =>
    match s.queueWord d q pos with
    | some b => halfWord b h
    | none => s.bramInit d blk w
  | none => SMap.get (s.bramInit d blk w) s.fab.bram (bramWordKey d blk w)

/-- Store a physical word. -/
def State.setBramWord (s : State) (d blk w : Nat) (v : BitVec 72) : State :=
  match s.queuePlace d blk w with
  | some (q, pos, h) => s.setQueueWord d q pos (putHalf ((s.queueWord d q pos).getD 0#144) h v)
  | none =>
    { s with fab := { s.fab with bram := SMap.set (s.bramInit d blk w) s.fab.bram (bramWordKey d blk w) v } }

/-- A port of a block. -/
def State.bramPort (s : State) (d blk port : Nat) : BramPort := SMap.get default s.fab.bramPorts (2 * bramKey d blk + port)
def State.setBramPort (s : State) (d blk port : Nat) (x : BramPort) : State :=
  { s with fab := { s.fab with bramPorts := SMap.set default s.fab.bramPorts (2 * bramKey d blk + port) x } }

/-- Location bytes of a block RAM event: block and word (R433). -/
def bramLoc (blk w : Nat) : List Byte := leBytes 2 blk ++ leBytes 2 w

/-- What a port delivers of a physical word, lanes `l0` to `l0 + n - 1`, with the checks, counts and log entry of R240
and R241. -/
def State.bramDeliver (s : State) (d blk port w l0 n : Nat) (v : BitVec 72) : BramOut × State :=
  if (s.bramCfg d blk).secded then
    match dec72 v with
    | .clean x => (⟨BitVec.ofNat 72 x, 0#8, false, false⟩, s)
    | .fixed x => (⟨BitVec.ofNat 72 x, 0#8, true, false⟩, s.bucket (16 * d + 4) (bramLoc blk w))
    | .bad x =>
      let s1 := s.bucket (16 * d + 5) (bramLoc blk w)
      (⟨BitVec.ofNat 72 x, 0#8, false, true⟩,
        s1.logEv d 2 0 0x0303 3 (leBytes 1 d ++ bramLoc blk w ++ leBytes 1 port))
  else
    let lanes := (List.range n).map (fun b => lane72 v (l0 + b))
    let bad := (List.range n).filter (fun b => !byteOk (lanes.getD b 0#9))
    let s1 := bad.foldl (fun t _ => t.bucket (16 * d + 3) (bramLoc blk w)) s
    (⟨word72 lanes, BitVec.ofNat 8 (bad.foldl (fun t b => t + 2 ^ b) 0), false, false⟩, s1)

/-- The output register at an edge of the port's clock (R236): reset to 0, load, or hold. -/
def BramPort.clockOut (x : BramPort) (ce rst : Bool) : BramPort :=
  { x with out := if rst then default else if ce then x.rd else x.out }

/-- What a port's output pins show: the read data, or the output register where the port has one (R236). -/
def State.bramShown (s : State) (d blk port : Nat) : BramOut :=
  let x := s.bramPort d blk port
  if (s.bramCfg d blk).outReg.getD port false then x.out else x.rd

/-- Whether ECC_BRSEL.raw gives port B of a block to the raw test interface (R245). -/
def State.rawHolds (s : State) (d blk : Nat) : Bool :=
  s.flag F.eccBrsel_raw [] && s.get F.eccBrsel_die [] == d && s.get F.eccBrsel_block [] == blk

/-- The input pins of a port at an edge: enable, address, byte write enables, write data (byte b in bits 8 b + 7 to 8 b with its
ninth bit in bit 64 + b), and the enable and reset of the output register (R233, R236). -/
structure BramPins where
  en : Bool
  addr : BitVec 13
  we : BitVec 8
  data : BitVec 72
  regCe : Bool
  regRst : Bool
deriving DecidableEq, Repr

/-- A write: an enabled edge with a write enable at 1. -/
def BramPins.writes (p : BramPins) : Bool := p.en && p.we != 0#8

/-- The place a port addresses (R234): physical word and first lane. -/
def BramCfg.place (c : BramCfg) (port : Nat) (addr : BitVec 13) : Nat × Nat :=
  let n := c.width port
  let p := addr.toNat % (8192 / n) * n
  (p / 8, p % 8)

/-- The bytes a write stores, in the lanes of the physical word, with given or generated ninth bits (R240), and the lanes it
changes (R235): all of them under SEC-DED. -/
def BramCfg.stores (c : BramCfg) (port : Nat) (p : BramPins) : BitVec 72 :=
  let l0 := (c.place port p.addr).2
  word72 ((List.range 8).map (fun b =>
    let v := lane72 p.data (b - l0)
    if c.carry.getD port false then v else mkByte v.toNat))
def BramCfg.lanes (c : BramCfg) (port : Nat) (p : BramPins) : BitVec 8 :=
  let l0 := (c.place port p.addr).2
  if c.secded then 255#8
  else BitVec.ofNat 8 ((List.range 8).foldl (fun t b =>
    t + 2 ^ b * b2n (decide (l0 ≤ b ∧ b < l0 + c.width port) && p.we.getLsbD (b - l0))) 0)

/-- The physical word after a write of some lanes: under SEC-DED with freshly computed check bits (R235). -/
def BramCfg.merged (c : BramCfg) (old new : BitVec 72) (lanes : BitVec 8) : BitVec 72 :=
  if c.secded then (if lanes = 0#8 then old else enc72 new.toNat) else mergeLanes (fun b => lanes.getLsbD b) old new

/-- A port's acts at the present instant. -/
def State.access (s : State) (d blk port : Nat) : Option BramAccess := SMap.find? s.fab.touched (2 * bramKey d blk + port)
def State.noteAccess (s : State) (d blk port : Nat) (x : BramAccess) : State :=
  { s with fab := { s.fab with touched := SMap.insert s.fab.touched (2 * bramKey d blk + port) x } }

/-- Free values in the lanes of what a port has read in a collision, and in its error outputs (R239). -/
def BramOut.disturbed (o : BramOut) (l0 : Nat) (lanes : BitVec 8) (f : BitVec 90) : BramOut :=
  ⟨mergeLanes (fun b => lanes.getLsbD (b + l0)) o.data (f.extractLsb' 0 72), f.extractLsb' 72 8, f.getLsbD 80, f.getLsbD 81⟩

/-- One edge of a port's clock (R233 to R241), with its pins given; `old` is the machine before the instant, `own` says that the
edge can collide with the other port's (different clocks, R239), `n` numbers the free values of a collision. Two writes of one
clock's edge leave port A's bytes where both enable a byte (R238). -/
def State.bramEdge (s old : State) (d blk port : Nat) (p : BramPins) (own : Bool) (n : Nat) : State :=
  let c := s.bramCfg d blk
  let (w, l0) := c.place port p.addr
  let x := (old.bramPort d blk port).clockOut p.regCe p.regRst
  let other := (s.access d blk (1 - port)).filter (fun a => a.word == w)
  let theirs := match other with
    | some a => a.wrote
    | none => 0#8
  let free : BitVec 8 := Config.freeValue 8 n
  let noise : BitVec 90 := Config.freeValue 90 (n + 1)
  let before := old.bramWord d blk w
  if p.writes then
    let lanes := c.lanes port p
    let new := c.stores port p
    let won := if own then lanes &&& ~~~(theirs &&& (if c.secded then (if free.getLsbD 0 then 255#8 else 0#8) else free))
      else if port = 0 then lanes else lanes &&& ~~~theirs
    let s1 := if s.gweIn d (flaskOfBram blk) then s.setBramWord d blk w (c.merged (s.bramWord d blk w) new won) else s
    let s2 := match other with
      | some a =>
        if own && a.read then
          let y := s1.bramPort d blk (1 - port)
          s1.setBramPort d blk (1 - port) { y with rd := y.rd.disturbed 0 lanes noise }
        else s1
      | none => s1
    let s3 := s2.noteAccess d blk port ⟨w, false, lanes, new⟩
    match c.rdw.getD port 0 with
    | 0 =>
      let (o, s4) := s3.bramDeliver d blk port w l0 (c.width port) (c.merged before new lanes)
      s4.setBramPort d blk port { x with rd := o }
    | 1 =>
      let (o, s4) := s3.bramDeliver d blk port w l0 (c.width port) before
      s4.setBramPort d blk port { x with rd := o }
    | _ => s3.setBramPort d blk port x
  else if p.en then
    let (o, s1) := s.bramDeliver d blk port w l0 (c.width port) before
    let o := if own && theirs != 0#8 then o.disturbed l0 (if c.secded then 255#8 else theirs) noise else o
    (s1.setBramPort d blk port { x with rd := o }).noteAccess d blk port ⟨w, true, 0#8, 0#72⟩
  else s.setBramPort d blk port x

/-! ## Raw test access (R245, R246) -/

/-- The code an ECC_BRCMD command that cannot run completes with: AERR with raw 0 or a block above 2,559, TERR on a stopped
fabric domain or configuration engine (R246). -/
def State.brRefuse (s : State) : Option Resp :=
  let d := s.get F.eccBrsel_die []
  if !s.flag F.eccBrsel_raw [] || 2560 ≤ s.get F.eccBrsel_block [] then some .aerr
  else if !s.runs (12 + d) || !s.runs (20 + d) then some .terr
  else none

/-- Record the end of a command: resp, sbit and dbit. -/
def State.brDone (s : State) (code : Resp) (sbit dbit : Bool) : State :=
  ((s.put F.eccBrcmd_resp [] code.code).put F.eccBrcmd_sbit [] (b2n sbit)).put F.eccBrcmd_dbit [] (b2n dbit)

/-- Load a word into DATA. -/
def State.brData (s : State) (v : Nat) : State :=
  (s.setReg .eccBrdataLo [] (BitVec.ofNat 32 v)).setReg .eccBrdataHi [] (BitVec.ofNat 32 (v / 2 ^ 32))

/-- An ECC_BRCMD command: 0 none, 1 raw write, 2 raw read, 3 checked read. -/
def State.brCommand (s : State) (op : Nat) : State :=
  let d := s.get F.eccBrsel_die []
  let blk := s.get F.eccBrsel_block []
  let w := s.get F.eccBraddr_word []
  if op = 0 then s
  else
  match s.brRefuse with
  | some c => s.brDone c (s.flag F.eccBrcmd_sbit []) (s.flag F.eccBrcmd_dbit [])
  | none =>
    let v := s.bramWord d blk w
    match op with
    | 1 =>
      let x := s.pair .eccBrdataLo .eccBrdataHi [] + 2 ^ 64 * s.get F.eccBrchk_chk []
      (s.setBramWord d blk w (BitVec.ofNat 72 x)).brDone .ok (s.flag F.eccBrcmd_sbit []) (s.flag F.eccBrcmd_dbit [])
    | 2 =>
      ((s.brData v.toNat).put F.eccBrchk_chk [] (v.toNat / 2 ^ 64)).brDone .ok
        (s.flag F.eccBrcmd_sbit []) (s.flag F.eccBrcmd_dbit [])
    | 3 =>
      let (o, s1) := s.bramDeliver d blk 0 w 0 8 v
      let s2 := s1.brData o.data.toNat
      let s3 := if (s.bramCfg d blk).secded then s2 else s2.put F.eccBrchk_chk [] o.perr.toNat
      s3.brDone .ok o.sbit o.dbit
    | _ => s

/-- BRAM_RAW_WRITE, BRAM_RAW_READ, BRAM_CHECKED_READ: ECC_BRCMD op 1, 2, 3. -/
def execBramRawWrite (src : Src) (s : State) : Out := .next (s.regAct src .eccBrcmd [] 1#32 (·.brCommand 1))
def execBramRawRead (src : Src) (s : State) : Out := .next (s.regAct src .eccBrcmd [] 2#32 (·.brCommand 2))
def execBramCheckedRead (src : Src) (s : State) : Out := .next (s.regAct src .eccBrcmd [] 3#32 (·.brCommand 3))

end Sys2Proof.Machine
end

