-- ==== Sys2Proof/Machine/Mac24.lean ====
section
/-!
DEFINITION. Sys2Proof/Machine/Mac24.lean: the MAC24 arithmetic block (R248 to R253).
-/

namespace Sys2Proof.Machine

/-- Settings of a MAC24: the registers at points I (A and D, B, C), E, M, Q, the K delays of the A and D pair and of B,
the accumulator width and saturation (R250, R251), that the image selects Z = P, and the clock (R227). -/
structure MacCfg where
  iAd : Bool
  iB : Bool
  iC : Bool
  kAd : Nat
  kB : Nat
  e : Bool
  m : Bool
  q : Bool
  w : Nat
  sat : Bool
  zp : Bool
  clock : ClockPick
deriving DecidableEq, Repr, Inhabited

/-- The settings of a block, from the logic frames of a flask (log entry 20: the place of each field is the model's); on a die that
a Tarod image fills, the accumulator is that of a MAC18 (R255). -/
def macCfgOf (fr : SMap (List Byte)) (tarod : Bool) (d blk : Nat) : MacCfg :=
  let b := Config.mac24FrameBits fr d blk
  let n := b.toNat
  { iAd := b.getLsbD 0, iB := b.getLsbD 1, iC := b.getLsbD 2, kAd := bitsOf n 4 3, kB := bitsOf n 6 5,
    e := b.getLsbD 7, m := b.getLsbD 8, q := b.getLsbD 9, w := if tarod || b.getLsbD 10 then 48 else 56,
    sat := !tarod && b.getLsbD 11, zp := b.getLsbD 12, clock := Config.macClock fr d blk }
def State.macCfg (s : State) (d blk : Nat) : MacCfg := macCfgOf (s.logicFrames d (flaskOfMac blk)) (s.tarodOn d) d blk

/-- The settings that the loader refuses: point K on a path without point I, Z = P with point Q off (R250). -/
def MacCfg.illegal (c : MacCfg) : Bool := (c.kAd != 0 && !c.iAd) || (c.kB != 0 && !c.iB) || (c.zp && !c.q)

/-- The pre-adder (R249): A, D + A, D - A or D, exact in 25 bits, clamped to 24; whether it clamped. -/
def macPre (x : MacAd) : BitVec 24 × Bool :=
  let a := x.a.toInt
  let d := x.d.toInt
  let v := match x.presel.toNat with
    | 0 => a
    | 1 => d + a
    | 2 => d - a
    | _ => d
  if v < -(2 ^ 23) then (BitVec.ofInt 24 (-(2 ^ 23)), true)
  else if 2 ^ 23 - 1 < v then (BitVec.ofInt 24 (2 ^ 23 - 1), true)
  else (BitVec.ofInt 24 v, false)

/-- The multiplier (R249): exact in 42 bits. -/
def macMul (ad : BitVec 24) (b : BitVec 18) : BitVec 42 := BitVec.ofInt 42 (ad.toInt * b.toInt)

/-- The accumulator (R249, R251): P and ovf. At width 48, bits 55 to 48 repeat bit 47. -/
def macAcc (w : Nat) (sat : Bool) (z : Int) (m : BitVec 42) (sub : Bool) : BitVec 56 × Bool :=
  let v := if sub then z - m.toInt else z + m.toInt
  let lo : Int := -(2 ^ (w - 1))
  let hi : Int := 2 ^ (w - 1) - 1
  let out := decide (v < lo ∨ hi < v)
  let r : Int := if sat then (if v < lo then lo else if hi < v then hi else v) else toSigned w (ofSigned w v)
  (BitVec.ofInt 56 r, out)

/-- Z (R249): 0, P, C, PCIN, floor(PCIN / 2^17); zsel 5 to 7 act as 0. -/
def macZ (zsel : BitVec 3) (p c pcin : BitVec 56) : Int :=
  match zsel.toNat with
  | 1 => p.toInt
  | 2 => c.toInt
  | 3 => pcin.toInt
  | 4 => pcin.toInt / 2 ^ 17
  | _ => 0

/-- A register: reset to 0, load under its clock enable, or hold. -/
def regNext {α : Type} [Inhabited α] (ce rst : Bool) (old new : α) : α := if rst then default else if ce then new else old

/-- A chain of registers that share an enable. -/
def chainNext {α : Type} [Inhabited α] (ce rst : Bool) (n : Nat) (old : List α) (new : α) : List α :=
  if rst then List.replicate n default
  else if ce then (new :: old).take n
  else (old ++ List.replicate n default).take n

/-- The value at the end of a chain of n registers; the input itself where n is 0. -/
def chainEnd {α : Type} [Inhabited α] (n : Nat) (l : List α) (x : α) : α := if n = 0 then x else l.getD (n - 1) default

/-- A MAC24 block. -/
def State.macBlock (s : State) (d blk : Nat) : MacSt := SMap.get default s.fab.mac (6144 * d + blk)
def State.setMac (s : State) (d blk : Nat) (x : MacSt) : State :=
  { s with fab := { s.fab with mac := SMap.set default s.fab.mac (6144 * d + blk) x } }

/-- The inputs of a MAC24: A and D with presel, zsel and sub; B; C; PCIN; what P holds for Z = P; and the enables and resets of
point I of the A and D pair, of B and of C, and of points E, M and Q, bits 0 to 5. -/
structure MacIn where
  ad : MacAd
  b : BitVec 18
  c : BitVec 56
  pcin : BitVec 56
  pz : BitVec 56
  ce : BitVec 6
  rst : BitVec 6
deriving DecidableEq, Repr

/-- What the three stages compute with the registers as they stand: the pre-adder result with its controls, its clamp,
the product and the controls that travel with it, and the accumulator result with ovf. -/
structure MacStages where
  pre : MacAd
  preSat : Bool
  prod : BitVec 42
  prodCtl : MacAd
  acc : BitVec 56 × Bool
deriving DecidableEq, Repr

/-- The stages (R249, R250); a stage whose register point is off passes its value straight on. -/
def MacSt.stages (x : MacSt) (c : MacCfg) (i : MacIn) : MacStages :=
  let ad := if c.iAd then chainEnd c.kAd x.kAd x.iAd else i.ad
  let b := if c.iB then chainEnd c.kB x.kB x.iB else i.b
  let cIn := if c.iC then x.iC else i.c
  let pre := macPre ad
  let eIn : MacAd := { ad with a := pre.1 }
  let eOut := if c.e then x.e else eIn
  let prod := macMul eOut.a b
  let ctl := if c.m then x.mCtl else eOut
  { pre := eIn, preSat := pre.2, prod := prod, prodCtl := eOut,
    acc := macAcc c.w c.sat (macZ ctl.zsel i.pz cIn i.pcin) (if c.m then x.m else prod) ctl.sub }

/-- One edge of a block: the registers take what the stages computed before the edge (R250). -/
def MacSt.edge (x : MacSt) (c : MacCfg) (i : MacIn) : MacSt :=
  let g := x.stages c i
  let ce := fun k => i.ce.getLsbD k
  let rst := fun k => i.rst.getLsbD k
  { iAd := regNext (ce 0) (rst 0) x.iAd i.ad
    iB := regNext (ce 1) (rst 1) x.iB i.b
    iC := regNext (ce 2) (rst 2) x.iC i.c
    kAd := chainNext (ce 0) (rst 0) c.kAd x.kAd x.iAd
    kB := chainNext (ce 1) (rst 1) c.kB x.kB x.iB
    e := regNext (ce 3) (rst 3) x.e g.pre
    eSat := regNext (ce 3) (rst 3) x.eSat g.preSat
    m := regNext (ce 4) (rst 4) x.m g.prod
    mCtl := regNext (ce 4) (rst 4) x.mCtl g.prodCtl
    p := regNext (ce 5) (rst 5) x.p g.acc.1
    ovf := regNext (ce 5) (rst 5) x.ovf g.acc.2 }

/-- The outputs of a block (R248, R250): P, which is also PCOUT (R252), ovf and pre_sat, from the registers of the points that are
on and from the stages where they are off. -/
def MacSt.shown (x : MacSt) (c : MacCfg) (i : MacIn) : BitVec 56 × Bool × Bool :=
  let g := x.stages c i
  (if c.q then x.p else g.acc.1, if c.q then x.ovf else g.acc.2, if c.e then x.eSat else g.preSat)

end Sys2Proof.Machine
end

