-- ==== Sys2Proof/Machine/Routing.lean ====
section
/-!
DEFINITION. Sys2Proof/Machine/Routing.lean: the signals of the fabric: cluster crossbars, routing segments, carry chains, wide
multiplexers, block pins, crossings between dies, isolation and clock selection (R210 to R217, R224 to R231, R248, R252, R260 to
R269, R315).
-/

namespace Sys2Proof.Machine

/-- A signal: a cell output (2 cell for OA, 2 cell + 1 for OB); the end of a segment that starts at a cluster; a cluster input; a
LUT or control input that the crossbar drives; the carry-in of a cell; an input pin of a block RAM or a MAC24; an output of a
MAC24; a transmit input of a crossing. -/
inductive Signal where
  | out (d cl k : Nat)
  | seg (d cl n : Nat)
  | input (d cl i : Nat)
  | sink (d cl i : Nat)
  | carry (d cl cell : Nat)
  | bramPin (d blk p : Nat)
  | macPin (d blk p : Nat)
  | macOut (d blk p : Nat)
  | tx (g dir i : Nat)
deriving DecidableEq, Repr

/-- A number for each signal. -/
def Signal.key : Signal → Nat
  | .out d cl k => 16 * (256 * clusterKey d cl + k)
  | .seg d cl n => 16 * (256 * clusterKey d cl + n) + 1
  | .input d cl i => 16 * (256 * clusterKey d cl + i) + 2
  | .sink d cl i => 16 * (256 * clusterKey d cl + i) + 3
  | .carry d cl cell => 16 * (256 * clusterKey d cl + cell) + 4
  | .bramPin d blk p => 16 * (256 * bramKey d blk + p) + 5
  | .macPin d blk p => 16 * (256 * (6144 * d + blk) + p) + 6
  | .macOut d blk p => 16 * (256 * (6144 * d + blk) + p) + 7
  | .tx g dir i => 16 * (128 * (2 * g + dir) + i) + 8

/-- Bits of a bus. -/
def bus (w : Nat) (f : Nat → Bool) : BitVec w := BitVec.ofNat w ((List.range w).foldl (fun t i => t + 2 ^ i * b2n (f i)) 0)

/-! ## Segments (R214 to R216)

The 112 segments that start at a cluster: hop1 0 to 63, hop4 64 to 95, hop16 96 to 111, each class in the order north, east,
south, west. -/

def segLen (n : Nat) : Nat := if n < 64 then 1 else if n < 96 then 4 else 16
def segDir (n : Nat) : Nat := if n < 64 then n / 16 else if n < 96 then (n - 64) / 8 else (n - 96) / 4

/-- The cluster `len` positions away in a direction (0 north, 1 east, 2 south, 3 west); none outside the die. Positions count
clusters alone: columns on the two sides of a tile or block column are adjacent (R216, R232). -/
def clusterAway (cl len dir : Nat) : Option Nat :=
  match dir with
  | 0 => if len ≤ cl % 256 then some (cl - len) else none
  | 1 => if cl / 256 + len < 512 then some (cl + 256 * len) else none
  | 2 => if cl % 256 + len < 256 then some (cl + len) else none
  | _ => if len ≤ cl / 256 then some (cl - 256 * len) else none

/-- Where the segment numbered `n` that starts at a cluster ends, and where the one that ends there starts. A segment that would
leave the die does not exist (R214). -/
def segEnd (cl n : Nat) : Option Nat := clusterAway cl (segLen n) (segDir n)
def segStart (cl n : Nat) : Option Nat := clusterAway cl (segLen n) ((segDir n + 2) % 4)

/-! ## Where groups meet the fabric (R260, R269) -/

/-- The hub-I/O groups of an edge, in the order of R257. -/
def State.hubIoGroups (s : State) (k : Nat) : List Nat := (groupsOf k).reverse.filter (fun g => s.role g == 3)

/-- The group of edge `k` that a cluster of die d is attached to, with the first of the payload indices that meet the fabric there
and their number. -/
def State.crossAt (s : State) (d cl k : Nat) : Option (Nat × Nat × Nat) :=
  let x := cl / 256
  let y := cl % 256
  let first := edgeFirst.getD k 0
  let a := (edgeDies k).1 == d
  let b := (edgeDies k).2 == d
  if k < 2 then
    if (a && x == 511) || (b && x == 0) then some (first + y / 4, 32 * (y % 4), 32) else none
  else if k < 4 then
    if (a && y == 255) || (b && y == 0) then some (first + x / 8, 16 * (x % 8), 16) else none
  else if (k == 8 || k == 9) && b && y == 255 && x % 64 < 8 then
    ((s.hubIoGroups k)[x / 64]?).map (fun g => (g, 16 * (x % 64), 16))
  else none

/-- The cluster of die d that payload index i of a group meets. -/
def State.crossCluster (s : State) (g i d : Nat) : Option Nat :=
  let k := edgeOf g
  let r := g - edgeFirst.getD k 0
  let a := (edgeDies k).1 == d
  if k < 2 then some (256 * (if a then 511 else 0) + 4 * r + i / 32)
  else if k < 4 then some (256 * (8 * r + i / 16) + (if a then 255 else 0))
  else ((s.hubIoGroups k).findIdx? (· == g)).map (fun li => 256 * (64 * li + i / 16) + 255)

/-- The payload position that carries a crossing, and the crossing that a position carries: its own, but for those that a load has
moved (R276). -/
def State.crossPos (s : State) (g dir i : Nat) : Nat × Nat :=
  match SMap.find? s.load.moved (128 * (2 * g + dir) + i) with
  | some p => (p / 128, p % 128)
  | none => (g, i)
def State.crossOf (s : State) (g dir i : Nat) : Option (Nat × Nat) :=
  match List.find? (fun e => e.1 / 128 % 2 == dir && e.2 == 128 * g + i) s.load.moved with
  | some e => some (e.1 / 256, e.1 % 128)
  | none => if (SMap.find? s.load.moved (128 * (2 * g + dir) + i)).isSome then none else some (g, i)

/-! ## The value of a signal

`ev` gives the signals one step nearer to their registers; `n` numbers the values that nothing determines. -/

/-- What drives a transmit input, and what a byte lane of a group is set to (R263). -/
def State.txDrive (s : State) (g dir i : Nat) : Drive :=
  match s.crossCluster g i (sender (edgeOf g) dir) with
  | some cl => Config.transmitDrive (s.logicFrames (sender (edgeOf g) dir) (flaskOfCluster cl)) g dir i
  | none => .none
def State.laneKind (s : State) (g dir b : Nat) : Nat := (((s.xgroup g dir).lanes[b]?).map (·.kind)).getD 2

/-- The level a crossing shows at its receiving end (R264, R265, R268, R269): the receive register of a registered lane, the transmit
input of a direct one, the input value of a high-voltage pin, which reads 0 while its bank
has no good VCCO (R545). -/
def State.received (s : State) (n : Nat) (ev : Signal → Bool) (g dir i : Nat) : Bool :=
  let open_ := Config.floating n (Signal.tx g dir i).key
  match s.role g with
  | 1 =>
    let (h, j) := s.crossPos g dir i
    match s.laneKind h dir (j / 8) with
    | 0 => (s.xgroup h dir).rx.getLsbD j
    | 1 => ev (.tx g dir i)
    | _ => open_
  | 3 =>
    match (s.hubIoGroups (edgeOf g)).findIdx? (· == g) with
    | some li =>
      if dir = 0 ∧ i < 56 then (s.get F.glbBankpwrHv_good []).testBit ((56 * li + i) / 32) && Config.padLevel n (768 + 56 * li + i) else open_
    | none => open_
  | _ => open_

/-- A signal of the crossings at a cluster: a payload index, the xerr of a lane, xlost (R261, R266). -/
def State.crossSignal (s : State) (n : Nat) (ev : Signal → Bool) (d cl k p key : Nat) : Bool :=
  match s.crossAt d cl k with
  | some (g, first, per) =>
    let dir := if receiver k 0 = d then 0 else 1
    if p < per then s.received n ev g dir (first + p)
    else if 32 ≤ p ∧ p < 32 + per / 8 then (s.xgroup g dir).xerr.getLsbD (first / 8 + (p - 32))
    else if p = 36 then (s.xgroup g dir).xlost
    else Config.floating n key
  | none => Config.floating n key

/-- An output pin of the block that a cluster is attached to (R231, R233, R248): of a block RAM, port * 82 + 0 to 71 data, 72 to 79
perr, 80 sbit, 81 dbit; of a MAC24, P, ovf and pre_sat. -/
def State.blockPin (s : State) (n : Nat) (ev : Signal → Bool) (d cl p key : Nat) : Bool :=
  match bramAt cl with
  | some b =>
    let o := s.bramShown d b (p / 82)
    let i := p % 82
    if i < 72 then o.data.getLsbD i else if i < 80 then o.perr.getLsbD (i - 72) else if i = 80 then o.sbit else o.dbit
  | none =>
    match macAt cl with
    | some b => ev (.macOut d b p)
    | none => Config.floating n key

/-- An output of the lane that a cluster is attached to (R446). -/
def State.lanePin (s : State) (n d cl p key : Nat) : Bool :=
  match s.laneAt d cl with
  | some l =>
    let x := SMap.get default s.lanes.rx l
    if p < 512 then x.data.getLsbD p
    else if p = 512 then x.valid
    else if p = 513 then x.err
    else if p = 514 then s.flag F.lnLaneStat_lock [l]
    else (s.stage l == .data || s.stage l == .lost) && !s.flag F.lnLaneStat_fbActive [l] && !s.pins.txIdle
  | none => Config.floating n key

/-! The mailbox channels as the fabric sees them -/

/-- State, owner and receiver of a channel (R489). -/
def State.mbxState (s : State) (c : Nat) : Nat := s.get F.mbxStat_state [c]
def State.mbxOwner (s : State) (c : Nat) : Nat := s.get F.mbxStat_owner [c]
def State.mbxRcv (s : State) (c : Nat) : Nat := s.get F.mbxStat_rcv [c]

/-- The clock domain of a receiver (R494). -/
def rcvDomain (n : Nat) : Nat :=
  if n = 1 then 10 else if n ≤ 5 then 4 else if n ≤ 9 then 12 + (n - 6) else if n = 10 then 1 else 3

/-- Whether a party's domain runs. -/
def State.partyRuns (s : State) (n : Nat) : Bool := s.runs (rcvDomain n)

/-- The levels of R493 toward party `n`: as receiver while the channel is posted, as owner while it is done or tmo is set. -/
def State.mbxIrq (s : State) (n c : Nat) : Bool := s.mbxState c == 2 && s.mbxRcv c == n && s.partyRuns n
def State.mbxNtf (s : State) (n c : Nat) : Bool :=
  s.mbxOwner c == n && (s.mbxState c == 4 || s.flag F.mbxStat_tmo [c]) && s.partyRuns n

/-- The signals mbx_irq (p below 32) and mbx_ntf at the four clusters of a die that they reach (R493). -/
def State.mbxPin (s : State) (n d cl p key : Nat) : Bool :=
  if 252 ≤ cl ∧ cl < 256 then (if p < 32 then s.mbxIrq (6 + d) p else s.mbxNtf (6 + d) (p - 32)) else Config.floating n key

/-- An output of the legacy configuration-error primitive of a Tarod die (R350): bit 0 the error, bits 1 to 32 the legacy address of
the native frame that failed last. -/
def State.legacyError (s : State) (d b : Nat) : Bool :=
  s.tarodOn d && (if b = 0 then s.flag F.ftlStat_mism [d] || s.flag F.ftlStat_hard [d]
    else (Config.legacyAddress (SMap.get 0 s.fab.badFrame d)).testBit (b - 1))

/-- The segment numbered `m` that ends at a cluster. -/
def segIn (n : Nat) (ev : Signal → Bool) (d cl m key : Nat) : Bool :=
  match segStart cl m with
  | some c => ev (.seg d c m)
  | none => Config.floating n key

/-- What drives a segment (R211, R215, R231, R261). -/
def State.driven (s : State) (n : Nat) (ev : Signal → Bool) (d cl key : Nat) : Drive → Bool
  | .none => Config.floating n key
  | .output k => ev (.out d cl k)
  | .segment m => segIn n ev d cl m key
  | .block p => s.blockPin n ev d cl p key
  | .crossing k p => s.crossSignal n ev d cl k p key
  | .lock f o => s.pllRuns d f o
  | .lane p => s.lanePin n d cl p key
  | .pad i => (s.get F.glbBankpwrHp_good []).testBit (6 * d + i / 32) && Config.padLevel n (192 * d + i)
  | .legacyError b => s.legacyError d b
  | .mbx p => s.mbxPin n d cl p key
  | .toggle g => (SMap.get 0 s.tb.dieToggles d).getLsbD g

/-- A cluster input takes a segment that ends at the cluster, a received crossing or a pin, a transmit input an output or a segment
(R210, R215, R261, R547). -/
def forInput : Drive → Drive
  | .segment m => .segment m
  | .crossing k p => .crossing k p
  | .pad i => .pad i
  | _ => .none
def forTransmit : Drive → Drive
  | .segment m => .segment m
  | .output k => .output k
  | _ => .none

/-- A source of a crossbar (R210). -/
def picked (n : Nat) (ev : Signal → Bool) (d cl key : Nat) : Pick → Bool
  | .none => Config.floating n key
  | .input i => ev (.input d cl i)
  | .feedback k => ev (.out d cl k)

/-- What leaves an isolated flask (R315). -/
def State.clamp (s : State) (key : Nat) (v : Iso) : Bool :=
  match v with
  | .zero => false
  | .one => true
  | .hold => SMap.get false s.fab.isoHeld key

/-- The keys of held values. -/
def segHoldKey (d cl n : Nat) : Nat := 112 * clusterKey d cl + n
def txHoldKey (g dir i : Nat) : Nat := 2 ^ 26 + 128 * (2 * g + dir) + i
def netHoldKey (d g : Nat) : Nat := 2 ^ 27 + 32 * d + g

/-- The LUT inputs A1 to A6 of a cell, and its O6, O5 and carry-out (R206, R212). -/
def lutIn (ev : Signal → Bool) (d cl cell : Nat) : Nat := (bus 6 (fun j => ev (.sink d cl (6 * cell + j)))).toNat
def State.cellO6 (s : State) (ev : Signal → Bool) (d cl cell : Nat) : Bool := (s.cellCfg d cl cell).o6 (lutIn ev d cl cell)
def State.cellO5 (s : State) (n : Nat) (ev : Signal → Bool) (d cl cell : Nat) : Bool :=
  (s.cellCfg d cl cell).o5 (Config.floating n (Signal.out d cl (2 * cell + 1)).key) (lutIn ev d cl cell)
def State.cellCo (s : State) (n : Nat) (ev : Signal → Bool) (d cl cell : Nat) : Bool :=
  carryOut (s.cellO6 ev d cl cell) (s.cellO5 n ev d cl cell) (ev (.carry d cl cell))

/-- The signals of one cell. -/
def State.cellSig (s : State) (n : Nat) (ev : Signal → Bool) (d cl cell : Nat) : CellSig :=
  let o6 := s.cellO6 ev d cl cell
  ⟨ev (.sink d cl (6 * cell + 5)), o6, s.cellO5 n ev d cl cell, o6 != ev (.carry d cl cell)⟩

/-- The control inputs of a cluster (R210): CE of group g, the select of a multiplexer stage (0 MSA to 4 MSE) at a cell, SR and WCLK
of a half, CI. -/
def ceSink (g : Nat) : Nat := 192 + g
def muxSink (stage cell : Nat) : Nat := if stage < 3 then 196 + 3 * (cell / 8) + stage else 205 + stage
def srSink (half : Nat) : Nat := 210 + half
def wclkSink (half : Nat) : Nat := 212 + half
def ciSink : Nat := 214

/-- The carry-in of a cell (R212). -/
def State.carryIn (s : State) (n : Nat) (ev : Signal → Bool) (d cl cell : Nat) : Bool :=
  if cell = 0 then
    match (s.clusterCfg d cl).carry with
    | 0 => false
    | 1 => true
    | 2 => ev (.sink d cl ciSink)
    | _ => if cl % 64 = 0 then Config.floating n (Signal.carry d cl 0).key else s.cellCo n ev d (cl - 1) 31
  else s.cellCo n ev d cl (cell - 1)

/-- An output of a cell (R207, R213). -/
def State.cellOut (s : State) (n : Nat) (ev : Signal → Bool) (d cl k : Nat) : Bool :=
  let cell := k / 2
  let c := s.cellCfg d cl cell
  if k % 2 = 0 then
    match c.oa with
    | 0 => s.cellO6 ev d cl cell
    | 1 => s.ff d cl cell 0
    | _ => s.cellO6 ev d cl cell != ev (.carry d cl cell)
  else
    match c.ob with
    | 0 => s.cellO5 n ev d cl cell
    | 1 => s.ff d cl cell 1
    | _ =>
      if muxStage cell c.stage then
        wideMux (fun i => s.cellO6 ev d cl i) (fun stage i => ev (.sink d cl (muxSink stage i))) cell c.stage
      else Config.floating n (Signal.out d cl k).key

/-! ## Blocks -/

/-- A block's state in MAC24 column order. -/
def macAbove (blk : Nat) : Bool := blk % 32 != 0

/-- The inputs of a MAC24 (R248, R250, R252). -/
def State.macIn (s : State) (ev : Signal → Bool) (d blk : Nat) : MacIn :=
  let pin := fun i => ev (.macPin d blk i)
  let at_ (w o : Nat) : BitVec w := bus w (fun i => pin (o + i))
  { ad := ⟨at_ 24 0, at_ 24 24, at_ 2 122, at_ 3 124, pin 127⟩, b := at_ 18 48, c := at_ 56 66,
    pcin := if macAbove blk then bus 56 (fun i => ev (.macOut d (blk - 1) i)) else 0#56,
    pz := if (s.macCfg d blk).q then (s.macBlock d blk).p else bus 56 (fun i => ev (.macOut d blk i)),
    ce := at_ 6 128, rst := at_ 6 134 }

/-- The pins of a block RAM port (R233, R236). -/
def bramPins (ev : Signal → Bool) (d blk port : Nat) : BramPins :=
  let pin := fun i => ev (.bramPin d blk (96 * port + i))
  { en := pin 0, addr := bus 13 (fun i => pin (1 + i)), we := bus 8 (fun i => pin (14 + i)),
    data := bus 72 (fun i => pin (22 + i)), regCe := pin 94, regRst := pin 95 }

/-! ## All signals -/

/-- A signal from the signals before it. -/
def State.signalStep (s : State) (n : Nat) (ev : Signal → Bool) (x : Signal) : Bool :=
  match x with
  | .out d cl k => s.cellOut n ev d cl k
  | .seg d cl m =>
    let k := flaskOfCluster cl
    match segEnd cl m with
    | some e =>
      if flaskOfCluster e != k && s.isolated d k then
        s.clamp (segHoldKey d cl m) (Config.segmentIso (s.globalFrames d) d cl m)
      else s.driven n ev d cl x.key (Config.segmentDrive (s.logicFrames d k) d cl m)
    | none => Config.floating n x.key
  | .input d cl i =>
    s.driven n ev d cl x.key (forInput (Config.inputDrive (s.logicFrames d (flaskOfCluster cl)) d cl i))
  | .sink d cl i => picked n ev d cl x.key (Config.crossbarPick (s.logicFrames d (flaskOfCluster cl)) d cl i)
  | .carry d cl cell => s.carryIn n ev d cl cell
  | .bramPin d blk p =>
    picked n ev d (bramCluster blk (Config.bramPinRow p)) x.key (Config.bramPick (s.logicFrames d (flaskOfBram blk)) d blk p)
  | .macPin d blk p =>
    picked n ev d (macCluster blk (Config.macPinRow p)) x.key (Config.macPick (s.logicFrames d (flaskOfMac blk)) d blk p)
  | .macOut d blk p =>
    let (out, ovf, sat) := (s.macBlock d blk).shown (s.macCfg d blk) (s.macIn ev d blk)
    if p < 56 then out.getLsbD p else if p = 56 then ovf else sat
  | .tx g dir i =>
    let d := sender (edgeOf g) dir
    match s.crossCluster g i d with
    | some cl =>
      if s.isolated d (flaskOfCluster cl) then s.clamp (txHoldKey g dir i) (Config.transmitIso (s.globalFrames d) g dir i)
      else s.driven n ev d cl x.key (forTransmit (s.txDrive g dir i))
    | none => Config.floating n x.key

/-- The value of a signal, found through at most `f` elements; a path with more than there are elements is a loop, whose value
nothing determines. -/
def State.signal (s : State) (n : Nat) : Nat → Signal → Bool
  | 0, x => Config.floating n x.key
  | f + 1, x => s.signalStep n (s.signal n f) x

/-- More than the elements of the device. -/
def pathLimit : Nat := 2 ^ 30

/-- The signals of the machine; `n` numbers the values that nothing determines. -/
def State.signals (s : State) (n : Nat) : Signal → Bool := s.signal n pathLimit

/-- A signal that an isolated flask holds (R315, R316): the value it had in the cycle in which isolation engaged. -/
def State.holdSignals (s : State) (d k : Nat) : SMap Bool :=
  let ev := s.signals s.free
  let g := s.globalFrames d
  let m := (List.range 131072).foldl (fun m cl =>
    if flaskOfCluster cl == k then
      (List.range 112).foldl (fun m n =>
        match segEnd cl n with
        | some e =>
          if flaskOfCluster e != k && Config.segmentIso g d cl n == .hold then SMap.insert m (segHoldKey d cl n) (ev (.seg d cl n)) else m
        | none => m) m
    else m) s.fab.isoHeld
  let m := (List.range 432).foldl (fun m x =>
    let dir := if sender (edgeOf x) 0 = d then 0 else 1
    if sender (edgeOf x) dir = d then
      (List.range 128).foldl (fun m i =>
        if (s.crossCluster x i d).map flaskOfCluster == some k && Config.transmitIso g x dir i == .hold then
          SMap.insert m (txHoldKey x dir i) (ev (.tx x dir i))
        else m) m
    else m) m
  (List.range 32).foldl (fun m net =>
    match Config.networkEnable g d net with
    | some t =>
      if flaskOfCluster t.cluster == k && Config.networkIso g d net == .hold then
        SMap.insert m (netHoldKey d net) (picked s.free ev d t.cluster 0 t.pick)
      else m
    | none => m) m

/-! ## Clocks that reach a cluster (R224, R226 to R228) -/

/-- The enable that fabric logic drives on a network, and on a regional clock. -/
def State.netEnabled (s : State) (n : Nat) (ev : Signal → Bool) (d g : Nat) : Bool :=
  match Config.networkEnable (s.globalFrames d) d g with
  | none => true
  | some t =>
    if s.isolated d (flaskOfCluster t.cluster) then s.clamp (netHoldKey d g) (Config.networkIso (s.globalFrames d) d g)
    else picked n ev d t.cluster (netHoldKey d g) t.pick
def State.netComes (s : State) (n : Nat) (ev : Signal → Bool) (d g : Nat) : Bool := s.netRuns d g && s.netEnabled n ev d g

/-- A regional clock of a flask (R226). -/
def State.regionalClock (s : State) (d k r : Nat) : Regional := Config.regional (s.logicFrames d k) d (24 * k + r)

/-- Whether edges of a selected clock reach a unit of flask k: the source runs and is enabled, and the fabric domain of the die is
not stopped (R224, R226, R227, R228). -/
def State.clockComes (s : State) (n : Nat) (ev : Signal → Bool) (d k : Nat) (c : ClockPick) : Bool :=
  s.runs (12 + d) &&
  match c with
  | .zero => false
  | .global g _ => s.netComes n ev d g
  | .regional r _ =>
    let x := s.regionalClock d k r
    s.netComes n ev d x.net && (match x.enable with
      | none => true
      | some t => picked n ev d t.cluster (netHoldKey d 32 + 24 * k + r) t.pick)
  | .wire _ => true

/-- Whether two selected clocks of one flask are the same global or regional clock (R238). -/
def sameClock : ClockPick → ClockPick → Bool
  | .global g a, .global h b => g == h && a == b
  | .regional g a, .regional h b => g == h && a == b
  | _, _ => false

/-! ## User pins (R57, R269, R292, R303, R316, R545, R553) -/

/-- What the owner's hub-I/O group drives on high-voltage pin p: the output value and its enable; none where its bank has no
owner. -/
def State.pinDrive (s : State) (n p : Nat) : Option (Bool × Bool) :=
  let owner := ((s.load.pinTable.drop 1216).getD (p / 32) 0#8).toNat
  match (s.hubIoGroups (owner + 6))[p / 56]? with
  | some g => if owner = 2 ∨ owner = 3 then
      let j := p % 56
      some (s.signals n (.tx g 1 (2 * j)), s.signals n (.tx g 1 (2 * j + 1))) else none
  | none => none

/-- Whether the bank of pin q has good VCCO (R545). -/
def State.pinPowered (s : State) (q : Nat) : Bool :=
  if q < 768 then (s.get F.glbBankpwrHp_good []).testBit (q / 32) else (s.get F.glbBankpwrHv_good []).testBit ((q - 768) / 32)

/-- The die that owns pin q, its byte in the pin table, and the device-wide number of the flask that owns it (R292, R311). -/
def State.pinDie (s : State) (q : Nat) : Nat :=
  if q < 768 then q / 192 else (s.load.pinTable.getD (1216 + (q - 768) / 32) 0#8).toNat
def State.pinByte (s : State) (q : Nat) : Nat := (s.load.pinTable.getD q 0#8).toNat
def State.pinFlask (s : State) (q : Nat) : Option Nat :=
  if (s.pinByte q).testBit 7 then some (16 * s.pinDie q + bitsOf (s.pinByte q) 6 3) else none

/-- Whether a pin is forced to its safe state: by the loss of every reference or a trip, or by the isolation of its flask. -/
def State.pinForced (s : State) (q : Nat) : Bool := s.pins.safe || (s.pinFlask q).any (fun f => s.flag F.ftlFlask_iso [f])

/-- What the design drives on pin q; none while its output is not enabled. -/
def State.padUser (s : State) (n q : Nat) : Option Bool :=
  let o :=
    if q < 768 then
      let d := q / 192
      let (v, e) := Config.padTap (s.globalFrames d) d (q % 192)
      let at_ (t : Tap) := picked n (s.signals n) d t.cluster (2 ^ 28 + q) t.pick
      some (at_ v, at_ e)
    else s.pinDrive n (q - 768)
  match o with
  | some (v, true) => some v
  | _ => none

/-- A pin as its bank leaves it: a driven level, or high impedance with its pull. -/
inductive PadOut where
  | drive (v : Bool)
  | open_ (pull : Option Bool)
deriving DecidableEq, Repr

/-- The pull that IOPULL chooses for every user pin (R303). -/
def iopullOf (code : BitVec 2) : Option Bool := if code = 1#2 then some true else if code = 2#2 then some false else none

/-- Whether a pin belongs to the Tarod instance of the load set, and whether the start-up sequence has released its output: with the
legacy release of I/O for such a pin (R335, R348). -/
def State.tarodPin (s : State) (q : Nat) : Bool := s.load.tarod != 0 && s.pinDie q == s.load.tarod
def State.padReleased (s : State) (q : Nat) : Bool := if s.tarodPin q then s.load.legacy.getLsbD 1 else s.pins.user == 2

/-- The output of pin q while a boundary instruction is in force (IEEE 1149.1; R531, R532): of EXTEST, EXTEST_PULSE, EXTEST_TRAIN and
CLAMP what its cells of the boundary register give it, of HIGHZ high impedance; none while none is in force. -/
def State.boundaryOut (s : State) (q : Nat) : Option PadOut :=
  if s.dbg.bsMode = 0 then none
  else if s.dbg.bsMode = 5 then some (.open_ none)
  else
    let (level, enable) := Config.bsdlCells q
    some (if s.dbg.bsr.getD enable false then .drive (s.dbg.bsr.getD level false) else .open_ none)

/-- The output of pin q: high impedance without pull while held off (R542), in a bank without VCCO (R545) and after a fault switched
its driver off (R553); what boundary scan makes of it (R532); high impedance with the pull of IOPULL before user mode (R303); its declared safe state while it is forced
(R57, R316), that of a pin of a Tarod instance being high impedance with the legacy pull (R335); else what the design drives. -/
def State.padOut (s : State) (n q : Nat) : PadOut :=
  if s.pins.user = 0 ∨ !s.pinPowered q ∨ s.pins.off.contains q then .open_ none
  else match s.boundaryOut q with
  | some o => o
  | none =>
  if !s.padReleased q then .open_ (iopullOf s.clk.iopull)
  else
    let pull := Config.padPull (s.globalFrames (s.pinDie q)) q
    if s.pinForced q then
      if s.tarodPin q then .open_ pull else
      match s.pinByte q % 4 with
      | 0 => .open_ none
      | 1 => .drive false
      | 2 => .drive true
      | _ =>
        match SMap.find? s.pins.last q with
        | some v => .drive v
        | none => .open_ pull
    else
      match s.padUser n q with
      | some v => .drive v
      | none => .open_ pull

/-- Pins that hold-last names keep what the design drives on them now; `which` are about to be forced. -/
def State.keepPins (s : State) (which : Nat → Bool) : State :=
  let last := (List.range 1216).foldl (fun m q =>
    if which q && s.pinByte q % 4 == 3 && !s.pinForced q then
      match s.padUser s.free q with
      | some v => SMap.insert m q v
      | none => SMap.erase m q
    else m) s.pins.last
  { s with pins := { s.pins with last := last } }

/-- Every user output and lane transmitter is forced safe (R57, R482). -/
def State.forceSafe (s : State) : State :=
  let s := s.keepPins (fun _ => true)
  { s with pins := { s.pins with safe := true, txIdle := true } }

end Sys2Proof.Machine
end

