-- ==== Sys2Proof/Machine/Edges.lean ====
section
/-!
DEFINITION. Sys2Proof/Machine/Edges.lean: the clock edges of flip-flops, block RAM ports and MAC24 blocks, and asynchronous
set/reset (R221 to R223, R233 to R242, R248 to R253).
-/

namespace Sys2Proof.Machine

/-! ## Edges of one instant -/

/-- The registered signals as they stand. -/
def State.viewNow (s : State) : FabView := ⟨s.fab.ffs, s.fab.bram, s.fab.bramPorts, s.fab.mac, s.xg⟩

/-- An edge begins: one at an instant of its own, or within 200 ps after the last, sees the registers as they stand; one at the
same instant sees what the first of that instant saw. The acts of block RAM ports count for collisions until a later instant. -/
def State.enterEdge (s : State) (rel : EdgeRel) : State :=
  match rel, s.fab.view with
  | .same, some _ => s
  | .near, _ => { s with fab := { s.fab with view := some s.viewNow } }
  | _, _ => { s with fab := { s.fab with view := some s.viewNow, touched := [] } }

/-- The machine as the edges of the present instant see it. -/
def State.seen (s : State) : State :=
  match s.fab.view with
  | some v => { s with fab := { s.fab with ffs := v.ffs, bram := v.bram, bramPorts := v.bramPorts, mac := v.mac }, xg := v.xg }
  | none => s

/-! ## Flip-flops -/

/-- The next Q of flip-flop b of a cell at an edge, with the signals given (R223); one of `hit` violates a requirement of R219 and
settles to either value (R222, log entry 10). -/
def State.ffEdge (s : State) (n : Nat) (ev : Signal → Bool) (d cl cell b : Nat) (hit : List (Fin 32)) : Bool :=
  let c := s.cellCfg d cl cell
  let y := s.cellSig n ev d cl cell
  let i := 2 * (cell % 16) + b
  if hit.any (fun h => h.val == i) && !s.gsrAt d cl && s.gweAt d cl then (Config.freeValue 32 n : BitVec 32).getLsbD i
  else s.ffNext d cl cell b (ev (.sink d cl (srSink (cell / 16)))) (ev (.sink d cl (ceSink (cell / 8))))
    (if b = 0 then c.dA y else c.dB y)

/-- The flip-flops of a half take their next values. -/
def State.halfEdge (s old : State) (n : Nat) (d cl half : Nat) (hit : List (Fin 32)) : State :=
  let ev := old.signals n
  (List.range 32).foldl (fun t i => t.setFf d cl (16 * half + i / 2) (i % 2) (old.ffEdge n ev d cl (16 * half + i / 2) (i % 2) hit)) s

/-- FLIP_FLOP_CLOCK_EDGE: a rising edge of the clock that a cluster half selects (R223, R227). While that clock does not reach the
half no edge reaches a flip-flop (R224, R226, R228). -/
def execFlipFlopClockEdge (d : Fin 4) (cl : Fin 131072) (half : Fin 2) (rel : EdgeRel) (hit : List (Fin 32)) (s : State) : Out :=
  let k := flaskOfCluster cl
  let (n, s1) := (s.enterEdge rel).draw
  if s1.seen.clockComes n (s1.seen.signals n) d k (Config.halfClock (s.logicFrames d k) d cl half) then
    .next (s1.halfEdge s1.seen n d cl half hit)
  else .next s

/-- The level of the SR input of a half. -/
def State.srLevel (s : State) (n d cl half : Nat) : Bool := s.signals n (.sink d cl (srSink half))

/-- The flip-flops of a half that obey an asynchronous SR input that is 1 take srval, unless global set/reset or global
write enable stands above it (R223). -/
def State.applySr (s : State) (n d cl half : Nat) : State :=
  if s.gsrAt d cl || !s.gweAt d cl || !(s.clusterCfg d cl).async.getD half false || !s.srLevel n d cl half then s
  else
    (List.range 32).foldl (fun t i =>
      let k := 16 * half + i / 2
      let c := s.cellCfg d cl k
      if c.srEn.getD (i % 2) false then t.setFf d cl k (i % 2) (c.srVal.getD (i % 2) false) else t) s

/-- Asynchronous SR inputs that are 1 act in the clusters that `p` names, once global set/reset is released and global write
enable is 1 (R223). -/
def State.applySrs (s : State) (p : Nat → Nat → Bool) : State :=
  (List.range 4).foldl (fun s d =>
    (List.range 131072).foldl (fun s cl =>
      if p d cl then (s.applySr s.free d cl 0).applySr s.free d cl 1 else s) s) s

/-- ASYNCHRONOUS_SET_RESET: the SR input of a half set to act asynchronously has changed (R223). -/
def execAsynchronousSetReset (d : Fin 4) (cl : Fin 131072) (half : Fin 2) (s : State) : Out :=
  let (n, s1) := s.draw
  .next (s1.applySr n d cl half)

/-! ## Block RAM ports -/

/-- Whether user logic reaches a port in this edge: its clock comes, the block is not reserved for a queue (R242), and raw test
access does not hold it (R245). -/
def State.bramReached (s : State) (n : Nat) (ev : Signal → Bool) (d blk port : Nat) : Bool :=
  let c := s.bramCfg d blk
  s.clockComes n ev d (flaskOfBram blk) (c.clock.getD port .zero) && !c.reserved && !(port == 1 && s.rawHolds d blk)

/-- An edge of a port's clock; `write` says which kind of edge the command names: one with a write, or one without. -/
def State.bramStep (s : State) (d blk port : Nat) (rel : EdgeRel) (write : Bool) : State :=
  let (n, s1) := (s.enterEdge rel).draw
  let s2 := ({ s1 with free := s1.free + 2 } : State)
  let old := s1.seen
  let ev := old.signals n
  let p := bramPins ev d blk port
  let c := s.bramCfg d blk
  if old.bramReached n ev d blk port && p.writes == write then
    s2.bramEdge old d blk port p (!sameClock (c.clock.getD 0 .zero) (c.clock.getD 1 .zero)) n
  else s

/-- BRAM_WRITE: an edge of a port's clock at which the port's pins ask for a write (R233 to R241). -/
def execBramWrite (d : Fin 4) (blk : Fin 2560) (port : Fin 2) (rel : EdgeRel) (s : State) : Out :=
  .next (s.bramStep d blk port rel true)

/-- BRAM_READ: an edge of a port's clock without a write: an enabled port reads (R236, R240, R241); in a collision the bytes being
written and the error outputs are undefined (R239: free values, log entry 10). -/
def execBramRead (d : Fin 4) (blk : Fin 2560) (port : Fin 2) (rel : EdgeRel) (s : State) : Out :=
  .next (s.bramStep d blk port rel false)

/-- BRAM_SCRUB_STEP: two consecutive cycles of port B's clock with its enable 0 (R244); `bUsed` says that port B became
enabled in the second, `aWrote` that port A wrote the word between. -/
def execBramScrubStep (d : Fin 4) (blk : Fin 2560) (bUsed aWrote : Bool) (s : State) : Out :=
  let c := s.bramCfg d blk
  let (n, s0) := s.draw
  if !(c.secded && c.scrub) || !s0.bramReached n (s0.signals n) d blk 1 then .next s
  else
    let x := SMap.get default s.fab.scrubs (bramKey d blk)
    let v := s.bramWord d blk x.pos
    let err := match dec72 v with
      | .clean _ => false
      | _ => true
    let s1 := if err && !x.counted then (s0.bramDeliver d blk 1 x.pos 0 8 v).2 else s0
    let fixable := match dec72 v with
      | .fixed _ => true
      | _ => false
    let setScrub (t : State) (y : ScrubSt) : State :=
      { t with fab := { t.fab with scrubs := SMap.set default t.fab.scrubs (bramKey d blk) y } }
    if fixable && (bUsed || aWrote) then .next (setScrub s1 { x with counted := x.counted || err })
    else
      let s2 := if fixable then s1.setBramWord d blk x.pos (enc72 (dec72 v).data) else s1
      .next (setScrub s2 ⟨(x.pos + 1) % 1024, false⟩)

/-! ## MAC24 -/

/-- MAC24_OPERATION: one edge of a block's clock (R249 to R252). -/
def execMac24Operation (d : Fin 4) (blk : Fin 6144) (rel : EdgeRel) (s : State) : Out :=
  let (n, s1) := (s.enterEdge rel).draw
  let old := s1.seen
  let ev := old.signals n
  let c := s.macCfg d blk
  if old.clockComes n ev d (flaskOfMac blk) c.clock then
    .next (s1.setMac d blk ((old.macBlock d blk).edge c (old.macIn ev d blk)))
  else .next s

end Sys2Proof.Machine
end

