-- ==== Sys2Proof/Machine/Flags.lean ====
section
/-!
DEFINITION. Sys2Proof/Machine/Flags.lean: the arithmetic of the word cell and its flag rules (R123 to R128, R134,
R135): the range and reduction of results, and for every opcode its result and flags.
-/

namespace Sys2Proof.Machine

/-- The value of an n-bit operand in the signedness u selects (R123). -/
def valueOf (n : Nat) (u : Bool) (raw : Nat) : Int := if u then ((raw % 2 ^ n : Nat) : Int) else toSigned n raw

/-- The least and greatest value of an n-bit result (R124). -/
def loLimit (n : Nat) (u : Bool) : Int := if u then 0 else -((2 ^ (n - 1) : Nat) : Int)
def hiLimit (n : Nat) (u : Bool) : Int := if u then ((2 ^ n : Nat) : Int) - 1 else ((2 ^ (n - 1) : Nat) : Int) - 1

/-- Reduce an exact result to n bits (R124): the bits written and whether it was clamped. -/
def reduce (n : Nat) (u s : Bool) (x : Int) : Nat × Bool :=
  if x < loLimit n u then (if s then (ofSigned n (loLimit n u), true) else (ofSigned n x, false))
  else if hiLimit n u < x then (if s then (ofSigned n (hiLimit n u), true) else (ofSigned n x, false))
  else (ofSigned n x, false)

/-- What an operation produces: the n result bits, whether it clamped, and the new carry flag where it writes one. -/
structure AluOut where
  raw : Nat
  sat : Bool
  c : Option Bool
deriving DecidableEq, Repr

/-- The operands of an operation: width in bits, signedness, saturation, the two raw operands, and the shift field. -/
structure AluIn where
  n : Nat
  u : Bool
  s : Bool
  a : Nat
  b : Nat
  sh : Nat
deriving DecidableEq, Repr

/-- Operand A and operand B as values. -/
def AluIn.av (i : AluIn) : Int := valueOf i.n i.u i.a
def AluIn.bv (i : AluIn) : Int := valueOf i.n i.u i.b

/-- Reduce an exact result under the operation's s and u. -/
def AluIn.out (i : AluIn) (x : Int) (c : Option Bool) : AluOut :=
  let r := reduce i.n i.u i.s x
  ⟨r.1, r.2, c⟩

/-- ADD: c is the carry out of the most significant bit (R127). -/
def aluAdd (i : AluIn) : AluOut := i.out (i.av + i.bv) (some (decide (2 ^ i.n ≤ i.a % 2 ^ i.n + i.b % 2 ^ i.n)))

/-- SUB: c is 1 when A is below B as unsigned values (R127). -/
def aluSub (i : AluIn) : AluOut := i.out (i.av - i.bv) (some (decide (i.a % 2 ^ i.n < i.b % 2 ^ i.n)))

/-- AND, OR, XOR act on the bits; u does not change them (R123). -/
def aluAnd (i : AluIn) : AluOut := ⟨Nat.land i.a i.b % 2 ^ i.n, false, none⟩
def aluOr (i : AluIn) : AluOut := ⟨Nat.lor i.a i.b % 2 ^ i.n, false, none⟩
def aluXor (i : AluIn) : AluOut := ⟨Nat.xor i.a i.b % 2 ^ i.n, false, none⟩

/-- MIN and MAX: A when they are equal; c is 1 when the result is A (R127). -/
def aluMin (i : AluIn) : AluOut :=
  if i.av ≤ i.bv then ⟨i.a % 2 ^ i.n, false, some true⟩ else ⟨i.b % 2 ^ i.n, false, some false⟩
def aluMax (i : AluIn) : AluOut :=
  if i.bv ≤ i.av then ⟨i.a % 2 ^ i.n, false, some true⟩ else ⟨i.b % 2 ^ i.n, false, some false⟩

/-- ABSD: the unsigned absolute difference; never clamps; c is 1 when A is below B (R124, R127). -/
def aluAbsd (i : AluIn) : AluOut := ⟨(i.av - i.bv).natAbs % 2 ^ i.n, false, some (decide (i.av < i.bv))⟩

/-- SHL (R126); c is the last bit shifted out, or 0 when k is 0. -/
def aluShl (k : Nat) (i : AluIn) : AluOut :=
  i.out (i.av * (2 ^ k : Nat)) (some (decide (0 < k ∧ k ≤ i.n ∧ (i.a % 2 ^ i.n).testBit (i.n - k))))

/-- SHR (R126): zero fill whatever u. -/
def aluShr (k : Nat) (i : AluIn) : AluOut :=
  ⟨(i.a % 2 ^ i.n) / 2 ^ k, false, some (decide (0 < k ∧ (i.a % 2 ^ i.n).testBit (k - 1)))⟩

/-- ASR (R126): sign fill when u is 0; the bits beyond the width repeat the sign. -/
def aluAsr (k : Nat) (i : AluIn) : AluOut :=
  ⟨ofSigned i.n (i.av / ((2 ^ k : Nat) : Int)), false,
   some (decide (0 < k ∧ (i.av / ((2 ^ (k - 1) : Nat) : Int)) % 2 = 1))⟩

/-- MOV of a plain source. -/
def aluMov (i : AluIn) : AluOut := ⟨i.a % 2 ^ i.n, false, none⟩

/-- MOV of a scaled source: floor(V / 2^sh) reduced to n bits (R119). -/
def aluScaled (n : Nat) (u s : Bool) (v : Int) (sh : Nat) : AluOut :=
  let r := reduce n u s (v / ((2 ^ sh : Nat) : Int))
  ⟨r.1, r.2, none⟩

/-- The conditions of CMP (R128). -/
def cmpCond (i : AluIn) : Bool :=
  match i.sh % 8 with
  | 0 => decide (i.av = i.bv)
  | 1 => decide (i.av ≠ i.bv)
  | 2 => decide (i.av < i.bv)
  | 3 => decide (i.bv ≤ i.av)
  | 4 => decide (i.av ≤ i.bv)
  | 5 => decide (i.bv < i.av)
  | 6 => true
  | _ => false

/-- CMP: z and n from A - B reduced as SUB does, c the condition; sat never changes (R128). -/
def aluCmp (i : AluIn) : AluOut := ⟨(reduce i.n i.u i.s (i.av - i.bv)).1, false, some (cmpCond i)⟩

/-- The byte of B that bsel names, weighted (R135): signed only if it is the gang's top byte and u is 0. -/
def weightedByte (n : Nat) (u : Bool) (b bsel : Nat) : Int :=
  let byte := bitsOf b (8 * bsel + 7) (8 * bsel)
  (if !u && 8 * (bsel + 1) == n then toSigned 8 byte else (byte : Int)) * ((2 ^ (8 * bsel) : Nat) : Int)

/-- MUL: floor(A x B' / 2^r) (R135). -/
def aluMul (i : AluIn) : AluOut :=
  i.out ((i.av * weightedByte i.n i.u i.b (i.sh % 4)) / ((2 ^ (i.sh / 4 % 8) : Nat) : Int)) none

/-- The flags after a result: z when it is 0, n its top bit, c where the operation writes it, sat sticky (R124, R127). -/
def flagsAfter (f : CFlags) (n : Nat) (o : AluOut) : CFlags :=
  { z := decide (o.raw = 0), n := o.raw.testBit (n - 1), c := o.c.getD f.c, sat := f.sat || o.sat }

end Sys2Proof.Machine
end

