-- ==== Sys2Proof/Machine/Operands.lean ====
section
/-!
DEFINITION. Sys2Proof/Machine/Operands.lean: every operand form of the word cell: registers, input ports through the
switch (R89 to R96), spines (R102, R104), cell-store bytes and their phases (R83, R84, R118), accumulators and CIN
(R85, R119), gangs (R97 to R99), and the writes that land later (R137, R138).
-/

namespace Sys2Proof.Machine

/-! ## Where things lie -/

/-- The cell number within a die, and the keys of what it holds. -/
def cellKey (t k : Nat) : Nat := 16 * t + k
def dregKey (ck bank r : Nat) : Nat := (ck * 2 + bank) * 16 + r
def accKey (ck bank a : Nat) : Nat := (ck * 2 + bank) * 2 + a
def flagKey (ck bank : Nat) : Nat := ck * 2 + bank
def storeKey (ck a : Nat) : Nat := ck * 512 + a % 512
def outKey (ck dir : Nat) : Nat := ck * 4 + dir

/-- The bank that is active in a tile, as a number (R81). -/
def TileSt.bankNo (x : TileSt) : Nat := b2n x.bank

/-- What unlisted bytes, accumulators and pointers of the word array hold: zero with good parity (log entry 4). -/
def byte0 : BitVec 9 := mkByte 0
def acc0 : BitVec 36 := mkAcc 0
def ptr0 : BitVec 10 := mkPtr 0

/-- The facing direction: 0 north, 1 east, 2 south, 3 west (R91). -/
def opp (e : Nat) : Nat := (e + 2) % 4

/-- The tile `n` positions away in direction e, within the die (R76). -/
def tileAt (t e n : Nat) : Option Nat :=
  let c := t / 128
  let r := t % 128
  match e with
  | 0 => if n ≤ r then some (t - n) else none
  | 1 => if c + n < 16 then some (t + 128 * n) else none
  | 2 => if r + n < 128 then some (t + n) else none
  | _ => if n ≤ c then some (t - 128 * n) else none

/-- The neighbouring cell in direction e, in any tile of the die (R89). -/
def neighbour (t k e : Nat) : Option (Nat × Nat) :=
  let i := k / 4
  let j := k % 4
  match e with
  | 0 => if 0 < i then some (t, k - 4) else (tileAt t 0 1).map (·, 12 + j)
  | 1 => if j < 3 then some (t, k + 1) else (tileAt t 1 1).map (·, 4 * i)
  | 2 => if i < 3 then some (t, k + 4) else (tileAt t 2 1).map (·, j)
  | _ => if 0 < j then some (t, k - 1) else (tileAt t 3 1).map (·, 4 * i + 3)

/-- The cell whose cascade output feeds CIN of cell k: eastward along the cell row of the die (R85). -/
def cascadeFrom (t k : Nat) : Option (Nat × Nat) := neighbour t k 3

/-- Spine latency L(r) of tile row r to or from port s of its column (R100, R102). -/
def spineDist (t port : Nat) : Nat := if port % 4 < 2 then t % 128 else 127 - t % 128
def spineLat (t port : Nat) : Nat := 2 + spineDist t port / 16

/-! ## The current mould -/

/-- A 32-bit word of the current mould: instruction word of cell k at 2k'.. (R142); `none` where its codeword was
uncorrectable; 0 where no mould has become current. -/
def CurMould.half (m : CurMould) (q hi : Nat) : Option Nat :=
  match m.words[q]? with
  | none => some 0
  | some none => none
  | some (some w) => some (bitsOf w.toNat (32 * hi + 31) (32 * hi))

/-- The instruction word of cell k, the switch word of cell k, the tile header. -/
def CurMould.instr (m : CurMould) (k : Nat) : Option Nat := m.half (k / 2) (k % 2)
def CurMould.switch (m : CurMould) (k : Nat) : Option Nat := m.half (8 + k / 2) (k % 2)
def CurMould.header (m : CurMould) : Option Nat :=
  match m.words[16]? with
  | none => some 0
  | some none => none
  | some (some w) => some w.toNat

/-- Cells per gang in row i under the current header (R97): a reserved code acts as none; none where the header was
uncorrectable. -/
def CurMould.gang (m : CurMould) (row : Nat) : Nat :=
  match m.header with
  | none => 1
  | some h =>
    match bitsOf h (47 + 2 * row) (46 + 2 * row) with
    | 1 => 2
    | 2 => 4
    | _ => 1

/-- The pointer reload bases (R144). -/
def CurMould.base0 (m : CurMould) : Option Nat := m.header.map (fun h => bitsOf h 45 37)
def CurMould.base1 (m : CurMould) : Option Nat := m.header.map (fun h => bitsOf h 36 28)

/-! ## Reading -/

/-- What reading a byte gives: its value; valid 0; a failed parity check (R88); a lost store phase (R84). -/
inductive Rd where
  | val (v : Nat)
  | invalid
  | parFail
  | conflict
deriving DecidableEq, Repr

/-- Judge a byte that carries valid 1 (R88). -/
def rdByte (b : BitVec 9) : Rd := if byteOk b then .val (b.toNat % 256) else .parFail

/-- The accumulator of a cell as it will stand at the end of the present cycle: writes of the X stage that land in it
included (R138: earliest slot s + 1). -/
def WaDie.accX (w : WaDie) (key : Nat) : BitVec 36 :=
  w.pend.foldl (fun v p =>
    match p.w with
    | .acc k x => if k = key ∧ p.due ≤ w.cycle then x else v
    | _ => v) (SMap.get acc0 w.acc key)

/-- The flags of a bank as they will stand at the end of the present cycle. -/
def WaDie.flagsX (w : WaDie) (key : Nat) : CFlags :=
  w.pend.foldl (fun v p =>
    match p.w with
    | .flags k x => if k = key ∧ p.due ≤ w.cycle then x else v
    | _ => v) (SMap.get default w.flags key)

/-- Whether a store write claims phase B of a cell in the present cycle (R84). -/
def WaDie.storeWrites (w : WaDie) (ck : Nat) : Bool :=
  w.pend.any (fun p =>
    match p.w with
    | .store k _ => k / 512 == ck && p.due == w.cycle
    | _ => false)

/-- A lane of an ingress spine as tile t reads it in the present cycle (R102, R104); an egress spine reads valid 0, and the
tiles drop what is still on the spine of a port that has been disabled (R110). -/
def State.spineLane (s : State) (d t k sp : Nat) : Rd :=
  let w := s.die d
  let port := 4 * (t / 128) + sp
  if s.flag F.waPortCfg_dir [d, port] || !s.flag F.waPortCfg_en [d, port] then .invalid
  else
    match w.spineIn.find? (fun b => b.port == port && b.cycle + spineLat t port == w.cycle) with
    | none => .invalid
    | some b =>
      match b.lanes[k]? with
      | some (some v) => rdByte v
      | _ => .invalid

/-- An input port of a cell: the source its switch word selects (R90, R94). -/
def State.readIn (s : State) (d t k e : Nat) : Rd :=
  let w := s.die d
  match (w.tile t).cur.switch k with
  | none => .invalid
  | some sw =>
    let code := bitsOf sw (31 - 4 * e) (28 - 4 * e)
    let ofMap (m : SMap (BitVec 9)) (key : Nat) : Rd :=
      match SMap.find? m key with
      | some v => rdByte v
      | none => .invalid
    if code = 0 then
      match neighbour t k e with
      | some (t', k') => ofMap w.out (outKey (cellKey t' k') (opp e))
      | none => .invalid
    else if code ≤ 8 then
      match tileAt t e 1 with
      | some t' => ofMap w.chan (t' * 32 + 8 * opp e + (code - 1))
      | none => .invalid
    else if code ≤ 12 then s.spineLane d t k (code - 9)
    else if code ≤ 14 then
      match tileAt t e 4 with
      | some t' => ofMap w.expr (t' * 8 + 2 * opp e + (code - 13))
      | none => .invalid
    else .invalid

/-- A store byte at a pointer (R82, R118). -/
def WaDie.readStore (w : WaDie) (ck bank p : Nat) (phaseB : Bool) : Rd :=
  let ptr := SMap.get ptr0 w.ptr (accKey ck bank p)
  if !ptrOk ptr then .parFail
  else if phaseB && w.storeWrites ck then .conflict
  else rdByte (SMap.get byte0 w.store (storeKey ck (ptr.toNat % 512)))

/-- One byte operand of one cell, by its select code (R117): D registers, input ports, ST0, ST1, ZERO. -/
def State.readByte (s : State) (d t k bank sel : Nat) (phaseB : Bool) : Rd :=
  let w := s.die d
  let ck := cellKey t k
  if sel < 16 then rdByte (SMap.get byte0 w.dreg (dregKey ck bank sel))
  else if sel < 20 then s.readIn d t k (sel - 16)
  else if sel = 0x14 then w.readStore ck bank 0 phaseB
  else if sel = 0x15 then w.readStore ck bank 1 phaseB
  else .val 0

/-- An operand of a gang: the concatenation of its members' bytes, or none with the cells that failed a check and
whether a store phase was lost (R98, R99). -/
structure Operand where
  value : Option Nat
  fails : List Nat
  lostPhase : Bool
deriving DecidableEq, Repr

/-- Gather the bytes of the members from the leader (least significant) upward. -/
def gather : List Rd → Nat → Operand
  | [], _ => ⟨some 0, [], false⟩
  | r :: t, k =>
    let o := gather t (k + 1)
    match r with
    | .val v => { o with value := o.value.map (fun x => v + 256 * x) }
    | .invalid => { o with value := none }
    | .parFail => { o with value := none, fails := k :: o.fails }
    | .conflict => { o with value := none, lostPhase := true }

/-- Read an operand for the gang led by cell k. -/
def State.readOperand (s : State) (d t k g bank sel : Nat) (phaseB : Bool) : Operand :=
  gather ((List.range g).map (fun j => s.readByte d t (k + j) bank sel phaseB)) k

/-- The accumulator of a gang, leader least significant (R134), from a per-cell reader; none with the failing cells. -/
def gangAcc (rd : Nat → BitVec 36) (k g : Nat) : Option Nat × List Nat :=
  let fails := (List.range g).filter (fun j => !accOk (rd (k + j)))
  if fails.isEmpty then
    (some ((List.range g).foldl (fun v j => v + 2 ^ (32 * j) * ((rd (k + j)).toNat % 2 ^ 32)) 0), [])
  else (none, fails.map (k + ·))

/-! ## Recording errors -/

/-- A failed parity check in a cell: par_err, par_cell and the die's word-array parity bucket (R88). -/
def State.parityFail (s : State) (d t k : Nat) : State :=
  let s := s.raise F.wtStat_parErr [d, t]
  let s := s.put F.wtStat_parCell [d, t] (Nat.lor (s.get F.wtStat_parCell [d, t]) (2 ^ k))
  s.bucket (16 * d) (leBytes 2 t ++ leBytes 1 k)

/-- Record what reading an operand found (R84, R88). -/
def State.noteOperand (s : State) (d t : Nat) (o : Operand) : State :=
  let s := o.fails.foldl (fun s k => s.parityFail d t k) s
  if o.lostPhase then s.raise F.wtStat_storeConflict [d, t] else s

/-- Mark the cells of a gang as having read phase B in the present cycle. -/
def State.usePhaseB (s : State) (d t k g : Nat) : State :=
  let w := s.die d
  s.setDie d { w with phB := (List.range g).map (fun j => cellKey t (k + j)) ++ w.phB }

/-- Schedule the writes of an instruction. -/
def State.later (s : State) (d : Nat) (ps : List Pend) : State :=
  let w := s.die d
  s.setDie d { w with pend := w.pend ++ ps }

end Sys2Proof.Machine
end

