-- ==== Sys2Proof/Machine/Cells.lean ====
section
/-!
DEFINITION. Sys2Proof/Machine/Cells.lean: the instructions of the word cell (R116 to R140).  A command issues one
instruction at the leader of a gang (or at an ungrouped cell) in the present word-array cycle c: operands are read in
F (cycle c), accumulators and flags land at the end of c + 1, D registers, output registers and store bytes at the
end of c + 2 (R137).
-/

namespace Sys2Proof.Machine

/-! ## Legality (R140) -/

/-- Source and destination codes that are legal everywhere (R117). -/
def plainSel (sel : Nat) : Bool := sel ≤ 0x15 || sel == 0x17
/-- The scaled sources, legal only in sa of MOV (R119). -/
def scaledSel (sel : Nat) : Bool := sel == 0x16 || sel == 0x1C || sel == 0x1D
/-- ST0 and ST1. -/
def storeSel (sel : Nat) : Bool := sel == 0x14 || sel == 0x15

/-- An illegal instruction retires as a null and sets the matching WT_ISTAT bits and the bits of the cells that
executed it (R140; in a gang every member executes the leader's word, R98). -/
def illegal (s : State) (d t k g : Nat) (op sel form : Bool) : State :=
  let s := if op then s.raise F.wtIstat_illOp [d, t] else s
  let s := if sel then s.raise F.wtIstat_illSel [d, t] else s
  let s := if form then s.raise F.wtIstat_illForm [d, t] else s
  s.put F.wtIstat_illCell [d, t]
    ((List.range g).foldl (fun v j => Nat.lor v (2 ^ (k + j))) (s.get F.wtIstat_illCell [d, t]))

/-! ## Pointers (R130) -/

/-- The pointer after an update code; reload takes the base of the current header and needs none of the old value. -/
def stepPtr (p : BitVec 10) (code : Nat) (base : Option Nat) : BitVec 10 :=
  match code with
  | 1 => mkPtr (p.toNat % 512 + 1)
  | 2 => mkPtr (p.toNat % 512 + 511)
  | 3 => match base with
    | some b => mkPtr b
    | none => p
  | _ => p

/-- Members of a gang whose pointer `p` fails its parity check. -/
def badPtrs (w : WaDie) (t k g bank p : Nat) : List Nat :=
  ((List.range g).filter (fun j => !ptrOk (SMap.get ptr0 w.ptr (accKey (cellKey t (k + j)) bank p)))).map (k + ·)

/-- Apply the leader's pointer updates to every member (R98). -/
def State.movePtrs (s : State) (d t k g bank c0 c1 : Nat) : State :=
  let w := s.die d
  let m := (w.tile t).cur
  s.setDie d { w with ptr := (List.range g).foldl (fun ps j =>
    let k0 := accKey (cellKey t (k + j)) bank 0
    let k1 := accKey (cellKey t (k + j)) bank 1
    let ps := SMap.set ptr0 ps k0 (stepPtr (SMap.get ptr0 ps k0) c0 m.base0)
    SMap.set ptr0 ps k1 (stepPtr (SMap.get ptr0 ps k1) c1 m.base1)) w.ptr }

/-- Whether an update code steps a pointer, and so reads it (R88). -/
def stepsPtr (code : Nat) : Bool := code == 1 || code == 2

/-! ## The issue of an instruction -/

/-- What every instruction needs: where it is, the gang it leads, its bank. -/
structure Ctx where
  d : Nat
  t : Nat
  k : Nat
  g : Nat
  bank : Nat
  cycle : Nat
deriving DecidableEq, Repr

/-- The context of a cell in the present cycle (R166: bank and gang codes in force when it enters F). -/
def ctxOf (s : State) (a : CellId) : Ctx :=
  let w := s.die a.die
  let x := w.tile a.tile
  ⟨a.die, a.tile, a.cell, x.cur.gang (a.cell / 4), x.bankNo, w.cycle⟩

/-- Whether the cell issues its own word: not as a gang member other than the leader (R98), and not where the current
mould's header or the leader's codeword was uncorrectable (R147). -/
def issues (s : State) (x : Ctx) : Bool :=
  let m := ((s.die x.d).tile x.t).cur
  x.k % x.g == 0 && m.header.isSome && (m.instr x.k).isSome

/-- The pointers an instruction reads, beside those its operands `named` use: steps, and a store destination's address (R88).
A failing pointer counts once per instruction, with the operand that it addresses if there is one; a failing byte that the
operands name twice counts at each read, but for one store byte that is read once (DESIGN CHOICE, log entry 95). -/
def ptrFails (s : State) (x : Ctx) (f : Fields) (named : List Nat) (dstStore : Option Nat) : List Nat :=
  let w := s.die x.d
  let reads (c sel p : Nat) : List Nat :=
    if (stepsPtr c || dstStore == some sel) && !named.contains sel then badPtrs w x.t x.k x.g x.bank p else []
  reads f.p0u.toNat 0x14 0 ++ reads f.p1u.toNat 0x15 1

/-- The select codes that an instruction's operands read. -/
def namedSels (useA useB : Bool) (f : Fields) : List Nat :=
  (if useA then [f.sa.toNat] else []) ++ (if useB then [f.sb.toNat] else [])

/-- Operand B as it is recorded: where both selects name one store byte there is one read (R118), recorded with A. -/
def recordedB (sa sb : Nat) (o : Operand) : Operand := if storeSel sa && sa == sb then ⟨o.value, [], false⟩ else o

/-- The writes of a result to its destination, byte j to member j (R117, R137). -/
def destWrites (s : State) (x : Ctx) (dst raw : Nat) (c : Bool) : List Pend :=
  let w := s.die x.d
  (List.range x.g).filterMap (fun j =>
    let ck := cellKey x.t (x.k + j)
    let v := mkByte (bitsOf raw (8 * j + 7) (8 * j))
    let at_ (cw : CellWrite) : Option Pend := some ⟨x.cycle + 2, x.d, cw⟩
    if dst < 16 then at_ (.dreg (dregKey ck x.bank dst) v)
    else if dst < 20 then at_ (.out (outKey ck (dst - 16)) v c)
    else if dst = 0x14 ∨ dst = 0x15 then
      at_ (.store (storeKey ck ((SMap.get ptr0 w.ptr (accKey ck x.bank (dst - 0x14))).toNat % 512)) v)
    else none)

/-- The flag writes of a result into every member (R98, R127). -/
def flagWrites (s : State) (x : Ctx) (upd : CFlags → CFlags) : List Pend :=
  (List.range x.g).map (fun j =>
    let key := flagKey (cellKey x.t (x.k + j)) x.bank
    ⟨x.cycle + 1, x.d, .flags key (upd ((s.die x.d).flagsX key))⟩)

/-- An ALU-class opcode: whether it reads B, has a destination, may take a scaled source in sa, writes flags, whether
its form is illegal here, and its result from the leader's predicate flag and the operands. -/
structure AluOp where
  useB : Bool
  hasDst : Bool
  scaled : Bool
  flags : Bool
  badForm : Bool
  fn : Bool → AluIn → AluOut

/-- The scaled sources: CIN of the leader (32 bits) or the gang accumulator, as held at the end of the previous cycle
(R119).  CIN is the ACC0 of the bank that was active in that cycle (R85: the cascade output is registered). -/
def readScaled (s : State) (x : Ctx) (sel : Nat) : Operand :=
  let w := s.die x.d
  if sel = 0x16 then
    match cascadeFrom x.t x.k with
    | none => ⟨some 0, [], false⟩
    | some (t', k') =>
      let a := SMap.get acc0 w.acc (accKey (cellKey t' k') (b2n (w.tile t').wasBank) 0)
      if accOk a then ⟨some (a.toNat % 2 ^ 32), [], false⟩ else ⟨none, [x.k], false⟩
  else
    let r := gangAcc (fun k => SMap.get acc0 w.acc (accKey (cellKey x.t k) x.bank (sel - 0x1C))) x.k x.g
    ⟨r.1, r.2, false⟩

/-- Issue an ALU-class opcode (R86, R98, R118, R120, R137). -/
def issueAlu (op : AluOp) (a : CellId) (f : Fields) (s : State) : State :=
  let x := ctxOf s a
  let sa := f.sa.toNat
  let sb := f.sb.toNat
  let dst := f.dst.toNat
  if !issues s x then s
  else
    let badSel := !(plainSel sa || (op.scaled && scaledSel sa)) || (op.useB && !plainSel sb) || (op.hasDst && !plainSel dst)
    if badSel || op.badForm then illegal s x.d x.t x.k x.g false badSel op.badForm
    else
      let two := op.useB && storeSel sa && storeSel sb && sa != sb
      let oa := if scaledSel sa then readScaled s x sa else s.readOperand x.d x.t x.k x.g x.bank sa false
      let ob := if op.useB then s.readOperand x.d x.t x.k x.g x.bank sb two else ⟨some 0, [], false⟩
      let dstStore := if op.hasDst && storeSel dst then some dst else none
      let pf := ptrFails s x f (namedSels true op.useB f) dstStore
      let s1 := ((s.noteOperand x.d x.t oa).noteOperand x.d x.t (recordedB sa sb ob)).noteOperand x.d x.t ⟨none, pf, false⟩
      let s2 := if two then s1.usePhaseB x.d x.t x.k x.g else s1
      match oa.value, ob.value, pf.isEmpty with
      | some av, some bv, true =>
        let o := op.fn ((s.die x.d).flagsX (flagKey (cellKey x.t x.k) x.bank)).c
          ⟨8 * x.g, f.u, f.s, av, bv, f.sh.toNat⟩
        let c' := (o.c.getD ((s.die x.d).flagsX (flagKey (cellKey x.t x.k) x.bank)).c)
        let drop := two && dstStore.isSome
        let s3 := if drop then s2.raise F.wtStat_storeConflict [x.d, x.t] else s2
        let ws := if op.hasDst && !drop then destWrites s x dst o.raw c' else []
        let fs := if op.flags then flagWrites s x (fun fl => flagsAfter fl (8 * x.g) o) else []
        (s3.later x.d (fs ++ ws)).movePtrs x.d x.t x.k x.g x.bank f.p0u.toNat f.p1u.toNat
      | _, _, _ => s2

/-- An accumulator opcode: whether it reads A and B, the accumulator, CIN; whether it has a ganged form; whether bsel
must fit the gang; and the exact result from the accumulator, CIN, A and B (R120, R123). -/
structure AccOp where
  useAB : Bool
  useAcc : Bool
  useCin : Bool
  ganged : Bool
  usesBsel : Bool
  fn : Nat → Fields → Int → Int → Nat → Nat → Int

/-- CIN as a cascade opcode reads it in X: the west neighbour's ACC0 at the end of the present cycle (R85, R132). -/
def readCinX (s : State) (x : Ctx) : Option Nat :=
  let w := s.die x.d
  match cascadeFrom x.t x.k with
  | none => some 0
  | some (t', k') =>
    let a := w.accX (accKey (cellKey t' k') (w.tile t').bankNo 0)
    if accOk a then some (a.toNat % 2 ^ 32) else none

/-- The accumulator writes of a result, 32 bits per member (R134). -/
def accWrites (x : Ctx) (sel raw : Nat) : List Pend :=
  (List.range x.g).map (fun j =>
    ⟨x.cycle + 1, x.d, .acc (accKey (cellKey x.t (x.k + j)) x.bank sel) (mkAcc (bitsOf raw (32 * j + 31) (32 * j)))⟩)

/-- Issue an accumulator opcode (R120, R121, R132 to R136). -/
def issueAcc (op : AccOp) (a : CellId) (f : Fields) (s : State) : State :=
  let x := ctxOf s a
  let dst := f.dst.toNat
  if !issues s x then s
  else
    let badSel := (op.useAB && (!plainSel f.sa.toNat || !plainSel f.sb.toNat)) || 1 < dst
    let badForm := (!op.ganged && 1 < x.g) || (op.usesBsel && x.g ≤ f.sh.toNat % 4)
    if badSel || badForm then illegal s x.d x.t x.k x.g false badSel badForm
    else
      let sa := f.sa.toNat
      let sb := f.sb.toNat
      let two := op.useAB && storeSel sa && storeSel sb && sa != sb
      let none' : Operand := ⟨some 0, [], false⟩
      let oa := if op.useAB then s.readOperand x.d x.t x.k x.g x.bank sa false else none'
      let ob := if op.useAB then s.readOperand x.d x.t x.k x.g x.bank sb two else none'
      let pf := ptrFails s x f (namedSels op.useAB op.useAB f) none
      let ar := gangAcc (fun k => (s.die x.d).accX (accKey (cellKey x.t k) x.bank dst)) x.k x.g
      let accFail := if op.useAcc then ar.2 else []
      let s1 := ((s.noteOperand x.d x.t oa).noteOperand x.d x.t (recordedB sa sb ob)).noteOperand x.d x.t ⟨none, pf ++ accFail, false⟩
      let s2 := if two then s1.usePhaseB x.d x.t x.k x.g else s1
      let nullF := !pf.isEmpty || (!accFail.isEmpty && !op.useCin)
      match oa.value, ob.value, nullF with
      | some av, some bv, false =>
        let s3 := s2.movePtrs x.d x.t x.k x.g x.bank f.p0u.toNat f.p1u.toNat
        let cin := if op.useCin then readCinX s x else some 0
        match cin, accFail.isEmpty with
        | some c, true =>
          let accV := if op.useAcc then valueOf (32 * x.g) f.u (ar.1.getD 0) else 0
          let r := reduce (32 * x.g) f.u f.s (op.fn (8 * x.g) f accV (valueOf 32 f.u c) av bv)
          let fs := flagWrites s x (fun fl => flagsAfter fl (32 * x.g) ⟨r.1, r.2, none⟩)
          s3.later x.d (accWrites x dst r.1 ++ fs)
        | some _, false => s3
        | none, _ => s3.parityFail x.d x.t x.k
      | _, _, _ => s2

/-! ## The instructions -/

/-- Two-operand opcodes that write z, n and perhaps c. -/
def alu2 (fn : AluIn → AluOut) : AluOp := ⟨true, true, false, true, false, fun _ i => fn i⟩

/-- The count of a shift: sh where sb is ZERO, else bits [4:0] of the leader's byte of B (R126). -/
def shiftCount (f : Fields) (i : AluIn) : Nat := if f.sb = 0x17#5 then f.sh.toNat else i.b % 32

/-- NOP: pointer updates only (R120). -/
def execNop (a : CellId) (f : Fields) (s : State) : Out :=
  let x := ctxOf s a
  if !issues s x then .next s
  else
    let pf := ptrFails s x f [] none
    let s1 := s.noteOperand x.d x.t ⟨none, pf, false⟩
    if pf.isEmpty then .next (s1.movePtrs x.d x.t x.k x.g x.bank f.p0u.toNat f.p1u.toNat) else .next s1

def execAdd (a : CellId) (f : Fields) (s : State) : Out := .next (issueAlu (alu2 aluAdd) a f s)
def execSub (a : CellId) (f : Fields) (s : State) : Out := .next (issueAlu (alu2 aluSub) a f s)
def execAnd (a : CellId) (f : Fields) (s : State) : Out := .next (issueAlu (alu2 aluAnd) a f s)
def execOr (a : CellId) (f : Fields) (s : State) : Out := .next (issueAlu (alu2 aluOr) a f s)
def execXor (a : CellId) (f : Fields) (s : State) : Out := .next (issueAlu (alu2 aluXor) a f s)
def execMin (a : CellId) (f : Fields) (s : State) : Out := .next (issueAlu (alu2 aluMin) a f s)
def execMax (a : CellId) (f : Fields) (s : State) : Out := .next (issueAlu (alu2 aluMax) a f s)
def execAbsd (a : CellId) (f : Fields) (s : State) : Out := .next (issueAlu (alu2 aluAbsd) a f s)

/-- SHL, SHR and ASR (R126). -/
def execShl (a : CellId) (f : Fields) (s : State) : Out :=
  .next (issueAlu (alu2 (fun i => aluShl (shiftCount f i) i)) a f s)
def execShr (a : CellId) (f : Fields) (s : State) : Out :=
  .next (issueAlu (alu2 (fun i => aluShr (shiftCount f i) i)) a f s)
def execAsr (a : CellId) (f : Fields) (s : State) : Out :=
  .next (issueAlu (alu2 (fun i => aluAsr (shiftCount f i) i)) a f s)

/-- MOV: a plain source, or a scaled CIN or accumulator value (R119). -/
def execMov (a : CellId) (f : Fields) (s : State) : Out :=
  let sa := f.sa.toNat
  .next (issueAlu ⟨false, true, true, true, false, fun _ i =>
    if scaledSel sa then
      aluScaled i.n i.u i.s (valueOf (if sa = 0x16 then 32 else 4 * i.n) i.u i.a) i.sh
    else aluMov i⟩ a f s)

/-- SEL: A where the predicate flag, read in X, is 1, else B; writes no flags (R122). -/
def execSel (a : CellId) (f : Fields) (s : State) : Out :=
  .next (issueAlu ⟨true, true, false, false, false, fun c i =>
    ⟨(if c then i.a else i.b) % 2 ^ i.n, false, none⟩⟩ a f s)

/-- CMP: no destination; its dst field is ignored (R122, R128). -/
def execCmp (a : CellId) (f : Fields) (s : State) : Out :=
  .next (issueAlu ⟨true, false, false, true, false, fun _ i => aluCmp i⟩ a f s)

/-- MUL: bsel must lie in the gang (R135). -/
def execMul (a : CellId) (f : Fields) (s : State) : Out :=
  .next (issueAlu ⟨true, true, false, true, decide ((ctxOf s a).g ≤ f.sh.toNat % 4), fun _ i => aluMul i⟩ a f s)

/-- MAC and MSU: accumulate A x B' (R135). -/
def execMac (a : CellId) (f : Fields) (s : State) : Out :=
  .next (issueAcc ⟨true, true, false, true, true, fun n f acc _ av bv =>
    acc + valueOf n f.u av * weightedByte n f.u bv (f.sh.toNat % 4)⟩ a f s)
def execMsu (a : CellId) (f : Fields) (s : State) : Out :=
  .next (issueAcc ⟨true, true, false, true, true, fun n f acc _ av bv =>
    acc - valueOf n f.u av * weightedByte n f.u bv (f.sh.toNat % 4)⟩ a f s)

/-- CMAC, CADD and CLD (R132); no ganged form (R136). -/
def execCmac (a : CellId) (f : Fields) (s : State) : Out :=
  .next (issueAcc ⟨true, false, true, false, false, fun n f _ cin av bv =>
    cin + valueOf n f.u av * valueOf n f.u bv⟩ a f s)
def execCadd (a : CellId) (f : Fields) (s : State) : Out :=
  .next (issueAcc ⟨false, true, true, false, false, fun _ _ acc cin _ _ => acc + cin⟩ a f s)
def execCld (a : CellId) (f : Fields) (s : State) : Out :=
  .next (issueAcc ⟨false, false, true, false, false, fun _ _ _ cin _ _ => cin⟩ a f s)

/-- CLRACC: clear ACC0, ACC1 or both; sh[0] also clears the sticky saturation flag (R121, R129). -/
def execClracc (a : CellId) (f : Fields) (s : State) : Out :=
  let x := ctxOf s a
  let dst := f.dst.toNat
  if !issues s x then .next s
  else if 2 < dst then .next (illegal s x.d x.t x.k x.g false true false)
  else
    let pf := ptrFails s x f [] none
    let s1 := s.noteOperand x.d x.t ⟨none, pf, false⟩
    if !pf.isEmpty then .next s1
    else
      let as := if dst = 2 then accWrites x 0 0 ++ accWrites x 1 0 else accWrites x dst 0
      let fs := if f.sh.getLsbD 0 then flagWrites s x (fun fl => { fl with sat := false }) else []
      .next ((s1.later x.d (as ++ fs)).movePtrs x.d x.t x.k x.g x.bank f.p0u.toNat f.p1u.toNat)

/-- TAP (R131): x := store at P1, h := D of P0[3:0]; acc := acc + x h; store at P1 + 1 := x; P0 by p0u, P1 - 1. -/
def execTap (a : CellId) (f : Fields) (s : State) : Out :=
  let x := ctxOf s a
  let dst := f.dst.toNat
  if !issues s x then .next s
  else if 1 < dst || 1 < x.g then .next (illegal s x.d x.t x.k x.g false (decide (1 < dst)) (decide (1 < x.g)))
  else
    let w := s.die x.d
    let ck := cellKey x.t x.k
    let p0 := SMap.get ptr0 w.ptr (accKey ck x.bank 0)
    let p1 := SMap.get ptr0 w.ptr (accKey ck x.bank 1)
    let rx := w.readStore ck x.bank 1 false
    let rh := if ptrOk p0 then rdByte (SMap.get byte0 w.dreg (dregKey ck x.bank (p0.toNat % 16))) else .parFail
    let ar := gangAcc (fun k => w.accX (accKey (cellKey x.t k) x.bank dst)) x.k 1
    let s1 := (s.noteOperand x.d x.t (gather [rx] x.k)).noteOperand x.d x.t (gather [rh] x.k)
    let s1 := s1.noteOperand x.d x.t ⟨none, ar.2, false⟩
    match rx, rh, ar.1 with
    | .val xv, .val hv, some acc =>
      let r := reduce 32 f.u f.s (valueOf 32 f.u acc + valueOf 8 f.u xv * valueOf 8 f.u hv)
      let fs := flagWrites s x (fun fl => flagsAfter fl 32 ⟨r.1, r.2, none⟩)
      let st : Pend := ⟨x.cycle + 2, x.d, .store (storeKey ck (p1.toNat % 512 + 1)) (mkByte xv)⟩
      .next ((s1.later x.d (accWrites x dst r.1 ++ fs ++ [st])).movePtrs x.d x.t x.k 1 x.bank f.p0u.toNat 2)
    | _, _, _ => .next s1

/-- The opcodes of R120. -/
def opKnown (op : Nat) : Bool :=
  op ≤ 0x0E || (0x10 ≤ op && op ≤ 0x13) || (0x18 ≤ op && op ≤ 0x1A) || op == 0x1C

/-- The fields of an instruction word (R116). -/
def fieldsOf (w : Word32) : Fields :=
  { s := w.getLsbD 25, dst := w.extractLsb' 20 5, sa := w.extractLsb' 15 5, sb := w.extractLsb' 10 5,
    sh := w.extractLsb' 5 5, u := w.getLsbD 4, p0u := w.extractLsb' 2 2, p1u := w.extractLsb' 0 2 }

/-- Which select codes of a word of a known opcode are illegal (R117, R119, R121). -/
def wordBadSel (op : Nat) (f : Fields) : Bool :=
  let sa := f.sa.toNat
  let sb := f.sb.toNat
  let dst := f.dst.toNat
  if op = 0 then false
  else if op = 0x0C then !(plainSel sa || scaledSel sa) || !plainSel dst
  else if op = 0x0E then !plainSel sa || !plainSel sb
  else if op = 0x11 ∨ op = 0x12 ∨ op = 0x18 then !plainSel sa || !plainSel sb || decide (1 < dst)
  else if op = 0x13 then decide (2 < dst)
  else if 0x18 ≤ op then decide (1 < dst)
  else !plainSel sa || !plainSel sb || !plainSel dst

/-- Whether a word of a known opcode breaks R135 or R136 in a gang of g cells. -/
def wordBadForm (op : Nat) (f : Fields) (g : Nat) : Bool :=
  if op = 0x10 ∨ op = 0x11 ∨ op = 0x12 then decide (g ≤ f.sh.toNat % 4)
  else decide (0x18 ≤ op ∧ 1 < g)

/-- An illegal instruction word issues: it retires as a null and sets the matching WT_ISTAT bits (R140). -/
def execIllegalInstruction (a : CellId) (w : Word32) (s : State) : Out :=
  let x := ctxOf s a
  let op := (w.extractLsb' 26 6).toNat
  let f := fieldsOf w
  let badOp := !opKnown op
  let badSel := !badOp && wordBadSel op f
  let badForm := !badOp && wordBadForm op f x.g
  if issues s x && (badOp || badSel || badForm) then .next (illegal s x.d x.t x.k x.g badOp badSel badForm)
  else .next s

end Sys2Proof.Machine
end

