-- ==== Sys2Proof/Machine/Tiles.lean ====
section
/-!
DEFINITION. Sys2Proof/Machine/Tiles.lean: moulds, schedules, pours and preemption (R141 to R169, R559, R562), and the
accesses of the tile windows (R113 to R115, R143, R150, R160).
-/

namespace Sys2Proof.Machine

/-! ## Mould, schedule and staging memory (R141 to R150) -/

/-- Codeword numbers within a tile, in scrub order (R149): 0 to 271 mould slot 17 m + q, 272 to 303 schedule entries,
304 to 335 staging entries. -/
def cwMould (m q : Nat) : Nat := 17 * m + q
def cwSched (i : Nat) : Nat := 272 + i
def cwStage (i : Nat) : Nat := 304 + i

/-- A codeword of a tile as the code reads it. -/
def WaDie.readCw (w : WaDie) (t cw : Nat) : SecRead :=
  if cw < 272 then dec72 (SMap.get 0#72 w.mould (272 * t + cw))
  else if cw < 304 then dec39 (SMap.get 0#39 w.sched (32 * t + (cw - 272)))
  else dec39 (SMap.get 0#39 w.stage (32 * t + (cw - 304)))

/-- Store a codeword as given. -/
def WaDie.putCw (w : WaDie) (t cw : Nat) (v : BitVec 72) : WaDie :=
  let w := w.setTile t { w.tile t with used := true }
  if cw < 272 then { w with mould := SMap.set 0#72 w.mould (272 * t + cw) v }
  else if cw < 304 then { w with sched := SMap.set 0#39 w.sched (32 * t + (cw - 272)) (v.setWidth 39) }
  else { w with stage := SMap.set 0#39 w.stage (32 * t + (cw - 304)) (v.setWidth 39) }

/-- A codeword of fresh data. -/
def encCw (cw d : Nat) : BitVec 72 := if cw < 272 then enc72 d else (enc39 d).setWidth 72

/-- Rewrite a codeword with fresh data: a pending writeback of it is dropped and its finding forgotten (R146, R562). -/
def State.writeCw (s : State) (d t cw data : Nat) : State :=
  let w := (s.die d).putCw t cw (encCw cw data)
  let x := w.tile t
  s.setDie d (w.setTile t { x with wb := x.wb.filter (fun e => e.1 != cw), logged := x.logged.filter (· != cw) })

/-- An uncorrectable codeword is found: status bits at every finding, one log entry until it is rewritten (R147, R148,
R562). -/
def State.foundUe (s : State) (d t cw : Nat) : State :=
  let s := if cw < 272 then (s.raise F.wtPstat_mouldUe [d, t]).put F.wtPstat_ueSlot [d, t] (cw / 17)
    else s.raise F.wtPstat_schedUe [d, t]
  let x := s.tile d t
  if x.logged.contains cw then s
  else
    let s := s.setTile d t { x with logged := cw :: x.logged }
    if cw < 272 then s.logEv d 1 0 0x0301 3 (leBytes 1 d ++ leBytes 2 t ++ leBytes 1 (cw / 17) ++ leBytes 1 (cw % 17))
    else s.logEv d 1 0 0x0302 3 (leBytes 1 d ++ leBytes 2 t ++ leBytes 1 ((cw - 272) % 32) ++ leBytes 1 0)

/-- A single-bit error was corrected in flight: counted, and written back when the memory is free (R146, R148). -/
def State.corrected (s : State) (d t cw data : Nat) : State :=
  let s := (s.raise F.wtPstat_mouldCe [d, t]).bucket (16 * d + 1) (leBytes 2 t)
  let x := s.tile d t
  s.setTile d t { x with wb := x.wb.filter (fun e => e.1 != cw) ++ [(cw, encCw cw data)] }

/-- Read a codeword as the sequencer, a NoC read, a fence commit or the scrub does (R146 to R149, R162). -/
def State.fetchCw (s : State) (d t cw : Nat) : Option Nat × State :=
  match (s.die d).readCw t cw with
  | .clean v => (some v, s)
  | .fixed v => (some v, s.corrected d t cw v)
  | .bad _ => (none, s.foundUe d t cw)

/-- The fields of a schedule entry (R150). -/
def entryEnd (e : Nat) : Bool := e.testBit 31
def entryNopre (e : Nat) : Bool := e.testBit 30
def entryMould (e : Nat) : Nat := bitsOf e 19 16
def entryRepeat (e : Nat) : Nat := e % 65536

/-- Whether a mould slot is named by the current schedule (R160). An entry that the tile has found uncorrectable names every
slot. -/
def slotNamed (w : WaDie) (t m : Nat) : Bool :=
  (List.range 32).any (fun i =>
    (w.tile t).logged.contains (cwSched i) ||
      (let r := w.readCw t (cwSched i)
       entryRepeat r.data != 0 && entryMould r.data == m))

/-- A tile is idle: no pour and no urgent schedule in progress (R115, R160). -/
def TileSt.idle (x : TileSt) : Bool := !x.running && x.urgent == .off

/-- Whether a tile is halted. -/
def State.haltOf (s : State) (d t : Nat) : Bool := s.flag F.wtCtrl_halt [d, t]

/-- Writes that the first column of R160 accepts: word array held, or tile halted and idle. -/
def State.openTile (s : State) (d t : Nat) : Bool := s.held d || (s.haltOf d t && (s.tile d t).idle)

/-- The sequencer reads mould memory in the present cycle (R149). -/
def State.setBusy (s : State) (d t : Nat) : State := s.setTile d t { s.tile d t with busy := true }

/-! ## The lead header and the schedule walk -/

/-- The lead fields of a header (R144). -/
def leadOf (h : Nat) : Lead :=
  ⟨bitsOf h 63 62, h.testBit 61, h.testBit 60, h.testBit 59, bitsOf h 58 54⟩

/-- Latch the lead header: only entry 0 and the header codeword are read; an uncorrectable one sets halt (R145, R147,
R148). -/
def State.latchLead (s0 : State) (d t : Nat) : State :=
  let s := s0.setBusy d t
  match s.fetchCw d t (cwSched 0) with
  | (none, s) => s.raise F.wtCtrl_halt [d, t]
  | (some e, s) =>
    match s.fetchCw d t (cwMould (entryMould e) 16) with
    | (none, s) => s.raise F.wtCtrl_halt [d, t]
    | (some h, s) => s.setTile d t { s.tile d t with lead := leadOf h }

/-- Walk a schedule from entry `i` to the next entry that issues a slot; `fuel` entries are left up to 31. An entry
with repeat 0 issues nothing but its end flag counts; entry 31 ends the schedule (R148, R151). -/
def walkSchedule (d t : Nat) : Nat → Nat → State → Option (SeqPos × Nat) × State
  | 0, _, s => (none, s)
  | fuel + 1, i, s =>
    match s.fetchCw d t (cwSched i) with
    | (none, s) => (none, s.raise F.wtCtrl_halt [d, t])
    | (some e, s) =>
      let s := if i = 31 ∧ !entryEnd e then s.raise F.wtPstat_noEnd [d, t] else s
      let last := entryEnd e || i == 31
      if entryRepeat e ≠ 0 then (some (⟨i, entryRepeat e, entryNopre e, last⟩, entryMould e), s)
      else if last then (none, s)
      else walkSchedule d t fuel (i + 1) s

/-- The first issuing entry at or after entry `i`. -/
def State.seek (s : State) (d t i : Nat) : Option (SeqPos × Nat) × State := walkSchedule d t (32 - i) i s

/-- Reserved switch settings and gang codes that the current mould holds set sw_err and hdr_err (R96, R97). -/
def badSwitchWord (k w : Nat) : Bool :=
  let badIn := [0, 1, 2, 3].any (fun e => bitsOf w (31 - 4 * e) (28 - 4 * e) == 15)
  let badRoute (r : Nat) : Bool := (0x29 ≤ r && r < 0x30)
  badIn || badRoute (bitsOf w 15 10) || badRoute (bitsOf w 9 4) || (w % 2 == 1 && k % 4 != 0)

def State.noteCurrent (s : State) (d t : Nat) : State :=
  let m := (s.tile d t).cur
  let sw := (List.range 16).any (fun k => match m.switch k with
    | some w => badSwitchWord k w
    | none => false)
  let hd := match m.header with
    | some h => [0, 1, 2, 3].any (fun r => bitsOf h (47 + 2 * r) (46 + 2 * r) == 3)
    | none => false
  let s := if sw then s.raise F.wtStat_swErr [d, t] else s
  if hd then s.raise F.wtStat_hdrErr [d, t] else s

/-- Read the 17 codewords of a mould as it becomes current (R147, R149). -/
def fetchMould (d t m : Nat) : List Nat → State → List (Option (BitVec 64)) × State
  | [], s => ([], s)
  | q :: qs, s =>
    let (v, s) := s.fetchCw d t (cwMould m q)
    let (r, s) := fetchMould d t m qs s
    (v.map (BitVec.ofNat 64) :: r, s)

/-- Make a mould current (R93, R149, R152). -/
def State.loadMould (s : State) (d t m : Nat) : State :=
  let (ws, s) := fetchMould d t m (List.range 17) s
  let x := s.tile d t
  (s.setTile d t { x with cur := ⟨m, ws⟩ }).noteCurrent d t

/-- Start a pour from schedule entry 0 (R152); a schedule with no slot ends in cycle 0 (R153). -/
def State.startPour (s0 : State) (d t : Nat) : State :=
  let s := s0.setBusy d t
  match s.seek d t 0 with
  | (none, s) => s.setTile d t { s.tile d t with running := false, pos := none }
  | (some (p, m), s) =>
    (s.setTile d t { s.tile d t with running := true, pos := some p }).loadMould d t m

/-! ## Fences (R161 to R163) -/

/-- The commit time of a tile's fence. -/
def State.fenceTime (s : State) (d t : Nat) : Nat := s.pair .wtFenceLo .wtFenceHi [d, t]

/-- Copy one staging entry into the schedule through its code; an uncorrectable one is copied as stored. -/
def copyStage (d t i : Nat) (s : State) : State :=
  match s.fetchCw d t (cwStage i) with
  | (some v, s) => s.writeCw d t (cwSched i) v
  | (none, s) =>
    let w := s.die d
    let raw := SMap.get 0#39 w.stage (32 * t + i)
    let w := w.putCw t (cwSched i) (raw.setWidth 72)
    let x := w.tile t
    s.setDie d (w.setTile t { x with logged := x.logged.filter (· != cwSched i),
                                     wb := x.wb.filter (fun e => e.1 != cwSched i) })

/-- Commit an armed fence at the tick of count `t0` (R162); `prev` is the previous tick's count plus 1: a tick at or
after T that was missed sets late (R163). -/
def State.commitFence (s : State) (d t t0 prev : Nat) : State :=
  let s := (List.range 32).foldl (fun s i => copyStage d t i s) s
  let s := s.setTile d t { s.tile d t with commitAt := t0 + 1 }
  let s := s.latchLead d t
  let s := (s.put F.wtFenceCtrl_arm [d, t] 0).raise F.wtFenceCtrl_done [d, t]
  if s.fenceTime d t < prev then s.raise F.wtFenceCtrl_late [d, t] else s

/-- Whether an armed fence may commit at count `t0`. -/
def State.fenceDue (s : State) (d t t0 : Nat) : Bool :=
  s.flag F.wtFenceCtrl_arm [d, t] && decide (s.fenceTime d t ≤ t0)

/-! ## Ticks at a tile (R152, R156 to R159, R169) -/

/-- A misrun: status, count and bucket (R156). -/
def State.misrun (s : State) (d t : Nat) : State :=
  ((s.raise F.wtPstat_misrun [d, t]).countUp F.wtPcnt_misruns [d, t]).bucket (16 * d + 2) (leBytes 2 t)

/-- A pour starts at a tick, after a fence due at it has committed; if the new lead header names another generator no
pour starts (R162, R163); a bad header or entry leaves the tile halted (R147, R148). Tiles paced by TICK0 start none while
a power mode is being entered (R479). -/
def State.pourAtTick (s : State) (d t n t0 prev : Nat) (delayed : Bool) : State :=
  let stays := s.pwr.stopIssue && n == 0
  let s := if s.fenceDue d t t0 && (s.haltOf d t || !stays) then s.commitFence d t t0 prev else s
  if s.haltOf d t || (s.tile d t).lead.tick != n || stays then
    s.setTile d t { s.tile d t with running := false, pos := none }
  else
    let s := s.startPour d t
    if delayed && (s.tile d t).running then s.raise F.wtPstat_delayed [d, t] else s

/-- Tick of generator n, count t0, at a tile that is not in a swap cycle or urgent schedule. A pour during which the clocks
stopped counts as a misrun too (R60, R479). -/
def State.tileTickNow (s : State) (d t n t0 prev : Nat) (delayed : Bool) : State :=
  let x := s.tile d t
  let s := s.setTile d t { x with cut := false }
  if x.running || x.cut then
    let s := s.misrun d t
    if s.haltOf d t || x.lead.mpol then s else s.pourAtTick d t n t0 prev delayed
  else if s.haltOf d t then
    if s.fenceDue d t t0 then s.commitFence d t t0 prev else s
  else s.pourAtTick d t n t0 prev delayed

/-- Tick of generator n at a tile: during a swap cycle or urgent schedule it is handled at return (R169). A tile whose fence
has committed at this count on another generator starts with the new generator's next tick (R163). -/
def State.tileTick (s : State) (d n t0 prev t : Nat) : State :=
  let x := s.tile d t
  if x.lead.tick != n || x.commitAt == t0 + 1 then s
  else if x.urgent != .off then
    s.setTile d t { x with ticksHeld := x.ticksHeld ++ [(t0, prev, (s.die d).cycle)] }
  else s.tileTickNow d t n t0 prev false

/-- The clocks of the word arrays stop: pours in progress are cut (R60, R479). -/
def WaDie.cutPours (w : WaDie) : WaDie :=
  { w with tiles := w.tiles.map (fun e => (e.1, if e.2.running then { e.2 with cut := true } else e.2)) }
def State.cutPours (s : State) : State := { s with wa := s.wa.map (fun e => (e.1, e.2.cutPours)) }

/-- POUR_END (R153): the W stage of the last slot has completed; the tile is idle until the next tick. -/
def execPourEnd (d : Fin 4) (t : Fin 2048) (s : State) : Out :=
  let x := s.tile d t
  if x.running && x.pos.isNone && decide (x.endAt ≤ (s.die d).cycle) then
    .next (s.setTile d t { x with running := false })
  else .next s

/-! ## Scrub and writeback (R146, R149) -/

/-- The last slot of an entry, in which the sequencer reads the next entry and its mould, or in the last urgent slot the main
mould that resumes (R149, R152). -/
def TileSt.readsNext (x : TileSt) : Bool :=
  x.slot &&
    (match (if x.urgent == .run then x.upos else x.pos) with
     | none => false
     | some p => decide (p.left ≤ 1) && (!p.last || (x.urgent == .run && x.pos.isSome)))

/-- Mould memory is free in the present cycle: the sequencer does not read it, and the cycle's read or writeback has not been
made (R146, R149). -/
def TileSt.memFree (x : TileSt) : Bool := !x.busy && !x.readsNext && !x.scrubbed

/-- MOULD_SCRUB_READ: in a cycle free of sequencer reads, read the next codeword, one in a cycle (R149). -/
def execMouldScrubRead (d : Fin 4) (t : Fin 2048) (s : State) : Out :=
  let x := s.tile d t
  if !x.memFree || !s.runs (16 + d.val) then .next s
  else
    let s1 := (s.fetchCw d t x.scrub).2
    .next (s1.setTile d t { s1.tile d t with scrub := (x.scrub + 1) % 336, scrubbed := true })

/-- MOULD_WRITEBACK: in a cycle in which the memory is free, the oldest corrected codeword is written back (R146). -/
def execMouldWriteback (d : Fin 4) (t : Fin 2048) (s : State) : Out :=
  let x := s.tile d t
  match x.wb with
  | [] => .next s
  | (cw, v) :: rest =>
    if !x.memFree then .next s
    else
      let w := (s.die d).putCw t cw v
      .next (s.setDie d (w.setTile t { w.tile t with wb := rest, scrubbed := true }))

/-! ## Halt, doorbell and preemption (R159, R164 to R169) -/

/-- Register accesses of a tile complete with TERR while the die's word-array clock is stopped (R80). -/
def State.tileServed (s : State) (d : Nat) : Bool := s.runs (16 + d)

/-- HALT (R159). -/
def execHalt (src : Src) (d : Fin 4) (t : Fin 2048) (s : State) : Out :=
  if s.tileServed d then .next ((s.raise F.wtCtrl_halt [d, t]).answer src .ok) else .next (s.answer src .terr)

/-- HALT_RELEASE: a change of halt from 1 to 0 latches the lead header (R159). -/
def execHaltRelease (src : Src) (d : Fin 4) (t : Fin 2048) (s : State) : Out :=
  if !s.tileServed d then .next (s.answer src .terr)
  else if s.haltOf d t then .next (((s.put F.wtCtrl_halt [d, t] 0).latchLead d t).answer src .ok)
  else .next (s.answer src .ok)

/-- DOORBELL: recognised in the next cycle, if pre_bell is set; otherwise ignored (R164). -/
def execDoorbell (src : Src) (d : Fin 4) (t : Fin 2048) (s : State) : Out :=
  if !s.tileServed d then .next (s.answer src .terr)
  else
    let x := s.tile d t
    if x.lead.preBell && !s.held d then .next ((s.setTile d t { x with bell := true }).answer src .ok)
    else .next (s.answer src .ok)

/-- An enabled event is recognised: ignored at a halted, idle tile and coalesced into a pending one, with pre_lost in
both cases; otherwise it waits to be taken (R168). -/
def State.recognise (s : State) (d t : Nat) : State :=
  let x := s.tile d t
  if s.haltOf d t && x.idle then s.raise F.wtPstat_preLost [d, t]
  else if x.evt then s.raise F.wtPstat_preLost [d, t]
  else s.setTile d t { x with evt := true }

/-- The flask, within its die, at a tile's position: the one whose clusters lie beside it (R76, R78, R311). -/
def flaskOfTile (t : Nat) : Nat := t / 128 / 4 + 4 * (t % 128 / 32)

/-- PREEMPTION_EVENT: the fabric event input is recognised; ignored where pre_fab is 0, the array is held, or the flask that drives
the input is isolated (R80, R164, R315). -/
def execPreemptionEvent (d : Fin 4) (t : Fin 2048) (s : State) : Out :=
  if (s.tile d t).lead.preFab && !s.held d && s.tileServed d && !s.flag F.ftlFlask_iso [16 * d + flaskOfTile t] then .next (s.recognise d t) else .next s

/-- PREEMPTION_TAKEN: the swap cycle; the tile moves to bank 1 and the urgent schedule's first mould is read (R165). -/
def execPreemptionTaken (d : Fin 4) (t : Fin 2048) (s : State) : Out :=
  let x := s.tile d t
  if x.evt && x.mayTake && !x.slot && x.urgent == .off then
    let s1 := (s.setTile d t { x with evt := false, mayTake := false, urgent := .swap, bank := true, busy := true }).countUp
      F.wtPcnt_preempts [d, t]
    match s1.seek d t x.lead.urg with
    | (none, s2) => .next (s2.setTile d t { s2.tile d t with upos := none })
    | (some (p, m), s2) => .next ((s2.setTile d t { s2.tile d t with upos := some p }).loadMould d t m)
  else .next s

/-- URGENT_RETURN: the bank returns to 0; held ticks are judged; the main schedule resumes or a delayed pour starts
(R165, R167, R169).  A pour is judged by whether it still runs in the return cycle, not in the tick's own (DESIGN CHOICE, log
entry 96).  A pour whose resumed entry is uncorrectable ends with the W stage of the last slot that it issued (R148, R153). -/
def execUrgentReturn (d : Fin 4) (t : Fin 2048) (s : State) : Out :=
  let x := s.tile d t
  if x.urgent == .run && x.upos.isNone then
    let s1 := s.setTile d t { x with urgent := .off, bank := false, ticksHeld := [], guard := true }
    let s2 := x.ticksHeld.foldl (fun s e =>
      s.tileTickNow d t x.lead.tick e.1 e.2.1 (decide (e.2.2 < (s.die d).cycle))) s1
    let y := s2.tile d t
    match y.pos with
    | some p =>
      if y.pos == x.pos then
        match s2.fetchCw d t (cwSched p.entry) with
        | (some e, s3) => .next (s3.loadMould d t (entryMould e))
        | (none, s3) => .next ((s3.raise F.wtCtrl_halt [d, t]).setTile d t
            { s3.tile d t with pos := none, endAt := x.lastMain + 3, running := decide ((s.die d).cycle < x.lastMain + 3) })
      else .next s2
    | none => .next s2
  else .next s

/-! ## Fence registers -/

/-- FENCE_ARM (R161). -/
def execFenceArm (src : Src) (d : Fin 4) (t : Fin 2048) (s : State) : Out :=
  if s.tileServed d then .next ((s.raise F.wtFenceCtrl_arm [d, t]).answer src .ok) else .next (s.answer src .terr)

/-- FENCE_CANCEL (R163). -/
def execFenceCancel (src : Src) (d : Fin 4) (t : Fin 2048) (s : State) : Out :=
  if s.tileServed d then .next ((s.put F.wtFenceCtrl_arm [d, t] 0).answer src .ok) else .next (s.answer src .terr)

/-! ## Tile windows (R113) -/

/-- The die, tile and offset an address of a tile window names (R24, R113). -/
def tileWindow (a : Nat) : Option (Nat × Nat × Nat) :=
  if 0x030000000000 ≤ a ∧ a < 0x034000000000 then
    let o := a - 0x030000000000
    let d := o / 0x1000000000
    let t := o % 0x1000000000 / 0x10000
    if t < 2048 then some (d, t, o % 0x10000) else none
  else none

/-- Natural alignment within a block of `within` bytes of a power-of-two size. -/
def sizeOk (sizes : List Nat) (off len within : Nat) : Bool :=
  sizes.contains len && off % len == 0 && off % within + len ≤ within

/-- The sizes of R143. -/
def mouldSizes : List Nat := [4, 8, 16, 32, 64]

/-- The part of a list of bytes. -/
def slice (l : List Byte) (a n : Nat) : List Byte := (l.drop a).take n

/-- Write bytes into a mould slot, codeword by codeword; a 4-byte write merges (R146, R147). -/
def State.mouldStore (s : State) (d t off : Nat) (data : List Byte) : Resp × State :=
  let m := off / 256
  let o := off % 256
  if o < 0x88 then
    if data.length = 4 then
      match s.fetchCw d t (cwMould m (o / 8)) with
      | (none, s) => (.derr, s)
      | (some v, s) =>
        let v' := if o % 8 = 0 then v / 2 ^ 32 * 2 ^ 32 + leNat data else v % 2 ^ 32 + 2 ^ 32 * leNat data
        (.ok, s.writeCw d t (cwMould m (o / 8)) v')
    else
      (.ok, (List.range (data.length / 8)).foldl (fun s i =>
        if o / 8 + i < 17 then s.writeCw d t (cwMould m (o / 8 + i)) (leNat (slice data (8 * i) 8)) else s) s)
  else (.ok, s)

/-- Judge and perform a write to the mould region (R143, R160, R367). -/
def State.mouldWrite (s : State) (r : Req) (d t off : Nat) : Resp × State :=
  if !sizeOk mouldSizes off r.len 256 || r.data.length != r.len then (.aerr, s)
  else if !s.tileServed d then (.terr, s)
  else if !s.openTile d t && slotNamed (s.die d) t ((off - 0x2000) / 256) then (.aerr, s)
  else if !r.badPar.isEmpty then (.perr, s)
  else s.mouldStore d t (off - 0x2000) r.data

/-- Write schedule or staging entries (R150, R160). -/
def State.entryWrite (s : State) (r : Req) (d t off : Nat) : Resp × State :=
  if !sizeOk mouldSizes off r.len 128 || r.data.length != r.len then (.aerr, s)
  else if !s.tileServed d then (.terr, s)
  else if off < 0x3080 && !s.openTile d t then (.aerr, s)
  else if !r.badPar.isEmpty then (.perr, s)
  else
    (.ok, (List.range (r.len / 4)).foldl (fun s i =>
      s.writeCw d t (272 + ((off - 0x3000) / 4 + i)) (leNat (slice r.data (4 * i) 4))) s)

/-- Read bytes of the mould, schedule or staging regions after correction; DERR where a codeword is uncorrectable
(R143, R146, R147). -/
def readCws (d t : Nat) : List Nat → State → List Byte × Bool × State
  | [], s => ([], true, s)
  | cw :: r, s =>
    let n := if cw < 272 then 8 else 4
    match s.fetchCw d t cw with
    | (some v, s) => let (bs, ok, s) := readCws d t r s; (leBytes n v ++ bs, ok, s)
    | (none, s) => let (bs, _, s) := readCws d t r s; (List.replicate n 0#8 ++ bs, false, s)

def State.mouldRead (s : State) (r : Req) (d t off : Nat) : Resp × List Byte × State :=
  if !sizeOk mouldSizes off r.len 256 then (.aerr, [], s)
  else if !s.tileServed d then (.terr, [], s)
  else
    let m := (off - 0x2000) / 256
    let o := off % 256
    let n := (r.len + 7) / 8
    let cws := ((List.range n).map (o / 8 + ·)).filter (· < 17)
    let (bs, ok, s) := readCws d t (cws.map (cwMould m)) s
    (if ok then .ok else .derr, slice (bs ++ List.replicate 64 0#8) (o % 8) r.len, s)

def State.entryRead (s : State) (r : Req) (d t off : Nat) : Resp × List Byte × State :=
  if !sizeOk mouldSizes off r.len 128 then (.aerr, [], s)
  else if !s.tileServed d then (.terr, [], s)
  else
    let (bs, ok, s) := readCws d t ((List.range (r.len / 4)).map (272 + (off - 0x3000) / 4 + ·)) s
    (if ok then .ok else .derr, bs, s)

/-- MOULD_WRITE (R160). -/
def execMouldWrite (r : Req) (s : State) : Out :=
  match tileWindow r.addr.toNat with
  | some (d, t, off) =>
    if 0x2000 ≤ off ∧ off < 0x3000 then
      let (c, s) := s.mouldWrite r d t off
      .next (s.respond r c)
    else .next (s.respond r .aerr)
  | none => .next (s.respond r .aerr)

/-- SCHEDULE_WRITE (R160). -/
def execScheduleWrite (r : Req) (s : State) : Out :=
  match tileWindow r.addr.toNat with
  | some (d, t, off) =>
    if 0x3000 ≤ off ∧ off < 0x3080 then
      let (c, s) := s.entryWrite r d t off
      .next (s.respond r c)
    else .next (s.respond r .aerr)
  | none => .next (s.respond r .aerr)

/-- STAGING_WRITE (R160): always accepted. -/
def execStagingWrite (r : Req) (s : State) : Out :=
  match tileWindow r.addr.toNat with
  | some (d, t, off) =>
    if 0x3080 ≤ off ∧ off < 0x3100 then
      let (c, s) := s.entryWrite r d t off
      .next (s.respond r c)
    else .next (s.respond r .aerr)
  | none => .next (s.respond r .aerr)

/-! ## Cell stores and cell state (R114, R115) -/

/-- A cell-store access arrives: a wrong size completes with AERR, a stopped clock with TERR; otherwise it waits. -/
def State.storeArrive (s : State) (r : Req) (d t off : Nat) : State :=
  if !sizeOk [1, 2, 4, 8, 16, 32, 64] off r.len 512 || (r.write && r.data.length != r.len) then s.respond r .aerr
  else if !s.tileServed d then s.respond r .terr
  else
    let w := s.die d
    s.setDie d { w with waits := w.waits ++ [⟨r, t, off / 512, off % 512⟩] }

/-- CELL_STORE_ACCESS (R114). -/
def execCellStoreAccess (r : Req) (s : State) : Out :=
  match tileWindow r.addr.toNat with
  | some (d, t, off) => if off < 0x2000 then .next (s.storeArrive r d t off) else .next (s.respond r .aerr)
  | none => .next (s.respond r .aerr)

/-- Phase B of a cell is free in the present cycle (R84, R114). -/
def WaDie.phaseBFree (w : WaDie) (ck : Nat) : Bool := !w.storeWrites ck && !w.phB.contains ck

/-- CELL_STORE_ACCESS_DONE: the oldest access that waits at the cell is performed in phase B (R114). -/
def execCellStoreAccessDone (a : CellId) (s : State) : Out :=
  let d := a.die.val
  let w := s.die d
  let ck := cellKey a.tile a.cell
  match w.waits.find? (fun x => x.tile == a.tile.val && x.cell == a.cell.val) with
  | none => .next s
  | some x =>
    if !w.phaseBFree ck then .next s
    else
      let w1 := { w with waits := w.waits.erase x, phB := ck :: w.phB }
      if x.req.write then
        if !x.req.badPar.isEmpty then .next ((s.setDie d w1).respond x.req .perr)
        else
          let st := (List.range x.req.len).foldl (fun m i =>
            SMap.set byte0 m (storeKey ck (x.addr + i)) (mkByte (x.req.data.getD i 0#8).toNat)) w1.store
          .next ((s.setDie d { w1 with store := st }).respond x.req .ok)
      else
        let bs := (List.range x.req.len).map (fun i => SMap.get byte0 w1.store (storeKey ck (x.addr + i)))
        let data := bs.map (fun b => b.setWidth 8)
        let bad := (List.range x.req.len).filter (fun i => !byteOk (bs.getD i byte0))
        if bad.isEmpty then .next ((s.setDie d w1).respond x.req .ok data)
        else .next (((s.setDie d w1).parityFail d a.tile a.cell).respond x.req .perr data bad)

/-- Write a word of the cell state region at byte offset `off` (R115): parity is regenerated. -/
def putCellState (w : WaDie) (ck off : Nat) (v : Word32) : WaDie :=
  if off < 0x20 then
    { w with dreg := (List.range 4).foldl (fun m i =>
        SMap.set byte0 m (dregKey ck (off / 16) (off % 16 + i)) (mkByte (bitsOf v.toNat (8 * i + 7) (8 * i)))) w.dreg }
  else if off < 0x30 then
    { w with acc := SMap.set acc0 w.acc (accKey ck ((off - 0x20) / 8) ((off - 0x20) / 4 % 2)) (mkAcc v.toNat) }
  else if off < 0x40 then
    { w with ptr := SMap.set ptr0 w.ptr (accKey ck ((off - 0x30) / 8) ((off - 0x30) / 4 % 2)) (mkPtr v.toNat) }
  else if off < 0x48 then
    let fl : CFlags := ⟨v.getLsbD 0, v.getLsbD 1, v.getLsbD 2, v.getLsbD 3⟩
    { w with flags := SMap.set default w.flags (flagKey ck ((off - 0x40) / 4)) fl }
  else w

/-- Read a word of the cell state region, with the bytes of it whose stored parity fails (R114, R115); a pointer's one parity
bit marks the two bytes that hold the pointer (DESIGN CHOICE, log entry 95). -/
def getCellState (w : WaDie) (t k off : Nat) : Word32 × List Nat :=
  let ck := cellKey t k
  if off < 0x20 then
    let bs := (List.range 4).map (fun i => SMap.get byte0 w.dreg (dregKey ck (off / 16) (off % 16 + i)))
    (BitVec.ofNat 32 (leNat (bs.map (fun b => b.setWidth 8))), (List.range 4).filter (fun i => !byteOk (bs.getD i byte0)))
  else if off < 0x30 then
    let a := SMap.get acc0 w.acc (accKey ck ((off - 0x20) / 8) ((off - 0x20) / 4 % 2))
    (a.setWidth 32, accBad a)
  else if off < 0x40 then
    let p := SMap.get ptr0 w.ptr (accKey ck ((off - 0x30) / 8) ((off - 0x30) / 4 % 2))
    (BitVec.ofNat 32 (p.toNat % 512), if ptrOk p then [] else [0, 1])
  else if off < 0x48 then
    let f := SMap.get default w.flags (flagKey ck ((off - 0x40) / 4))
    (BitVec.ofNat 32 (b2n f.z + 2 * b2n f.n + 4 * b2n f.c + 8 * b2n f.sat), [])
  else if off = 0x48 then (BitVec.ofNat 32 (w.tile t).bankNo, [])
  else (0#32, [])

/-- CELL_STATE_WRITE: only while the tile is idle, otherwise AERR (R115). `off` counts 32-bit words. -/
def execCellStateWrite (src : Src) (a : CellId) (off : Fin 64) (w : Word32) (s : State) : Out :=
  if !s.tileServed a.die then .next (s.answer src .terr)
  else if !(s.tile a.die a.tile).idle then .next (s.answer src .aerr)
  else .next ((s.setDie a.die (putCellState (s.die a.die) (cellKey a.tile a.cell) (4 * off.val) w)).answer src .ok)

/-- WT_PCNT_READ: a normal read returns and clears the counts; a peek read does not clear (R20, R156). -/
def execWtPcntRead (src : Src) (d : Fin 4) (t : Fin 2048) (s : State) : Out :=
  if !s.tileServed d then .next (s.answer src .terr)
  else
    let w := s.readReg .wtPcnt [d, t]
    let s1 := if src.peeks then s else s.setReg .wtPcnt [d, t] 0#32
    .next (s1.answerWord src w)

end Sys2Proof.Machine
end

