-- ==== Sys2Proof/Machine/Power.lean ====
section
/-!
DEFINITION. Sys2Proof/Machine/Power.lean: sensors, temper levels, the sequencer, the governor, power modes, trips, ageing
and the SMBus target (R466 to R486).
-/

namespace Sys2Proof.Machine

/-- A log entry of the power unit (R486). -/
def State.powerLog (s : State) (event sev : Nat) (payload : List Byte) : State := s.logEv 8 12 0 event sev payload

/-! ## Temper levels (R471 to R473) -/

/-- Base voltage in mV, word-array clock and NoC clock in MHz, by level. -/
def tlVolt (t : Nat) : Nat := [550, 600, 650, 675, 700, 750, 800, 850].getD t 850
def tlWaMhz (t : Nat) : Nat := [300, 400, 500, 600, 700, 800, 900, 1000].getD t 1000
def tlNocMhz (t : Nat) : Nat := [400, 600, 800, 1000, 1150, 1300, 1450, 1600].getD t 1600

/-- The scale of a domain's power at a level: f × V², where a fabric domain changes only its voltage (R471, R476). -/
def tlScale (k t : Nat) : Nat :=
  (if k < 4 then 1 else if k < 8 then tlWaMhz t else tlNocMhz t) * tlVolt t * tlVolt t

/-- The levels a domain may take, rising: from floor to ceiling without the retired ones; the floor alone where it lies
above the ceiling or nothing is left (R473). The fabric domain of a Tarod die has TL7 alone (R345). -/
def State.levels (s : State) (k : Nat) : List Nat :=
  let f := s.get F.pwrTl_floor [k]
  let c := s.get F.pwrTl_ceil [k]
  let r := s.get F.pwrTl_retired [k]
  if k < 4 ∧ s.flag F.glbTarod_active [] ∧ s.get F.glbTarod_die [] + 2 = k then [7]
  else
    match (List.range 8).filter (fun t => decide (f ≤ t) && decide (t ≤ c) && !r.testBit t) with
    | [] => [f]
    | l => l

/-- The level below `t`, and the level above it, of a domain. -/
def State.below (s : State) (k t : Nat) : Option Nat := ((s.levels k).filter (· < t)).getLast?
def State.above (s : State) (k t : Nat) : Option Nat := ((s.levels k).filter (t < ·)).head?

/-- One step moves a level by one. -/
def State.stepLevel (s : State) (raising : Bool) (k t : Nat) : Nat :=
  ((if raising then s.above k t else s.below k t)).getD t

/-- The level of a domain once every planned step has been carried out. -/
def State.plannedLevel (s : State) (k : Nat) : Nat :=
  s.pwr.plan.foldl (fun t p => if p.freq && p.doms.contains k then s.stepLevel p.raising k t else t) (s.get F.pwrTl_cur [k])

/-- Plan further steps; the plan's count anchors a raising step (R475). -/
def State.planSteps (s : State) (l : List SeqStep) : State :=
  if l.isEmpty then s
  else { s with pwr := { s.pwr with plan := s.pwr.plan ++ l, planAt := if s.pwr.plan.isEmpty then s.tb.count else s.pwr.planAt } }

/-- Bring every domain into its floor and ceiling, one level per step (R473, R474). -/
def fixLevels : Nat → State → State
  | 0, s => s
  | n + 1, s =>
    let high := (List.range 10).filter (fun k => decide ((s.levels k).getLastD 7 < s.plannedLevel k))
    let low := (List.range 10).filter (fun k => decide (s.plannedLevel k < (s.levels k).headD 0))
    if !high.isEmpty then fixLevels n (s.planSteps [⟨false, high, true⟩])
    else if !low.isEmpty then fixLevels n (s.planSteps [⟨true, low, true⟩])
    else s
def State.fixLevels (s : State) : State := Machine.fixLevels 16 s

/-! ## The sequencer (R474, R475) -/

/-- The moment that anchors the step in hand: a raising step at least 20 µs after the plan and the last clearing of busy. -/
def State.anchor (s : State) (raising : Bool) : Nat :=
  s.nextMoment (max s.pwr.planAt s.pwr.clearedAt + (if raising then 20000 else 0))

/-- SEQUENCER_RAISE_START: 20 µs before the anchoring tick the rails start to rise. -/
def execSequencerRaiseStart (s : State) : Out :=
  match s.pwr.plan with
  | p :: _ =>
    if p.raising && s.pwr.stage == 0 && s.clocked && decide (s.anchor true ≤ s.tb.count + 20000) then
      let s1 := s.raise F.pwrStat_busy []
      .next { s1 with pwr := { s1.pwr with stage := 1, planAt := s.tb.count } }
    else .next s
  | [] => .next s

/-- The clocks of a step's domains switch to the next level's frequency. -/
def State.switchLevels (s : State) (p : SeqStep) : State :=
  if p.freq then p.doms.foldl (fun s k => s.put F.pwrTl_cur [k] (s.stepLevel p.raising k (s.get F.pwrTl_cur [k]))) s else s

/-- SEQUENCER_FREQUENCY_SWITCH: at the anchoring tick (R72) the clocks switch; a raising step is then done, a lowering one
lets its rails fall. -/
def execSequencerFrequencySwitch (s : State) : Out :=
  match s.pwr.plan with
  | p :: rest =>
    if !s.clocked || s.nextMoment s.tb.count != s.tb.count then .next s
    else if p.raising then
      if s.pwr.stage = 1 ∧ s.anchor true ≤ s.tb.count then
        let s1 := (s.switchLevels p).put F.pwrStat_busy [] 0
        .next { s1 with pwr := { s1.pwr with stage := 0, plan := rest, clearedAt := s.tb.count } }
      else .next s
    else if s.pwr.stage = 0 ∧ s.anchor false ≤ s.tb.count then
      let s1 := (s.switchLevels p).raise F.pwrStat_busy []
      .next { s1 with pwr := { s1.pwr with stage := 2, planAt := s.tb.count } }
    else .next s
  | [] => .next s

/-- SEQUENCER_STEP_COMPLETE: the falling rails have settled and busy clears. -/
def execSequencerStepComplete (s : State) : Out :=
  if s.pwr.stage = 2 ∧ s.clocked then
    let s1 := s.put F.pwrStat_busy [] 0
    .next { s1 with pwr := { s1.pwr with stage := 0, plan := s1.pwr.plan.drop 1, clearedAt := s.tb.count } }
  else .next s

/-- The level whose voltage a domain's rail has or moves to: while a raising step is in progress, the level it raises the domain to
(R474, R475). -/
def State.railLevel (s : State) (k : Nat) : Nat :=
  let cur := s.get F.pwrTl_cur [k]
  match s.pwr.plan with
  | p :: _ => if s.pwr.stage = 1 ∧ p.freq ∧ p.doms.contains k then s.stepLevel true k cur else cur
  | [] => cur

/-- The rail voltage of a domain in mV: base voltage and margin of its level, clamped at the fused maximum; the retention voltage of the
fabric and word-array rails in deep sleep (R472, R479). -/
def State.railMv (s : State) (k : Nat) : Nat :=
  let t := s.railLevel k
  min (s.get F.pwrFuse_vmaxMv [])
    (if s.mode = 2 ∧ k < 8 then 550 else tlVolt t + 5 * bitsOf (s.get F.pwrMargin_steps [k]) (4 * t + 3) (4 * t))

/-! ## Trips (R482, R483) -/

/-- The sites with temperature sensors (R469). -/
def sensorSites : List Nat := [0, 1, 2, 3, 8, 10, 11]

/-- The hottest reading of all dies. -/
def State.hottest (s : State) : Nat := (sensorSites.map (fun n => s.get F.pwrSens_temp [n])).foldl max 0

/-- 110 °C, 100 °C in units of 0.125 °C above −64 °C. -/
def tripTemp : Nat := 1392
def releaseTemp : Nat := 1312

/-- A trip is latched: fabric and word-array clocks stop, user outputs go safe, transmitters idle, masters stop issuing. -/
def State.trip (s : State) (therm : Bool) : State :=
  let s := (s.raise F.pwrTrip_active []).put F.pwrTrip_therm [] (b2n therm)
  let s := s.forceSafe.cutPours
  { s with pins := { s.pins with therm := therm || s.pins.therm }, pwr := { s.pwr with stopIssue := true } }

/-- A write to PWR_TRIP: requester 1 or 10 releases a trip once every sensor reads below 100 °C (R483). -/
def State.tripWrite (s : State) (q : Src) (w : Word32) : State :=
  let s := s.writeReg .pwrTrip [] w
  if F.pwrTrip_release.of w = 0 ∨ !(q.requester == 1 || q.requester == 10) then s
  else if releaseTemp ≤ s.hottest then s.raise F.pwrTrip_early []
  else if !s.flag F.pwrTrip_active [] then s
  else
    let cause := s.get F.pwrTrip_therm []
    let s := (s.put F.pwrTrip_active [] 0).put F.pwrTrip_therm [] 0
    let s := ({ s with pins := { s.pins with safe := s.clk.phase != .running, txIdle := false, therm := false },
                       pwr := { s.pwr with stopIssue := s.pwr.entry == 2 } } : State)
    s.lanesRestart.powerLog 0x0903 0 (leBytes 1 cause ++ leBytes 2 s.hottest)

/-- TRIP_RELEASE. -/
def execTripRelease (src : Src) (w : Word32) (s : State) : Out :=
  .next (s.command src .pwrTrip [] (w ||| 0x20000000#32) (·.tripWrite src (w ||| 0x20000000#32)))

/-- SENSOR_SAMPLE: the sensors of a die sample (R469); one at 110 °C trips (R482), one at the warning threshold raises the
power interrupt and writes a log entry, whose code the manual does not give (R483). -/
def execSensorSample (n : Fin 12) (temps : List (BitVec 12)) (s : State) : Out :=
  if !sensorSites.contains n.val || temps.isEmpty then .next s
  else
    let top := (temps.map BitVec.toNat).foldl max 0
    let at_ := (temps.findIdx? (fun t => t.toNat == top)).getD 0
    let s := s.put F.pwrSens_temp [n] top
    let s :=
      if tripTemp ≤ top ∧ !(s.flag F.pwrTrip_active [] && s.flag F.pwrTrip_therm []) then
        (s.trip true).powerLog 0x0901 4 (leBytes 1 n.val ++ leBytes 1 at_ ++ leBytes 2 top)
      else s
    let warned := s.pwr.warned.contains n.val
    if s.get F.pwrTrip_warn [] ≤ top then
      if warned then .next s
      else
        let (f, s) := s.draw
        let s := (s.powerLog (0x0900 + (Config.freeValue 8 f).toNat) (Config.freeValue 3 f).toNat
          (leBytes 19 (Config.freeValue 152 f).toNat)).interrupt .power
        .next { s with pwr := { s.pwr with warned := n.val :: s.pwr.warned } }
    else .next { s with pwr := { s.pwr with warned := s.pwr.warned.filter (· != n.val) } }

/-! ## The governor (R476 to R478) -/

/-- The domains of PWR_PRIO in order, up to the end mark. -/
def State.priority (s : State) : List Nat :=
  let o := s.get F.pwrPrio_order []
  (((List.range 8).map (fun i => bitsOf o (4 * i + 3) (4 * i))).takeWhile (· != 15)).filter (· < 10)

/-- The kind of a domain: fabric, word array, NoC, cores. -/
def domKind (k : Nat) : Nat := if k < 4 then 0 else if k < 8 then 1 else k

/-- Runs of neighbours of one kind in the order: the governor lowers a run together (log entry 40). -/
def priorityRuns : List Nat → List (List Nat)
  | [] => []
  | k :: t =>
    match priorityRuns t with
    | (j :: r) :: rest => if domKind j = domKind k then (k :: j :: r) :: rest else [k] :: (j :: r) :: rest
    | l => [k] :: l

/-- Estimated power of a domain in µW at a level, scaled from its measured power in mW at its present level. -/
def State.scaled (s : State) (doms : List Nat) (k t : Nat) : Nat :=
  doms.getD k 0 * 1000 * tlScale k t / tlScale k (s.get F.pwrTl_cur [k])

/-- The package estimate in µW once the plan is carried out. -/
def State.estimate (s : State) (avg : Nat) (doms : List Nat) : Nat :=
  avg * 1000 + ((List.range 10).map (fun k => s.scaled doms k (s.plannedLevel k))).foldl (· + ·) 0
    - ((List.range 10).map (fun k => doms.getD k 0 * 1000)).foldl (· + ·) 0

/-- Plan single-level lowerings, run by run, until the estimate meets the cap. -/
def planLowering (avg : Nat) (doms : List Nat) (cap : Nat) : Nat → State → State
  | 0, s => s
  | n + 1, s =>
    if s.estimate avg doms ≤ cap then s
    else
      match ((priorityRuns s.priority).map (·.filter (fun k => (s.below k (s.plannedLevel k)).isSome))).find? (!·.isEmpty) with
      | none => s
      | some g =>
        let s := s.planSteps [⟨false, g, true⟩]
        planLowering avg doms cap n { s with pwr := { s.pwr with lowered := g :: s.pwr.lowered } }

/-- GOVERNOR_WINDOW_END: `avg` the average package power of the window that has ended and `doms` the power measured for each
domain, in mW; nothing is judged before a window has ended (R476). -/
def execGovernorWindowEnd (avg : BitVec 32) (doms : List Nat) (s0 : State) : Out :=
  if !s0.clocked || !s0.pwr.winOver then .next s0
  else
    let s := ({ s0 with pwr := { s0.pwr with winOver := false } } : State)
    let a := avg.toNat
    let cap := 1000 * s.get F.pwrCap_capW []
    let ceil := 1000 * s.get F.pwrFuse_ceilW []
    let s := s.setReg .pwrMeas [] avg
    let above := if 105 * ceil < 100 * a then s.pwr.above + 1 else 0
    let s := { s with pwr := { s.pwr with above := above, misses := s.pwr.misses - 1 } }
    let s := if 8 ≤ above ∧ !s.flag F.pwrTrip_active [] then (s.trip false).powerLog 0x0902 4 (leBytes 4 a) else s
    if cap < a then
      let s := { s with pwr := { s.pwr with below := 0 } }
      let s1 := planLowering a doms (cap * 1000) 80 s
      if s1.pwr.plan.isEmpty then
        let s2 := s1.raise F.pwrStat_capMiss []
        if s2.pwr.misses = 0 then
          let s3 := s2.powerLog 0x0904 2 (leBytes 4 cap ++ leBytes 4 a)
          .next { s3 with pwr := { s3.pwr with misses := 1000 } }
        else .next s2
      else .next s1
    else if 100 * a ≤ 95 * cap then
      if s.pwr.below + 1 < 10 then .next { s with pwr := { s.pwr with below := s.pwr.below + 1 } }
      else
        let s := { s with pwr := { s.pwr with below := 0 } }
        match s.pwr.lowered with
        | [] => .next s
        | g :: rest =>
          let up := g.filter (fun k => (s.above k (s.plannedLevel k)).isSome)
          if up.isEmpty then .next { s with pwr := { s.pwr with lowered := rest } }
          else
            let s := s.planSteps [⟨true, up, true⟩]
            .next { s with pwr := { s.pwr with lowered := rest } }
    else .next { s with pwr := { s.pwr with below := 0 } }

/-- A write to PWR_CAP: 40 W up to the fused ceiling (R478). -/
def State.capWrite (s : State) (w : Word32) : State :=
  s.put F.pwrCap_capW [] (min (s.get F.pwrFuse_ceilW []) (max 40 (F.pwrCap_capW.of w)))

/-- CAP_WRITE. -/
def execCapWrite (src : Src) (w : Word32) (s : State) : Out := .next (s.command src .pwrCap [] w (·.capWrite w))

/-! ## Level and margin registers -/

/-- A write to PWR_TLk: the floor of domains 8 and 9 is writable (R473). -/
def State.levelWrite (s : State) (k : Nat) (w : Word32) : State :=
  let s := s.writeReg .pwrTl [k] w
  (if 8 ≤ k then s.put F.pwrTl_floor [k] (F.pwrTl_floor.of w) else s).fixLevels

/-- Whether a write to PWR_MARGINk only clears: each margin keeps its value or becomes 0 (R484). -/
def State.marginClears (s : State) (k : Nat) (w : Word32) : Bool :=
  (List.range 8).all (fun t =>
    let n := bitsOf w.toNat (4 * t + 3) (4 * t)
    n == 0 || n == bitsOf (s.get F.pwrMargin_steps [k]) (4 * t + 3) (4 * t))

/-! ## Power modes (R479 to R481) -/

/-- At the first TICK0 tick after a request masters stop issuing; a request made while firmware commits waits (R508). -/
def State.modeEntryTick (s : State) : State :=
  if s.pwr.entry = 1 ∧ s.get F.updStat_state [] ≠ 4 then
    { s with pwr := { s.pwr with entry := 2, stopIssue := true } }
  else s

/-- The device returns to run mode; `cause` is the wake source (R481). From deep sleep lanes bring up again and the
fettlers start their pass at frame 0 (R479). -/
def State.wakeNow (s : State) (cause : Nat) : State :=
  let old := s.mode
  let s := (s.put F.pwrStat_mode [] 0).put F.pwrStat_wakeSrc [] cause
  let s := ({ s with pwr := { s.pwr with request := 0, entry := 0, wakeAfter := 0, stopIssue := s.flag F.pwrTrip_active [] } } : State)
  let s := s.powerLog 0x0908 0 (leBytes 1 old ++ leBytes 1 0 ++ leBytes 1 cause)
  if old = 2 then
    let s := ({ s with fab := { s.fab with at_ := [] }, lanes := { s.lanes with linkState := 0 } } : State)
    (List.range 40).foldl (fun s l =>
      if s.flag F.lnLaneCfg_en [l] && !s.flag F.lnLaneStat_retired [l] && !s.laneHeld l then s.startLane l else s) s
  else s

/-- A wake source: at once in sleep and deep sleep, after the entry while one is in progress. -/
def State.wake (s : State) (cause : Nat) : State :=
  if s.pwr.entry ≠ 0 then { s with pwr := { s.pwr with wakeAfter := if s.pwr.wakeAfter = 0 then cause else s.pwr.wakeAfter } }
  else if s.mode ≠ 0 then s.wakeNow cause
  else s

/-- Whether the host link is in L0 (R480). -/
def State.linkL0 (s : State) : Bool := s.flag F.pciStat_dlUp [] && s.lanes.linkState == 0

/-- A request to enter a mode below the present one. -/
def State.requestMode (s : State) (m : Nat) : State :=
  if m = 2 ∧ s.linkL0 then s.raise F.pwrStat_refused []
  else if s.mode < m then { s with pwr := { s.pwr with request := m, entry := if s.pwr.entry = 0 then 1 else s.pwr.entry } }
  else s

/-- A write to PWR_MODE: 3 acts as 0 (R479). -/
def State.modeWrite (s : State) (w : Word32) : State :=
  let s := s.writeReg .pwrMode [] w
  match F.pwrMode_mode.of w with
  | 1 => s.requestMode 1
  | 2 => s.requestMode 2
  | _ => s.wake 1

/-- In deep sleep only the MC and debug can write PWR_MODE (R481). -/
def State.modeCommand (s : State) (q : Src) (w : Word32) : State :=
  if s.mode = 2 ∧ q.requester = 1 then s.answer q .serr else s.command q .pwrMode [] w (·.modeWrite w)

/-- SLEEP_REQUEST, DEEP_SLEEP_REQUEST, RUN_REQUEST. -/
def execSleepRequest (src : Src) (s : State) : Out := .next (s.modeCommand src 1#32)
def execDeepSleepRequest (src : Src) (s : State) : Out := .next (s.modeCommand src 2#32)
def execRunRequest (src : Src) (s : State) : Out := .next (s.modeCommand src 0#32)

/-- TAG_DRAIN_COMPLETE: no tag is outstanding and no sequencer step is pending; the clocks of the new mode gate, pours in
progress are cut, and for deep sleep the lanes go off and the host link to L2. -/
def execTagDrainComplete (s : State) : Out :=
  if s.pwr.entry = 2 ∧ s.noc.tags.all (fun e => e.2.out) ∧ s.pwr.plan.isEmpty then
    let m := s.pwr.request
    let s1 := (s.put F.pwrStat_mode [] m).cutPours
    let s2 := ({ s1 with pwr := { s1.pwr with entry := 0 } } : State)
    let s3 :=
      if m = 2 then
        let s2 := (List.range 40).foldl (fun s l => ((s.put F.lnLaneStat_lock [l] 0).setReg .lnLaneLat [l] 0#32).setStage l .off) s2
        let s2 := ((s2.put F.pciStat_dlUp [] 0).put F.pciStat_speed [] 0).put F.pciStat_width [] 0
        { s2 with lanes := { s2.lanes with linkState := 2 } }
      else s2
    .next (if s3.pwr.wakeAfter ≠ 0 then s3.wakeNow s3.pwr.wakeAfter else s3)
  else .next s

/-! ## SMBus (R468) -/

/-- Whether the SMBus target answers: the hub is powered and clocked. -/
def State.smbusUp (s : State) : Bool := s.clk.phase != .heldOff

/-- SMBUS_READ_TEMPERATURE: command 0x01. -/
def execSmbusReadTemperature (s : State) : Out :=
  if s.smbusUp then .next (s.emit (.bytes "SMBus" (leBytes 2 s.hottest))) else .next s

/-- SMBUS_READ_POWER: command 0x02, in units of 10 mW. -/
def execSmbusReadPower (s : State) : Out :=
  if s.smbusUp then .next (s.emit (.bytes "SMBus" (leBytes 2 (s.get F.pwrMeas_mw [] / 10)))) else .next s

/-- SMBUS_READ_STATUS: command 0x03. -/
def execSmbusReadStatus (s : State) : Out :=
  if s.smbusUp then
    .next (s.emit (.bytes "SMBus" (leBytes 1 (64 * s.mode + 32 * s.get F.pwrTrip_active [] + 16 * s.get F.pwrTrip_therm [] +
      8 * b2n s.pwr.mcRuns))))
  else .next s

/-- SMBUS_WAKE: command 0x10. -/
def execSmbusWake (s : State) : Out := if s.smbusUp then .next (s.wake 4) else .next s

/-- SMBUS_FIRMWARE_COMMAND: any other code is served by MC firmware (`reply`) or answered with a NACK (none). -/
def execSmbusFirmwareCommand (code : BitVec 8) (reply : Option (List Byte)) (s : State) : Out :=
  if !s.smbusUp || [1, 2, 3, 16].contains code.toNat then .next s
  else
    match s.pwr.mcRuns, reply with
    | true, some d => .next (s.emit (.bytes "SMBus" d))
    | _, _ => .next (s.emit (.bytes "SMBus NACK" []))

/-! ## Ageing (R470, R484, R485) and the MC -/

/-- The domains of a die. -/
def dieDomains (site : Nat) : List Nat := if site < 4 then [site, 4 + site] else if site = 8 then [8, 9] else []

/-- Raise the margin of one level of a domain; retire the level where it no longer fits the fused maximum. -/
def State.raiseMargin (s : State) (k ppm t : Nat) : State :=
  let need := (2 * ppm + 9999) / 10000
  let old := bitsOf (s.get F.pwrMargin_steps [k]) (4 * t + 3) (4 * t)
  let s :=
    if old < min 15 need then
      let r := s.setReg .pwrMargin [k] (setWordField (s.reg .pwrMargin [k]) (4 * t + 3) (4 * t) (min 15 need))
      let r := r.powerLog 0x0905 1 (leBytes 1 k ++ leBytes 1 t ++ leBytes 1 (min 15 need) ++ leBytes 4 ppm)
      if r.get F.pwrTl_cur [k] = t then r.planSteps [⟨true, [k], false⟩] else r
    else s
  if s.get F.pwrFuse_vmaxMv [] < tlVolt t + 5 * need ∧ !(s.get F.pwrTl_retired [k]).testBit t then
    let s := s.put F.pwrTl_retired [k] (Nat.lor (s.get F.pwrTl_retired [k]) (2 ^ t))
    let gone := (List.range 8).all (fun j => decide (j < s.get F.pwrTl_floor [k]) || (s.get F.pwrTl_retired [k]).testBit j)
    s.powerLog 0x0906 (if gone then 4 else 2) (leBytes 1 k ++ leBytes 1 t)
  else s

/-- AGEING_MEASUREMENT: MC firmware reads the monitors of a die; `ppm` is the worst slowdown. -/
def execAgeingMeasurement (n : Fin 12) (ppm : Nat) (s : State) : Out :=
  if !sensorSites.contains n.val || !s.pwr.mcRuns then .next s
  else
    let s := s.put F.pwrSens_agePpm [n] (min 65535 ppm)
    let s := (dieDomains n).foldl (fun s k => (List.range 8).foldl (fun s t => s.raiseMargin k ppm t) s) s
    .next s.fixLevels

end Sys2Proof.Machine
end

