-- ==== Sys2Proof/Machine/LaneData.lean ====
section
/-!
DEFINITION. Sys2Proof/Machine/LaneData.lean: the words of the serial lanes: their levels on the pins, the fabric interface, and the
release of a word on either side (R442, R446, R448, R454, R455, R479).
-/

namespace Sys2Proof.Machine

/-! ## Levels (R441, R442)

A symbol is a level 0 to 3; an NRZ symbol is level 0 or 3. -/

/-- The Gray coding of a bit pair, its first bit first, and back. -/
def grayLevel (a b : Bool) : Nat := if a then (if b then 2 else 3) else (if b then 1 else 0)
def grayBits (k : Nat) : List Bool := [decide (2 ≤ k), k == 1 || k == 2]

/-- The levels of bits in PAM4 and in NRZ. -/
def pamLevels : List Bool → List Nat
  | a :: b :: t => grayLevel a b :: pamLevels t
  | _ => []
def nrzLevels (l : List Bool) : List Nat := l.map (fun b => if b then 3 else 0)

/-- 1/(1+D) modulo 4 from the level sent last, and its inverse from the level received last. -/
def precode : Nat → List Nat → List Nat
  | _, [] => []
  | last, k :: t => let y := (k + 4 - last % 4) % 4; y :: precode y t
def unprecode : Nat → List Nat → List Nat
  | _, [] => []
  | last, y :: t => (y + last) % 4 :: unprecode y t

/-- Polarity inversion. -/
def invert (on : Bool) (l : List Nat) : List Nat := if on then l.map (3 - ·) else l

/-- The levels a lane sends for a word's bits, the first bit first, and the precoder's last level. -/
def State.sendLevels (s : State) (l : Nat) (bits : List Bool) : List Nat × Nat :=
  let inv := s.flag F.lnLaneCfg_invTx [l]
  if s.get F.lnLaneCfg_mode [l] = 1 then
    let last := SMap.get 0 s.lanes.txLast l
    let k := pamLevels bits
    let y := if s.flag F.lnLaneCfg_precode [l] then precode last k else k
    (invert inv y, y.getLastD last)
  else (invert inv (nrzLevels bits), SMap.get 0 s.lanes.txLast l)

/-- The bits a lane receives from the levels on its pair, and the last level before the inverse precoding. The fall-back's
correction and inv_rx both invert (R451). -/
def State.receiveBits (s : State) (l : Nat) (levels : List Nat) : List Bool × Nat :=
  let y := invert (s.flag F.lnLaneCfg_invRx [l] != s.flag F.lnLaneStat_inv [l]) levels
  if s.get F.lnLaneCfg_mode [l] = 1 then
    let last := SMap.get 0 s.lanes.rxLast l
    ((if s.flag F.lnLaneCfg_precode [l] then unprecode last y else y).flatMap grayBits, y.getLastD last)
  else (y.map (2 ≤ ·), SMap.get 0 s.lanes.rxLast l)

/-! ## The fabric interface (R446) -/

/-- Whether the flask that holds a lane's attached clusters is isolated (R455). -/
def State.laneIsolated (s : State) (l : Nat) : Bool :=
  (List.range 12).any (fun i => s.isolated (s.laneDie l) (flaskOfCluster (laneCluster l i)))

/-- Whether the transmitter sends fabric data. -/
def State.txReady (s : State) (l : Nat) : Bool :=
  (s.stage l == .data || s.stage l == .lost) && !s.flag F.lnLaneStat_fbActive [l] && !s.pins.txIdle && !s.laneIsolated l

/-- Whether a lane's transmit pins carry levels: it is brought up and nothing makes it idle (R57, R449, R451, R454, R455). -/
def State.txDrives (s : State) (l : Nat) : Bool :=
  !(s.stage l == .off || s.stage l == .pins) && !s.flag F.lnLaneStat_fbActive [l] && !s.pins.txIdle && !s.laneIsolated l &&
    s.get F.lnLaneCfg_lb [l] != 2

/-- tx_data of a lane: what the fabric gives, or all zeros in sleep (R479). -/
def State.txWord (s : State) (l : Nat) : BitVec 512 :=
  if s.mode != 0 then 0#512
  else
    let d := s.laneDie l
    let w := 32 * 2 ^ s.get F.lnLaneCfg_width [l]
    let ev := s.signals s.free
    (bus w (fun i =>
      let cl := laneCluster l (Config.lanePinRow i)
      picked s.free ev d cl (2 ^ 29 + 1024 * l + i) (Config.lanePick (s.logicFrames d (flaskOfCluster cl)) l i))).setWidth 512

/-- The bits of a word, the first bit first. -/
def wordBits (w : Nat) (v : BitVec 512) : List Bool := (List.range w).map v.getLsbD

/-- The lanes in use whose fb_req the image drives to 1 (R446). -/
def State.fbHigh (s : State) : List Nat :=
  (List.range 40).filter (fun l =>
    s.flag F.lnLaneCfg_en [l] && !s.laneHeld l &&
      (let d := s.laneDie l
       let cl := laneCluster l (Config.lanePinRow 512)
       picked s.free (s.signals s.free) d cl (2 ^ 29 + 1024 * l + 512) (Config.lanePick (s.logicFrames d (flaskOfCluster cl)) l 512)))

/-- The sending side of the fabric: a word is taken, and its levels leave on the pins 48 ns later; with the far-end loopback the
pins carry what has been received. -/
def State.sendWord (s : State) (l : Nat) : State :=
  let w := 32 * 2 ^ s.get F.lnLaneCfg_width [l]
  let v := s.txWord l
  let x := SMap.get default s.lanes.rx l
  let (k, last) := s.sendLevels l (wordBits w (if s.get F.lnLaneCfg_lb [l] = 3 then x.data else v))
  let s := ({ s with lanes := { s.lanes with sent := SMap.insert s.lanes.sent l v, txLast := SMap.set 0 s.lanes.txLast l last } } : State)
  if s.txDrives l then s.emit (.symbols l k) else s

/-- The receiving side: a word reaches the rx interface, from the pins or through a near-end loopback; one that touches an
uncorrectable codeword comes with rx_err (R443). Nothing is delivered without lock, in sleep or to an isolated flask. -/
def State.takeWord (s : State) (l : Nat) (levels : List Nat) : State :=
  let (bits, last) := s.receiveBits l levels
  let lb := s.get F.lnLaneCfg_lb [l]
  let data := if lb = 1 ∨ lb = 2 then SMap.get 0#512 s.lanes.sent l else BitVec.ofNat 512 (bits.foldr (fun b t => b2n b + 2 * t) 0)
  let ok := s.stage l == .data && s.mode == 0 && !s.laneIsolated l
  { s with lanes := { s.lanes with
      rx := SMap.insert s.lanes.rx l ⟨data, ok, ok && s.lanes.fecErr.contains ((s.linkOf l).headD l)⟩
      rxLast := SMap.set 0 s.lanes.rxLast l last } }

/-- A flit that arrives after its release time loses its words (R448). -/
def State.lateWords (s : State) (l words : Nat) : State :=
  ((s.raise F.lnLaneStat_late [l]).bucket (crossBucket (s.laneDie l))).logEv (laneSite l) 10 l 0x0803 2
    (leBytes 1 l ++ leBytes 4 words)

/-- LANE_WORD_RELEASE: the words of a flit are released, each 48 ns after it was taken: towards the pins (`tx`), or towards the
fabric, `words` giving the levels of each as received (log entry 112). -/
def execLaneWordRelease (l : Fin 40) (tx late : Bool) (words : List (List (Fin 4))) (s : State) : Out :=
  if late then
    let s1 := s.lateWords l words.length
    if tx then .next s1
    else .next { s1 with lanes := { s1.lanes with rx := SMap.insert s1.lanes.rx l { SMap.get default s1.lanes.rx l with valid := false, err := true } } }
  else if tx then .next (words.foldl (fun (s : State) _ => s.sendWord l) s)
  else .next (words.foldl (fun (s : State) w => s.takeWord l (w.map (·.val))) s)

end Sys2Proof.Machine
end

