-- ==== Sys2Proof/Machine/Cipher.lean ====
section
/-!
DEFINITION. Sys2Proof/Machine/Cipher.lean: AES-256 (FIPS 197) on blocks of 16 bytes, XTS-AES-256 on sectors (IEEE Std 1619-2018) and
AES-CMAC (NIST SP 800-38B), as images and sector encryption use them (R288, R403 to R405).  Bytes are numbers below 256.
-/

namespace Sys2Proof.Machine

/-! ## AES-256 -/

/-- The S-box, entry i in bits 8i + 7 to 8i. -/
def aesSub : Nat :=
  0xC072A49CAFA2D4ADF04759FA7DC982CA76ABD7FE2B670130C56F6BF27B777C63 +
  0x75B227EBE28012079A059618C323C7041531D871F1E5A534CCF73F362693FDB7 * 2 ^ 256 +
  0xCF584C4A39BECB6A5BB1FC20ED00D153842FE329B3D63B52A05A6E1B1A2C8309 * 2 ^ 512 +
  0xD2F3FF1021DAB6BCF5389D928F40A351A89F3C507F02F94585334D43FBAAEFD0 * 2 ^ 768 +
  0xDB0B5EDE14B8EE4688902A22DC4F816073195D643D7EA7C41744975FEC130CCD * 2 ^ 1024 +
  0x08AE7A65EAF4566CA94ED58D6D37C8E779E4959162ACD3C25C2406490A3A32E0 * 2 ^ 1280 +
  0x9E1DC186B95735610EF6034866B53E708A8BBD4B1F74DDE8C6B4A61C2E2578BA * 2 ^ 1536 +
  0x16BB54B00F2D99416842E6BF0D89A18CDF2855CEE9871E9B948ED9691198F8E1 * 2 ^ 1792

/-- The inverse S-box, in the same form. -/
def aesInvSub : Nat :=
  0xCBE9DEC444438E3487FF2F9B8239E37CFBD7F3819EA340BF38A53630D56A0952 +
  0x25D18B6D49A25B76B224D92866A12E084EC3FA420B954CEE3D23C2A632947B54 * 2 ^ 256 +
  0x849D8DA75746155EDAB9EDFD5048706C92B6655DCC5CA4D41698688664F6F872 * 2 ^ 512 +
  0x6B8A130103BDAFC1020F3FCA8F1E2CD00645B3B80558E4F70AD3BC8C00ABD890 * 2 ^ 768 +
  0x6EDF751CE837F9E28535ADE72274AC9673E6B4F0CECFF297EADC674F4111913A * 2 ^ 1024 +
  0xF45ACD78FEC0DB9A2079D2C64B3E56FC1BBE18AA0E62B76F89C5291D711AF147 * 2 ^ 1280 +
  0xEF9CC9939F7AE52D0D4AB519A97F51605FEC8027591012B131C7078833A8DD1F * 2 ^ 1536 +
  0x7D0C2155631469E126D677BA7E042B17619953833CBBEBC8B0F52AAE4D3BE0A0 * 2 ^ 1792

/-- An entry of an S-box. -/
def boxAt (t x : Nat) : Nat := t / 2 ^ (8 * x) % 256

/-- Multiplication by x in GF(2^8). -/
def xtime (a : Nat) : Nat := if a < 128 then 2 * a else Nat.xor (2 * a - 256) 0x1B

/-- Multiplication in GF(2^8) by a number below 16. -/
def gfMul (k a : Nat) : Nat :=
  let a2 := xtime a
  let a4 := xtime a2
  let a8 := xtime a4
  Nat.xor (Nat.xor (if k % 2 = 1 then a else 0) (if k / 2 % 2 = 1 then a2 else 0))
    (Nat.xor (if k / 4 % 2 = 1 then a4 else 0) (if k / 8 % 2 = 1 then a8 else 0))

/-- Exclusive or of byte strings. -/
def xorList (a b : List Nat) : List Nat := List.zipWith Nat.xor a b

/-- The key words from word 8 on, newest first, each of four bytes: `i` counts them. -/
def aesExpand : Nat → Nat → Nat → List (List Nat) → List (List Nat)
  | 0, _, _, w => w
  | n + 1, i, rcon, w =>
    let t := w.headD []
    let t1 :=
      if i % 8 = 0 then xorList ((t.drop 1 ++ t.take 1).map (boxAt aesSub)) [rcon, 0, 0, 0]
      else if i % 8 = 4 then t.map (boxAt aesSub)
      else t
    aesExpand n (i + 1) (if i % 8 = 0 then xtime rcon else rcon) (xorList (w.getD 7 []) t1 :: w)

/-- The bytes of a number, most significant first. -/
def beList (n v : Nat) : List Nat := (List.range n).map (fun i => v / 2 ^ (8 * (n - 1 - i)) % 256)

/-- The number of a byte string, most significant first. -/
def beValue (l : List Nat) : Nat := l.foldl (fun t b => 256 * t + b) 0

/-- The 15 round keys of a 256-bit key, each of 16 bytes. -/
def roundKeys (key : BitVec 256) : List (List Nat) :=
  let b := beList 32 key.toNat
  let w := (aesExpand 52 8 1 ((List.range 8).map (fun i => (b.drop (4 * i)).take 4)).reverse).reverse
  (List.range 15).map (fun i => ((w.drop (4 * i)).take 4).flatten)

/-- Rotate row r of the state by r columns to the left, or back: byte r + 4c is row r of column c. -/
def shiftRows (s : List Nat) : List Nat := (List.range 16).map (fun i => s.getD ((i + 4 * (i % 4)) % 16) 0)
def unshiftRows (s : List Nat) : List Nat := (List.range 16).map (fun i => s.getD ((i + 12 * (i % 4)) % 16) 0)

/-- Multiply every column by the circulant matrix of a first row. -/
def mixColumns (m : List Nat) (s : List Nat) : List Nat :=
  (List.range 16).map (fun i =>
    (List.range 4).foldl (fun t j => Nat.xor t (gfMul (m.getD ((j + 4 - i % 4) % 4) 0) (s.getD (i / 4 * 4 + j) 0))) 0)

/-- The rounds of the cipher over the round keys that remain; the last round has no column step. -/
def aesRounds : List (List Nat) → List Nat → List Nat
  | [], s => s
  | [k], s => xorList (shiftRows (s.map (boxAt aesSub))) k
  | k :: t, s => aesRounds t (xorList (mixColumns [2, 3, 1, 1] (shiftRows (s.map (boxAt aesSub)))) k)

/-- Encrypt a block under round keys. -/
def aesBlock (ks : List (List Nat)) (s : List Nat) : List Nat := aesRounds (ks.drop 1) (xorList s (ks.headD []))

/-- The rounds of the inverse cipher, over the round keys in reverse order. -/
def aesInvRounds : List (List Nat) → List Nat → List Nat
  | [], s => s
  | [k], s => xorList ((unshiftRows s).map (boxAt aesInvSub)) k
  | k :: t, s => aesInvRounds t (mixColumns [14, 11, 13, 9] (xorList ((unshiftRows s).map (boxAt aesInvSub)) k))

/-- Decrypt a block under round keys. -/
def aesUnblock (ks : List (List Nat)) (s : List Nat) : List Nat :=
  let r := ks.reverse
  aesInvRounds (r.drop 1) (xorList s (r.headD []))

/-- One block of AES-256 encryption, the first byte the most significant. -/
def aes256 (key : BitVec 256) (block : BitVec 128) : BitVec 128 :=
  BitVec.ofNat 128 (beValue (aesBlock (roundKeys key) (beList 16 block.toNat)))

/-! ## XTS-AES-256 -/

/-- The bytes of a number, least significant first, and back. -/
def leList (n v : Nat) : List Nat := (List.range n).map (fun i => v / 2 ^ (8 * i) % 256)
def leValue : List Nat → Nat
  | [] => 0
  | b :: t => b + 256 * leValue t

/-- Multiply a tweak by the primitive element of GF(2^128), byte 0 the least significant. -/
def nextTweak (t : Nat) : Nat := if t < 2 ^ 127 then 2 * t else Nat.xor (2 * t - 2 ^ 128) 0x87

/-- Work through `n` blocks of a data unit with a block function: exclusive or with the tweak before and after. -/
def xtsBlocks (f : List Nat → List Nat) : Nat → Nat → Nat → Nat
  | 0, _, _ => 0
  | n + 1, tweak, data =>
    let t := leList 16 tweak
    leValue (xorList (f (xorList (leList 16 data) t)) t) + 2 ^ 128 * xtsBlocks f n (nextTweak tweak) (data / 2 ^ 128)

/-- The first tweak of a sector: its number as a 128-bit little-endian value, under key 2 (R403). -/
def firstTweak (k2 : BitVec 256) (sector : Nat) : Nat := leValue (aesBlock (roundKeys k2) (leList 16 sector))

/-- XTS-AES-256 of a 512-byte sector, byte 0 the least significant. -/
def xtsEncrypt (k1 k2 : BitVec 256) (sector : Nat) (plain : BitVec 4096) : BitVec 4096 :=
  BitVec.ofNat 4096 (xtsBlocks (aesBlock (roundKeys k1)) 32 (firstTweak k2 sector) plain.toNat)
def xtsDecrypt (k1 k2 : BitVec 256) (sector : Nat) (cipher : BitVec 4096) : BitVec 4096 :=
  BitVec.ofNat 4096 (xtsBlocks (aesUnblock (roundKeys k1)) 32 (firstTweak k2 sector) cipher.toNat)

/-! ## AES-CMAC -/

/-- A subkey from the one before: multiplication by x in GF(2^128), the first byte the most significant. -/
def cmacSubkey (l : Nat) : Nat := if l < 2 ^ 127 then 2 * l else Nat.xor (2 * l - 2 ^ 128) 0x87

/-- The chain over a message: whole blocks, the last one under its subkey (padded where it is short). -/
def cmacChain (ks : List (List Nat)) (k1 k2 : Nat) : Nat → List Nat → List Nat → List Nat
  | 0, x, _ => x
  | n + 1, x, m =>
    if m.length < 16 then aesBlock ks (xorList x (xorList (m ++ [0x80] ++ List.replicate (15 - m.length) 0) (beList 16 k2)))
    else if m.length = 16 then aesBlock ks (xorList x (xorList m (beList 16 k1)))
    else cmacChain ks k1 k2 n (aesBlock ks (xorList x (m.take 16))) (m.drop 16)

/-- The leftmost 64 bits of AES-CMAC (R404, R405). -/
def cmac64 (key : BitVec 256) (msg : List Byte) : BitVec 64 :=
  let ks := roundKeys key
  let k1 := cmacSubkey (beValue (aesBlock ks (List.replicate 16 0)))
  let m := msg.map (·.toNat)
  BitVec.ofNat 64 (beValue ((cmacChain ks k1 (cmacSubkey k1) (m.length / 16 + 1) (List.replicate 16 0) m).take 8))

end Sys2Proof.Machine
end

