-- ==== Sys2Proof/Machine/Curve.lean ====
section
/-!
DEFINITION. Sys2Proof/Machine/Curve.lean: ECDSA over the curve P-256 (FIPS 186-5), as signatures of images, firmware manifests,
unlocks and reports use it (R285, R500, R514, R517, R538).  Points are in Jacobian coordinates over numbers below the prime.
-/

namespace Sys2Proof.Machine

/-- The prime, the coefficient b, the order and the base point of P-256; a is -3. -/
def p256 : Nat := 0xFFFFFFFF00000001000000000000000000000000FFFFFFFFFFFFFFFFFFFFFFFF
def p256b : Nat := 0x5AC635D8AA3A93E7B3EBBD55769886BC651D06B0CC53B0F63BCE3C3E27D2604B
def p256n : Nat := 0xFFFFFFFF00000000FFFFFFFFFFFFFFFFBCE6FAADA7179E84F3B9CAC2FC632551
def p256x : Nat := 0x6B17D1F2E12C4247F8BCE6E563A440F277037D812DEB33A0F4A13945D898C296
def p256y : Nat := 0x4FE342E2FE1A7F9B8EE7EB4A7C0F9E162BCE33576B315ECECBB6406837BF51F5

/-- A point: (x / z², y / z³), the point at infinity with z = 0. -/
structure Point where
  x : Nat
  y : Nat
  z : Nat

/-- The point at infinity. -/
def Point.zero : Point := ⟨1, 1, 0⟩

/-- Difference modulo m of numbers below m. -/
def subMod (m a b : Nat) : Nat := (a + m - b) % m

/-- Twice a point. -/
def Point.double (p : Point) : Point :=
  if p.z = 0 ∨ p.y = 0 then Point.zero
  else
    let m := p256
    let zz := p.z * p.z % m
    let yy := p.y * p.y % m
    let s := 4 * p.x * yy % m
    let t := 3 * subMod m p.x zz * (p.x + zz) % m
    let x := subMod m (t * t % m) (2 * s % m)
    ⟨x, subMod m (t * subMod m s x % m) (8 * yy * yy % m), 2 * p.y * p.z % m⟩

/-- The sum of two points. -/
def Point.add (p q : Point) : Point :=
  if p.z = 0 then q
  else if q.z = 0 then p
  else
    let m := p256
    let z1 := p.z * p.z % m
    let z2 := q.z * q.z % m
    let u1 := p.x * z2 % m
    let u2 := q.x * z1 % m
    let s1 := p.y * z2 % m * q.z % m
    let s2 := q.y * z1 % m * p.z % m
    if u1 = u2 then (if s1 = s2 then p.double else Point.zero)
    else
      let h := subMod m u2 u1
      let r := subMod m s2 s1
      let h2 := h * h % m
      let h3 := h * h2 % m
      let v := u1 * h2 % m
      let x := subMod m (subMod m (r * r % m) h3) (2 * v % m)
      ⟨x, subMod m (r * subMod m v x % m) (s1 * h3 % m), h * p.z % m * q.z % m⟩

/-- A multiple of a point, by the low `n` bits of `k`. -/
def Point.mul (p : Point) (k : Nat) : Nat → Point
  | 0 => Point.zero
  | n + 1 =>
    let q := (p.mul (k / 2) n).double
    if k % 2 = 1 then q.add p else q

/-- The power of `a` to the low `n` bits of `e`, modulo m. -/
def powMod (m a e : Nat) : Nat → Nat
  | 0 => 1 % m
  | n + 1 =>
    let r := powMod m a (e / 2) n
    if e % 2 = 1 then r * r % m * a % m else r * r % m

/-- The inverse of `a` modulo a prime below 2^256. -/
def invMod (m a : Nat) : Nat := powMod m a (m - 2) 256

/-- The x coordinate of a point. -/
def Point.affineX (p : Point) : Nat := p.x * invMod p256 (p.z * p.z % p256) % p256

/-- Whether (x, y) is a point of the curve. -/
def onCurve (x y : Nat) : Bool :=
  decide (x < p256) && decide (y < p256) && (y * y + 3 * x) % p256 == (x * x * x + p256b) % p256

/-- ECDSA over P-256: does the signature, r then s, of the digest verify under the public key, x then y? -/
def ecdsaVerify (pub : BitVec 512) (digest : BitVec 256) (sig : BitVec 512) : Bool :=
  let x := pub.toNat / 2 ^ 256
  let y := pub.toNat % 2 ^ 256
  let r := sig.toNat / 2 ^ 256
  let s := sig.toNat % 2 ^ 256
  let n := p256n
  if !onCurve x y || decide (r = 0 ∨ n ≤ r ∨ s = 0 ∨ n ≤ s) then false
  else
    let w := invMod n s
    let q := (Point.mul ⟨p256x, p256y, 1⟩ (digest.toNat * w % n) 256).add (Point.mul ⟨x, y, 1⟩ (r * w % n) 256)
    q.z != 0 && q.affineX % n == r

/-- The public key of a private key: x, then y. -/
def publicKey (key : BitVec 256) : BitVec 512 :=
  let p := Point.mul ⟨p256x, p256y, 1⟩ key.toNat 256
  let y := p.y * invMod p256 (p.z * p.z % p256 * p.z % p256) % p256
  BitVec.ofNat 512 (p.affineX * 2 ^ 256 + y)

/-- The signature of a digest under a private key with a per-message number k. -/
def ecdsaSign (key : BitVec 256) (k : BitVec 256) (digest : BitVec 256) : BitVec 512 :=
  let n := p256n
  let r := (Point.mul ⟨p256x, p256y, 1⟩ (k.toNat % n) 256).affineX % n
  let s := invMod n (k.toNat % n) * ((digest.toNat + r * key.toNat) % n) % n
  BitVec.ofNat 512 (r * 2 ^ 256 + s)

end Sys2Proof.Machine
end

