-- ==== Sys2Proof/Machine/Digest.lean ====
section
/-!
DEFINITION. Sys2Proof/Machine/Digest.lean: SHA-256 (FIPS 180-4), the digest of chunk-hash tables, headers, owner keys, firmware
and reports (R39, R283, R285, R325, R500, R517).  Words are numbers below 2^32.
-/

namespace Sys2Proof.Machine

/-- The number a list of bytes spells, most significant first. -/
def beNat (l : List Byte) : Nat := l.foldl (fun t b => 256 * t + b.toNat) 0

/-- The bytes of a number, most significant first. -/
def beBytes (n v : Nat) : List Byte := (leBytes n v).reverse

/-- The 64 constants of SHA-256. -/
def shaK : List Nat := [
    0x428a2f98, 0x71374491, 0xb5c0fbcf, 0xe9b5dba5, 0x3956c25b, 0x59f111f1, 0x923f82a4, 0xab1c5ed5,
    0xd807aa98, 0x12835b01, 0x243185be, 0x550c7dc3, 0x72be5d74, 0x80deb1fe, 0x9bdc06a7, 0xc19bf174,
    0xe49b69c1, 0xefbe4786, 0x0fc19dc6, 0x240ca1cc, 0x2de92c6f, 0x4a7484aa, 0x5cb0a9dc, 0x76f988da,
    0x983e5152, 0xa831c66d, 0xb00327c8, 0xbf597fc7, 0xc6e00bf3, 0xd5a79147, 0x06ca6351, 0x14292967,
    0x27b70a85, 0x2e1b2138, 0x4d2c6dfc, 0x53380d13, 0x650a7354, 0x766a0abb, 0x81c2c92e, 0x92722c85,
    0xa2bfe8a1, 0xa81a664b, 0xc24b8b70, 0xc76c51a3, 0xd192e819, 0xd6990624, 0xf40e3585, 0x106aa070,
    0x19a4c116, 0x1e376c08, 0x2748774c, 0x34b0bcb5, 0x391c0cb3, 0x4ed8aa4a, 0x5b9cca4f, 0x682e6ff3,
    0x748f82ee, 0x78a5636f, 0x84c87814, 0x8cc70208, 0x90befffa, 0xa4506ceb, 0xbef9a3f7, 0xc67178f2]

/-- The initial hash value. -/
def shaInit : List Nat := [0x6a09e667, 0xbb67ae85, 0x3c6ef372, 0xa54ff53a, 0x510e527f, 0x9b05688c, 0x1f83d9ab, 0x5be0cd19]

/-- Rotate a 32-bit word right. -/
def rotr (n x : Nat) : Nat := x / 2 ^ n + x % 2 ^ n * 2 ^ (32 - n)

/-- Exclusive or of three words. -/
def xor3 (a b c : Nat) : Nat := Nat.xor (Nat.xor a b) c

/-- The message schedule from word 16 on: the words so far, newest first. -/
def shaSchedule : Nat → List Nat → List Nat
  | 0, w => w
  | n + 1, w =>
    let a := w.getD 14 0
    let b := w.getD 1 0
    let s0 := xor3 (rotr 7 a) (rotr 18 a) (a / 2 ^ 3)
    let s1 := xor3 (rotr 17 b) (rotr 19 b) (b / 2 ^ 10)
    shaSchedule n ((s1 + w.getD 6 0 + s0 + w.getD 15 0) % 2 ^ 32 :: w)

/-- The eight working variables. -/
structure ShaVars where
  a : Nat
  b : Nat
  c : Nat
  d : Nat
  e : Nat
  f : Nat
  g : Nat
  h : Nat

/-- One round, with its constant and its schedule word. -/
def shaRound (v : ShaVars) (kw : Nat × Nat) : ShaVars :=
  let s1 := xor3 (rotr 6 v.e) (rotr 11 v.e) (rotr 25 v.e)
  let ch := Nat.xor (Nat.land v.e v.f) (Nat.land (2 ^ 32 - 1 - v.e) v.g)
  let t1 := v.h + s1 + ch + kw.1 + kw.2
  let s0 := xor3 (rotr 2 v.a) (rotr 13 v.a) (rotr 22 v.a)
  let maj := xor3 (Nat.land v.a v.b) (Nat.land v.a v.c) (Nat.land v.b v.c)
  ⟨(t1 + s0 + maj) % 2 ^ 32, v.a, v.b, v.c, (v.d + t1) % 2 ^ 32, v.e, v.f, v.g⟩

/-- The variables as a list. -/
def ShaVars.words (v : ShaVars) : List Nat := [v.a, v.b, v.c, v.d, v.e, v.f, v.g, v.h]

/-- The hash value after a block of 64 bytes. -/
def shaBlock (hash : List Nat) (block : List Byte) : List Nat :=
  let w0 := (List.range 16).map (fun i => beNat ((block.drop (4 * i)).take 4))
  let w := (shaSchedule 48 w0.reverse).reverse
  let x (i : Nat) := hash.getD i 0
  let v := (shaK.zip w).foldl shaRound ⟨x 0, x 1, x 2, x 3, x 4, x 5, x 6, x 7⟩
  (hash.zip v.words).map (fun p => (p.1 + p.2) % 2 ^ 32)

/-- A message with its padding: a one bit, zeros, and the length in bits as 64 bits. -/
def shaPad (msg : List Byte) : List Byte :=
  msg ++ [0x80#8] ++ List.replicate ((119 - msg.length % 64) % 64) 0#8 ++ (leBytes 8 (8 * msg.length)).reverse

/-- The hash over the next `n` blocks. -/
def shaBlocks : Nat → List Nat → List Byte → List Nat
  | 0, hash, _ => hash
  | n + 1, hash, m => shaBlocks n (shaBlock hash (m.take 64)) (m.drop 64)

/-- SHA-256 of a byte string. -/
def sha256 (msg : List Byte) : BitVec 256 :=
  let m := shaPad msg
  BitVec.ofNat 256 ((shaBlocks (m.length / 64) shaInit m).foldl (fun t x => 2 ^ 32 * t + x) 0)

end Sys2Proof.Machine
end

