-- ==== Sys2Proof/Machine/Inflate.lean ====
section
/-!
DEFINITION. Sys2Proof/Machine/Inflate.lean: raw DEFLATE decompression (RFC 1951), as chunks of casting images use it (R289).  A
stream is a list of bits, the least significant bit of each byte first; the output is kept newest byte first.
-/

namespace Sys2Proof.Machine

/-- The bits of a byte string. -/
def bitStream (l : List Byte) : List Bool := l.flatMap (fun b => (List.range 8).map b.getLsbD)

/-- The next `n` bits as a number, least significant first; none where the stream ends. -/
def takeBits : Nat → List Bool → Option (Nat × List Bool)
  | 0, s => some (0, s)
  | _ + 1, [] => none
  | n + 1, b :: s => (takeBits n s).map (fun p => ((if b then 1 else 0) + 2 * p.1, p.2))

/-- A Huffman code: how many codes each length 0 to 15 has, and the symbols with a code, by length and then by number. -/
structure Huffman where
  counts : List Nat
  symbols : List Nat

/-- The code that code lengths give (RFC 1951, 3.2.2); none where there are more codes than the lengths have room for. -/
def huffman (lengths : List Nat) : Option Huffman :=
  let counts := (List.range 16).map (fun n => if n = 0 then 0 else (lengths.filter (· == n)).length)
  let used := (List.range 16).foldl (fun t n => t + counts.getD n 0 * 2 ^ (15 - n)) 0
  if 2 ^ 15 < used then none
  else
    some ⟨counts, (List.range 15).flatMap (fun k => (List.range lengths.length).filter (fun i => lengths.getD i 0 == k + 1))⟩

/-- Decode one symbol: `code` the bits so far, `first` the first code of the present length, `index` its place in the symbols;
none where no code fits or the stream ends. -/
def Huffman.decode (h : Huffman) : List Nat → Nat → Nat → Nat → List Bool → Option (Nat × List Bool)
  | [], _, _, _, _ => none
  | _ :: _, _, _, _, [] => none
  | count :: rest, code, first, index, b :: s =>
    let code := code + (if b then 1 else 0)
    if code < first + count then (h.symbols[index + (code - first)]?).map (fun x => (x, s))
    else h.decode rest (2 * code) (2 * (first + count)) (index + count) s

/-- The next symbol of a code. -/
def Huffman.next (h : Huffman) (s : List Bool) : Option (Nat × List Bool) := h.decode (h.counts.drop 1) 0 0 0 s

/-- Base and extra bits of a length symbol 257 to 285, and of a distance symbol 0 to 29. -/
def lengthCode (n : Nat) : Option (Nat × Nat) :=
  if n < 257 ∨ 285 < n then none
  else if n = 285 then some (258, 0)
  else if n < 265 then some (n - 254, 0)
  else let e := (n - 261) / 4
    some (3 + 2 ^ e * (4 + (n - 261) % 4), e)
def distanceCode (n : Nat) : Option (Nat × Nat) :=
  if 29 < n then none
  else if n < 4 then some (n + 1, 0)
  else let e := (n - 2) / 2
    some (1 + 2 ^ e * (2 + n % 2), e)

/-- Copy `n` bytes from `d` back; none where the output does not reach so far. -/
def copyBack (d : Nat) : Nat → List Byte → Option (List Byte)
  | 0, out => some out
  | n + 1, out =>
    match out[d - 1]? with
    | some b => copyBack d n (b :: out)
    | none => none

/-- The symbols of a compressed block, up to its end symbol 256; every symbol takes at least one bit of the `fuel`. -/
def inflateCodes (lit dist : Huffman) : Nat → List Bool → List Byte → Option (List Bool × List Byte)
  | 0, _, _ => none
  | fuel + 1, s, out =>
    match lit.next s with
    | none => none
    | some (x, s) =>
      if x < 256 then inflateCodes lit dist fuel s (BitVec.ofNat 8 x :: out)
      else if x = 256 then some (s, out)
      else do
        let (base, extra) ← lengthCode x
        let (more, s) ← takeBits extra s
        let (y, s) ← dist.next s
        let (dbase, dextra) ← distanceCode y
        let (dmore, s) ← takeBits dextra s
        let out ← copyBack (dbase + dmore) (base + more) out
        inflateCodes lit dist fuel s out

/-- The fixed codes (RFC 1951, 3.2.6). -/
def fixedLengths : List Nat := List.replicate 144 8 ++ List.replicate 112 9 ++ List.replicate 24 7 ++ List.replicate 8 8

/-- The order in which the lengths of the code-length code come. -/
def codeOrder : List Nat := [16, 17, 18, 0, 8, 7, 9, 6, 10, 5, 11, 4, 12, 3, 13, 2, 14, 1, 15]

/-- The code lengths of a dynamic block, newest first, until `n` are there: runs may not pass the end. -/
def readLengths (h : Huffman) (n : Nat) : Nat → List Bool → List Nat → Option (List Bool × List Nat)
  | 0, _, _ => none
  | fuel + 1, s, l =>
    if n ≤ l.length then if n = l.length then some (s, l) else none
    else
      match h.next s with
      | none => none
      | some (x, s) =>
        if x < 16 then readLengths h n fuel s (x :: l)
        else if x = 16 then
          match l.head?, takeBits 2 s with
          | some v, some (k, s) => readLengths h n fuel s (List.replicate (3 + k) v ++ l)
          | _, _ => none
        else if x = 17 then
          match takeBits 3 s with
          | some (k, s) => readLengths h n fuel s (List.replicate (3 + k) 0 ++ l)
          | none => none
        else
          match takeBits 7 s with
          | some (k, s) => readLengths h n fuel s (List.replicate (11 + k) 0 ++ l)
          | none => none

/-- `n` numbers of three bits. -/
def takeTriples : Nat → List Bool → Option (List Nat × List Bool)
  | 0, s => some ([], s)
  | n + 1, s => do
    let (x, s) ← takeBits 3 s
    let (t, s) ← takeTriples n s
    return (x :: t, s)

/-- The codes of a dynamic block (RFC 1951, 3.2.7). -/
def dynamicCodes (s : List Bool) : Option (Huffman × Huffman × List Bool) := do
  let (hlit, s) ← takeBits 5 s
  let (hdist, s) ← takeBits 5 s
  let (hclen, s) ← takeBits 4 s
  let (cl, s) ← takeTriples (hclen + 4) s
  let h ← huffman ((List.range 19).map (fun i => cl.getD (codeOrder.findIdx (· == i)) 0))
  let (s, l) ← readLengths h (hlit + 257 + hdist + 1) 400 s []
  let lengths := l.reverse
  let lit ← huffman (lengths.take (hlit + 257))
  let dist ← huffman (lengths.drop (hlit + 257))
  return (lit, dist, s)

/-- The next `n` bytes, put before those there are. -/
def takeBytes : Nat → List Bool → List Byte → List Byte
  | 0, _, out => out
  | n + 1, s, out =>
    match takeBits 8 s with
    | some (b, s) => takeBytes n s (BitVec.ofNat 8 b :: out)
    | none => out

/-- A stored block: from the next byte boundary its length, the complement of it, and its bytes. -/
def storedBlock (s : List Bool) (out : List Byte) : Option (List Bool × List Byte) := do
  let (len, s) ← takeBits 16 (s.drop (s.length % 8))
  let (nlen, s) ← takeBits 16 s
  if len + nlen ≠ 65535 ∨ s.length < 8 * len then none
  else
    return (s.drop (8 * len), takeBytes len s out)

/-- The blocks of a stream up to the last one; every block takes at least three bits of the `fuel`. -/
def inflateBlocks : Nat → List Bool → List Byte → Option (List Byte)
  | 0, _, _ => none
  | fuel + 1, s, out =>
    match takeBits 1 s with
    | none => none
    | some (last, s) =>
      match takeBits 2 s with
      | none => none
      | some (kind, s) =>
        let r :=
          if kind = 0 then storedBlock s out
          else if kind = 1 then
            match huffman fixedLengths, huffman (List.replicate 30 5) with
            | some lit, some dist => inflateCodes lit dist s.length s out
            | _, _ => none
          else if kind = 2 then
            match dynamicCodes s with
            | some (lit, dist, s) => inflateCodes lit dist s.length s out
            | none => none
          else none
        match r with
        | none => none
        | some (s, out) => if last = 1 then some out.reverse else inflateBlocks fuel s out

/-- Raw DEFLATE: the bytes of the stream at the start of `data`; none where it is no stream. What follows it is ignored (R289). -/
def inflate (data : List Byte) : Option (List Byte) := inflateBlocks (8 * data.length) (bitStream data) []

end Sys2Proof.Machine
end

