-- ==== Sys2Proof/Machine/ReedSolomon.lean ====
section
/-!
DEFINITION. Sys2Proof/Machine/ReedSolomon.lean: the Reed-Solomon codes over GF(2^8) of R380: 64 data bytes with 16 check bytes on
DDR5 and 8 on HBM.  The field's polynomial and the generator's first root are not in the manual: they are constants of Config, and
the code corrects half as many bytes as it has check bytes whatever they are.
-/

namespace Sys2Proof.Machine

/-- The primitive polynomials of degree 8. -/
def primitives : List Nat :=
  [0x11D, 0x12B, 0x12D, 0x14D, 0x15F, 0x163, 0x165, 0x169, 0x171, 0x187, 0x18D, 0x1A9, 0x1C3, 0x1CF, 0x1E7, 0x1F5]

/-- A code: the polynomial of the field, the exponent of the generator's first root, the number of check bytes. -/
structure RsCode where
  poly : Nat
  root : Nat
  checks : Nat

/-- Twice an element. -/
def RsCode.double (c : RsCode) (a : Nat) : Nat := if 128 ≤ a then Nat.xor (2 * a) c.poly else 2 * a

/-- The product of two elements: the bits of b from the highest. -/
def RsCode.mul (c : RsCode) (a b : Nat) : Nat :=
  (List.range 8).foldl (fun t i => Nat.xor (c.double t) (if b.testBit (7 - i) then a else 0)) 0

/-- The powers of the primitive element, and of any element. -/
def RsCode.alpha (c : RsCode) (k : Nat) : Nat := Nat.repeat c.double (k % 255) 1
def RsCode.pow (c : RsCode) (a k : Nat) : Nat := Nat.repeat (c.mul a) k 1

/-- The quotient of two elements; 0 for a divisor of 0. -/
def RsCode.div (c : RsCode) (a b : Nat) : Nat := c.mul a (c.pow b 254)

/-- Polynomials, lowest coefficient first: sum, a scalar multiple, the value at x. -/
def polyAdd : List Nat → List Nat → List Nat
  | [], q => q
  | p, [] => p
  | a :: p, b :: q => Nat.xor a b :: polyAdd p q
def RsCode.scale (c : RsCode) (k : Nat) (p : List Nat) : List Nat := p.map (c.mul k)
def RsCode.eval (c : RsCode) (p : List Nat) (x : Nat) : Nat := p.foldr (fun a t => Nat.xor a (c.mul t x)) 0

/-- The generator: the product of x - alpha^(root + i). -/
def RsCode.generator (c : RsCode) : List Nat :=
  (List.range c.checks).foldl (fun g i => polyAdd (0 :: g) (c.scale (c.alpha (c.root + i)) g)) [1]

/-- The check bytes of data, highest coefficient first: the remainder of its polynomial times x^checks by the generator. -/
def RsCode.remainder (c : RsCode) (data : List Nat) : List Nat :=
  let g := c.generator.reverse.drop 1
  data.foldl (fun r d =>
    let f := Nat.xor d (r.headD 0)
    List.zipWith Nat.xor (r.drop 1 ++ [0]) (c.scale f g)) (List.replicate c.checks 0)

/-- The syndromes of a word, highest coefficient first. -/
def RsCode.syndromes (c : RsCode) (word : List Nat) : List Nat :=
  (List.range c.checks).map (fun i => c.eval word.reverse (c.alpha (c.root + i)))

/-- The search for the shortest recurrence of the syndromes (Berlekamp and Massey): the locator so far and the one before the last
lengthening, its length, the steps since, the discrepancy then. -/
structure RsSearch where
  loc : List Nat
  old : List Nat
  len : Nat
  gap : Nat
  disc : Nat

def RsCode.searchStep (c : RsCode) (syn : List Nat) (x : RsSearch) (n : Nat) : RsSearch :=
  let d := (List.range (x.len + 1)).foldl (fun t i => Nat.xor t (c.mul (x.loc.getD i 0) (syn.getD (n - i) 0))) 0
  if d = 0 then { x with gap := x.gap + 1 }
  else
    let loc := polyAdd x.loc (List.replicate x.gap 0 ++ c.scale (c.div d x.disc) x.old)
    if 2 * x.len ≤ n then ⟨loc, x.loc, n + 1 - x.len, 1, d⟩ else { x with loc := loc, gap := x.gap + 1 }

/-- The error locator of syndromes. -/
def RsCode.locator (c : RsCode) (syn : List Nat) : List Nat :=
  ((List.range c.checks).foldl (c.searchStep syn) ⟨[1], [1], 0, 1, 1⟩).loc

/-- The error at position k, an exponent of x where the locator has a root: the error evaluator over the locator's derivative. -/
def RsCode.errorAt (c : RsCode) (syn loc : List Nat) (k : Nat) : Nat :=
  let inv := c.alpha (255 - k % 255)
  let omega := (List.range c.checks).map (fun i =>
    (List.range (i + 1)).foldl (fun t j => Nat.xor t (c.mul (loc.getD j 0) (syn.getD (i - j) 0))) 0)
  let deriv := (List.range (loc.length - 1)).map (fun i => if i % 2 = 0 then loc.getD (i + 1) 0 else 0)
  c.mul (c.pow (c.alpha k) (256 - c.root % 255)) (c.div (c.eval omega inv) (c.eval deriv inv))

/-- A word corrected: the codeword that differs from it in at most half as many bytes as there are check bytes, if there is one. -/
def RsCode.correct (c : RsCode) (word : List Nat) : Option (List Nat) :=
  let syn := c.syndromes word
  let loc := c.locator syn
  let n := word.length
  let fixed := (List.range n).map (fun i =>
    let k := n - 1 - i
    let b := word.getD i 0
    if c.eval loc (c.alpha (255 - k % 255)) = 0 then Nat.xor b (c.errorAt syn loc k) else b)
  let wrong := (List.range n).countP (fun i => fixed.getD i 0 != word.getD i 0)
  if (c.syndromes fixed).all (· == 0) && decide (2 * wrong ≤ c.checks) then some fixed else none

/-! ## The two codes (R380) -/

/-- The code of HBM or DDR5 blocks. -/
def blockCode (hbm : Bool) : RsCode := ⟨primitives.getD Config.rsField.val 0x11D, Config.rsRoot.val, if hbm then 8 else 16⟩

/-- The check bytes of a block, the first in the lowest bits. -/
def rsCheck (hbm : Bool) (data : List Byte) : BitVec 128 :=
  BitVec.ofNat 128 (leNat (((blockCode hbm).remainder (data.map (·.toNat))).map (fun n => (BitVec.ofNat 8 n : Byte))))

/-- What the decoder makes of a block whose stored check bits differ by `delta` from those of its data: the corrected data, or none
where no codeword is near enough. -/
def rsDecode (hbm : Bool) (data : List Byte) (delta : BitVec 128) : Option (List Byte) :=
  let c := blockCode hbm
  let chk := (leBytes c.checks (rsCheck hbm data ^^^ delta).toNat).map (·.toNat)
  (c.correct (data.map (·.toNat) ++ chk)).map (fun w => (w.take data.length).map (fun n => (BitVec.ofNat 8 n : Byte)))

end Sys2Proof.Machine
end

