-- ==== Sys2Proof/Machine/Dram.lean ====
section
/-!
DEFINITION. Sys2Proof/Machine/Dram.lean: HBM3 and DDR5 as the controllers see them: where an address lands, the two
codes, poison, reads and writes of blocks, correction writeback, failed units, row repair (R375 to R399).  A block's
bytes are those of the DRAM, except in the metadata area of an encrypted region, where they follow from the counters.
-/

namespace Sys2Proof.Machine

/-! ## Where an address lands (R377, R378) -/

/-- First byte of the HBM and its size (R24). -/
def hbmBase : Nat := 0x010000000000
def hbmSize : Nat := 48 * 2 ^ 30

/-- Whether an address is an HBM address. -/
def isHbm (a : Nat) : Bool := hbmBase ≤ a && a < hbmBase + hbmSize

/-- Bytes of DDR5 fitted (R379). -/
def State.ddrFitted (s : State) : Nat := s.get F.ddrMap_fitted [] * 2 ^ 30

/-- Whether the memory holds an address (R25). -/
def State.dramHas (s : State) (a : Nat) : Bool := isHbm a || decide (a < s.ddrFitted)

/-- Whether the bytes of an access lie in one 64-byte block (R357). -/
def inBlock (a len : Nat) : Bool := 1 ≤ len && a % 64 + len ≤ 64

/-- Stack and pseudo-channel of an HBM address (R377). -/
def hbmPlace (a : Nat) : Nat × Nat :=
  let h := a - hbmBase
  let g := 2 ^ 30
  if h < 18 * g then (0, h / 256 % 24)
  else if h < 36 * g then (1, (h - 18 * g) / 256 % 24)
  else if h < 42 * g then (0, 24 + (h - 36 * g) / 256 % 8)
  else (1, 24 + (h - 42 * g) / 256 % 8)

/-- Whether an HBM address lies in the secure range of stack `k` (R377, R401). -/
def hbmSecureOf (a k : Nat) : Bool :=
  let h := a - hbmBase
  let g := 2 ^ 30
  isHbm a && (if k = 0 then 36 * g ≤ h && h < 42 * g else 42 * g ≤ h)

/-- The channels of a 4-bit mask, in channel order. -/
def chanList (m : Nat) : List Nat := (List.range 4).filter (fun c => m.testBit c)

/-- Capacity of a channel in bytes. -/
def State.chanCap (s : State) (c : Nat) : Nat := s.get F.ddrChStat_cap [c] * 2 ^ 30

/-- The channels that follow the interleave set contiguously. -/
def State.chanAfter (s : State) : List Nat → Nat → Option Nat
  | [], _ => none
  | c :: t, a => if a < s.chanCap c then some c else s.chanAfter t (a - s.chanCap c)

/-- The DDR5 channel of an address (R378). -/
def State.ddrChannel (s : State) (a : Nat) : Option Nat :=
  let ilv := s.get F.ddrMap_ilvMask []
  let set := chanList ilv
  let rest := chanList (Nat.land (s.get F.ddrMap_present []) (Nat.xor ilv 15))
  match set with
  | [] => s.chanAfter rest a
  | c0 :: _ =>
    let size := set.length * s.chanCap c0
    if a < size then set[a / 256 % set.length]? else s.chanAfter rest (a - size)

/-- A rank's or pseudo-channel's memory: HBM or DDR5, channel or stack, subchannel or PC. -/
structure MemUnit where
  hbm : Bool
  unit : Nat
  sub : Nat
deriving DecidableEq, Repr

/-- The unit an address maps to. -/
def State.memUnit (s : State) (a : Nat) : Option MemUnit :=
  if isHbm a then let (k, p) := hbmPlace a; some ⟨true, k, p⟩
  else if a < s.ddrFitted then (s.ddrChannel a).map (fun c => ⟨false, c, a / 64 % 2⟩)
  else none

/-- The number under which a unit's failure is logged once: a channel, or a PC of a stack (R379). -/
def MemUnit.failKey (u : MemUnit) : Nat := if u.hbm then 4 + 32 * u.unit + u.sub else u.unit

/-- Whether a unit is marked failed (R379, R393, R396). -/
def State.unitFailed (s : State) (u : MemUnit) : Bool :=
  if u.hbm then s.flag F.hbmStkStat_failed [u.unit] || (s.get F.hbmStkPcfail_pc [u.unit]).testBit u.sub
  else s.flag F.ddrChStat_failed [u.unit]

/-- Whether a unit is trained (R393). -/
def State.unitTrained (s : State) (u : MemUnit) : Bool :=
  if u.hbm then s.flag F.hbmStkStat_trained [u.unit] else s.flag F.ddrChStat_trained [u.unit]

/-- Site and unit kind of a controller's log entries (R432). -/
def MemUnit.site (u : MemUnit) : Nat := if u.hbm then u.unit else 8
def MemUnit.kind (u : MemUnit) : Nat := if u.hbm then 7 else 6

/-- The bucket of a unit's corrections (R426). -/
def MemUnit.bucket (u : MemUnit) : Nat := if u.hbm then 16 * u.unit + 9 else 64 + u.unit

/-- The location word of an address, HI in bits [63:32] (R387, R397): memory, unit, sub, rank, bank, row. -/
def State.location (s : State) (a : Nat) : Nat :=
  let map := (s.reg .ddrMap []).toNat
  match s.memUnit a with
  | some u =>
    let rb := Nat.land (Config.dramRankBank map a).toNat (if u.hbm then 0x003F0000 else 0x00BF0000)
    2 ^ 32 * (2 ^ 31 * b2n u.hbm + 2 ^ 29 * u.unit + 2 ^ 24 * u.sub + rb) + (Config.dramRow map a).toNat
  | none => 0

/-- The location word of a unit alone. -/
def MemUnit.location (u : MemUnit) : Nat := 2 ^ 32 * (2 ^ 31 * b2n u.hbm + 2 ^ 29 * u.unit + 2 ^ 24 * u.sub)

/-- The location word as log bytes: LO, then HI (R387). -/
def locBytes (loc : Nat) : List Byte := leBytes 8 loc

/-! ## Region descriptors (R381) -/

/-- Whether a descriptor in force covers an address. -/
def State.covers (s : State) (r a : Nat) : Bool :=
  s.flag F.ddrRgnCfg_en [r] && decide (s.get F.ddrRgnBase_mib [r] ≤ a / 2 ^ 20) &&
    decide (a / 2 ^ 20 ≤ s.get F.ddrRgnLimit_mib [r])

/-- The descriptor that applies to an address: the lowest-numbered one (R381). -/
def State.region (s : State) (a : Nat) : Option Nat := (List.range 64).find? (fun r => s.covers r a)

/-- Whether an address is under byte parity (R380, R381). -/
def State.byParity (s : State) (a : Nat) : Bool :=
  match s.region a with
  | some r => s.flag F.ddrRgnCfg_code [r]
  | none => false

/-- Whether a descriptor is encrypted. -/
def State.encrypted (s : State) (r : Nat) : Bool := s.flag F.ddrRgnCfg_en [r] && s.flag F.ddrRgnCfg_enc [r]

/-- First byte, sectors, counter blocks of a region (R402, R405). -/
def State.rgnBase (s : State) (r : Nat) : Nat := s.get F.ddrRgnBase_mib [r] * 2 ^ 20
def State.rgnUnits (s : State) (r : Nat) : Nat := s.get F.ddrRgnLimit_mib [r] + 1 - s.get F.ddrRgnBase_mib [r]
def State.rgnSectors (s : State) (r : Nat) : Nat := 2048 * s.rgnUnits r

/-- Nodes of level `k` of a tree over `n` sectors (R405). -/
def levelNodes (n : Nat) : Nat → Nat
  | 0 => n
  | k + 1 => (levelNodes n k + 7) / 8

/-- The first level with at most 8 nodes (R405). -/
def treeLevels (n : Nat) : Nat := ((List.range 16).find? (fun k => 1 ≤ k && levelNodes n k ≤ 8)).getD 16

/-- Inner nodes of the levels 2 to k - 1. -/
def innerBefore (n k : Nat) : Nat := ((List.range k).filter (2 ≤ ·)).foldl (fun t j => t + levelNodes n j) 0

/-- First byte of a region's metadata area (R407). -/
def State.metaBase (s : State) (r : Nat) : Nat := s.get F.ddrRgnCfg_encCfg [r] * 2 ^ 20

/-- T1, T2, T3, and the size of all inner nodes (R407). -/
def metaT1 (n : Nat) : Nat := 8 * n
def metaT2 (n : Nat) : Nat := metaT1 n + 64 * (n / 8)
def metaN (n : Nat) : Nat := 64 * innerBefore n (treeLevels n + 1)
def metaT3 (n : Nat) : Nat := metaT2 n + (metaN n + 511) / 512 * 512 + 256
def metaSize (n : Nat) : Nat := (metaT3 n + metaN n + 2 ^ 20 - 1) / 2 ^ 20 * 2 ^ 20

/-- The encrypted region whose metadata area holds an address. -/
def State.metaRegion (s : State) (a : Nat) : Option Nat :=
  (List.range 64).find? (fun r => s.encrypted r && decide (s.metaBase r ≤ a) &&
    decide (a < s.metaBase r + metaSize (s.rgnSectors r)))

/-- A region's engine state. -/
def State.encRgn (s : State) (r : Nat) : EncRegion := SMap.get default s.encR r
def State.setEncRgn (s : State) (r : Nat) (x : EncRegion) : State := { s with encR := SMap.set default s.encR r x }

/-- The write counter of a sector (R404). -/
def State.ctrOf (s : State) (r i : Nat) : Nat := SMap.get 0 (s.encRgn r).ctr i

/-- The digest of a node (R405). -/
def digest (key : BitVec 256) (level index : Nat) (bytes : List Byte) : BitVec 64 :=
  cmac64 key (leBytes 1 level ++ leBytes 8 index ++ [0#8] ++ bytes)

/-- The 64 bytes that the counters give node `index` of level `k`: counter blocks are level 1 (R405). -/
def nodeBytes (key : BitVec 256) (ctr : Nat → Nat) (n : Nat) : Nat → Nat → List Byte
  | 0, _ => []
  | 1, j => ((List.range 8).map (fun q => leBytes 8 (if 8 * j + q < n then ctr (8 * j + q) else 0))).flatten
  | k + 2, j => ((List.range 8).map (fun i =>
      if 8 * j + i < levelNodes n (k + 1) then
        leBytes 8 (digest key (k + 1) (8 * j + i) (nodeBytes key ctr n (k + 1) (8 * j + i))).toNat
      else leBytes 8 0)).flatten

/-- Level and index of the inner node at offset `o` of a copy of the inner nodes. -/
def innerAt (n o : Nat) : Option (Nat × Nat) :=
  ((List.range (treeLevels n + 1)).filter (2 ≤ ·)).findSome? (fun k =>
    let first := innerBefore n k
    if first ≤ o / 64 ∧ o / 64 < first + levelNodes n k then some (k, o / 64 - first) else none)

/-- The tree node that a metadata address holds, if any (R407). -/
def metaNode (n off : Nat) : Option (Nat × Nat) :=
  if metaT1 n ≤ off ∧ off < metaT2 n then some (1, (off - metaT1 n) / 64)
  else if metaT2 n ≤ off ∧ off < metaT2 n + metaN n then innerAt n (off - metaT2 n)
  else if metaT3 n ≤ off ∧ off < metaT3 n + metaN n then innerAt n (off - metaT3 n)
  else none

/-- The bytes a region's tree gives the node at an address; none where the block holds DRAM bytes of its own (R428). -/
def State.treeBytes (s : State) (a : Nat) : Option (List Byte) :=
  match s.metaRegion a with
  | some r =>
    let e := s.encRgn r
    let n := s.rgnSectors r
    if e.rawMeta.contains (a / 64) then none
    else (metaNode n (a - s.metaBase r)).map (fun p => nodeBytes e.treeKey (s.ctrOf r) n p.1 p.2)
  | none => none

/-! ## Blocks -/

/-- The stored bytes of a DRAM byte range: a byte nothing has written reads 0 (log entry 11). -/
def State.dramBytes (s : State) (a n : Nat) : List Byte := (List.range n).map (fun i => SMap.get 0#8 s.dram.bytes (a + i))

/-- Store bytes. -/
def putBytes (m : SMap (BitVec 8)) : Nat → List Byte → SMap (BitVec 8)
  | _, [] => m
  | a, b :: t => putBytes (SMap.set 0#8 m a b) (a + 1) t

/-- A block's descriptor. -/
def State.bmeta (s : State) (b : Nat) : BlockMeta := SMap.get default s.dram.bmeta b

/-- The 64 bytes block `b` stores. -/
def State.blockBytes (s : State) (b : Nat) : List Byte :=
  match s.treeBytes (64 * b) with
  | some l => l
  | none => s.dramBytes (64 * b) 64

/-- A block of a metadata area now holds DRAM bytes of its own. -/
def State.ownBytes (s : State) (b : Nat) : State :=
  match s.metaRegion (64 * b) with
  | some r =>
    let e := s.encRgn r
    if (metaNode (s.rgnSectors r) (64 * b - s.metaBase r)).isSome && !e.rawMeta.contains b then
      s.setEncRgn r { e with rawMeta := b :: e.rawMeta }
    else s
  | none => s

/-- Store a block with its descriptor; a correction of it that waited is cancelled (R386). -/
def State.putBlock (s : State) (b : Nat) (data : List Byte) (m : BlockMeta) : State :=
  let s := s.ownBytes b
  { s with dram := { s.dram with bytes := putBytes s.dram.bytes (64 * b) data, bmeta := SMap.set default s.dram.bmeta b m,
                                 wback := s.dram.wback.filter (fun e => e.1 != b) } }

/-- The descriptor of a block written whole under the code in force (R380). -/
def State.freshMeta (s : State) (b : Nat) : BlockMeta := { (default : BlockMeta) with byParity := s.byParity (64 * b) }

/-- What a read of a block finds (R383). -/
inductive BlockRead where
  | clean (d : List Byte)
  | fixed (d : List Byte)
  | poison
  | bad (d : List Byte) (n : Byte) (badPar : List Nat)
deriving DecidableEq, Repr

/-- Read a block under the code in force: poison first (R382, R383). -/
def State.decodeBlock (s : State) (b : Nat) : BlockRead :=
  let d := s.blockBytes b
  let m := s.bmeta b
  if m.byParity != s.byParity (64 * b) then
    if Config.codeMismatchPoison b then .poison else .bad d 0xFF#8 []
  else if m.poison then .poison
  else if m.byParity then
    if m.badPar = 0#64 then .clean d
    else .bad d (BitVec.ofNat 8 (ones 64 m.badPar.toNat)) ((List.range 64).filter (fun i => m.badPar.getLsbD i))
  else if m.delta = 0#128 then .clean d
  else
    match rsDecode (isHbm (64 * b)) d m.delta with
    | some d' => .fixed d'
    | none => .bad d (Config.rsBadBytes (isHbm (64 * b)) d m.delta) []

/-- Count a correction: CECNT and the bucket of the channel or stack (R383, R426). -/
def State.countFix (s : State) (u : MemUnit) (a : Nat) : State :=
  let s := if u.hbm then s.countUp F.hbmStkCecnt_sub0 [u.unit]
    else if u.sub = 1 then s.countUp F.ddrChCecnt_sub1 [u.unit]
    else s.countUp F.ddrChCecnt_sub0 [u.unit]
  s.bucket u.bucket (leBytes 6 a ++ locBytes (s.location a))

/-- Log an uncorrectable read or merge (R387). -/
def State.logBad (s : State) (u : MemUnit) (a requester : Nat) (n : Byte) (code : Resp) : State :=
  s.logEv u.site u.kind u.unit 0x0601 3
    (leBytes 6 a ++ locBytes (s.location a) ++ [n] ++ leBytes 1 code.code ++ leBytes 1 requester)

/-- An access to a failed unit is logged the first time only (R379). -/
def State.logFailed (s : State) (u : MemUnit) (a : Nat) : State :=
  if s.dram.failLogged.contains u.failKey then s
  else ({ s with dram := { s.dram with failLogged := u.failKey :: s.dram.failLogged } } : State).logEv u.site u.kind u.unit 0x0602 3
    (locBytes (s.location a))

/-- The bank and row of an address. -/
def State.bankRow (s : State) (a : Nat) : Nat × Nat :=
  let l := s.location a
  (l / 2 ^ 32 * 2 ^ 32, l % 2 ^ 32)

/-- The rank or PC of an address, as a number: what power-down concerns (R391). -/
def State.rankOf (s : State) (a : Nat) : Nat := Nat.land (s.location a / 2 ^ 32) 0xFF800000

/-- A command to a row: the rank wakes (R391), the row opens in place of the bank's other row, and the request's page
hint governs it (R390); DDR_MAP locks at the first DDR5 access (R378). -/
def State.touchRow (s : State) (a hint : Nat) : State :=
  let (bank, row) := s.bankRow a
  let others := s.dram.openRows.filter (fun o => o.bank != bank)
  let rows := if hint = 2 then others else ⟨bank, row, hint, s.tb.count⟩ :: others
  let s := { s with dram := { s.dram with openRows := rows, pdown := s.dram.pdown.filter (· != s.rankOf a),
                                          lastCmd := SMap.insert s.dram.lastCmd (s.rankOf a) s.tb.count } }
  if isHbm a then s else s.raise F.ddrMap_lock []

/-- Read a block (R383, R386, R387): its code, its bytes and the bytes whose parity fails as stored. -/
def State.readBlock (s : State) (u : MemUnit) (b requester : Nat) : Resp × List Byte × List Nat × State :=
  match s.decodeBlock b with
  | .clean d => (.ok, d, [], s)
  | .fixed d =>
    let s := s.countFix u (64 * b)
    let wb := s.dram.wback.filter (fun e => e.1 != b) ++ [(b, d)]
    (.ok, d, [], { s with dram := { s.dram with wback := wb } })
  | .poison => (.perr, s.blockBytes b, [], s)
  | .bad d n bp => (.derr, d, bp, s.logBad u (64 * b) requester n .derr)

/-- Replace bytes [o, o + data.length) of a list. -/
def overwrite (l : List Byte) (o : Nat) (data : List Byte) : List Byte := l.take o ++ data ++ l.drop (o + data.length)

/-- The poison marker is written: the data stays as stored (R385). -/
def State.poisonBlock (s : State) (b : Nat) : State :=
  s.putBlock b (s.blockBytes b) { (s.bmeta b) with poison := true, byParity := s.byParity (64 * b) }

/-- Write bytes of one block (R384, R385): 64 bytes replace it; fewer are merged. A poisoned block stays poisoned and
the write completes with PERR (DEDUCED, log entry 12). -/
def State.writeBlock (s : State) (u : MemUnit) (a : Nat) (data : List Byte) (requester : Nat) : Resp × State :=
  let b := a / 64
  if data.length = 64 then (.ok, s.putBlock b data (s.freshMeta b))
  else
    match s.decodeBlock b with
    | .clean d => (.ok, s.putBlock b (overwrite d (a % 64) data) (s.freshMeta b))
    | .fixed d => (.ok, (s.countFix u (64 * b)).putBlock b (overwrite d (a % 64) data) (s.freshMeta b))
    | .poison => (.perr, s)
    | .bad d n bp =>
      if s.byParity (64 * b) then
        let bad (i : Nat) : Bool := if bp.isEmpty then (Config.codeMismatchParity b).getLsbD i else bp.contains i
        let keep := (List.range 64).filter (fun i => bad i && !(a % 64 ≤ i && i < a % 64 + data.length))
        (.ok, s.putBlock b (overwrite d (a % 64) data)
          { s.freshMeta b with badPar := BitVec.ofNat 64 (keep.foldl (fun t i => t + 2 ^ i) 0) })
      else (.derr, (s.logBad u (64 * b) requester n .derr).poisonBlock b)

/-- What a controller makes of an access: not there, failed, waiting for training, or its unit. -/
inductive DramGate where
  | absent | failed (u : MemUnit) | wait | go (u : MemUnit)
deriving DecidableEq, Repr

/-- The row repair in progress on a memory. -/
def State.repairOf (s : State) (hbm : Bool) : Option Repair := if hbm then s.dram.repairHbm else s.dram.repair
def State.setRepair (s : State) (hbm : Bool) (x : Option Repair) : State :=
  { s with dram := if hbm then { s.dram with repairHbm := x } else { s.dram with repair := x } }

/-- Whether a row repair in progress keeps an address waiting: another row of its bank, once the row has been copied (R397). -/
def State.repairBlocks (s : State) (a : Nat) : Bool :=
  match s.repairOf (isHbm a) with
  | some p =>
    let l := p.loc.toNat
    p.copied && (s.bankRow a).1 == l / 2 ^ 32 * 2 ^ 32 && (s.bankRow a).2 != l % 2 ^ 32
  | none => false

/-- Judge an address (R25, R379, R393). After a hot resume the missed refreshes come first (R58); a rank or PC in a retrain slice
serves nothing (R395), nor does a bank for its other rows while one is repaired (R397). -/
def State.dramGate (s : State) (a : Nat) : DramGate :=
  if !s.dramHas a then .absent
  else
    match s.memUnit a with
    | none => .absent
    | some u =>
      if s.dram.catchUp then .wait
      else if s.unitFailed u then .failed u
      else if !s.unitTrained u || s.dram.slice.contains (s.rankOf a) || s.repairBlocks a then .wait
      else .go u

/-- A controller performs a read of `len` bytes at `a`: code, data, bytes failing parity. `none`: it waits. -/
def State.ctlRead (s : State) (a len requester hint : Nat) : Option (Resp × List Byte × List Nat × State) :=
  match s.dramGate a with
  | .absent => some (.aerr, [], [], s)
  | .failed u => some (.derr, List.replicate len 0#8, [], s.logFailed u a)
  | .wait => none
  | .go u =>
    let (c, d, bp, s) := (s.touchRow a hint).readBlock u (a / 64) requester
    some (c, (d.drop (a % 64)).take len, (bp.filter (fun i => a % 64 ≤ i && i < a % 64 + len)).map (· - a % 64), s)

/-- A controller performs a write; `badPar` not empty: no byte is written and the block is poisoned (R367). -/
def State.ctlWrite (s : State) (a : Nat) (data : List Byte) (badPar : Bool) (requester hint : Nat) : Option (Resp × State) :=
  match s.dramGate a with
  | .absent => some (.aerr, s)
  | .failed u => some (.derr, s.logFailed u a)
  | .wait => none
  | .go u =>
    let s := s.touchRow a hint
    if badPar then some (.perr, s.poisonBlock (a / 64)) else some (s.writeBlock u a data requester)

/-- The state after a controller access, where the controller answers. -/
def State.orElse (s : State) (o : Option (Resp × State)) : State :=
  match o with
  | some (_, s') => s'
  | none => s

/-! ## Commands of the controllers -/

/-- Whether a block that waits to be written back may be: its unit takes commands and no request waits for its bank (R386). -/
def State.wbackFree (s : State) (b : Nat) : Bool :=
  !s.dram.held.any (fun h => (s.bankRow h.req.addr.toNat).1 == (s.bankRow (64 * b)).1) &&
    (match s.dramGate (64 * b) with
    | .go _ => true
    | _ => false)

/-- CORRECTION_WRITEBACK: the corrected block is written back (R386). -/
def execCorrectionWriteback (block : BitVec 42) (s : State) : Out :=
  match s.dram.wback.find? (fun e => e.1 == block.toNat) with
  | some (b, d) => if s.wbackFree b then .next (s.putBlock b d (s.freshMeta b)) else .next s
  | none => .next s

/-- Whether the patrol scrub of a unit runs. -/
def State.scrubOn (s : State) (u : MemUnit) : Bool :=
  if u.hbm then s.flag F.hbmCfg_scrub [] else s.flag F.ddrChCfg_scrub [u.unit]

/-- Blocks of a stack or of a channel (R377, R378). -/
def State.patrolBlocks (s : State) (hbm : Bool) (k : Nat) : Nat := (if hbm then 24 * 2 ^ 30 else s.chanCap k) / 64

/-- Address of block j of a stack or channel, in the order of the patrol (R377, R378; log entry 117). -/
def State.patrolAddr (s : State) (hbm : Bool) (k j : Nat) : Nat :=
  let o := 64 * j
  if hbm then
    if o < 18 * 2 ^ 30 then hbmBase + 18 * 2 ^ 30 * k + o else hbmBase + 36 * 2 ^ 30 + 6 * 2 ^ 30 * k + (o - 18 * 2 ^ 30)
  else
    let ilv := s.get F.ddrMap_ilvMask []
    let set := chanList ilv
    let rest := chanList (Nat.land (s.get F.ddrMap_present []) (Nat.xor ilv 15))
    match set.findIdx? (· == k) with
    | some m => (o / 256 * set.length + m) * 256 + o % 256
    | none => set.length * s.chanCap (set.headD 0) + ((rest.takeWhile (· != k)).map s.chanCap).foldl (· + ·) 0 + o

/-- The key of the patrol of a stack or channel, and its next block. -/
def patrolKey (hbm : Bool) (k : Nat) : Nat := if hbm then 4 + k else k
def State.patrolAt (s : State) (hbm : Bool) (k : Nat) : Nat := SMap.get 0 s.dram.patrol (patrolKey hbm k)
def State.patrolOn (s : State) (hbm : Bool) (k : Nat) : State :=
  { s with dram := { s.dram with
      patrol := SMap.set 0 s.dram.patrol (patrolKey hbm k) ((s.patrolAt hbm k + 1) % s.patrolBlocks hbm k) } }

/-- Whether the patrol of a stack or channel runs: its clock, scrub, and no request that waits there (R386). -/
def State.patrolRuns (s : State) (hbm : Bool) (k : Nat) : Bool :=
  s.runs (if hbm then 7 + k else 6) && s.scrubOn ⟨hbm, k, 0⟩ && s.patrolBlocks hbm k != 0 &&
    !s.dram.held.any (fun h => (s.memUnit h.req.addr.toNat).any (fun u => u.hbm == hbm && u.unit == k))

/-- Whether a patrol reads a block at the present count: one of every period's even steps (R386). -/
def State.patrolDue (s : State) (hbm : Bool) (k : Nat) : Bool :=
  let h := if hbm then s.get F.hbmCfg_scrubH [] else s.get F.ddrChCfg_scrubH [k]
  let n := s.patrolBlocks hbm k
  s.patrolRuns hbm k && decide (s.tb.count * n % (4 * (h + 1) * 3600000000000) < n)

/-- PATROL_SCRUB: the next block of the patrol is handled as a read; nobody receives its data (R386). A block in a unit that grants no
credit waits, one in a failed unit is passed over. -/
def execPatrolScrub (hbm : Bool) (unit : Fin 4) (s : State) : Out :=
  let k := if hbm then unit.val % 2 else unit.val
  let a := s.patrolAddr hbm k (s.patrolAt hbm k)
  if !s.patrolRuns hbm k then .next s
  else
    match s.dramGate a with
    | .go u => .next (((s.patrolOn hbm k).touchRow a 0).readBlock u (a / 64) 0).2.2.2
    | .wait => .next s
    | _ => .next (s.patrolOn hbm k)

/-- REFRESH: the rows of a bank close (R389, R390). -/
def execRefresh (bank : BitVec 32) (s : State) : Out :=
  .next { s with dram := { s.dram with openRows := s.dram.openRows.filter (fun o => o.bank != bank.toNat * 2 ^ 32) } }

/-- Whether an open row closes by itself: an auto page that no request has touched for page_tmo (R390). -/
def State.pageDue (s : State) (o : OpenRow) : Bool :=
  let tmo := if o.bank.testBit 63 then s.get F.hbmCfg_pageTmo [] else s.get F.ddrChCfg_pageTmo [bitsOf o.bank 62 61]
  o.hint != 1 && decide (o.last + 4 * tmo ≤ s.tb.count)

/-- PAGE_TIMEOUT: an auto page closes (R390). -/
def execPageTimeout (bank : BitVec 32) (s : State) : Out :=
  let rows := s.dram.openRows.filter (fun o => !(o.bank == bank.toNat * 2 ^ 32 && s.pageDue o))
  .next { s with dram := { s.dram with openRows := rows } }

/-- Whether a rank or PC of a unit has received no command for pd_tmo (R391). -/
def State.powerDownDue (s : State) (hbm : Bool) (unit rank : Nat) : Bool :=
  let tmo := if hbm then s.get F.hbmCfg_pdTmo [] else s.get F.ddrChCfg_pdTmo [unit]
  tmo != 0 && !s.dram.pdown.contains rank && decide (SMap.get 0 s.dram.lastCmd rank + 16 * tmo ≤ s.tb.count)

/-- POWER_DOWN_ENTRY: a rank or PC enters power-down (R391). -/
def execPowerDownEntry (hbm : Bool) (unit : Fin 4) (rank : BitVec 32) (s : State) : Out :=
  if s.powerDownDue hbm unit rank.toNat then .next { s with dram := { s.dram with pdown := s.dram.pdown ++ [rank.toNat] } }
  else .next s

/-- DRAM_TEMPERATURE_READ: above 85 °C refresh is doubled and hot set (R392); `temp` in degrees. -/
def execDramTemperatureRead (hbm : Bool) (unit : Fin 4) (temp : Int) (s : State) : Out :=
  let f := if hbm then F.hbmStkStat_hot else F.ddrChStat_hot
  .next (s.put f [if hbm then unit.val % 2 else unit.val] (b2n (decide (85 < temp))))

/-- TRACKING: the delays a rank or PC measures are no state the manual names; it changes nothing else (R394). -/
def execTracking (hbm : Bool) (unit : Fin 4) (sub : Fin 32) (s : State) : Out :=
  match hbm, unit, sub with
  | _, _, _ => .next s

/-- Mark a unit failed: a PC of a stack, the stack when all 32 are failed, or a channel (R393, R396). -/
def State.failUnit (s : State) (u : MemUnit) : State :=
  let s := s.logEv u.site u.kind u.unit 0x0604 4 (locBytes u.location)
  if u.hbm then
    let s := s.put F.hbmStkPcfail_pc [u.unit] (Nat.lor (s.get F.hbmStkPcfail_pc [u.unit]) (2 ^ u.sub))
    if s.get F.hbmStkPcfail_pc [u.unit] = 2 ^ 32 - 1 then s.raise F.hbmStkStat_failed [u.unit] else s
  else s.raise F.ddrChStat_failed [u.unit]

/-- The training firmware a retrain that starts now uses: that of a commit made since (R507). -/
def State.trainFwNow (s : State) : Nat :=
  match s.upd.commit with
  | some c => bitsOf c.slots 3 3
  | none => s.upd.trainFw

/-- PERIODIC_RETRAIN: a slice of the retrain of a rank or PC (the location word's HI bits) begins or ends, `fin` the last one. The
tracking bit shows the retrain; requests to the rank or PC wait during a slice; a training firmware activated since takes effect
(R395, R507). -/
def execPeriodicRetrain (hbm : Bool) (unit : Fin 4) (rank : BitVec 32) (busy fin : Bool) (s : State) : Out :=
  let f := if hbm then F.hbmStkStat_tracking else F.ddrChStat_tracking
  let rest := s.dram.slice.filter (· != rank.toNat)
  let s := ({ s with upd := { s.upd with trainFw := s.trainFwNow },
                     dram := { s.dram with slice := if busy then rest ++ [rank.toNat] else rest } } : State)
  .next (s.put f [if hbm then unit.val % 2 else unit.val] (b2n (busy || !fin)))

/-- A request that a failed command has involved completes with DERR and leaves its queue; a write that has been answered stays there
(R388, R396; log entry 117). -/
def State.cmdFails (s : State) (r : Req) : State :=
  if s.dram.held.any (fun h => h.req == r && h.answered) then s
  else ({ s with dram := { s.dram with held := s.dram.held.filter (fun h => h.req != r) } } : State).respond r .derr

/-- COMMAND_PARITY_ERROR: a repeat that succeeds leaves no trace; where it fails, the requests complete with DERR, an
entry is logged, and a failed retrain marks the unit failed (R396). -/
def execCommandParityError (hbm : Bool) (unit : Fin 4) (sub : Fin 32) (again retrained : Bool) (reqs : List Req) (s : State) : Out :=
  if !again then .next s
  else
    let u : MemUnit := ⟨hbm, if hbm then unit.val % 2 else unit.val, sub.val⟩
    let s1 := reqs.foldl State.cmdFails s
    let s2 := s1.logEv u.site u.kind u.unit 0x0603 3 (locBytes u.location)
    if retrained then .next s2 else .next (s2.failUnit u)

/-- The ranks of a channel, and the PCs of a stack, as power-down numbers them (R391). -/
def unitRanks (hbm : Bool) (k ranks : Nat) : List Nat :=
  if hbm then (List.range 32).map (fun p => 2 ^ 31 + 2 ^ 29 * k + 2 ^ 24 * p)
  else (List.range 2).flatMap (fun sub => (List.range ranks).map (fun r => 2 ^ 29 * k + 2 ^ 24 * sub + 2 ^ 23 * r))

/-- The power-down timers of a unit start (R391). -/
def State.startTimers (s : State) (l : List Nat) : State :=
  { s with dram := { s.dram with lastCmd := l.foldl (fun m r => SMap.insert m r s.tb.count) s.dram.lastCmd } }

/-- TRAINING_COMPLETE (R393): a unit grants credit, or is marked failed. `pop` is the population the board record gives
(bits [25:0] of STAT), `pcs` the PCs of a stack that failed. -/
def execTrainingComplete (hbm : Bool) (unit : Fin 4) (ok : Bool) (pcs pop : Word32) (s : State) : Out :=
  if hbm then
    let k := unit.val % 2
    let s1 := (List.range 32).foldl (fun s p => if !ok || pcs.getLsbD p then s.failUnit ⟨true, k, p⟩ else s) s
    let s2 := s1.raise F.hbmStkStat_found [k]
    .next (if ok then (s2.raise F.hbmStkStat_trained [k]).startTimers (unitRanks true k 0) else s2)
  else
    let w := s.reg .ddrChStat [unit] &&& 0xFC000000#32 ||| (pop &&& 0x03FF00FF#32)
    let s1 := (s.setReg .ddrChStat [unit] w).raise F.ddrChStat_found [unit]
    .next (if ok then (s1.raise F.ddrChStat_trained [unit]).startTimers (unitRanks false unit.val (s1.get F.ddrChStat_ranks [unit]))
      else s1.failUnit ⟨false, unit.val, 0⟩)

/-! ## Poison and clear commands (R385) -/

/-- DDR_PCMD: the address it names. -/
def State.pcmdAddr (s : State) : Nat := s.get F.ddrPaddrLo_addr [] * 64 + 2 ^ 32 * s.get F.ddrPaddrHi_addr []

/-- Operation `op` of DDR_PCMD on address `a`: encrypted regions and their metadata refuse with SERR (R385, R421); it is in
progress while its unit grants no credit (R393). -/
def State.poisonAt (s : State) (op a : Nat) : State :=
  let done (s : State) (c : Resp) := s.put F.ddrPcmd_resp [] c.code
  if !s.dramHas a then done s .aerr
  else if (match s.region a with
      | some r => s.encrypted r
      | none => false) || (s.metaRegion a).isSome then done s .serr
  else
    match s.dramGate a with
    | .go _ =>
      if op = 1 then done (s.poisonBlock (a / 64)) .ok
      else done (s.putBlock (a / 64) (List.replicate 64 0#8) (s.freshMeta (a / 64))) .ok
    | .failed u => done (s.logFailed u a) .derr
    | .wait => ({ s with dram := { s.dram with pcmd := some (op, a) } } : State).raise F.ddrPcmd_busy []
    | .absent => done s .aerr

/-- A write to DDR_PCMD.op: ignored while a command is in progress. -/
def State.poisonCommand (s : State) (op : Nat) : State :=
  if (op ≠ 1 ∧ op ≠ 2) ∨ s.flag F.ddrPcmd_busy [] then s else s.poisonAt op s.pcmdAddr

/-- A command of DDR_PCMD in progress goes on once its unit grants credit. -/
def State.poisonResume (s : State) : State :=
  match s.dram.pcmd with
  | some (op, a) =>
    if s.dramGate a = .wait then s
    else (({ s with dram := { s.dram with pcmd := none } } : State).put F.ddrPcmd_busy [] 0).poisonAt op a
  | none => s

def execPoisonBlock (src : Src) (s : State) : Out :=
  .next (s.command src .ddrPcmd [] (F.ddrPcmd_op.put 0#32 1) (·.poisonCommand 1))

def execClearBlock (src : Src) (s : State) : Out :=
  .next (s.command src .ddrPcmd [] (F.ddrPcmd_op.put 0#32 2) (·.poisonCommand 2))

/-! ## Row repair (R397 to R399) -/

/-- The location word PPRLOC holds. -/
def State.pprLoc (s : State) (hbm : Bool) : Nat :=
  if hbm then s.pair .hbmPprlocLo .hbmPprlocHi [] else s.pair .ddrPprlocLo .ddrPprlocHi []

/-- The blocks of a row that a copy to the buffer changes: correctable ones are corrected, uncorrectable ones carry the
poison marker, poison is carried over (R385, R397). Only a block with a descriptor can differ. -/
def State.rowBlocks (s : State) (loc : Nat) : List RepairBlock :=
  s.dram.bmeta.filterMap (fun e =>
    if s.location (64 * e.1) = loc then
      match s.decodeBlock e.1 with
      | .fixed d => some ⟨e.1, s.blockBytes e.1, e.2, d, s.freshMeta e.1⟩
      | .bad d _ _ => some ⟨e.1, d, e.2, d, { e.2 with poison := true }⟩
      | _ => none
    else none)

/-- The row is copied to the buffer once the requests that were queued for it have completed; from then on its requests are served
from the buffer (R397). -/
def State.copyRow (s : State) (hbm : Bool) : State :=
  match s.repairOf hbm with
  | some rep =>
    if rep.copied || rep.before.any (fun r => s.dram.held.any (fun h => h.req == r)) then s
    else
      let bs := s.rowBlocks rep.loc.toNat
      (bs.foldl (fun s b => s.putBlock b.block b.data1 b.meta1) s).setRepair hbm (some { rep with copied := true, blocks := bs })
  | none => s

/-- Start a row repair. -/
def State.startRepair (s : State) (hbm hard : Bool) : State :=
  let loc := s.pprLoc hbm
  let before := (s.dram.held.filter (fun h => s.location h.req.addr.toNat == loc)).map (·.req)
  let s := s.setRepair hbm (some ⟨hard, BitVec.ofNat 64 loc, before, false, []⟩)
  (s.raise (if hbm then F.hbmPprcmd_busy else F.ddrPprcmd_busy) []).copyRow hbm

/-- The unit a location word names. -/
def locUnit (loc : Nat) : MemUnit := ⟨bitsOf loc 63 63 == 1, bitsOf loc 62 61, bitsOf loc 60 56⟩

/-- A write to PPRCMD.op: ignored while busy; op 2 only before the unit is trained, else res 1 (R397, R398). -/
def State.repairCommand (s : State) (hbm : Bool) (op : Nat) : State :=
  let busy := if hbm then s.flag F.hbmPprcmd_busy [] else s.flag F.ddrPprcmd_busy []
  let res := if hbm then F.hbmPprcmd_res else F.ddrPprcmd_res
  if busy then s
  else if op = 1 then s.startRepair hbm false
  else if op = 2 then
    if s.unitTrained (locUnit (s.pprLoc hbm)) then s.put res [] 1 else s.startRepair hbm true
  else s

def execSoftRepair (src : Src) (hbm : Bool) (s : State) : Out :=
  .next (s.command src (if hbm then .hbmPprcmd else .ddrPprcmd) [] (F.ddrPprcmd_op.put 0#32 1) (·.repairCommand hbm 1))

def execHardRepair (src : Src) (hbm : Bool) (s : State) : Out :=
  .next (s.command src (if hbm then .hbmPprcmd else .ddrPprcmd) [] (F.ddrPprcmd_op.put 0#32 2) (·.repairCommand hbm 2))

/-- A repair that found no spare row changes nothing: a block nobody has written meanwhile is as it was (R399). -/
def State.undoRepair (s : State) (b : RepairBlock) : State :=
  if s.blockBytes b.block = b.data1 ∧ s.bmeta b.block = b.meta1 then s.putBlock b.block b.data0 b.meta0 else s

/-- REPAIR_COMPLETE: busy clears, res is set, an entry is logged; a soft repair done is in force and recorded by MC
firmware (R397 to R399). `res`: 0 done, 2 no spare row, 3 programming failed. -/
def execRepairComplete (hbm : Bool) (res : Fin 8) (s : State) : Out :=
  match s.repairOf hbm with
  | none => .next s
  | some rep =>
    if !rep.copied then .next s
    else
    let s1 := if res.val = 2 then rep.blocks.foldl (fun s b => s.undoRepair b) s else s
    let soft := if res.val = 0 && !rep.hard then s1.dram.soft ++ [rep.loc] else s1.dram.soft
    let s2 := ({ s1 with dram := { s1.dram with soft := soft } } : State).setRepair hbm none
    let s3 := if hbm then (s2.put F.hbmPprcmd_busy [] 0).put F.hbmPprcmd_res [] res
      else (s2.put F.ddrPprcmd_busy [] 0).put F.ddrPprcmd_res [] res
    let u := locUnit rep.loc.toNat
    .next (s3.logEv u.site u.kind u.unit 0x0605 0 (locBytes rep.loc.toNat ++ leBytes 1 res.val))

/-! ## Correction counts (R383) -/

/-- A read of a CECNT register: a normal read clears the counts, a peek read does not. -/
def State.cecntRead (s : State) (src : Src) (n : RegName) (i : Nat) : Word32 × State :=
  let w := s.readReg n [i]
  (w, if src.peeks then s else s.setReg n [i] 0#32)

def execCecntRead (src : Src) (hbm : Bool) (unit : Fin 4) (s : State) : Out :=
  let (w, s1) := if hbm then s.cecntRead src .hbmStkCecnt (unit.val % 2) else s.cecntRead src .ddrChCecnt unit
  .next (s1.answerWord src w)

end Sys2Proof.Machine
end

