-- ==== Sys2Proof/Machine/Encryption.lean ====
section
/-!
DEFINITION. Sys2Proof/Machine/Encryption.lean: region descriptors, sectors, counters, the integrity tree, the sector
cache, poison and healing, keys and rotation (R381, R382, R400 to R421).  Tags and ciphertext are bytes of the DRAM;
counter blocks and inner nodes follow from the counters unless something else was written over them (Dram.lean).
-/

namespace Sys2Proof.Machine

/-! ## Engines and keys -/

/-- The engine that serves an address (R400). -/
def engineOf (a : Nat) : Nat := if isHbm a then 4 + (hbmPlace a).1 else a / 512 % 4

/-- An engine. -/
def State.eng (s : State) (e : Nat) : EncEngine := SMap.get default s.encE e
def State.setEng (s : State) (e : Nat) (x : EncEngine) : State := { s with encE := SMap.set default s.encE e x }

/-- The bucket and the site of an engine (R426, R432). -/
def engineBucket (e : Nat) : Nat := if e < 4 then 68 + e else 16 * (e - 4) + 10
def engineSite (e : Nat) : Nat := if e < 4 then 8 else e - 4

/-- A region's state (R409, R419): 0 off, 1 initialising, 2 ready, 3 rekeying. -/
def State.rgnState (s : State) (r : Nat) : Nat := s.get F.encRgnStat_state [r]

/-- The boundary register b (R418). -/
def State.bound (s : State) (r : Nat) : Nat := s.pair .encRgnBoundLo .encRgnBoundHi [r]
def State.setBound (s : State) (r b : Nat) : State :=
  (s.setReg .encRgnBoundLo [r] (BitVec.ofNat 32 b)).setReg .encRgnBoundHi [r] (BitVec.ofNat 32 (b / 2 ^ 32))

/-- The key set of a sector: below b the new slot, else the current slot (R418). -/
def State.keyOf (s : State) (r i : Nat) : KeySet :=
  let e := s.encRgn r
  (if i < s.bound r then e.new else e.cur).getD ⟨0#256, 0#256, 0#256⟩

/-- The data tag and the poison tag of a sector (R404). -/
def dataTag (k : KeySet) (i c : Nat) (cipher : BitVec 4096) : BitVec 64 :=
  cmac64 k.tagKey (leBytes 8 i ++ leBytes 8 c ++ leBytes 512 cipher.toNat)
def poisonTag (k : KeySet) (i c : Nat) : BitVec 64 :=
  cmac64 k.tagKey (leBytes 8 (i + 2 ^ 63) ++ leBytes 8 c ++ List.replicate 512 0#8)

/-! ## Findings -/

/-- ENC_RGNr_STAT.lost counts the nodes of a region in the lost lists. -/
def State.syncLost (s : State) (r : Nat) : State :=
  let n := (List.range 6).foldl (fun t e => t + ((s.eng e).lost.filter (fun x => x.region == r)).length) 0
  s.put F.encRgnStat_lost [r] n

/-- A tamper finding (R417): alarm, region, interrupt, log. `finding`: 0 a sector's tag, 1 a node's digest. -/
def State.tamper (s : State) (e r a requester finding : Nat) : State :=
  let s := (s.raise F.encAlarm_tamper []).put F.encAlarm_region [] r
  let s := s.logEv (engineSite e) 8 e 0x0701 5 (leBytes 1 r ++ leBytes 6 a ++ leBytes 1 requester ++ leBytes 1 finding)
  s.interrupt .alarm

/-- An integrity-lost finding (R415): log, alarm, interrupt, lost list of at most 64 nodes (R416). -/
def State.nodeLost (s : State) (e a requester : Nat) (n : Node) : State :=
  let s := (s.raise F.encAlarm_lost []).put F.encAlarm_region [] n.region
  let s := s.logEv (engineSite e) 8 e 0x0702 3
    (leBytes 1 n.region ++ leBytes 6 a ++ leBytes 1 requester ++ leBytes 1 n.level)
  let s := s.interrupt .lost
  let x := s.eng e
  if x.lost.length < 64 ∧ !x.lost.contains n then (s.setEng e { x with lost := x.lost ++ [n] }).syncLost n.region else s

/-! ## The tree (R405, R415) -/

/-- Addresses of a node: the counter block, or copies A and B of an inner node (R407). -/
def State.nodeAddr (s : State) (n : Node) (copyB : Bool) : Nat :=
  let c := s.rgnSectors n.region
  let m := s.metaBase n.region
  if n.level = 1 then m + metaT1 c + 64 * n.index
  else m + (if copyB then metaT3 c else metaT2 c) + 64 * (innerBefore c n.level + n.index)

/-- The bytes the counters give a node. -/
def State.trueNode (s : State) (n : Node) : List Byte :=
  nodeBytes (s.encRgn n.region).treeKey (s.ctrOf n.region) (s.rgnSectors n.region) n.level n.index

/-- What a fetch of one stored copy finds. -/
inductive CopyRead where
  | good | mismatch | unreadable
deriving DecidableEq, Repr

/-- Fetch one copy of a node and compare its digest with that of the verified parent (R415). -/
def State.fetchCopy (s : State) (n : Node) (copyB : Bool) (requester : Nat) : CopyRead × State :=
  let key := (s.encRgn n.region).treeKey
  match s.ctlRead (s.nodeAddr n copyB) 64 requester 0 with
  | some (.ok, d, _, s') =>
    (if digest key n.level n.index d = digest key n.level n.index (s.trueNode n) then .good else .mismatch, s')
  | some (_, _, _, s') => (.unreadable, s')
  | none => (.unreadable, s)

/-- The engine writes a copy of a node: the block follows from the counters again. -/
def State.rewriteCopy (s : State) (n : Node) (copyB : Bool) : State :=
  let b := s.nodeAddr n copyB / 64
  let x := s.encRgn n.region
  let d := { s.dram with bytes := putBytes s.dram.bytes (64 * b) (List.replicate 64 0#8), bmeta := SMap.set default s.dram.bmeta b default,
                         wback := s.dram.wback.filter (fun e => e.1 != b) }
  { s with dram := d }.setEncRgn n.region { x with rawMeta := x.rawMeta.filter (· != b) }

/-- What a fetch of a node finds (R415). -/
inductive NodeFind where
  | used | lost | tampered
deriving DecidableEq, Repr

/-- Fetch a node: a counter block in its one copy, an inner node in copy A and then copy B (R415). -/
def State.fetchNode (s : State) (e : Nat) (n : Node) (a requester : Nat) : NodeFind × State :=
  let (ra, s) := s.fetchCopy n false requester
  if n.level = 1 then
    match ra with
    | .good => (.used, s)
    | .mismatch => (.tampered, s)
    | .unreadable => (.lost, s)
  else
    match ra with
    | .good => (.used, s)
    | .unreadable =>
      let (rb, s) := s.fetchCopy n true requester
      match rb with
      | .good => (.used, (s.rewriteCopy n false).bucket (engineBucket e)
          (leBytes 6 a ++ locBytes (s.location a)))
      | .unreadable => (.lost, s)
      | .mismatch => (.tampered, s)
    | .mismatch =>
      let (rb, s) := s.fetchCopy n true requester
      match rb with
      | .good => (.used, (s.rewriteCopy n false).tamper e n.region a requester 1)
      | _ => (.tampered, s)

/-- Keep a verified node in the engine's node cache of 256 KiB, least recently used leaving (R400). -/
def State.cacheNode (s : State) (e : Nat) (n : Node) : State :=
  let x := s.eng e
  s.setEng e { x with nodes := (n :: x.nodes.filter (· != n)).take 4096 }

/-- The node of level `k` above sector `i`. -/
def nodeAbove (r i k : Nat) : Node := ⟨r, k, i / 8 ^ k⟩

/-- Verify nodes from the top down; the first that fails decides (R411, R415). -/
def verifyNodes (e a requester : Nat) : List Node → State → NodeFind × State
  | [], s => (.used, s)
  | n :: t, s =>
    match s.fetchNode e n a requester with
    | (.used, s) => verifyNodes e a requester t (s.cacheNode e n)
    | (.lost, s) => (.lost, s.nodeLost e a requester n)
    | (.tampered, s) => (.tampered, s.tamper e n.region a requester 1)

/-- Obtain a sector's counter: verify up to the first node held in the node cache, or to the root (R411). -/
def State.verifyPath (s : State) (e r i a requester : Nat) : NodeFind × State :=
  let path := (List.range (treeLevels (s.rgnSectors r))).map (fun k => nodeAbove r i (k + 1))
  verifyNodes e a requester (path.takeWhile (fun n => !(s.eng e).nodes.contains n)).reverse s

/-- Whether a sector lies below a node of the lost list (R416). -/
def State.belowLost (s : State) (e r i : Nat) : Option Node :=
  (s.eng e).lost.find? (fun n => n.region == r && decide (i / 8 ^ n.level = n.index))

/-- A sector's counter becomes `c`; hc follows; its path is written (R404, R412). -/
def State.setCtr (s : State) (e r i c : Nat) : State :=
  let x := s.encRgn r
  let s := s.setEncRgn r { x with ctr := SMap.set 0 x.ctr i c, hc := max x.hc c }
  (List.range (treeLevels (s.rgnSectors r))).foldl (fun s k =>
    let n := nodeAbove r i (k + 1)
    ((s.rewriteCopy n false).rewriteCopy n true).cacheNode e n) s

/-! ## Sectors in DRAM -/

/-- First byte of a sector; address of its tag (R402, R407). -/
def State.sectorAddr (s : State) (r i : Nat) : Nat := s.rgnBase r + 512 * i
def State.tagAddr (s : State) (r i : Nat) : Nat := s.metaBase r + 8 * i

/-- Read the eight blocks of ciphertext; `none` where one of them does not read as OK. -/
def readCipher (a requester : Nat) : List Nat → State → Option (List Byte) × State
  | [], s => (some [], s)
  | k :: t, s =>
    match s.ctlRead (a + 64 * k) 64 requester 0 with
    | some (.ok, d, _, s) =>
      let (r, s) := readCipher a requester t s
      (r.map (d ++ ·), s)
    | some (_, _, _, s) => (none, (readCipher a requester t s).2)
    | none => (none, s)

/-- Whether a block of a sector, its tag or a node above it lies in a unit that grants no credit (R58, R393): the engine waits. -/
def State.sectorWaits (s : State) (r i : Nat) : Bool :=
  ((List.range 8).map (fun k => s.sectorAddr r i + 64 * k) ++ [s.tagAddr r i]
    ++ (List.range (treeLevels (s.rgnSectors r))).flatMap (fun k =>
        let n := nodeAbove r i (k + 1)
        [s.nodeAddr n false, s.nodeAddr n true])).any (fun a => s.dramGate a == .wait)

/-- What a fetch of a sector finds (R411). -/
inductive SectorRead where
  | data (d : BitVec 4096) | poison | derr | tamper | nodeLost | nodeTamper
deriving DecidableEq, Repr

/-- Fetch a sector that is not cached (R411); a tamper finding raises the alarm (R417). -/
def State.fetchSector (s : State) (e r i a requester : Nat) : SectorRead × State :=
  match s.verifyPath e r i a requester with
  | (.lost, s) => (.nodeLost, s)
  | (.tampered, s) => (.nodeTamper, s)
  | (.used, s) =>
    let c := s.ctrOf r i
    if c = 0 then (.data 0#4096, s)
    else
      let (bytes, s) := readCipher (s.sectorAddr r i) requester (List.range 8) s
      match bytes, s.ctlRead (s.tagAddr r i) 8 requester 0 with
      | some bs, some (.ok, tag, _, s) =>
        let k := s.keyOf r i
        let cipher := BitVec.ofNat 4096 (leNat bs)
        let t := BitVec.ofNat 64 (leNat tag)
        if t = dataTag k i c cipher then (.data (xtsDecrypt k.k1 k.k2 i cipher), s)
        else if t = poisonTag k i c then (.poison, s)
        else (.tamper, s.tamper e r a requester 0)
      | _, some (_, _, _, s) => (.derr, s)
      | _, none => (.derr, s)

/-- Write a sector's tag. -/
def State.writeTag (s : State) (r i : Nat) (t : BitVec 64) : State :=
  s.orElse (s.ctlWrite (s.tagAddr r i) (leBytes 8 t.toNat) false 0 0)

/-- Write a sector's ciphertext. -/
def State.writeCipher (s : State) (r i : Nat) (c : BitVec 4096) : State :=
  let bs := leBytes 512 c.toNat
  (List.range 8).foldl (fun s k =>
    s.orElse (s.ctlWrite (s.sectorAddr r i + 64 * k) ((bs.drop (64 * k)).take 64) false 0 0)) s

/-- A dirty line goes to DRAM: counter, ciphertext, tag, tree (R412). -/
def State.writeBack (s : State) (e : Nat) (l : CLine) : State :=
  if l.dirty then
    let c := s.ctrOf l.region l.sector + 1
    let k := s.keyOf l.region l.sector
    let cipher := xtsEncrypt k.k1 k.k2 l.sector l.data
    ((s.writeCipher l.region l.sector cipher).writeTag l.region l.sector (dataTag k l.sector c cipher)).setCtr e l.region l.sector c
  else s

/-- Drop a sector's line from the cache. -/
def State.dropLine (s : State) (e r i : Nat) : State :=
  let x := s.eng e
  s.setEng e { x with lines := x.lines.filter (fun l => !(l.region == r && l.sector == i)) }

/-- Poison a sector: its counter advances and the poison tag is written; the ciphertext stays (R413). -/
def State.poisonSector (s : State) (e r i : Nat) : State :=
  let s := s.dropLine e r i
  let c := s.ctrOf r i + 1
  (s.writeTag r i (poisonTag (s.keyOf r i) i c)).setCtr e r i c

/-! ## The sector cache (R412) -/

/-- Lines an engine's cache of 2 MiB holds (R400). -/
def cacheLines : Nat := 4096

/-- The line that leaves next: a convert-first line ahead of others, least recently used first (R412, R419). -/
def EncEngine.victim (x : EncEngine) : Option CLine :=
  match x.lines.reverse.find? (·.convert) with
  | some l => some l
  | none => x.lines.getLast?

/-- Evict the victim, unless its sector waits for the controllers. -/
def State.evict (s : State) (e : Nat) : State :=
  match (s.eng e).victim with
  | some l => if s.sectorWaits l.region l.sector then s else (s.dropLine e l.region l.sector).writeBack e l
  | none => s

/-- The line of a sector. -/
def State.lineOf (s : State) (e r i : Nat) : Option CLine :=
  (s.eng e).lines.find? (fun l => l.region == r && l.sector == i)

/-- Make a line the most recently used one; a full cache evicts first. -/
def State.putLine (s : State) (e : Nat) (l : CLine) : State :=
  let s := s.dropLine e l.region l.sector
  let s := if cacheLines ≤ (s.eng e).lines.length then s.evict e else s
  let x := s.eng e
  s.setEng e { x with lines := l :: x.lines }

/-- The open heal line of a sector. -/
def State.healOf (s : State) (e r i : Nat) : Option HealLine :=
  (s.eng e).heal.find? (fun h => h.region == r && h.sector == i)
def State.dropHeal (s : State) (e r i : Nat) : State :=
  let x := s.eng e
  s.setEng e { x with heal := x.heal.filter (fun h => !(h.region == r && h.sector == i)) }

/-- Bytes [o, o + n) of a sector. -/
def sectorSlice (d : BitVec 4096) (o n : Nat) : List Byte := leBytes n (d.toNat / 2 ^ (8 * o))

/-- A sector with bytes replaced from offset `o`. -/
def sectorMerge (d : BitVec 4096) (o : Nat) (bs : List Byte) : BitVec 4096 :=
  BitVec.ofNat 4096 (leNat (overwrite (leBytes 512 d.toNat) o bs))

/-! ## Accesses of encrypted regions -/

/-- What an access to an encrypted region meets before its sector: a stopped clock domain 9 (R62), a region that is
not ready (R409). -/
def State.encGate (s : State) (r : Nat) : Option Resp :=
  if !s.runs 9 then some .terr
  else if s.rgnState r < 2 then some .retry
  else none

/-- The response of a failed fetch (R411, R415). -/
def SectorRead.code : SectorRead → Resp
  | .data _ => .ok
  | .poison => .perr
  | .derr => .derr
  | .tamper => .serr
  | .nodeLost => .perr
  | .nodeTamper => .serr

/-- A read of an encrypted region: below a lost node nothing is served (R415, R416), nor from an open heal line (R414); else from the
cache or by a fetch (R411): code and bytes. -/
def State.encRead (s : State) (r a len requester : Nat) : Resp × List Byte × State :=
  match s.encGate r with
  | some c => (c, [], s)
  | none =>
    let e := engineOf a
    let i := (a - s.rgnBase r) / 512
    let o := (a - s.rgnBase r) % 512
    if (s.belowLost e r i).isSome || (s.healOf e r i).isSome then (.perr, [], s)
    else
      match s.lineOf e r i with
      | some l => (.ok, sectorSlice l.data o len, s.putLine e l)
      | none =>
        match s.fetchSector e r i a requester with
        | (.data d, s) => (.ok, sectorSlice d o len, s.putLine e ⟨r, i, d, false, false⟩)
        | (f, s) => (f.code, [], s)

/-- Merge a write into a heal line; when all 512 bytes are there every held write completes with OK and the line
becomes an ordinary dirty line (R414). -/
def State.healWrite (s : State) (e r i o : Nat) (q : Req) : State :=
  let h := (s.healOf e r i).getD ⟨r, i, 0#4096, 0#512, []⟩
  let h := { h with data := sectorMerge h.data o q.data, mask := h.mask ||| BitVec.ofNat 512 ((2 ^ q.data.length - 1) * 2 ^ o),
                    held := h.held ++ [q] }
  let s := s.dropHeal e r i
  if h.mask = BitVec.allOnes 512 then
    (h.held.foldl (fun s q => s.respond q .ok) s).putLine e ⟨r, i, h.data, true, false⟩
  else
    let x := s.eng e
    s.setEng e { x with heal := x.heal ++ [h] }

/-- The timeout of a held write of a heal line: every held write of it completes with TERR and the line is discarded (R414). -/
def State.healTimeout (s : State) (q : Req) : Option State :=
  (List.range 6).findSome? (fun e =>
    match (s.eng e).heal.find? (fun h => h.held.contains q) with
    | some h => some (h.held.foldl (fun s q => s.respond q .terr) (s.dropHeal e h.region h.sector))
    | none => none)

/-- The end of a write whose data fails its parity, or whose ciphertext cannot be read: no byte is written and the sector is poisoned
(R367, R413). -/
def State.failWrite (s : State) (e r i : Nat) (q : Req) (c : Resp) : State := (s.poisonSector e r i).respond q c

/-- A write of an encrypted region (R413, R414): it responds itself, since a heal line holds its writes. Data parity counts only where
the write would be performed (R367). -/
def State.encWrite (s : State) (r : Nat) (q : Req) : State :=
  match s.encGate r with
  | some c => s.respond q c
  | none =>
    let a := q.addr.toNat
    let e := engineOf a
    let i := (a - s.rgnBase r) / 512
    let o := (a - s.rgnBase r) % 512
    let good := q.badPar.isEmpty
    if (s.belowLost e r i).isSome then s.respond q .perr
    else if (s.healOf e r i).isSome then (if good then s.healWrite e r i o q else s.respond q .perr)
    else
      match s.lineOf e r i with
      | some l =>
        if good then (s.putLine e { l with data := sectorMerge l.data o q.data, dirty := true }).respond q .ok
        else s.failWrite e r i q .perr
      | none =>
        match s.fetchSector e r i a q.src.requester with
        | (.data d, s) =>
          if good then (s.putLine e ⟨r, i, sectorMerge d o q.data, true, false⟩).respond q .ok else s.failWrite e r i q .perr
        | (.poison, s) => if good && s.flag F.encRgnCtrl_heal [r] then s.healWrite e r i o q else s.respond q .perr
        | (.derr, s) => s.failWrite e r i q (if good then .derr else .perr)
        | (.tamper, s) => s.failWrite e r i q .serr
        | (f, s) => s.respond q f.code

/-- SECTOR_EVICTION: the engine's least recently used line leaves (R412). -/
def execSectorEviction (e : Fin 6) (s : State) : Out := if s.runs 9 then .next (s.evict e) else .next s

/-! ## Descriptors (R381, R382, R408, R409, R421) -/

/-- Whether [a, a + n) lies in the fitted DDR5, in the HBM, in the secure range of stack k. -/
def State.inDdr (s : State) (a n : Nat) : Bool := a + n ≤ s.ddrFitted
def inHbm (a n : Nat) : Bool := hbmBase ≤ a && a + n ≤ hbmBase + hbmSize
def inSecure (k a n : Nat) : Bool := hbmSecureOf a k && hbmSecureOf (a + n - 1) k

/-- Whether two ranges meet. -/
def overlap (a n b m : Nat) : Bool := decide (a < b + m) && decide (b < a + n)

/-- Whether a write of 1 to a descriptor's en may take effect (R381, R408). -/
def State.rgnOk (s : State) (r : Nat) : Bool :=
  let a := s.rgnBase r
  let n := s.rgnUnits r * 2 ^ 20
  let whole := decide (1 ≤ s.rgnUnits r) && (s.inDdr a n || inHbm a n)
  if s.flag F.ddrRgnCfg_enc [r] then
    let m := s.metaBase r
    let k := metaSize (s.rgnSectors r)
    whole && !s.flag F.ddrRgnCfg_code [r] &&
    ((s.inDdr a n && s.inDdr m k) || (inSecure 0 a n && inSecure 0 m k) || (inSecure 1 a n && inSecure 1 m k)) &&
    !overlap m k a n &&
    (List.range 64).all (fun j => j == r || !s.flag F.ddrRgnCfg_en [j] ||
      (!overlap m k (s.rgnBase j) (s.rgnUnits j * 2 ^ 20) &&
        !(s.flag F.ddrRgnCfg_enc [j] && overlap m k (s.metaBase j) (metaSize (s.rgnSectors j))))) &&
    (s.encRgn r).cur.isSome
  else whole

/-- The blocks of a region's tree. -/
def State.treeBlocks (s : State) (r : Nat) : List Nat :=
  let n := s.rgnSectors r
  let m := s.metaBase r / 64
  ((List.range (metaSize n / 64)).filter (fun k => (metaNode n (64 * k)).isSome)).map (m + ·)

/-- Initialise a region: tree key, hc 0, zero counters, both copies of every inner node, root (R409). -/
def State.initRegion (s : State) (r : Nat) : State :=
  let (n, s) := s.draw
  let bs := s.treeBlocks r
  let d := { s.dram with bytes := SMap.clear s.dram.bytes (fun a => bs.contains (a / 64)), bmeta := SMap.clear s.dram.bmeta bs.contains }
  let s := { s with dram := d }
  let x := s.encRgn r
  (s.setEncRgn r { x with treeKey := Config.random n, hc := 0, ctr := [], rawMeta := [] }).put F.encRgnStat_state [r] 1

/-- The lines, heal lines, nodes and lost entries of a region are discarded without writeback (R421). -/
def State.dropRegion (s : State) (r : Nat) : State :=
  ((List.range 6).foldl (fun s e =>
    let x := s.eng e
    let s := (x.heal.filter (fun h => h.region == r)).foldl (fun s h => h.held.foldl (fun s q => s.respond q .terr) s) s
    s.setEng e { lines := x.lines.filter (fun l => l.region != r), heal := x.heal.filter (fun h => h.region != r),
                 nodes := x.nodes.filter (fun n => n.region != r), lost := x.lost.filter (fun n => n.region != r) }) s).syncLost r

/-- The metadata of a region becomes ordinary stored bytes. -/
def State.materialise (s : State) (r : Nat) : State :=
  (s.treeBlocks r).foldl (fun s b =>
    match s.treeBytes (64 * b) with
    | some l => s.putBlock b l (s.freshMeta b)
    | none => s) s

/-- Disable a region (R421): root, tree key and current key are erased. -/
def State.disableRegion (s : State) (r : Nat) : State :=
  if s.flag F.ddrRgnCfg_enc [r] then
    let s := (s.materialise r).dropRegion r
    let x := s.encRgn r
    let s := s.setEncRgn r { (default : EncRegion) with new := x.new }
    ((s.put F.encRgnStat_state [r] 0).put F.encRgnStat_curKey [r] 0).put F.ddrRgnCfg_en [r] 0
  else s.put F.ddrRgnCfg_en [r] 0

/-- A write to DDR_RGNr_CFG (R381, R382, R408, R409, R421). -/
def State.rgnConfig (s : State) (r : Nat) (w : Word32) : State :=
  let s := if F.ddrRgnCfg_cfgErr.of w = 1 then s.put F.ddrRgnCfg_cfgErr [r] 0 else s
  if s.flag F.ddrRgnCfg_en [r] then
    let same := F.ddrRgnCfg_code.of w = s.get F.ddrRgnCfg_code [r] ∧ F.ddrRgnCfg_enc.of w = s.get F.ddrRgnCfg_enc [r] ∧
      F.ddrRgnCfg_encCfg.of w = s.get F.ddrRgnCfg_encCfg [r]
    let s := if same then s else s.raise F.ddrRgnCfg_cfgErr [r]
    if F.ddrRgnCfg_en.of w = 1 then s
    else if s.flag F.ddrRgnCfg_enc [r] && s.rgnState r == 3 then s.raise F.ddrRgnCfg_cfgErr [r]
    else s.disableRegion r
  else
    let s := ((s.put F.ddrRgnCfg_code [r] (F.ddrRgnCfg_code.of w)).put F.ddrRgnCfg_enc [r] (F.ddrRgnCfg_enc.of w)).put
      F.ddrRgnCfg_encCfg [r] (F.ddrRgnCfg_encCfg.of w)
    if F.ddrRgnCfg_en.of w = 0 then s
    else if !s.rgnOk r then s.raise F.ddrRgnCfg_cfgErr [r]
    else
      let s := s.raise F.ddrRgnCfg_en [r]
      if s.flag F.ddrRgnCfg_enc [r] then s.initRegion r else s

/-- A write to DDR_RGNr_BASE or DDR_RGNr_LIMIT: only while en is 0 (R382). -/
def State.rgnRange (s : State) (n : RegName) (r : Nat) (w : Word32) : State :=
  if s.flag F.ddrRgnCfg_en [r] then s.raise F.ddrRgnCfg_cfgErr [r] else s.writeReg n [r] w

def execRegionEnable (src : Src) (r : Fin 64) (w : Word32) (s : State) : Out :=
  .next (s.command src .ddrRgnCfg [r] (w ||| 0x80000000#32) (·.rgnConfig r (w ||| 0x80000000#32)))

def execRegionDisable (src : Src) (r : Fin 64) (w : Word32) (s : State) : Out :=
  .next (s.command src .ddrRgnCfg [r] (w &&& 0x7FFFFFFF#32) (·.rgnConfig r (w &&& 0x7FFFFFFF#32)))

/-- REGION_INIT_DONE: the state becomes ready (R409). -/
def execRegionInitDone (r : Fin 64) (s : State) : Out :=
  if s.rgnState r = 1 then .next (s.put F.encRgnStat_state [r] 2) else .next s

/-! ## Keys (R418) -/

/-- Bytes 4k to 4k + 3 of the key buffer, most significant byte of the set first. -/
def State.keyBytes (s : State) (a n : Nat) : BitVec 256 :=
  let bs := ((List.range 24).map (fun k => leBytes 4 (s.reg .encKeybuf [k]).toNat)).flatten
  BitVec.ofNat 256 (leNat ((bs.drop a).take n).reverse)

/-- Zero ENC_KEYBUF. -/
def State.zeroKeybuf (s : State) : State := (List.range 24).foldl (fun s k => s.setReg .encKeybuf [k] 0#32) s

/-- ENC_KEYCMD (R418): 1 loads the new slot, 2 the current slot, 3 zeroes the buffer. -/
def State.keyCommand (s : State) (op r : Nat) : State :=
  let ks : KeySet := ⟨s.keyBytes 0 32, s.keyBytes 32 32, s.keyBytes 64 32⟩
  let x := s.encRgn r
  let z := s.zeroKeybuf
  let refused := z.put F.encKeycmd_res [] 1
  let done := z.put F.encKeycmd_res [] 0
  if op = 3 then done
  else if op = 1 then
    if s.rgnState r ≠ 2 ∨ ks.k1 = ks.k2 then refused
    else (done.setEncRgn r { x with new := some ks }).raise F.encRgnStat_newKey [r]
  else if op = 2 then
    if s.flag F.ddrRgnCfg_en [r] ∨ ks.k1 = ks.k2 then refused
    else (done.setEncRgn r { x with cur := some ks }).raise F.encRgnStat_curKey [r]
  else s

def execLoadNewKey (src : Src) (r : Fin 64) (s : State) : Out :=
  .next (s.command src .encKeycmd [] (F.encKeycmd_region.put 0x40000000#32 r) (·.keyCommand 1 r))

def execLoadCurrentKey (src : Src) (r : Fin 64) (s : State) : Out :=
  .next (s.command src .encKeycmd [] (F.encKeycmd_region.put 0x80000000#32 r) (·.keyCommand 2 r))

def execZeroKeyBuffer (src : Src) (s : State) : Out :=
  .next (s.command src .encKeycmd [] 0xC0000000#32 (·.keyCommand 3 0))

/-! ## Sector commands (R413, R414, R416) -/

/-- The address ENC_SADDR names. -/
def State.scmdAddr (s : State) : Nat := s.get F.encSaddrLo_addr [] * 512 + 2 ^ 32 * s.get F.encSaddrHi_addr []

/-- Rebuild a lost node: counters below become hc + 1, poison tags are written, the subtree is rewritten, the node
leaves every lost list (R416). -/
def State.rebuild (s : State) (e : Nat) (n : Node) : State :=
  let h := (s.encRgn n.region).hc + 1
  let total := s.rgnSectors n.region
  let below := (List.range (8 ^ n.level)).filterMap (fun q =>
    let i := n.index * 8 ^ n.level + q
    if i < total then some i else none)
  let s := below.foldl (fun s i =>
    ((s.dropLine (engineOf (s.sectorAddr n.region i)) n.region i).writeTag n.region i (poisonTag (s.keyOf n.region i) i h)).setCtr e n.region i h) s
  let s := (List.range 6).foldl (fun s k =>
    let x := s.eng k
    s.setEng k { x with lost := x.lost.filter (· != n) }) s
  s.syncLost n.region

/-- Operation `op` of ENC_SCMD on address `a` (R413, R414, R416); it is in progress while the sector waits for the
controllers. -/
def State.sectorAt (s : State) (op a : Nat) : State :=
  let done (s : State) (c : Resp) := s.put F.encScmd_resp [] c.code
  match s.region a with
  | none => done s .aerr
  | some r =>
    if !s.encrypted r then done s .aerr
    else
      match s.encGate r with
      | some c => done s c
      | none =>
        let e := engineOf a
        let i := (a - s.rgnBase r) / 512
        if s.sectorWaits r i then ({ s with dram := { s.dram with scmd := some (op, a) } } : State).raise F.encScmd_busy []
        else if op = 3 then
          match s.belowLost e r i with
          | some n => done (s.rebuild e n) .ok
          | none => done s .ok
        else if (s.belowLost e r i).isSome then done s .perr
        else
          match s.verifyPath e r i a 10 with
          | (.lost, s) => done s .perr
          | (.tampered, s) => done s .serr
          | (.used, s) =>
            let s := ((s.healOf e r i).toList.foldl (fun s h => h.held.foldl (fun s q => s.respond q .terr) s) s).dropHeal e r i
            if op = 1 then done ((s.dropLine e r i).writeBack e ⟨r, i, 0#4096, true, false⟩) .ok
            else done (s.poisonSector e r i) .ok

/-- A write to ENC_SCMD: ignored while a command is in progress. -/
def State.sectorCommand (s : State) (op : Nat) : State :=
  if s.flag F.encScmd_busy [] then s else s.sectorAt op s.scmdAddr

/-- A command of ENC_SCMD in progress is tried again. -/
def State.sectorResume (s : State) : State :=
  match s.dram.scmd with
  | some (op, a) => (({ s with dram := { s.dram with scmd := none } } : State).put F.encScmd_busy [] 0).sectorAt op a
  | none => s

def execClearSector (src : Src) (s : State) : Out :=
  .next (s.command src .encScmd [] 0x40000000#32 (·.sectorCommand 1))

def execPoisonSector (src : Src) (s : State) : Out :=
  .next (s.command src .encScmd [] 0x80000000#32 (·.sectorCommand 2))

def execRebuildLostNode (src : Src) (s : State) : Out :=
  .next (s.command src .encScmd [] 0xC0000000#32 (·.sectorCommand 3))

/-! ## Rotation (R419 to R421) -/

/-- A write of 1 to rekey (R419). -/
def State.rekey (s : State) (r : Nat) : State :=
  if s.rgnState r = 2 ∧ (s.encRgn r).new.isSome then (s.put F.encRgnStat_state [r] 3).setBound r 0
  else s.raise F.encRgnStat_rkErr [r]

/-- A write to ENC_RGNr_CTRL. -/
def State.encCtrl (s : State) (r : Nat) (w : Word32) : State :=
  let s := s.writeReg .encRgnCtrl [r] w
  if F.encRgnCtrl_rekey.of w = 1 then s.rekey r else s

def execRekey (src : Src) (r : Fin 64) (w : Word32) (s : State) : Out :=
  .next (s.command src .encRgnCtrl [r] (w ||| 0x80000000#32) (·.encCtrl r (w ||| 0x80000000#32)))

/-- REKEY_WALK_STEP: the sector at b, by what is found there (R419, R421); a rate of 0 pauses (R420). -/
def execRekeyWalkStep (r : Fin 64) (s : State) : Out :=
  let b := s.bound r
  let a := s.sectorAddr r b
  let e := engineOf a
  if s.rgnState r ≠ 3 ∨ s.get F.encRgnCtrl_rate [r] = 0 ∨ s.rgnSectors r ≤ b ∨ !s.runs 9 then .next s
  else if (s.belowLost e r b).isSome ∨ s.ctrOf r b = 0 then .next (s.setBound r (b + 1))
  else
    match s.lineOf e r b with
    | some l =>
      let x := s.eng e
      .next ((s.setEng e { x with lines := x.lines.map (fun m => if m = l then { m with dirty := true, convert := true } else m) }).setBound
        r (b + 1))
    | none =>
      if s.sectorWaits r b then .next s
      else
        match s.fetchSector e r b a 0 with
        | (.data d, s1) => .next ((s1.setBound r (b + 1)).putLine e ⟨r, b, d, true, true⟩)
        | (.nodeLost, s1) => .next (s1.setBound r (b + 1))
        | (.nodeTamper, s1) => .next (s1.setBound r (b + 1))
        | (_, s1) => .next ((s1.setBound r (b + 1)).poisonSector e r b)

/-- The steps the walk of a region takes in the present ns (R420): a sector that is converted at rate / 64 of 204.8 GB/s for 1,024 bytes
each, unwritten sectors at 2.5 a ns. -/
def State.walkSteps (s : State) (r : Nat) : Nat :=
  let b := s.bound r
  let rate := min 64 (s.get F.encRgnCtrl_rate [r])
  if s.rgnState r ≠ 3 ∨ rate = 0 ∨ s.rgnSectors r ≤ b ∨ !s.runs 9 then 0
  else if s.ctrOf r b = 0 then ((List.range (2 + s.tb.count % 2)).takeWhile (fun j => s.ctrOf r (b + j) == 0)).length
  else if s.tb.count * rate % 320 < rate then 1 else 0

/-- Whether an engine still holds a convert-first line of a region. -/
def State.converting (s : State) (r : Nat) : Bool :=
  (List.range 6).any (fun e => (s.eng e).lines.any (fun l => l.region == r && l.convert))

/-- ROTATION_COMPLETE (R419). -/
def execRotationComplete (r : Fin 64) (s : State) : Out :=
  if s.rgnState r = 3 ∧ s.rgnSectors r ≤ s.bound r ∧ !s.converting r then
    let x := s.encRgn r
    let s1 := (s.setEncRgn r { x with cur := x.new, new := none }).setBound r 0
    let s2 := ((s1.put F.encRgnStat_state [r] 2).put F.encRgnStat_newKey [r] 0).raise F.encRgnStat_curKey [r]
    .next ((s2.logEv 8 8 (engineOf (s.rgnBase r)) 0x0703 0 (leBytes 1 r)).interrupt .rekey)
  else .next s

end Sys2Proof.Machine
end

