-- ==== Sys2Proof/Machine/Mesh.lean ====
section
/-!
DEFINITION. Sys2Proof/Machine/Mesh.lean: where the endpoints of the network on chip lie, the headers of flits, the meshes of routers
and the routes through them, and the probes of routers (R24, R354 to R359, R362, R367, R373, R563).
-/

namespace Sys2Proof.Machine

/-! ## Where endpoints lie -/

/-- First address of register space (R24). -/
def registerSpace : Nat := 0x0F0000000000

/-- The die of a router (R354, R563). -/
def routerDie (r : Nat) : Nat := if r < 96 then r / 24 else if r < 108 then 8 else if r < 112 then 10 else 11

/-- The die of a master endpoint (R362, R563). -/
def masterDie (m : Nat) : Nat := if m < 48 then m / 12 else if m < 56 then (m - 48) / 2 else 8

/-- The die whose endpoint serves an address (R24, R356). -/
def targetDie (a : Nat) : Nat :=
  if isHbm a then (hbmPlace a).1
  else if 0x020000000000 ≤ a ∧ a < 0x030000000000 then (a - 0x020000000000) / 0x4000000000 % 4
  else if 0x030000000000 ≤ a ∧ a < 0x040000000000 then (a - 0x030000000000) / 0x1000000000 % 4
  else if 0x0F0100000000 ≤ a ∧ a < 0x0F010C000000 then (a - 0x0F0100000000) / 0x1000000
  else 8

/-- The router of a master (R356, R563). -/
def masterRouter (m : Nat) : Nat :=
  if m < 48 then 24 * (m / 12) + 6 * (1 + m % 12 / 6) + m % 12 % 6
  else if m < 56 then 24 * ((m - 48) / 2) + 18 + (if m % 2 = 0 then 1 else 4)
  else match m with
    | 56 => 99
    | 57 => 99
    | 58 => 96
    | 59 => 96
    | 60 => 97
    | 61 => 97
    | 62 => 101
    | _ => 100

/-- The router of the endpoint that serves an address (R356, R563). Which HBM port serves a pseudo-channel and which fabric target
port an address of a user window is not in the manual (log entry 99). -/
def State.targetRouter (s : State) (a : Nat) : Nat :=
  if isHbm a then 24 * (hbmPlace a).1 + 3 * (Config.hbmPort (hbmPlace a).2).val / 4
  else if a < 2 ^ 39 then [102, 103, 106, 107].getD ((s.ddrChannel a).getD 0) 102
  else if 0x020000000000 ≤ a ∧ a < 0x030000000000 then
    let p := (Config.userPort a).val
    24 * targetDie a + 6 * (1 + p / 6) + p % 6
  else if targetDie a < 4 then 24 * targetDie a + 20
  else if targetDie a = 10 then 108
  else if targetDie a = 11 then 112
  else 98

/-- The NoC-parity bucket of a die (R426). -/
def nocBucket (site : Nat) : Nat := if site < 4 then 16 * site + 8 else if site = 8 then 72 else if site = 10 then 80 else 82

/-! ## Headers (R357) -/

/-- Whether a requester counts as secure (R362, R521, R535): the MC, the device engines, a core's machine-mode I/O while
its sec_en is 1, the debug master while the secure-bus scope is unlocked. -/
def State.secure (s : State) (q : Src) : Bool :=
  match q.master.val with
  | 57 => q.machine && s.flag F.ccCoreCtrl_secEn [q.core]
  | 60 => true
  | 61 => s.flag F.dbgCfg_secScope []
  | 62 => true
  | 63 => true
  | _ => false

/-- The header of a request. -/
def Req.header (r : Req) (stamp : Nat) (sec : Bool) : Nat :=
  (if r.write then 1 else 0) * 2 ^ 93 + r.cls.val * 2 ^ 91 + r.src.master.val * 2 ^ 84 + r.tag.val * 2 ^ 74 +
  r.addr.toNat / 64 * 2 ^ 32 + r.addr.toNat % 64 * 2 ^ 26 + (r.len - 1) % 64 * 2 ^ 20 + stamp * 2 ^ 4 + 8 * b2n sec +
  4 * b2n r.src.peeks + r.page.val

/-- The request a header and its data spell. -/
def reqOf (h : Nat) (data : BitVec 512) : Req :=
  let m := bitsOf h 89 84
  let tag := bitsOf h 83 74
  let off := bitsOf h 31 26
  let len := bitsOf h 25 20 + 1
  let wr := bitsOf h 95 93 == 1
  { src := ⟨Fin.ofNat 64 m, Fin.ofNat 4 (tag / 256), h.testBit 3, h.testBit 2⟩, tag := Fin.ofNat 1024 tag,
    cls := Fin.ofNat 4 (bitsOf h 92 91), page := Fin.ofNat 4 (h % 4), write := wr,
    addr := BitVec.ofNat 48 (bitsOf h 73 32 * 64 + off), len := len,
    data := if wr then ((leBytes 64 data.toNat).drop off).take len else [], badPar := [], stamp := BitVec.ofNat 16 (bitsOf h 19 4) }

/-- The 12 odd parity bits of a header, one per byte. -/
def headerPar (h : Nat) : Nat := (List.range 12).foldl (fun t i => t + 2 ^ i * oddPar 8 (bitsOf h (8 * i + 7) (8 * i))) 0

/-- The virtual channel of a flit on a link (R358). -/
def flitVc (h : Nat) : Nat := 2 * bitsOf h 92 91 + bitsOf h 90 90

/-- The die and the router that a flit goes to: those of its address for a request, of its master for a response. -/
def flitDie (h : Nat) : Nat :=
  if bitsOf h 95 93 < 2 then targetDie (bitsOf h 73 32 * 64) else masterDie (bitsOf h 89 84)
def State.flitRouter (s : State) (h : Nat) : Nat :=
  if bitsOf h 95 93 < 2 then s.targetRouter (bitsOf h 73 32 * 64) else masterRouter (bitsOf h 89 84)

/-! ## The meshes (R354, R563) -/

/-- First router, columns and rows of a die. The arrangement of the routers of a lane die is not in the manual: one row (log entry
107). -/
def meshBase (site : Nat) : Nat := if site < 4 then 24 * site else if site = 8 then 96 else if site = 10 then 108 else 112
def meshCols (site : Nat) : Nat := if site = 10 ∨ site = 11 then 4 else 6
def meshRows (site : Nat) : Nat := if site < 4 then 4 else if site = 8 then 2 else 1
def routerX (r : Nat) : Nat := (r - meshBase (routerDie r)) % meshCols (routerDie r)
def routerY (r : Nat) : Nat := (r - meshBase (routerDie r)) / meshCols (routerDie r)
def routerAt (site x y : Nat) : Nat := meshBase site + meshCols site * y + x

/-- The routers of a die that face an edge (R30, R355, R563). -/
def edgeRouters (site k : Nat) : List Nat :=
  let first := (edgeDies k).1 == site
  let column (x : Nat) : List Nat := (List.range (meshRows site)).map (routerAt site x)
  let row (y : Nat) : List Nat := (List.range (meshCols site)).map (fun x => routerAt site x y)
  if site = 8 then (if k = 8 then [96, 97, 98] else [99, 100, 101])
  else if 10 ≤ site then row 0
  else if k < 2 then column (if first then 5 else 0)
  else if k < 4 then row (if first then 3 else 0)
  else if k < 6 then column 0
  else if k < 8 then column 5
  else row 3

/-- The router of a list that is nearest to router r: the first with the fewest steps to it. -/
def nearestRouter (r : Nat) (l : List Nat) : Nat :=
  let dist (q : Nat) : Nat :=
    (routerX q - routerX r) + (routerX r - routerX q) + (routerY q - routerY r) + (routerY r - routerY q)
  l.foldl (fun best q => if dist q < dist best then q else best) (l.headD r)

/-- The edge between two dies. -/
def edgeBetween (a b : Nat) : Option Nat := (List.range 10).find? (fun k => edgeDies k == (a, b) || edgeDies k == (b, a))

/-- One step from router r toward router q of the same die: first along x, then along y (R356); the local port 4 at q itself. -/
def meshStep (r q : Nat) : Nat :=
  if routerX r < routerX q then 1 else if routerX q < routerX r then 3
  else if routerY r < routerY q then 2 else if routerY q < routerY r then 0 else 4

/-- The output port of router r for a flit (R355, R356): toward its endpoint, or toward the nearest router that faces the next die
and there to an edge port, 6 (log entry 107); none where no route leads on. -/
def State.outPort (s : State) (r h : Nat) : Option Nat :=
  let site := routerDie r
  match dieRoute s.liveEdges site (flitDie h) with
  | none => none
  | some [] => some (meshStep r (s.flitRouter h))
  | some (d :: _) =>
    match edgeBetween site d with
    | some k =>
      let q := nearestRouter r (edgeRouters site k)
      some (if q = r then 6 else meshStep r q)
    | none => none

/-- The router next to a router in a direction. -/
def meshNext (r port : Nat) : Nat :=
  match port with
  | 0 => r - meshCols (routerDie r)
  | 1 => r + 1
  | 2 => r + meshCols (routerDie r)
  | _ => r - 1

/-! ## Probes (R373) -/

/-- Whether a header passes a probe's filter. -/
def State.probeMatches (s : State) (r h : Nat) : Bool :=
  let op := bitsOf h 95 93
  (!s.flag F.nocPrbFilt_srcEn [r] || bitsOf h 89 84 == s.get F.nocPrbFilt_src [r]) &&
  (!s.flag F.nocPrbFilt_addrEn [r] || (decide (op < 2) && bitsOf h 73 50 == s.get F.nocPrbAddr_gran [r])) &&
  (s.get F.nocPrbFilt_cls [r]).testBit (bitsOf h 92 91) && decide (op < 4) && (s.get F.nocPrbFilt_ops [r]).testBit op

/-- The injection time that a stamp stands for (R70), in 64 bits. -/
def extendStamp (now stamp : Nat) : Nat :=
  let t := now / 2 ^ 20 * 2 ^ 20 + stamp * 16
  if now < t then (t + 2 ^ 64 - 2 ^ 20) % 2 ^ 64 else t

/-- A trace entry of 32 bytes. -/
def traceEntry (now h port : Nat) (parBad waited : Bool) : List Byte :=
  leBytes 8 now ++ leBytes 8 (extendStamp now (bitsOf h 19 4)) ++ leBytes 12 h ++ leBytes 1 port ++
  leBytes 1 (b2n parBad + 2 * b2n waited) ++ [0#8, 0#8]

/-- The trace buffer of a router. -/
def State.trace (s : State) (r : Nat) : List (List Byte) := SMap.get [] s.noc.traces r
def State.setTrace (s : State) (r : Nat) (t : List (List Byte)) : State :=
  let s := { s with noc := { s.noc with traces := SMap.set [] s.noc.traces r t } }
  (s.put F.nocPrbTstat_level [r] t.length).put F.nocPrbTstat_full [r] (b2n (decide (256 ≤ t.length)))

/-- A counter counts an event `n` times, saturating. -/
def State.countBy (s : State) (f : Fld) (idx : List Nat) (n : Nat) : State :=
  s.put f idx (min (2 ^ f.width - 1) (s.get f idx + n))

/-- The probe of a router sees a flit on output `port`, which waited `waited` cycles for credit. -/
def State.probe (s : State) (r port h : Nat) (parBad : Bool) (waited : Nat) : State :=
  if !s.flag F.nocPrbCtrl_en [r] || s.get F.nocPrbCtrl_port [r] != port then s
  else
    let m := s.probeMatches r h
    let op := bitsOf h 95 93
    let s := (List.range 4).foldl (fun s k =>
      match bitsOf (s.get F.nocPrbCtrl_sel [r]) (2 * k + 1) (2 * k) with
      | 0 => if m then s.countBy F.nocPrbCnt_count [r, k] 1 else s
      | 1 => if m then s.countBy F.nocPrbCnt_count [r, k] waited else s
      | 2 => if m && (op == 2 || op == 3) && bitsOf h 73 71 != 0 then s.countBy F.nocPrbCnt_count [r, k] 1 else s
      | _ => s.countBy F.nocPrbCnt_count [r, k] 1) s
    if m && s.flag F.nocPrbCtrl_trace [r] then
      let t := s.trace r
      let e := traceEntry (s.now (routerDie r)) h port parBad (waited != 0)
      if t.length < 256 then s.setTrace r (t ++ [e])
      else if s.flag F.nocPrbCtrl_wrap [r] then s.setTrace r (t.drop 1 ++ [e])
      else s
    else s

/-- A router discards a flit and writes a log entry (R357, R367). -/
def State.discardFlit (s : State) (r port : Nat) : State := s.logEv (routerDie r) 5 r 0x0502 3 (leBytes 1 r ++ leBytes 1 port)

/-- A flit whose header parity fails at a router: counted in the bucket of its die and discarded (R367). -/
def State.badHeader (s : State) (r port h : Nat) : State :=
  ((s.probe r port h true 0).bucket (nocBucket (routerDie r))).discardFlit r port

end Sys2Proof.Machine
end

