-- ==== Sys2Proof/Machine/Memory.lean ====
section
/-!
DEFINITION. Sys2Proof/Machine/Memory.lean: an access to DDR5 or HBM as a master sees it: judged in the order of the
response codes, then served by the controller or, in an encrypted region, by an encryption engine (R365, R379, R410).
-/

namespace Sys2Proof.Machine

/-! ## Tags of masters (R362) -/

/-- A tag's state. -/
def State.tag (s : State) (m t : Nat) : Option TagSt := SMap.find? s.noc.tags (1024 * m + t)
def State.setTag (s : State) (m t : Nat) (x : TagSt) : State :=
  { s with noc := { s.noc with tags := SMap.insert s.noc.tags (1024 * m + t) x } }
def State.freeTag (s : State) (m t : Nat) : State := { s with noc := { s.noc with tags := SMap.erase s.noc.tags (1024 * m + t) } }

/-- The tags of the requests that the stream DMA engines and the riser engine have in flight as master m (R186, R196). -/
def State.engineTags (s : State) (m : Nat) : List Nat :=
  s.dma.flatMap (fun e => if dmaMaster (e.1 / 64) (e.1 % 64) = m then e.2.flight.map (·.tag) else []) ++
    (if m = 63 then s.risers.flatMap (fun e => e.2.flight.map (·.tag)) else [])

/-- The tags of a master that are in use, and how many it may use (R362). -/
def State.tagsUsed (s : State) (m : Nat) : Nat :=
  (s.noc.tags.filter (fun e => e.1 / 1024 == m && !e.2.out)).length + (s.engineTags m).length
def State.tagLimit (s : State) (m : Nat) : Nat := let l := s.get F.nocMcfg_tagLim [m]; if l = 0 then 1024 else l

/-- The lowest free tag of an engine that may issue a further request. -/
def State.nextTag (s : State) (m : Nat) : Option Nat :=
  if s.tagLimit m ≤ s.tagsUsed m then none
  else (List.range 1024).find? (fun t => (s.tag m t).isNone && !(s.engineTags m).contains t)

/-- Parity injection at a request that its master issues (R429): whether its header parity is inverted, and the request, with one
byte's parity inverted where ECC_PINJ says. -/
def State.pinj (s : State) (r : Req) : Bool × Req × State :=
  let mine := s.flag F.eccPinj_arm [] && s.get F.eccPinj_index [] == r.src.master.val
  let hdr := mine && s.get F.eccPinj_kind [] == 1
  let dat := mine && s.get F.eccPinj_kind [] == 2 && r.write
  (hdr, if dat then { r with badPar := s.get F.eccPinj_b [] :: r.badPar } else r, if hdr || dat then s.put F.eccPinj_arm [] 0 else s)

/-- A request of the block's own masters whose header parity fails: its first router discards it, and its master times out (R363,
R367). -/
def State.headerLost (s : State) (r : Req) : State :=
  let m := r.src.master.val
  let h := Req.header r r.stamp.toNat (s.secure r.src)
  (s.badHeader (masterRouter m) ((s.outPort (masterRouter m) h).getD 4) h).countUp F.nocMstat_tmos [m]

/-! ## An access at a memory target -/

/-- An access the controllers serve themselves. -/
def State.plainAccess (s : State) (r : Req) : State :=
  let a := r.addr.toNat
  let q := r.src.requester
  if r.write then
    match s.ctlWrite a r.data (!r.badPar.isEmpty) q r.page with
    | some (c, s) => s.respond r c
    | none => s
  else
    match s.ctlRead a r.len q r.page with
    | some (c, d, bp, s) => s.respond r c d bp
    | none => s

/-- Whether the clocks of the memory that holds an address run: its controller's and, for an encrypted region, the engines'
(R61, R62). -/
def State.memRuns (s : State) (a : Nat) : Bool :=
  s.runs (if isHbm a then 7 + (hbmPlace a).1 else 6) &&
    (match s.region a with
    | some g => !s.encrypted g || s.runs 9
    | none => true)

/-- Whether a request's unit serves nothing now: it is not trained, refreshes after an outage, is retrained, or repairs a row of the
bank (R58, R388, R393, R395, R397). In an encrypted region the engine waits, unless it holds the sector. -/
def State.memWaits (s : State) (r : Req) : Bool :=
  let a := r.addr.toNat
  match s.metaRegion a, s.region a with
  | none, some g =>
    if s.encrypted g then
      let i := (a - s.rgnBase g) / 512
      let e := engineOf a
      (s.encGate g).isNone && (s.belowLost e g i).isNone && (s.healOf e g i).isNone
        && ((s.lineOf e g i).isNone || (r.write && !r.badPar.isEmpty)) && s.sectorWaits g i
    else s.dramGate a == .wait
  | _, _ => s.dramGate a == .wait

/-- A request waits, in its unit's queue or in the network (R388). -/
def State.hold (s : State) (r : Req) : State := { s with dram := { s.dram with held := s.dram.held ++ [⟨r, s.tb.count, false⟩] } }

/-- The requests that wait at a unit, oldest first; those at no unit wait for none. -/
def State.heldAt (s : State) (u : Option MemUnit) : List HeldReq :=
  s.dram.held.filter (fun h => s.memUnit h.req.addr.toNat == u)

/-- Entries of a unit's queue (R388). -/
def queueSize : Option MemUnit → Nat
  | some u => if u.hbm then 128 else 256
  | none => 0

/-- The requests in a unit's queue: the oldest that wait at it, once it is trained; the others wait in the network (R388, R393). -/
def State.inQueueAt (s : State) (u : Option MemUnit) : List HeldReq :=
  if u.all (fun u => s.unitTrained u || s.unitFailed u) then
    (s.heldAt u).take (if u.isNone then s.dram.held.length else queueSize u)
  else []

/-- Whether a new request waits behind others of its unit (R388). -/
def State.behind (s : State) (r : Req) : Bool := !(s.heldAt (s.memUnit r.addr.toNat)).isEmpty

/-- A memory access (R365, R367, R410). A request that must wait is held and gets no answer yet (log entry 21); `turn`: it has
waited and its turn has come (R389). -/
def State.memAccess (s : State) (r : Req) (turn : Bool := false) : State :=
  let a := r.addr.toNat
  let q := r.src.requester
  if !inBlock a r.len || (r.write && r.data.length != r.len) || !s.dramHas a then s.respond r .aerr
  else
    match s.metaRegion a with
    | some _ =>
      if r.write || !(q == 10 || q == 11) then s.respond r .serr
      else if !s.memRuns a then s.respond r .terr
      else if s.memWaits r || (!turn && s.behind r) then s.hold r
      else
        match s.ctlRead a r.len q r.page with
        | some (c, d, bp, s) => s.respond r c d bp
        | none => s
    | none =>
      if !s.memRuns a then s.respond r .terr
      else if s.memWaits r || (!turn && s.behind r) then s.hold r
      else
      match s.region a with
      | some g =>
        if s.encrypted g then
          if r.write then s.encWrite g r
          else
            let (c, d, s) := s.encRead g a r.len q
            s.respond r c d
        else s.plainAccess r
      | none => s.plainAccess r

/-- The answer among the outputs a request has caused. -/
def answerIn (r : Req) : List Output → Option (Resp × List Byte)
  | [] => none
  | .flit q c d _ :: t => if q = r then some (c, d) else answerIn r t
  | _ :: t => answerIn r t

/-- Whether an output is the answer to a request. -/
def answers (r : Req) : Output → Bool
  | .flit q _ _ _ => q == r
  | _ => false

/-- A device engine repeats its own request, so the network holds nothing for it. -/
def State.unhold (s was : State) : State := { s with dram := { s.dram with held := was.dram.held } }

/-- The answer a router gives where no route is left: TERR, with a log entry (R47, R356). -/
def State.noRoute (s : State) (router m a : Nat) : State :=
  s.logEv (routerDie router) 5 router 0x0501 4 (leBytes 1 router ++ leBytes 1 m ++ leBytes 6 a)

/-- A request of a device engine over the NoC: its answer goes to the engine and not to the outbox. A request with no answer yet,
or that waits at its endpoint, reads as RETRY, which the engine repeats (R356, R366, R372). -/
def State.engineAccess (s : State) (r : Req) : Resp × List Byte × State :=
  let m := r.src.master.val
  if !s.runs 5 || s.noc.drain then (.retry, [], s)
  else
  let (lost, r, s) := s.pinj r
  if lost then (.terr, [], s.headerLost r)
  else if !s.routed (masterDie m) (targetDie r.addr.toNat) then (.terr, [], s.noRoute (masterRouter m) m r.addr.toNat)
  else
  let s' := s.memAccess r
  let new := s'.outbox.drop s.outbox.length
  match answerIn r new with
  | some (c, d) =>
    (c, d, { s' with outbox := s.outbox ++ new.filter (fun o => !answers r o) })
  | none => (.retry, [], s'.unhold s)

/-- A request of engine master `m` in the bulk class. -/
def engineReq (m : Fin 64) (write : Bool) (a n : Nat) (data : List Byte) (bad : List Nat) : Req :=
  { src := ⟨m, 0, false, false⟩, tag := 0, cls := 1, page := 0, write := write, addr := BitVec.ofNat 48 a, len := n,
    data := data, badPar := bad, stamp := 0#16 }

/-- The bytes of a list of beats, and the positions of those whose parity fails. -/
def beatBytes (bs : List Beat) : List Byte := (bs.map (fun b => leBytes 16 b.data.toNat)).flatten
def beatBad (bs : List Beat) : List Nat :=
  (List.range (16 * bs.length)).filter (fun i =>
    match bs[i / 16]? with
    | some b => !byteOk (b.lane (i % 16))
    | none => false)

/-- Beats made of bytes, with fresh parity. -/
def bytesBeats (d : List Byte) (n : Nat) : List Beat :=
  (List.range n).map (fun k =>
    let v : BitVec 128 := BitVec.ofNat 128 (leNat ((d.drop (16 * k)).take 16))
    ⟨v, parOf16 v, false, false⟩)

/-- Issue or repeat an engine request, with its tag and class (R186, R196). -/
def State.engineIssue (s : State) (m : Fin 64) (e : EngReq) : EngReq × State :=
  let r := engineReq m e.write e.addr (16 * e.count) (if e.write then beatBytes e.beats else []) (if e.write then beatBad e.beats else [])
  let (c, d, s) := s.engineAccess { r with tag := Fin.ofNat 1024 e.tag, cls := e.cls }
  ({ e with resp := c, beats := if e.write then e.beats else bytesBeats d e.count }, s)

/-! ## The control-core L2 (R519 to R524) -/

/-- Replace or drop an L2 line, by block number. -/
def State.setL2 (s : State) (b : Nat) (x : L2Line) : State := { s with l2 := SMap.insert s.l2 b x }
def State.dropL2 (s : State) (b : Nat) : State := { s with l2 := SMap.erase s.l2 b }

/-- The L2 writes a dirty line back by master 56 in the coherent class (R521); one that is answered RETRY stays dirty. -/
def State.cleanL2 (s : State) (b : Nat) : State :=
  match SMap.find? s.l2 b with
  | some x =>
    if x.dirty then
      let (c, _, s1) := s.engineAccess { engineReq 56 true (64 * b) 64 (leBytes 64 x.data.toNat) [] with cls := 3 }
      if c = .retry then s1 else s1.setL2 b { x with dirty := false }
    else s
  | none => s

/-- A control core outside its registers. -/
def State.coreOf (s : State) (i : Nat) : CoreSt := SMap.get default s.cores i
def State.setCore (s : State) (i : Nat) (x : CoreSt) : State := { s with cores := SMap.set default s.cores i x }

/-- The reservations on a block are cleared, but for that of core `keep` (R524). -/
def State.clearResv (s : State) (b : Nat) (keep : Option Nat) : State :=
  (List.range 4).foldl (fun s i =>
    if (s.coreOf i).resv = some b ∧ keep ≠ some i then s.setCore i { s.coreOf i with resv := none } else s) s

/-- Whether a request that has been judged had an effect: it got none of AERR, SERR, TERR, RETRY, and does not wait. -/
def State.effective (s : State) (r : Req) (turn : Bool) (new : List Output) : Bool :=
  match answerIn r new with
  | some (.aerr, _) => false
  | some (.serr, _) => false
  | some (.terr, _) => false
  | some (.retry, _) => false
  | some _ => true
  | none => !(s.memWaits r || (!turn && s.behind r))

/-- A request at a memory target. In the coherent class the L2 watches the traffic of every other master: a write
invalidates the block before it is answered (dirty bytes are written back first, log entry 44), a read of a block held
dirty returns the L2 data; the other classes reach the memory without that check (R358, R523). -/
def State.memRequest (s : State) (r : Req) (turn : Bool := false) : State :=
  let a := r.addr.toNat
  let b := a / 64
  if r.cls ≠ 3 ∨ !inBlock a r.len ∨ !s.dramHas a then s.memAccess r turn
  else if r.write then
    let s1 := if r.src.master = 56 then s else s.cleanL2 b
    let s2 := s1.memAccess r turn
    if s1.effective r turn (s2.outbox.drop s1.outbox.length) then
      (if r.src.master = 56 then s2 else s2.dropL2 b).clearResv b none
    else s2
  else
    match SMap.find? s.l2 b with
    | some x =>
      if x.dirty && r.src.master != 56 && (s.metaRegion a).isNone then
        s.respond r .ok (((leBytes 64 x.data.toNat).drop (a % 64)).take r.len)
      else s.memAccess r turn
    | none => s.memAccess r turn

/-! ## Command slots (R388, R389) -/

/-- Whether a request is under PANIC: a real-time request of a master that raises it (R370). -/
def State.underPanic (s : State) (h : HeldReq) : Bool := h.req.cls == 0 && s.masterPanic h.req.src.master

/-- The age limit of a unit in ns; 0 disables it. -/
def State.ageMax (s : State) (u : MemUnit) : Nat := 64 * (if u.hbm then s.get F.hbmCfg_ageMax [] else s.get F.ddrChCfg_ageMax [u.unit])

/-- Whether a request hits an open row (R389, R390). -/
def State.rowHit (s : State) (h : HeldReq) : Bool :=
  s.dram.openRows.any (fun o => s.bankRow h.req.addr.toNat == (o.bank, o.row))

/-- The request that a unit picks at a command slot (R389), the queue oldest first: under PANIC, while of any 64 commands at least
16 serve requests not under PANIC that wait (R370); older than age_max; hitting an open row; the oldest. -/
def State.pickReq (s : State) (u : MemUnit) (q : List HeldReq) : Option HeldReq :=
  let calm := q.filter (fun h => !s.underPanic h)
  let past := (SMap.get [] s.dram.served u.failKey).filter id
  let lim := s.ageMax u
  if calm.length < q.length ∧ (calm.isEmpty ∨ past.length < 48) then q.find? s.underPanic
  else
    match calm.find? (fun h => lim != 0 && decide (h.since + lim < s.tb.count)) with
    | some h => some h
    | none =>
      match calm.find? s.rowHit with
      | some h => some h
      | none => calm.head?

/-- A command slot of a unit: the request picked is served; the requests of one block are served in the order in which they came
(R360, R388). -/
def State.commandSlot (s : State) (u : Option MemUnit) : State :=
  let q := (s.inQueueAt u).filter (fun h => !s.memWaits h.req)
  let pick := match u with
    | some u => s.pickReq u q
    | none => q.head?
  match pick.bind (fun p => q.find? (fun h => h.req.addr.toNat / 64 == p.req.addr.toNat / 64)) with
  | none => s
  | some h =>
    let served := match u with
      | some u => SMap.insert s.dram.served u.failKey ((s.underPanic h :: SMap.get [] s.dram.served u.failKey).take 63)
      | none => s.dram.served
    let t := ({ s with dram := { s.dram with held := s.dram.held.erase h, served := served } } : State).memRequest h.req true
    if h.answered then { t with outbox := s.outbox ++ (t.outbox.drop s.outbox.length).filter (fun o => !answers h.req o) } else t

/-- Whether a write completes with OK as it enters its unit's queue (R388): one of a whole block outside the encrypted regions, whose
code does not depend on what is stored (R384; log entry 21). -/
def State.earlyOk (s : State) (r : Req) : Bool :=
  let a := r.addr.toNat
  r.write && r.len == 64 && r.badPar.isEmpty && (s.metaRegion a).isNone && !(s.region a).any s.encrypted

/-- The writes that have come into the queues of their units are answered (R388). -/
def State.queueWrites (s : State) : State :=
  s.dram.held.foldl (fun t h =>
    if !h.answered && s.earlyOk h.req && (s.memUnit h.req.addr.toNat).isSome && (s.inQueueAt (s.memUnit h.req.addr.toNat)).contains h then
      ({ t with dram := { t.dram with held := t.dram.held.map (fun x => if x == h then { x with answered := true } else x) } } : State).respond
        h.req .ok
    else t) s

/-- Every unit at which requests wait has a command slot (R389); one for each cycle (log entry 21). -/
def State.commandSlots (s : State) : State :=
  let s := s.queueWrites
  (s.dram.held.map (fun h => s.memUnit h.req.addr.toNat)).eraseDups.foldl State.commandSlot s

/-- The timeout of a request that a unit's queue holds: TERR and no effect (R364). -/
def State.queueTimeout (s : State) (r : Req) : Option State :=
  match (s.inQueueAt (s.memUnit r.addr.toNat)).find? (fun h => h.req == r && !h.answered) with
  | some h => some (({ s with dram := { s.dram with held := s.dram.held.erase h } } : State).respond r .terr)
  | none => none

/-- DRAM_READ: a read request at a memory target. -/
def execDramRead (r : Req) (s : State) : Out := .next (s.memRequest { r with write := false })

/-- DRAM_WRITE: a write request at a memory target. -/
def execDramWrite (r : Req) (s : State) : Out := .next (s.memRequest { r with write := true })

/-- ENCRYPTED_READ: a read request at an encrypted region; elsewhere the controllers serve it. -/
def execEncryptedRead (r : Req) (s : State) : Out := .next (s.memRequest { r with write := false })

/-- ENCRYPTED_WRITE: a write request at an encrypted region; elsewhere the controllers serve it. -/
def execEncryptedWrite (r : Req) (s : State) : Out := .next (s.memRequest { r with write := true })

end Sys2Proof.Machine
end

