-- ==== Sys2Proof/Machine/Routers.lean ====
section
/-!
DEFINITION. Sys2Proof/Machine/Routers.lean: the flits that reach the routers of the network on chip and wait in them (R355 to R357, R367).
-/

namespace Sys2Proof.Machine

/-! ## Flits at a router -/

/-- The flits that wait at an output. -/
def State.waitingAt (s : State) (r port : Nat) : List WaitFlit := SMap.get [] s.noc.waiting (8 * r + port)
def State.setWaiting (s : State) (r port : Nat) (l : List WaitFlit) : State :=
  { s with noc := { s.noc with waiting := SMap.set [] s.noc.waiting (8 * r + port) l } }

/-- The receive buffer that a flit has held is free, and its link direction owes a credit (R279). -/
def State.freeBuffer (s : State) (link : Option Nat) (h : Nat) : State :=
  match link with
  | some l =>
    let x := SMap.get default s.links l
    let v := flitVc h
    { s with links := SMap.set default s.links l { x with owed := SMap.set 0 x.owed v (SMap.get 0 x.owed v + 1) } }
  | none => s

/-- A flit reaches router r (R355 to R357, R367): one with bad header parity or an unused opcode is discarded; one that no route
leads on is answered with TERR if it is a request; any other waits at the output of its route. `link` is the link direction that
has brought it. -/
def State.arriveFlit (s : State) (r : Nat) (x : RouterFlit) (link : Option Nat) : State :=
  let h := x.hdr.toNat
  let out := s.outPort r h
  let port := out.getD 4
  if headerPar h ≠ x.par.toNat then (s.badHeader r port h).freeBuffer link h
  else if 4 ≤ bitsOf h 95 93 then (s.discardFlit r port).freeBuffer link h
  else
    match out with
    | none =>
      let s := (s.noRoute r (bitsOf h 89 84) (bitsOf h 73 32 * 64)).freeBuffer link h
      if bitsOf h 95 93 < 2 then s.respond (reqOf h x.data) .terr else s
    | some port => s.setWaiting r port (s.waitingAt r port ++ [⟨x, 0, link⟩])

end Sys2Proof.Machine
end

