-- ==== Sys2Proof/Machine/Crossings.lean ====
section
/-!
DEFINITION. Sys2Proof/Machine/Crossings.lean: registered bridge crossings, shift sparing, packet groups and links (R264 to R282).
-/

namespace Sys2Proof.Machine

/-! ## Signals and wires of a group -/

/-- Whether byte lane b is registered. -/
def XGroup.registered (x : XGroup) (b : Nat) : Bool :=
  match x.lanes[b]? with
  | some l => l.kind == 0
  | none => false

/-- The byte lane of a logical signal. -/
def laneOf (sig : Nat) : Nat := if sig < 128 then sig / 8 else sig - 128

/-- The physical wires that work, counted upward (R270): neither failed nor a spare found bad. -/
def State.workWires (s : State) (g dir : Nat) : List Nat :=
  let x := s.xgroup g dir
  let bad := s.get F.glbXgstat_spareBad [g, dir]
  (List.range 152).filter (fun w => !x.failedW.contains w && !x.repair.contains w && !(144 ≤ w && bad.testBit (w - 144)))

/-- The wire of a logical signal, and the signal on a wire (none: 144). -/
def State.wireOf (s : State) (g dir sig : Nat) : Nat := (s.workWires g dir).getD sig 152
def State.signalOn (s : State) (g dir wire : Nat) : Nat := min 144 ((s.workWires g dir).findIdx (· == wire))

/-- Free spares: working wires beyond the 144 that carry signals. -/
def State.freeSpares (s : State) (g dir : Nat) : List Nat := (s.workWires g dir).drop 144

/-- The signals the probe visits: those of registered lanes, or every signal of a packet group (R271). -/
def State.visited (s : State) (g dir : Nat) : List Nat :=
  let x := s.xgroup g dir
  (List.range 144).filter (fun i => s.role g == 2 || (s.role g == 1 && x.registered (laneOf i)))

/-- The wire of the probe: the highest free spare, on groups with signals to visit (R271). -/
def State.probeWire (s : State) (g dir : Nat) : Option Nat :=
  if (s.visited g dir).isEmpty then none else (s.freeSpares g dir).getLast?
def State.hasProbe (s : State) (g dir : Nat) : Bool := (s.probeWire g dir).isSome

/-- Bring used and probe up to date. -/
def State.syncSpares (s : State) (g dir : Nat) : State :=
  let used := ((s.workWires g dir).take 144).filter (144 ≤ ·)
  let s := s.put F.glbXgstat_used [g, dir] used.length
  if s.hasProbe g dir then s else s.put F.glbXgstat_probe [g, dir] 0xFF

/-- A spare is marked bad for good. -/
def State.markSpare (s : State) (g dir i : Nat) : State :=
  s.put F.glbXgstat_spareBad [g, dir] (Nat.lor (s.get F.glbXgstat_spareBad [g, dir]) (2 ^ i))

/-- Whether GLB_XCTRL.freeze withholds new holds and shifts (R274). -/
def State.xFrozen (s : State) : Bool := s.flag F.glbXctrl_freeze []

/-- A wire is judged failed: the receiving end asks for a hold, unless frozen (R272 to R274). -/
def State.judgeFailed (s : State) (g dir wire : Nat) : State :=
  let x := s.xgroup g dir
  if s.xFrozen || x.holds.any (fun h => h.wire == wire) then s
  else s.setXg g dir { x with holds := x.holds ++ [⟨wire, false, 0, 0, 0⟩] }

/-- Odd parity of a byte lane of received signals (R31, R278). -/
def laneParOk (rx : BitVec 144) (b : Nat) : Bool :=
  (ones 8 (bitsOf rx.toNat (8 * b + 7) (8 * b)) + b2n (rx.getLsbD (128 + b))) % 2 == 1

/-- The signal GLB_XINJ inverts on this group in this cycle; it acts on registered lanes and packet groups only. -/
def State.injected (s : State) (g dir : Nat) : Option Nat :=
  let sig := s.get F.glbXinj_signal []
  if s.flag F.glbXinj_arm [] && s.get F.glbXinj_group [] == g && s.get F.glbXinj_dir [] == dir && sig < 144 &&
      (s.role g == 2 || (s.role g == 1 && (s.xgroup g dir).registered (laneOf sig))) then some sig else none

/-- Force a lane to its safe values until the next full load (R275): lost_lanes, xlost, log, interrupt. -/
def State.forceLane (s : State) (g dir b : Nat) : State :=
  if (s.get F.glbXgcnt_lostLanes [g, dir]).testBit b then s
  else
    let s := s.put F.glbXgcnt_lostLanes [g, dir] (Nat.lor (s.get F.glbXgcnt_lostLanes [g, dir]) (2 ^ b))
    let s := s.setXg g dir { s.xgroup g dir with xlost := true }
    let s := ({ s with load := { s.load with lost := (g, dir, b) :: s.load.lost } } : State)
    let k := edgeOf g
    let s := (s.raise F.glbXstat_lostAny []).put F.glbXstat_edgeLost [] (Nat.lor (s.get F.glbXstat_edgeLost []) (2 ^ k))
    (s.logEv (receiver k dir) 3 0 0x0105 4 (leBytes 2 g ++ leBytes 1 dir ++ leBytes 1 b)).interrupt .crossing

/-- What receiving logic sees of the received signals: forced lanes show their safe values (R275). -/
def State.delivered (s : State) (g dir : Nat) (rx : BitVec 144) : BitVec 144 :=
  let x := s.xgroup g dir
  let lost := s.get F.glbXgcnt_lostLanes [g, dir]
  bus 144 (fun i =>
    let b := laneOf i
    if i < 128 && lost.testBit b then
      match (x.lanes.getD b default).safe.getD (i % 8) 0 with
      | 0 => false
      | 1 => true
      | _ => x.rx.getLsbD i
    else rx.getLsbD i)

/-! ## The rotation of the probe (R271) -/

/-- Whether a 32-bit edge count has reached another. -/
def reached (count k : Nat) : Bool := decide ((count + 2 ^ 32 - k) % 2 ^ 32 < 2 ^ 31)

/-- The probe takes the signal of the present 64-cycle turn, which the edge count sets; a probe under test, or kept on a failed
signal, stays. Lanes with an unexplained failure count the turns. -/
def State.rotateProbe (s : State) (g dir : Nat) : State :=
  let x := s.xgroup g dir
  let vs := s.visited g dir
  let turn := x.count / 64
  let fresh := s.get F.glbXgstat_probe [g, dir] == 0xFF
  if !s.hasProbe g dir || x.test.isSome || x.sub.isSome || (turn == x.turn && !fresh) then s
  else
    let s1 := s.setXg g dir { x with turn := turn, open_ := if fresh then x.open_ else x.open_.map (fun e => (e.1, e.2 + 1)) }
    s1.put F.glbXgstat_probe [g, dir] (vs.getD (turn % vs.length) 0)

/-- Whether a lane's failure has stayed unexplained for two rotations (R272). -/
def State.unexplained (s : State) (g dir steps : Nat) : Bool := decide (2 * (s.visited g dir).length ≤ steps)

/-- One parity failure of a lane: counted; 16 within 9,216 cycles force a registered lane that no probe explains (R272, R275). -/
def State.laneFailed (s : State) (g dir b : Nat) (explained : Bool) : State :=
  let k := edgeOf g
  let s := (s.countUp F.glbXgcnt_parErrs [g, dir]).bucket (crossBucket (receiver k dir))
  let x := s.xgroup g dir
  let fails := x.fails ++ [(b, x.count)]
  let open_ := if explained then x.open_.filter (fun e => e.1 != b)
    else if x.open_.any (fun e => e.1 == b) then x.open_ else x.open_ ++ [(b, 0)]
  let s := s.setXg g dir { x with fails := fails, open_ := open_ }
  let stuck := !s.hasProbe g dir || open_.any (fun e => e.1 == b && s.unexplained g dir e.2)
  if s.role g = 1 ∧ 16 ≤ (fails.filter (fun e => e.1 == b)).length ∧ stuck then s.forceLane g dir b else s

/-! ## A cycle of a group -/

/-- Whether the clock of a group runs: that of a bridge group is a global network of both dies, which stands with the fabric domain
(R228, R264, R274). -/
def State.groupRuns (s : State) (g dir : Nat) : Bool :=
  let k := edgeOf g
  let net := ((s.xgroup g dir).lanes.headD default).net
  if s.role g = 1 then
    [sender k dir, receiver k dir].all (fun d => s.runs (12 + d) && s.netRuns d net)
  else s.clocked

/-- The oldest hold whose shift is due: the sparing tick has come and the edge count has reached K (R273). -/
def State.shiftDue (s : State) (g dir : Nat) : Option XHold :=
  let x := s.xgroup g dir
  match x.holds with
  | h :: _ => if h.asked && s.role g == 1 && reached x.count h.k && h.tau ≤ s.now (sender (edgeOf g) dir) then some h else none
  | [] => none

/-- The 144 logical signals that the sending end launches: the payload of the transmit registers with odd parity by byte. -/
def sentSignals (tx : BitVec 128) : BitVec 144 :=
  (BitVec.ofNat 16 ((List.range 16).foldl (fun t b => t + 2 ^ b * oddPar 8 (bitsOf tx.toNat (8 * b + 7) (8 * b))) 0)) ++ tx

/-- The levels that arrive (R264, R270, R273): `err` names the wires whose level is wrong. While a shift is late the sending end has
moved already; a substituted signal comes from the probe. -/
def State.arriving (s : State) (g dir : Nat) (err : BitVec 152) : BitVec 144 :=
  let x := s.xgroup g dir
  let sent := sentSignals x.tx
  let mine := s.workWires g dir
  let theirs := match s.shiftDue g dir with
    | some h => mine.filter (· != h.wire)
    | none => mine
  let on (w : Nat) : Bool :=
    let j := theirs.findIdx (· == w)
    (decide (j < 144) && sent.getLsbD j) != err.getLsbD w
  bus 144 (fun i =>
    let w := mine.getD i 152
    if x.sub == some w then sent.getLsbD i != err.getLsbD ((s.probeWire g dir).getD 152) else on w)

/-- What the transmit registers take at an edge: the transmit inputs of the crossings at the group's payload positions (R261,
R264). -/
def State.txNext (s : State) (n g dir : Nat) : BitVec 128 :=
  let ev := s.signals n
  bus 128 (fun i =>
    match s.crossOf g dir i with
    | some (h, j) => ev (.tx h dir j)
    | none => false)

/-- The spares that show an error under PRBS7 in this cycle: the free spares other than the probe, and every spare of a group with
role none (R271, R277). -/
def State.shownBad (s : State) (g dir : Nat) (err : BitVec 152) : List Nat :=
  let free := if s.role g = 0 then (List.range 8).map (144 + ·) else (s.freeSpares g dir).filter (fun w => s.probeWire g dir != some w)
  (free.filter (fun w => err.getLsbD w)).map (· - 144)

/-- CROSSING_RECEIVE: one group-clock cycle (UI of a packet group) of a group and direction (R264, R266, R271, R272, R275). `err`
names the physical wires whose level the receiving end sees wrong in this cycle. -/
def execCrossingReceive (g : Fin 480) (dir : Fin 2) (err : BitVec 152) (rel : EdgeRel) (s : State) : Out :=
  if !s.groupRuns g dir then .next s
  else
    let (n, s) := (s.enterEdge rel).draw
    let next := s.seen.txNext n g dir
    let s := s.rotateProbe g dir
    let x := s.xgroup g dir
    let inj := s.injected g dir
    let late := (s.shiftDue g dir).isSome
    let err := match inj with
      | some i => err ^^^ BitVec.ofNat 152 (2 ^ s.wireOf g dir i)
      | none => err
    let s := if inj.isSome && !s.flag F.glbXinj_mode [] then s.put F.glbXinj_arm [] 0 else s
    let rx := s.arriving g dir err
    let p := s.get F.glbXgstat_probe [g, dir]
    let pw := (s.probeWire g dir).getD 152
    let differ := s.hasProbe g dir && decide (p < 144) && x.test.isNone && x.sub.isNone &&
      (err.getLsbD (s.wireOf g dir p) != err.getLsbD pw)
    let bad := (List.range 16).filter (fun b => (s.role g == 2 || (s.role g == 1 && x.registered b)) && !laneParOk rx b)
    let lost := s.get F.glbXgcnt_lostLanes [g, dir]
    let xerr := bus 16 (fun b => (bad.contains b || (late && x.registered b)) && !lost.testBit b)
    let s := s.setXg g dir { x with
      count := (x.count + 1) % 2 ^ 32, tx := next, rx := s.delivered g dir rx, xerr := xerr
      fails := x.fails.filter (fun e => decide ((x.count + 2 ^ 32 - e.2) % 2 ^ 32 < 9215))
      test := x.test.map (fun t => { t with bad := t.bad || err.getLsbD pw }) }
    let s := bad.foldl (fun s b => s.laneFailed g dir b (differ && laneOf p == b)) s
    let s :=
      if differ then
        if bad.contains (laneOf p) then s.judgeFailed g dir (s.wireOf g dir p)
        else s.setXg g dir { s.xgroup g dir with test := some ⟨s.wireOf g dir p, x.count, false⟩ }
      else s
    let s := (s.shownBad g dir err).foldl (fun s i => s.markSpare g dir i) s
    .next (s.syncSpares g dir)

/-- PROBE_ROTATION: at a 64-cycle boundary of the edge count the probe moves to the next signal (R271). -/
def execProbeRotation (g : Fin 480) (dir : Fin 2) (s : State) : Out := .next (s.rotateProbe g dir)

/-- SPARE_TEST_DONE: the held-out probe's 4,096-cycle test ends; it is marked bad, or the wire is judged failed (R272). -/
def execSpareTestDone (g : Fin 480) (dir : Fin 2) (s : State) : Out :=
  let x := s.xgroup g dir
  match x.test with
  | none => .next s
  | some t =>
    if !reached x.count ((t.at_ + 4096) % 2 ^ 32) then .next s
    else
      let s1 := s.setXg g dir { x with test := none }
      if t.bad then
        match s1.probeWire g dir with
        | some w => .next ((s1.markSpare g dir (w - 144)).syncSpares g dir)
        | none => .next s1
      else .next (s1.judgeFailed g dir t.wire)

/-- TRANSIENT_PARITY_FAILURE: a failure that no comparison has explained within two rotations (R272); a lane that R275
has forced sets no transient. -/
def execTransientParityFailure (g : Fin 480) (dir : Fin 2) (s : State) : Out :=
  let x := s.xgroup g dir
  let lost := s.get F.glbXgcnt_lostLanes [g, dir]
  let old := x.open_.filter (fun e => s.unexplained g dir e.2)
  let s1 := s.setXg g dir { x with open_ := x.open_.filter (fun e => !s.unexplained g dir e.2) }
  if old.any (fun e => !lost.testBit e.1) then .next (s1.raise F.glbXgstat_transient [g, dir]) else .next s1

/-! ## Live shifts (R273, R274) -/

/-- The group-clock edges that a time in ns spans on the sending die. -/
def State.edgesIn (s : State) (g dir ns : Nat) : Nat :=
  let net := ((s.xgroup g dir).lanes.headD default).net
  (ns * s.gclkKhz (32 * sender (edgeOf g) dir + net) + 999999) / 1000000

/-- HOLD_REQUEST: the oldest hold's request reaches the sending end, which takes K1, the first edge at least 2 µs on, the sparing
tick, at least 8 µs on, and K, the first edge at or after it (R273); a second hold of a group waits until the first shift is done
(R274). -/
def execHoldRequest (g : Fin 480) (dir : Fin 2) (s : State) : Out :=
  let x := s.xgroup g dir
  match x.holds with
  | h :: t =>
    if h.asked || s.role g != 1 then .next s
    else
      let now := s.now (sender (edgeOf g) dir)
      let tau := s.nextMoment (now + 8000)
      let k1 := (x.count + s.edgesIn g dir 2000) % 2 ^ 32
      let k := (x.count + s.edgesIn g dir (tau - now)) % 2 ^ 32
      .next ((s.setXg g dir { x with holds := { h with asked := true, k1 := k1, k := k, tau := tau } :: t }).raise
        F.glbXgstat_pending [g, dir])
  | [] => .next s

/-- PROBE_SUBSTITUTE: from K1, or from its arrival if that is later, the receiving end takes the signal from the probe (R273). -/
def execProbeSubstitute (g : Fin 480) (dir : Fin 2) (s : State) : Out :=
  let x := s.xgroup g dir
  match x.holds with
  | h :: _ =>
    if h.asked && s.role g == 1 && s.hasProbe g dir && reached x.count h.k1 then
      let sig := s.signalOn g dir h.wire
      .next ((s.setXg g dir { x with sub := some h.wire, test := none, open_ := x.open_.filter (fun e => e.1 != laneOf sig) }).put
        F.glbXgstat_probe [g, dir] sig)
    else .next s
  | [] => .next s

/-- Both shift multiplexers move: the failed wire leaves the map, the next spare comes into use, the shift is logged, and the probe
returns to rotation. -/
def State.shiftGroup (s : State) (g dir wire : Nat) : State :=
  let x := s.xgroup g dir
  let spare := (s.freeSpares g dir).headD 151 - 144
  let rest := x.holds.filter (fun h => h.wire != wire)
  let s := s.setXg g dir { x with failedW := wire :: x.failedW, holds := rest, sub := none, shift := none }
  let s := s.put F.glbXgstat_pending [g, dir] (b2n (rest.any (·.asked)))
  ((s.put F.glbXgstat_probe [g, dir] 0xFF).syncSpares g dir).logEv (receiver (edgeOf g) dir) 3 0 0x0104 1
    (leBytes 2 g ++ leBytes 1 dir ++ leBytes 1 wire ++ leBytes 1 spare)

/-- LIVE_SHIFT: at edge K both multiplexers move; where K has reached the receiving end after that edge, it moves late (R273). -/
def execLiveShift (g : Fin 480) (dir : Fin 2) (s : State) : Out :=
  match s.shiftDue g dir with
  | some h =>
    if (s.freeSpares g dir).isEmpty then .next s
    else
      let s1 := s.shiftGroup g dir h.wire
      .next (if (s.xgroup g dir).count = h.k then s1 else s1.raise F.glbXgstat_late [g, dir])
  | none => .next s

/-- A write to GLB_XINJ (R427). -/
def State.xinjWrite (s : State) (w : Word32) : State := s.writeReg .glbXinj [] w

def execCrossingInject (src : Src) (w : Word32) (s : State) : Out :=
  .next (s.regAct src .glbXinj [] (w ||| 0x80000000#32) (·.xinjWrite (w ||| 0x80000000#32)))

/-- A read of GLB_XGCNTg_d: a normal read clears par_errs, a peek read does not. -/
def State.xgcntRead (s : State) (src : Src) (g dir : Nat) : Word32 × State :=
  let w := s.readReg .glbXgcnt [g, dir]
  (w, if src.peeks then s else s.put F.glbXgcnt_parErrs [g, dir] 0)

def execXgcntRead (src : Src) (g : Fin 480) (dir : Fin 2) (s : State) : Out :=
  let (w, s1) := s.xgcntRead src g dir
  .next (s1.answerWord src w)

/-! ## Packet links (R278 to R282) -/

/-- A link direction. -/
def State.link (s : State) (l : Nat) : LinkSt := SMap.get default s.links l
def State.setLink (s : State) (l : Nat) (x : LinkSt) : State := { s with links := SMap.set default s.links l x }

/-- The other direction of a link. -/
def backLink (l : Nat) : Nat := if l % 2 = 0 then l + 1 else l - 1

/-- The CRC-32 of a packet flit's bits [735:0] (R278). -/
def flitCrc (f : BitVec 736) : BitVec 32 := crc32 ((List.range 92).map (fun i => f.extractLsb' (8 * i) 8))
def flitCrcOk (f : BitVec 768) : Bool := flitCrc (f.extractLsb' 0 736) == f.extractLsb' 736 32

/-- The credits that a link direction's receiver returns in one flit: two virtual channels, up to 15 each (R278, R279). -/
def LinkSt.returns (x : LinkSt) : List (Nat × Nat) := (x.owed.take 2).map (fun e => (e.1, min 15 e.2))
def LinkSt.returned (x : LinkSt) (l : List (Nat × Nat)) : LinkSt :=
  { x with owed := l.foldl (fun m e => SMap.set 0 m e.1 (SMap.get 0 m e.1 - e.2)) x.owed }

/-- A flit on a packet group (R278): data, parity and header, sequence number, acknowledgement, credit returns, kind. -/
def packFlit (bits : BitVec 672) (seq kind ack ackseq : Nat) (credits : List (Nat × Nat)) : BitVec 768 :=
  let a := credits.getD 0 (0, 0)
  let b := credits.getD 1 (0, 0)
  let top := seq + 2 ^ 12 * ackseq + 2 ^ 24 * ack + 2 ^ 26 * a.1 + 2 ^ 29 * a.2 + 2 ^ 33 * b.1 + 2 ^ 36 * b.2 + 2 ^ 40 * kind
  let f : BitVec 736 := (BitVec.ofNat 64 top) ++ bits
  (flitCrc f) ++ f

/-- The working packet groups of an edge (R278). -/
def State.linkGroups (s : State) (k : Nat) : List Nat := (groupsOf k).filter (fun g => s.packetWorks g)

/-- A flit leaves on link direction `l`, on the next working packet group in the rotation; it acknowledges what the other direction's
receiver has accepted, or NAKs, and returns the credits that receiver owes. With no working group nothing leaves (R47). -/
def State.launch (s : State) (l : Nat) (bits : BitVec 672) (seq kind : Nat) (nak : Bool) : State :=
  let gs := s.linkGroups (l / 2)
  let x := s.link l
  match gs[x.turn % max 1 gs.length]? with
  | none => s
  | some g =>
    let back := s.link (backLink l)
    let c := back.returns
    let f := packFlit bits seq kind (if nak then 2 else 1) (if nak then back.expect else (back.expect + 4095) % 4096) c
    let s := s.setLink (backLink l) (back.returned c)
    (s.setLink l { s.link l with turn := x.turn + 1 }).emit (.bytes "link flit" (leBytes 2 g ++ leBytes 1 (l % 2) ++ leBytes 96 f.toNat))

/-- The sender resends from a sequence number onward, on any working groups (R280). -/
def State.resend (s : State) (l seq : Nat) : State :=
  ((s.link l).replay.filter (fun e => decide ((e.1 + 4096 - seq) % 4096 < 2048))).foldl
    (fun s e => s.launch l e.2 e.1 0 false) s

/-- A packet group is retired whole (R282): flits it had not delivered are replayed on the remaining groups. -/
def State.retireGroup (s : State) (g dir : Nat) : State :=
  if s.flag F.glbXgstat_retired [g, dir] then s
  else
    let k := edgeOf g
    let s := (s.raise F.glbXgstat_retired [g, 0]).raise F.glbXgstat_retired [g, 1]
    let s := (s.raise F.glbXstat_retiredAny []).put F.glbXstat_edgeRetired [] (Nat.lor (s.get F.glbXstat_edgeRetired []) (2 ^ k))
    let s := s.logEv (receiver k dir) 3 0 0x0106 4 (leBytes 2 g ++ leBytes 1 dir)
    [2 * k, 2 * k + 1].foldl (fun s l =>
      match (s.link l).replay with
      | e :: _ => s.resend l e.1
      | [] => s) s

/-- Acknowledged flits leave the replay buffer of the sender (R280): sequence numbers up to `q`. -/
def LinkSt.acked (x : LinkSt) (q : Nat) : LinkSt :=
  { x with replay := x.replay.filter (fun e => 2048 ≤ (q + 4096 - e.1) % 4096) }

/-- Credit returns (R279). -/
def LinkSt.credit (x : LinkSt) (vc n : Nat) : LinkSt := { x with used := SMap.set 0 x.used vc (SMap.get 0 x.used vc - n) }

/-- The fields a flit brings back for the other direction: credits, and an acknowledgement, or a NAK, which makes its sender resend
(R278 to R280). -/
def State.flitReturns (s : State) (l : Nat) (f : BitVec 768) : State :=
  let n := f.toNat
  let b := backLink l
  let back := ((s.link b).credit (bitsOf n 700 698) (bitsOf n 704 701)).credit (bitsOf n 707 705) (bitsOf n 711 708)
  let q := bitsOf n 695 684
  match bitsOf n 697 696 with
  | 1 => s.setLink b (back.acked q)
  | 2 => (s.setLink b (back.acked ((q + 4095) % 4096))).resend b q
  | _ => s.setLink b back

/-- A flit of the link is delivered in order: it enters a router that faces the edge, and holds a receive buffer until it leaves it
(R279, log entry 107). -/
def State.deliverFlit (s : State) (l : Nat) (bits : BitVec 672) : State :=
  let k := l / 2
  let site := receiver k (l % 2)
  let h := bits.extractLsb' 576 96
  let rs := edgeRouters site k
  let r := rs.getD ((s.link l).expect % max 1 rs.length) 0
  let s := s.setLink l { s.link l with expect := ((s.link l).expect + 1) % 4096 }
  s.arriveFlit r ⟨6, h, BitVec.ofNat 12 (headerPar h.toNat), bits.extractLsb' 0 512, bits.extractLsb' 512 64⟩ (some l)

/-- The flits that had come ahead follow in order, at most `n`. -/
def State.deliverEarly (s : State) (l : Nat) : Nat → State
  | 0 => s
  | n + 1 =>
    let x := s.link l
    match x.early.find? (fun e => e.1 == x.expect) with
    | some e => ((s.setLink l { x with early := x.early.filter (fun y => y.1 != e.1) }).deliverFlit l e.2).deliverEarly l n
    | none => s

/-- FLIT_RECEIVE: a flit of group g and direction d; `uiBad` gives the byte lanes that failed parity in some UI. A damaged flit is
discarded and answered with a NAK; a sound data flit waits for those before it and is delivered once, in order (R278 to R280). A
shift that waits for this flit is made (R281). -/
def execFlitReceive (g : Fin 480) (dir : Fin 2) (flit : BitVec 768) (uiBad : BitVec 16) (s : State) : Out :=
  if !s.packetWorks g then .next s
  else
    let k := edgeOf g
    let l := 2 * k + dir.val
    let x := s.xgroup g dir
    let bad := (List.range 16).filter (fun b => uiBad.getLsbD b)
    let s := bad.foldl (fun s _ => (s.countUp F.glbXgcnt_parErrs [g, dir]).bucket (crossBucket (receiver k dir))) s
    let crcOk := flitCrcOk flit
    let run := if crcOk then 0 else x.crcRun + 1
    let s := s.setXg g dir { x with crcRun := run }
    if !crcOk || !bad.isEmpty then
      let s := s.launch (backLink l) 0#672 (s.link (backLink l)).next 1 true
      .next (if 16 ≤ run then s.retireGroup g dir else s)
    else
      let n := flit.toNat
      let seq := bitsOf n 683 672
      let s := match x.shift, x.holds with
        | some q, h :: _ => if (seq + 4096 - q) % 4096 < 2048 then s.shiftGroup g dir h.wire else s
        | _, _ => s
      let s := s.flitReturns l flit
      if bitsOf n 713 712 ≠ 0 then .next s
      else
        let y := s.link l
        let bits := flit.extractLsb' 0 672
        if seq = y.expect then .next ((s.deliverFlit l bits).deliverEarly l 512)
        else if 512 ≤ (seq + 4096 - y.expect) % 4096 ∨ y.early.any (fun e => e.1 == seq) then .next s
        else .next (s.setLink l { y with early := y.early ++ [(seq, bits)] })

/-- FLIT_REPLAY: a NAK makes the sender resend from the NAKed number onward, on any working groups (R280). -/
def execFlitReplay (link : Fin 20) (seq : BitVec 12) (s : State) : Out :=
  .next ((s.setLink link ((s.link link).acked ((seq.toNat + 4095) % 4096))).resend link seq.toNat)

/-- Whether a link direction can take a flit of a virtual channel: credit, room in the replay buffer of 512 flits, and a group
(R279, R280). -/
def State.linkTakes (s : State) (l vc : Nat) : Bool :=
  decide (SMap.get 0 (s.link l).used vc < 32 ∧ (s.link l).replay.length < 512) && !(s.linkGroups (l / 2)).isEmpty

/-- Send a data flit on a link. -/
def State.sendFlit (s : State) (l : Nat) (bits : BitVec 672) : State :=
  let x := s.link l
  let vc := flitVc (bits.toNat / 2 ^ 576)
  (s.setLink l { x with next := (x.next + 1) % 4096, replay := x.replay ++ [(x.next, bits)],
                        used := SMap.set 0 x.used vc (SMap.get 0 x.used vc + 1) }).launch l bits x.next 0 false

/-- PACKET_SHIFT: the sending end names S, from which both ends move; with no free spare the group is retired (R281, R282). -/
def execPacketShift (g : Fin 480) (dir : Fin 2) (seq : BitVec 12) (s : State) : Out :=
  let x := s.xgroup g dir
  if s.role g ≠ 2 ∨ x.holds.isEmpty then .next s
  else if (s.freeSpares g dir).isEmpty then
    .next (((s.setXg g dir { x with holds := [], shift := none }).put F.glbXgstat_pending [g, dir] 0).retireGroup g dir)
  else .next ((s.setXg g dir { x with shift := some seq.toNat }).raise F.glbXgstat_pending [g, dir])

/-! ## Outages (R274) -/

/-- A hot resume drops holds and pending shifts; assigned spares stay; the rotation restarts. -/
def State.xgResume (s : State) : State :=
  s.xg.foldl (fun s e =>
    let g := e.1 / 2
    let dir := e.1 % 2
    let s := s.setXg g dir { e.2 with holds := [], sub := none, test := none, shift := none, open_ := [], fails := [] }
    (s.put F.glbXgstat_pending [g, dir] 0).put F.glbXgstat_probe [g, dir] 0xFF) s

end Sys2Proof.Machine
end

