-- ==== Sys2Proof/Machine/ResultSlots.lean ====
section
/-!
DEFINITION. Sys2Proof/Machine/ResultSlots.lean: result slots, publishes, acknowledges and the table of held publishes
(R198 to R205).
-/

namespace Sys2Proof.Machine

/-- First byte address of the result slots (R198). -/
def slotBase : Nat := 0x0F0000100000

/-- The slot and the byte within it that an address names. -/
def slotOf (a : Nat) : Option (Nat × Nat) :=
  if slotBase ≤ a ∧ a < slotBase + 64 * 4096 then some ((a - slotBase) / 64, (a - slotBase) % 64) else none

/-- A slot as a load or reset leaves it: payload, SEQ and flags 0. -/
def Slot.empty : Slot := ⟨List.replicate 56 0#8, 0#32, false, false⟩

/-- A result slot. -/
def State.slot (s : State) (i : Nat) : Slot := SMap.get Slot.empty s.slots i

/-- Replace a result slot. -/
def State.setSlot (s : State) (i : Nat) (x : Slot) : State := { s with slots := SMap.set Slot.empty s.slots i x }

/-- The 64 bytes a slot reads as (R198). -/
def Slot.bytes (x : Slot) : List Byte :=
  x.payload ++ leBytes 4 x.seq.toNat ++ leBytes 1 (b2n x.valid + 2 * b2n x.lost) ++ List.replicate 3 0#8

/-- SEQ steps from 0xFFFF_FFFF to 1 (R200). -/
def nextSeq (q : BitVec 32) : BitVec 32 := if q = 0xFFFFFFFF#32 then 1#32 else q + 1

/-- A publish takes effect (R200): OVERWRITTEN is set where it replaces a result whose VALID is 1. -/
def State.storePublish (s : State) (i : Nat) (data : List Byte) : State :=
  let x := s.slot i
  s.setSlot i { payload := data.take 56, seq := nextSeq x.seq, valid := true, lost := x.lost || x.valid }

/-- Whether the table holds a publish to a slot (R202). -/
def State.hasHeld (s : State) (i : Nat) : Bool := s.heldPubs.any (fun h => h.slot == i)

/-- PUBLISH at a slot (R200, R202, R367): en first, then whether it must wait and the table has room, then its parity. -/
def State.publishAt (s : State) (i : Nat) (r : Req) : State :=
  if !s.flag F.rslPol_en [i] then s.respond r .aerr
  else if s.flag F.rslPol_pol [i] then
    if r.badPar.isEmpty then (s.storePublish i r.data).respond r .ok else s.respond r .perr
  else if (s.slot i).valid || s.hasHeld i then
    if 64 ≤ s.heldPubs.length then (s.raise F.rslStat_pendFull []).respond r .retry
    else if r.badPar.isEmpty then { s with heldPubs := s.heldPubs ++ [⟨i, r⟩] }
    else s.respond r .perr
  else if r.badPar.isEmpty then (s.storePublish i r.data).respond r .ok
  else s.respond r .perr

/-- ACKNOWLEDGE at a slot (R201): every acknowledge completes with OK. -/
def State.ackAt (s : State) (i : Nat) (r : Req) : State :=
  if !r.badPar.isEmpty then s.respond r .perr
  else
    let x := s.slot i
    if x.valid && decide (leNat r.data = x.seq.toNat) then
      (s.setSlot i { x with valid := false, lost := false }).respond r .ok
    else (s.raise F.rslStat_stale []).respond r .ok

/-- A write to the RSL_ block (R199): a publish, an acknowledge, or AERR. -/
def State.slotWrite (s : State) (r : Req) : State :=
  match slotOf r.addr.toNat with
  | some (i, o) =>
    if r.data.length != r.len then s.respond r .aerr
    else if o = 0 ∧ r.len = 64 then s.publishAt i r
    else if o = 56 ∧ r.len = 4 then s.ackAt i r
    else s.respond r .aerr
  | none => s.respond r .aerr

/-- A read of the RSL_ block (R199, R203). -/
def State.slotRead (s : State) (r : Req) : State :=
  match slotOf r.addr.toNat with
  | some (i, o) =>
    if sizeOk [1, 2, 4, 8, 16, 32, 64] o r.len 64 then s.respond r .ok (slice (s.slot i).bytes o r.len)
    else s.respond r .aerr
  | none => s.respond r .aerr

/-- PUBLISH (R200). -/
def execPublish (r : Req) (s : State) : Out :=
  match slotOf r.addr.toNat with
  | some (i, o) => if o = 0 ∧ r.len = 64 ∧ r.data.length = 64 then .next (s.publishAt i r) else .next (s.respond r .aerr)
  | none => .next (s.respond r .aerr)

/-- ACKNOWLEDGE (R201). -/
def execAcknowledge (r : Req) (s : State) : Out :=
  match slotOf r.addr.toNat with
  | some (i, o) => if o = 56 ∧ r.len = 4 ∧ r.data.length = 4 then .next (s.ackAt i r) else .next (s.respond r .aerr)
  | none => .next (s.respond r .aerr)

/-- HELD_PUBLISH_RELEASE: the oldest held publish to a slot whose VALID is 0 takes effect (R202). -/
def execHeldPublishRelease (slot : Fin 4096) (s : State) : Out :=
  if (s.slot slot).valid then .next s
  else
    match s.heldPubs.find? (fun h => h.slot == slot.val) with
    | some h =>
      .next (({ s with heldPubs := s.heldPubs.erase h }.storePublish slot h.req.data).respond h.req .ok)
    | none => .next s

/-- The held publishes of a slot are completed at once, in arrival order (R205). -/
def State.flushHeld (s : State) (i : Nat) (each : HeldPub → State → State) : State :=
  let mine := s.heldPubs.filter (fun h => h.slot == i)
  mine.foldl (fun s h => each h s) { s with heldPubs := s.heldPubs.filter (fun h => h.slot != i) }

/-- A write to RSL_POLs (R205). -/
def State.slotPolicy (s : State) (i : Nat) (w : Word32) : State :=
  let was := s.flag F.rslPol_pol [i]
  let s := s.writeReg .rslPol [i] w
  if !s.flag F.rslPol_en [i] then s.flushHeld i (fun h s => s.respond h.req .aerr)
  else if !was && s.flag F.rslPol_pol [i] then
    s.flushHeld i (fun h s => (s.storePublish i h.req.data).respond h.req .ok)
  else s

def execResultPolicyWrite (src : Src) (slot : Fin 4096) (w : Word32) (s : State) : Out :=
  .next (s.regAct src .rslPol [slot] w (·.slotPolicy slot w))

/-- A full load returns every slot to 0; held publishes complete with TERR (R205). -/
def State.clearSlots (s : State) : State :=
  s.heldPubs.foldl (fun s h => s.respond h.req .terr) { s with slots := [], heldPubs := [] }

/-- The word RSL_VALIDSUMw shows. -/
def State.validSum (s : State) (w : Nat) : Word32 :=
  BitVec.ofNat 32 ((List.range 32).foldl (fun acc b => acc + 2 ^ b * b2n (s.slot (32 * w + b)).valid) 0)

end Sys2Proof.Machine
end

