-- ==== Sys2Proof/Machine/Noc.lean ====
section
/-!
DEFINITION. Sys2Proof/Machine/Noc.lean: the network on chip: the arbitration of routers, route changes, masters and their tags,
timeouts, probes and histograms (R354 to R374).
-/

namespace Sys2Proof.Machine

/-! ## Arbitration (R368) -/

/-- The arbitration state of an output. -/
def State.arbiter (s : State) (r port : Nat) : ArbSt := SMap.get default s.noc.arb (8 * r + port)
def State.setArbiter (s : State) (r port : Nat) (x : ArbSt) : State :=
  { s with noc := { s.noc with arb := SMap.set default s.noc.arb (8 * r + port) x } }

/-- The class of a waiting flit. -/
def WaitFlit.cls (f : WaitFlit) : Nat := bitsOf f.flit.hdr.toNat 92 91

/-- The oldest flit of the next input in round-robin order after input `last`, among the flits that `ok` admits. -/
def roundRobin (fs : List WaitFlit) (ok : WaitFlit → Bool) (last : Nat) : Option WaitFlit :=
  (List.range 8).findSome? (fun i => fs.find? (fun f => ok f && f.flit.input.val == (last + 1 + i) % 8))

/-- The classes in the order in which an output looks at them: real-time unless it has taken 24 of the last 32 cycles while others
waited, then control, then bulk and coherent in turn. -/
def classOrder (a : ArbSt) (others : Bool) : List Nat :=
  (if others && 24 ≤ (a.hist.take 31).countP (· == true) then [] else [0]) ++ [2] ++ (if a.bulk then [3, 1] else [1, 3])

/-- The flit that an output takes in a cycle, among those that hold credit. -/
def pickFlit (a : ArbSt) (fs : List WaitFlit) (ok : WaitFlit → Bool) : Option WaitFlit :=
  (classOrder a (fs.any (fun f => f.cls != 0))).findSome? (fun c =>
    roundRobin fs (fun f => f.cls == c && ok f) (SMap.get 7 a.last c))

/-- The arbitration state after a cycle. -/
def ArbSt.after (a : ArbSt) (fs : List WaitFlit) (took : Option WaitFlit) : ArbSt :=
  match took with
  | some f =>
    { hist := ((f.cls == 0 && fs.any (fun f => f.cls != 0)) :: a.hist).take 31
      last := SMap.set 7 a.last f.cls f.flit.input.val
      bulk := if f.cls = 1 then true else if f.cls = 3 then false else a.bulk }
  | none => { a with hist := (false :: a.hist).take 31 }

/-- The link direction that an edge port of a router sends on (R563): that of the edge it faces, of the flit's next die where it
faces two. -/
def State.edgeLink (s : State) (r h : Nat) : Option Nat :=
  let site := routerDie r
  match dieRoute s.liveEdges site (flitDie h) with
  | some (d :: _) => (edgeBetween site d).map (fun k => 2 * k + (if edgeDies k = (site, d) then 0 else 1))
  | _ => none

/-- Whether output `port` of router r has credit for a flit: an edge port that of the link, another that of the input buffers it
leads to, by virtual channel (R358, R368). -/
def State.hasCredit (s : State) (r port : Nat) (credit : BitVec 8) (f : WaitFlit) : Bool :=
  let h := f.flit.hdr.toNat
  if port = 6 then
    match s.edgeLink r h with
    | some l => s.linkTakes l (flitVc h)
    | none => false
  else credit.getLsbD (flitVc h)

/-- A flit leaves router r by output `port` (R355, R356): to the next router of the mesh, over the packet link of an edge, or to an
endpoint. -/
def State.moveFlit (s : State) (r port : Nat) (f : WaitFlit) : State :=
  let x := f.flit
  let h := x.hdr.toNat
  let s := (s.probe r port h false f.waited).freeBuffer f.link h
  if port < 4 then s.arriveFlit (meshNext r port) { x with input := Fin.ofNat 8 ((port + 2) % 4) } none
  else if port = 6 then
    match s.edgeLink r h with
    | some l => s.sendFlit l (x.hdr ++ x.dpar ++ x.data)
    | none => s
  else s.emit (.bytes "flit" (leBytes 1 r ++ leBytes 12 h ++ leBytes 2 x.par.toNat ++ leBytes 64 x.data.toNat ++ leBytes 8 x.dpar.toNat))

/-- The links that a router's edge ports serve. -/
def routerLinks (r : Nat) : List Nat :=
  (List.range 20).filter (fun l => sender (l / 2) (l % 2) == routerDie r && (edgeRouters (routerDie r) (l / 2)).contains r)

/-- One router cycle at an output: it takes a flit by the order of R368, the others that wait without credit count the cycle; an
edge port with nothing to send sends an idle flit where its link owes credits (R279). -/
def State.outputCycle (s : State) (r port : Nat) (credit : BitVec 8) : State :=
  let fs := s.waitingAt r port
  let a := s.arbiter r port
  let took := pickFlit a fs (s.hasCredit r port credit)
  let rest := (match took with
    | some f => fs.erase f
    | none => fs).map (fun f => if s.hasCredit r port credit f then f else { f with waited := f.waited + 1 })
  let s1 := (s.setArbiter r port (a.after fs took)).setWaiting r port rest
  match took with
  | some f => s1.moveFlit r port f
  | none =>
    if port = 6 then
      (routerLinks r).foldl (fun s l =>
        if (s.link (backLink l)).owed.isEmpty then s else s.launch l 0#672 (s.link l).next 1 false) s1
    else s1

/-- ROUTER_FORWARD: a cycle of router r (R355 to R357, R367, R368): a flit may arrive at one of its inputs, and output `port` takes
one of the flits that wait there; `credit` names the virtual channels for which the next router, or the endpoint, has room. -/
def execRouterForward (r : Fin 116) (port : Fin 8) (arrive : Option RouterFlit) (credit : BitVec 8) (s : State) : Out :=
  if !s.runs 5 then .next s
  else
    let s1 := match arrive with
      | some x => s.arriveFlit r x none
      | none => s
    .next (s1.outputCycle r port credit)

/-- TRACE_CLEAR: writing clear empties the buffer (R373). -/
def State.traceClear (s : State) (r : Nat) : State := s.setTrace r []

def execTraceClear (src : Src) (r : Fin 116) (s : State) : Out := .next (s.regAct src .nocPrbTstat [r] 0x40000000#32 (·.traceClear r))

/-- The word of NOC_TWIN at word offset `i`: entry e lies at 32 * e (R373). -/
def State.traceWord (s : State) (i : Nat) : Word32 :=
  let r := s.get F.nocTsel_router []
  if 115 < r then 0#32
  else
    match (s.trace r)[i / 8]? with
    | some e => BitVec.ofNat 32 (leNat ((e.drop (4 * (i % 8))).take 4))
    | none => 0#32

/-- A read of NOC_PRBr_CNTk: a normal read clears the counter. -/
def State.probeCountRead (s : State) (src : Src) (r k : Nat) : Word32 × State :=
  let w := s.readReg .nocPrbCnt [r, k]
  (w, if src.peeks then s else s.setReg .nocPrbCnt [r, k] 0#32)

def execProbeCountRead (src : Src) (r : Fin 116) (k : Fin 4) (s : State) : Out :=
  let (w, s1) := s.probeCountRead src r k
  .next (s1.answerWord src w)

/-! ## Route changes (R356) -/

/-- ROUTE_DRAIN_START: endpoints stop injecting while a link has lost its last group. -/
def execRouteDrainStart (s : State) : Out :=
  if (List.range 10).any (fun k => s.edgeLost k && !s.noc.lostEdges.contains k) then
    .next { s with noc := { s.noc with drain := true } }
  else .next s

/-- ROUTE_SWITCH: every router takes the recomputed routes and injection resumes. -/
def execRouteSwitch (s : State) : Out :=
  if s.noc.drain then
    .next { s with noc := { s.noc with drain := false, lostEdges := (List.range 10).filter (fun k => s.edgeLost k) } }
  else .next s

/-! ## Histograms (R374) -/

/-- A histogram unit records a value. -/
def State.histRecord (s : State) (h v : Nat) : State :=
  if !s.flag F.nocHistCfg_en [h] || s.flag F.nocHistCfg_freeze [h] then s
  else
    let d : Int := ((v : Int) - (s.get F.nocHistBase_base [h] : Int)) / ((2 ^ s.get F.nocHistCfg_shift [h] : Nat) : Int)
    let bin := (min 31 (max 0 d)).toNat
    let s := (s.countUp F.nocHistCount_value [h]).countUp F.nocHistBin_value [h, bin]
    let s := if v < s.get F.nocHistMin_value [h] then s.put F.nocHistMin_value [h] v else s
    if s.get F.nocHistMax_value [h] < v then s.put F.nocHistMax_value [h] v else s

/-- Clear a unit. -/
def State.histClear (s : State) (h : Nat) : State :=
  let s := (List.range 32).foldl (fun s b => s.setReg .nocHistBin [h, b] 0#32) s
  ((s.setReg .nocHistCount [h] 0#32).setReg .nocHistMin [h] 0xFFFFFFFF#32).setReg .nocHistMax [h] 0#32

/-- A write to NOC_HISTh_CFG. -/
def State.histConfig (s : State) (h : Nat) (w : Word32) : State :=
  let s := s.writeReg .nocHistCfg [h] w
  if F.nocHistCfg_clear.of w = 1 then s.histClear h else s

def execHistogramClear (src : Src) (h : Fin 16) (w : Word32) (s : State) : Out :=
  .next (s.regAct src .nocHistCfg [h] (w ||| 0x20000000#32) (·.histConfig h (w ||| 0x20000000#32)))

/-- A completed transaction reaches the latency units of its master, in ns. -/
def State.histLatency (s : State) (m : Nat) (write : Bool) (ns : Nat) : State :=
  (List.range 16).foldl (fun s h =>
    if s.get F.nocHistCfg_kind [h] = (if write then 2 else 1) ∧ s.get F.nocHistCfg_index [h] = m then s.histRecord h ns else s) s

/-- The value of a level source; power and temperature are the measured value given (R374). -/
def State.levelSource (s : State) (h measured : Nat) : Option Nat :=
  let i := s.get F.nocHistCfg_index [h]
  match s.get F.nocHistCfg_kind [h] with
  | 3 => some (s.sqVisible (i / 64) (i % 64))
  | 4 => some (s.riser (i / 32 % 4) (i % 32)).mid.length
  | 5 => some measured
  | 6 => some measured
  | _ => none

/-- HISTOGRAM_LEVEL_SAMPLE. -/
def execHistogramLevelSample (h : Fin 16) (measured : Nat) (s : State) : Out :=
  match s.levelSource h measured with
  | some v => .next (s.histRecord h v)
  | none => .next s

/-! ## Masters and tags (R362, R363) -/

/-- Whether the bus reaches an address without the NoC clock: hub register blocks (R19, R372). -/
def hubBlock (a : Nat) : Bool :=
  decide (registerSpace ≤ a ∧ a < 0x0F0001000000) || decide (0x0F0108000000 ≤ a ∧ a < 0x0F0109000000) || (slotOf a).isSome

/-- Whether a request leaves its endpoint now: none does while the NoC stands or endpoints stop injecting, but those of PCI Express,
the MC and the debug master to hub register blocks (R356, R372). -/
def State.injects (s : State) (r : Req) : Bool :=
  (s.runs 5 && !s.noc.drain) || ([58, 60, 61].contains r.src.master.val && hubBlock r.addr.toNat)

/-- A request leaves its endpoint, with its header parity or one data byte inverted where ECC_PINJ says (R429), or waits there. -/
def State.send (s : State) (r : Req) : State :=
  if s.injects r then
    let (lost, r, s) := s.pinj r
    s.emit (.req r lost)
  else { s with noc := { s.noc with held := s.noc.held ++ [r] } }

/-- The requests that wait at their endpoints leave once injection goes on, oldest first (R356, R372). -/
def State.nocResume (s : State) : State :=
  if s.runs 5 && !s.noc.drain then s.noc.held.foldl State.send { s with noc := { s.noc with held := [] } } else s

/-- A master issues a request (R357, R359, R362, R363): the tag, the stamp and the timeout's start are those of the issue, also
where the request waits at its endpoint (log entry 119). -/
def State.inject (s : State) (r : Req) : State :=
  let m := r.src.master.val
  let now := s.now (masterDie m)
  let stamp := now / 16 % 65536
  let s := s.setTag m r.tag ⟨stamp, now, s.get F.nocMcfg_tmoUs [m], r.write, r.cls, false⟩
  s.send { r with stamp := BitVec.ofNat 16 stamp, src := { r.src with peek := r.src.peeks } }

/-- NOC_REQUEST_INJECT (R357 to R363, R369, R372): a master with a free tag issues a request; `panic` is the panic input of a fabric
port. -/
def execNocRequestInject (r : Req) (panic : Bool) (s : State) : Out :=
  let m := r.src.master.val
  if (s.pwr.stopIssue && m < 56) || (s.tag m r.tag).isSome || s.tagLimit m ≤ s.tagsUsed m then .next s
  else .next ((if m < 48 then s.setPanic m (panic && r.cls.val == 0) else s).inject r)

/-- Masters that repeat a request which completes with RETRY (R366). -/
def repeats (m : Nat) : Bool := (48 ≤ m && m < 56) || m == 58 || m == 59 || m == 60 || m == 62 || m == 63

/-- The code a master reads: 7 is treated as DERR (R365). -/
def respOf : Fin 8 → Resp
  | 0 => .ok
  | 1 => .derr
  | 2 => .perr
  | 3 => .serr
  | 4 => .aerr
  | 5 => .terr
  | 6 => .retry
  | 7 => .derr

/-- A transaction ends at its master: the latency is recorded and the tag is free. -/
def State.tagDone (s : State) (m t : Nat) (x : TagSt) : State :=
  (s.histLatency m x.write (s.now (masterDie m) - x.start)).freeTag m t

/-- The timeout of a tag has expired. -/
def State.tagExpired (s : State) (m : Nat) (x : TagSt) : Bool := decide (x.start + 1000 * x.tmo ≤ s.now (masterDie m))

/-- TAG_RELEASE: after a further tmo_us the tag returns to use (R363). -/
def execTagRelease (m : Fin 64) (t : Fin 1024) (s : State) : Out :=
  match s.tag m t with
  | some x => if x.out && s.tagExpired m x then .next (s.freeTag m t) else .next s
  | none => .next s

/-- Whether a request's timeout has not expired at its master. -/
def State.inTime (s : State) (r : Req) : Bool :=
  match s.tag r.src.master r.tag with
  | some x => !x.out && x.stamp == r.stamp.toNat && !s.tagExpired r.src.master x
  | none => false

/-- TARGET_TIMEOUT: at the timeout a target that still holds the request answers TERR and the request has no effect (R364): the
table of held publishes (R202), cell-store accesses that wait for phase B (R114), heal lines (R414), the controllers' queues. -/
def execTargetTimeout (r : Req) (s : State) : Out :=
  if s.inTime r then .next s
  else if s.heldPubs.any (fun h => h.req == r) then
    .next ({ s with heldPubs := s.heldPubs.filter (fun h => h.req != r) }.respond r .terr)
  else
    match (List.range 4).find? (fun d => (s.die d).waits.any (fun w => w.req == r)) with
    | some d =>
      let w := s.die d
      .next ((s.setDie d { w with waits := w.waits.filter (fun x => x.req != r) }).respond r .terr)
    | none =>
      match s.healTimeout r with
      | some s1 => .next s1
      | none => .next ((s.queueTimeout r).getD s)

/-- A write to NOC_MCFGm: a timeout outside 1 to 500 is stored as 500 (R363). -/
def State.mcfgWrite (s : State) (m : Nat) (w : Word32) : State :=
  let t := F.nocMcfg_tmoUs.of w
  s.writeReg .nocMcfg [m] (if 1 ≤ t ∧ t ≤ 500 then w else F.nocMcfg_tmoUs.put w 500)

/-- A read of NOC_MSTATm: outst is the tags in use; a normal read clears the counts. -/
def State.mstatRead (s : State) (src : Src) (m : Nat) : Word32 × State :=
  let w := F.nocMstat_outst.put (s.readReg .nocMstat [m]) (s.tagsUsed m)
  (w, if src.peeks then s else s.setReg .nocMstat [m] 0#32)

def execNocMstatRead (src : Src) (m : Fin 64) (s : State) : Out :=
  let (w, s1) := s.mstatRead src m
  .next (s1.answerWord src w)

end Sys2Proof.Machine
end

