-- ==== Sys2Proof/Machine/Streams.lean ====
section
/-!
DEFINITION. Sys2Proof/Machine/Streams.lean: stream DMA channels and riser traffic (R186 to R197).  A request's answer is
what its target gives when the request is issued; the engine learns it when the response arrives.
-/

namespace Sys2Proof.Machine

/-! ## Stream DMA (R186 to R191) -/

/-- A channel. -/
def State.dmaCh (s : State) (d q : Nat) : DmaSt := SMap.get default s.dma (64 * d + q)
def State.setDma (s : State) (d q : Nat) (x : DmaSt) : State := { s with dma := SMap.set default s.dma (64 * d + q) x }

/-- Ring size and base; HEAD and TAIL as byte offsets. -/
def State.ringSize (s : State) (d q : Nat) : Nat := 2 ^ s.get F.waDmCtrl_size [d, q]
def State.ringBase (s : State) (d q : Nat) : Nat := s.pair .waDmBaseLo .waDmBaseHi [d, q]
def State.ringHead (s : State) (d q : Nat) : Nat := 16 * s.get F.waDmHead_ptr [d, q] % s.ringSize d q
def State.ringTail (s : State) (d q : Nat) : Nat := 16 * s.get F.waDmTail_ptr [d, q] % s.ringSize d q

/-- Beats between two offsets of a ring. -/
def ringGap (size a b : Nat) : Nat := (b + size - a) % size / 16

/-- The master of a channel. -/
def dmaPort (d q : Nat) : Fin 64 := Fin.ofNat 64 (dmaMaster d q)

/-- A channel stops on an error (R188, R191). -/
def State.dmaStop (s : State) (d q : Nat) (c : Resp) : State :=
  let s := ((s.put F.waDmCtrl_run [d, q] 0).raise F.waDmCtrl_err [d, q]).put F.waDmCtrl_resp [d, q] c.code
  let s := s.setDma d q { s.dmaCh d q with flight := [] }
  s.logEv d 1 q 0x0504 3 (leBytes 1 d ++ leBytes 1 q ++ leBytes 1 c.code)

/-- A write to WA_DMn_CTRL (R186 to R188, R191). -/
def State.dmaControl (s : State) (d q : Nat) (w : Word32) : State :=
  let size := F.waDmCtrl_size.of w
  let w := if 12 ≤ size ∧ size ≤ 30 then w else F.waDmCtrl_size.put w 12
  let was := s.flag F.waDmCtrl_run [d, q]
  let s := s.setReg .waDmCtrl [d, q] (F.waDmCtrl_run.put (writeFields (RegName.desc .waDmCtrl).fields (s.reg .waDmCtrl [d, q]) w) 0)
  if F.waDmCtrl_run.of w = 0 then s
  else if !(s.sqEn d q && s.get F.waSqCfg_attach [d, q] == 1) then
    (s.raise F.waSqStat_cfgErr [d, q]).put F.waDmCtrl_run [d, q] (b2n was)
  else if s.ringBase d q % s.ringSize d q ≠ 0 then
    (s.raise F.waDmCtrl_err [d, q]).put F.waDmCtrl_resp [d, q] Resp.aerr.code
  else
    let s := s.raise F.waDmCtrl_run [d, q]
    if was then s
    else
      let p := if s.egress d q then s.ringTail d q else s.ringHead d q
      let left := if s.egress d q then none else (s.dmaCh d q).pktLeft
      s.setDma d q ⟨[], left, p, p⟩

/-- DMA_RUN. -/
def execDmaRun (src : Src) (d : Fin 4) (q : Fin 64) (w : Word32) (s : State) : Out :=
  .next (s.regAct src .waDmCtrl [d, q] (w ||| 0x80000000#32) (·.dmaControl d q (w ||| 0x80000000#32)))

/-- Beats of the packet at the read side, up to and with its last (R188): counted through head, middle and tail. -/
def State.packetBeats (s : State) (d q : Nat) : Nat :=
  let x := s.queue d q
  let lasts :=
    if s.sqRiser d q then
      let r := s.riser d (s.sqSlot d q)
      x.beats.map (·.last) ++ r.mid ++ r.tail.map (·.last)
    else x.beats.map (·.last)
  (lasts.takeWhile (!·)).length + 1

/-- Take up to `n` visible beats, stopping after a last in packet mode. -/
def takeBeats (d q : Nat) (pkt : Bool) : Nat → State → List Beat × State
  | 0, s => ([], s)
  | n + 1, s =>
    match s.sqTake d q with
    | (none, s) => ([], s)
    | (some b, s) =>
      if pkt && b.last then ([b], s)
      else
        let (bs, s) := takeBeats d q pkt n s
        (b :: bs, s)

/-- The header beat of a packet of `n` beats (R188). -/
def headerBeat (n : Nat) : Beat := let v : BitVec 128 := BitVec.ofNat 128 n; ⟨v, parOf16 v, false, false⟩

/-- Beats an egress channel could send now: a header first at a packet's start, then visible beats of the packet. -/
def State.dmaReady (s : State) (d q : Nat) : Nat :=
  let vis := s.sqVisible d q
  if s.sqPkt d q then
    match (s.dmaCh d q).pktLeft with
    | none => if vis = 0 then 0 else 1 + min vis (s.packetBeats d q)
    | some left => min vis left
  else vis

/-- The class of a channel's requests (R186): 0 real-time, 1 bulk. -/
def State.dmaClass (s : State) (d q : Nat) : Fin 4 := if s.flag F.waDmCtrl_rt [d, q] then 0 else 1

/-- An egress channel takes `n` beats (a header counts as one) and writes them at its position with tag `tag` (R189). -/
def State.dmaEgress (s : State) (d q tag n : Nat) : State :=
  let pkt := s.sqPkt d q
  let x := s.dmaCh d q
  let start := pkt && x.pktLeft.isNone
  let total := s.packetBeats d q
  let (bs, s) := takeBeats d q pkt (if start then n - 1 else n) s
  let all := if start then headerBeat total :: bs else bs
  let left :=
    if !pkt then none
    else
      let rest := (if start then total else x.pktLeft.getD 0) - bs.length
      if rest = 0 then none else some rest
  let (e, s) := s.engineIssue (dmaPort d q) ⟨tag, s.dmaClass d q, s.ringBase d q + x.issued, true, all, all.length, .retry⟩
  s.setDma d q { x with flight := x.flight ++ [e], pktLeft := left, issued := (x.issued + 16 * all.length) % s.ringSize d q }

/-- Beats the ring still has room for beyond what is issued (R186). -/
def State.dmaRoom (s : State) (d q : Nat) : Nat :=
  let size := s.ringSize d q
  ringGap size ((s.dmaCh d q).issued + 16) (s.ringHead d q)

/-- An ingress channel reads `n` beats at its position with tag `tag`. -/
def State.dmaIngress (s : State) (d q tag n : Nat) : State :=
  let x := s.dmaCh d q
  let (e, s) := s.engineIssue (dmaPort d q) ⟨tag, s.dmaClass d q, s.ringBase d q + x.issued, false, [], n, .retry⟩
  s.setDma d q { x with flight := x.flight ++ [e], issued := (x.issued + 16 * n) % s.ringSize d q }

/-- Whether a channel moves beats. -/
def State.dmaActive (s : State) (d q : Nat) : Bool := s.flag F.waDmCtrl_run [d, q] && s.runs 5 && !s.noc.drain && !s.pwr.stopIssue

/-- Beats that a queue's write side has room for. -/
def State.sqRoom (s : State) (d q : Nat) : Nat :=
  if s.sqRiser d q then riserSide - (s.riser d (s.sqSlot d q)).tail.length else s.sqDepth d q - s.sqWriteLevel d q

/-- Beats an ingress channel may fetch: in the ring, up to a 64-byte boundary, with room in the queue. -/
def State.dmaFetch (s : State) (d q : Nat) : Nat :=
  let x := s.dmaCh d q
  let ready := ringGap (s.ringSize d q) x.issued (s.ringTail d q)
  let fly := x.flight.foldl (fun t e => t + e.count) 0
  min (min ready (4 - x.issued / 16 % 4)) (s.sqRoom d q - fly)

/-- DMA_TRANSFER: a full 64-byte flit from an egress queue, or a read for an ingress queue (R189). -/
def execDmaTransfer (d : Fin 4) (q : Fin 64) (s : State) : Out :=
  match s.nextTag (dmaMaster d q) with
  | none => .next s
  | some tag =>
    if !s.dmaActive d q then .next s
    else if s.egress d q then
      if (s.dmaCh d q).issued % 64 = 0 ∧ 4 ≤ s.dmaReady d q ∧ 4 ≤ s.dmaRoom d q then .next (s.dmaEgress d q tag 4) else .next s
    else
      let n := s.dmaFetch d q
      if n = 0 then .next s else .next (s.dmaIngress d q tag n)

/-- DMA_PARTIAL_FLIT: fewer than four beats, at a packet's end or after 256 NoC cycles (R189). -/
def execDmaPartialFlit (d : Fin 4) (q : Fin 64) (s : State) : Out :=
  let n := min (min (s.dmaReady d q) (4 - (s.dmaCh d q).issued / 16 % 4)) (s.dmaRoom d q)
  match s.nextTag (dmaMaster d q) with
  | none => .next s
  | some tag => if s.dmaActive d q && s.egress d q && n != 0 then .next (s.dmaEgress d q tag n) else .next s

/-- The engine's pointer advances; with irq 1 it raises the queue's interrupt (R191). -/
def State.dmaAdvance (s : State) (d q p : Nat) : State :=
  let s := if s.egress d q then s.put F.waDmTail_ptr [d, q] (p / 16) else s.put F.waDmHead_ptr [d, q] (p / 16)
  if s.flag F.waDmCtrl_irq [d, q] then s.interrupt (.queue (64 * d + q)) else s

/-- A beat of the ring is done with: the offset acknowledged moves on. -/
def State.dmaPass (s : State) (d q : Nat) : State :=
  s.setDma d q { s.dmaCh d q with acked := ((s.dmaCh d q).acked + 16) % s.ringSize d q }

/-- Pass beats read from the ring to an ingress queue: headers are taken apart in packet mode, and a header of 0 beats
stops the channel at that header (R188; log entry 103); whether the channel goes on. -/
def passBeats (d q : Nat) : List Beat → State → Bool × State
  | [], s => (true, s)
  | b :: t, s =>
    if s.sqPkt d q then
      match (s.dmaCh d q).pktLeft with
      | none =>
        let n := b.data.toNat % 2 ^ 32
        if n = 0 then (false, s)
        else passBeats d q t ((s.setDma d q { s.dmaCh d q with pktLeft := some n }).dmaPass d q)
      | some n =>
        let s := (s.sqOffer d q { b with last := n == 1 } false).2
        passBeats d q t ((s.setDma d q { s.dmaCh d q with pktLeft := if n = 1 then none else some (n - 1) }).dmaPass d q)
    else passBeats d q t ((s.sqOffer d q b false).2.dmaPass d q)

/-- Whether the queue of an ingress channel takes what a read has brought: else the engine goes on holding it (R172, R176,
R188). -/
def State.dmaTakes (s : State) (d q n : Nat) : Bool :=
  s.sqEn d q && !(s.queue d q).flushing && ((s.sqPkt d q && (s.queue d q).dropping) || decide (n ≤ s.sqRoom d q))

/-- DMA_RESPONSE: the oldest request completes (R191); `lost` says that its master's timeout expired. -/
def execDmaResponse (d : Fin 4) (q : Fin 64) (lost : Bool) (s : State) : Out :=
  match (s.dmaCh d q).flight with
  | [] => .next s
  | e :: rest =>
    let c := if lost then Resp.terr else e.resp
    match c with
    | .retry =>
      let (e', s1) := s.engineIssue (dmaPort d q) e
      .next (s1.setDma d q { s1.dmaCh d q with flight := e' :: rest })
    | .ok =>
      let x := s.dmaCh d q
      if e.write then
        let p := (x.acked + 16 * e.count) % s.ringSize d q
        let s1 := s.setDma d q { x with flight := rest, acked := p }
        if !s.sqPkt d q || e.beats.any (·.last) then .next (s1.dmaAdvance d q p) else .next s1
      else if !s.dmaTakes d q e.count then .next s
      else
        let (on, s1) := passBeats d q e.beats (s.setDma d q { x with flight := rest })
        let s2 := s1.dmaAdvance d q (s1.dmaCh d q).acked
        .next (if on then s2 else s2.dmaStop d q .aerr)
    | _ => .next (s.dmaStop d q c)

/-! ## Risers (R192 to R197) -/

/-- The queue whose riser is riser `i` of die `d`. -/
def State.riserQueue (s : State) (d i : Nat) : Option Nat :=
  (List.range 64).find? (fun q => s.sqEn d q && s.sqRiser d q && s.sqSlot d q == i)

/-- mid_level follows the middle. -/
def State.syncRiser (s : State) (d i : Nat) : State := s.put F.waRsStat_midLevel [d, i] (s.riser d i).mid.length

/-- The master of the riser engine (R196). -/
def riserPort : Fin 64 := 63

/-- Beats in flight toward, and from, the middle. -/
def RiserSt.flying (r : RiserSt) (write : Bool) : Nat :=
  (r.flight.filter (fun e => e.write == write)).foldl (fun t e => t + e.count) 0

/-- Base of a riser's region. -/
def State.riserBase (s : State) (d i : Nat) : Nat := s.pair .waRsBaseLo .waRsBaseHi [d, i]

/-- The beats that the next spill flit of a riser carries, to the end of a 64-byte block: once the head is full and the tail holds
512 beats, and from then on until the middle is empty (R193); not while degraded (R197) or with the middle full (R195).  In packet
mode a tail whose oldest beat is not committed spills too, since none of it can pass to the head (R194; log entry 101). -/
def State.spillBeats (s : State) (d i : Nat) : List Beat :=
  match s.riserQueue d i with
  | none => []
  | some q =>
    let r := s.riser d i
    let x := s.queue d q
    let stuck := decide (riserSide ≤ x.beats.length) || (s.sqPkt d q && decide (x.commit ≤ x.beats.length))
    let start := s.flag F.waRsStat_spilling [d, i] || (stuck && decide (512 ≤ r.tail.length))
    let fly := r.flying true
    let n := 4 - r.wptr / 16 % 4
    let bs := (r.tail.drop fly).take n
    if start && !s.flag F.waRsStat_degraded [d, i] && bs.length == n && decide (r.mid.length + fly + n ≤ s.midCap d i) then bs else []

/-- The beats that the next refill flit of a riser brings back to the head, within a 64-byte block; in packet mode only committed
ones (R193, R194). -/
def State.refillBeats (s : State) (d i : Nat) : Nat :=
  match s.riserQueue d i with
  | none => 0
  | some q =>
    let r := s.riser d i
    let x := s.queue d q
    let fly := r.flying false
    let may := if s.sqPkt d q then x.commit - x.beats.length - fly else r.mid.length - fly
    min (min (r.mid.length - fly) may) (min (4 - (r.rptr / 16 + fly) % 4) (riserSide - x.beats.length - fly))

/-- Whether a riser, by its device-wide number, has work for the riser engine. -/
def State.riserWork (s : State) (k : Nat) : Bool :=
  !(s.spillBeats (k / 32) (k % 32)).isEmpty || s.refillBeats (k / 32) (k % 32) != 0

/-- Whether it is a riser's turn: no riser between the one served last and it has work (R196). -/
def State.riserTurn (s : State) (k : Nat) : Bool :=
  (List.range ((k + 127 - s.riserLast) % 128)).all (fun j => !s.riserWork ((s.riserLast + 1 + j) % 128))

/-- Whether the riser engine can issue. -/
def State.riserMoves (s : State) : Bool := s.runs 5 && !s.noc.drain

/-- RISER_SPILL_WRITE: a flit of the tail goes to the middle, when it is the riser's turn and, where a refill waits too, after a
refill (R193, R196). -/
def execRiserSpillWrite (d : Fin 4) (i : Fin 32) (s : State) : Out :=
  let bs := s.spillBeats d i
  let r := s.riser d i
  let k := 32 * d.val + i.val
  match s.nextTag 63 with
  | none => .next s
  | some tag =>
    if bs.isEmpty || !s.riserMoves || !s.riserTurn k || (r.spilled && s.refillBeats d i != 0) then .next s
    else
      let s1 := ({ s with riserLast := k } : State).raise F.waRsStat_spilling [d, i]
      let off := r.wptr % 2 ^ (s.get F.waRsCfg_size [d, i])
      let (e, s2) := s1.engineIssue riserPort ⟨tag, 1, s.riserBase d i + off, true, bs, bs.length, .retry⟩
      .next (s2.setRiser d i { s2.riser d i with
        flight := r.flight ++ [e], wptr := r.wptr + 16 * bs.length, spilled := true })

/-- RISER_REFILL_READ: a flit of the middle returns to the head, when it is the riser's turn and, where a spill waits too, after a
spill (R193, R196). -/
def execRiserRefillRead (d : Fin 4) (i : Fin 32) (s : State) : Out :=
  let n := s.refillBeats d i
  let r := s.riser d i
  let k := 32 * d.val + i.val
  match s.nextTag 63 with
  | none => .next s
  | some tag =>
    if n = 0 ∨ !s.riserMoves ∨ !s.riserTurn k ∨ (!r.spilled && !(s.spillBeats d i).isEmpty) then .next s
    else
      let s1 := ({ s with riserLast := k } : State)
      let off := (r.rptr + 16 * r.flying false) % 2 ^ (s.get F.waRsCfg_size [d, i])
      let (e, s2) := s1.engineIssue riserPort ⟨tag, 1, s.riserBase d i + off, false, [], n, .retry⟩
      .next (s2.setRiser d i { s2.riser d i with flight := r.flight ++ [e], spilled := false })

/-- When the middle is empty and nothing flies, direct passing resumes (R193). -/
def State.riserSettle (s : State) (d q i : Nat) : State :=
  let r := s.riser d i
  let s := if r.mid.isEmpty && r.flight.isEmpty then s.put F.waRsStat_spilling [d, i] 0 else s
  (s.syncRiser d i).riserPass d q

/-- RISER_RESPONSE: the oldest request completes (R197). -/
def execRiserResponse (d : Fin 4) (i : Fin 32) (lost : Bool) (s : State) : Out :=
  match s.riserQueue d i, (s.riser d i).flight with
  | some q, e :: rest =>
    let r := s.riser d i
    let c := if lost then Resp.terr else e.resp
    match c with
    | .retry =>
      let (e', s1) := s.engineIssue riserPort e
      .next (s1.setRiser d i { s1.riser d i with flight := e' :: rest })
    | _ =>
      if e.write then
        if c = .ok then
          let mid := r.mid ++ e.beats.map (·.last)
          let s1 := s.setRiser d i { r with flight := rest, tail := r.tail.drop e.count, mid := mid }
          .next (s1.riserSettle d q i)
        else
          let s1 := s.setRiser d i { r with flight := rest.filter (fun f => !f.write), wptr := r.rptr + 16 * r.mid.length }
          let s2 := (s1.raise F.waRsStat_wrErr [d, i]).raise F.waRsStat_degraded [d, i]
          .next ((s2.logEv d 1 i 0x0505 3 (leBytes 1 d ++ leBytes 1 i ++ leBytes 1 c.code)).riserSettle d q i)
      else
        let metas := r.mid.take e.count
        let good := c = .ok
        let data := if good then e.beats else bytesBeats [] e.count
        let bs := (data.zip metas).map (fun p => { p.1 with last := p.2, err := !good })
        let x := s.queue d q
        let s1 := s.setRiser d i { r with flight := rest, mid := r.mid.drop e.count, rptr := r.rptr + 16 * e.count }
        let s2 := s1.setQueue d q { x with beats := x.beats ++ bs, unseenW := x.unseenW + bs.length }
        let s3 := if good then s2
          else (s2.raise F.waRsStat_rdErr [d, i]).logEv d 1 i 0x0505 3 (leBytes 1 d ++ leBytes 1 i ++ leBytes 1 c.code)
        .next (s3.riserSettle d q i)
  | _, _ => .next s

end Sys2Proof.Machine
end

