-- ==== Sys2Proof/Machine/EccLog.lean ====
section
/-!
DEFINITION. Sys2Proof/Machine/EccLog.lean: leaking buckets, the raw test interface to every stored code, parity
injection, and the log ring with its read ports (R423 to R438, R564).
-/

namespace Sys2Proof.Machine

/-! ## Buckets (R423, R425) -/

/-- A bucket leaks at a multiple of 2^leak µs of the hub timebase; leak 31 never does. -/
def State.leakBucket (s : State) (b : Nat) : State :=
  let k := s.get F.eccBktCfg_leak [b]
  let c := s.get F.eccBktStat_count [b]
  if k < 31 ∧ s.now 8 % (1000 * 2 ^ k) = 0 ∧ c ≠ 0 then s.put F.eccBktStat_count [b] (c - 1) else s

/-- BUCKET_LEAK: every nonzero bucket whose interval ends at the present count drops by 1 (R423). -/
def execBucketLeak (s : State) : Out := .next ((List.range 96).foldl (fun t b => t.leakBucket b) s)

/-- A write to ECC_PINJ; PARITY_INJECT arms it (R429). -/
def execParityInject (src : Src) (w : Word32) (s : State) : Out :=
  .next (s.regAct src .eccPinj [] (F.eccPinj_arm.put w 1) (·.writeReg .eccPinj [] (F.eccPinj_arm.put w 1)))

/-! ## The log ring (R432 to R438) -/

/-- A codeword of the ring, 4 * slot + codeword. -/
def State.ringCw (s : State) (i : Nat) : BitVec 72 := SMap.get 0#72 s.log.ring i
def State.setRingCw (s : State) (i : Nat) (v : BitVec 72) : State :=
  { s with log := { s.log with ring := SMap.set 0#72 s.log.ring i v } }

/-- Sequence numbers of the ring. -/
def State.wseq (s : State) : Nat := s.get F.logWseq_seq []
def State.pseq (s : State) : Nat := s.get F.logPseq_seq []

/-- The distance from one sequence number to another, modulo 2^32. -/
def seqDist (w q : Nat) : Nat := (BitVec.ofNat 32 w - BitVec.ofNat 32 q).toNat

/-- Entry q is held while (LOG_WSEQ - q) mod 2^32 lies from 1 to 4,096 (R435). -/
def State.logHolds (s : State) (q : Nat) : Bool :=
  decide (1 ≤ seqDist s.wseq q ∧ seqDist s.wseq q ≤ 4096)

/-- Store the four codewords of an entry in its slot. -/
def State.putEntry (s : State) (q : Nat) (bytes : List Byte) : State :=
  (List.range 4).foldl (fun t k => t.setRingCw (4 * (q % 4096) + k) (enc72 (leNat (slice bytes (8 * k) 8)))) s

/-- The ring accepts an entry (R434, R435): it overwrites q - 4,096, which is lost when it had not been persisted; the
log interrupt is raised at irq_sev and above (R436). -/
def State.acceptEntry (s : State) (e : LogEntry) : State :=
  let q := s.wseq
  let s := if 4096 ≤ seqDist q s.pseq then s.countUp F.logStat_lost [] else s
  let s := (s.putEntry q e.bytes).put F.logWseq_seq [] (q + 1)
  if s.get F.logCfg_irqSev [] ≤ e.sev then s.interrupt .log else s

/-- LOG_ENTRY_ACCEPT: the ring takes the next queued entry. -/
def execLogEntryAccept (s : State) : Out :=
  match s.log.queue with
  | [] => .next s
  | e :: t => .next (({ s with log := { s.log with queue := t } } : State).acceptEntry e)

/-- What a read of a codeword delivers: the data, whether it was corrected (counted in bucket `b` and written back by `back`),
whether it was uncorrectable (R422). -/
def State.counted (s : State) (b : Nat) (r : SecRead) (back : State → Nat → State) : Nat × Bool × Bool × State :=
  match r with
  | .clean v => (v, false, false, s)
  | .fixed v => (v, true, false, back (s.bucket b) v)
  | .bad v => (v, false, true, s)

/-- Read a ring codeword: corrected and counted, or as stored where it is uncorrectable. -/
def State.ringRead (s : State) (i : Nat) : Nat × Bool × Bool × State :=
  s.counted 75 (dec72 (s.ringCw i)) (fun s v => s.setRingCw i (enc72 v))

/-- The 32 bytes of entry q, with whether a codeword was uncorrectable. -/
def State.readEntry (s : State) (q : Nat) : List Byte × Bool × State :=
  (List.range 4).foldl (fun (bs, ue, t) k =>
    let (v, _, bad, t) := t.ringRead (4 * (q % 4096) + k)
    (bs ++ leBytes 8 v, ue || bad, t)) ([], false, s)

/-- What LOG_RDp shows of entry q: its bytes, or zeros where it is not held. -/
def State.logRead (s : State) (q : Nat) : List Byte × Bool × State :=
  if s.logHolds q then s.readEntry q else (List.replicate 32 0#8, false, s)

/-- Fill read port p (R437). -/
def State.showEntry (s : State) (p q : Nat) (gone : Bool) (bs : List Byte) (ue : Bool) : State :=
  let s2 := ((s.put F.logRdseq_seq [p] q).put F.logRdflg_gone [p] (b2n gone)).put F.logRdflg_ue [p] (b2n ue)
  (List.range 8).foldl (fun t k => t.setReg .logRd [p, k] (BitVec.ofNat 32 (leNat (slice bs (4 * k) 4)))) s2

/-- A write to LOG_RDSEQp (R437). -/
def State.logCopy (s : State) (p q : Nat) : State :=
  let r := s.logRead q
  r.2.2.showEntry p q (!s.logHolds q) r.1 r.2.1

def execLogReadCopy (src : Src) (p : Fin 4) (q : Word32) (s : State) : Out := .next (s.regAct src .logRdseq [p] q (·.logCopy p q.toNat))

/-- One entry goes to the flash log area verbatim, and LOG_PSEQ steps past it; entries no longer held are skipped (R438). -/
def State.persistOne (s : State) : State :=
  let q := s.pseq
  if q = s.wseq then s
  else if s.logHolds q then
    let (bs, _, s) := s.readEntry q
    ({ s with log := { s.log with flash := s.log.flash ++ [(q, bs)] } } : State).put F.logPseq_seq [] (q + 1)
  else s.put F.logPseq_seq [] (s.wseq + 2 ^ 32 - 4096)

/-- LOG_PERSIST: MC firmware erases the `erased` oldest records and writes up to `n` entries (R438). -/
def execLogPersist (n : Fin 4097) (erased : Nat) (s : State) : Out :=
  if !s.pwr.mcRuns then .next s
  else
    let s1 := { s with log := { s.log with flash := s.log.flash.drop erased } }
    .next ((List.range n.val).foldl (fun t _ => State.persistOne t) s1)

/-! ## Raw test access (R427, R428) -/

/-- The stored item that ECC_RTSEL and ECC_RTADDR name. -/
inductive RtPlace where
  | tile (d t cw : Nat)
  | sig (d f : Nat)
  | sram (w : Nat)
  | digest (i : Nat)
  | ring (i : Nat)
  | block (b : Nat)
deriving DecidableEq, Repr

/-- Resolve the selection; none where it names nothing. -/
def State.rtPlace (s : State) : Option RtPlace :=
  let a := s.pair .eccRtaddrLo .eccRtaddrHi [] % 2 ^ 48
  match s.get F.eccRtsel_target [] with
  | 1 =>
    match tileWindow a with
    | some (d, t, o) =>
      if 0x2000 ≤ o ∧ o < 0x3000 ∧ o % 256 < 0x88 ∧ o % 8 = 0 then some (.tile d t (cwMould ((o - 0x2000) / 256) (o % 256 / 8))) else none
    | none => none
  | 2 =>
    match tileWindow a with
    | some (d, t, o) => if 0x3000 ≤ o ∧ o < 0x3100 ∧ o % 4 = 0 then some (.tile d t (272 + (o - 0x3000) / 4)) else none
    | none => none
  | 3 => if a < 49152 then some (.sig (s.get F.eccRtsel_die []) a) else none
  | 4 => if a < 131072 then some (.sram a) else none
  | 5 => if a < 4 * 24576 then some (.digest a) else none
  | 6 => if a < 4 * 4096 then some (.ring a) else none
  | 7 => if !isHbm a && s.dramHas a then some (.block (a / 64)) else none
  | 8 => if isHbm a then some (.block (a / 64)) else none
  | _ => none

/-- Data bytes of the item a place names. -/
def RtPlace.width : RtPlace → Nat
  | .tile _ _ cw => if cw < 272 then 8 else 4
  | .sig _ _ => 6
  | .sram _ => 4
  | .digest _ => 8
  | .ring _ => 8
  | .block _ => 64

/-- Signature, digest and SRAM stores. -/
def State.sig (s : State) (d f : Nat) : BitVec 53 := SMap.get 0#53 s.fab.sigs (49152 * d + f)
def State.setSig (s : State) (d f : Nat) (v : BitVec 53) : State :=
  { s with fab := { s.fab with sigs := SMap.insert s.fab.sigs (49152 * d + f) v } }
def State.digestCw (s : State) (i : Nat) : BitVec 72 := SMap.get 0#72 s.fab.digests i
def State.setDigestCw (s : State) (i : Nat) (v : BitVec 72) : State :=
  { s with fab := { s.fab with digests := SMap.set 0#72 s.fab.digests i v } }
def State.sramWord (s : State) (w : Nat) : BitVec 39 := SMap.get 0#39 s.pwr.sram w
def State.setSramWord (s : State) (w : Nat) (v : BitVec 39) : State :=
  { s with pwr := { s.pwr with sram := SMap.set 0#39 s.pwr.sram w v } }

/-- The stored check bits of a DRAM block (R380, R385): those of its code, inverted where they fail, or the poison
pattern. -/
def State.blockCheck (s : State) (b : Nat) : BitVec 128 :=
  let m := s.bmeta b
  let d := s.blockBytes b
  if m.poison && !m.byParity then Config.poisonPattern (isHbm (64 * b))
  else if m.byParity then
    (BitVec.ofNat 128 ((List.range 64).foldl (fun t i => t + 2 ^ i * oddPar 8 (d.getD i 0#8).toNat) 0)) ^^^
      (if m.poison then BitVec.allOnes 64 else m.badPar).setWidth 128
  else rsCheck (isHbm (64 * b)) d ^^^ m.delta

/-- The stored data and check bits of an item, as numbers. -/
def State.rtRaw (s : State) : RtPlace → Nat × Nat
  | .tile d t cw =>
    let w := s.die d
    if cw < 272 then let v := (SMap.get 0#72 w.mould (272 * t + cw)).toNat; (v % 2 ^ 64, v / 2 ^ 64)
    else
      let v := (if cw < 304 then SMap.get 0#39 w.sched (32 * t + (cw - 272)) else SMap.get 0#39 w.stage (32 * t + (cw - 304))).toNat
      (v % 2 ^ 32, v / 2 ^ 32)
  | .sig d f => let v := (s.sig d f).toNat; (v % 2 ^ 46, v / 2 ^ 46)
  | .sram w => let v := (s.sramWord w).toNat; (v % 2 ^ 32, v / 2 ^ 32)
  | .digest i => let v := (s.digestCw i).toNat; (v % 2 ^ 64, v / 2 ^ 64)
  | .ring i => let v := (s.ringCw i).toNat; (v % 2 ^ 64, v / 2 ^ 64)
  | .block b => (leNat (s.blockBytes b), (s.blockCheck b).toNat)

/-- Store data and check bits as given. -/
def State.rtStore (s : State) (p : RtPlace) (data chk : Nat) : State :=
  match p with
  | .tile d t cw =>
    let v : BitVec 72 := if cw < 272 then BitVec.ofNat 72 (data % 2 ^ 64 + 2 ^ 64 * (chk % 256)) else BitVec.ofNat 72 (data % 2 ^ 32 + 2 ^ 32 * (chk % 128))
    let w := (s.die d).putCw t cw v
    let x := w.tile t
    s.setDie d (w.setTile t { x with wb := x.wb.filter (fun e => e.1 != cw), logged := x.logged.filter (· != cw) })
  | .sig d f => s.setSig d f (BitVec.ofNat 53 (data % 2 ^ 46 + 2 ^ 46 * (chk % 128)))
  | .sram w => s.setSramWord w (BitVec.ofNat 39 (data % 2 ^ 32 + 2 ^ 32 * (chk % 128)))
  | .digest i => s.setDigestCw i (BitVec.ofNat 72 (data % 2 ^ 64 + 2 ^ 64 * (chk % 256)))
  | .ring i => s.setRingCw i (BitVec.ofNat 72 (data % 2 ^ 64 + 2 ^ 64 * (chk % 256)))
  | .block b =>
    let d := leBytes 64 data
    let m := s.bmeta b
    let par := s.byParity (64 * b)
    let good : BitVec 64 := BitVec.ofNat 64 ((List.range 64).foldl (fun t i => t + 2 ^ i * oddPar 8 (d.getD i 0#8).toNat) 0)
    let m' : BlockMeta :=
      if par then { byParity := true, poison := m.poison, delta := 0#128, badPar := BitVec.ofNat 64 chk ^^^ good }
      else { byParity := false, poison := m.poison, delta := BitVec.ofNat 128 chk ^^^ rsCheck (isHbm (64 * b)) d, badPar := 0#64 }
    s.putBlock b d m'

/-- Read a codeword of the chunk digest store (R325, R422). -/
def State.digestRead (s : State) (i : Nat) : Nat × Bool × Bool × State :=
  s.counted 75 (dec72 (s.digestCw i)) (fun s v => s.setDigestCw i (enc72 v))

/-- A read of a stored signature: a corrected one is counted and written back (R428). -/
def State.sigChecked (s : State) (d f : Nat) (r : SecRead) : Nat × Bool × Bool × State :=
  match r with
  | .clean v => (v, false, false, s)
  | .fixed v => (v, true, false, ((s.raise F.ftlStat_sigCe [d]).bucket (16 * d + 7)).setSig d f (enc53 v))
  | .bad v => (v, false, true, s.raise F.ftlStat_sigUe [d])

/-- A checked read: counts, corrects and logs as a normal read of the store (R428): the data, and whether it was
corrected or uncorrectable. -/
def State.rtChecked (s : State) (requester : Nat) (p : RtPlace) : Nat × Bool × Bool × State :=
  match p with
  | .tile d t cw =>
    match (s.die d).readCw t cw with
    | .clean v => (v, false, false, s)
    | .fixed v => (v, true, false, s.corrected d t cw v)
    | .bad v => (v, false, true, s.foundUe d t cw)
  | .sig d f => s.sigChecked d f (dec53 (s.sig d f))
  | .sram w => s.counted 74 (dec39 (s.sramWord w)) (fun s v => s.setSramWord w (enc39 v))
  | .digest i => s.digestRead i
  | .ring i => s.ringRead i
  | .block b =>
    match s.memUnit (64 * b) with
    | none => (leNat (s.blockBytes b), false, true, s)
    | some u =>
      let fixed := match s.decodeBlock b with
        | .fixed _ => true
        | _ => false
      let (c, d, _, s1) := s.readBlock u b requester
      (leNat d, fixed, c != .ok, s1)

/-- The bytes of ECC_RTBUF: data at 0 to 63, check bits from 64. -/
def State.rtBuf (s : State) : Nat × Nat :=
  let f := fun (o n : Nat) => leNat ((List.range n).map (fun k => leBytes 4 (s.reg .eccRtbuf [o + k]).toNat)).flatten
  (f 0 16, f 16 4)

def State.setRtData (s : State) (n v : Nat) : State :=
  (List.range ((n + 3) / 4)).foldl (fun t k => t.setReg .eccRtbuf [k] (BitVec.ofNat 32 (v / 2 ^ (32 * k)))) s
def State.setRtCheck (s : State) (v : Nat) : State :=
  (List.range 4).foldl (fun t k => t.setReg .eccRtbuf [16 + k] (BitVec.ofNat 32 (v / 2 ^ (32 * k)))) s

/-- Record the end of a command. -/
def State.rtDone (s : State) (code : Resp) (sbit dbit : Bool) : State :=
  ((s.put F.eccRtcmd_resp [] code.code).put F.eccRtcmd_sbit [] (b2n sbit)).put F.eccRtcmd_dbit [] (b2n dbit)

/-- The code a command completes with instead of acting: AERR where the selection names nothing or R160 refuses a raw
write, TERR where the die's word array is stopped. -/
def State.rtRefuse (s : State) (op : Nat) : Option Resp :=
  match s.rtPlace with
  | none => some .aerr
  | some (.tile d t cw) =>
    if !s.tileServed d then some .terr
    else if op = 1 ∧ !s.openTile d t ∧ ((cw < 272 ∧ slotNamed (s.die d) t (cw / 17)) ∨ (272 ≤ cw ∧ cw < 304)) then some .aerr
    else none
  | some (.block b) =>
    match s.dramGate (64 * b) with
    | .failed _ => some .derr
    | .absent => some .aerr
    | _ => none
  | some _ => none

/-- Whether a raw access to a stored item waits: a DRAM block's comes after the requests that its queue holds for the block, and once
the unit grants credit (R388, R428). -/
def State.rtWaits (s : State) : RtPlace → Bool
  | .block b => s.dramGate (64 * b) == .wait || s.dram.held.any (fun h => h.req.addr.toNat / 64 == b)
  | _ => false

/-- An ECC_RTCMD command: 1 raw write, 2 raw read, 3 checked read (R427, R428); ignored while one is in progress. -/
def State.rtCommand (s : State) (requester op : Nat) : State :=
  let sb := s.flag F.eccRtcmd_sbit []
  let db := s.flag F.eccRtcmd_dbit []
  if op = 0 ∨ s.flag F.eccRtcmd_busy [] then s
  else
  match s.rtRefuse op, s.rtPlace with
  | some c, _ => s.rtDone c sb db
  | none, none => s
  | none, some p =>
    if s.rtWaits p then ({ s with dram := { s.dram with rtcmd := some (requester, op) } } : State).raise F.eccRtcmd_busy []
    else
    match op with
    | 1 => let (d, c) := s.rtBuf; (s.rtStore p d c).rtDone .ok sb db
    | 2 => let (d, c) := s.rtRaw p; ((s.setRtData p.width d).setRtCheck c).rtDone .ok sb db
    | 3 =>
      let (d, sbit, dbit, s1) := s.rtChecked requester p
      (s1.setRtData p.width d).rtDone .ok sbit dbit
    | _ => s

/-- A command of ECC_RTCMD in progress is tried again. -/
def State.rtResume (s : State) : State :=
  match s.dram.rtcmd with
  | some (q, op) => (({ s with dram := { s.dram with rtcmd := none } } : State).put F.eccRtcmd_busy [] 0).rtCommand q op
  | none => s

/-- Who may write the raw test interface: requesters 10 and 11, target 4 only requester 10 (R428). -/
def State.rtMay (s : State) (src : Src) : Bool :=
  src.requester == 10 || (src.requester == 11 && s.get F.eccRtsel_target [] != 4)

/-- RAW_WRITE, RAW_READ, CHECKED_READ: ECC_RTCMD op 1, 2, 3. -/
def State.rtWrite (s : State) (src : Src) (op : Nat) : State :=
  if s.rtMay src then s.regAct src .eccRtcmd [] (F.eccRtcmd_op.put 0#32 op) (·.rtCommand src.requester op) else s.answer src .serr

def execRawWrite (src : Src) (s : State) : Out := .next (s.rtWrite src 1)
def execRawRead (src : Src) (s : State) : Out := .next (s.rtWrite src 2)
def execCheckedRead (src : Src) (s : State) : Out := .next (s.rtWrite src 3)

end Sys2Proof.Machine
end

