-- ==== Sys2Proof/Machine/Mailbox.lean ====
section
/-!
DEFINITION. Sys2Proof/Machine/Mailbox.lean: the 32 mailbox channels, their notifications, timeouts and resets, and the log
service (R487 to R498, R565).
-/

namespace Sys2Proof.Machine

/-! ## Channels -/

/-- What a channel holds outside its registers. -/
def State.mbxOf (s : State) (c : Nat) : MbxSt := SMap.get default s.mbx c
def State.setMbx (s : State) (c : Nat) (x : MbxSt) : State := { s with mbx := SMap.set default s.mbx c x }

/-- Whether an access reaches a channel: channels 0 to 7 need sec 1 (R487); device engines use none (R488). -/
def State.mbxReach (s : State) (q : Src) (c : Nat) : Bool := (8 ≤ c || s.secure q) && q.requester != 0

/-- Interrupt source 16 + c of the cores is the level of their conditions (R493, R527); the other sources as raised; a
source that a core has claimed is pending again only once the core has completed it. -/
def State.mbxLevel (s : State) (c : Nat) : Bool := [2, 3, 4, 5].any (fun n => s.mbxIrq n c || s.mbxNtf n c)
def State.plicPending (s : State) : BitVec 512 :=
  (s.plic ||| BitVec.ofNat 512 ((List.range 32).foldl (fun t c => t + 2 ^ (16 + c) * b2n (s.mbxLevel c)) 0)) &&& ~~~s.plicBusy

/-- MSI-X vector 16 + c toward the host, once the data link layer is up (R493, R494). -/
def State.mbxVector (s : State) (c : Nat) : State :=
  if s.flag F.pciStat_dlUp [] then s.sendMsix (16 + c) else s.setMbx c { s.mbxOf c with owed := true }

/-- Notify the receiver of a posted message, and the owner of done, timeout or lost. -/
def State.mbxToRcv (s : State) (c : Nat) : State := if s.mbxRcv c = 1 then s.mbxVector c else s
def State.mbxToOwner (s : State) (c n : Nat) : State := if n = 1 then s.mbxVector c else s

/-- A log entry of the mailboxes (class 0x0A). -/
def State.mbxLog (s : State) (event c a b : Nat) : State :=
  s.logEv 8 13 0 event 2 (leBytes 1 c ++ leBytes 1 a ++ leBytes 1 b)

/-- Enter a state: leaving posted ends its timeout and a vector still owed for it. -/
def State.mbxEnter (s : State) (c st : Nat) : State :=
  let s := s.put F.mbxStat_state [c] st
  if st = 2 then s else s.setMbx c { s.mbxOf c with due := 0, owed := false }

/-- The channel becomes free. -/
def State.mbxFree (s : State) (c : Nat) : State :=
  let s := (s.mbxEnter c 0).put F.mbxStat_owner [c] 0
  (s.setMbx c { s.mbxOf c with orphan := false })

/-! ## Lock (R490) -/

/-- A read of MBX_CHc_LOCK by requester `n`. -/
def State.lockRead (s : State) (n c : Nat) (peek : Bool) : Nat × State :=
  if peek then (s.mbxOwner c, s)
  else if s.mbxState c = 0 then (0, ((s.mbxEnter c 1).put F.mbxStat_owner [c] n))
  else (if s.mbxOwner c = n then 0 else s.mbxOwner c, s)

/-- LOCK_READ. -/
def execLockRead (src : Src) (c : Fin 32) (s : State) : Out :=
  if !s.mbxReach src c then .next (s.answer src .serr)
  else
    let (v, s1) := s.lockRead src.requester c src.peeks
    .next (s1.answerWord src (BitVec.ofNat 32 v))

/-- A write to MBX_CHc_LOCK. -/
def State.lockWrite (s : State) (n c : Nat) : State :=
  if s.mbxState c ≠ 0 ∧ s.mbxState c ≠ 3 ∧ s.mbxOwner c = n then s.mbxFree c else s

/-- LOCK_RELEASE. -/
def execLockRelease (src : Src) (c : Fin 32) (s : State) : Out :=
  if s.mbxReach src c then .next (s.regAct src .mbxLock [c] 0#32 (·.lockWrite src.requester c)) else .next (s.answer src .serr)

/-! ## Control (R489, R491, R492) -/

/-- Length as stored: 8 to 16. -/
def mbxLen (v : Nat) : Nat := min 16 (max 8 v)
def State.setLen (s : State) (c v : Nat) : State := s.put F.mbxStat_len [c] (mbxLen v)

/-- Stamp the hub timebase in a pair of registers. -/
def State.stamp (s : State) (lo hi : RegName) (c : Nat) : State :=
  let t := s.now 8
  (s.setReg lo [c] (BitVec.ofNat 32 t)).setReg hi [c] (BitVec.ofNat 32 (t / 2 ^ 32))

/-- The time from go to take that MBX_CHc_CFG sets, in ns; 0 none (R495). -/
def State.mbxTimeout (s : State) (c : Nat) : Nat :=
  s.get F.mbxCfg_tmo [c] * (if s.flag F.mbxCfg_unit [c] then 1000000 else 1000)

/-- go: posted, stamped, the timeout starts, a stopped receiver is woken, the receiver is notified (R492, R494). -/
def State.mbxGo (s : State) (c len : Nat) : State :=
  let s := ((s.setLen c len).mbxEnter c 2).stamp .mbxTgoLo .mbxTgoHi c
  let t := s.mbxTimeout c
  let s := s.setMbx c { s.mbxOf c with due := if t = 0 then 0 else s.now 8 + t + 1 }
  let n := s.mbxRcv c
  let s := if !s.gateOn (rcvDomain n) && s.mode != 0 then s.wake 2 else s
  s.mbxToRcv c

/-- done: the reply's length, the stamp, and the owner's notification; the message of an owner that was reset is discarded
and the channel becomes free with lost set (R492, R565). -/
def State.mbxDone (s : State) (c len : Nat) : State :=
  let o := s.mbxOwner c
  let s := (s.setLen c len).stamp .mbxTdoneLo .mbxTdoneHi c
  if (s.mbxOf c).orphan then
    (((s.mbxLog 0x0A03 c o 3).raise F.mbxStat_lost [c]).mbxFree c).mbxToOwner c o
  else ((s.mbxEnter c 4).mbxToOwner c o)

/-- A write to MBX_CHc_CTRL by requester `n`; none where it completes with SERR. -/
def State.ctrlWrite (s : State) (n c : Nat) (w : Word32) : Option State :=
  let len := F.mbxCtrl_len.of w
  let st := s.mbxState c
  let own := s.mbxOwner c == n
  let rcv := s.mbxRcv c == n
  match wordField w 31 28 with
  | 0 => some s
  | 8 => if st = 1 ∧ own then some (s.mbxGo c len) else none
  | 4 => if st = 2 ∧ rcv then some ((s.mbxEnter c 3)) else none
  | 2 => if st = 3 ∧ rcv then some (s.mbxDone c len) else none
  | 1 => if st = 2 ∧ own then some ((s.mbxEnter c 1)) else none
  | _ => none

/-- A write to CTRL as a command. -/
def State.ctrlCommand (s : State) (q : Src) (c : Nat) (w : Word32) : State :=
  if s.mbxReach q c then
    match s.ctrlWrite q.requester c w with
    | some s1 => s.regAct q .mbxCtrl [c] w (fun _ => s1)
    | none => s.answer q .serr
  else s.answer q .serr

/-- GO, TAKE, DONE, WITHDRAW. -/
def execGo (src : Src) (c : Fin 32) (len : BitVec 5) (s : State) : Out :=
  .next (s.ctrlCommand src c (0x80000000#32 ||| len.setWidth 32))
def execTake (src : Src) (c : Fin 32) (s : State) : Out := .next (s.ctrlCommand src c 0x40000000#32)
def execDone (src : Src) (c : Fin 32) (len : BitVec 5) (s : State) : Out :=
  .next (s.ctrlCommand src c (0x20000000#32 ||| len.setWidth 32))
def execWithdraw (src : Src) (c : Fin 32) (s : State) : Out := .next (s.ctrlCommand src c 0x10000000#32)

/-- The word CTRL reads: go is 1 in state 2, len the stored length. -/
def State.ctrlRead (s : State) (c : Nat) : Word32 :=
  BitVec.ofNat 32 (2 ^ 31 * b2n (s.mbxState c == 2) + s.get F.mbxStat_len [c])

/-! ## The other registers (R489) -/

/-- A write to MBX_CHc_STAT; none where it completes with SERR. -/
def State.statWrite (s : State) (n c : Nat) (w : Word32) : Option State :=
  if n = 10 ∨ n = 11 ∨ s.mbxState c = 0 ∨ s.mbxOwner c = n then some ((s.writeReg .mbxStat [c] w)) else none

/-- A write to MBX_CHc_DATAk. -/
def State.dataWrite (s : State) (n c k : Nat) (w : Word32) : Option State :=
  if (s.mbxState c = 1 ∧ s.mbxOwner c = n) ∨ (s.mbxState c = 3 ∧ s.mbxRcv c = n) then some (s.setReg .mbxData [c, k] w) else none

/-- Whether a requester may read MBX_CHc_DATAk. -/
def State.dataReads (s : State) (n c : Nat) : Bool :=
  n == 10 || n == 11 || s.mbxRcv c == n || (s.mbxState c != 0 && s.mbxOwner c == n)

/-- Force: a channel that is not free becomes free, and it is logged (R565). -/
def State.mbxForce (s : State) (c : Nat) : State :=
  if s.mbxState c = 0 then s else (s.mbxLog 0x0A02 c (s.mbxOwner c) (s.mbxState c)).mbxFree c

/-- A write to MBX_CHc_CFG: force first, then rcv in state 0, then tmo and unit. -/
def State.mbxCfgWrite (s : State) (c : Nat) (w : Word32) : State :=
  let s := if F.mbxCfg_force.of w = 1 then s.mbxForce c else s
  let r := F.mbxCfg_rcv.of w
  let r := if c < 8 ∧ (r = 1 ∨ (6 ≤ r ∧ r ≤ 9)) then 10 else r
  let s := (s.put F.mbxCfg_tmo [c] (F.mbxCfg_tmo.of w)).put F.mbxCfg_unit [c] (F.mbxCfg_unit.of w)
  if s.mbxState c = 0 then ((s.put F.mbxCfg_rcv [c] r).put F.mbxStat_rcv [c] r) else s

/-- FORCE. -/
def execForce (src : Src) (c : Fin 32) (s : State) : Out :=
  if s.mbxReach src c then .next (s.command src .mbxCfg [c] (s.reg .mbxCfg [c] ||| 0x80000000#32) (·.mbxCfgWrite c (s.reg .mbxCfg [c] ||| 0x80000000#32)))
  else .next (s.answer src .serr)

/-- Bit c of MBX_POSTED. -/
def State.postedWord (s : State) : Word32 :=
  BitVec.ofNat 32 ((List.range 32).foldl (fun t c => t + 2 ^ c * b2n (s.mbxState c == 2)) 0)

/-! ## Timeout and resets (R495, R565) -/

/-- Whether a posted message has timed out. -/
def State.mbxExpired (s : State) (c : Nat) : Bool :=
  s.mbxState c == 2 && (s.mbxOf c).due != 0 && decide ((s.mbxOf c).due ≤ s.now 8 + 1)

/-- MAILBOX_TIMEOUT. -/
def execMailboxTimeout (c : Fin 32) (s : State) : Out :=
  if s.mbxExpired c then
    let o := s.mbxOwner c
    let s1 := ((s.mbxEnter c 1).raise F.mbxStat_tmo [c]).mbxLog 0x0A01 c o (s.mbxRcv c)
    .next ((s1.mbxToOwner c o))
  else .next s

/-- One channel at a reset of requester `n`: its role as owner, then as receiver. A requester that had sent to itself
loses the message and the lock. -/
def State.mbxResetOne (n : Nat) (s : State) (c : Nat) : State :=
  let st := s.mbxState c
  let own := st ≠ 0 ∧ s.mbxOwner c = n
  let lost (s : State) := (s.mbxLog 0x0A03 c n 3).raise F.mbxStat_lost [c]
  if st = 3 ∧ s.mbxRcv c = n then
    let o := s.mbxOwner c
    if own ∨ (s.mbxOf c).orphan then ((lost s).mbxFree c).mbxToOwner c o
    else (((lost s).mbxEnter c 4).mbxToOwner c o)
  else if own then
    if st = 3 then s.setMbx c { s.mbxOf c with orphan := true } else s.mbxFree c
  else s

/-- MAILBOX_REQUESTER_RESET (R497, R565). -/
def State.mbxReset (s : State) (n : Nat) : State := (List.range 32).foldl (State.mbxResetOne n) s

/-! ## Services of MC firmware (R498, R518) -/

/-- Whether MC firmware serves a posted message on channel 0 or 8. -/
def State.mcServes (s : State) (c : Nat) : Bool :=
  s.pwr.mcRuns && !s.pwr.mcHalted && s.mbxState c == 2 && s.mbxRcv c == 10 && (c == 0 || c == 8)

/-- DATAk of a channel; two neighbours as one 64-bit number; `n` neighbours as bytes. -/
def State.mbxWord (s : State) (c k : Nat) : Nat := (s.reg .mbxData [c, k]).toNat
def State.mbxPair (s : State) (c k : Nat) : Nat := s.mbxWord c k + 2 ^ 32 * s.mbxWord c (k + 1)
def State.mbxBytes (s : State) (c k n : Nat) : List Byte := ((List.range n).map (fun i => leBytes 4 (s.mbxWord c (k + i)))).flatten

/-- MC firmware takes the message, writes the reply and done. -/
def State.mbxReply (s : State) (c len : Nat) (words : List Nat) : State :=
  let s := (s.mbxEnter c 3)
  let s := ((List.range words.length).zip words).foldl (fun s p => s.setReg .mbxData [c, p.1] (BitVec.ofNat 32 p.2)) s
  s.mbxDone c len

/-- The requests MC firmware knows. -/
def knownService (c v : Nat) : Bool :=
  [0x20001, 0x30001, 0x40001, 0x40002].contains v || (c == 8 && v == 0x10001) || (c == 0 && v == 0x50001)

/-- LOG_SERVICE: a request on channel 8 returns one persisted entry; an unknown service is answered 0xFFFF_FFFF. -/
def execLogService (c : Fin 9) (busy : Bool) (s : State) : Out :=
  if !s.mcServes c then .next s
  else if !knownService c (s.mbxWord c 0) then .next (s.mbxReply c 8 [0xFFFFFFFF])
  else if s.mbxWord c 0 ≠ 0x10001 then .next s
  else
    let q := s.mbxWord c 1
    let zeros := List.replicate 8 0
    if busy then .next (s.mbxReply c 10 ([2, q] ++ zeros))
    else
      match (s.log.flash.filter (fun e => e.1 == q)).getLast? with
      | some e => .next (s.mbxReply c 10 ([0, q] ++ (List.range 8).map (fun k => leNat ((e.2.drop (4 * k)).take 4))))
      | none => .next (s.mbxReply c 10 ([1, q] ++ zeros))

end Sys2Proof.Machine
end

