-- ==== Sys2Proof/Machine/Loader.lean ====
section
/-!
DEFINITION. Sys2Proof/Machine/Loader.lean: casting images and their checks, the sources of a load, chunks, failures and
unloading (R283 to R305, R308 to R310, R317, R325).
-/

namespace Sys2Proof.Machine

/-! ## Bytes and headers (R283, R284) -/

/-- A little-endian field of a byte string. -/
def fieldAt (l : List Byte) (o n : Nat) : Nat := leNat (slice l o n)

/-- Whether every byte of a range is 0. -/
def zeroAt (l : List Byte) (o n : Nat) : Bool := (slice l o n).all (· == 0#8)

/-- Fields of a header. -/
def hKind (h : List Byte) : Nat := fieldAt h 0x9 1
def hSlot (h : List Byte) : Nat := fieldAt h 0xB 1
def hPlace (h : List Byte) : Nat := fieldAt h 0xD 1
def hMask (h : List Byte) : List Nat := (List.range 4).filter (fun d => (fieldAt h 0xE 1).testBit d)
def hFollower (h : List Byte) : Nat := fieldAt h 0xF 1
def hOrder (h : List Byte) : Nat := fieldAt h 0x10 2
def hBody (h : List Byte) : Nat := fieldAt h 0x18 8
def hChunks (h : List Byte) : Nat := fieldAt h 0x20 4

/-- Bytes of header, table and padding; bytes of the whole image. -/
def tableEnd (h : List Byte) : Nat := (512 + 32 * hChunks h + 511) / 512 * 512
def imageLen (h : List Byte) : Nat := tableEnd h + hBody h

/-- Stored bytes of chunk i. -/
def chunkLen (h : List Byte) (i : Nat) : Nat := min 65536 (hBody h - 65536 * i)

/-- The dies a header concerns: those of a full native image, the Tarod die, the die of a flask. -/
def hDies (h : List Byte) : List Nat :=
  match hKind h with
  | 1 => hMask h
  | 3 => [hPlace h]
  | _ => [hPlace h / 16]

/-- The dies of the load set in progress, the follower's with them. -/
def State.setDies (s : State) : List Nat :=
  hMask s.load.native ++ (if hFollower s.load.native = 0 then [] else [hFollower s.load.native])

/-! ## Header checks (R295) -/

/-- Step of event e (0 gsr, 1 ioen, 2 gwe, 3 done) in a start-up order field (R307). -/
def orderStep (o e : Nat) : Nat := bitsOf o (4 * e + 3) (4 * e)

/-- Check 1: magic, version, reserved bytes, chunk count, payload limit, start-up field. -/
def headerForm (h : List Byte) : Bool :=
  slice h 0 4 == [0x59#8, 0x43#8, 0x53#8, 0x54#8] && fieldAt h 4 2 == 1 &&
  zeroAt h 0x15 3 && zeroAt h 0x34 12 && zeroAt h 0xC0 256 &&
  hChunks h == (hBody h + 65535) / 65536 && decide (1 ≤ hChunks h ∧ hChunks h ≤ 16384) &&
  (hKind h != 1 || decide (fieldAt h 0x24 4 ≤ 490000000)) &&
  [0, 1, 2].all (fun e => decide (orderStep (hOrder h) e ≤ orderStep (hOrder h) 3))

/-- R5: a Tarod image on FD2 needs hl_dis 1. -/
def State.tarodPlace (s : State) (p : Nat) : Bool := p == 3 || (p == 2 && s.otp.hlDis)

/-- Whether die d holds a completed load, and whether it is a Tarod instance. -/
def State.loadedDie (s : State) (d : Nat) : Bool := (s.get F.cfgStat_loaded []).testBit d
def State.tarodDie (s : State) (d : Nat) : Bool := s.flag F.glbTarod_active [] && s.get F.glbTarod_die [] + 2 == d

/-- Check 4: kind accepted from the source; a follower is a Tarod image. -/
def kindOk (src kind : Nat) (follower : Bool) : Bool :=
  if follower then kind == 3 else (kind == 1 && src != 4) || (kind == 2 && (src == 3 || src == 4))

/-- Check 5: placement (R5, R294, R317). -/
def State.placeOk (s : State) (h : List Byte) : Bool :=
  match hKind h with
  | 1 =>
    let f := hFollower h
    (f == 0 || (s.tarodPlace f && !(hMask h).contains f)) && !((hMask h).isEmpty && f == 0)
  | 2 => decide (hPlace h < 64) && s.loadedDie (hPlace h / 16) && !s.tarodDie (hPlace h / 16)
  | _ => s.tarodPlace (hPlace h) && hPlace h == hFollower s.load.native

/-- Check 6: the owner key hash fused at the index, and an image key slot that holds an unrevoked key (R285, R288). -/
def State.keyOk (s : State) (h : List Byte) : Bool :=
  let i := fieldAt h 0xA 1
  let e := hSlot h
  decide (i < 4) && SMap.find? s.otp.ownerKeys i == some (sha256 (slice h 0x80 64)) && !s.otp.ownerRev.getLsbD i &&
  (e == 0 || (decide (e ≤ 4) && (SMap.find? s.otp.imageKeys e).isSome && !s.otp.imageRev.getLsbD (e - 1)))

/-- Check 7: the signature over the digest of bytes 0x0000 to 0x01BF (R285). -/
def signatureOk (h : List Byte) : Bool :=
  ecdsaVerify (BitVec.ofNat 512 (beNat (slice h 0x80 64))) (sha256 (h.take 0x1C0))
    (BitVec.ofNat 512 (beNat (slice h 0x1C0 64)))

/-- The checks of R295 in order; 0 where the header passes. `table` holds the 32 bytes of each chunk. -/
def State.headerCode (s : State) (src : Nat) (h table : List Byte) (follower : Bool) : Nat :=
  if !headerForm h then 0x03
  else if fieldAt h 6 2 ≠ 0x8640 then 0x04
  else if s.get F.glbFeature_devLevel [] < fieldAt h 8 1 then 0x05
  else if !kindOk src (hKind h) follower then 0x06
  else if !s.placeOk h then 0x07
  else if !s.keyOk h then 0x08
  else if !signatureOk h then 0x09
  else if sha256 table ≠ BitVec.ofNat 256 (beNat (slice h 0x40 32)) then 0x0A
  else 0

/-! ## The chunk digest store (R325) -/

/-- The number an image goes by: 0 native, 1 Tarod, 16 + f a flask partial. -/
def imageNo (h : List Byte) : Nat :=
  match hKind h with
  | 1 => 0
  | 3 => 1
  | _ => 16 + hPlace h

/-- Up to `n` free entries from entry `i` on; `used` lists the used ones, rising. -/
def freeEntries : Nat → Nat → List Nat → Nat → List Nat
  | 0, _, _, _ => []
  | _ + 1, _, _, 0 => []
  | fuel + 1, i, [], n + 1 => i :: freeEntries fuel (i + 1) [] n
  | fuel + 1, i, u :: us, n + 1 => if u = i then freeEntries fuel (i + 1) us (n + 1) else i :: freeEntries fuel (i + 1) (u :: us) n

/-- Store the digests of an image, in place of those of its predecessor; none where too few entries are free. -/
def State.storeDigests (s : State) (img : Nat) (ds : List (BitVec 256)) : Option State :=
  let owners := s.fab.owners.filter (fun e => e.2.1 != img)
  let free := freeEntries 24576 0 (owners.map (·.1)) ds.length
  if free.length < ds.length then none
  else
    let s := ({ s with fab := { s.fab with owners := owners } } : State)
    some (((List.range ds.length).zip (free.zip ds)).foldl (fun s p =>
      let s := (List.range 4).foldl (fun s k => s.setDigestCw (4 * p.2.1 + k) (enc72 (p.2.2.toNat / 2 ^ (64 * k) % 2 ^ 64))) s
      { s with fab := { s.fab with owners := SMap.insert s.fab.owners p.2.1 (img, p.1) } }) s)

/-- The stored digest of a chunk of an image, each codeword corrected where it can be; an entry with an uncorrectable one counts as
missing (R325, R422). -/
def State.digestOf (s : State) (img chunk : Nat) : Option (BitVec 256) × State :=
  match List.find? (fun e => e.2 == (img, chunk)) s.fab.owners with
  | none => (none, s)
  | some e =>
    let (v, bad, s) := (List.range 4).foldl (fun (v, bad, t) k =>
      let (x, _, ue, t) := t.digestRead (4 * e.1 + k)
      (v + x * 2 ^ (64 * k), bad || ue, t)) (0, false, s)
    (if bad then none else some (BitVec.ofNat 256 v), s)

/-! ## Clearing (R303, R304, R308, R309) -/

/-- The registers and fields that OTP fills, whatever their reset domain (R334, R341, R472, R513). -/
def State.otpRegs (s : State) : State :=
  let o := s.otp
  let has (m : SMap (BitVec 256)) (l : List Nat) : Nat :=
    ((List.range l.length).zip l).foldl (fun t p => t + 2 ^ p.1 * b2n ((SMap.find? m p.2).isSome)) 0
  let s := (s.put F.pciStat_hlDis [] (b2n o.hlDis)).put F.glbTarod_hlDis [] (b2n o.hlDis)
  let s := (s.put F.glbTarod_lkeySet [] (has o.legacyKeys [0, 1])).put F.glbTarod_lkeyRev [] o.legacyRev.toNat
  let s := (s.put F.secOtpstat_okeySet [] (has o.ownerKeys [0, 1, 2, 3])).put F.secOtpstat_okeyRev [] o.ownerRev.toNat
  let s := (s.put F.secOtpstat_ikeySet [] (has o.imageKeys [1, 2, 3, 4])).put F.secOtpstat_ikeyRev [] o.imageRev.toNat
  let s := (s.put F.secOtpstat_ykeyRev [] o.ykeyRev.toNat).put F.secOtpstat_hlDis [] (b2n o.hlDis)
  let s := (s.put F.secSvn_svn1 [] (SMap.get 0 o.svn 1)).put F.secSvn_svn2 [] (SMap.get 0 o.svn 2)
  let s := (s.put F.secSvn_svn3 [] (SMap.get 0 o.svn 3)).put F.secSvn_svn4 [] (SMap.get 0 o.svn 4)
  let s := (s.put F.pwrFuse_ceilW [] o.ceilW.toNat).put F.pwrFuse_vmaxMv [] o.vmaxMv.toNat
  s.put F.dbgCfg_otpMode [] o.dbgMode.toNat

/-- Accesses that wait at the word arrays, and held publishes, complete with TERR (R114, R205). -/
def State.dropWaiting (s : State) : State :=
  let s := s.wa.foldl (fun s e => e.2.waits.foldl (fun s w => s.respond w.req .terr) s) s
  s.heldPubs.foldl (fun s h => s.respond h.req .terr) s

/-- A capture that still waits for its edge is refused as its flask is loaded anew (R319, R320). -/
def State.dropCapture (s : State) (which : Nat → Bool) : State :=
  if s.fab.capture.any (fun c => which c.flask) then
    (({ s with fab := { s.fab with capture := none } } : State).put F.ftlRbcmd_busy [] 0).put F.ftlRbcmd_res [] 1
  else s

/-- The host link goes on through a full load: its lanes keep their lock, their retirement and their latency (R303, R455, R458). -/
def State.keepHostLink (s was : State) : State :=
  if s.otp.hlDis then s
  else (List.range 16).foldl (fun s l =>
    ((s.put F.lnLaneStat_lock [l] (was.get F.lnLaneStat_lock [l])).put F.lnLaneStat_retired [l]
      (was.get F.lnLaneStat_retired [l])).setReg .lnLaneLat [l] (was.reg .lnLaneLat [l])) s

/-- All user function stops on every die: pins, lanes, fabric, word arrays, queues, result slots and every register of the
LOAD domain return to their reset (R303, R304, R205). The word arrays' clocks go on. -/
def State.clearDevice (s : State) : State :=
  let s := s.dropWaiting.dropCapture (fun _ => true)
  let s := ((s.resetDomains (· == .load)).otpRegs).keepHostLink s
  let s := ((s.put F.cfgStat_done [] 0).put F.cfgStat_onMaster [] 0).put F.cfgStat_loaded [] 0
  let s := (List.range 8).foldl (fun s k => s.put F.pwrTl_floor [k] 0) s
  let lanes := s.lanes.stage.filter (fun e => decide (e.1 < 16) && !s.otp.hlDis)
  let wa := s.wa.filterMap (fun e => if e.2.cycle = 0 then none else some (e.1, { (default : WaDie) with cycle := e.2.cycle }))
  { s with pins := { s.pins with user := 1, cfgDone := false }, lanes := { s.lanes with stage := lanes, fecBad := [] },
           fab := default, wa := wa, queues := [], dma := [], risers := [], slots := [], heldPubs := [],
           load := { s.load with images := [], tables := [], pinTable := [], enable := [], legacy := 0#4, legacySteps := [], tarod := 0 } }

/-! ## Starting a load (R294, R296 to R300) -/

/-- Set CFG_STAT.phase. -/
def State.setPhase (s : State) (p : Nat) : State := s.put F.cfgStat_phase [] p

/-- A load begins: it waits for a header. -/
def State.beginLoad (s : State) (src pattern base : Nat) : State :=
  let s := (s.raise F.cfgStat_busy [])
  let l : LoadSt := { s.load with
    stage := .header, src := src, pattern := pattern, base := base, hdr := [], native := [], table := [], chunk := 0,
    rest := [], inChunk := false, frames := [], dieEnds := [], edges := [], gotPins := false, wrote := false, wroteDies := [],
    deadline := 0, staging := [], prevPhase := s.get F.cfgStat_phase [], prevSource := s.get F.cfgStat_source [],
    fallBack := false, step0 := 0, events := 0#4 }
  let s := ({ s with load := l } : State).setPhase 1
  let s := if src ≤ 3 then s.put F.cfgStat_source [] src else s
  if src = 1 then s.put F.cfgStat_pattern [] pattern else s

/-- The load ends; `phase` and `source` are what CFG_STAT shows. -/
def State.endLoad (s : State) (phase source : Nat) : State :=
  let s := ((s.put F.cfgStat_busy [] 0).setPhase phase).put F.cfgStat_source [] source
  { s with load := { s.load with stage := .idle, rest := [], inChunk := false, deadline := 0, staging := [] } }

/-- Record a failure (R308): last_err, CFG_ERRINFO and the log entry. -/
def State.recordError (s : State) (code src die chunk : Nat) : State :=
  let s := s.put F.cfgStat_lastErr [] code
  let s := (s.put F.cfgErrinfo_err [] code).put F.cfgErrinfo_src [] src
  let s := (s.put F.cfgErrinfo_pattern [] (if src = 1 then s.load.pattern else 0)).put F.cfgErrinfo_die [] die
  let s := s.put F.cfgErrinfo_chunk [] chunk
  s.logEv 8 4 0 0x0402 4 (leBytes 4 (s.reg .cfgErrinfo []).toNat)

/-- Every pattern has failed: CFG_ERR_N asserts and the device waits for a command (R299). -/
def State.allFailed (s : State) : State :=
  let s := (s.endLoad 7 0).raise F.cfgStat_errPin []
  { s with pins := { s.pins with cfgErr := true } }

/-- Clear the frames of a flask, with its golden signatures, flip-flop, capture, block RAM and MAC24 state. -/
def State.clearFlask (s : State) (f : Nat) : State :=
  let d := f / 16
  let k := f % 16
  let lo := 49152 * d + 2944 * k
  let mineCl (n : Nat) : Bool := n / 131072 == d && flaskOfCluster (n % 131072) == k
  let mineBr (n : Nat) : Bool := n / 2560 == d && flaskOfBram (n % 2560) == k
  let mineMac (n : Nat) : Bool := n / 6144 == d && flaskOfMac (n % 6144) == k
  { s with fab := { s.fab with
    frames := SMap.clear s.fab.frames (fun n => decide (lo ≤ n ∧ n < lo + 2944))
    sigs := SMap.clear s.fab.sigs (fun n => decide (lo ≤ n ∧ n < lo + 2944))
    ffs := SMap.clear s.fab.ffs (fun n => mineCl (n / 64))
    capt := SMap.clear s.fab.capt (fun n => mineCl (n / 64))
    view := none
    touched := []
    bram := SMap.clear s.fab.bram (fun n => mineBr (n / 1024))
    bramPorts := SMap.clear s.fab.bramPorts (fun n => mineBr (n / 2))
    scrubs := SMap.clear s.fab.scrubs mineBr
    mac := SMap.clear s.fab.mac mineMac
    skip := s.fab.skip.filter (fun n => !decide (lo ≤ n ∧ n < lo + 2944)) } }

/-! ## The flash address space (R297) -/

/-- `n` bytes taken in turn from two lists. -/
def interleave : Nat → List Byte → List Byte → List Byte
  | 0, _, _ => []
  | _ + 1, [], _ => []
  | n + 1, b :: s, t => b :: interleave n t s

/-- The bytes at even places of a list, and those at odd places. -/
def alternate : List Byte → List Byte × List Byte
  | [] => ([], [])
  | [b] => ([b], [])
  | a :: b :: t => (a :: (alternate t).1, b :: (alternate t).2)

/-- Whether two devices are read in lock-step. -/
def State.lockStep (s : State) : Bool := s.get F.cfgStat_nflash [] == 2

/-- The `n` bytes of the flash address space from `a` on, from what the devices bring; none where a byte is missing. In lock-step
byte A lies in FLASH(A mod 2) at device address floor(A / 2), else in FLASH0 at A (R297). -/
def State.flashBytes (s : State) (a n : Nat) (r : FlashRead) : Option (List Byte) :=
  let l :=
    if s.lockStep then (if a % 2 = 0 then interleave n r.flash0 r.flash1 else interleave n r.flash1 r.flash0)
    else r.flash0.take n
  if l.length = n then some l else none

/-- Bytes that begin at an even address of the flash address space, as the devices hold them. -/
def State.flashSplit (s : State) (l : List Byte) : FlashRead :=
  if s.lockStep then ⟨(alternate l).1, (alternate l).2⟩ else ⟨l, []⟩

/-- Bytes of the flash address space: none without FLASH0. -/
def State.flashSize (s : State) : Nat :=
  match s.get F.cfgStat_nflash [] with
  | 0 => 0
  | 1 => s.load.flash.size0
  | _ => 2 * min s.load.flash.size0 s.load.flash.size1

/-- The directory copy to use, and whether it is copy B (R298). -/
def dirOk (d : List Byte) : Bool :=
  slice d 0 4 == [0x59#8, 0x50#8, 0x44#8, 0x49#8] && (crc32 (d.take 0xFFC)).toNat == fieldAt d 0xFFC 4
def State.pickDir (s : State) : Option (List Byte × Bool) :=
  match (s.flashBytes 0 4096 s.load.flash.copyA).filter dirOk, (s.flashBytes 0x8000 4096 s.load.flash.copyB).filter dirOk with
  | some a, _ => some (a, false)
  | none, some b => some (b, true)
  | none, none => none

/-- Base and length of a directory entry (R297). -/
def dirEntry (d : List Byte) (p : Nat) : Nat × Nat := (fieldAt d (8 + 16 * p) 8, fieldAt d (16 + 16 * p) 8)

/-- Start a load of the master pattern; without flash it has failed (code 0x01). -/
def State.startMaster (s : State) : State :=
  let s := s.beginLoad 2 0 0x10000
  if s.get F.cfgStat_nflash [] = 0 then
    let s := s.recordError 0x01 2 0xF 0
    if s.get F.cfgStat_loaded [] = 0 then s.allFailed else s.endLoad s.load.prevPhase s.load.prevSource
  else s

/-- A load fails (R308, R319): before any frame is written the device stays as it is, or a pattern falls back to the master
and the master asserts CFG_ERR_N where nothing runs; after that every die is cleared first. -/
def State.failLoad (s : State) (code die chunk : Nat) (abort : Bool := false) : State :=
  let s := s.recordError code s.load.src die chunk
  if s.load.stage ≠ .header ∧ hKind s.load.hdr = 2 then
    let f := hPlace s.load.hdr
    let s := (((s.clearFlask f).put F.ftlFlask_state [f] 3).put F.ftlFlask_err [f] code)
    s.endLoad s.load.prevPhase s.load.prevSource
  else if s.load.wrote then
    let back := !abort && (s.load.src == 1 || s.load.src == 3)
    let s := s.clearDevice.setPhase 6
    { s with load := { s.load with stage := .clearing, fallBack := back, rest := [], inChunk := false, deadline := 0, staging := [] } }
  else
    let src := s.load.src
    let loaded := s.get F.cfgStat_loaded [] ≠ 0
    let s := s.endLoad (if s.load.stage = .header then s.load.prevPhase else 0) (if loaded then s.load.prevSource else 0)
    if loaded || abort then s
    else if src = 1 then s.startMaster
    else if src = 2 then s.allFailed
    else s

/-- LOAD_CLEAR_DONE (R308): the fallback load starts, CFG_ERR_N asserts, or after an abort the device stays blank. -/
def execLoadClearDone (s : State) : Out :=
  if s.load.stage ≠ .clearing then .next s
  else if s.load.fallBack then
    let s1 := s.setPhase 0
    .next s1.startMaster
  else if s.get F.cfgStat_lastErr [] = 0x13 then .next (s.endLoad 0 0)
  else .next s.allFailed

/-- Whether a load runs. -/
def State.loading (s : State) : Bool := s.load.stage != .idle

/-- Start a load of pattern p (R298, R299). -/
def State.startPattern (s : State) (p : Nat) : State :=
  let s := s.beginLoad 1 p 0
  if s.get F.cfgStat_nflash [] = 0 then s.failLoad 0x01 0xF 0
  else
    match s.pickDir with
    | none => s.failLoad 0x02 0xF 0
    | some (d, b) =>
      let s := if b then s.raise F.cfgStat_dirB [] else s
      let (base, len) := dirEntry d p
      if len = 0 ∨ s.flashSize < base + len then s.failLoad 0x02 0xF 0
      else { s with load := { s.load with base := base } }

/-- An abort while a load runs, or an unload (R308, R309). -/
def State.abortOrUnload (s : State) : State :=
  if s.loading then
    if s.load.stage = .clearing then
      let s := s.recordError 0x13 s.load.src 0xF 0
      { s with load := { s.load with fallBack := false } }
    else s.failLoad 0x13 0xF 0 true
  else if s.get F.cfgStat_loaded [] = 0 then s.raise F.cfgStat_cmdErr []
  else
    let s := s.clearDevice.recordError 0x13 0 0xF 0
    s.endLoad 0 0

/-- A write to CFG_CMD (R299 to R301, R308 to R310). A load in sleep or deep sleep wakes the device first (R481). -/
def State.cfgCommand (s : State) (op pattern : Nat) : State :=
  if op = 4 then s.abortOrUnload
  else if op = 0 ∨ 5 < op then s
  else if s.loading || !s.flag F.glbWirechk_done [] || (op == 3 && s.get F.cfgHdeadline_us [] == 0) then s.raise F.cfgStat_cmdErr []
  else
    let s := s.wake 1
    match op with
    | 1 => s.startPattern pattern
    | 2 => s.startMaster
    | 3 =>
      let s := (s.beginLoad 3 0 0).put F.cfgHpos_pos [] 0
      { s with load := { s.load with deadline := s.now 8 + 1000 * s.get F.cfgHdeadline_us [] + 1 } }
    | _ => s.beginLoad 4 0 (s.get F.cfgMaddrLo_addr [] * 512 + 2 ^ 32 * s.get F.cfgMaddrHi_addr [])

/-- LOAD_PATTERN, LOAD_MASTER, HOST_START, ABORT_LOAD, UNLOAD, LOAD_FLASK_FROM_MEMORY: CFG_CMD op 1, 2, 3, 4, 4, 5. -/
def execLoadPattern (src : Src) (p : Fin 4) (s : State) : Out := .next (s.command src .cfgCmd [] (F.cfgCmd_pattern.put 0x10000000#32 p) (·.cfgCommand 1 p))
def execLoadMaster (src : Src) (s : State) : Out := .next (s.command src .cfgCmd [] 0x20000000#32 (·.cfgCommand 2 0))
def execHostStart (src : Src) (s : State) : Out := .next (s.command src .cfgCmd [] 0x30000000#32 (·.cfgCommand 3 0))
def execAbortLoad (src : Src) (s : State) : Out := .next (s.command src .cfgCmd [] 0x40000000#32 (·.cfgCommand 4 0))
def execUnload (src : Src) (s : State) : Out := .next (s.command src .cfgCmd [] 0x40000000#32 (·.cfgCommand 4 0))
def execLoadFlaskFromMemory (src : Src) (s : State) : Out := .next (s.command src .cfgCmd [] 0x50000000#32 (·.cfgCommand 5 0))

/-- Whether a host load takes bytes. -/
def State.hostLoading (s : State) : Bool :=
  s.load.src == 3 && s.loading && s.load.stage != .clearing

/-- Whether the 16 MiB staging buffer has no room for a write. -/
def State.stagingFull (s : State) (data : List Byte) : Bool := decide (2 ^ 24 < s.load.staging.length + data.length)

/-- A posted write of the host at a BAR4 offset arrives (R300). -/
def State.bar4Take (s : State) (off : Nat) (data : List Byte) : State :=
  if !s.hostLoading then s.raise F.cfgStat_stray []
  else
    let pos := s.get F.cfgHpos_pos []
    if off ≠ pos % 2 ^ 28 then s.failLoad 0x12 0xF 0
    else
      let s := s.put F.cfgHpos_pos [] (pos + data.length)
      { s with load := { s.load with staging := s.load.staging ++ data } }

/-- BAR4_WRITE. While the staging buffer is full, credits are withheld and writes wait in their order. -/
def State.bar4Write (s : State) (off : Nat) (data : List Byte) : State :=
  if s.hostLoading && (!s.load.bar4.isEmpty || s.stagingFull data) then
    { s with load := { s.load with bar4 := s.load.bar4 ++ [(off, data)] } }
  else s.bar4Take off data

/-- The writes that wait arrive as the buffer has room, and all of them once the load has ended. -/
def bar4Resume : List (Nat × List Byte) → State → State
  | [], s => s
  | (off, data) :: rest, s =>
    if s.hostLoading && s.stagingFull data then s
    else bar4Resume rest (({ s with load := { s.load with bar4 := rest } } : State).bar4Take off data)
def execBar4Write (off : BitVec 28) (data : List Byte) (s : State) : Out := .next (s.bar4Write off.toNat data)

/-! ## Reading an image -/

/-- What a read of image bytes gives: not there yet, a failed read, or the bytes. -/
inductive Fetched where
  | wait
  | bad (s : State)
  | got (b : List Byte) (s : State)

/-- Read `n` bytes of memory in 64-byte blocks as master 60; none where a block fails. -/
def memRead : Nat → Nat → State → Option (List Byte) × State
  | 0, _, s => (some [], s)
  | k + 1, a, s =>
    let (c, d, s) := s.engineAccess (engineReq 60 false a 64 [] [])
    if c = .ok then
      match memRead k (a + 64) s with
      | (some r, s) => (some (d ++ r), s)
      | (none, s) => (none, s)
    else (none, s)

/-- Read `n` bytes at offset `off` of the image: from the staging buffer, from memory, or as read from flash. -/
def State.fetchImage (s : State) (off n : Nat) (flash : Option FlashRead) : Fetched :=
  match s.load.src with
  | 3 => if n ≤ s.load.staging.length then .got (s.load.staging.take n) s else .wait
  | 4 =>
    match memRead ((n + 63) / 64) (s.load.base + off) s with
    | (some b, s) => .got (b.take n) s
    | (none, s') =>
      if (List.range ((n + 63) / 64)).any (fun k =>
          (s.engineAccess (engineReq 60 false (s.load.base + off + 64 * k) 64 [] [])).1 == .retry) then .wait
      else .bad s'
  | _ =>
    match flash.bind (s.flashBytes (s.load.base + off) n) with
    | some b => .got b s
    | none => .bad s

/-- Bytes of the host stream are used up. -/
def State.consume (s : State) (n : Nat) : State :=
  if s.load.src = 3 then { s with load := { s.load with staging := s.load.staging.drop n } } else s

/-! ## Headers (R295, R303, R317) -/

/-- The digests of a chunk-hash table. -/
def tableDigests (table : List Byte) (n : Nat) : List (BitVec 256) :=
  (List.range n).map (fun i => BitVec.ofNat 256 (beNat (slice table (32 * i) 32)))

/-- The digest of an accepted header is recorded for each of its places (R287). -/
def State.acceptHeader (s : State) (h : List Byte) (places : List Nat) : State :=
  { s with load := { s.load with accepted := places.foldl (fun m p => SMap.insert m p (sha256 h)) s.load.accepted } }

/-- A full native image has passed its header: user function stops, the dies clear, requesters of the set are reset. -/
def State.acceptFull (s : State) (h : List Byte) (ds : List (BitVec 256)) : State :=
  let s := (hMask h ++ (if hFollower h = 0 then [] else [hFollower h])).foldl (fun s d => s.mbxReset (6 + d)) s
  let s := s.clearDevice.setPhase 2
  let s := ((s.storeDigests 0 ds).getD s).acceptHeader h (hMask h)
  { s with load := { s.load with stage := .write, hdr := h, native := h, table := ds } }

/-- A flask partial has passed its header (R315 to R317): isolation, which keeps what it is to hold, the clear, and the fettler
leaves the flask. -/
def State.acceptFlask (s : State) (h : List Byte) (ds : List (BitVec 256)) : State :=
  let f := hPlace h
  let d := f / 16
  let k := f % 16
  let s := (s.acceptHeader h [16 + f]).dropCapture (· == f)
  let s := (List.range 64).foldl (fun s q =>
    if s.get F.waSqCfg_attach [d, q] = 0 ∧ !s.egress d q ∧ (s.queue d q).open_ ∧ s.get F.waSqCfg_flask [d, q] = k
    then s.sqMarkBad d q false else s) s
  let s := (({ s with fab := { s.fab with isoHeld := s.holdSignals d k } } : State)).keepPins (fun q => s.pinFlask q == some f)
  let s := (s.clearFlask f).setPhase s.load.prevPhase
  let s := s.put F.cfgStat_source [] s.load.prevSource
  let s := ((s.put F.ftlFlask_state [f] 1).raise F.ftlFlask_iso [f]).put F.ftlFlask_captured [f] 0
  let s := (s.setReg .ftlRsrcLo [f] 0#32).setReg .ftlRsrcHi [f] 0#32
  let keep := (SMap.get [] s.fab.requests d).filter (fun r => flaskOfFrame r.frame != some k)
  let s := s.put F.ftlStat_qlevel [d] keep.length
  { s with
    fab := { s.fab with flaskHeld := f :: s.fab.flaskHeld, flaskOff := f :: s.fab.flaskOff
                        requests := SMap.set [] s.fab.requests d keep }
    load := { s.load with stage := .write, hdr := h, table := ds } }

/-- A follower has passed its header. -/
def State.acceptFollower (s : State) (h : List Byte) (ds : List (BitVec 256)) : State :=
  let s := s.acceptHeader h [8 + hPlace h]
  { s with load := { s.load with stage := .write, hdr := h, table := ds, chunk := 0 } }

/-- Offset of the image that is being read: a follower begins at the byte after the native body (R294). -/
def State.imageBase (s : State) : Nat :=
  if s.load.stage = .follower ∨ hKind s.load.hdr = 3 then imageLen s.load.native else 0

/-- HEADER_RECEIVED: header and table have arrived (`flash`: what the flash brings from the image's base on, none where
the read fails); they are checked in order and accepted or refused. -/
def execHeaderReceived (flash : Option FlashRead) (s : State) : Out :=
  let follower := s.load.stage == .follower
  if s.load.stage ≠ .header ∧ !follower then .next s
  else
    let refuse (s : State) (code : Nat) : State := s.failLoad (if follower then 0x0E else code) 0xF 0
    match s.fetchImage s.imageBase 512 flash with
    | .wait => .next s
    | .bad t => .next (t.failLoad 0x01 0xF 0)
    | .got h s1 =>
      if !headerForm h then .next (refuse s1 0x03)
      else
        match s1.fetchImage s1.imageBase (tableEnd h) flash with
        | .wait => .next s
        | .bad t => .next (t.failLoad 0x01 0xF 0)
        | .got b s2 =>
          let table := slice b 512 (32 * hChunks h)
          let code := s2.headerCode s2.load.src h table follower
          let ds := tableDigests table (hChunks h)
          if code ≠ 0 then .next (refuse s2 code)
          else
            let s3 := s2.consume (tableEnd h)
            if follower then
              if sha256 h ≠ BitVec.ofNat 256 (beNat (slice s3.load.native 0x60 32)) then .next (refuse s3 0x0E)
              else
                match s3.storeDigests 1 ds with
                | some s4 => .next (s4.acceptFollower h ds)
                | none => .next (refuse s3 0x0A)
            else if hKind h = 2 then
              match s3.storeDigests (imageNo h) ds with
              | some s4 => .next (s4.acceptFlask h ds)
              | none => .next (refuse s3 0x0A)
            else .next (s3.acceptFull h ds)

/-! ## Chunks (R287 to R290, R339) -/

/-- A load fails in the body of an image; codes 0x0B to 0x0D name the chunk. -/
def State.failBody (s : State) (code : Nat) (die : Nat := 0xF) : State :=
  s.failLoad code (if die < 4 then die else 0xF) (if 0x0B ≤ code ∧ code ≤ 0x0D then (s.load.chunk - 1) % 2 ^ 14 else 0)

/-- Decrypt a chunk: AES-256 in CTR mode from the counter block nonce, 4,096 × i (R288). -/
def ctrCrypt (key : BitVec 256) (nonce chunk : Nat) (data : List Byte) : List Byte :=
  ((List.range ((data.length + 15) / 16)).map (fun j =>
    let ks := (aes256 key (BitVec.ofNat 128 (nonce * 2 ^ 32 + (4096 * chunk + j) % 2 ^ 32))).toNat
    ((List.range 16).zip (slice data (16 * j) 16)).map (fun p =>
      p.2 ^^^ BitVec.ofNat 8 (ks / 2 ^ (8 * (15 - p.1)))))).flatten

/-- The payload of a stored chunk of an image: decrypted, decompressed, recast; none where a step fails. -/
def State.payload (s : State) (h : List Byte) (chunk : Nat) (stored : List Byte) : Option (List Byte) :=
  let e := hSlot h
  let plain := if e = 0 then stored else ctrCrypt (SMap.get 0#256 s.otp.imageKeys e) (beNat (slice h 0x28 12)) chunk stored
  let open_ := match fieldAt h 0xC 1 with
    | 0 => some plain
    | 1 => inflate plain
    | _ => none
  match open_ with
  | some p =>
    if 2 ^ 20 < p.length then none
    else if hKind h = 3 then
      Config.recast (hPlace h) (s.otp.legacyKeys.filter (fun k => !s.otp.legacyRev.getLsbD k.1)) chunk p
    else some p
  | none => none

end Sys2Proof.Machine
end

