-- ==== Sys2Proof/Machine/Records.lean ====
section
/-!
DEFINITION. Sys2Proof/Machine/Records.lean: the chunks of an image body and the records they hold (R287 to R293), the
roles of edge groups (R256 to R259, R276) and the end of a body.
-/

namespace Sys2Proof.Machine

/-! ## Records (R290) -/

/-- One record: type, die or edge, count, address, data. -/
structure Rec where
  kind : Nat
  die : Nat
  count : Nat
  addr : Nat
  data : List Byte
deriving DecidableEq, Repr

/-- Bytes of data of a record. -/
def recLen (kind count : Nat) : Nat :=
  match kind with
  | 1 => 2048 * count
  | 2 => count
  | 3 => 8 * count
  | 4 => count
  | 5 => count
  | _ => 0

/-- The record at the head of a payload, with what follows it; none where it is not one or spans the end. -/
def parseRec (b : List Byte) : Option (Rec × List Byte) :=
  let kind := fieldAt b 0 1
  let count := fieldAt b 4 4
  let n := recLen kind count
  let padded := (n + 15) / 16 * 16
  if fieldAt b 2 2 ≠ 0 ∨ b.length < 16 + padded then none
  else if !zeroAt b (16 + n) (padded - n) then none
  else some (⟨kind, fieldAt b 1 1, count, fieldAt b 8 8, slice b 16 n⟩, b.drop (16 + padded))

/-- Whether a 4-byte unit of a tile window may be loaded (R291). -/
def tileUnitOk (o : Nat) : Bool :=
  o < 0x2000 || (decide (0x2000 ≤ o ∧ o < 0x3000) && o % 256 < 0x88) || decide (0x3000 ≤ o ∧ o < 0x3100) ||
    (decide (0x5000 ≤ o ∧ o < 0x6000) && o % 256 < 0x48)

/-- Whether a tile-data record is legal (R291). -/
def tileDataOk (r : Rec) : Bool :=
  let o := r.addr % 0x10000
  r.count % 4 == 0 && o % 4 == 0 && decide (r.addr / 0x10000 < 2048) &&
    (List.range (r.count / 4)).all (fun i => tileUnitOk (o + 4 * i))

/-- The WA_ register at an offset of the block of die d, if an image may set it (R291). -/
def imageReg (d off : Nat) : Option (RegName × List Nat) :=
  if 0xF00000 ≤ off then none
  else
  match lookupReg (0x0F0100100000 + 0x1000000 * d + off) with
  | some (.waPortCfg, i) => some (.waPortCfg, i)
  | some (.waPortWin, i) => some (.waPortWin, i)
  | some (.waSqCfg, i) => some (.waSqCfg, i)
  | some (.waDmBaseLo, i) => some (.waDmBaseLo, i)
  | some (.waDmBaseHi, i) => some (.waDmBaseHi, i)
  | some (.waDmHead, i) => some (.waDmHead, i)
  | some (.waDmTail, i) => some (.waDmTail, i)
  | some (.waDmCtrl, i) => some (.waDmCtrl, i)
  | some (.waRsBaseLo, i) => some (.waRsBaseLo, i)
  | some (.waRsBaseHi, i) => some (.waRsBaseHi, i)
  | some (.waRsCfg, i) => some (.waRsCfg, i)
  | some (.waRsStat, i) => some (.waRsStat, i)
  | _ => none

/-- Whether the record may follow here (R290, R291, R293, R314); the contents of crossing tables and of the pin table are
judged as they act. -/
def State.recOk (s : State) (r : Rec) : Bool :=
  let l := s.load
  let h := l.hdr
  let mine := (hDies h).contains r.die && !l.dieEnds.contains r.die
  match r.kind with
  | 0 => r.count == 0 && r.addr == 0
  | 1 =>
    mine && (if hKind h = 2 then
        let lo := 2944 * (hPlace h % 16)
        decide (lo ≤ r.addr ∧ r.addr + r.count ≤ lo + 2944)
      else decide (r.addr + r.count ≤ 49152))
  | 2 => hKind h == 1 && mine && tileDataOk r
  | 3 => hKind h == 1 && mine && r.addr == 0 &&
      (List.range r.count).all (fun i => (imageReg r.die (fieldAt r.data (8 * i) 4)).isSome)
  | 4 => hKind h == 1 && r.addr == 0 && decide (r.die < 10) && !l.edges.contains r.die
  | 5 => hKind h == 1 && r.addr == 0 && r.count == 1230 && !l.gotPins
  | 15 => mine && r.addr == 0 && r.count == SMap.get 0 l.frames r.die
  | _ => false

/-! ## The end of a body (R293, R264, R441) -/

/-- Whether the body has given everything its image needs. -/
def State.complete (s : State) : Bool :=
  let l := s.load
  match hKind l.hdr with
  | 1 => (hMask l.hdr).all (fun d => l.dieEnds.contains d) && (List.range 10).all (fun k => l.edges.contains k) && l.gotPins
  | 2 => l.dieEnds.contains (hPlace l.hdr / 16)
  | _ => true

/-- The lanes that an image enables, but those of the host link (R440), with the fabric-side rate of each. -/
def State.imageLaneRates (s : State) : List (Nat × Nat) :=
  (List.range 40).filterMap (fun l =>
    let (c, r) := Config.laneImage s.fab.frames l
    if F.lnLaneCfg_en.of c = 1 ∧ !(l < 16 && !s.otp.hlDis) then
      some (l, fabricRateOf (F.lnLaneCfg_mode.of c) (F.lnLaneRate_kbd.of r)
        (F.lnGrpCfg_fec.of (Config.laneGroupImage s.fab.frames (l / 4)) == 1))
    else none)

/-- Whether the settings of a lane that the image enables are legal: its mode, rate and width, and a tclk that the fabric can follow
(R336, R441, R447). -/
def State.imageLaneLegal (s : State) (f : Nat) (e : Nat × Nat) : Bool :=
  let (c, r) := Config.laneImage s.fab.frames e.1
  decide (e.2 / (32 * 2 ^ F.lnLaneCfg_width.of c) ≤ fabricTarget) &&
    (if laneOfTarod f e.1 then F.lnLaneCfg_width.of c ≤ 4 && legacyLaneLegal (F.lnLaneCfg_mode.of c) (F.lnLaneRate_kbd.of r)
     else laneLegal (F.lnLaneCfg_mode.of c) (F.lnLaneRate_kbd.of r) (F.lnLaneCfg_width.of c))

/-- Whether the lanes that each edge serves need at most half of its working packet payload, 170.7 GB/s a group (R278, R448). -/
def State.lanesFit (s : State) (f : Nat) : Bool :=
  (List.range 4).all (fun i =>
    let mine := s.imageLaneRates.filter (fun e =>
      let far := F.lnGrpCfg_attach.of (Config.laneGroupImage s.fab.frames (e.1 / 4)) == 1 || laneOfTarod f e.1
      i == (if e.1 < 20 then 0 else 2) + b2n far)
    let groups := (groupsOf (4 + i)).countP (fun g =>
      s.role g == 2 && !s.flag F.glbXgstat_failed [g, 0] && !s.flag F.glbXgstat_failed [g, 1])
    decide (6 * (mine.map (·.2)).sum ≤ 4096000000 * groups))

/-- Lane settings that are not legal (`all`: those of the follower's lanes too), or group clocks that are not a pair of equal fabric PLL
outputs. -/
def State.settingsBad (s : State) (f : Nat) (all : Bool) : Bool :=
  s.imageLaneRates.any (fun e => (all || !laneOfTarod f e.1) && !s.imageLaneLegal f e) ||
  s.load.tables.any (fun e =>
    (List.range ((e.2.getD 2 0#8).toNat)).any (fun j =>
      (List.range 4).any (fun i => (List.range 4).any (fun c => bitsOf (e.2.getD (4 + 96 * j + i) 0#8).toNat (2 * c + 1) (2 * c) == 1)) &&
      (List.range 2).any (fun dir => !s.groupClockOk e.1 (e.2.getD (4 + 96 * j + 4 + dir) 0#8).toNat)))

/-- The load enters crossing training (R302). -/
def State.toTraining (s : State) : State :=
  ({ s with load := { s.load with stage := .training } } : State).setPhase 3

/-- The body of an image ends. -/
def State.bodyEnds (s : State) : State :=
  if !s.complete then s.failBody 0x0C
  else
    match hKind s.load.hdr with
    | 1 =>
      let f := hFollower s.load.hdr
      if s.settingsBad f (f == 0) then s.failBody 0x0D
      else if f ≠ 0 then { s with load := { s.load with stage := .follower } }
      else if !s.lanesFit 0 then s.failBody 0x0F
      else s.toTraining
    | 2 => { s with load := { s.load with stage := .trained, step0 := s.now 8 + 1 } }
    | _ =>
      let pins := s.load.pinTable.take 1216 ++ List.replicate 14 (BitVec.ofNat 8 (hPlace s.load.hdr))
      let f := hFollower s.load.native
      if s.settingsBad f true then s.failBody 0x0D
      else if !s.lanesFit f then s.failBody 0x0F
      else ({ s with load := { s.load with pinTable := pins } } : State).toTraining

/-- A chunk ends. -/
def State.chunkEnds (s : State) : State :=
  let s := ({ s with load := { s.load with inChunk := false, rest := [] } } : State)
  if s.load.chunk = hChunks s.load.hdr then s.bodyEnds else s

/-- After a record: fewer than 16 zero bytes end the chunk; otherwise the next record must be legal. -/
def State.settle (s : State) : State :=
  if !s.load.inChunk then s
  else if s.load.rest.length < 16 then
    if s.load.rest.all (· == 0#8) then s.chunkEnds else s.failBody 0x0D
  else
    match parseRec s.load.rest with
    | none => s.failBody 0x0D
    | some (r, _) => if s.recOk r then s else s.failBody 0x0D (if r.kind = 4 ∨ r.kind = 5 then 0xF else r.die)

/-! ## CHUNK_RECEIVED (R287 to R289, R45) -/

/-- A chunk has been read (`flash`: what the flash brings from its first stored byte on). -/
def execChunkReceived (flash : Option FlashRead) (s : State) : Out :=
  let h := s.load.hdr
  let i := s.load.chunk
  if s.load.stage ≠ .write ∨ s.load.inChunk ∨ hChunks h ≤ i then .next s
  else
    match (hDies h).find? (fun d => (dieRoute s.liveEdges 8 d).isNone) with
    | some d => .next (s.failBody 0x10 d)
    | none =>
      let n := chunkLen h i
      match s.fetchImage (s.imageBase + tableEnd h + 65536 * i) n flash with
      | .wait => .next s
      | .bad t => .next (t.failLoad 0x01 0xF 0)
      | .got b s1 =>
        let s2 := s1.consume n
        let s3 := ({ s2 with load := { s2.load with chunk := i + 1 } } : State)
        if sha256 b ≠ s.load.table.getD i 0#256 then .next (s3.failBody 0x0B)
        else
          match s3.payload h i b with
          | none => .next (s3.failBody 0x0D)
          | some p => .next ({ s3 with load := { s3.load with rest := p, inChunk := true } } : State).settle

/-- The record of kind `k` at the head of the chunk acts, and the chunk goes on. -/
def State.onRecord (s : State) (k : Nat) (act : Rec → State → State) : State :=
  if !s.load.inChunk then s
  else
    match parseRec s.load.rest with
    | some (r, rest) =>
      if r.kind = k ∧ s.recOk r then
        (act r { s with load := { s.load with rest := rest } }).settle
      else s
    | none => s

/-- Frames, tile data or settings have been written to die d. -/
def State.noteWrite (s : State) (d : Nat) : State :=
  { s with load := { s.load with wrote := true, wroteDies := if s.load.wroteDies.contains d then s.load.wroteDies else d :: s.load.wroteDies } }

/-- Whether the logic frames of a flask, as they stand, hold a field combination that the loader refuses (R208, R250). -/
def State.flaskIllegal (s : State) (d k : Nat) : Bool :=
  let fr := s.logicFrames d k
  let tarod := s.tarodOn d
  (List.range 131072).any (fun cl =>
    flaskOfCluster cl == k && (List.range 32).any (fun cell => (cellCfgOf fr d cl cell).illegal cell)) ||
  (List.range 6144).any (fun b => flaskOfMac b == k && (macCfgOf fr tarod d b).illegal)

/-- FRAMES_RECORD: frames are written and read back; the golden signatures are stored (R291, R302, R324). The flasks whose logic
frames the record writes are judged as they then stand (R208, R250, log entry 106). -/
def State.putFrames (r : Rec) (s : State) : State :=
  let fs := (List.range r.count).map (fun i => (r.addr + i, slice r.data (2048 * i) 2048))
  let s := fs.foldl (fun s e =>
    (s.setFrame r.die e.1 e.2).setSig r.die e.1 (enc53 ((crc32 e.2).toNat + 2 ^ 32 * (s.load.chunk - 1)))) s
  let s := s.noteWrite r.die
  let s := ({ s with load := { s.load with
    frames := SMap.insert s.load.frames r.die (SMap.get 0 s.load.frames r.die + r.count) } } : State)
  let mine := (List.range 16).filter (fun k => fs.any (fun e => flaskOfFrame e.1 == some k && !contentFrame e.1))
  if mine.any (fun k => s.flaskIllegal r.die k) then s.failBody 0x0D r.die else s
def execFramesRecord (s : State) : Out := .next (s.onRecord 1 State.putFrames)

/-- Write one 4-byte unit of a tile window (R291). -/
def State.tileUnit (s : State) (d t o : Nat) (w : List Byte) : State :=
  if o < 0x2000 then
    let x := s.die d
    s.setDie d { x with store := (List.range 4).foldl (fun m i =>
      SMap.set byte0 m (storeKey (cellKey t (o / 512)) (o % 512 + i)) (mkByte (w.getD i 0#8).toNat)) x.store }
  else if o < 0x3000 then (s.mouldStore d t (o - 0x2000) w).2
  else if o < 0x3100 then s.writeCw d t (272 + (o - 0x3000) / 4) (leNat w)
  else s.setDie d (putCellState (s.die d) (cellKey t ((o - 0x5000) / 256)) (o % 256) (BitVec.ofNat 32 (leNat w)))

/-- TILE_DATA_RECORD. -/
def State.putTileData (r : Rec) (s : State) : State :=
  ((List.range (r.count / 4)).foldl (fun s i =>
    s.tileUnit r.die (r.addr / 0x10000) (r.addr % 0x10000 + 4 * i) (slice r.data (4 * i) 4)) s).noteWrite r.die
def execTileDataRecord (s : State) : Out := .next (s.onRecord 2 State.putTileData)

/-- One register setting. The en of a queue waits for the gwe step (R307); settings whose Reset column reads "image" are
set whole. -/
def State.imageSetting (s : State) (d off : Nat) (w : Word32) : State :=
  match imageReg d off with
  | some (.waSqCfg, [e, q]) =>
    let on := F.waSqCfg_en.of w == 1
    let keep := s.load.enable.filter (· != 64 * e + q)
    let w := F.waSqCfg_flush.put (F.waSqCfg_en.put w 0) 0
    let whole := (RegName.desc .waSqCfg).fields.foldl (fun v f => f.put v (f.of w)) 0#32
    let s := s.setReg .waSqCfg [e, q] whole
    { s with load := { s.load with enable := if on then (64 * e + q) :: keep else keep } }
  | some (.waDmCtrl, [e, q]) => s.dmaControl e q w
  | some (n, i) => s.writeReg n i w
  | none => s

/-- REGISTER_SETTINGS_RECORD (R291). -/
def State.putSettings (r : Rec) (s : State) : State :=
  ((List.range r.count).foldl (fun s i =>
    s.imageSetting r.die (fieldAt r.data (8 * i) 4) (BitVec.ofNat 32 (fieldAt r.data (8 * i + 4) 4))) s).noteWrite r.die
def execRegisterSettingsRecord (s : State) : Out := .next (s.onRecord 3 State.putSettings)

/-! ## Crossing tables (R256 to R259, R276, R292, R294) -/

/-- Some 2-bit field holds the illegal code 3. -/
def has3 (l : List Byte) : Bool := l.any (fun b => (List.range 4).any (fun c => bitsOf b.toNat (2 * c + 1) (2 * c) == 3))

/-- Kind of an edge: 0 fabric, 1 lane, 2 hub. -/
def edgeKind (k : Nat) : Nat := if k < 4 then 0 else if k < 8 then 1 else 2

/-- One entry of a crossing table. -/
def entryOk (e : List Byte) : Bool :=
  !has3 (slice e 0 4) && decide (fieldAt e 4 1 < 32 ∧ fieldAt e 5 1 < 32) && zeroAt e 6 2 && !has3 (slice e 8 64) && zeroAt e 72 24

/-- Whether edge k touches die d. -/
def touches (k d : Nat) : Bool := (edgeDies k).1 == d || (edgeDies k).2 == d

/-- Hub-I/O groups of edge k: those of the table, and the 8 the recast engine adds beside a follower. -/
def State.hubIo (s : State) (k : Nat) (t : List Byte) : Nat :=
  let f := hFollower s.load.native
  if f ≠ 0 ∧ edgeKind k = 2 ∧ touches k f then 8 else fieldAt t 1 1

/-- Whether the table of edge k is legal (R257, R258, R292, R294). -/
def State.tableOk (s : State) (k : Nat) (t : List Byte) : Bool :=
  let f := hFollower s.load.native
  let packet := fieldAt t 0 1
  let hub := fieldAt t 1 1
  let n := fieldAt t 2 1
  let nextTo := f != 0 && touches k f
  fieldAt t 3 1 == 0 && t.length == 4 + 96 * n && decide ((if edgeKind k = 2 then 8 else 2) ≤ packet) &&
  (hub == 0 || (hub == 8 && edgeKind k == 2 && !nextTo)) && (n == 0 || (edgeKind k == 0 && !nextTo)) &&
  decide (packet + s.hubIo k t + n ≤ edgeGroups k) &&
  (List.range n).all (fun j => entryOk (slice t (4 + 96 * j) 96))

/-- The byte lanes of one direction of a bridge group, from its entry. -/
def entryLanes (e : List Byte) (dir : Nat) : List LaneCfg :=
  (List.range 16).map (fun b =>
    let code := bitsOf (e.getD (b / 4) 0#8).toNat (2 * (b % 4) + 1) (2 * (b % 4))
    { kind := if code = 1 then 0 else if code = 2 then 1 else 2, net := fieldAt e (4 + dir) 1,
      safe := (List.range 8).map (fun i =>
        let x := 8 * b + i
        bitsOf (e.getD (8 + 32 * dir + x / 4) 0#8).toNat (2 * (x % 4) + 1) (2 * (x % 4))) })

/-- A group that was given a role in a direction; forced lanes are released (R275). -/
def State.giveRole (s : State) (g dir role : Nat) (lanes : List LaneCfg) : State :=
  let x := s.xgroup g dir
  let s := ({ s with load := { s.load with moved := SMap.clear s.load.moved (fun n => n / 128 == 2 * g + dir) } } : State)
  let s := s.setXg g dir { x with lanes := lanes, holds := [], sub := none, test := none, fails := [], open_ := [], tx := 0#128, rx := 0#144,
                                  xerr := 0#16, xlost := false, shift := none, crcRun := 0 }
  (((s.put F.glbXgstat_role [g, dir] role).put F.glbXgstat_pending [g, dir] 0).put F.glbXgcnt_lostLanes [g, dir] 0).put
    F.glbXgstat_probe [g, dir] 0xFF

/-- Give the groups of edge k their roles (R257). -/
def State.giveRoles (s : State) (k : Nat) (t : List Byte) (working : List Nat) : State :=
  let down := working.reverse
  let hub := s.hubIo k t
  let packet := fieldAt t 0 1
  let n := fieldAt t 2 1
  (groupsOf k).foldl (fun s g =>
    (List.range 2).foldl (fun s dir =>
      if (down.take hub).contains g then s.giveRole g dir 3 []
      else if ((down.drop hub).take packet).contains g then s.giveRole g dir 2 []
      else
        match (working.take n).findIdx? (· == g) with
        | some j => s.giveRole g dir 1 (entryLanes (slice t (4 + 96 * j) 96) dir)
        | none => s.giveRole g dir 0 []) s) s

/-- Whether a payload position carries a crossing: its lane is in use and the design drives its transmit input. -/
def State.carries (s : State) (g dir i : Nat) : Bool :=
  s.role g == 1 && s.laneKind g dir (i / 8) != 2 && s.txDrive g dir i != .none

/-- The lanes of an edge that were lost earlier and that the new assignment uses, and the crossings in them (R276). -/
def State.lostInUse (s : State) (k dir : Nat) : List (Nat × Nat) :=
  (groupsOf k).flatMap (fun g => ((List.range 16).filter (fun b =>
    s.role g == 1 && s.laneKind g dir b != 2 && s.load.lost.contains (g, dir, b))).map (fun b => (g, b)))
def State.lostCrossings (s : State) (k dir : Nat) : List (Nat × Nat) :=
  (s.lostInUse k dir).flatMap (fun e => ((List.range 8).filter (fun j => s.carries e.1 dir (8 * e.2 + j))).map (fun j => (e.1, 8 * e.2 + j)))

/-- Whether a payload position of a good lane is free: no crossing is its own and none has been moved to it. -/
def State.positionFree (s : State) (g dir i : Nat) : Bool :=
  !s.carries g dir i && !s.load.lost.contains (g, dir, i / 8) &&
    !s.load.moved.any (fun e => e.1 / 128 % 2 == dir && e.2 == 128 * g + i)

/-- Replace one byte lane. -/
def State.setLane (s : State) (g dir b : Nat) (c : LaneCfg) : State :=
  let x := s.xgroup g dir
  s.setXg g dir { x with lanes := x.lanes.set b c }

/-- Move one crossing: to a free position of a registered lane with the same group clock, else to an unused lane of a bridge group,
which takes that clock; its safe value goes with it. None where no position is free (R276). -/
def State.moveCrossing (s : State) (k dir g i : Nat) : Option State :=
  let old := (s.xgroup g dir).lanes.getD (i / 8) default
  let places := (groupsOf k).flatMap (fun h => if s.role h = 1 then (List.range 128).map (fun j => (h, j)) else [])
  let lane (p : Nat × Nat) : LaneCfg := (s.xgroup p.1 dir).lanes.getD (p.2 / 8) default
  let put (p : Nat × Nat) (c : LaneCfg) : State :=
    let s := s.setLane p.1 dir (p.2 / 8) { c with safe := c.safe.set (p.2 % 8) (old.safe.getD (i % 8) 0) }
    { s with load := { s.load with moved := SMap.insert s.load.moved (128 * (2 * g + dir) + i) (128 * p.1 + p.2) } }
  match places.find? (fun p => s.laneKind p.1 dir (p.2 / 8) == 0 && (lane p).net == old.net && s.positionFree p.1 dir p.2) with
  | some p => some (put p (lane p))
  | none =>
    match places.find? (fun p => s.laneKind p.1 dir (p.2 / 8) == 2 && s.positionFree p.1 dir p.2) with
    | some p => some (put p { kind := 0, net := old.net, safe := List.replicate 8 0 })
    | none => none

/-- Move the crossings of the lost lanes of an edge; the lost lanes are then out of use (R276). -/
def State.relocate (s : State) (k dir : Nat) : Option State :=
  let lost := s.lostInUse k dir
  match (s.lostCrossings k dir).foldlM (fun s p => s.moveCrossing k dir p.1 p.2) s with
  | some s1 => some (lost.foldl (fun s p =>
      s.setLane p.1 dir p.2 { (s.xgroup p.1 dir).lanes.getD p.2 default with kind := 2 }) s1)
  | none => none

/-- Whether a pin table and the tables of the hub edges agree: no bank has an owner without hub-I/O groups, none at all with
a follower (R269, R347); judged once they are all there. -/
def State.banksOk (s : State) : Bool :=
  !(s.load.gotPins && s.load.edges.contains 8 && s.load.edges.contains 9) ||
  (slice s.load.pinTable 1216 14).all (fun o =>
    o == 0#8 || (hFollower s.load.native == 0 && fieldAt ((SMap.find? s.load.tables (o.toNat + 6)).getD []) 1 1 == 8))

/-- CROSSING_TABLE_RECORD: the table of an edge is judged and its groups take their roles. -/
def State.putTable (r : Rec) (s : State) : State :=
  let k := r.die
  if !s.tableOk k r.data then s.failBody 0x0D
  else
    let working := (groupsOf k).filter (fun g => !(s.flag F.glbXgstat_failed [g, 0] || s.flag F.glbXgstat_failed [g, 1]))
    if working.length < fieldAt r.data 0 1 + s.hubIo k r.data + fieldAt r.data 2 1 then s.failBody 0x0F
    else
      let s := ({ s with load := { s.load with edges := k :: s.load.edges, tables := SMap.insert s.load.tables k r.data } } : State)
      if !s.banksOk then s.failBody 0x0D
      else
        let s := s.giveRoles k r.data working
        let lost := Nat.land (s.get F.glbXstat_edgeLost []) (1023 - 2 ^ k)
        let s := (s.put F.glbXstat_edgeLost [] lost).put F.glbXstat_lostAny [] (b2n (lost != 0))
        match s.relocate k 0 with
        | none => s.failBody 0x0F
        | some s1 =>
          match s1.relocate k 1 with
          | none => s1.failBody 0x0F
          | some s2 => s2.freshRoutes
def execCrossingTableRecord (s : State) : Out := .next (s.onRecord 4 State.putTable)

/-- PIN_TABLE_RECORD (R292, R269, R347). -/
def State.putPins (r : Rec) (s : State) : State :=
  if !(slice r.data 1216 14).all (fun o => o == 0#8 || o == 2#8 || o == 3#8) then s.failBody 0x0D
  else
    let s := ({ s with load := { s.load with gotPins := true, pinTable := r.data } } : State)
    if s.banksOk then s else s.failBody 0x0D
def execPinTableRecord (s : State) : Out := .next (s.onRecord 5 State.putPins)

/-- DIE_END_RECORD: its count equals the frames written (R293, R314). -/
def execDieEndRecord (s : State) : Out :=
  .next (s.onRecord 15 (fun r s => { s with load := { s.load with dieEnds := r.die :: s.load.dieEnds } }))

/-- END_OF_CHUNK_RECORD: the rest of the payload is ignored (R290). -/
def execEndOfChunkRecord (s : State) : Out :=
  .next (s.onRecord 0 (fun _ s => s.chunkEnds))

end Sys2Proof.Machine
end

