-- ==== Sys2Proof/Machine/Startup.lean ====
section
/-!
DEFINITION. Sys2Proof/Machine/Startup.lean: crossing training, the start-up sequence of a load set, of a flask and of a
Tarod instance, the host deadline, the start-up wire check and PERST_N (R43 to R46, R264, R301, R306, R307, R318, R348, R457).
-/

namespace Sys2Proof.Machine

/-! ## Training and the sequence (R264, R306) -/

/-- A group has trained: its edge count starts at 0 and its probe at the first signal. -/
def State.trainGroup (s : State) (g dir : Nat) : State :=
  let s := s.setXg g dir { s.xgroup g dir with count := 0 }
  let s := s.syncSpares g dir
  if s.hasProbe g dir then s.put F.glbXgstat_probe [g, dir] ((s.visited g dir).headD 0xFF) else s

/-- CROSSING_TRAINING_DONE. -/
def execCrossingTrainingDone (s : State) : Out :=
  if s.load.stage ≠ .training then .next s
  else
    let s1 := (List.range 480).foldl (fun s g => if s.role g = 0 then s else (s.trainGroup g 0).trainGroup g 1) s
    .next { s1 with load := { s1.load with stage := .trained, step0 := s1.now 8 + 1 } }

/-- Whether the load is of a flask; the header whose start-up order and dies apply. -/
def State.flaskLoad (s : State) : Bool := hKind s.load.hdr == 2
def State.startHeader (s : State) : List Byte := if s.flaskLoad then s.load.hdr else s.load.native

/-- The native dies of the load set. -/
def State.nativeDies (s : State) : List Nat := hMask s.load.native

/-- The temper floor that a header names for a die: 7 where it is above the levels (R286, R471). -/
def floorOf (n : Nat) : Nat := min 7 n

/-- START_UP_SEQUENCE: step 0 is the first count that is a multiple of 1,000; the temper floors of the
image come into force (R286, R306). -/
def execStartUpSequence (s : State) : Out :=
  let t := s.now 8
  if s.load.stage ≠ .trained ∨ t % 1000 ≠ 0 ∨ t < s.load.step0 then .next s
  else
    let h := s.startHeader
    let s1 := ({ s with load := { s.load with stage := .startup, step0 := t, events := 0#4, deadline := 0 } } : State)
    if s1.flaskLoad then .next s1
    else
      let s2 := s1.setPhase 4
      let s3 := s2.nativeDies.foldl (fun s d =>
        (s.put F.pwrTl_floor [d] (floorOf (bitsOf (fieldAt h 0x12 1) 3 0))).put F.pwrTl_floor [4 + d]
          (floorOf (bitsOf (fieldAt h 0x12 1) 7 4))) s2
      let f := hFollower h
      let (a, b, c) := Config.legacyStart s.load.hdr
      let steps := if f = 0 then [] else [a, b, c].map (fun n => t + 2000 * n)
      .next ({ s3 with load := { s3.load with legacy := 0#4, legacySteps := steps, tarod := f } } : State).fixLevels

/-- Whether event e (0 gsr, 1 ioen, 2 gwe, 3 done) is due and every event before it has acted (R307). -/
def State.eventDue (s : State) (e : Nat) : Bool :=
  let o := hOrder s.startHeader
  s.load.stage == .startup && !s.load.events.getLsbD e && decide (s.load.step0 + 1000 * orderStep o e ≤ s.now 8) &&
    (List.range 4).all (fun i => i == e || s.load.events.getLsbD i ||
      !(decide (orderStep o i < orderStep o e) || (orderStep o i == orderStep o e && decide (i < e))))

/-- An event has acted. -/
def State.eventActs (s : State) (e : Nat) : State :=
  { s with load := { s.load with events := s.load.events ||| BitVec.ofNat 4 (2 ^ e) } }

/-- The clusters of a flask, as a test on (die, cluster). -/
def inFlask (f d cl : Nat) : Bool := d == f / 16 && flaskOfCluster cl == f % 16

/-- STARTUP_GSR: global set/reset is released; a flask's flip-flops take init. Asynchronous SR inputs that are 1 then act, if global
write enable is 1 by now (R223). -/
def execStartupGsr (s : State) : Out :=
  if !s.eventDue 0 then .next s
  else
    let s1 := s.eventActs 0
    if s1.flaskLoad then
      let f := hPlace s1.load.hdr
      let s2 := s1.initFfs (inFlask f)
      let s3 := ({ s2 with fab := { s2.fab with flaskHeld := s2.fab.flaskHeld.filter (· != f) } } : State)
      .next (s3.applySrs (inFlask f))
    else
      let s2 := ({ s1 with fab := { s1.fab with gsrOff := s1.nativeDies ++ s1.fab.gsrOff } } : State)
      .next (s2.applySrs (fun d _ => s1.nativeDies.contains d))

/-- Lanes take the settings of the image, and those it enables start (R441, R449): those of the Tarod instance, or the others; those of
the host link never do. -/
def State.imageLanes (s : State) (tarod : Bool) : State :=
  let mine (l : Nat) : Bool := !(l < 16 && !s.otp.hlDis) && laneOfTarod s.load.tarod l == tarod
  let s := (List.range 10).foldl (fun s g =>
    if mine (4 * g) then s.writeReg .lnGrpCfg [g] (Config.laneGroupImage s.fab.frames g) else s) s
  (List.range 40).foldl (fun s l =>
    if mine l then
      let (c, r) := Config.laneImage s.fab.frames l
      let s := (s.writeReg .lnLaneRate [l] r).writeReg .lnLaneCfg [l] c
      if s.flag F.lnLaneCfg_en [l] then s.startLane l else s
    else s) s

/-- The lanes with attached clusters in a flask bring up again blind as it leaves its isolation (R455). -/
def State.lanesOfFlask (s : State) (d k : Nat) : State :=
  (List.range 40).foldl (fun s l =>
    if s.laneDie l == d && (List.range 12).any (fun i => flaskOfCluster (laneCluster l i) == k) && !s.laneHeld l &&
      (s.stage l == .data || s.stage l == .lost) then s.adaptLane l else s) s

/-- STARTUP_IOEN: user outputs and lane transmitters follow the design; a flask leaves its isolation. -/
def execStartupIoen (s : State) : Out :=
  if !s.eventDue 1 then .next s
  else
    let s1 := s.eventActs 1
    if s1.flaskLoad then
      let f := hPlace s1.load.hdr
      .next ((s1.put F.ftlFlask_iso [f] 0).lanesOfFlask (f / 16) (f % 16))
    else .next (({ s1 with pins := { s1.pins with user := 2 } } : State).imageLanes false)

/-- The word array of a die leaves held: its tiles latch their lead headers (R80, R145). -/
def State.releaseArray (s : State) (d : Nat) : State :=
  (List.range 2048).foldl (fun s t => s.latchLead d t) (s.put F.waStat_held [d] 0)

/-- Queues whose en the image set become active. -/
def State.enableQueues (s : State) : State :=
  let s1 := s.load.enable.foldl (fun s k =>
    s.sqConfig (k / 64) (k % 64) (F.waSqCfg_en.put (s.reg .waSqCfg [k / 64, k % 64]) 1)) s
  { s1 with load := { s1.load with enable := [] } }

/-- STARTUP_GWE. -/
def execStartupGwe (s : State) : Out :=
  if !s.eventDue 2 then .next s
  else
    let s1 := s.eventActs 2
    if s1.flaskLoad then
      let f := hPlace s1.load.hdr
      let s2 := ({ s1 with fab := { s1.fab with flaskOff := s1.fab.flaskOff.filter (· != f) } } : State)
      .next (s2.applySrs (inFlask f))
    else
      let ds := s1.nativeDies
      let s2 := ({ s1 with fab := { s1.fab with gwe := ds ++ s1.fab.gwe } } : State)
      let s3 := ds.foldl State.releaseArray s2
      .next (s3.enableQueues.applySrs (fun d _ => ds.contains d))

/-- Fettlers begin to scan the dies of the set, at frame 0 (R323). -/
def State.startFettlers (s : State) (ds : List Nat) : State :=
  ds.foldl (fun s d =>
    let s := s.raise F.ftlStat_scanning [d]
    { s with fab := { s.fab with at_ := SMap.set 0 s.fab.at_ d 0, since := SMap.insert s.fab.since d (s.now 8) } }) s

/-- Where a region's frames come from (R328). -/
def State.setSource (s : State) (region addr : Nat) : State :=
  (s.setReg .ftlRsrcLo [region] (BitVec.ofNat 32 addr)).setReg .ftlRsrcHi [region] (BitVec.ofNat 32 (2 ^ 28 + addr / 2 ^ 32 % 2 ^ 16))

/-- The flasks of die d run the image of a header; the sources of its regions where it came from flash. -/
def State.dieRuns (s : State) (d : Nat) (h : List Byte) (addr : Nat) : State :=
  let s := ({ s with fab := { s.fab with encDies := (if hSlot h = 0 then [] else [d]) ++ s.fab.encDies } } : State)
  (List.range 17).foldl (fun s k =>
    let s := if k = 16 then s else
      (s.put F.ftlFlask_state [16 * d + k] 2).put F.ftlFlask_enc [16 * d + k] (b2n (hSlot h != 0))
    if s.load.src = 1 ∨ s.load.src = 2 then s.setSource (if k = 16 then 64 + d else 16 * d + k) addr else s) s

/-- The debug domain that a header names, at the done step of a full load (R286, R536). -/
def State.debugDomain (s : State) (h : List Byte) : State :=
  s.put F.dbgCfg_mode []
    (match fieldAt h 0x13 1 with
    | 1 => 0
    | 2 => 1
    | _ => s.get F.dbgCfg_otpMode [])

/-- A boundary instruction in force ends as CFG_STAT.loaded becomes nonzero: the TAP substitutes BYPASS (R532). -/
def State.boundaryEnds (s : State) : State :=
  if s.dbg.bsMode = 0 then s
  else ({ s with dbg := { s.dbg with bsMode := 0, ir := 0xFF#8 } } : State).raise F.dbgCfg_bsRef []

/-- The recorded digest of the header accepted last for a place (R287). -/
def State.accepted (s : State) (p : Nat) : BitVec 256 := SMap.get 0#256 s.load.accepted p

/-- STARTUP_DONE. -/
def execStartupDone (s : State) : Out :=
  if !s.eventDue 3 then .next s
  else
    let s1 := s.eventActs 3
    let l := s1.load
    if s1.flaskLoad then
      let f := hPlace l.hdr
      let s2 := (s1.put F.ftlFlask_state [f] 2).put F.ftlFlask_enc [f] (b2n (hSlot l.hdr != 0))
      let s3 := (s2.countUp F.ftlFlask_loads [f]).logEv 8 4 0 0x0403 0 (leBytes 1 f)
      let s4 := ({ s3 with load := { s3.load with images := SMap.insert s3.load.images (16 + f) (s3.accepted (16 + f)) } } : State)
      .next (s4.endLoad (s4.get F.cfgStat_phase []) (s4.get F.cfgStat_source []))
    else
      let mask := fieldAt l.native 0xE 1 % 16
      let f := hFollower l.native
      let s2 := s1.nativeDies.foldl (fun s d => s.dieRuns d l.native l.base) s1
      let s3 := if f = 0 then s2 else
        let s := s2.dieRuns f l.hdr (l.base + imageLen l.native)
        let s := ((s.raise F.glbTarod_active []).put F.glbTarod_die [] (f - 2)).put F.glbTarod_grade [] (fieldAt l.hdr 0x14 1)
        let s := (s.put F.glbTarod_enc [] (b2n (Config.legacyEncrypted l.hdr))).put F.glbTarod_fpllLock [] 0
        { s with fab := { s.fab with pllOff := (List.range 8).map (8 * f + ·) } }
      let ds := s1.setDies
      let s4 := ((s3.raise F.cfgStat_done []).put F.cfgStat_loaded [] (ds.foldl (fun t d => t + 2 ^ d) 0)).put
        F.cfgStat_onMaster [] (b2n (l.src == 2))
      let s5 := (s4.put F.cfgStat_errPin [] 0).startFettlers ds
      let s6 := s5.logEv 8 4 0 0x0401 0 (leBytes 1 l.src ++ leBytes 1 (if l.src = 1 then l.pattern else 0) ++ leBytes 1 mask)
      let images := s1.nativeDies.foldl (fun m d => SMap.insert m d (s6.accepted d)) s6.load.images
      let images := if f = 0 then images else SMap.insert images (8 + f) (s6.accepted (8 + f))
      let s7 := ({ s6 with pins := { s6.pins with cfgDone := true, cfgErr := false },
                           load := { s6.load with images := images } } : State)
      .next (((s7.endLoad 5 l.src).debugDomain l.native).boundaryEnds).fixLevels

/-- LEGACY_STARTUP_EVENT: release e of the Tarod die (0 global set/reset, 1 I/O, 2 global write enable) at step 2n (R348). -/
def execLegacyStartupEvent (e : Fin 3) (s : State) : Out :=
  match s.load.legacySteps[e.val]? with
  | none => .next s
  | some t =>
    if s.load.legacy.getLsbD e || s.now 8 < t then .next s
    else
      let f := s.load.tarod
      let done := s.load.legacy ||| BitVec.ofNat 4 (2 ^ e.val)
      let s1 := ({ s with load := { s.load with legacy := done } } : State)
      let s2 :=
        if e = 0 then ({ s1 with fab := { s1.fab with gsrOff := f :: s1.fab.gsrOff } } : State).applySrs (fun d _ => d == f)
        else if e = 2 then ({ s1 with fab := { s1.fab with gwe := f :: s1.fab.gwe } } : State).applySrs (fun d _ => d == f)
        else s1.imageLanes true
      .next (if done = 7#4 then s2.raise F.glbTarod_up [] else s2)

/-! ## Host deadline (R301) -/

/-- HOST_DEADLINE_EXPIRY: the load has not reached the start-up sequence. -/
def execHostDeadlineExpiry (s : State) : Out :=
  if s.load.deadline ≠ 0 ∧ s.load.deadline ≤ s.now 8 + 1 ∧ s.hostLoading ∧ s.load.stage ≠ .startup then
    .next (s.failLoad 0x11 0xF 0)
  else .next s

/-! ## Start-up wire check (R43 to R46) -/

/-- A newly failing wire of the check takes its signal to the lowest free spare; a spare that fails is never assigned (R43). -/
def State.newSpare (s : State) (g dir w : Nat) : State :=
  let k := edgeOf g
  let spare := (s.freeSpares g dir).headD 151 - 144
  let x := s.xgroup g dir
  let s := if w < 144 then s.setXg g dir { x with failedW := w :: x.failedW } else s.markSpare g dir (w - 144)
  let s := s.put F.glbWirechk_edgeNewspare [] (Nat.lor (s.get F.glbWirechk_edgeNewspare []) (2 ^ k))
  s.logEv (receiver k dir) 3 0 0x0102 1 (leBytes 2 g ++ leBytes 1 dir ++ leBytes 1 w ++ leBytes 1 spare)

/-- The wires of a group and direction that the check finds failing. A spare that the repair map has in use fails like any other
wire. A group with more failing wires than working spares is marked failed: in both directions, with one log entry for each
direction in which it fails (DESIGN CHOICE, log entry 104). -/
def State.checkGroup (s : State) (g dir : Nat) (wires : List Nat) : State :=
  let k := edgeOf g
  let x := s.xgroup g dir
  let inUse := (s.workWires g dir).take 144
  let fresh := wires.filter (fun w => w < 144 && !x.repair.contains w && !x.failedW.contains w)
  let spares := wires.filter (fun w => decide (144 ≤ w ∧ w < 152))
  let s := (spares.filter (fun w => !inUse.contains w)).foldl (fun s w => s.markSpare g dir (w - 144)) s
  let s1 := (spares.filter inUse.contains).foldl (fun s w => s.markSpare g dir (w - 144)) s
  let n := fresh.length + x.repair.length + x.failedW.length
  if 8 - ones 8 (s1.get F.glbXgstat_spareBad [g, dir]) < n then
    let s := (s1.raise F.glbXgstat_failed [g, 0]).raise F.glbXgstat_failed [g, 1]
    let s := s.put F.glbWirechk_edgeFailed [] (Nat.lor (s.get F.glbWirechk_edgeFailed []) (2 ^ k))
    s.logEv (receiver k dir) 3 0 0x0103 4 (leBytes 2 g ++ leBytes 1 dir ++ leBytes 1 n)
  else ((fresh ++ spares.filter inUse.contains).foldl (fun s w => s.newSpare g dir w) s).syncSpares g dir

/-- WIRE_CHECK_DONE: `fails` gives (group, direction, failing wires); the flash directory as read. The pattern that PROFILE
names starts to load (R299). -/
def execWireCheckDone (fails : List (Nat × Nat × List Nat)) (flash : FlashDir) (s : State) : Out :=
  if s.clk.phase != .running || s.flag F.glbWirechk_done [] then .next s
  else
    let ok := fails.filter (fun f => decide (f.1 < 480 ∧ f.2.1 < 2))
    let s1 := (List.range 480).foldl (fun s g => (s.syncSpares g 0).syncSpares g 1) s
    let s2 := ok.foldl (fun s f => s.checkGroup f.1 f.2.1 f.2.2) s1
    let s3 := (({ s2 with load := { s2.load with flash := flash } } : State).raise F.glbWirechk_done []).freshRoutes
    .next (s3.startPattern (s3.get F.cfgStat_profile []))

/-! ## PERST_N (R18, R310, R457, R481, R565) -/

/-- PERST_N_ASSERT. -/
def execPerstNAssert (s : State) : Out :=
  let s1 := if s.hostLoading then s.failLoad 0x13 0xF 0 else s
  let s2 := (s1.resetDomains (· == .host)).otpRegs
  let s3 := ({ s2 with pins := { s2.pins with perst := true },
                       lanes := { s2.lanes with linkState := 0, d3hot := false, tlps := [] } } : State).mbxReset 1
  .next (s3.wake 3)

/-- PERST_N_RELEASE: from here the link may come up (R52, R457); its lanes start as every lane does (R449, log entry 120). -/
def execPerstNRelease (s : State) : Out :=
  let s := ({ s with pins := { s.pins with perst := false } } : State)
  .next (if s.flag F.pciStat_hlDis [] then s else (List.range 16).foldl State.startLane s)

end Sys2Proof.Machine
end

