-- ==== Sys2Proof/Machine/Flasks.lean ====
section
/-!
DEFINITION. Sys2Proof/Machine/Flasks.lean: capture and readback, the fettler's scan and repairs (R311 to R329).
-/

namespace Sys2Proof.Machine

/-! ## The readback lock (R322) -/

/-- A read of FTL_RBLOCK: the host, the MC and debug can take the lock. -/
def State.rbLockRead (s : State) (src : Src) : Word32 × State :=
  let n := src.requester
  let own := s.get F.ftlRblock_owner []
  let s1 := if own = 0 ∧ !src.peeks ∧ [1, 10, 11].contains n then s.put F.ftlRblock_owner [] n else s
  (BitVec.ofNat 32 own, s1)
def State.rbLockWrite (s : State) (n : Nat) : State := if s.get F.ftlRblock_owner [] = n then s.put F.ftlRblock_owner [] 0 else s

/-- READBACK_LOCK_READ, READBACK_LOCK_RELEASE. -/
def execReadbackLockRead (src : Src) (s : State) : Out :=
  let (w, s1) := s.rbLockRead src
  .next (s1.answerWord src w)
def execReadbackLockRelease (src : Src) (s : State) : Out := .next (s.regAct src .ftlRblock [] 0#32 (·.rbLockWrite src.requester))

/-- Whether a requester holds the lock. -/
def State.rbHolds (s : State) (src : Src) : Bool := s.get F.ftlRblock_owner [] == src.requester && src.requester != 0

/-! ## Capture (R320, R321) -/

/-- Cluster at a flask-relative place. -/
def flaskCluster (k x y : Nat) : Nat := 256 * (128 * (k % 4) + x) + 64 * (k / 4) + y

/-- Copy every flip-flop of a flask into its capture bit; those of `near` change within 100 ps of the edge and yield either
value (log entry 10). -/
def State.captureMap (s : State) (f : Nat) (near : List Nat) : SMap Bool :=
  let d := f / 16
  (List.range 8192).foldl (fun m i =>
    let cl := flaskCluster (f % 16) (i / 64) (i % 64)
    (List.range 64).foldl (fun m b =>
      let key := ffKey d cl (b / 2) (b % 2)
      let v := if near.contains key then (Config.freeValue 1 (s.free + key)).getLsbD 0 else s.ff d cl (b / 2) (b % 2)
      SMap.set false m key v) m) s.fab.capt

/-- The capture is taken. -/
def State.captureFlask (s : State) (f : Nat) (near : List Nat) : State :=
  ({ s with fab := { s.fab with capt := s.captureMap f near }, free := s.free + 2 ^ 26 } : State).raise F.ftlFlask_captured [f]

/-- A write to FTL_RBCMD by the holder of the lock completes: result and busy. -/
def State.rbDone (s : State) (res : Nat) : State := (s.put F.ftlRbcmd_busy [] 0).put F.ftlRbcmd_res [] res

/-- Put 2,048 bytes into a window of words. -/
def State.fillWin (s : State) (n : RegName) (bytes : List Byte) : State :=
  (List.range (bytes.length / 4)).foldl (fun s i => s.setReg n [i] (BitVec.ofNat 32 (leNat (slice bytes (4 * i) 4)))) s

/-- Byte i of the capture space of a flask (R321). -/
def State.captByte (s : State) (f i : Nat) : Byte :=
  let cl := flaskCluster (f % 16) (i / 8 / 64) (i / 8 % 64)
  BitVec.ofNat 8 ((List.range 8).foldl (fun t b =>
    let n := 8 * (i % 8) + b
    t + 2 ^ b * b2n (SMap.get false s.fab.capt (ffKey (f / 16) cl (n / 2) (n % 2)))) 0)

/-- The bytes of a configuration frame as read back: a content frame shows what its blocks hold (R313, R322). -/
def State.frameBytes (s : State) (d f : Nat) : List Byte :=
  if contentFrame f then
    (List.range 2048).map (fun i =>
      let o := 2048 * (f % 2944 - 2224) + i
      let mine := (List.range 2560).filter (fun b => flaskOfBram b == f / 2944)
      let w := s.bramWord d (mine.getD (o / 9216) 0) (o % 9216 / 9)
      BitVec.ofNat 8 (w.toNat / 2 ^ (8 * (o % 9))))
  else s.frame d f

/-- Whether the image of a frame's region was encrypted (R322). -/
def State.regionEnc (s : State) (d f : Nat) : Bool :=
  match flaskOfFrame f with
  | some k => s.flag F.ftlFlask_enc [16 * d + k]
  | none => s.fab.encDies.contains d

/-- Whether a flask is being reloaded (R319). -/
def State.reloading (s : State) (f : Nat) : Bool := s.get F.ftlFlask_state [f] == 1

/-- A command in FTL_RBCMD (R320 to R322). -/
def State.rbCommand (s : State) (src : Src) (op die flask arg : Nat) : State :=
  if op = 4 then
    if s.fab.capture.any (fun c => c.flask == flask) then ({ s with fab := { s.fab with capture := none } } : State).rbDone 0
    else if s.flag F.ftlRbcmd_busy [] then s else s.rbDone 0
  else if s.flag F.ftlRbcmd_busy [] then s
  else
    match op with
    | 1 =>
      if s.reloading flask then s.rbDone 1
      else
        let t := s.pair .ftlRbtLo .ftlRbtHi []
        let late := decide (t < s.now (flask / 16))
        let s := (s.raise F.ftlRbcmd_busy []).put F.ftlRbcmd_res [] (if late then 2 else 0)
        { s with fab := { s.fab with capture := some ⟨flask, arg % 32, t⟩ } }
    | 2 =>
      if s.reloading flask ∨ 32 ≤ arg then s.rbDone 1
      else (s.fillWin .ftlRbwin ((List.range 2048).map (fun i => s.captByte flask (2048 * arg + i)))).rbDone 0
    | 3 =>
      let busyFlask : Bool := match flaskOfFrame arg with
        | some k => s.reloading (16 * die + k)
        | none => false
      if 49152 ≤ arg ∨ busyFlask ∨ (s.regionEnc die arg ∧ src.requester ≠ 10) then s.rbDone 1
      else (s.fillWin .ftlRbwin (s.frameBytes die arg)).rbDone 0
    | _ => s
def State.rbWrite (s : State) (src : Src) (w : Word32) : State :=
  if s.rbHolds src then
    s.regAct src .ftlRbcmd [] w (·.rbCommand src (F.ftlRbcmd_op.of w) (F.ftlRbcmd_die.of w) (F.ftlRbcmd_flask.of w) (F.ftlRbcmd_arg.of w))
  else s.answer src .serr

/-- An FTL_RBCMD word. -/
def rbWord (op die flask arg : Nat) : Word32 := BitVec.ofNat 32 (2 ^ 29 * op + 2 ^ 24 * die + 2 ^ 18 * flask + arg)

/-- CAPTURE, READ_CAPTURE_FRAME, READ_CONFIGURATION_FRAME, CANCEL_CAPTURE: ops 1 to 4. -/
def execCapture (src : Src) (flask : Fin 64) (net : Fin 32) (s : State) : Out := .next (s.rbWrite src (rbWord 1 0 flask net))
def execReadCaptureFrame (src : Src) (flask : Fin 64) (k : BitVec 16) (s : State) : Out :=
  .next (s.rbWrite src (rbWord 2 0 flask k.toNat))
def execReadConfigurationFrame (src : Src) (die : Fin 4) (frame : BitVec 16) (s : State) : Out :=
  .next (s.rbWrite src (rbWord 3 die 0 frame.toNat))
def execCancelCapture (src : Src) (flask : Fin 64) (s : State) : Out := .next (s.rbWrite src (rbWord 4 0 flask 0))

/-- CAPTURE_TAKEN: the first edge of the named network at or after T. -/
def execCaptureTaken (near : List Nat) (s : State) : Out :=
  match s.fab.capture with
  | none => .next s
  | some c =>
    let d := c.flask / 16
    if s.now d < c.t ∨ !s.netComes s.free (s.signals s.free) d c.net then .next s
    else
      let s1 := ({ s with fab := { s.fab with capture := none } } : State).captureFlask c.flask near
      .next (s1.put F.ftlRbcmd_busy [] 0)

/-! ## The fettler's scan (R323 to R326, R329) -/

/-- The frame after `f` that is fettled; none where the pass ends (R313). -/
def nextFettled (f : Nat) : Option Nat :=
  let g := f + 1
  let g := if contentFrame g then (g / 2944 + 1) * 2944 else g
  if g < 49152 then some g else none

/-- Queue a repair request, or drop it (R326). -/
def State.ftlQueue (s : State) (d : Nat) (r : FtlReq) : State :=
  let q := SMap.get [] s.fab.requests d
  if 16 ≤ q.length then s.raise F.ftlStat_ovf [d]
  else ({ s with fab := { s.fab with requests := SMap.set [] s.fab.requests d (q ++ [r]) } } : State).put F.ftlStat_qlevel [d] (q.length + 1)

/-- Key of a frame in the lists of frames. -/
def frameKey (d f : Nat) : Nat := 49152 * d + f

/-- A frame is not queued again. -/
def State.ftlSkip (s : State) (d f : Nat) : State :=
  if s.fab.skip.contains (frameKey d f) then s else { s with fab := { s.fab with skip := frameKey d f :: s.fab.skip } }

/-- Whether the fettler checks a frame: a flask's frames only while it runs. -/
def State.checked (s : State) (d f : Nat) : Bool :=
  (match flaskOfFrame f with
  | some k => s.get F.ftlFlask_state [16 * d + k] == 2
  | none => true) && (SMap.find? s.fab.sigs (frameKey d f)).isSome

/-- The frame that the legacy configuration-error primitive names (R350). -/
def State.noteFailing (s : State) (d f : Nat) : State :=
  { s with fab := { s.fab with badFrame := SMap.set 0 s.fab.badFrame d f } }

/-- Compare a frame with its golden signature; `misread` says that the first read is disturbed. -/
def State.checkFrame (s : State) (d f : Nat) (misread : Bool) : State :=
  if !s.checked d f then s
  else
    let judge (s : State) (v : Nat) : State :=
      if (crc32 (s.frame d f)).toNat = v % 2 ^ 32 then (if misread then s.bucket (16 * d + 7) else s)
      else
        let s := (s.raise F.ftlStat_mism [d]).noteFailing d f
        if s.fab.skip.contains (frameKey d f) then s
        else (s.ftlQueue d ⟨false, v / 2 ^ 32 % 2 ^ 14, f⟩).interrupt .fettler
    match dec53 (s.sig d f) with
    | .clean v => judge s v
    | .fixed v => judge (((s.raise F.ftlStat_sigCe [d]).bucket (16 * d + 7)).setSig d f (enc53 v)) v
    | .bad v =>
      let s := s.raise F.ftlStat_sigUe [d]
      if s.fab.skip.contains (frameKey d f) then s
      else if 16 ≤ (SMap.get [] s.fab.requests d).length then s.ftlQueue d ⟨true, v / 2 ^ 32 % 2 ^ 14, f⟩
      else (s.ftlQueue d ⟨true, v / 2 ^ 32 % 2 ^ 14, f⟩).ftlSkip d f

/-- The scan moves on; a wrap ends a pass. -/
def State.scanOn (s : State) (d f : Nat) : State :=
  match nextFettled f with
  | some g => { s with fab := { s.fab with at_ := SMap.set 0 s.fab.at_ d g } }
  | none =>
    let t := s.now d
    let us := (t - SMap.get 0 s.fab.since d) / 1000
    let s := (s.put F.ftlStat_passes [d] (s.get F.ftlStat_passes [d] + 1)).put F.ftlPass_lastUs [d] us
    { s with fab := { s.fab with at_ := SMap.set 0 s.fab.at_ d 0, since := SMap.insert s.fab.since d t } }

/-- FETTLER_FRAME_CHECK: the next frame of the scan. `upset`: the contents of the frame where upsets have changed it;
`misread`: the first read is disturbed; `vote`: the number of a triplicated register whose copies disagree. -/
def execFettlerFrameCheck (d : Fin 4) (upset : Option (List Byte)) (misread : Bool) (vote : Option Byte) (s : State) : Out :=
  if !s.flag F.ftlStat_scanning [d] || !s.runs (20 + d) then .next s
  else
    let f := SMap.get 0 s.fab.at_ d.val
    let s1 := match upset with
      | some b => s.setFrame d f b
      | none => s
    let s2 := match vote with
      | some r => (s1.raise F.ftlStat_vote [d]).logEv d 4 0 0x0407 1 (leBytes 1 d ++ [r])
      | none => s1
    .next ((s2.checkFrame d f misread).scanOn d f)

/-! ## Repair (R327, R328) -/

/-- The word FTL_REQd shows. -/
def State.ftlReqWord (s : State) (d : Nat) : Word32 :=
  match SMap.get [] s.fab.requests d with
  | r :: _ => BitVec.ofNat 32 (2 ^ 31 + 2 ^ 30 * b2n r.rebuild + 2 ^ 16 * (r.chunk % 2 ^ 14) + r.frame)
  | [] => 0#32

/-- A repair without a usable source, or whose chunk fails its digest, is abandoned (R328). -/
def State.abandon (s : State) (d : Nat) (r : FtlReq) : State :=
  ((s.raise F.ftlStat_unrep [d]).logEv d 4 0 0x0406 3 (leBytes 1 d ++ leBytes 2 r.frame ++ leBytes 2 r.chunk)).ftlSkip d r.frame

/-- The image that holds a frame's region: a flask partial, else the Tarod image, else the native one (R325). -/
def State.imageOf (s : State) (d f : Nat) : Nat :=
  match flaskOfFrame f with
  | some k => if (SMap.find? s.load.images (16 + (16 * d + k))).isSome then 16 + (16 * d + k) else if s.tarodDie d then 1 else 0
  | none => if s.tarodDie d then 1 else 0

/-- The bytes a chunk payload's frame records give for a frame. -/
def findFrame : Nat → List Byte → Nat → Nat → Option (List Byte)
  | 0, _, _, _ => none
  | fuel + 1, b, d, f =>
    match parseRec b with
    | none => none
    | some (r, rest) =>
      if r.kind = 0 then none
      else if r.kind = 1 ∧ r.die = d ∧ r.addr ≤ f ∧ f < r.addr + r.count then some (slice r.data (2048 * (f - r.addr)) 2048)
      else findFrame fuel rest d f

/-- MC firmware fetches the chunk of a request from its source: header and stored chunk, from flash (`flash`) or from memory. -/
def State.fetchRepair (s : State) (d : Nat) (r : FtlReq) (flash : Option (FlashRead × FlashRead)) :
    Option (List Byte × List Byte) × State :=
  let reg := regionOfFrame d r.frame
  let addr := s.get F.ftlRsrcLo_addr [reg] + 2 ^ 32 * s.get F.ftlRsrcHi_addr [reg]
  match s.get F.ftlRsrcHi_kind [reg] with
  | 1 =>
    (flash.bind (fun f => (s.flashBytes addr 512 f.1).bind (fun h =>
      (s.flashBytes (addr + tableEnd h + 65536 * r.chunk) (chunkLen h r.chunk) f.2).map (fun b => (h, b)))), s)
  | 2 =>
    match memRead 8 addr s with
    | (some h, s) =>
      match memRead 1024 (addr + tableEnd h + 65536 * r.chunk) s with
      | (some b, s) => (some (h, b.take (chunkLen h r.chunk)), s)
      | (none, s) => (none, s)
    | (none, s) => (none, s)
  | _ => (none, s)

/-- MC firmware takes a request: no byte of the chunk is used before its digest agrees with the chunk digest store; the frame
then stands in FTL_RBUF. -/
def State.prepareRepair (s : State) (d : Nat) (r : FtlReq) (flash : Option (FlashRead × FlashRead)) : State :=
  match s.fetchRepair d r flash with
  | (none, s) => s.abandon d r
  | (some (h, b), s) =>
    let (x, s) := s.digestOf (s.imageOf d r.frame) r.chunk
    if x ≠ some (sha256 b) then s.abandon d r
    else
      match (s.payload h r.chunk b).bind (fun p => findFrame 65536 p d r.frame) with
      | none => s.abandon d r
      | some frame => s.fillWin .ftlRbuf frame

/-- A normal read of FTL_REQd pops its head. -/
def State.ftlPop (s : State) (src : Src) (d : Nat) (flash : Option (FlashRead × FlashRead)) : Word32 × State :=
  let w := s.ftlReqWord d
  if src.peeks then (w, s)
  else
    match SMap.get [] s.fab.requests d with
    | [] => (w, s)
    | r :: rest =>
      let s1 := ({ s with fab := { s.fab with requests := SMap.set [] s.fab.requests d rest } } : State).put F.ftlStat_qlevel [d] rest.length
      (w, if src.requester = 10 then s1.prepareRepair d r flash else s1)

/-- FETTLER_REQUEST_POP: `flash` is what the flash brings to MC firmware: from the image header on, and from the stored chunk on. -/
def execFettlerRequestPop (src : Src) (d : Fin 4) (flash : Option (FlashRead × FlashRead)) (s : State) : Out :=
  let (w, s1) := s.ftlPop src d flash
  .next (s1.answerWord src w)

/-- A write to FTL_RCMD by the MC starts a repair; a frame that is not there is refused, as is every repair while the engine of
the die does not run (R329). -/
def State.rcmd (s : State) (op die frame : Nat) : State :=
  if s.flag F.ftlRcmd_busy [] ∨ op = 0 ∨ 2 < op then s
  else if 49152 ≤ frame ∨ !s.runs (20 + die) then s.put F.ftlRcmd_res [] 1
  else (((s.put F.ftlRcmd_op [] op).put F.ftlRcmd_die [] die).put F.ftlRcmd_frame [] frame).raise F.ftlRcmd_busy []
def State.rcmdWrite (s : State) (src : Src) (w : Word32) : State :=
  if src.requester = 10 then s.regAct src .ftlRcmd [] w (·.rcmd (F.ftlRcmd_op.of w) (F.ftlRcmd_die.of w) (F.ftlRcmd_frame.of w))
  else s.answer src .serr

/-- WRITE_FRAME, WRITE_FRAME_REBUILD_SIGNATURE: ops 1 and 2. -/
def execWriteFrame (src : Src) (die : Fin 4) (frame : BitVec 16) (s : State) : Out :=
  .next (s.rcmdWrite src (BitVec.ofNat 32 (2 ^ 29 + 2 ^ 24 * die.val + frame.toNat)))
def execWriteFrameRebuildSignature (src : Src) (die : Fin 4) (frame : BitVec 16) (s : State) : Out :=
  .next (s.rcmdWrite src (BitVec.ofNat 32 (2 ^ 30 + 2 ^ 24 * die.val + frame.toNat)))

/-- The frame FTL_RBUF holds. -/
def State.rbuf (s : State) : List Byte := ((List.range 512).map (fun i => leBytes 4 (s.reg .ftlRbuf [i]).toNat)).flatten

/-- FRAME_REWRITE_DONE: between the chunks of a load the engine writes the frame from FTL_RBUF and reads it back (`back`: its
contents, where they are not what was written). Op 1 compares it with the golden signature; op 2 first stores a new one, and
the frame is checked again from then on. -/
def execFrameRewriteDone (back : Option (List Byte)) (s : State) : Out :=
  if !s.flag F.ftlRcmd_busy [] || s.load.inChunk then .next s
  else
    let d := s.get F.ftlRcmd_die []
    let f := s.get F.ftlRcmd_frame []
    let wrote := s.rbuf
    let s1 := (s.setFrame d f (back.getD wrote)).put F.ftlRcmd_busy [] 0
    let chunk := (dec53 (s1.sig d f)).data / 2 ^ 32 % 2 ^ 14
    let s2 := if s1.get F.ftlRcmd_op [] = 2 then s1.setSig d f (enc53 ((crc32 wrote).toNat + 2 ^ 32 * chunk)) else s1
    let loc := leBytes 1 d ++ leBytes 2 f ++ leBytes 2 chunk
    if (crc32 (s2.frame d f)).toNat = (dec53 (s2.sig d f)).data % 2 ^ 32 then
      let s3 := ({ s2 with fab := { s2.fab with skip := s2.fab.skip.filter (· != frameKey d f) } } : State)
      .next ((s3.put F.ftlRcmd_res [] 0).logEv d 4 0 0x0404 1 loc)
    else
      .next (((((s2.put F.ftlRcmd_res [] 2).raise F.ftlStat_hard [d]).noteFailing d f).logEv d 4 0 0x0405 4 loc).ftlSkip d f)

end Sys2Proof.Machine
end

