-- ==== Sys2Proof/Machine/Tarod.lean ====
section
/-!
DEFINITION. Sys2Proof/Machine/Tarod.lean: what a running Tarod instance does beside native logic (R338, R349 to R353).
-/

namespace Sys2Proof.Machine

/-- The die of the Tarod instance. -/
def State.tarod (s : State) : Option Nat := if s.flag F.glbTarod_active [] then some (s.get F.glbTarod_die [] + 2) else none

/-- A write to FTL_TRBCMD by the holder of the readback lock (R351). -/
def State.trbCommand (s : State) (src : Src) (op frame : Nat) : State :=
  if op ≠ 1 ∨ s.flag F.ftlTrbcmd_busy [] then s
  else
    match s.tarod with
    | none => s.put F.ftlTrbcmd_res [] 1
    | some d =>
      if (s.flag F.glbTarod_enc [] && src.requester != 10) || !Config.legacyFrameOk frame then s.put F.ftlTrbcmd_res [] 1
      else
        let b := (Config.legacyFrame s.fab.frames s.fab.capt s.fab.bram d frame).take 404
        (s.fillWin .ftlTrbwin ((b ++ List.replicate 512 0#8).take 512)).put F.ftlTrbcmd_res [] 0
def State.trbWrite (s : State) (src : Src) (w : Word32) : State :=
  if s.rbHolds src then s.regAct src .ftlTrbcmd [] w (·.trbCommand src (F.ftlTrbcmd_op.of w) (F.ftlTrbcmd_frame.of w)) else s.answer src .serr

/-- READ_LEGACY_FRAME. -/
def execReadLegacyFrame (src : Src) (frame : BitVec 24) (s : State) : Out :=
  .next (s.trbWrite src (BitVec.ofNat 32 (2 ^ 29 + frame.toNat)))

/-- LEGACY_CAPTURE_TRIGGER: every flip-flop of the Tarod die enters its capture bit (R350). -/
def execLegacyCaptureTrigger (near : List Nat) (s : State) : Out :=
  match s.tarod with
  | none => .next s
  | some d => .next ((List.range 16).foldl (fun s k => s.captureFlask (16 * d + k) near) s)

/-- LEGACY_GLOBAL_SET_RESET: while the legacy design asserts it, every flip-flop of the die takes its init (R349); on its release
asynchronous SR inputs that are 1 act (R223). -/
def execLegacyGlobalSetReset (level : Bool) (s : State) : Out :=
  match s.tarod with
  | none => .next s
  | some d =>
    let s1 := s.put F.glbTarod_gsr [] (b2n level)
    if !level then .next (s1.applySrs (fun e _ => e == d))
    else
      let s2 := s1.initFfs (fun e _ => e == d)
      .next ((List.range 5120).foldl (fun s p =>
        let x := s.bramPort d (p / 2) (p % 2)
        s.setBramPort d (p / 2) (p % 2) { x with out := { x.out with data := Config.legacyGsrOut d p x.out.data } }) s2)

/-- LEGACY_PIN_CLOCK_LOST: the PLL's outputs stop and its lock falls (R338). -/
def execLegacyPinClockLost (f : Fin 8) (s : State) : Out :=
  match s.tarod with
  | none => .next s
  | some d =>
    let s1 := s.put F.glbTarod_fpllLock [] (Nat.land (s.get F.glbTarod_fpllLock []) (255 - 2 ^ f.val))
    let rest := s1.fab.pllOff.filter (· != 8 * d + f.val)
    .next { s1 with fab := { s1.fab with pllOff := (8 * d + f.val) :: rest } }

/-- LEGACY_PLL_RELOCK. -/
def execLegacyPllRelock (f : Fin 8) (s : State) : Out :=
  match s.tarod with
  | none => .next s
  | some d =>
    let s1 := s.put F.glbTarod_fpllLock [] (Nat.lor (s.get F.glbTarod_fpllLock []) (2 ^ f.val))
    .next { s1 with fab := { s1.fab with pllOff := s1.fab.pllOff.filter (· != 8 * d + f.val) } }

end Sys2Proof.Machine
end

