-- ==== Sys2Proof/Machine/Update.lean ====
section
/-!
DEFINITION. Sys2Proof/Machine/Update.lean: firmware sets, their staging, activation, trial and reversion, the restart of the
MC, OTP, owner requests, and attestation (R452, R467, R499 to R518).
-/

namespace Sys2Proof.Machine

/-! ## Memory of a request -/

/-- Write bytes to memory as master 60, in pieces that stay in one 64-byte block; whether every piece was written. -/
def memWrite : Nat → Nat → List Byte → State → Bool × State
  | 0, _, b, s => (b.isEmpty, s)
  | k + 1, a, b, s =>
    if b.isEmpty then (true, s)
    else
      let n := min b.length (64 - a % 64)
      let (c, _, s) := s.engineAccess (engineReq 60 true a n (b.take n) [])
      if c = .ok then memWrite k (a + n) (b.drop n) s else (false, s)

/-- A log entry of MC firmware (class 0x0B). -/
def State.updLog (s : State) (event sev : Nat) (payload : List Byte) : State := s.logEv 8 12 0 event sev payload

/-! ## Manifests (R499 to R502) -/

/-- Entry e of a manifest: type, SVN, digest. -/
def entryType (m : List Byte) (e : Nat) : Nat := fieldAt m (0x20 + 40 * e) 1
def entrySvn (m : List Byte) (e : Nat) : Nat := fieldAt m (0x24 + 40 * e) 4
def entryDigest (m : List Byte) (e : Nat) : BitVec 256 := BitVec.ofNat 256 (beNat (slice m (0x28 + 40 * e) 32))
def entryCount (m : List Byte) : Nat := fieldAt m 0xD 1
def heatOf (m : List Byte) : Nat := fieldAt m 8 4

/-- The digest a manifest gives a type. -/
def digestOfType (m : List Byte) (t : Nat) : Option (BitVec 256) :=
  ((List.range (min 8 (entryCount m))).find? (fun e => entryType m e == t)).map (entryDigest m)

/-- The manifest of the active set. -/
def State.activeManifest (s : State) : List Byte := (s.upd.commit.map (·.manifest)).getD []

/-- Check 1: magic, version, reserved bytes, entry order. -/
def manifestForm (m : List Byte) : Bool :=
  let n := entryCount m
  let types := (List.range n).map (entryType m)
  slice m 0 4 == [0x59#8, 0x4D#8, 0x41#8, 0x4E#8] && fieldAt m 4 2 == 1 && zeroAt m 0xF 17 && zeroAt m 0x1A0 32 &&
  fieldAt m 0xE 1 / 2 == 0 && decide (4 ≤ n ∧ n ≤ 8) && types.take 4 == [1, 2, 3, 4] &&
  (types.drop 4).all (fun t => t == 6 || decide (0x10 ≤ t ∧ t ≤ 0x13)) && types.Nodup &&
  (List.range 8).all (fun e => if e < n then zeroAt m (0x21 + 40 * e) 3 else zeroAt m (0x20 + 40 * e) 40)

/-- Check 3: the signer's key hashes to the named key, which is not revoked; an owner may not change types 1 to 4 (R501). -/
def State.signerOk (s : State) (m : List Byte) : Bool :=
  let signer := fieldAt m 0xC 1
  let hash := sha256 (slice m 0x160 64)
  if signer < 2 then hash == Config.yilpenKey signer && !s.otp.ykeyRev.getLsbD signer
  else if 0x10 ≤ signer ∧ signer < 0x14 then
    SMap.find? s.otp.ownerKeys (signer - 0x10) == some hash && !s.otp.ownerRev.getLsbD (signer - 0x10) &&
      (List.range 4).all (fun e => digestOfType s.activeManifest (e + 1) == some (entryDigest m e))
  else false

/-- Checks 1 to 6 of R502; 0 where they pass. -/
def State.manifestError (s : State) (m : List Byte) : Nat :=
  if !manifestForm m then 1
  else if fieldAt m 6 2 ≠ 0x8640 then 2
  else if !s.signerOk m then 3
  else if !ecdsaVerify (BitVec.ofNat 512 (beNat (slice m 0x160 64))) (sha256 (m.take 0x1C0))
      (BitVec.ofNat 512 (beNat (slice m 0x1C0 64))) then 4
  else if heatOf m ≤ ((s.upd.commit.map (·.heat)).getD 0) then 5
  else if (List.range 4).any (fun e => decide (entrySvn m e < SMap.get 0 s.otp.svn (e + 1))) then 6
  else 0

/-- The entries to be staged: those whose digest is not the active one. -/
def State.changedEntries (s : State) (m : List Byte) : List Nat :=
  (List.range (entryCount m)).filter (fun e => digestOfType s.activeManifest (entryType m e) != some (entryDigest m e))

/-- Base and length of a pattern in 64 bytes of directory entries. -/
def patternEntry (dir : List Byte) (p : Nat) : Nat × Nat := (fieldAt dir (16 * p) 8, fieldAt dir (16 * p + 8) 8)

/-- The area that a changed pattern is written to: the one its directory entry does not name (R504). -/
def State.targetArea (s : State) (p : Nat) : Nat :=
  let alt := (Config.boardArea s.upd.board p).1
  match s.upd.commit with
  | some c => if (patternEntry c.dir p).1 = alt then (patternEntry c.prevDir p).1 else alt
  | none => alt

/-- The largest size of a component (R499). -/
def State.sizeLimit (s : State) (t : Nat) : Nat :=
  match t with
  | 1 => 512 * 1024
  | 2 => 8 * 2 ^ 20
  | 3 => 2 ^ 20
  | 4 => 2 ^ 20
  | 6 => 8192
  | _ => (Config.boardArea s.upd.board (t - 0x10)).2

/-- A component in the buffer: its entry, its header and table, its length. -/
structure Comp where
  entry : Nat
  head : List Byte
  len : Nat
deriving DecidableEq, Repr

/-- Read the components, one after another from address `a`; none where a read fails. -/
def readComps (m : List Byte) : List Nat → Nat → State → Option (List Comp) × State
  | [], _, s => (some [], s)
  | e :: es, a, s =>
    match memRead 8 a s with
    | (none, s) => (none, s)
    | (some h, s) =>
      match memRead ((tableEnd h + 63) / 64) a s with
      | (none, s) => (none, s)
      | (some head, s) =>
        let own := imageLen h
        let (tail, s) := if 0x10 ≤ entryType m e ∧ hFollower h ≠ 0 then
            match memRead 8 (a + own) s with
            | (some g, s) => (imageLen g, s)
            | (none, s) => (0, s)
          else (0, s)
        match readComps m es (a + own + tail) s with
        | (some r, s) => (some (⟨e, head.take (tableEnd h), own + tail⟩ :: r), s)
        | (none, s) => (none, s)

/-- Whether a component passes its checks (R502). -/
def State.compOk (s : State) (m : List Byte) (c : Comp) : Bool :=
  let h := c.head.take 512
  let pattern := decide (0x10 ≤ entryType m c.entry)
  headerForm h && fieldAt h 6 2 == 0x8640 && decide (fieldAt h 8 1 ≤ s.get F.glbFeature_devLevel []) &&
  hKind h == (if pattern then 1 else 4) &&
  sha256 (slice c.head 512 (32 * hChunks h)) == BitVec.ofNat 256 (beNat (slice h 0x40 32)) &&
  sha256 h == entryDigest m c.entry && (!pattern || (s.keyOk h && signatureOk h))

/-- An update fails: error, state 5. -/
def State.updFail (s : State) (err : Nat) : State := (s.put F.updStat_err [] err).put F.updStat_state [] 5

/-- A check of R502 fails: it is logged as well. -/
def State.updRefuse (s : State) (m : List Byte) (err entry : Nat) : State :=
  (s.updFail err).updLog 0x0B01 2 (leBytes 4 (heatOf m) ++ leBytes 1 err ++ leBytes 1 entry)

/-- The area of a changed pattern holds an image that the fettler's repairs use (R505). -/
def State.areaInUse (s : State) (base len : Nat) : Bool :=
  (List.range 68).any (fun r =>
    let a := s.get F.ftlRsrcLo_addr [r] + 2 ^ 32 * s.get F.ftlRsrcHi_addr [r]
    s.get F.ftlRsrcHi_kind [r] == 1 && decide (base ≤ a ∧ a < base + len))

/-- The directory entries with those of the changed patterns replaced. -/
def State.newEntries (s : State) (m : List Byte) (cs : List Comp) : List Byte :=
  let old := (s.upd.commit.map (·.dir)).getD (List.replicate 64 0#8)
  ((List.range 4).map (fun p =>
    match cs.find? (fun c => entryType m c.entry == 0x10 + p) with
    | some c => leBytes 8 (s.targetArea p) ++ leBytes 8 c.len
    | none => slice old (16 * p) 16)).flatten

/-- Check and stage from UPD_BUF (R502 to R505). -/
def State.checkAndStage (s : State) : State :=
  let st := s.get F.updStat_state []
  if 1 ≤ st ∧ st ≤ 4 then s.raise F.updStat_cmdErr []
  else if !s.pwr.mcRuns || s.pwr.mcHalted then s
  else
    let a := s.get F.updBufLo_addr [] * 512 + 2 ^ 32 * s.get F.updBufHi_addr []
    match memRead 8 a s with
    | (none, s) => s.updRefuse [] 1 0
    | (some m, s) =>
      let err := s.manifestError m
      if err ≠ 0 then s.updRefuse m err 0
      else
        match readComps m (s.changedEntries m) (a + 512) s with
        | (none, s) => s.updRefuse m 7 0
        | (some cs, s) =>
          match cs.find? (fun c => decide (s.sizeLimit (entryType m c.entry) < c.len)) with
          | some c => s.updRefuse m 8 c.entry
          | none =>
            match cs.find? (fun c => !s.compOk m c) with
            | some c => s.updRefuse m 7 c.entry
            | none =>
              if cs.any (fun c => decide (0x10 ≤ entryType m c.entry) &&
                  s.areaInUse (s.targetArea (entryType m c.entry - 0x10)) c.len) then s.updFail 9
              else
                let (board, s) := match cs.find? (fun c => entryType m c.entry == 6) with
                  | none => (s.upd.board, s)
                  | some c =>
                    let off := 512 + ((cs.takeWhile (fun (x : Comp) => x.entry != c.entry)).map (fun (x : Comp) => x.len)).foldl (· + ·) 0
                    match memRead ((c.len - tableEnd (c.head.take 512) + 63) / 64) (a + off + tableEnd (c.head.take 512)) s with
                    | (some b, s) => ((s.payload (c.head.take 512) 0 (b.take (hBody (c.head.take 512)))).getD s.upd.board, s)
                    | (none, s) => (s.upd.board, s)
                let u : UpdSt := { s.upd with staged := m, changed := cs.map (fun (x : Comp) => entryType m x.entry),
                                              newDir := s.newEntries m cs, newBoard := board }
                ({ s with upd := u } : State).put F.updStat_state [] 2

/-- STAGING_COMPLETE: every staged byte has been read back and agrees (`ok`), or the flash failed (R504). -/
def execStagingComplete (ok : Bool) (s : State) : Out :=
  if s.get F.updStat_state [] ≠ 2 then .next s
  else if ok then .next (s.put F.updStat_state [] 3)
  else .next (s.updFail 0xA)

/-! ## Activation, trial, confirmation, reversion (R506 to R511) -/

/-- The directory in flash, both copies, names new pattern entries. -/
def State.writeDirectory (s : State) (dir : List Byte) : State :=
  let old := match s.pickDir with
    | some (d, _) => d
    | none => (s.flashBytes 0 4096 s.load.flash.copyA).getD (List.replicate 4096 0#8)
  let body := old.take 8 ++ dir.take 64 ++ slice old 0x48 (0xFFC - 0x48)
  let d := body ++ leBytes 4 (crc32 body).toNat
  { s with load := { s.load with flash := { s.load.flash with copyA := s.flashSplit d, copyB := s.flashSplit d } } }

/-- A new commit record in the other copy; the present record stays in its own (R506). -/
def State.writeCommit (s : State) (c : Commit) : State :=
  let seq := (s.upd.commit.map (·.seq)).getD 0 + 1
  { s with upd := { s.upd with commit := some { c with seq := seq }, copy := 1 - s.upd.copy, other := s.upd.commit } }

/-- The boot ROM starts the MC anew (R508, R510); it halts at once where the debugger has asked for it (R533). -/
def State.bootMc (s : State) : State :=
  { s with pwr := { s.pwr with mcRuns := true, mcHalted := (s.coreOf 4).resetHalt && s.flag F.dbgCfg_mcScope [], sram := [] } }

/-- The trial lasts 60 s of timebase. -/
def trialTime : Nat := 60000000000

/-- Activate the staged set (R506, R508). -/
def State.activate (s : State) : State :=
  if s.get F.updStat_state [] ≠ 3 then s.raise F.updStat_cmdErr []
  else if !s.pwr.mcRuns || s.pwr.mcHalted then s
  else
    match s.upd.commit with
    | none => s
    | some c =>
      let u := s.upd
      let flip := (u.changed.filter (fun t => decide (1 ≤ t ∧ t ≤ 4))).foldl (fun n t => n + 2 ^ (t - 1)) 0
      let heat := heatOf u.staged
      let rec_ : Commit := { seq := 0, state := 1, slots := c.slots ^^^ flip, prevSlots := c.slots, heat := max c.heat heat,
                             dir := u.newDir, prevDir := c.dir, manifest := u.staged, prevManifest := c.manifest }
      let s := (s.writeCommit rec_).writeDirectory u.newDir
      let s := ({ s with upd := { s.upd with trialLeft := trialTime, board := u.newBoard } } : State).put F.updStat_state [] 4
      let mask := u.changed.foldl (fun n t => n + 2 ^ t) 0
      let s := s.updLog 0x0B02 0 (leBytes 4 heat ++ leBytes 4 mask)
      if u.changed.contains 1 then s.bootMc else s

/-- An OTP fuse is blown: logged (0x0B05). -/
def State.fuseLog (s : State) (op index : Nat) : State := s.updLog 0x0B05 5 (leBytes 1 op ++ leBytes 1 index)

/-- Fuses are blown until the counter of each of types 1 to 4 equals its type's SVN (R511). -/
def State.blowSvn (s : State) (m : List Byte) (fuse : Nat) : State :=
  (List.range 4).foldl (fun s e =>
    let old := SMap.get 0 s.otp.svn (e + 1)
    let new := max old (min 64 (entrySvn m e))
    if new = old then s
    else ({ s with otp := { s.otp with svn := SMap.set 0 s.otp.svn (e + 1) new } } : State).fuseLog
      (Config.freeValue 8 fuse).toNat (e + 1)) s

/-- Confirmation (R509, R511): `healthy` says that the health checks have passed. -/
def State.confirm (s : State) (healthy : Bool) : State :=
  if s.get F.updStat_state [] ≠ 4 ∨ !healthy then s.raise F.updStat_cmdErr []
  else
    match s.upd.commit with
    | none => s
    | some c =>
      let s := s.writeCommit { c with state := 2 }
      let s := ({ s with upd := { s.upd with trialLeft := 0, staged := [], changed := [] } } : State).put F.updStat_state [] 0
      let (fuse, s) := s.draw
      let s := s.blowSvn c.manifest fuse
      let signer := fieldAt c.manifest 0xC 1
      let s := if fieldAt c.manifest 0xE 1 % 2 = 1 ∧ signer < 2 ∧ !s.otp.ykeyRev.getLsbD (1 - signer) then
          ({ s with otp := { s.otp with ykeyRev := s.otp.ykeyRev ||| BitVec.ofNat 2 (2 ^ (1 - signer)) } } : State).fuseLog
            (Config.freeValue 8 fuse).toNat (1 - signer)
        else s
      let s := s.otpRegs
      s.updLog 0x0B03 0 (leBytes 4 (heatOf c.manifest) ++ ((List.range 4).map (fun e => leBytes 1 (SMap.get 0 s.otp.svn (e + 1)))).flatten)

/-- The set is reverted (R510): cause 0 timer, 1 MC restart, 2 restart during trial. -/
def State.revertSet (s : State) (cause : Nat) : State :=
  match s.upd.commit with
  | none => s
  | some c =>
    let s := (s.writeCommit { c with state := 3, slots := c.prevSlots, dir := c.prevDir, manifest := c.prevManifest }).writeDirectory c.prevDir
    let s := ({ s with upd := { s.upd with trialLeft := 0, staged := [], changed := [] } } : State)
    let s := ((s.put F.updStat_err [] 0xB).put F.updStat_state [] 0).bootMc
    s.updLog 0x0B04 4 (leBytes 4 (heatOf c.manifest) ++ leBytes 1 cause)

/-- Discard the staged set. -/
def State.discard (s : State) : State :=
  match s.get F.updStat_state [] with
  | 3 => ({ s with upd := { s.upd with staged := [], changed := [] } } : State).put F.updStat_state [] 0
  | 0 => s
  | 5 => s
  | _ => s.raise F.updStat_cmdErr []

/-- A write to UPD_CMD: op 3 from the MC only. -/
def State.updWrite (s : State) (src : Src) (w : Word32) (healthy : Bool) : State :=
  match F.updCmd_op.of w with
  | 1 => s.command src .updCmd [] w State.checkAndStage
  | 2 => s.command src .updCmd [] w State.activate
  | 3 => if src.requester = 10 then s.regAct src .updCmd [] w (·.confirm healthy) else s.answer src .serr
  | 4 => s.command src .updCmd [] w State.discard
  | _ => s.command src .updCmd [] w id

/-- CHECK_AND_STAGE, ACTIVATE, CONFIRM, DISCARD_STAGED_SET: ops 1 to 4. -/
def execCheckAndStage (src : Src) (s : State) : Out := .next (s.updWrite src 0x20000000#32 false)
def execActivate (src : Src) (s : State) : Out := .next (s.updWrite src 0x40000000#32 false)
def execConfirm (src : Src) (healthy : Bool) (s : State) : Out := .next (s.updWrite src 0x60000000#32 healthy)
def execDiscardStagedSet (src : Src) (s : State) : Out := .next (s.updWrite src 0x80000000#32 false)

/-- TRIAL_TIMER_EXPIRY. -/
def execTrialTimerExpiry (s : State) : Out :=
  if s.get F.updStat_state [] = 4 ∧ s.upd.trialLeft = 0 then .next (s.revertSet 0) else .next s

/-- MC_RESTART: the hub restarts the MC alone and the boot ROM reloads the active firmware (R467); `watchdog` is the
cause. A restart during a trial reverts the set (R510). -/
def execMcRestart (watchdog : Bool) (s : State) : Out :=
  if s.clk.phase = .heldOff then .next s
  else
    let s1 := (s.raise F.pwrStat_mcRestart []).powerLog 0x0907 2 (leBytes 1 (b2n watchdog))
    let s2 := s1.bootMc
    .next (if s2.get F.updStat_state [] = 4 then s2.revertSet 1 else s2)

/-- ADAPTATION_EPOCH: a locked lane runs the firmware of the active slot from here on; an entry is written once every locked
lane of its die does (R452). -/
def execAdaptationEpoch (l : Fin 40) (s : State) : Out :=
  match s.upd.commit with
  | none => .next s
  | some c =>
    let slot := bitsOf c.slots 2 2
    if !s.flag F.lnLaneStat_lock [l] || SMap.get 0 s.upd.laneFw l.val == slot then .next s
    else
      let fw := SMap.set 0 s.upd.laneFw l.val slot
      let s1 := ({ s with upd := { s.upd with laneFw := fw } } : State)
      let die := laneSite l
      let rest := (List.range 40).any (fun k => laneSite k == die && s.flag F.lnLaneStat_lock [k] && SMap.get 0 fw k != slot)
      .next (if rest then s1 else s1.logEv die 10 0 0x0806 0 (leBytes 1 die))

/-! ## Owner requests and keys (R514, R515) -/

/-- The status of an owner request of operation `op` on slot `i`, signed by key `k`, and what it blows. -/
def State.ownerApply (s : State) (op i k : Nat) (digest : BitVec 256) : Option State :=
  let o := s.otp
  match op with
  | 1 =>
    if i < 4 ∧ (SMap.find? o.ownerKeys i).isNone then
      some { s with otp := { o with ownerKeys := SMap.insert o.ownerKeys i digest } }
    else none
  | 2 =>
    let live := (List.range 4).filter (fun j => (SMap.find? o.ownerKeys j).isSome && !o.ownerRev.getLsbD j)
    if live.contains i && i != k && decide (2 ≤ live.length) then
      some { s with otp := { o with ownerRev := o.ownerRev ||| BitVec.ofNat 4 (2 ^ i) } }
    else none
  | 3 =>
    if o.hlDis then none
    else
      let s := ({ s with otp := { o with hlDis := true } } : State)
      some (((s.put F.pciStat_dlUp [] 0).put F.pciStat_speed [] 0).put F.pciStat_width [] 0)
  | 4 =>
    if 1 ≤ i ∧ i ≤ 4 ∧ !o.imageRev.getLsbD (i - 1) then
      some { s with otp := { o with imageRev := o.imageRev ||| BitVec.ofNat 4 (2 ^ (i - 1)) } }
    else none
  | 5 =>
    if i < 2 ∧ !o.legacyRev.getLsbD i then some { s with otp := { o with legacyRev := o.legacyRev ||| BitVec.ofNat 2 (2 ^ i) } }
    else none
  | _ => none

/-- Whether a signature of a digest verifies under the owner key whose SHA-256 digest is fused (R514). -/
def ownerVerify (keyDigest digest : BitVec 256) (sig : BitVec 512) : Bool :=
  let key := Config.ownerKey keyDigest
  sha256 (beBytes 64 key.toNat) == keyDigest && ecdsaVerify key digest sig

/-- Judge a request block with the signature that follows it: the reply's status. -/
def State.ownerRequest (s : State) (b : List Byte) : Nat × State :=
  let op := fieldAt b 0 1
  let i := fieldAt b 1 1
  let k := fieldAt b 2 1
  let block := b.take 128
  let exempt := op == 1 && i == 0 && s.otp.ownerKeys.isEmpty
  let known := match s.upd.nonce with
    | some n => slice b 0x20 32 == leBytes 32 n.toNat
    | none => false
  if !zeroAt b 3 29 || !zeroAt b 0x60 32 || (op != 1 && !zeroAt b 0x40 32) || !known then (5, s)
  else
    let s := ({ s with upd := { s.upd with nonce := none } } : State)
    let key := if s.otp.ownerRev.getLsbD k then none else SMap.find? s.otp.ownerKeys k
    match exempt, key with
    | false, none => (5, s)
    | ex, key =>
      let good := ex || (key.map (fun d => ownerVerify d (sha256 block) (BitVec.ofNat 512 (beNat (slice b 128 64))))).getD false
      if !good then (6, s)
      else
        match s.ownerApply op i k (BitVec.ofNat 256 (beNat (slice b 0x40 32))) with
        | some s1 => (0, (s1.otpRegs).fuseLog op i)
        | none => (5, s)

/-- MC firmware serves an owner request whose block `p` names (service 4 command 2). -/
def State.serveOwner (s : State) (c : Nat) (p : Nat → Bool) : State :=
  if !s.mcServes c || s.mbxWord c 0 != 0x40002 then s
  else
    match memRead 3 (s.mbxPair c 1) s with
    | (none, s1) => if p 0 then s1.mbxReply c 8 [5] else s
    | (some b, s1) =>
      if p (fieldAt b 0 1) then
        let (status, s2) := s1.ownerRequest b
        s2.mbxReply c 8 [status]
      else s

/-- PROGRAM_OWNER_KEY (op 1, and any op the block does not define, which is refused), REVOKE_OWNER_KEY (2), BLOW_HL_DIS (3),
REVOKE_IMAGE_KEY (4), REVOKE_LEGACY_KEY (5). -/
def execProgramOwnerKey (c : Fin 9) (s : State) : Out := .next (s.serveOwner c (fun op => !(decide (2 ≤ op) && decide (op ≤ 5))))
def execRevokeOwnerKey (c : Fin 9) (s : State) : Out := .next (s.serveOwner c (· == 2))
def execBlowHlDis (c : Fin 9) (s : State) : Out := .next (s.serveOwner c (· == 3))
def execRevokeImageKey (c : Fin 9) (s : State) : Out := .next (s.serveOwner c (· == 4))
def execRevokeLegacyKey (c : Fin 9) (s : State) : Out := .next (s.serveOwner c (· == 5))

/-- KEY_WRITE: service 5 on channel 0; a written or revoked slot refuses (R515). -/
def execKeyWrite (c : Fin 9) (s : State) : Out :=
  if !s.mcServes c || s.mbxWord c 0 != 0x50001 || c != 0 then .next s
  else
    let i := s.mbxWord c 1
    let key := BitVec.ofNat 256 (beNat (s.mbxBytes c 2 8))
    let o := s.otp
    let (fuse, s) := s.draw
    let done (o : Otp) : State :=
      ((({ s with otp := o } : State).otpRegs).fuseLog (Config.freeValue 8 fuse).toNat i).mbxReply c 8 [0]
    if 1 ≤ i ∧ i ≤ 4 ∧ (SMap.find? o.imageKeys i).isNone ∧ !o.imageRev.getLsbD (i - 1) then
      .next (done { o with imageKeys := SMap.insert o.imageKeys i key })
    else if 0x10 ≤ i ∧ i ≤ 0x11 ∧ (SMap.find? o.legacyKeys (i - 0x10)).isNone ∧ !o.legacyRev.getLsbD (i - 0x10) then
      .next (done { o with legacyKeys := SMap.insert o.legacyKeys (i - 0x10) key })
    else .next (s.mbxReply c 8 [5])

/-! ## Attestation (R517, R518) -/

/-- One entry of a report. -/
def reportEntry (kind index state n : Nat) (d : BitVec 256) : List Byte :=
  leBytes 1 kind ++ leBytes 1 index ++ leBytes 1 state ++ [0#8] ++ leBytes 4 n ++ beBytes 32 d.toNat

/-- The entries, in report order; `free` gives the state and count bytes that the manual does not state. -/
def State.reportEntries (s : State) (free : Nat) : List (List Byte) :=
  let m := s.activeManifest
  let st := (Config.freeValue 8 free).toNat
  let n := (Config.freeValue 32 free).toNat
  let image (k : Nat) : BitVec 256 := (SMap.find? s.load.images k).getD 0#256
  [reportEntry 1 0 st n Config.bootRomDigest] ++
  (List.range 4).map (fun e => reportEntry (2 + e) 0 st (entrySvn m e) (entryDigest m e)) ++
  [reportEntry 6 0 st n (Config.otpDigest { s.otp with imageKeys := [], legacyKeys := [] })] ++
  (List.range 4).map (fun d => reportEntry 7 d (b2n (s.loadedDie d)) n (image d)) ++
  ((List.range 4).filter (fun d => s.tarodDie d)).map (fun d => reportEntry 8 d st n (image (8 + d))) ++
  ((List.range 64).filter (fun f => s.get F.ftlFlask_loads [f] != 0 && (SMap.find? s.load.images (16 + f)).isSome)).map
    (fun f => reportEntry 9 f st (s.get F.ftlFlask_loads [f]) (image (16 + f)))

/-- A signed report over a nonce. -/
def State.report (s : State) (nonce : List Byte) (free : Nat) : List Byte :=
  let es := s.reportEntries free
  let n := es.length
  let body := [0x59#8, 0x41#8, 0x54#8, 0x52#8] ++ leBytes 2 1 ++ leBytes 2 0x8640 ++ leBytes 4 (160 + 40 * n) ++ leBytes 2 n ++
    leBytes 1 (s.get F.updStat_state []) ++ leBytes 1 (s.get F.glbFeature_devLevel []) ++ nonce ++ leBytes 8 (s.now 8) ++
    leBytes 4 (heatOf s.activeManifest) ++ leBytes 4 0 ++ beBytes 32 (sha256 (beBytes 64 (publicKey Config.identityKey).toNat)).toNat ++ es.flatten
  let digest := sha256 body
  body ++ beBytes 64 (ecdsaSign Config.identityKey (Config.signNonce digest) digest).toNat

/-- Write a document to a requester's buffer and answer: 0 done, 2 busy, 3 too small, 4 write failed; then its length. -/
def State.deliver (s : State) (c : Nat) (busy : Bool) (doc : List Byte) (addr size : Nat) : State :=
  if busy then s.mbxReply c 8 [2, doc.length]
  else if size < doc.length then s.mbxReply c 8 [3, doc.length]
  else
    let (ok, s) := memWrite (doc.length + 1) addr doc s
    s.mbxReply c 8 [if ok then 0 else 4, doc.length]

/-- ATTESTATION: service 2; `busy` says that MC firmware answers busy. -/
def execAttestation (c : Fin 9) (busy : Bool) (s : State) : Out :=
  if !s.mcServes c || s.mbxWord c 0 != 0x20001 then .next s
  else
    let (n, s) := s.draw
    .next (s.deliver c busy (s.report (s.mbxBytes c 1 8) n) (s.mbxPair c 9) (s.mbxWord c 11))

/-- CERTIFICATE_CHAIN: service 3. -/
def execCertificateChain (c : Fin 9) (busy : Bool) (s : State) : Out :=
  if !s.mcServes c || s.mbxWord c 0 != 0x30001 then .next s
  else .next (s.deliver c busy Config.certificateChain (s.mbxPair c 1) (s.mbxWord c 3))

/-- DEVICE_NONCE: service 4 command 1; the nonce is valid for one request. -/
def execDeviceNonce (c : Fin 9) (s : State) : Out :=
  if !s.mcServes c || s.mbxWord c 0 != 0x40001 then .next s
  else
    let (n, s) := s.draw
    let v := Config.random n
    let s := ({ s with upd := { s.upd with nonce := some v } } : State)
    .next (s.mbxReply c 10 ([0, s.mbxWord c 1] ++ (List.range 8).map (fun k => bitsOf v.toNat (32 * k + 31) (32 * k))))

end Sys2Proof.Machine
end

