-- ==== Sys2Proof/Machine/Cores.lean ====
section
/-!
DEFINITION. Sys2Proof/Machine/Cores.lean: the control cores: reset and boot, the secure state, watchdogs, the page operations
of CC_CMO, I/O accesses, and triggers (R519 to R530, R534, R540).  The instructions the cores execute are no commands of
the device: what a program has left in a hart's registers comes as an operand of the event that stops it.
-/

namespace Sys2Proof.Machine

/-! ## Hart registers (R533, R534) -/

/-- The key of a hart register: harts 0 to 3 are the cores, 4 the MC. -/
def hartKey (h n : Nat) : Nat := 65536 * h + n

/-- The key of word k of a trigger: 1 tdata1, 2 tdata2, 3 tdata3, 8 ytmask. -/
def trigKey (h t k : Nat) : Nat := hartKey h (0x8000 + 16 * t + k)

/-- What a hart register holds when nothing has written it: misa of RV64GC with S and U, mhartid, dcsr in machine mode,
triggers of type 6, ytmask all ones (R519, R534); 0 otherwise (log entry 45). -/
def hartDefault (h n : Nat) : BitVec 64 :=
  if n = 0x301 then 0x800000000014112D#64
  else if n = 0xF14 then BitVec.ofNat 64 h
  else if n = 0x7B0 then 0x40000003#64
  else if 0x8000 ≤ n ∧ n % 16 = 1 then 0x6000000000000000#64
  else if 0x8000 ≤ n ∧ n % 16 = 8 then 0xFFFFFFFFFFFFFFFF#64
  else 0#64

/-- A hart register as stored. -/
def State.hreg (s : State) (h n : Nat) : BitVec 64 := SMap.get (hartDefault h n) s.dbg.hregs (hartKey h n)
def State.setHreg (s : State) (h n : Nat) (v : BitVec 64) : State :=
  { s with dbg := { s.dbg with hregs := SMap.set (hartDefault h n) s.dbg.hregs (hartKey h n) v } }

/-- The registers a program has changed, as it leaves them. -/
def State.mergeHregs (s : State) (h : Nat) (l : List (BitVec 16 × BitVec 64)) : State :=
  l.foldl (fun s p => if p.1.toNat < 0x1040 ∧ p.1 ≠ 0x1000#16 then s.setHreg h p.1.toNat p.2 else s) s

/-- The numbers of the CSRs a trap or a halt uses. -/
def csrMstatus : Nat := 0x300
def csrMedeleg : Nat := 0x302
def csrDcsr : Nat := 0x7B0
def csrDpc : Nat := 0x7B1

/-- Bits [hi:lo] of a 64-bit register, and the register with them replaced. -/
def bits64 (v : BitVec 64) (hi lo : Nat) : Nat := bitsOf v.toNat hi lo
def putBits64 (v : BitVec 64) (hi lo x : Nat) : BitVec 64 :=
  BitVec.ofNat 64 (v.toNat - bitsOf v.toNat hi lo * 2 ^ lo + x % 2 ^ (hi + 1 - lo) * 2 ^ lo)

/-- A core takes an exception: cause, the trap value and the pc are saved, the interrupt enable and the mode are stacked in
mstatus, in supervisor mode where medeleg delegates it, and the pc goes to the handler (RV64GC privileged architecture,
R519; PRESUMED, log entry 46). -/
def State.hartTrap (s : State) (h cause : Nat) (tval pc : BitVec 64) (prv : Nat) : State :=
  let deleg := prv ≠ 3 ∧ (s.hreg h csrMedeleg).getLsbD cause
  let base := if deleg then 0x100 else 0x300
  let m := s.hreg h csrMstatus
  let m := if deleg then putBits64 (putBits64 (putBits64 m 5 5 (bits64 m 1 1)) 1 1 0) 8 8 prv
    else putBits64 (putBits64 (putBits64 m 7 7 (bits64 m 3 3)) 3 3 0) 12 11 prv
  let s := s.setHreg h csrMstatus m
  let s := ((s.setHreg h (base + 0x41) pc).setHreg h (base + 0x42) (BitVec.ofNat 64 cause)).setHreg h (base + 0x43) tval
  let s := s.setHreg h csrDcsr (putBits64 (s.hreg h csrDcsr) 1 0 (if deleg then 1 else 3))
  s.setHreg h csrDpc (putBits64 (s.hreg h (base + 5)) 1 0 0)

/-- Whether a hart can be reached: its domain runs and it is out of reset (R537). -/
def State.hartUp (s : State) (h : Nat) : Bool :=
  if h < 4 then s.runs 4 && s.flag F.ccCoreCtrl_running [h] else s.runs 3 && s.pwr.mcRuns

/-- Whether a debugger holds a hart halted. -/
def State.hartHalted (s : State) (h : Nat) : Bool := if h < 4 then s.flag F.ccCoreCtrl_halted [h] else s.pwr.mcHalted

/-- A hart enters debug mode: its reservation is cleared (R524); `cause` is that of dcsr. -/
def State.enterDebug (s : State) (h cause : Nat) (pc : BitVec 64) : State :=
  let s := s.setCore h { s.coreOf h with resv := none, haltReq := false }
  let s := (s.setHreg h csrDpc pc).setHreg h csrDcsr (putBits64 (s.hreg h csrDcsr) 8 6 cause)
  if h < 4 then s.raise F.ccCoreCtrl_halted [h] else { s with pwr := { s.pwr with mcHalted := true } }

/-! ## Reset and boot (R522, R525, R526, R537, R540) -/

/-- A core is reset. In the connect-under-reset mode the state of the debug module and the trigger settings are lost; in the
own mode triggers are reapplied (R536). -/
def State.coreReset (s : State) (i : Nat) : State :=
  let own := s.get F.dbgCfg_mode [] = 1
  let s := ((s.put F.ccCoreCtrl_running [i] 0).put F.ccCoreCtrl_halted [i] 0).put F.ccCoreCtrl_secEn [i] 1
  let s := s.put F.ccWdt_en [i] 0
  let s := s.setCore i { s.coreOf i with resv := none, wdtLeft := 0, boot := 0 }
  let d := s.dbg
  let regs := SMap.clear d.hregs (fun k => decide (k / 65536 = i) && !(own && decide (0x8000 ≤ k % 65536)))
  let s :=
    if own then { s with dbg := { d with hregs := regs } }
    else
      let s := ({ s with dbg := { d with hregs := regs, dm := [], sberror := 0 } } : State)
      (List.range 5).foldl (fun s h => s.setCore h { s.coreOf h with resetHalt := false, haltReq := false }) s
  s.mbxReset (2 + i)

/-- The boot address of CC_BOOT. -/
def State.bootAddr (s : State) : Nat := s.get F.ccBootLo_addr [] * 4096 + 2 ^ 32 * s.get F.ccBootHi_addr []

/-- A core starts in machine mode at the boot address, or halts before its first instruction. -/
def State.startCore (s : State) (i : Nat) : State :=
  let pc := BitVec.ofNat 64 s.bootAddr
  let c := s.coreOf i
  let s := (s.raise F.ccCoreCtrl_running [i]).setHreg i csrDpc pc
  let s := s.setCore i { c with boot := 0 }
  if c.resetHalt then s.enterDebug i 5 pc else if c.haltReq then s.enterDebug i 3 pc else s

/-- The cores that hold released starts (R537). -/
def State.releaseHeld (s : State) : State :=
  if s.flag F.dbgCfg_hold [] then s
  else (List.range 4).foldl (fun s i => if (s.coreOf i).boot = 1 then s.startCore i else s) s

/-- A boot load fails: the core stays in reset, boot_err is set and the chunk logged (R526). -/
def State.bootFails (s : State) (i chunk : Nat) : State :=
  let s := (s.raise F.ccCoreCtrl_bootErr [i]).setCore i { s.coreOf i with boot := 2 }
  s.logEv 8 15 i 0x0C05 4 (leBytes 1 i ++ leBytes 1 chunk)

/-- The chunks of a boot component, each checked against the table before it is used: none, or the first that fails. -/
def bootChunks (h table : List Byte) (a : Nat) : Nat → Nat → List Byte → State → Option Nat × State
  | 0, _, _, s => (none, s)
  | n + 1, k, body, s =>
    let len := chunkLen h k
    let chunk := body.take len
    if chunk.length ≠ len ∨ sha256 chunk ≠ BitVec.ofNat 256 (beNat (slice table (32 * k) 32)) then (some k, s)
    else
      let (ok, s) := memWrite (len / 64 + 2) (a + 65536 * k) chunk s
      if ok then bootChunks h table a n (k + 1) (body.drop len) s else (some k, s)

/-- CORE_BOOT: rst is 0 and the DRAM that CC_BOOT names is trained; `img` is the active boot component as the flash delivers
it: header, chunk-hash table, body. -/
def execCoreBoot (i : Fin 4) (img : List Byte) (s : State) : Out :=
  let trained := match s.dramGate s.bootAddr with
    | .go _ => true
    | _ => false
  if s.flag F.ccCoreCtrl_rst [i] || s.flag F.ccCoreCtrl_running [i] || (s.coreOf i).boot != 0 || !s.clocked || !trained then .next s
  else if !s.pwr.mcRuns then
    let (f, s) := s.draw
    .next (s.bootFails i (Config.freeValue 8 f).toNat)
  else if s.pwr.mcHalted then .next s
  else
    let h := img.take 512
    match bootChunks h (img.drop 512) s.bootAddr (hChunks h) 0 (img.drop (tableEnd h)) s with
    | (some k, s) => .next (s.bootFails i k)
    | (none, s) =>
      let s := s.logEv 8 15 i 0x0C04 0 (leBytes 1 i ++ leBytes 4 (heatOf s.activeManifest))
      if s.flag F.dbgCfg_hold [] then .next (s.setCore i { s.coreOf i with boot := 1 }) else .next (s.startCore i)

/-- sec_drop clears sec_en until the next reset of the core (R522). -/
def State.secDrop (s : State) (i : Nat) : State := s.put F.ccCoreCtrl_secEn [i] 0

/-- A write to CC_COREi_CTRL. Requesters 1, 10 and 11 write it all; the core itself only sec_drop. Writing rst 0 starts the
boot of a core that does not run (R526). -/
def State.coreCtrlWrite (s : State) (q : Src) (i : Nat) (w : Word32) : State :=
  let drop := F.ccCoreCtrl_secDrop.of w = 1
  if mayWrite .ccCoreCtrl q then
    s.regAct q .ccCoreCtrl [i] w (fun s =>
      let s := s.writeReg .ccCoreCtrl [i] w
      let s :=
        if F.ccCoreCtrl_rst.of w = 1 then s.coreReset i
        else if !s.flag F.ccCoreCtrl_running [i] ∧ (s.coreOf i).boot = 2 then s.setCore i { s.coreOf i with boot := 0 }
        else s
      if drop then s.secDrop i else s)
  else if q.requester = 2 + i ∧ drop then s.regAct q .ccCoreCtrl [i] w (·.secDrop i)
  else s.answer q .serr

/-- CORE_RESET: rst 1. -/
def execCoreReset (src : Src) (i : Fin 4) (s : State) : Out := .next (s.coreCtrlWrite src i 0x80000000#32)

/-- SEC_DROP: sec_drop 1, with rst as it stands. -/
def execSecDrop (src : Src) (i : Fin 4) (s : State) : Out :=
  .next (s.coreCtrlWrite src i ((s.reg .ccCoreCtrl [i] &&& 0x80000000#32) ||| 0x20000000#32))

/-! ## Watchdogs (R529, R530) -/

/-- The counter takes the full period. -/
def State.wdtReload (s : State) (i : Nat) : State :=
  s.setCore i { s.coreOf i with wdtLeft := 1000 * s.get F.ccWdt_periodUs [i] }

/-- A write to CC_WDTi: the counter starts at the full period as en becomes 1, and reloads on kick. -/
def State.wdtWrite (s : State) (q : Src) (i : Nat) (w : Word32) : State :=
  let kick := F.ccWdt_kick.of w = 1
  if mayWrite .ccWdt q then
    s.regAct q .ccWdt [i] w (fun s =>
      let was := s.flag F.ccWdt_en [i]
      let s := s.writeReg .ccWdt [i] w
      if s.flag F.ccWdt_en [i] ∧ (kick ∨ !was) then s.wdtReload i else s)
  else if q.requester = 2 + i ∧ kick then
    s.regAct q .ccWdt [i] w (fun s => if s.flag F.ccWdt_en [i] then s.wdtReload i else s)
  else s.answer q .serr

/-- WATCHDOG_KICK: kick 1, the other fields as they stand. -/
def execWatchdogKick (src : Src) (i : Fin 4) (s : State) : Out :=
  .next (s.wdtWrite src i ((s.reg .ccWdt [i] &&& 0x80FFFFFF#32) ||| 0x20000000#32))

/-- Whether a watchdog has run out; it pauses while the core is halted (R530). -/
def State.wdtDue (s : State) (i : Nat) : Bool :=
  s.flag F.ccWdt_en [i] && !s.flag F.ccCoreCtrl_halted [i] && (s.coreOf i).wdtLeft == 0

/-- WATCHDOG_EXPIRY: the first sets expired, raises source 10 + k and reloads; the second resets the core. -/
def execWatchdogExpiry (k : Fin 4) (s : State) : Out :=
  if !s.wdtDue k then .next s
  else if s.flag F.ccWdt_expired [k] then
    .next (((s.coreReset k).raise F.ccCoreCtrl_wdtReset [k]).logEv 8 15 k 0x0C03 3 (leBytes 1 k.val))
  else .next (((s.raise F.ccWdt_expired [k]).interrupt (.wdt k)).wdtReload k)

/-! ## Page operations (R523) -/

/-- Clean, invalidate, or clean and invalidate a 4 KiB page in L2 and every L1. -/
def State.pageOp (s : State) (op page : Nat) : State :=
  (List.range 64).foldl (fun s k =>
    let b := 64 * page + k
    let s := if op = 1 ∨ op = 3 then s.cleanL2 b else s
    match SMap.find? s.l2 b with
    | some x => if op = 2 ∨ (op = 3 ∧ !x.dirty) then s.dropL2 b else s
    | none => s) s

/-- A write to CC_CMO_HI starts the operation. -/
def State.cmoWrite (s : State) (w : Word32) : State :=
  let s := s.writeReg .ccCmoHi [] w
  s.pageOp (F.ccCmoHi_op.of w) (s.get F.ccCmoLo_addr [] + 2 ^ 20 * s.get F.ccCmoHi_addr [])

/-- CLEAN, INVALIDATE, CLEAN_AND_INVALIDATE of the page whose address bits [47:32] are `hi`. -/
def execClean (src : Src) (hi : BitVec 16) (s : State) : Out :=
  .next (s.command src .ccCmoHi [] (0x40000000#32 ||| hi.setWidth 32) (·.cmoWrite (0x40000000#32 ||| hi.setWidth 32)))
def execInvalidate (src : Src) (hi : BitVec 16) (s : State) : Out :=
  .next (s.command src .ccCmoHi [] (0x80000000#32 ||| hi.setWidth 32) (·.cmoWrite (0x80000000#32 ||| hi.setWidth 32)))
def execCleanAndInvalidate (src : Src) (hi : BitVec 16) (s : State) : Out :=
  .next (s.command src .ccCmoHi [] (0xC0000000#32 ||| hi.setWidth 32) (·.cmoWrite (0xC0000000#32 ||| hi.setWidth 32)))

/-! ## I/O accesses (R520, R521) -/

/-- Whether an address is cacheable. -/
def cacheable (a : Nat) : Bool := decide (a < 2 ^ 40) || isHbm a

/-- Whether a core waits for the response of an I/O access. -/
def State.ioWaits (s : State) (i : Nat) : Bool := s.noc.tags.any (fun e => decide (e.1 / 256 = 4 * 57 + i) && !e.2.out)

/-- CORE_IO_ACCESS: the core of `r` issues an I/O access by master 57 in the control class, one at a time; a fetch, an LR, an
SC or an AMO to I/O raises the access-fault exception at `pc` in mode `prv`. -/
def execCoreIoAccess (r : Req) (kind : CoreAccess) (pc : BitVec 64) (prv : Fin 4) (s : State) : Out :=
  let i := r.src.core.val
  if cacheable r.addr.toNat || !s.hartUp i || s.hartHalted i then .next s
  else
    match kind with
    | .fetch => .next (s.hartTrap i 1 (r.addr.setWidth 64) pc prv)
    | .lr => .next (s.hartTrap i 5 (r.addr.setWidth 64) pc prv)
    | .amo => .next (s.hartTrap i 7 (r.addr.setWidth 64) pc prv)
    | .plain =>
      if s.ioWaits i then .next s
      else execNocRequestInject { r with src := ⟨57, r.src.core, decide (prv = 3), false⟩, cls := 2,
                                         tag := ⟨256 * i % 1024 + r.tag.val % 256, by omega⟩ } false s

/-! ## Triggers (R534) -/

/-- M of a NAPOT comparison: the bits above the lowest 0 of tdata2. -/
def napotMask (t : Nat) : Nat := 2 ^ 64 - 2 ^ (((List.range 64).find? (fun k => !t.testBit k)).getD 63 + 1)

/-- Whether a value matches tdata2 under a match setting: 0 equal under ytmask, 1 NAPOT, 2 at or above, 3 below, 4 and 5 the
low and the high half under a mask. -/
def trigMatch (m v t mask : Nat) : Bool :=
  match m with
  | 0 => Nat.land (Nat.xor v t) mask == 0
  | 1 => Nat.land v (napotMask t) == Nat.land t (napotMask t)
  | 2 => decide (t ≤ v)
  | 3 => decide (v < t)
  | 4 => Nat.land (v % 2 ^ 32) (t / 2 ^ 32) == t % 2 ^ 32
  | 5 => Nat.land (v / 2 ^ 32) (t / 2 ^ 32) == t % 2 ^ 32
  | _ => false

/-- Whether trigger t of core i is enabled for an access of `kind` in mode `prv` and matches: kind 0 execute, 1 load, 2 store. -/
def State.trigHits (s : State) (i t : Nat) (kind : Nat) (addr val : Nat) (prv : Nat) : Bool :=
  let d := s.hreg i (0x8000 + 16 * t + 1)
  let on := (if kind = 0 then d.getLsbD 2 else if kind = 1 then d.getLsbD 0 else d.getLsbD 1) &&
    (if prv = 3 then d.getLsbD 6 else if prv = 1 then d.getLsbD 4 else d.getLsbD 3)
  on && trigMatch (bits64 d 10 7) (if d.getLsbD 21 then val else addr) (s.hreg i (0x8000 + 16 * t + 2)).toNat
    (s.hreg i (0x8000 + 16 * t + 8)).toNat

/-- The triggers chained to trigger t from below all match too. -/
def State.chainHits (s : State) (i : Nat) (hit : Nat → Bool) : Nat → Bool
  | 0 => hit 0
  | t + 1 => hit (t + 1) && (if (s.hreg i (0x8000 + 16 * t + 1)).getLsbD 11 then s.chainHits i hit t else true)

/-- TRIGGER_HIT: an access of core i in mode `prv` matches trigger t, the last of its chain: action 0 raises the breakpoint
exception, action 1 enters debug mode (with dmode 1 only). `pc` is the address execution stops at and `regs` what the
program has left in the registers. -/
def execTriggerHit (i : Fin 4) (t : Fin 8) (kind : Fin 3) (addr val : BitVec 64) (prv : Fin 4) (pc : BitVec 64)
    (regs : List (BitVec 16 × BitVec 64)) (s : State) : Out :=
  let d := s.hreg i (0x8000 + 16 * t.val + 1)
  let hit := fun k => s.trigHits i k kind addr.toNat val.toNat prv
  if !s.hartUp i || s.hartHalted i || d.getLsbD 11 || !s.chainHits i hit t.val then .next s
  else
    match bits64 d 15 12 with
    | 0 => .next ((s.mergeHregs i regs).hartTrap i 3 addr pc prv)
    | 1 =>
      if d.getLsbD 59 then
        let s1 := s.mergeHregs i regs
        let s2 := s1.setHreg i csrDcsr (putBits64 (s1.hreg i csrDcsr) 1 0 prv)
        .next (s2.enterDebug i 2 pc)
      else .next s
    | _ => .next s

/-! ## MC debug unlock (R538, R539) -/

/-- A fresh nonce. -/
def State.newNonce (s : State) : State :=
  let (n, s) := s.draw
  (List.range 8).foldl (fun s k => s.setReg .dbgNonce [k] (BitVec.ofNat 32 ((Config.random n).toNat / 2 ^ (32 * k)))) s

/-- The bytes of words of a register array. -/
def State.wordBytes (s : State) (n : RegName) (l : List Nat) : List Byte := (l.map (fun k => leBytes 4 (s.reg n [k]).toNat)).flatten

/-- The unlock is dropped. -/
def State.relock (s : State) : State := (s.put F.dbgCfg_mcScope [] 0).put F.dbgCfg_secScope [] 0

/-- DBG_UNLKCMD: op 1 starts the check of the request in DBG_UNLKBUF; op 2 relocks. -/
def State.unlkCommand (s : State) (op : Nat) : State :=
  if op = 1 then
    if s.flag F.dbgUnlkcmd_busy [] then s
    else ({ s with dbg := { s.dbg with unlock := some (s.wordBytes .dbgUnlkbuf (List.range 48)) } } : State).raise F.dbgUnlkcmd_busy []
  else if op = 2 then s.relock
  else s

/-- Requester 11 may write it all, requester 10 only op 2. -/
def unlkMay (q : Src) (w : Word32) : Bool := q.requester == 11 || (q.requester == 10 && F.dbgUnlkcmd_op.of w == 2)
def State.unlkWrite (s : State) (q : Src) (w : Word32) : State :=
  if unlkMay q w then s.regAct q .dbgUnlkcmd [] w (·.unlkCommand (F.dbgUnlkcmd_op.of w)) else s.answer q .serr

/-- UNLOCK, RELOCK: ops 1 and 2. -/
def execUnlock (src : Src) (s : State) : Out := .next (s.unlkWrite src 0x40000000#32)
def execRelock (src : Src) (s : State) : Out := .next (s.unlkWrite src 0x80000000#32)

/-- The result of a check: 0 granted, 1 key refused or revoked, 2 bad signature, 3 stale nonce. -/
def State.unlockResult (s : State) (b : List Byte) : Nat :=
  let signer := fieldAt b 0 1
  let hash := sha256 (slice b 0x40 64)
  let key : Bool :=
    if signer < 2 then hash == Config.yilpenKey signer && !s.otp.ykeyRev.getLsbD signer
    else if 0x10 ≤ signer ∧ signer < 0x14 then
      SMap.find? s.otp.ownerKeys (signer - 0x10) == some hash && !s.otp.ownerRev.getLsbD (signer - 0x10)
    else false
  if !key then 1
  else if !ecdsaVerify (BitVec.ofNat 512 (beNat (slice b 0x40 64))) (sha256 (b.take 0x80))
      (BitVec.ofNat 512 (beNat (slice b 0x80 64))) then 2
  else if slice b 0x20 32 ≠ s.wordBytes .dbgNonce (List.range 8) then 3
  else 0

/-- UNLOCK_CHECK_DONE: the scope is granted or refused and logged, and the nonce renewed. -/
def execUnlockCheckDone (s : State) : Out :=
  match s.dbg.unlock with
  | none => .next s
  | some b =>
    let r := s.unlockResult b
    let signer := fieldAt b 0 1
    let scope := fieldAt b 1 1 % 4
    let s1 := (({ s with dbg := { s.dbg with unlock := none } } : State).put F.dbgUnlkcmd_busy [] 0).put F.dbgUnlkcmd_res [] r
    let s2 :=
      if r = 0 then
        let t := if scope % 2 = 1 then s1.raise F.dbgCfg_mcScope [] else s1
        let t := if 2 ≤ scope then t.raise F.dbgCfg_secScope [] else t
        t.logEv 8 15 0 0x0C01 5 (leBytes 1 signer ++ leBytes 1 scope)
      else s1.logEv 8 15 0 0x0C02 5 (leBytes 1 signer ++ leBytes 1 r)
    .next s2.newNonce

end Sys2Proof.Machine
end

