-- ==== Sys2Proof/Machine/Ports.lean ====
section
/-!
DEFINITION. Sys2Proof/Machine/Ports.lean: stream ports and spines (R100 to R110, R561).
-/

namespace Sys2Proof.Machine

/-- A stream port. -/
def State.port (s : State) (d p : Nat) : PortSt := SMap.get default (s.die d).ports p
def State.setPort (s : State) (d p : Nat) (x : PortSt) : State :=
  s.setDie d { s.die d with ports := SMap.set default (s.die d).ports p x }

/-- ECC_PINJ of kind 4 names this port: the lane to invert, used once (R429). -/
def State.portInjects (s : State) (d p : Nat) : Option Nat :=
  if s.flag F.eccPinj_arm [] && s.get F.eccPinj_kind [] == 4 && s.get F.eccPinj_die [] == d
      && s.get F.eccPinj_index [] == p then some (s.get F.eccPinj_b []) else none

/-- The beat as it leaves with injected parity, and the state with the injection used. -/
def State.injectBeat (s : State) (d p : Nat) (b : Beat) : Beat × State :=
  match s.portInjects d p with
  | some i => ({ b with par := b.par ^^^ BitVec.ofNat 16 (2 ^ (i % 16)) }, s.put F.eccPinj_arm [] 0)
  | none => (b, s)

/-- A bubble leaves an ingress port (R103); `counted` where the queue had no data. -/
def State.bubble (s : State) (d p : Nat) (counted : Bool) : State :=
  if counted then (s.countUp F.waPortCnt_bubbles [d, p]).raise F.waPortStat_underrun [d, p] else s

/-- Put a beat on the ingress spine: each lane is checked at the port; a failed lane carries valid 0 (R88, R104). -/
def State.onSpine (s : State) (d p : Nat) (b : Beat) : State :=
  let par := if b.err then ~~~ (parOf16 b.data) else b.par
  let b := { b with par := par }
  let lanes := (List.range 16).map (fun i => if byteOk (b.lane i) then some (b.lane i) else none)
  let fails := lanes.filter (·.isNone)
  let s := if fails.isEmpty then s else s.raise F.waPortStat_parErr [d, p]
  let s := fails.foldl (fun s _ => s.bucket (16 * d)) s
  let w := s.die d
  s.setDie d { w with spineIn := w.spineIn ++ [⟨p, w.cycle, lanes⟩] }

/-- INGRESS_BEAT: one cycle of an ingress window (R103, R105). -/
def execIngressBeat (d : Fin 4) (p : Fin 64) (s : State) : Out :=
  let x := s.port d p
  let st := s.get F.waPortWin_start [d, p]
  let n := s.get F.waPortWin_beats [d, p]
  if s.flag F.waPortCfg_en [d, p] && !s.egress d p && !s.held d && x.active && decide (st ≤ x.since ∧ x.since < st + n) then
    if x.closed then .next (s.bubble d p false)
    else
      match s.sqTake d p with
      | (none, s1) => .next (s1.bubble d p true)
      | (some b, s1) =>
        let (b, s2) := s1.injectBeat d p b
        let s3 := s2.onSpine d p b
        if b.last && s.get F.waPortCfg_lastMode [d, p] == 1 then
          .next (s3.setPort d p { s3.port d p with closed := true })
        else .next s3
  else .next s

/-- An egress port's beat that its queue cannot accept is discarded and counted; in packet mode it marks the open
packet bad (R109, R172, R178, R561). -/
def State.egressOffer (s : State) (d p : Nat) (b : Beat) : State :=
  let (b, s) := s.injectBeat d p b
  match s.sqOffer d p b false with
  | (.taken, s) => s
  | (.disabled, s) => (s.countUp F.waPortCnt_drops [d, p]).raise F.waPortStat_overrun [d, p]
  | (.full, s) =>
    let s := (s.countUp F.waPortCnt_drops [d, p]).raise F.waPortStat_overrun [d, p]
    if s.sqPkt d p && !(s.queue d p).flushing then s.sqMarkBad d p b.last else s

/-- Of the bytes that enter one lane in one cycle the nearest is kept (R106): the kept byte and the discarded ones. -/
def nearest (bs : List SpineByte) : Option SpineByte × List SpineByte :=
  match bs with
  | [] => (none, [])
  | b :: t =>
    let best := t.foldl (fun x y => if y.dist < x.dist then y else x) b
    (some best, bs.filter (fun y => y != best))

/-- The bytes of a port that enter it in the present cycle, lane by lane, after collisions (R106). -/
def State.egressLanes (s : State) (d p : Nat) (bs : List SpineByte) : List (Option SpineByte) × State :=
  (List.range 16).foldl (fun (acc : List (Option SpineByte) × State) i =>
    let (kept, lost) := nearest (bs.filter (fun b => b.lane == i))
    let s := lost.foldl (fun s b =>
      ((s.raise F.waPortStat_collision [d, p]).raise F.wtStat_collision [d, b.tile]).countUp F.waPortCnt_drops [d, p]) acc.2
    (acc.1 ++ [kept], s)) ([], s)

/-- EGRESS_BEAT (R88, R106 to R110): the port's check, collisions, lane gaps, the last bit, and the queue. Bytes that arrive at
a disabled port count one drop for the cycle, those that cells drove after the disable among them (DESIGN CHOICE, log entry
97). -/
def execEgressBeat (d : Fin 4) (p : Fin 64) (s : State) : Out :=
  let w := s.die d
  let now := w.spineOut.filter (fun b => b.port == p.val && b.cycle == w.cycle)
  if now.isEmpty then .next s
  else
    let s0 := s.setDie d { w with spineOut := w.spineOut.filter (fun b => !(b.port == p.val && b.cycle == w.cycle)) }
    let bad := now.filter (fun b => !byteOk b.v)
    let s1 := if bad.isEmpty then s0 else s0.raise F.waPortStat_parErr [d, p]
    let s1 := bad.foldl (fun s _ => s.bucket (16 * d)) s1
    if !s.flag F.waPortCfg_en [d, p] || !s.egress d p || s.held d then
      .next (s1.countUp F.waPortCnt_drops [d, p])
    else
      let (lanes, s2) := s1.egressLanes d p (now.filter (fun b => byteOk b.v))
      match lanes.head? with
      | some (some b0) =>
        let s3 := if lanes.all (·.isSome) then s2 else s2.raise F.waPortStat_laneGap [d, p]
        let data : BitVec 128 := BitVec.ofNat 128 (leNat (lanes.map (fun l =>
          match l with
          | some b => b.v.setWidth 8
          | none => 0#8)))
        let mode := s.get F.waPortCfg_lastMode [d, p]
        let b : Beat := ⟨data, parOf16 data, mode == 2 && b0.c, false⟩
        if mode = 1 then
          let x := s3.port d p
          let s4 := match x.held with
            | some h => s3.egressOffer d p h
            | none => s3
          .next (s4.setPort d p { s4.port d p with held := some b })
        else .next (s3.egressOffer d p b)
      | _ => if lanes.any (·.isSome) then .next (s2.raise F.waPortStat_laneGap [d, p]) else .next s2

/-- PORT_CONFIG_WRITE: held until the next tick of the port's tick field (R110). -/
def State.portConfig (s : State) (d p : Nat) (win : Bool) (w : Word32) : State :=
  let x := s.port d p
  if win then s.setPort d p { x with newWin := some w } else s.setPort d p { x with newCfg := some w }

def execPortConfigWrite (src : Src) (d : Fin 4) (p : Fin 64) (win : Bool) (w : Word32) (s : State) : Out :=
  .next (s.regAct src (if win then .waPortWin else .waPortCfg) [d, p] w (·.portConfig d p win w))

/-- PORT_COUNT_READ: a normal read returns and clears the counts (R113). -/
def execPortCountRead (src : Src) (d : Fin 4) (p : Fin 64) (s : State) : Out :=
  let w := s.readReg .waPortCnt [d, p]
  let s1 := if src.peeks then s else s.setReg .waPortCnt [d, p] 0#32
  .next (s1.answerWord src w)

/-- A tick of generator n at a port whose tick field selects it: a running window is cut short, pending settings take
effect, a beat held under last_mode 1 leaves with last, and a new window begins (R103, R105, R108, R110). -/
def State.portTick (s : State) (d n p : Nat) : State :=
  if s.get F.waPortCfg_tick [d, p] ≠ n then s
  else
    let x := s.port d p
    let cut := s.flag F.waPortCfg_en [d, p] && !s.egress d p && !s.held d && x.active &&
      s.get F.waPortWin_beats [d, p] != 0 &&
      decide (x.since < s.get F.waPortWin_start [d, p] + s.get F.waPortWin_beats [d, p])
    let s := if cut then s.raise F.waPortStat_winTrunc [d, p] else s
    let s := match x.held with
      | some b => s.egressOffer d p { b with last := true }
      | none => s
    let s := match x.newCfg with
      | some w => s.writeReg .waPortCfg [d, p] w
      | none => s
    let s := match x.newWin with
      | some w => s.writeReg .waPortWin [d, p] w
      | none => s
    let mine := s.get F.waPortCfg_tick [d, p] == n && s.flag F.waPortCfg_en [d, p] && !s.egress d p
    s.setPort d p { since := 0, active := mine, closed := false, held := none, newCfg := none, newWin := none }

end Sys2Proof.Machine
end

