-- ==== Sys2Proof/Machine/Access.lean ====
section
/-!
DEFINITION. Sys2Proof/Machine/Access.lean: an access to an address as its target judges and performs it: register blocks, the
tile windows, result slots, memories, user windows (R16 to R27, R62, R113, R184, R185, R199, R365, R367), the interrupt
controller's claim registers (R527), and writes that wait for a stopped clock (R19).
-/

namespace Sys2Proof.Machine

/-! ## Registers whose value is computed (R16) -/

/-- WT_PSTAT: the running, urgent and halted bits show the tile. -/
def State.pstatWord (s : State) (d t : Nat) : Word32 :=
  let x := s.tile d t
  let w := F.wtPstat_running.put (s.readReg .wtPstat [d, t]) (b2n x.running)
  let w := F.wtPstat_urgent.put w (b2n (x.urgent != .off))
  F.wtPstat_halted.put w (b2n (s.haltOf d t && x.idle))

/-- A bit per column of a die: whether any of its tiles satisfies `p`. -/
def columnBits (p : Nat → Bool) : Nat :=
  (List.range 16).foldl (fun n c => n + 2 ^ c * b2n ((List.range 128).any (fun r => p (128 * c + r)))) 0

/-- WA_SQn_STAT. -/
def State.sqStatWord (s : State) (d q : Nat) : Word32 :=
  let w := F.waSqStat_full.put (s.readReg .waSqStat [d, q]) (b2n (s.sqFull d q))
  let w := F.waSqStat_empty.put w (b2n (s.sqVisible d q == 0))
  let w := F.waSqStat_almost.put w (b2n (s.sqAlmost d q))
  F.waSqStat_level.put w (s.sqVisible d q)

/-- WA_SQn_RDMETA. -/
def State.rdmetaWord (s : State) (d q : Nat) : Word32 :=
  match s.sqHead d q with
  | some b => F.waSqRdmeta_err.put (F.waSqRdmeta_last.put (F.waSqRdmeta_avail.put 0#32 1) (b2n b.last)) (b2n (b.err || !b.parOk))
  | none => 0#32

/-- Timebase bits of mtime (R528). -/
def State.mtime (s : State) (hi : Bool) : Word32 := BitVec.ofNat 32 (if hi then s.now 8 / 2 ^ 32 else s.now 8)

/-! ## The interrupt controller's claims (R527) -/

/-- The source a context claims: enabled, pending, of the highest priority above the threshold, the lowest number first. -/
def State.plicBest (s : State) (k : Nat) : Nat :=
  let thr := s.get F.plicThreshold_threshold [k]
  let p := s.plicPending
  let live := (List.range 512).filter (fun i => i != 0 && p.getLsbD i &&
    (s.reg .plicEnable [k, i / 32]).getLsbD (i % 32) && decide (thr < s.get F.plicPriority_priority [i]))
  live.foldl (fun best i =>
    if best = 0 ∨ s.get F.plicPriority_priority [best] < s.get F.plicPriority_priority [i] then i else best) 0

/-- A read of the claim register claims the source: it is no longer pending until it is completed. -/
def State.plicClaimRead (s : State) (q : Src) (k : Nat) : Word32 × State :=
  let i := s.plicBest k
  (BitVec.ofNat 32 i,
    if i = 0 ∨ q.peeks then s
    else { s with plic := s.plic &&& ~~~(BitVec.ofNat 512 (2 ^ i)), plicBusy := s.plicBusy ||| BitVec.ofNat 512 (2 ^ i) })

/-- A write to the claim register completes a source that the context has enabled. -/
def State.plicComplete (s : State) (k i : Nat) : State :=
  if i < 512 ∧ (s.reg .plicEnable [k, i / 32]).getLsbD (i % 32) then
    { s with plicBusy := s.plicBusy &&& ~~~(BitVec.ofNat 512 (2 ^ i)) }
  else s

/-! ## Registers with a rule of their own for writes -/

/-- A host write to the MSI-X table: a vector that is unmasked while its pending bit is set leaves (R459, R464). -/
def State.msixWrite (s : State) (i : Nat) (w : Word32) : State :=
  let s := s.writeReg .msixTable [i] w
  let v := i / 4
  if i % 4 = 3 ∧ !(s.reg .msixTable [i]).getLsbD 0 ∧ (s.reg .msixPba [v / 32]).getLsbD (v % 32) then
    (s.setReg .msixPba [v / 32] ((s.reg .msixPba [v / 32]) &&& ~~~(BitVec.ofNat 32 (2 ^ (v % 32))))).emit (.msix v)
  else s

/-- A write to WT_CTRL: halt as stored, 1 to 0 latches the lead header; ring is a doorbell (R159, R164). -/
def State.wtCtrlWrite (s : State) (d t : Nat) (w : Word32) : State :=
  let was := s.haltOf d t
  let s := s.put F.wtCtrl_halt [d, t] (F.wtCtrl_halt.of w)
  let s := if was && !s.haltOf d t then s.latchLead d t else s
  let x := s.tile d t
  if F.wtCtrl_ring.of w = 1 ∧ x.lead.preBell ∧ !s.held d then s.setTile d t { x with bell := true } else s

/-- A write to WT_STAT: clearing par_err clears par_cell. -/
def State.wtStatWrite (s : State) (d t : Nat) (w : Word32) : State :=
  let s := s.writeReg .wtStat [d, t] w
  if F.wtStat_parErr.of w = 1 then s.put F.wtStat_parCell [d, t] 0 else s

/-- A write to GLB_PINFLTw: a driver that a fault switched off is enabled again as its bit clears (R553). -/
def State.pinfltWrite (s : State) (k : Nat) (w : Word32) : State :=
  let s := s.writeReg .glbPinflt [k] w
  let v := s.reg .glbPinflt [k]
  { s with pins := { s.pins with off := s.pins.off.filter (fun q => q / 32 != k || v.getLsbD (q % 32)) } }

/-- The base of a BAR2 translation. -/
def State.trBase (s : State) (n : Nat) : Nat := s.get F.pciTrLo_base [n] * 2 ^ 20 + 2 ^ 32 * s.get F.pciTrHi_base [n]

/-- en is refused for a base in register space; so is a base that moves there while en is 1 (R460, log entry 47). -/
def State.trCheck (s : State) (n : Nat) : State :=
  if s.flag F.pciTrCfg_en [n] ∧ registerSpace ≤ s.trBase n then (s.put F.pciTrCfg_en [n] 0).raise F.pciTrCfg_cfgErr [n] else s
def State.trWrite (s : State) (r : RegName) (n : Nat) (w : Word32) : State := (s.writeReg r [n] w).trCheck n

/-- A write to PCI_QVECq: 1 to 47 are stored as 0. -/
def State.qvecWrite (s : State) (q : Nat) (w : Word32) : State :=
  let v := F.pciQvec_vec.of w
  s.put F.pciQvec_vec [q] (if v < 48 then 0 else v)

/-- A write to a ring pointer: software owns TAIL of an ingress ring and HEAD of an egress ring (R186, R189). -/
def State.ptrWrite (s : State) (head : Bool) (d q : Nat) (w : Word32) : State :=
  if s.egress d q == head then s.writeReg (if head then .waDmHead else .waDmTail) [d, q] w else s

/-- A write to a riser's base or size: only while no enabled queue names the riser (R192). -/
def State.riserWrite (s : State) (n : RegName) (d i : Nat) (w : Word32) : State :=
  if (List.range 64).any (fun q => s.sqEn d q && (s.queue d q).rslot == some i) then s else s.writeReg n [d, i] w

/-- A write to DBG_CFG: cores held after their boot load start as hold clears (R537). -/
def State.dbgCfgWrite (s : State) (w : Word32) : State := (s.writeReg .dbgCfg [] w).releaseHeld

/-- The response of a helper that answers its requester itself, with the answer taken back. -/
def State.answered (s : State) (q : Src) (f : State → State) : Resp × State :=
  let t := f s
  let code := (t.outbox.drop s.outbox.length).findSome? (fun o =>
    match o with
    | .resp p c _ => if p = q then some c else none
    | _ => none)
  let rest := (t.outbox.drop s.outbox.length).filter (fun o =>
    match o with
    | .resp p _ _ => p != q
    | _ => true)
  (code.getD .ok, { t with outbox := s.outbox ++ rest })

/-! ## One register access -/

/-- Index k of a register's copy. -/
def ix (l : List Nat) (k : Nat) : Nat := l.getD k 0

/-- Whether a register's copy exists: the per-die registers of R24 and PWR_SENSn have gaps. -/
def regThere (n : RegName) (idx : List Nat) : Bool :=
  match n with
  | .dieId => allDies.contains (ix idx 0)
  | .pwrSens => allDies.contains (ix idx 0)
  | _ => true

/-- Whether a name is one of the mailbox registers of a channel. -/
def isMbx : RegName → Bool
  | .mbxLock => true
  | .mbxCtrl => true
  | .mbxStat => true
  | .mbxCfg => true
  | .mbxTgoLo => true
  | .mbxTgoHi => true
  | .mbxTdoneLo => true
  | .mbxTdoneHi => true
  | .mbxData => true
  | _ => false

/-- Whether the requester of an access may make it, by the rules R365 judges as SERR. -/
def State.regMay (s : State) (q : Src) (n : RegName) (idx : List Nat) (write : Bool) (w : Word32) : Bool :=
  let i := ix idx 0
  if isMbx n ∧ !s.mbxReach q i then false
  else if !write then
    match n with
    | .mbxData => s.dataReads q.requester i
    | .ftlRbwin => s.rbHolds q
    | .ftlTrbwin => s.rbHolds q
    | _ => mayRead n q
  else
    match n with
    | .mbxCtrl => (s.ctrlWrite q.requester i w).isSome
    | .mbxStat => (s.statWrite q.requester i w).isSome
    | .mbxData => (s.dataWrite q.requester i (ix idx 1) w).isSome
    | .ccCoreCtrl => mayWrite n q || (q.requester == 2 + i && F.ccCoreCtrl_secDrop.of w == 1)
    | .ccWdt => mayWrite n q || (q.requester == 2 + i && F.ccWdt_kick.of w == 1)
    | .dbgUnlkcmd => unlkMay q w
    | .updCmd => if F.updCmd_op.of w = 3 then q.requester == 10 else mayWrite n q
    | .eccRtsel => q.requester == 10 || (q.requester == 11 && F.eccRtsel_target.of w != 4)
    | .eccRtaddrLo => s.rtMay q
    | .eccRtaddrHi => s.rtMay q
    | .eccRtbuf => s.rtMay q
    | .eccRtcmd => s.rtMay q
    | .ftlRbcmd => s.rbHolds q
    | .ftlTrbcmd => s.rbHolds q
    | .pwrMargin => q.requester == 10 || (q.requester == 1 && s.marginClears i w)
    | .pwrMode => mayWrite n q && !(s.mode == 2 && q.requester == 1)
    | _ => mayWrite n q

/-- What a register would read as if a word that waits to be applied had been written to it: the last value written (R16,
R110). -/
def lastWritten (s : State) (n : RegName) (idx : List Nat) (w : Word32) : Word32 := (s.writeReg n idx w).readReg n idx

/-- A register read that may be made: its word and its side effects. A pop of FTL_REQd pops alone: what MC firmware then does
is the command FETTLER_REQUEST_POP. -/
def State.regRead (s : State) (q : Src) (n : RegName) (idx : List Nat) : Word32 × State :=
  let i := ix idx 0
  let j := ix idx 1
  let pure_ (w : Word32) : Word32 × State := (w, s)
  match n with
  | .tbTimeLo => s.timeLoRead q
  | .glbXgcnt => s.xgcntRead q i j
  | .wtPstat => pure_ (s.pstatWord i j)
  | .wtPcnt => (s.readReg n idx, if q.peeks then s else s.setReg n idx 0#32)
  | .waStat =>
    pure_ (F.waStat_errCols.put (s.readReg n idx) (columnBits (fun t => decide (2 ^ 27 ≤ (s.reg .wtStat [i, t]).toNat))))
  | .waMisrun => pure_ (F.waMisrun_cols.put 0#32 (columnBits (fun t => s.flag F.wtPstat_misrun [i, t])))
  | .waPortCfg => pure_ (((s.port i j).newCfg.map (lastWritten s n idx)).getD (s.readReg n idx))
  | .waPortWin => pure_ (((s.port i j).newWin.map (lastWritten s n idx)).getD (s.readReg n idx))
  | .waPortCnt => (s.readReg n idx, if q.peeks then s else s.setReg n idx 0#32)
  | .waSqStat => pure_ (s.sqStatWord i j)
  | .waSqRdmeta => pure_ (s.rdmetaWord i j)
  | .waSqRd => if ix idx 2 = 3 then s.sqPop q i j else pure_ (s.sqRdWord i j (ix idx 2))
  | .nocPanicHi => pure_ s.panicHi
  | .waRsStat => pure_ (F.waRsStat_midLevel.put (s.readReg n idx) (s.riser i j).mid.length)
  | .rslValidsum => pure_ (s.validSum i)
  | .rslStat => pure_ (F.rslStat_pend.put (s.readReg n idx) s.heldPubs.length)
  | .eccOvf => pure_ (BitVec.ofNat 32 ((List.range 32).foldl (fun t b => t + 2 ^ b * s.get F.eccBktStat_ovf [32 * i + b]) 0))
  | .ftlReq => if q.peeks then pure_ (s.ftlReqWord i) else s.ftlPop ⟨58, 0, false, false⟩ i none
  | .ftlRblock => s.rbLockRead q
  | .nocMstat => s.mstatRead q i
  | .nocPrbCnt => s.probeCountRead q i j
  | .nocTwin => pure_ (s.traceWord i)
  | .ddrChCecnt => s.cecntRead q n i
  | .hbmStkCecnt => s.cecntRead q n i
  | .lnGrpFec => s.fecRead q i
  | .mbxLock =>
    let (v, s1) := s.lockRead q.requester i q.peeks
    (BitVec.ofNat 32 v, s1)
  | .mbxCtrl => pure_ (s.ctrlRead i)
  | .mbxPosted => pure_ s.postedWord
  | .updTrial => pure_ (BitVec.ofNat 32 (s.upd.trialLeft / 1000000))
  | .ccMtimeLo => pure_ (s.mtime false)
  | .ccMtimeHi => pure_ (s.mtime true)
  | .plicPending => pure_ (s.plicPending.extractLsb' (32 * i) 32)
  | .plicClaim => s.plicClaimRead q i
  | _ => pure_ (s.readReg n idx)

/-- A register write that may be made: its code and its effect. -/
def State.regWrite (s : State) (q : Src) (n : RegName) (idx : List Nat) (w : Word32) : Resp × State :=
  let i := ix idx 0
  let j := ix idx 1
  let ok (t : State) : Resp × State := (.ok, t)
  match n with
  | .clkGate => ok (s.clkGateWrite i w)
  | .clkMon => ok (s.clkMonWrite w)
  | .clkRefctrl => ok (s.refControl w)
  | .tbTickCtrl => ok (s.tickControl i w)
  | .tbTickPeriod => ok (s.tickPeriod i w)
  | .tbTickStartLo => ok (s.tickStart n i w)
  | .tbTickStartHi => ok (s.tickStart n i w)
  | .glbPinflt => ok (s.pinfltWrite i w)
  | .wtStat => ok (s.wtStatWrite i j w)
  | .wtCtrl => ok (s.wtCtrlWrite i j w)
  | .waPortCfg => ok (s.portConfig i j false w)
  | .waPortWin => ok (s.portConfig i j true w)
  | .waSqCfg => ok (s.sqConfig i j w)
  | .waSqWr =>
    if ix idx 2 = 3 then s.sqPush i j w
    else if s.sqWritable i j then ok (s.setReg n idx w)
    else (.aerr, s)
  | .waDmHead => ok (s.ptrWrite true i j w)
  | .waDmTail => ok (s.ptrWrite false i j w)
  | .waDmCtrl => ok (s.dmaControl i j w)
  | .waRsBaseLo => ok (s.riserWrite n i j w)
  | .waRsBaseHi => ok (s.riserWrite n i j w)
  | .waRsCfg => ok (s.riserWrite n i j w)
  | .rslPol => ok (s.slotPolicy i w)
  | .eccBrcmd => ok (s.brCommand (F.eccBrcmd_op.of w))
  | .eccRtcmd => ok (s.rtCommand q.requester (F.eccRtcmd_op.of w))
  | .logRdseq => ok (s.logCopy i w.toNat)
  | .cfgCmd => ok (s.cfgCommand (F.cfgCmd_op.of w) (F.cfgCmd_pattern.of w))
  | .ftlRblock => ok (s.rbLockWrite q.requester)
  | .ftlRbcmd => ok (s.rbCommand q (F.ftlRbcmd_op.of w) (F.ftlRbcmd_die.of w) (F.ftlRbcmd_flask.of w) (F.ftlRbcmd_arg.of w))
  | .ftlTrbcmd => ok (s.trbCommand q (F.ftlTrbcmd_op.of w) (F.ftlTrbcmd_frame.of w))
  | .ftlRcmd => ok (s.rcmd (F.ftlRcmd_op.of w) (F.ftlRcmd_die.of w) (F.ftlRcmd_frame.of w))
  | .nocMcfg => ok (s.mcfgWrite i w)
  | .nocPrbTstat => ok (if F.nocPrbTstat_clear.of w = 1 then s.traceClear i else s)
  | .nocHistCfg => ok (s.histConfig i w)
  | .ddrMap => ok (if s.flag F.ddrMap_lock [] then s else s.writeReg n idx w)
  | .ddrRgnCfg => ok (s.rgnConfig i w)
  | .ddrRgnBase => ok (s.rgnRange n i w)
  | .ddrRgnLimit => ok (s.rgnRange n i w)
  | .ddrPcmd => ok (s.poisonCommand (F.ddrPcmd_op.of w))
  | .ddrPprcmd => ok (s.repairCommand false (F.ddrPprcmd_op.of w))
  | .hbmPprcmd => ok (s.repairCommand true (F.hbmPprcmd_op.of w))
  | .encKeybuf => ok (s.setReg n idx w)
  | .encKeycmd => ok (s.keyCommand (F.encKeycmd_op.of w) (F.encKeycmd_region.of w))
  | .encScmd => ok (if F.encScmd_op.of w = 0 then s else s.sectorCommand (F.encScmd_op.of w))
  | .encRgnCtrl => ok (s.encCtrl i w)
  | .lnLaneCfg => ok (s.laneConfig i w)
  | .lnLaneRate => ok (s.laneRate i w)
  | .lnGrpCfg => ok (s.laneGroup i w)
  | .lnLaneStat => ok (s.laneStatus n i w)
  | .lnLaneLat => ok (s.laneStatus n i w)
  | .lnGrpFec => ok (s.laneStatus n i w)
  | .pciTrLo => ok (s.trWrite n i w)
  | .pciTrHi => ok (s.trWrite n i w)
  | .pciTrCfg => ok (s.trWrite n i w)
  | .pciQvec => ok (s.qvecWrite i w)
  | .pwrMode => ok (s.modeWrite w)
  | .pwrCap => ok (s.capWrite w)
  | .pwrTrip => ok (s.tripWrite q w)
  | .pwrTl => ok (s.levelWrite i w)
  | .mbxLock => ok (s.lockWrite q.requester i)
  | .mbxCtrl => ok ((s.ctrlWrite q.requester i w).getD s)
  | .mbxStat => ok ((s.statWrite q.requester i w).getD s)
  | .mbxData => ok ((s.dataWrite q.requester i j w).getD s)
  | .mbxCfg => ok (s.mbxCfgWrite i w)
  | .updCmd => s.answered q (fun s => s.updWrite q w true)
  | .ccCoreCtrl => s.answered q (fun s => s.coreCtrlWrite q i w)
  | .ccWdt => s.answered q (fun s => s.wdtWrite q i w)
  | .ccCmoHi => ok (s.cmoWrite w)
  | .dbgCfg => ok (s.dbgCfgWrite w)
  | .dbgUnlkbuf => ok (s.setReg n idx w)
  | .dbgUnlkcmd => ok (s.unlkCommand (F.dbgUnlkcmd_op.of w))
  | .plicClaim => ok (s.plicComplete i w.toNat)
  | .msixTable => ok (s.msixWrite i w)
  | _ => ok (s.writeReg n idx w)

/-- The clock of a waiting write. -/
def WaitingWrite.clock (e : WaitingWrite) : ClockDom :=
  match lookupReg e.addr with
  | some (n, _) => n.desc.clock
  | none => .hub

/-- Writes that waited take effect, in their order, at the first edge of their clock (R19). -/
def State.applyDeferred (s : State) : State :=
  let ready (e : WaitingWrite) : Bool := !s.standing e.clock
  (s.deferred.filter ready).foldl (fun s e =>
    match lookupReg e.addr with
    | some (n, idx) => (s.regWrite e.src n idx e.word).2
    | none => s) { s with deferred := s.deferred.filter (fun e => !ready e) }

/-! ## Words of register space and of the cell state (R21, R22, R115) -/

/-- What a 32-bit word address names. -/
inductive WordPlace where
  | reg (n : RegName) (idx : List Nat)
  | cell (d t k off : Nat)
deriving DecidableEq, Repr

/-- Resolve a word address. -/
def wordPlace (a : Nat) : Option WordPlace :=
  match tileWindow a with
  | some (d, t, off) =>
    if 0x5000 ≤ off ∧ off < 0x6000 then some (.cell d t (off / 256 % 16) (off % 256))
    else if 0x4000 ≤ off ∧ off < 0x4100 then (lookupReg a).map (fun p => .reg p.1 p.2)
    else none
  | none =>
    match lookupReg a with
    | some (n, idx) => if regThere n idx then some (.reg n idx) else none
    | none => none

/-- Whether a place lies in a tile window whose clock is stopped. -/
def State.wordStopped (s : State) : WordPlace → Bool
  | .reg n idx => n.desc.clock == .wa && !s.tileServed (ix idx 0)
  | .cell d _ _ _ => !s.tileServed d

/-- The checks R365 makes for AERR and SERR, before a word acts. -/
def State.wordJudge (s : State) (q : Src) (a : Nat) (write : Bool) (w : Word32) : Option Resp :=
  match wordPlace a with
  | none => some .aerr
  | some (.reg n idx) => if s.regMay q n idx write w then none else some .serr
  | some (.cell _ _ _ _) => none

/-- What a word read answers: the code, the word, the bytes of it whose stored parity fails. -/
structure WordAns where
  code : Resp
  word : Word32
  bad : List Nat
deriving DecidableEq, Repr

/-- A word read that has passed those checks. -/
def State.wordRead (s : State) (q : Src) (a : Nat) : WordAns × State :=
  match wordPlace a with
  | none => (⟨.aerr, 0#32, []⟩, s)
  | some p =>
    if s.wordStopped p then (⟨.terr, 0#32, []⟩, s)
    else
      match p with
      | .reg n idx =>
        let (w, s1) := s.regRead q n idx
        (⟨.ok, w, []⟩, s1)
      | .cell d t k off =>
        match getCellState (s.die d) t k off with
        | (w, []) => (⟨.ok, w, []⟩, s)
        | (w, b :: bs) => (⟨.perr, w, b :: bs⟩, s.parityFail d t k)

/-- A word write that has passed those checks. -/
def State.wordWrite (s : State) (q : Src) (a : Nat) (w : Word32) : Resp × State :=
  match wordPlace a with
  | none => (.aerr, s)
  | some p =>
    if s.wordStopped p then (.terr, s)
    else
      match p with
      | .reg n idx =>
        if s.regWaits n then (.ok, s.defer q a w) else s.regWrite q n idx w
      | .cell d t k off =>
        if (s.tile d t).idle then (.ok, s.setDie d (putCellState (s.die d) (cellKey t k) off w)) else (.aerr, s)

/-- The first of two codes in the order of checking of R365. -/
def firstCode (a b : Option Resp) : Option Resp :=
  match a, b with
  | some .aerr, _ => some .aerr
  | _, some .aerr => some .aerr
  | some c, _ => some c
  | none, c => c

/-- What a read of a register block answers: the code, the bytes, the places of those whose stored parity fails. -/
structure BlockAns where
  code : Resp
  data : List Byte
  bad : List Nat
deriving DecidableEq, Repr

/-- The two halves of a 64-bit read: the first code that is not OK, and the bytes and parity of both (R114). -/
def WordAns.join (lo hi : WordAns) : BlockAns :=
  ⟨if lo.code = .ok then hi.code else lo.code, leBytes 4 lo.word.toNat ++ leBytes 4 hi.word.toNat, lo.bad ++ hi.bad.map (· + 4)⟩

/-- A read of a register block: 32 bits, or 64 bits as two reads, the lower first (R21). -/
def State.blockRead (s : State) (r : Req) : BlockAns × State :=
  let a := r.addr.toNat
  if r.len = 4 ∧ a % 4 = 0 then
    match s.wordJudge r.src a false 0#32 with
    | some c => (⟨c, [], []⟩, s)
    | none =>
      let (x, s) := s.wordRead r.src a
      (⟨x.code, leBytes 4 x.word.toNat, x.bad⟩, s)
  else if r.len = 8 ∧ a % 8 = 0 then
    match firstCode (s.wordJudge r.src a false 0#32) (s.wordJudge r.src (a + 4) false 0#32) with
    | some c => (⟨c, [], []⟩, s)
    | none =>
      let (x, s) := s.wordRead r.src a
      let (y, s) := s.wordRead r.src (a + 4)
      (x.join y, s)
  else (⟨.aerr, [], []⟩, s)

/-- A write of a register block, its data parity good.  Both halves of a 64-bit write are judged once, before the lower one
acts: an upper half whose requester check the lower half's effect would change (a lock released, then CTRL or RBCMD) is not
judged again, and then has the effect of an allowed write that finds nothing to do (DESIGN CHOICE, log entry 93). -/
def State.blockWriteGood (s : State) (r : Req) : Resp × State :=
  let a := r.addr.toNat
  let w (o : Nat) : Word32 := BitVec.ofNat 32 (leNat (slice r.data o 4))
  if r.data.length ≠ r.len then (.aerr, s)
  else if r.len = 4 ∧ a % 4 = 0 then
    match s.wordJudge r.src a true (w 0) with
    | some c => (c, s)
    | none => s.wordWrite r.src a (w 0)
  else if r.len = 8 ∧ a % 8 = 0 then
    match firstCode (s.wordJudge r.src a true (w 0)) (s.wordJudge r.src (a + 4) true (w 4)) with
    | some c => (c, s)
    | none =>
      let (c, s) := s.wordWrite r.src a (w 0)
      if c ≠ .ok then (c, s) else s.wordWrite r.src (a + 4) (w 4)
  else (.aerr, s)

/-- A write of a register block: one that would be performed and fails its data parity writes nothing (R367). -/
def State.blockWrite (s : State) (r : Req) : Resp × State :=
  let (c, t) := s.blockWriteGood r
  if r.badPar.isEmpty then (c, t) else if c = .ok then (.perr, s) else (c, s)

/-! ## Targets (R24, R365) -/

/-- Where an address lands. -/
inductive Target where
  | memory | user (d : Nat) | tile (d t off : Nat) | slots | words | secure | nowhere
deriving DecidableEq, Repr

/-- The address map of R24. -/
def targetOf (a : Nat) : Target :=
  if a < 2 ^ 39 ∨ isHbm a then .memory
  else if 0x020000000000 ≤ a ∧ a < 0x030000000000 then .user ((a - 0x020000000000) / 0x004000000000)
  else
    match tileWindow a with
    | some (d, t, off) => .tile d t off
    | none =>
      if (slotOf a).isSome then .slots
      else if registerSpace ≤ a ∧ a < 0x0F010C000000 then .words
      else if 0x0FF000000000 ≤ a ∧ a < 0x100000000000 then .secure
      else .nowhere

/-- Answer a request with what a register block made of it. -/
def State.wordsRequest (s : State) (r : Req) : State :=
  if r.write then
    let (c, s) := s.blockWrite r
    s.respond r c
  else
    let (x, s) := s.blockRead r
    s.respond r x.code x.data x.bad

/-- A non-secure access to secure-only space writes a log entry (R26). -/
def State.secureLog (s : State) (q : Src) (a : Nat) : State := s.logEv 8 5 0 0x0503 5 (leBytes 1 q.requester ++ leBytes 6 a)

/-- A target receives a request, judges it in the order of the response codes and answers (R365). -/
def State.target (s : State) (r : Req) : State :=
  let a := r.addr.toNat
  if !inBlock a r.len then s.respond r .aerr
  else
    match targetOf a with
    | .memory => s.memRequest r
    | .user d => if s.runs (12 + d) then s.emit (.user d r) else s.respond r .terr
    | .tile d t off =>
      if off < 0x2000 then s.storeArrive r d t off
      else if off < 0x3000 then
        if r.write then
          let (c, s) := s.mouldWrite r d t off
          s.respond r c
        else
          let (c, b, s) := s.mouldRead r d t off
          s.respond r c b
      else if off < 0x3100 then
        if r.write then
          let (c, s) := s.entryWrite r d t off
          s.respond r c
        else
          let (c, b, s) := s.entryRead r d t off
          s.respond r c b
      else s.wordsRequest r
    | .slots => if r.write then s.slotWrite r else s.slotRead r
    | .words => s.wordsRequest r
    | .secure =>
      if s.secure r.src then s.respond r .aerr
      else (s.secureLog r.src a).respond r .serr
    | .nowhere => s.respond r .aerr

/-- TARGET_REQUEST. -/
def execTargetRequest (r : Req) (s : State) : Out := .next (s.target r)

/-- REGISTER_WRITE: a 32-bit write at an address (R16). -/
def execRegisterWrite (src : Src) (addr : BitVec 48) (w : Word32) (s : State) : Out :=
  let a := addr.toNat
  if a % 4 ≠ 0 then .next (s.answer src .aerr)
  else if targetOf a = .secure ∧ !s.secure src then .next ((s.secureLog src a).answer src .serr)
  else
    match s.wordJudge src a true w with
    | some c => .next (s.answer src c)
    | none =>
      let (c, t) := s.wordWrite src a w
      .next (t.answer src c)

end Sys2Proof.Machine
end

