-- ==== Sys2Proof/Machine/Debug.lean ====
section
/-!
DEFINITION. Sys2Proof/Machine/Debug.lean: the TAP, boundary scan, the debug module with its abstract commands and its
system-bus master, halting and resuming (R520, R521, R523, R530 to R537, R540).  The layout of the debug module's registers
is that of RISC-V External Debug Support 1.0 (R533; PRESUMED, log entry 46).
-/

namespace Sys2Proof.Machine

/-! ## TAP and boundary scan (R531, R532) -/

/-- Load the TAP instruction. -/
def State.tapIr (s : State) (code mode : Nat) : State :=
  { s with dbg := { s.dbg with ir := BitVec.ofNat 8 code, bsMode := mode } }

/-- The TAP reset, also at power-on: the instruction is IDCODE (R531). -/
def State.tapIdle (s : State) : State := s.tapIr 0x01 0

/-- TAP_RESET. -/
def execTapReset (s : State) : Out := .next s.tapIdle

/-- The identification register: the hub's major revision, 0x8640, Yilpen's code. -/
def State.idcode (s : State) : Nat := s.get F.dieId_major [8] % 16 * 2 ^ 28 + 0x8640EBB

/-- IDCODE. -/
def execIdcode (s : State) : Out := .next ((s.tapIr 0x01 0).emit (.bytes "TDO" (leBytes 4 s.idcode)))

/-- Cells of the boundary register as bytes, first cell in bit 0. -/
def cellBytes : Nat → List Bool → List Byte
  | 0, _ => []
  | n + 1, l =>
    BitVec.ofNat 8 (((List.range 8).zip l).foldl (fun t p => t + 2 ^ p.1 * b2n p.2) 0) :: cellBytes n (l.drop 8)

/-- Scan the boundary register: `cells` is what it captures from the pins and lanes, `load` what is shifted in. -/
def State.boundaryScan (s : State) (cells load : List Bool) : State :=
  ({ s with dbg := { s.dbg with bsr := load } } : State).emit (.bytes "TDO" (cellBytes ((cells.length + 7) / 8) cells))

/-- SAMPLE_PRELOAD. -/
def execSamplePreload (cells load : List Bool) (s : State) : Out := .next ((s.tapIr 0x02 0).boundaryScan cells load)

/-- A boundary instruction takes effect while CFG_STAT.loaded is 0; otherwise BYPASS takes its place and bs_ref is set. -/
def State.boundaryInstr (s : State) (code mode : Nat) (f : State → State) : State :=
  if s.get F.cfgStat_loaded [] = 0 then f (s.tapIr code mode) else (s.tapIr 0xFF 0).raise F.dbgCfg_bsRef []

/-- EXTEST, EXTEST_PULSE, EXTEST_TRAIN: the pins, or AC lane pairs, are driven from the boundary register. -/
def execExtest (cells load : List Bool) (s : State) : Out := .next (s.boundaryInstr 0x03 1 (·.boundaryScan cells load))
def execExtestPulse (cells load : List Bool) (s : State) : Out := .next (s.boundaryInstr 0x04 2 (·.boundaryScan cells load))
def execExtestTrain (cells load : List Bool) (s : State) : Out := .next (s.boundaryInstr 0x05 3 (·.boundaryScan cells load))

/-- CLAMP, HIGHZ: the pins hold what the boundary register gives, or go to high impedance. -/
def execClamp (s : State) : Out := .next (s.boundaryInstr 0x06 4 id)
def execHighz (s : State) : Out := .next (s.boundaryInstr 0x07 5 id)

/-- The codes of the TAP instructions. -/
def tapCodes : List Nat := [0x01, 0x02, 0x03, 0x04, 0x05, 0x06, 0x07, 0x10, 0x11]

/-- BYPASS: code 0xFF, or any code that is not in the table. -/
def execBypass (code : BitVec 8) (s : State) : Out :=
  if tapCodes.contains code.toNat then .next s else .next (s.tapIr 0xFF 0)

/-! ## Hart registers by abstract access (R533, R534) -/

/-- The stored number of a register: the trigger CSRs are those of the trigger that tselect names. -/
def State.hartNo (s : State) (h n : Nat) : Nat :=
  let t := (s.hreg h 0x7A0).toNat % 8
  if 0x7A1 ≤ n ∧ n ≤ 0x7A3 then 0x8000 + 16 * t + (n - 0x7A0) else if n = 0x7C8 then 0x8000 + 16 * t + 8 else n

/-- Whether a number names a register: a CSR, an integer or a floating-point register. -/
def hartRegNo (n : Nat) : Bool := decide (n < 0x1040)

/-- The value of a hart register. -/
def State.hartRead (s : State) (h n : Nat) : BitVec 64 :=
  if n = 0xC01 then BitVec.ofNat 64 (s.now 8)
  else if n = 0x7A4 then 0x01000040#64
  else if n = 0x1000 then 0#64
  else s.hreg h (s.hartNo h n)

/-- tdata1 of a trigger as stored: type 6, match 0 to 5, action 1 only with dmode 1 (R534). -/
def legalTdata1 (v : BitVec 64) : BitVec 64 :=
  let v := putBits64 v 63 60 6
  let v := if 5 < bits64 v 10 7 then putBits64 v 10 7 0 else v
  let a := bits64 v 15 12
  if a = 0 ∨ (a = 1 ∧ v.getLsbD 59) then v else putBits64 v 15 12 0

/-- Write a hart register; none where it is read only. -/
def State.hartWrite (s : State) (h n : Nat) (v : BitVec 64) : Option State :=
  if n < 0x1000 ∧ n / 0x400 = 3 then none
  else if n = 0x1000 ∨ n = 0x7A4 then some s
  else if n = 0x7A0 then some (s.setHreg h n (BitVec.ofNat 64 (v.toNat % 8)))
  else if n = 0x7A1 then some (s.setHreg h (s.hartNo h n) (legalTdata1 v))
  else if n = csrDcsr then some (s.setHreg h n (putBits64 v 31 28 4))
  else some (s.setHreg h (s.hartNo h n) v)

/-! ## The debug module's registers -/

/-- A register of the module by its DMI address. -/
def State.dmReg (s : State) (a : Nat) : Word32 := SMap.get 0#32 s.dbg.dm a
def State.setDm (s : State) (a : Nat) (v : Word32) : State := { s with dbg := { s.dbg with dm := SMap.set 0#32 s.dbg.dm a v } }

/-- Arguments of abstract commands: argument k in data(2k), data(2k + 1). -/
def State.dmArg (s : State) (k : Nat) : BitVec 64 := s.dmReg (5 + 2 * k) ++ s.dmReg (4 + 2 * k)
def State.setDmArg (s : State) (k : Nat) (v : BitVec 64) : State :=
  (s.setDm (4 + 2 * k) (v.setWidth 32)).setDm (5 + 2 * k) (BitVec.ofNat 32 (v.toNat / 2 ^ 32))

/-- cmderr of the last abstract command: 2 not supported, 3 exception, 4 hart not halted, 5 bus error. -/
def State.cmdErr (s : State) : Nat := wordField (s.dmReg 0x16) 10 8
def State.setCmdErr (s : State) (e : Nat) : State := s.setDm 0x16 (setWordField (s.dmReg 0x16) 10 8 e)

/-- Whether the debug module's clock runs: domain 4 in the connect-under-reset mode, domain 3 in the own mode (R536). -/
def State.dmRuns (s : State) : Bool := s.runs (if s.get F.dbgCfg_mode [] = 1 then 3 else 4)

/-- Whether a hart can be selected: hart 4 only while the MC scope is in force (R533). -/
def State.selectable (s : State) (h : Nat) : Bool := decide (h < 4) || (h == 4 && s.flag F.dbgCfg_mcScope [])

/-! ## Halt and resume (R524, R530, R533, R537) -/

/-- The debugger asks a hart to halt; one that is unavailable halts when it next runs. `pc`, `prv` and `regs` are what its
program has reached. -/
def State.haltHart (s : State) (h : Nat) (pc : BitVec 64) (prv : Nat) (regs : List (BitVec 16 × BitVec 64)) : State :=
  if s.hartHalted h then s
  else if s.hartUp h then
    let s := s.mergeHregs h regs
    (s.setHreg h csrDcsr (putBits64 (s.hreg h csrDcsr) 1 0 prv)).enterDebug h 3 pc
  else s.setCore h { s.coreOf h with haltReq := true }

/-- A halted hart resumes; its watchdog reloads. With dcsr.step it executes one instruction and is halted again, at `pc`. -/
def State.resumeHart (s : State) (h : Nat) (pc : BitVec 64) (regs : List (BitVec 16 × BitVec 64)) : State :=
  if !s.hartHalted h || !s.hartUp h then s
  else
    let s := if h < 4 then s.wdtReload h else s
    let s := s.setDm 0x11 (s.dmReg 0x11 ||| BitVec.ofNat 32 (2 ^ h))
    if (s.hreg h csrDcsr).getLsbD 2 then (s.mergeHregs h regs).enterDebug h 4 pc
    else if h < 4 then s.put F.ccCoreCtrl_halted [h] 0
    else { s with pwr := { s.pwr with mcHalted := false } }

/-- DEBUG_HALT. -/
def execDebugHalt (h : Fin 5) (pc : BitVec 64) (prv : Fin 4) (regs : List (BitVec 16 × BitVec 64)) (s : State) : Out :=
  if s.dmRuns && s.selectable h then .next (s.haltHart h pc prv regs) else .next s

/-- DEBUG_RESUME: release or single step. -/
def execDebugResume (h : Fin 5) (pc : BitVec 64) (regs : List (BitVec 16 × BitVec 64)) (s : State) : Out :=
  if s.dmRuns && s.selectable h then .next (s.resumeHart h pc regs) else .next s

/-- A halt request that waited takes effect as the hart's domain runs (R537). -/
def State.pendingHalts (s : State) : State :=
  (List.range 5).foldl (fun s h =>
    if (s.coreOf h).haltReq && s.hartUp h && !s.hartHalted h then s.enterDebug h 3 (s.hreg h csrDpc) else s) s

/-! ## Abstract register access -/

/-- A hart's register is read into data0 and data1, or written from `v`. -/
def State.abstractReg (s : State) (h : Nat) (write : Bool) (n : Nat) (v : BitVec 64) : State :=
  if !s.hartHalted h || !s.hartUp h then s.setCmdErr 4
  else if !hartRegNo n then s.setCmdErr 2
  else if write then
    match s.hartWrite h n v with
    | some s1 => s1
    | none => s.setCmdErr 3
  else s.setDmArg 0 (s.hartRead h n)

/-- ABSTRACT_REGISTER_ACCESS. -/
def execAbstractRegisterAccess (h : Fin 5) (write : Bool) (n : BitVec 16) (v : BitVec 64) (s : State) : Out :=
  if s.dmRuns && s.selectable h && s.cmdErr == 0 then .next (s.abstractReg h write n.toNat v) else .next s

/-! ## Accesses of the harts and of the system bus -/

/-- A request of the block's own debug masters or cores: its answer is taken back from the outputs; none: it still waits, at its
endpoint or its target. -/
def State.requestNow (s : State) (r : Req) : Option (Resp × List Byte) × State :=
  if !s.injects r then (none, s)
  else
  let (lost, r, s) := s.pinj r
  if lost then (some (.terr, []), s.headerLost r)
  else
  let t := s.target r
  let new := t.outbox.drop s.outbox.length
  match answerIn r new with
  | some a => (some a, { t with outbox := s.outbox ++ new.filter (fun o =>
      match o with
      | .flit p _ _ _ => p != r
      | _ => true) })
  | none => (none, t)

/-- A request of `n` bytes at `a` by a requester. -/
def dbgReq (src : Src) (cls : Fin 4) (write : Bool) (a n : Nat) (v : BitVec 64) : Req :=
  { src := src, tag := ⟨256 * src.core.val % 1024, by omega⟩, cls := cls, page := 0, write := write, addr := BitVec.ofNat 48 a,
    len := n, data := if write then leBytes n v.toNat else [], badPar := [], stamp := 0#16 }

/-- The blocks in the set of the L2 to which a block belongs. -/
def State.l2SetOf (s : State) (b : Nat) : List Nat := (s.l2.map (·.1)).filter (fun x => Config.l2Set x == Config.l2Set b)

/-- Room for a block in its set of 16 lines: where all 16 are in use, one of them leaves the L2 and every L1, a dirty one after its
writeback (R519, R521); which one is free (log entry 63). A victim whose writeback waits stays. -/
def State.roomL2 (s : State) (b : Nat) : State :=
  let set := s.l2SetOf b
  if set.length < 16 then s
  else
    let (n, s) := s.draw
    let v := set.getD (Config.freeValue 4 n).toNat 0
    let s := s.cleanL2 v
    match SMap.find? s.l2 v with
    | some x => if x.dirty then s else s.dropL2 v
    | none => s

/-- The line of a block, filled from memory by master 56 where the L2 does not hold it (R521). -/
def State.fillL2 (s : State) (core : Fin 4) (b : Nat) : Option L2Line × State :=
  match SMap.find? s.l2 b with
  | some x => (some x, s)
  | none =>
    let r := dbgReq ⟨56, core, false, false⟩ 3 false (64 * b) 64 0#64
    match s.requestNow r with
    | (some (.ok, d), s1) =>
      let x : L2Line := ⟨BitVec.ofNat 512 (leNat d), false⟩
      let s2 := s1.roomL2 b
      if (s2.l2SetOf b).length < 16 then (some x, s2.setL2 b x) else (none, s2)
    | (_, s1) => (none, s1.unhold s)

/-- A load or store of core `i` to cacheable memory through L1 and L2 (R519, R520, R524): a store clears the reservations of
the other cores on the block. -/
def State.coreMem (s : State) (i : Fin 4) (write : Bool) (a n : Nat) (v : BitVec 64) : Option (BitVec 64) × State :=
  let b := a / 64
  match s.fillL2 i b with
  | (none, s) => (none, s)
  | (some x, s) =>
    let bytes := leBytes 64 x.data.toNat
    if write then
      let new := overwrite bytes (a % 64) (leBytes n v.toNat)
      (some 0#64, (s.setL2 b ⟨BitVec.ofNat 512 (leNat new), true⟩).clearResv b (some i.val))
    else (some (BitVec.ofNat 64 (leNat (slice bytes (a % 64) n))), s)

/-- A memory access of a hart: of a core through its caches or by master 57, of the MC by master 60 (R533). -/
def State.hartMem (s : State) (h : Nat) (write : Bool) (a n : Nat) (v : BitVec 64) : Option (BitVec 64) × State :=
  let i : Fin 4 := ⟨h % 4, by omega⟩
  if h < 4 ∧ cacheable a then s.coreMem i write a n v
  else
    let src : Src := if h < 4 then ⟨57, i, true, false⟩ else ⟨60, 0, false, false⟩
    match s.requestNow (dbgReq src 2 write a n v) with
    | (some (.ok, d), s1) => (some (BitVec.ofNat 64 (leNat d)), s1)
    | (_, s1) => (none, s1.unhold s)

/-- An abstract memory access of 2^size bytes (R533). -/
def State.abstractMem (s : State) (h : Nat) (write : Bool) (size a : Nat) (v : BitVec 64) : State :=
  if !s.hartHalted h || !s.hartUp h then s.setCmdErr 4
  else if a % 2 ^ size ≠ 0 ∨ 2 ^ 48 ≤ a then s.setCmdErr 5
  else
    match s.hartMem h write a (2 ^ size) v with
    | (some d, s1) => if write then s1 else s1.setDmArg 0 d
    | (none, s1) => s1.setCmdErr 5

/-- ABSTRACT_MEMORY_ACCESS. -/
def execAbstractMemoryAccess (h : Fin 5) (write : Bool) (size : Fin 4) (addr v : BitVec 64) (s : State) : Out :=
  if s.dmRuns && s.selectable h && s.cmdErr == 0 then .next (s.abstractMem h write size addr.toNat v) else .next s

/-! ## The system-bus master (R535) -/

/-- sberror of a NoC response. -/
def sbErrorOf : Resp → Nat
  | .ok => 0
  | .terr => 1
  | .retry => 1
  | .aerr => 2
  | .serr => 7
  | .derr => 7
  | .perr => 7

/-- Fields of sbcs as stored: sbreadonaddr, sbaccess, sbautoincrement, sbreadondata. -/
def sbcsMask : Word32 := 0x001F8000#32
def State.sbcs (s : State) : Word32 := s.dmReg 0x38 &&& sbcsMask
def State.sbAddr (s : State) : Nat := (s.dmReg 0x39).toNat + 2 ^ 32 * (s.dmReg 0x3A).toNat
def State.setSbAddr (s : State) (a : Nat) : State :=
  (s.setDm 0x39 (BitVec.ofNat 32 a)).setDm 0x3A (BitVec.ofNat 32 (a / 2 ^ 32))

/-- Whether an access of the bus master is under way: bit 21 of the stored sbcs. -/
def State.sbBusy (s : State) : Bool := (s.dmReg 0x38).getLsbD 21

/-- An access has been answered: its data or its error is shown, and the address steps on (autoincrement). -/
def State.sbDone (s : State) (write : Bool) (size : Nat) (c : Resp) (d : List Byte) : State :=
  let s := s.setDm 0x38 s.sbcs
  if c = .ok then
    let s := if write then s else
      (s.setDm 0x3C (BitVec.ofNat 32 (leNat (d.take 4)))).setDm 0x3D (BitVec.ofNat 32 (leNat ((d.drop 4).take 4)))
    if s.sbcs.getLsbD 16 then s.setSbAddr (s.sbAddr + 2 ^ size) else s
  else { s with dbg := { s.dbg with sberror := sbErrorOf c } }

/-- A system-bus access of 2^size bytes: coherent class to DDR5 and HBM, control class elsewhere; a misaligned one is
refused with sberror 3. One that is not answered at once, or waits for the NoC at its endpoint (R372), leaves the bus busy. -/
def State.sbAccess (s : State) (write : Bool) (size a : Nat) (v : BitVec 64) : State :=
  if s.dbg.sberror ≠ 0 ∨ s.sbBusy then s
  else if a % 2 ^ size ≠ 0 then { s with dbg := { s.dbg with sberror := 3 } }
  else if 2 ^ 48 ≤ a then { s with dbg := { s.dbg with sberror := 2 } }
  else
    let src : Src := ⟨61, 0, false, !write && s.flag F.dbgCfg_sbPeek []⟩
    let r := dbgReq src (if cacheable a then 3 else 2) write a (2 ^ size) v
    let busy (s : State) : State := s.setDm 0x38 (s.dmReg 0x38 ||| 0x00200000#32)
    if !s.injects r then (busy s).inject r
    else
      match s.requestNow r with
      | (some (c, d), s1) => s1.sbDone write size c d
      | (none, s1) =>
        (busy s1).setTag 61 0 ⟨0, s.now (masterDie 61), s.get F.nocMcfg_tmoUs [61], write, 2, false⟩

/-- SYSTEM_BUS_ACCESS. -/
def execSystemBusAccess (write : Bool) (size : Fin 4) (addr v : BitVec 64) (s : State) : Out :=
  if s.dmRuns then .next (s.sbAccess write size addr.toNat v) else .next s

/-! ## DTMCS and DMI -/

/-- The sticky status of the DTM, kept at key 0x80 of the module's registers: 0, or 3 after an access found it busy. -/
def State.dmiStat (s : State) : Nat := (s.dmReg 0x80).toNat

/-- DTMCS: version 1, 7 address bits, the status; dmireset and dtmhardreset clear the status. -/
def execDtmcs (w : Word32) (s : State) : Out :=
  let s1 := (s.tapIr 0x10 0).emit (.bytes "TDO" (leBytes 4 (1 + 7 * 16 + 1024 * s.dmiStat)))
  .next (if w.getLsbD 16 || w.getLsbD 17 then s1.setDm 0x80 0#32 else s1)

/-- The hart that dmcontrol selects. -/
def State.hartSel (s : State) : Nat := wordField (s.dmReg 0x10) 25 16 + 1024 * wordField (s.dmReg 0x10) 15 6

/-- dmstatus: version 3, authenticated, resethaltreq; the state of the selected hart. -/
def State.dmStatus (s : State) : Word32 :=
  let h := s.hartSel
  let base : Nat := 3 + 32 + 128
  BitVec.ofNat 32 (
    if !s.selectable h then base + 3 * 2 ^ 14
    else
      base + (if !s.hartUp h then 3 * 2 ^ 12 else if s.hartHalted h then 3 * 2 ^ 8 else 3 * 2 ^ 10) +
        3 * 2 ^ 16 * b2n ((s.dmReg 0x11).getLsbD h))

/-- A read of a register of the module; sbdata0 may start the next bus read. -/
def State.dmRead (s : State) (a : Nat) : Word32 × State :=
  if !(s.dmReg 0x10).getLsbD 0 ∧ a ≠ 0x10 then (0#32, s)
  else
    match a with
    | 0x11 => (s.dmStatus, s)
    | 0x16 => (BitVec.ofNat 32 (8 * 2 ^ 24 + 256 * s.cmdErr + 4), s)
    | 0x17 => (0#32, s)
    | 0x38 => (s.dmReg 0x38 ||| BitVec.ofNat 32 (2 ^ 29 + 4096 * s.dbg.sberror + 32 * 48 + 15), s)
    | 0x3C =>
      let w := s.dmReg 0x3C
      (w, if s.sbcs.getLsbD 15 then s.sbAccess false (wordField s.sbcs 19 17 % 4) s.sbAddr 0#64 else s)
    | 0x40 => (BitVec.ofNat 32 ((List.range 5).foldl (fun t h => t + 2 ^ h * b2n (s.selectable h && s.hartHalted h)) 0), s)
    | _ => (s.dmReg a, s)

/-- A write to dmcontrol. dmactive 0 resets the module. -/
def State.dmControl (s : State) (w : Word32) (pc : BitVec 64) (prv : Nat) (regs : List (BitVec 16 × BitVec 64)) : State :=
  if !w.getLsbD 0 then
    let s := ({ s with dbg := { s.dbg with dm := [], sberror := 0 } } : State)
    (List.range 5).foldl (fun s h => s.setCore h { s.coreOf h with resetHalt := false, haltReq := false }) s
  else
    let s := s.setDm 0x10 (w &&& 0x03FFFFC3#32)
    let h := s.hartSel
    if !s.selectable h then s
    else
      let c := s.coreOf h
      let s := if w.getLsbD 3 then s.setCore h { c with resetHalt := true }
        else if w.getLsbD 2 then s.setCore h { c with resetHalt := false } else s
      if w.getLsbD 31 then s.haltHart h pc prv regs
      else
        let s := s.setCore h { s.coreOf h with haltReq := false }
        if w.getLsbD 30 then
          (s.setDm 0x11 (s.dmReg 0x11 &&& ~~~(BitVec.ofNat 32 (2 ^ h)))).resumeHart h pc regs
        else s

/-- An abstract command: 0 access register (and run the program buffer, which leaves `regs`, or ends in an exception), 2
access memory. -/
def State.dmCommand (s : State) (w : Word32) (regs : List (BitVec 16 × BitVec 64)) (exc : Bool) : State :=
  let h := s.hartSel
  if s.cmdErr ≠ 0 then s
  else if !s.selectable h then s.setCmdErr 4
  else
    match wordField w 31 24 with
    | 0 =>
      let s := if w.getLsbD 17 then s.abstractReg h (w.getLsbD 16) (wordField w 15 0) (s.dmArg 0) else s
      if w.getLsbD 18 ∧ s.cmdErr = 0 then
        if s.hartHalted h && s.hartUp h then
          let s := s.mergeHregs h regs
          if exc then s.setCmdErr 3 else s
        else s.setCmdErr 4
      else s
    | 2 =>
      let size := wordField w 22 20
      let a := (s.dmArg 1).toNat
      if 3 < size then s.setCmdErr 2
      else
        let s := s.abstractMem h (w.getLsbD 16) size a (s.dmArg 0)
        if w.getLsbD 19 ∧ s.cmdErr = 0 then s.setDmArg 1 (BitVec.ofNat 64 (a + 2 ^ size)) else s
    | _ => s.setCmdErr 2

/-- A write to a register of the module. -/
def State.dmWrite (s : State) (a : Nat) (w : Word32) (pc : BitVec 64) (prv : Nat) (regs : List (BitVec 16 × BitVec 64))
    (exc : Bool) : State :=
  if a = 0x10 then s.dmControl w pc prv regs
  else if !(s.dmReg 0x10).getLsbD 0 then s
  else
    match a with
    | 0x11 => s
    | 0x12 => s
    | 0x16 => s.setCmdErr (Nat.land s.cmdErr (7 - wordField w 10 8))
    | 0x17 => s.dmCommand w regs exc
    | 0x38 =>
      let s := ({ s with dbg := { s.dbg with sberror := Nat.land s.dbg.sberror (7 - wordField w 14 12) } } : State)
      s.setDm 0x38 (w &&& sbcsMask ||| (s.dmReg 0x38 &&& 0x00200000#32))
    | 0x39 =>
      let s := s.setDm 0x39 w
      if s.sbcs.getLsbD 20 then s.sbAccess false (wordField s.sbcs 19 17 % 4) s.sbAddr 0#64 else s
    | 0x3C =>
      let s := s.setDm 0x3C w
      s.sbAccess true (wordField s.sbcs 19 17 % 4) s.sbAddr (s.dmReg 0x3D ++ w)
    | 0x40 => s
    | _ => s.setDm a w

/-- DMI: op 1 reads a register of the module, 2 writes it; the answer carries the data and the status, 3 while the module's
clock stands still (R536). `pc`, `prv`, `regs` and `exc` are what the program of a hart that the access stops has reached. -/
def execDmi (op : Fin 3) (addr : BitVec 7) (w : Word32) (pc : BitVec 64) (prv : Fin 4) (regs : List (BitVec 16 × BitVec 64))
    (exc : Bool) (s : State) : Out :=
  let s := s.tapIr 0x11 0
  let out (s : State) (d : Word32) (st : Nat) : State := s.emit (.bytes "TDO" (leBytes 4 d.toNat ++ leBytes 1 st))
  if !s.dmRuns then .next (out (s.setDm 0x80 3#32) 0#32 3)
  else if s.dmiStat ≠ 0 then .next (out s 0#32 s.dmiStat)
  else
    match op with
    | 1 =>
      let (d, s1) := s.dmRead addr.toNat
      .next (out s1 d 0)
    | 2 => .next (out (s.dmWrite addr.toNat w pc prv regs exc) w 0)
    | 0 => .next (out s 0#32 0)

end Sys2Proof.Machine
end

