-- ==== Sys2Proof/Machine/Pins.lean ====
section
/-!
DEFINITION. Sys2Proof/Machine/Pins.lean: power-on and power-off, what the device samples and finds at each start, bank
supplies and pin faults (R38 to R43, R296, R299, R510 to R513, R541 to R555).
-/

namespace Sys2Proof.Machine

/-! ## What a start finds -/

/-- The identity line map: board line k carries flash DQ k (R555). -/
def identityMap : BitVec 24 := 0xFAC688#24

/-- FLASHn as found: its map, and the log entries of R555. -/
def State.flashLines (s : State) (n : Nat) (x : Option (BitVec 24 × Bool)) : State :=
  match x with
  | none => s
  | some (m, key) =>
    let s := ((s.raise F.glbFlmap_found [n]).put F.glbFlmap_map [n] m.toNat).put F.glbFlmap_remapped [n] (b2n (decide (m ≠ identityMap)))
    let s := s.put F.glbFlmap_keyMiss [n] (b2n (!key))
    let s := if m ≠ identityMap then s.logEv 8 0 0 0x0D03 1 (leBytes 1 n ++ leBytes 3 m.toNat) else s
    if key then s else s.logEv 8 0 0 0x0D04 2 (leBytes 1 n)

/-- Each FLASHn_RESET_N pulses low for 10 µs, then the flash devices are found (R296); a board with FLASH1 alone has no flash
(R297). -/
def State.flashFound (s : State) (f : FlashFound) : State :=
  let n := if f.flash0.isNone then 0 else 1 + b2n f.flash1.isSome
  let s := (s.emit (.pulse "FLASH0_RESET_N" 10000)).emit (.pulse "FLASH1_RESET_N" 10000)
  ((s.flashLines 0 f.flash0).flashLines 1 f.flash1).put F.cfgStat_nflash [] n

/-- Straps and fuses show in their registers (R472, R513, R549). -/
def State.sampled (s : State) : State :=
  let s := (s.put F.cfgStat_profile [] s.clk.profile.toNat).put F.cfgStat_iopull [] s.clk.iopull.toNat
  s.otpRegs.put F.pwrCap_capW [] s.otp.ceilW.toNat

/-- The boot ROM: it reverts a set in trial (R510), blows the fuses a confirmed set still needs (R511), and loads the MC where
a good slot is found (R512). Lanes and training take the firmware of the active slots (R507). -/
def State.bootRom (s : State) (mcOk : Bool) : State :=
  let s := match s.upd.commit with
    | some c =>
      if c.state = 1 then s.revertSet 2
      else if c.state = 2 then
        let (n, s) := s.draw
        (s.blowSvn c.manifest n).otpRegs
      else s
    | none => s
  let slots := (s.upd.commit.map (·.slots)).getD 0
  let fw := (List.range 40).foldl (fun m l => SMap.set 0 m l (bitsOf slots 2 2)) []
  let s := ({ s with upd := { s.upd with laneFw := fw, trainFw := bitsOf slots 3 3 } } : State)
  if mcOk then s.bootMc else { s with pwr := { s.pwr with mcRuns := false, mcHalted := false, sram := [] } }

/-! ## Assembly record and die identities (R33 to R40) -/

/-- The sites with a DIE_ID register, in the order of the power-on operand. -/
def idSites : List Nat := [0, 1, 2, 3, 8, 10, 11]

/-- The identity of the die of a site: its type and site are those of the die, the other fields are fused (R33). -/
def fusedId (site : Nat) (w : Word32) : Word32 :=
  (resetWord .dieId [site] &&& 0xFF000000#32) ||| (w &&& 0x00FFFF00#32)

/-- The registers show the identities fused on the dies. -/
def State.showIds (s : State) : State :=
  (idSites.zip s.otp.dieIds).foldl (fun s e => s.setReg .dieId [e.1] (fusedId e.1 e.2)) s

/-- The features the hub computes from FD0 to FD3 (R35). -/
def State.features (s : State) : State :=
  let l := (List.range 4).map (fun d => s.get F.dieId_feature [d])
  let lo := l.foldl min (l.headD 0)
  let above := (List.range 4).foldl (fun t d => t + 2 ^ d * b2n (decide (lo < l.getD d 0))) 0
  ((s.put F.glbFeature_devLevel [] lo).put F.glbFeature_maxLevel [] (l.foldl max 0)).put F.glbFeature_aboveMask [] above

/-- Whether a byte of the assembly record belongs to a field of R39; the others read as 0. -/
def asmField (i : Nat) : Bool :=
  decide (i < 8) || (decide (0x10 ≤ i) && decide (i < 0xC4)) || (decide (0x100 ≤ i) && decide (i < 0x904)) || decide (0x1FFC ≤ i)

/-- The 8,192 bytes of the assembly record as the window shows them. -/
def asmRecord (r : List Byte) : List Byte := (List.range 8192).map (fun i => if asmField i then r.getD i 0#8 else 0#8)

/-- Whether the assembly record passes its CRC-32. -/
def asmOk (r : List Byte) : Bool := (crc32 ((r ++ List.replicate 8192 0#8).take 0x1FFC)).toNat == fieldAt r 0x1FFC 4

/-- One entry of the repair map: the replaced wire leaves the group's map. -/
def State.repairEntry (s : State) (e : Nat) : State :=
  let g := bitsOf e 30 22
  let dir := bitsOf e 21 21
  if e.testBit 31 ∧ g < 480 then
    let x := s.xgroup g dir
    s.setXg g dir { x with repair := bitsOf e 17 10 :: x.repair }
  else s

/-- The assembly record is shown and checked; its repair map is applied where it passes.  Where it fails, asm_crc_err is the only
mark the model gives the device identity and the test signature as unverified: the spec names no other (DESIGN CHOICE, log
entry 94). -/
def State.assembly (s : State) (r : List Byte) : State :=
  let s := (List.range 2048).foldl (fun s k => s.setReg .glbAsmrec [k] (BitVec.ofNat 32 (fieldAt r (4 * k) 4))) s
  if asmOk r then
    (List.range (min 512 (fieldAt r 0x100 4))).foldl (fun s k => s.repairEntry (fieldAt r (0x104 + 4 * k) 4)) s
  else (s.raise F.glbWirechk_asmCrcErr []).logEv 8 0 0 0x0101 4 []

/-! ## Power-on and power-off (R542, R543) -/

/-- POWER_ON: the dies leave the held-off state and qualification starts. -/
def execPowerOn (p : PowerOn) (s : State) : Out :=
  if s.clk.phase ≠ .heldOff then .next s
  else
    let clk : ClkSt := { (default : ClkSt) with phase := .waitRef, profile := p.profile, iopull := p.iopull }
    let pins : PinSt := { (default : PinSt) with user := 1, txIdle := true, perst := true, flashCs := 3#2 }
    let otp := if s.otp.made then s.otp else { p.otp with made := true, asm := asmRecord p.otp.asm }
    let fresh := s.upd.commit.isNone
    let upd := { s.upd with commit := if fresh then p.commit else s.upd.commit, board := if fresh then p.board else s.upd.board }
    let s1 := ({ s with clk := clk, pins := pins, otp := otp, upd := upd } : State)
    let s3 := (s1.showIds.features.assembly otp.asm).sampled
    let s4 := (s3.put F.clkRefstat_refqual [] p.refqual.toNat).put F.dbgCfg_mode [] s3.otp.dbgMode.toNat
    let s5 := (s4.put F.glbBankpwrHp_good [] p.bankHp.toNat).put F.glbBankpwrHv_good [] p.bankHv.toNat
    .next ((s5.flashFound p.flash).newNonce.bootRom p.mcOk).tapIdle

/-- POWER_OFF: the held-off state. What survives lies outside the dies' volatile state: fuses, the flash with its log area,
commit and board records, and the margins MC firmware keeps there (R438, R484, R506, R513). -/
def execPowerOff (s : State) : Out :=
  if s.clk.phase = .heldOff then .next s
  else
    let r := State.reset
    let margins := (List.range 10).foldl (fun t k => t.setReg .pwrMargin [k] (s.reg .pwrMargin [k])) r
    .next { margins with
      otp := s.otp
      log := { r.log with flash := s.log.flash }
      load := { r.load with flash := s.load.flash }
      upd := { r.upd with commit := s.upd.commit, copy := s.upd.copy, other := s.upd.other, board := s.upd.board }
      free := s.free
      outbox := s.outbox
      pending := s.pending }

/-! ## Banks and pins (R545, R546, R553) -/

/-- BANK_VCCO_CHANGE: the VCCO of a high-performance bank (24) or a high-voltage bank (14) becomes good or not good. -/
def execBankVccoChange (hv : Bool) (bank : Fin 24) (good : Bool) (s : State) : Out :=
  let f := if hv then F.glbBankpwrHv_good else F.glbBankpwrHp_good
  let old := s.get f []
  if s.clk.phase = .heldOff ∨ (hv ∧ 14 ≤ bank.val) ∨ old.testBit bank == good then .next s
  else
    .next ((s.put f [] (Nat.xor old (2 ^ bank.val))).logEv (if hv then 8 else bank.val / 6) 0 0 0x0D02 2
      (leBytes 1 (b2n hv) ++ leBytes 1 bank.val ++ leBytes 1 (b2n good)))

/-- Whether ALARM_N is low: while tamper is 1 (R417). -/
def State.alarmLow (s : State) : Bool := s.flag F.encAlarm_tamper []

/-- PIN_FAULT: pin q has been driven against a pad at `pad` for 1 µs (R553). -/
def execPinFault (q : Fin 1216) (pad : Bool) (s : State) : Out :=
  if s.padOut s.free q ≠ .drive (!pad) then .next s
  else
    let w := q.val / 32
    let old := s.get F.glbPinflt_fault [w]
    let s1 :=
      if old.testBit (q.val % 32) then s
      else (s.put F.glbPinflt_fault [w] (Nat.lor old (2 ^ (q.val % 32)))).logEv (if q.val < 768 then q.val / 192 else 8) 0 0 0x0D01 2
        (leBytes 2 q.val ++ leBytes 1 (b2n pad) ++ leBytes 1 (b2n (!pad)))
    .next (if s1.flag F.glbPinctrl_faultOff [] then { s1 with pins := { s1.pins with off := q.val :: s1.pins.off } } else s1)

end Sys2Proof.Machine
end

