-- ==== Sys2Proof/Machine/References.lean ====
section
/-!
DEFINITION. Sys2Proof/Machine/References.lean: qualification and loss of the references, clock start-up, hot resume and warm
restart (R51 to R60, R65, R558).
-/

namespace Sys2Proof.Machine

/-- Enter a phase of the clock start-up. -/
def State.setClk (s : State) (p : ClkPhase) : State := { s with clk := { s.clk with phase := p } }

/-! ## Warm restart (R18, R58) -/

/-- State that a warm restart drops although no register shows it: memories, queues of the NoC, crossings but for the OTP
repair map, keys, sequencers, caches. -/
def State.dropVolatile (s : State) : State :=
  let xg := s.xg.filterMap (fun e => if e.2.repair.isEmpty then none else some (e.1, { (default : XGroup) with repair := e.2.repair }))
  let u := s.upd
  { s with
    tb := { (default : TbSt) with count := s.tb.count, running := s.tb.running, toggles := s.tb.toggles,
                                  dieToggles := s.tb.dieToggles, half := s.tb.half }
    dram := default
    noc := default
    xg := xg
    links := []
    encR := []
    encE := []
    lanes := default
    log := { s.log with snapTicks := 0 }
    load := { (default : LoadSt) with flash := s.load.flash }
    pwr := { (default : PwrSt) with sram := [] }
    mbx := []
    upd := { u with staged := [], changed := [], trialLeft := 0, newDir := [], newBoard := [] }
    l2 := []
    plic := 0#512
    plicBusy := 0#512
    deferred := [] }

/-- A warm restart: user function stops, every register but those of the POR and DBG domains returns to reset, DRAM contents
are lost, cores are reset, the unlock is dropped (R18, R58, R310, R497, R525, R539). -/
def State.warmRestart (s : State) (r : Restart) : State :=
  let s := s.clearDevice.resetDomains (fun d => d == .warm || d == .host || d == .load)
  let s := s.dropVolatile
  let s := ({ s with
    pins := { (default : PinSt) with user := 1, txIdle := true, perst := s.pins.perst, flashCs := s.pins.flashCs, flashSck := s.pins.flashSck }
    clk := { s.clk with warm := true, retRunning := false, retExpired := false, lostA := false, lostB := false,
                        profile := r.profile, mon := default } } : State)
  let s := (List.range 4).foldl (fun s i => s.coreReset i) s
  let s := ({ s with dbg := { s.dbg with unlock := none } } : State).relock.put F.dbgUnlkcmd_busy [] 0
  let s := (s.sampled.raise F.clkRefstat_warmByLoss []).flashFound r.flash
  s.bootRom r.mcOk

/-! ## Qualification (R51, R53, R56, R58) -/

/-- The first reference to qualify becomes active.  A start-up that ends with another reference than the one before records no
switch: nothing was active in between (R56, log entry 49). -/
def State.activate1 (s : State) (refB : Bool) : State := s.put F.clkRefstat_active [] (b2n refB)

/-- REFERENCE_QUALIFIED: at start-up the reference becomes active and the PLLs lock to it; in an outage it starts a hot
resume, or after the monitor's expiry a warm restart (`start` is what that finds).  Beside a qualified reference, the one that
CLK_REFCTRL prefers becomes active when it first qualifies, and after a loss only if revert is 1 (R53, R56, log entry 49). -/
def execReferenceQualified (refB : Bool) (start : Restart) (s : State) : Out :=
  if s.clk.phase = .heldOff ∨ s.qualified refB then .next s
  else
    let s1 := s.setQualified refB true
    let s2 := ({ s1 with clk := if refB then { s1.clk with failedB := false } else { s1.clk with failedA := false } } : State)
    let back := if refB then s.clk.lostB else s.clk.lostA
    match s.clk.phase with
    | .waitRef => .next ((s2.activate1 refB).setClk .locking)
    | .outage =>
      if s.clk.retExpired then .next (((s2.warmRestart start).activate1 refB).setClk .locking)
      else .next ((s2.switchTo refB 0).setClk .resuming)
    | _ =>
      if (!back || s2.flag F.clkRefctrl_revert []) && s2.flag F.clkRefctrl_prefer [] == refB then .next (s2.switchTo refB 2)
      else .next s2

/-! ## Start-up and hot resume -/

/-- PLLS_LOCKED: the PLLs of all seven dies are locked; at a start-up the wire check begins. -/
def execPllsLocked (s : State) : Out :=
  match s.clk.phase with
  | .locking => .next ((s.raise F.clkRefstat_locked []).setClk .locked)
  | .resuming => .next (s.raise F.clkRefstat_locked [])
  | _ => .next s

/-- The hub timebase runs from count `c`, every die copy aligned to it. -/
def State.startTimebase (s : State) (c : Nat) : State :=
  let s := (s.put F.tbStat_misaligned [] 0).put F.tbStat_free [] 0
  { s with tb := { s.tb with count := c % 2 ^ 64, running := true, fresh := true, offs := [], drift := [], slew := [], jumped := [],
                             sync := dieCopies.map (fun k => (k, c % 2 ^ 64 + 1)) },
           pins := { s.pins with txIdle := s.flag F.pwrTrip_active [] } }

/-- TIMEBASE_START: count 0 at power-on, the count after the held one at a warm restart or hot resume (R65). At a hot resume
crossings resume with their spares, missed refreshes are issued, and lanes adapt (R58, R274, R445). -/
def execTimebaseStart (s : State) : Out :=
  match s.clk.phase with
  | .locked => .next ((s.startTimebase (if s.clk.warm then s.tb.count + 1 else 0)).setClk .running)
  | .resuming =>
    if s.flag F.clkRefstat_locked [] && !s.tb.running then
      let s1 := (s.startTimebase (s.tb.count + 1)).xgResume.lanesRestart
      .next { s1 with dram := { s1.dram with catchUp := true } }
    else .next s
  | _ => .next s

/-- HOT_RESUME_COMPLETE: fabric and word-array clocks restart, user outputs leave their safe states, the monitor recharges. -/
def execHotResumeComplete (s : State) : Out :=
  if s.clk.phase = .resuming ∧ s.tb.running then
    let s1 := (s.raise F.clkRefstat_hotResume []).logEv 8 9 0 0x0202 2 (leBytes 8 s.clk.held)
    .next { s1 with
      clk := { s1.clk with phase := .running, retRunning := false, retExpired := false }
      dram := { s1.dram with catchUp := false }
      pins := { s1.pins with safe := s1.flag F.pwrTrip_active [] } }
  else .next s

/-! ## Loss (R54, R55, R57, R558) -/

/-- Every reference is lost: outputs go to their safe states, clocks stop, the timebase holds, the monitor runs. -/
def State.totalLoss (s : State) : State :=
  let s := (s.forceSafe.cutPours.put F.clkRefstat_locked [] 0)
  let s := ((s.put F.pciStat_dlUp [] 0).put F.pciStat_speed [] 0).put F.pciStat_width [] 0
  { s with
    clk := { s.clk with phase := .outage, retRunning := true, held := s.tb.count, mon := { s.clk.mon with high := false } }
    tb := { s.tb with running := false }
    dram := { s.dram with catchUp := false }
    pins := { s.pins with flashCs := 3#2, flashSck := 0#2 } }

/-- Start-up returns to step 1: every PLL is released and every reference is qualified afresh (R558). -/
def State.startOver (s : State) : State :=
  let s := (((s.setQualified false false).setQualified true false).put F.clkRefstat_locked [] 0).setClk .waitRef
  { s with clk := { s.clk with lostA := false, lostB := false } }

/-- REFERENCE_LOST: no edge for 40 ns. -/
def execReferenceLost (refB : Bool) (s : State) : Out :=
  if s.clk.phase = .heldOff then .next s
  else
    let s1 := (s.countUp (if refB then F.clkRefstat_bLosses else F.clkRefstat_aLosses) []).setQualified refB false
    let s2 := ({ s1 with clk :=
      if refB then { s1.clk with failedB := false, lostB := true } else { s1.clk with failedA := false, lostA := true } } : State)
    if s.activeB ≠ refB then .next s2
    else
      let other := s2.qualified (!refB)
      match s.clk.phase with
      | .locking => .next (if other then s2.switchTo (!refB) 0 else s2.startOver)
      | .locked =>
        .next (if other then ((s2.switchTo (!refB) 0).put F.clkRefstat_locked [] 0).setClk .locking else s2.startOver)
      | .running => .next (if other then s2.switchTo (!refB) 0 else s2.totalLoss)
      | .resuming => .next (if other then s2.switchTo (!refB) 0 else s2.totalLoss)
      | _ => .next s2

end Sys2Proof.Machine
end

