-- ==== Sys2Proof/Machine/Ticks.lean ====
section
/-!
DEFINITION. Sys2Proof/Machine/Ticks.lean: what a tick does (R71, R103, R108, R110, R152, R156, R162, R436, R479).
-/

namespace Sys2Proof.Machine

/-- The hub writes a snapshot entry (R436): package power, highest temperature, the buckets that are not zero. -/
def State.snapshot (s : State) : State :=
  let full := (List.range 96).foldl (fun t b => t + 2 ^ b * b2n (decide (s.get F.eccBktStat_count [b] ≠ 0))) 0
  s.logEv 8 0 0 0x0002 0 (leBytes 4 (s.get F.pwrMeas_mw []) ++ leBytes 2 s.hottest ++ leBytes 12 full)

/-- A TICK0 tick counts toward the next snapshot, which is skipped within 1 ms of the one before. -/
def State.snapTick (s : State) : State :=
  let n := s.get F.logCfg_snapN []
  if n = 0 then s
  else if s.log.snapTicks + 1 < n then { s with log := { s.log with snapTicks := s.log.snapTicks + 1 } }
  else
    let now := s.now 8
    let s := ({ s with log := { s.log with snapTicks := 0 } } : State)
    if s.log.lastSnap ≠ 0 ∧ now + 1 < s.log.lastSnap + 1000000 then s
    else ({ s with log := { s.log with lastSnap := now + 1 } } : State).snapshot

/-- The word array of die d takes a tick: ports first, then tiles. -/
def State.arrayTick (s : State) (d n t0 prev : Nat) : State :=
  let s := (List.range 64).foldl (fun s p => s.portTick d n p) s
  if s.held d then s else (List.range 2048).foldl (fun s t => s.tileTick d n t0 prev t) s

/-- TICK0 paces the governor's window: its period, or the smallest multiple of it that lasts 100 µs (R73, R476). -/
def State.windowTick (s : State) : State :=
  let k := s.pwr.winTicks + 1
  if k * s.periodOf 0 < 100000 then { s with pwr := { s.pwr with winTicks := k } }
  else { s with pwr := { s.pwr with winTicks := 0, winOver := true } }

/-- While TICK0 is disabled a governor window lasts 1,048,576 ns (R476). -/
def State.windowTime (s : State) : State :=
  if !s.flag F.tbTickCtrl_en [0] && s.tb.count % 1048576 == 0 then { s with pwr := { s.pwr with winTicks := 0, winOver := true } }
  else s

/-- Generator n fires on every timebase copy that has reached a count of its schedule: on the hub, with what TICK0 paces
there, and on each die (R71, R73). -/
def State.fireTick (s : State) (n : Nat) : State :=
  let s1 :=
    if s.tickDue n then
      let t := (s.tickFires n).monTick n
      if n = 0 then t.snapTick.modeEntryTick.windowTick else t
    else s
  ((List.range 4).filterMap (fun d => (s.dieReached d n).map (fun c => (d, c)))).foldl (fun t e => t.dieFires e.1 n e.2) s1

/-- The word arrays that have a clock edge take the ticks of generator n that wait for one. -/
def State.takeTicks (s : State) (n : Nat) : State :=
  let mine (o : OwedTick) : Bool := o.gen == n && s.atEdge o.die
  (s.tb.owed.filter mine).foldl (fun t o => if t.runs (16 + o.die) then t.arrayTick o.die n o.count o.prev else t)
    ({ s with tb := { s.tb with owed := s.tb.owed.filter (fun o => !mine o) } } : State)

/-- TICK: generator n fires on the counts of its schedule, and each word array takes the tick on its first clock edge at or
after it. -/
def execTick (n : Fin 4) (s : State) : Out := .next ((s.fireTick n).takeTicks n)

end Sys2Proof.Machine
end

