-- ==== Sys2Proof/Machine/Pcie.lean ====
section
/-!
DEFINITION. Sys2Proof/Machine/Pcie.lean: the host's accesses through the base address registers, and how transactions end at
their masters (R363, R366, R367, R459 to R463).
-/

namespace Sys2Proof.Machine

/-! ## Base address registers (R459, R460) -/

/-- NoC address of a BAR0 offset. -/
def bar0Addr (off : Nat) : Option Nat :=
  if off < 0x400000 then some (registerSpace + off)
  else if off < 0x800000 then some (0x0F0108000000 + (off - 0x400000))
  else if off < 0x2000000 then
    let k := (off - 0x800000) / 0x400000
    some (0x0F0100000000 + 0x1000000 * [0, 1, 2, 3, 10, 11].getD k 0 + off % 0x400000)
  else none

/-- Where the MSI-X table and its pending bits lie in BAR0. -/
def msixTableAt : Nat := 0x3F00000
def msixPbaAt : Nat := 0x3F01000

/-- The words of the MSI-X structures at a BAR0 offset. -/
def State.msixRead (s : State) (off len : Nat) : Resp × List Byte :=
  if off % 4 ≠ 0 ∨ len % 4 ≠ 0 then (.aerr, [])
  else
    (.ok, ((List.range (len / 4)).map (fun i =>
      let o := off + 4 * i
      leBytes 4 (if o < msixPbaAt then s.reg .msixTable [(o - msixTableAt) / 4] else s.reg .msixPba [(o - msixPbaAt) / 4]).toNat)).flatten)

/-- A write to the MSI-X structures; the pending bits are read only. -/
def State.msixStore (s : State) (off : Nat) (data : List Byte) : State :=
  (List.range (data.length / 4)).foldl (fun s i =>
    let o := off + 4 * i
    if o < msixPbaAt then s.msixWrite ((o - msixTableAt) / 4) (BitVec.ofNat 32 (leNat (slice data (4 * i) 4))) else s) s

/-- Whether a BAR0 offset lies in the MSI-X table or the pending bit array. -/
def inMsix (off : Nat) : Bool :=
  (msixTableAt ≤ off && off < msixTableAt + 0x1000) || (msixPbaAt ≤ off && off < msixPbaAt + 0x20)

/-- The address a translation gives, and whether the access may go there: en 1, below 2^48, outside register space. -/
def State.translate (s : State) (off len : Nat) : Nat × Bool :=
  let n := off / 2 ^ 32
  let a := s.trBase n + off % 2 ^ 32
  (a, s.flag F.pciTrCfg_en [n] && decide (a + len ≤ 2 ^ 48) && decide (a + len ≤ registerSpace))

/-- The parts of `len` bytes at `off`, split at 64-byte boundaries (R461): offset and length. -/
def splitTlp : Nat → Nat → Nat → List (Nat × Nat)
  | 0, _, _ => []
  | fuel + 1, off, len =>
    if len = 0 then []
    else
      let n := min len (64 - off % 64)
      (off, n) :: splitTlp fuel (off + n) (len - n)

/-- A NoC request of the host. -/
def hostReq (m : Fin 64) (cls page : Fin 4) (write : Bool) (a len : Nat) (data : List Byte) : Req :=
  { src := ⟨m, 0, false, false⟩, tag := 0, cls := cls, page := page, write := write, addr := BitVec.ofNat 48 a, len := len,
    data := data, badPar := [], stamp := 0#16 }

/-- One piece of a TLP: bar 0 is BAR0 (master 58, control class), bar 1 BAR2 (master 59). -/
def State.hostPiece (s : State) (bar : Nat) (write : Bool) (off len : Nat) (data : List Byte) : HostPiece :=
  if bar = 0 then
    match bar0Addr off with
    | some a => ⟨hostReq 58 2 0 write a len data, none, none⟩
    | none =>
      let r := hostReq 58 2 0 write off len data
      if inMsix off then ⟨r, none, some (if write then (Resp.ok, []) else s.msixRead off len)⟩
      else ⟨r, none, some (Resp.aerr, [])⟩
  else
    let n := off / 2 ^ 32
    let (a, ok) := s.translate off len
    let r := hostReq 59 (Fin.ofNat 4 (s.get F.pciTrCfg_class [n])) (Fin.ofNat 4 (s.get F.pciTrCfg_page [n])) write a len data
    ⟨r, none, if ok then none else some (Resp.aerr, [])⟩

/-! ## Outcomes (R462) -/

/-- A posted write ends with a code other than OK: logged, PCI_WERR where it is empty, vector 7. -/
def State.writeFailed (s : State) (r : Req) (c : Resp) : State :=
  let a := r.addr.toNat
  let s := s.logEv 10 11 0 0x0805 3 (leBytes 1 c.code ++ leBytes 6 a)
  let s := s.emit (.bytes (if c = .aerr then "AER Unsupported Request" else "AER Completer Abort") (leBytes 6 a))
  let s :=
    if s.flag F.pciWerr_valid [] then s
    else
      let s := ((s.raise F.pciWerr_valid []).put F.pciWerr_code [] c.code).put F.pciWerr_bar2 [] (b2n (r.src.master.val == 59))
      (s.setReg .pciWerrLo [] (BitVec.ofNat 32 a)).setReg .pciWerrHi [] (BitVec.ofNat 32 (a / 2 ^ 32))
  s.interrupt .lanes

/-- What the host sees of a read TLP. -/
def completion (l : List (Resp × List Byte)) : Output :=
  let data := (l.map (·.2)).flatten
  match l.find? (fun p => p.1 == .aerr || p.1 == .serr || p.1 == .terr || p.1 == .retry) with
  | some (.aerr, _) => .bytes "Unsupported Request" []
  | some _ => .bytes "Completer Abort" []
  | none =>
    if l.any (fun p => p.1 == .derr || p.1 == .perr) then .bytes "Successful Completion, poisoned" data
    else .bytes "Successful Completion" data

/-! ## Ordering (R461) -/

/-- Whether a piece of a TLP may be issued, given the earlier TLPs and whether an earlier piece of its own is unanswered. -/
def mayIssue (earlier : List HostTlp) (t : HostTlp) (ownOpen : Bool) : Bool :=
  if !t.write then !earlier.any (fun e => e.write && e.bar2 == t.bar2)
  else if !t.bar2 then !earlier.any (·.write)
  else if t.strict then !ownOpen && !earlier.any (fun e => e.write && e.bar2)
  else true

/-- A free tag of a master. -/
def State.freeTagOf (s : State) (m : Nat) : Option (Fin 1024) :=
  if s.tagLimit m ≤ s.tagsUsed m then none
  else ((List.range 1024).find? (fun t => (s.tag m t).isNone)).map (Fin.ofNat 1024 ·)

/-- Issue the pieces of one TLP that may go. -/
def issuePieces (earlier : List HostTlp) (t : HostTlp) : List HostPiece → Bool → State → List HostPiece × State
  | [], _, s => ([], s)
  | p :: ps, ownOpen, s =>
    let (p, s) :=
      if p.tag.isSome || p.ans.isSome || !mayIssue earlier t ownOpen then (p, s)
      else
        match s.freeTagOf p.req.src.master with
        | some g => ({ p with tag := some g }, s.inject { p.req with tag := g })
        | none => (p, s)
    let (ps, s) := issuePieces earlier t ps (ownOpen || p.ans.isNone) s
    (p :: ps, s)

/-- Walk the TLPs, oldest first: issue what may go; a read all of whose pieces are answered completes in its turn, a write
whose pieces are answered is done. -/
def walkTlps : List HostTlp → List HostTlp → State → State
  | [], kept, s => { s with lanes := { s.lanes with tlps := kept } }
  | t :: ts, kept, s =>
    let (ps, s) := issuePieces kept t t.pieces false s
    let t := { t with pieces := ps }
    if ps.all (·.ans.isSome) && (t.write || mayIssue kept t false) then
      walkTlps ts kept (if t.write then s else s.emit (completion (ps.filterMap (·.ans))))
    else walkTlps ts (kept ++ [t]) s
def State.pumpTlps (s : State) : State := walkTlps s.lanes.tlps [] s

/-- Whether a memory TLP reaches the function: link up, function in D0. -/
def State.hostReach (s : State) : Bool :=
  s.flag F.pciStat_dlUp [] && !s.pins.perst && !s.lanes.d3hot && !s.flag F.pciStat_hlDis [] && s.runs 10

/-- A TLP is received. -/
def State.acceptTlp (s : State) (t : HostTlp) : State :=
  ({ s with lanes := { s.lanes with tlps := s.lanes.tlps ++ [t] } } : State).pumpTlps

/-- TLP_READ: bar 0, 1, 2 for BAR0, BAR2, BAR4. -/
def execTlpRead (bar : Fin 3) (off : BitVec 36) (len : Fin 4097) (s : State) : Out :=
  if !s.hostReach then .next s
  else if bar = 2 then
    .next (s.acceptTlp ⟨false, false, false, [⟨hostReq 58 2 0 false 0 0 [], none, some (Resp.ok, List.replicate len 0#8)⟩]⟩)
  else
    let ps := (splitTlp 66 off.toNat len).map (fun p => s.hostPiece bar false p.1 p.2 [])
    .next (s.acceptTlp ⟨false, bar == 1, false, ps⟩)

/-- TLP_WRITE: a posted write of the host. -/
def execTlpWrite (bar : Fin 3) (off : BitVec 36) (data : List Byte) (s : State) : Out :=
  if !s.hostReach || 4096 < data.length then .next s
  else if bar = 2 then .next (s.bar4Write (off.toNat % 2 ^ 28) data)
  else
    let o := off.toNat
    let ps := (splitTlp 66 o data.length).map (fun p => s.hostPiece bar true p.1 p.2 (slice data (p.1 - o) p.2))
    let s1 := if bar = 0 && inMsix o then s.msixStore o data else s
    let s2 := ps.foldl (fun s p => if (p.ans.map (·.1)) = some .aerr then s.writeFailed p.req .aerr else s) s1
    .next (s2.acceptTlp ⟨true, bar == 1, bar == 1 && s.flag F.pciTrCfg_strict [o / 2 ^ 32], ps⟩)

/-- TRANSLATION_ENABLE: PCI_TRn_CFG with en 1 (R460). -/
def execTranslationEnable (src : Src) (n : Fin 16) (w : Word32) (s : State) : Out :=
  .next (s.command src .pciTrCfg [n] (w ||| 0x80000000#32) (·.trWrite .pciTrCfg n (w ||| 0x80000000#32)))

/-! ## Responses at their masters (R363, R366, R367) -/

/-- A transaction of the host has its answer. -/
def State.hostAnswer (s : State) (m : Nat) (t : Fin 1024) (c : Resp) (d : List Byte) : State :=
  let mine (p : HostPiece) : Bool := p.ans.isNone && p.tag == some t && p.req.src.master.val == m
  let s : State :=
    match List.findSome? (fun (x : HostTlp) => List.find? mine x.pieces) (s.lanes.tlps.filter (·.write)) with
    | some p => if c = Resp.ok then s else s.writeFailed p.req c
    | none => s
  let tlps := s.lanes.tlps.map (fun (x : HostTlp) =>
    { x with pieces := x.pieces.map (fun (p : HostPiece) => if mine p then { p with ans := some (c, d) } else p) })
  ({ s with lanes := { s.lanes with tlps := tlps } } : State).pumpTlps

/-- The transfer size of a debug bus access of `n` bytes. -/
def sizeOf2 (n : Nat) : Nat := if n ≤ 1 then 0 else if n = 2 then 1 else if n ≤ 4 then 2 else 3

/-- A master completes a transaction. -/
def State.deliverResp (s : State) (r : Req) (c : Resp) (d : List Byte) (bad : List Nat) : State :=
  let m := r.src.master.val
  if m = 58 ∨ m = 59 then s.hostAnswer m r.tag c d
  else if m = 61 ∧ s.sbBusy then s.sbDone r.write (sizeOf2 r.len) c d
  else if m < 48 ∧ !bad.isEmpty then s.emit (.flit r c d bad)
  else s.emit (.resp r.src c d)

/-- RESPONSE_ARRIVAL: the response to request `r`, with the stamp it echoes and the bytes that fail their parity. A late one is
discarded and counted; RETRY is repeated by the masters that repeat, with tag and first stamp. -/
def execResponseArrival (r : Req) (code : Fin 8) (stamp : BitVec 16) (data : List Byte) (bad : List Nat) (s : State) : Out :=
  let m := r.src.master.val
  match s.tag m r.tag with
  | none => .next (s.countUp F.nocMstat_late [m])
  | some x =>
    if x.out || x.stamp != stamp.toNat then .next (s.countUp F.nocMstat_late [m])
    else
      let c := respOf code
      if c = .retry ∧ repeats m then .next (s.send { r with stamp := stamp })
      else
        let c : Resp := if c = .ok ∧ !x.write ∧ !bad.isEmpty then .perr else c
        .next ((s.tagDone m r.tag x).deliverResp { r with write := x.write } c data bad)

/-- A master's request that still waits at its endpoint is given up with its transaction. -/
def State.giveUp (s : State) (m : Fin 64) (t : Fin 1024) : State :=
  { s with noc := { s.noc with held := s.noc.held.filter (fun r => r.src.master != m || r.tag != t) } }

/-- MASTER_TIMEOUT: the transaction completes with TERR and the tag is kept out of use for a further tmo_us (R363). -/
def execMasterTimeout (m : Fin 64) (core : Fin 4) (t : Fin 1024) (s : State) : Out :=
  match s.tag m t with
  | some x =>
    if x.out || !s.tagExpired m x then .next s
    else
      let s1 := (s.setTag m t { x with out := true, start := s.now (masterDie m) }).countUp F.nocMstat_tmos [m]
      let r : Req := { hostReq m 0 0 x.write 0 1 [] with src := ⟨m, core, false, false⟩, tag := t }
      .next ((s1.giveUp m t).deliverResp r .terr [] [])
  | none => .next s

end Sys2Proof.Machine
end

