-- ==== Sys2Proof/Machine/Clock.lean ====
section
/-!
DEFINITION. Sys2Proof/Machine/Clock.lean: what passes on its own while no command waits (log entry 1).  A cycle takes two
idle steps. The first is the edge: what is in flight lands, channels and spines move on, sequencers step, the timebase
counts, and the commands that time alone brings are put in the queue. The second issues the cycle: the beats and
instructions of the slots that enter F are put in the queue, decoded from the current moulds.
-/

namespace Sys2Proof.Machine

/-! ## The end of a word-array cycle (R83, R89, R91 to R96, R104, R106, R137, R560) -/

/-- A write of X or W lands (R137). -/
def WaDie.land (w : WaDie) (p : Pend) : WaDie :=
  match p.w with
  | .dreg k v => { w with dreg := SMap.set byte0 w.dreg k v }
  | .acc k v => { w with acc := SMap.set acc0 w.acc k v }
  | .flags k f => { w with flags := SMap.set default w.flags k f }
  | .out k v _ => { w with out := SMap.insert w.out k v }
  | .store k v => { w with store := SMap.set byte0 w.store k v }

/-- A write of an OUT register whose byte carries the inverted parity. -/
def Pend.inverted (p : Pend) : Pend :=
  match p.w with
  | .out k v c => { p with w := .out k (v ^^^ 0x100#9) c }
  | _ => p

/-- Parity injection at an OUT register (R429): the write of the register named that is due in the present cycle, once. -/
def State.injectOut (s : State) (d : Nat) : State :=
  let w := s.die d
  let key := outKey (s.get F.eccPinj_index []) (s.get F.eccPinj_b [] % 4)
  let hit (p : Pend) : Bool := decide (p.due ≤ w.cycle) && (match p.w with
    | .out k _ _ => k == key
    | _ => false)
  if s.flag F.eccPinj_arm [] && s.get F.eccPinj_kind [] == 3 && s.get F.eccPinj_die [] == d && w.pend.any hit then
    (s.setDie d { w with pend := w.pend.map (fun p => if hit p then p.inverted else p) }).put F.eccPinj_arm [] 0
  else s

/-- Every write that is due lands; an output register not written in this cycle presents valid 0 in the next (R89). -/
def WaDie.settle (w : WaDie) : WaDie :=
  (w.pend.filter (fun p => decide (p.due ≤ w.cycle))).foldl WaDie.land
    { w with out := [], pend := w.pend.filter (fun p => !decide (p.due ≤ w.cycle)) }

/-- A byte on its way to a spine register, with the cell that drives it. -/
structure Driven where
  cell : Nat
  b : SpineByte
deriving DecidableEq, Repr

/-- The byte a write of OUT_N or OUT_S puts on an egress spine (R102, R106, R108). -/
def State.spineByte (s : State) (d : Nat) (w : WaDie) (p : Pend) : Option Driven :=
  match p.w with
  | .out key v c =>
    let t := key / 64
    let k := key / 4 % 16
    match (w.tile t).cur.switch k with
    | some sw =>
      let sp := bitsOf sw 2 1
      let port := 4 * (t / 128) + sp
      if sw.testBit 3 && key % 4 == (if sp < 2 then 0 else 2) && s.egress d port then
        some ⟨k, port, w.cycle + spineLat t port, k, spineDist t port, t, v, c⟩
      else none
    | none => none
  | _ => none

/-- What a route source carries in the present cycle (R95, R560); `out` is what OUT registers are written with in it, `e` the
edge or direction of the outgoing channel. -/
def WaDie.routeByte (w : WaDie) (out : SMap (BitVec 9)) (t e code : Nat) : Option (BitVec 9) :=
  if code = 0 then none
  else if code ≤ 0x20 then
    let h := code - 1
    (tileAt t (h / 8) 1).bind (fun t' => SMap.find? w.chan (t' * 32 + 8 * opp (h / 8) + h % 8))
  else if code ≤ 0x28 then
    let x := code - 0x21
    (tileAt t (x / 2) 4).bind (fun t' => SMap.find? w.expr (t' * 8 + 2 * opp (x / 2) + x % 2))
  else if 0x30 ≤ code then SMap.find? out (outKey (cellKey t (code - 0x30)) e)
  else none

/-- A byte that a route sends: its tile and cell, whether on an express channel, the key of the channel, the byte. -/
structure Hop where
  tile : Nat
  cell : Nat
  express : Bool
  key : Nat
  v : BitVec 9
deriving DecidableEq, Repr

/-- What the two routes of cell k of tile t send: cell k owns channels 2k and 2k + 1, cell 4e those that can divert to the
express channels of edge e (R93). -/
def WaDie.hops (w : WaDie) (out : SMap (BitVec 9)) (t k : Nat) : List Hop :=
  match (w.tile t).cur.switch k with
  | none => []
  | some sw =>
    let ex : Bool := sw.testBit 0 && k % 4 == 0
    [(bitsOf sw 15 10, 0), (bitsOf sw 9 4, 1)].filterMap (fun r =>
      (w.routeByte out t (k / 4) r.1).map (fun v =>
        ⟨t, k, ex, if ex then t * 8 + 2 * (k / 4) + r.2 else t * 32 + 2 * k + r.2, v⟩))

/-- The tiles of a die whose switches hold a mould. -/
def WaDie.switched (w : WaDie) : List Nat := (w.tiles.filter (fun e => !e.2.cur.words.isEmpty)).map (·.1)

/-- Switches and spines move on at the end of a cycle; a byte that fails its check at a switch or spine register goes on with
valid 0 (R88). The tile that sends it on and the cell that owns the route, or drives the spine, are marked (DESIGN CHOICE, log
entry 95). -/
def State.moveBytes (s : State) (d : Nat) : State :=
  let w := s.die d
  let due := w.pend.filter (fun p => decide (p.due ≤ w.cycle))
  let w1 := w.settle
  let hs := w.switched.flatMap (fun t => (List.range 16).flatMap (fun k => w.hops w1.out t k))
  let good := hs.filter (fun h => byteOk h.v)
  let put (ex : Bool) : SMap (BitVec 9) :=
    (good.filter (fun h => h.express == ex)).foldl (fun m h => SMap.insert m h.key h.v) []
  let up := due.filterMap (s.spineByte d w)
  let s1 := s.setDie d { w1 with chan := put false, expr := put true,
                                 spineOut := w1.spineOut ++ (up.filter (fun x => byteOk x.b.v)).map (·.b) }
  let s2 := (up.filter (fun x => !byteOk x.b.v)).foldl (fun s x => s.parityFail d x.b.tile x.cell) s1
  (hs.filter (fun h => !byteOk h.v)).foldl (fun s h => s.parityFail d h.tile h.cell) s2

/-! ## The sequencers (R149, R151 to R153, R165) -/

/-- The schedule in progress: the urgent one while it runs. -/
def TileSt.at_ (x : TileSt) : Option SeqPos := if x.urgent == .run then x.upos else x.pos

/-- Where it goes on; a main schedule with no slot left ends its pour in the third cycle after the last (R153). -/
def TileSt.goOn (x : TileSt) (cycle : Nat) (p : Option SeqPos) : TileSt :=
  if x.urgent == .run then { x with upos := p }
  else if p.isNone then { x with pos := none, endAt := cycle + 3 }
  else { x with pos := p }

/-- At the end of a cycle in which a slot entered F the sequencer counts it, and after an entry's last slot reads the next
entry and its mould (R149, R152); an uncorrectable entry ends the schedule (R148). -/
def State.advance (s : State) (d t : Nat) : State :=
  let c := (s.die d).cycle
  let x : TileSt := { s.tile d t with slot := false }
  let s0 := s.setTile d t x
  match x.at_ with
  | none => s0
  | some p =>
    if 1 < p.left then s0.setTile d t (x.goOn c (some { p with left := p.left - 1 }))
    else if p.last then s0.setTile d t (x.goOn c none)
    else
      match s0.seek d t (p.entry + 1) with
      | (none, s1) => s1.setTile d t ((s1.tile d t).goOn c none)
      | (some (q, m), s1) => (s1.setTile d t ((s1.tile d t).goOn c (some q))).loadMould d t m

/-- A tile at the edge: its sequencer moves on, a swap cycle ends, a doorbell written in the cycle that ends will be recognised
(R164, R165), and reserved settings of the current mould are noted again (R96). -/
def State.tileEdge (s : State) (d t : Nat) : State :=
  let x := s.tile d t
  let s := s.setTile d t { x with busy := false, scrubbed := false, wasBank := x.bank, bell := false, bellDue := x.bell }
  let s := if x.slot then s.advance d t else s
  let y := s.tile d t
  let s := s.setTile d t { y with urgent := if x.urgent == .swap then .run else y.urgent }
  if (s.tile d t).cur.words.isEmpty then s else s.noteCurrent d t

/-- The edge at which a word-array cycle of a die ends and the next begins. -/
def State.dieEdge (s : State) (d : Nat) : State :=
  let s := (s.injectOut d).moveBytes d
  let s := ((s.die d).tiles.map (·.1)).foldl (fun s t => s.tileEdge d t) s
  let w := s.die d
  let c := w.cycle + 1
  s.setDie d { w with
    cycle := c, phB := [],
    ports := w.ports.map (fun e => (e.1, { e.2 with since := e.2.since + 1 })),
    spineIn := w.spineIn.filter (fun b => decide (c ≤ b.cycle + 9)),
    spineOut := w.spineOut.filter (fun b => decide (c ≤ b.cycle)) }

/-! ## What the edge brings (commands that time alone causes) -/

/-- A list of one command, or none. -/
def given (b : Bool) (i : Instr) : List Instr := if b then [i] else []

/-- The ends of pours and urgent schedules and the preemptions taken at the edge (R153, R165). -/
def tileDue (d : Nat) (c t : Nat) (x : TileSt) : List Instr :=
  let f := Fin.ofNat 4 d
  let g := Fin.ofNat 2048 t
  given (x.running && x.pos.isNone && decide (x.endAt ≤ c)) (.pourEnd f g)
    ++ given (x.urgent == .run && x.upos.isNone) (.urgentReturn f g)
    ++ given (x.evt && x.mayTake && x.urgent == .off) (.preemptionTaken f g)

def State.arrayDue (s : State) (d : Nat) : List Instr :=
  if s.tb.edged.contains d then (s.die d).tiles.flatMap (fun e => tileDue d (s.die d).cycle e.1 e.2) else []

/-- Timeouts of the NoC masters (R363); the cores of the cluster carry their number in tag bits [9:8]. -/
def State.tagsDue (s : State) : List Instr :=
  s.noc.tags.flatMap (fun e =>
    let m := Fin.ofNat 64 (e.1 / 1024)
    let t := Fin.ofNat 1024 e.1
    given (s.tagExpired m.val e.2) (if e.2.out then .tagRelease m t else .masterTimeout m (Fin.ofNat 4 (t.val / 256)) t))

/-- Start-up of a load (R306, R307, R348) and the host's deadline (R301). -/
def State.loadDue (s : State) : List Instr :=
  let t := s.now 8
  given (s.load.stage == .trained && t % 1000 == 0 && decide (s.load.step0 ≤ t)) .startUpSequence
    ++ given (s.eventDue 0) .startupGsr ++ given (s.eventDue 1) .startupIoen
    ++ given (s.eventDue 2) .startupGwe ++ given (s.eventDue 3) .startupDone
    ++ (List.range 3).flatMap (fun e =>
        given (match s.load.legacySteps[e]? with
          | some c => !s.load.legacy.getLsbD e && decide (c ≤ t)
          | none => false) (.legacyStartupEvent (Fin.ofNat 3 e)))
    ++ given (s.load.deadline != 0 && decide (s.load.deadline ≤ t + 1) && s.hostLoading && s.load.stage != .startup)
        .hostDeadlineExpiry

/-- The sequencer of the temper levels acts at its moments (R474). -/
def State.powerDue (s : State) : List Instr :=
  match s.pwr.plan with
  | [] => []
  | p :: _ =>
    given (p.raising && s.pwr.stage == 0 && s.clocked && decide (s.anchor true ≤ s.tb.count + 20000)) .sequencerRaiseStart
      ++ given (s.clocked && s.nextMoment s.tb.count == s.tb.count) .sequencerFrequencySwitch
      ++ given (s.clocked && s.pwr.stage == 2 && decide (s.pwr.planAt + 20000 ≤ s.tb.count)) .sequencerStepComplete

/-- Sync messages every 4,096 ns to the dies that packets reach, and the dies that have had none for 64 µs (R66, R68).  A
message the device sends by itself reports no wander (log entry 23). -/
def State.syncDue (s : State) : List Instr :=
  dieCopies.flatMap (fun c =>
    given (s.tb.count % 4096 == 0 && s.reachable (siteOfCopy c)) (.timebaseSyncMessage (Fin.ofNat 7 c) 0)
      ++ given (!(s.get F.tbStat_free []).testBit c && decide (SMap.get 0 s.tb.sync c + 64000 ≤ s.tb.count + 1))
          (.timebaseFreeRun (Fin.ofNat 7 c)))

/-- Pages that close and ranks and PCs that power down by themselves (R390, R391). -/
def State.dramDue (s : State) : List Instr :=
  (s.dram.openRows.filter s.pageDue).map (fun o => .pageTimeout (BitVec.ofNat 32 (o.bank / 2 ^ 32)))
    ++ s.dram.lastCmd.flatMap (fun e =>
        let hbm := e.1.testBit 31
        let unit := bitsOf e.1 30 29
        given (s.powerDownDue hbm unit e.1) (.powerDownEntry hbm (Fin.ofNat 4 unit) (BitVec.ofNat 32 e.1)))
    ++ (s.dram.wback.filter (fun e => s.wbackFree e.1)).map (fun e => .correctionWriteback (BitVec.ofNat 42 e.1))
    ++ (List.range 4).flatMap (fun k => given (s.patrolDue false k) (.patrolScrub false (Fin.ofNat 4 k)))
    ++ (List.range 2).flatMap (fun k => given (s.patrolDue true k) (.patrolScrub true (Fin.ofNat 4 k)))

/-- Evictions of convert-first lines, steps of the walks of regions and the ends of rotations (R419, R420; log entry 121). -/
def State.rekeyDue (s : State) : List Instr :=
  (List.range 6).flatMap (fun e =>
      given (s.runs 9 && (s.eng e).lines.any (·.convert)) (.sectorEviction (Fin.ofNat 6 e)))
    ++ (List.range 64).flatMap (fun r => List.replicate (s.walkSteps r) (.rekeyWalkStep (Fin.ofNat 64 r))
      ++ given (s.rgnState r == 3 && decide (s.rgnSectors r ≤ s.bound r) && !s.converting r) (.rotationComplete (Fin.ofNat 64 r)))

/-- Requests that a target still holds when their timeout expires (R364). -/
def State.heldDue (s : State) : List Instr :=
  let at_ (r : Req) : Bool := match s.tag r.src.master r.tag with
    | some x => !x.out && x.stamp == r.stamp.toNat && s.tagExpired r.src.master x
    | none => false
  let held := s.heldPubs.map (·.req) ++ (List.range 4).flatMap (fun d => (s.die d).waits.map (·.req)) ++
    (List.range 6).flatMap (fun e => (s.eng e).heal.flatMap (·.held)) ++ (s.dram.held.filter (!·.answered)).map (·.req)
  (held.filter at_).map .targetTimeout

/-- The histogram units whose level source is sampled at the present count (R374). Die power is in no register (log entry 122). -/
def State.samplesDue (s : State) : List Instr :=
  (List.range 16).flatMap (fun h =>
    let k := s.get F.nocHistCfg_kind [h]
    let i := s.get F.nocHistCfg_index [h]
    given (s.flag F.nocHistCfg_en [h] && (k == 3 || k == 4 || k == 6) && s.tb.count % 2 ^ (s.get F.nocHistCfg_sample [h] + 6) == 0)
      (.histogramLevelSample (Fin.ofNat 16 h) (if k = 6 then s.get F.pwrSens_temp [i] else 0)))

/-- The scan takes a frame of 2,048 bytes every 256 ns (8 GB/s, R323); in a check that the block makes by itself nothing has
upset the frame (log entry 118). -/
def State.scanDue (s : State) : List Instr :=
  (List.range 4).flatMap (fun d =>
    given (s.tb.count % 256 == 0 && s.flag F.ftlStat_scanning [d] && s.runs (20 + d))
      (.fettlerFrameCheck (Fin.ofNat 4 d) none false none))

/-- The lanes whose fb_req rises request the fall-back (R446, R451). -/
def State.fbEdge (s : State) : State :=
  let high := s.fbHigh
  { s with lanes := { s.lanes with fbReq := high },
           pending := s.pending ++ (high.filter (fun l => !s.lanes.fbReq.contains l)).map (fun l => .fallBackRequest (Fin.ofNat 40 l)) }

/-- Every command the edge brings, in the order they act. -/
def State.dueCommands (s : State) : List Instr :=
  (List.range 4).flatMap s.arrayDue
    ++ (List.range 4).flatMap (fun n => given (s.tickActs n) (.tick (Fin.ofNat 4 n)))
    ++ s.syncDue
    ++ (s.heldPubs.filter (fun h => !(s.slot h.slot).valid)).map (fun h => .heldPublishRelease (Fin.ofNat 4096 h.slot))
    ++ s.powerDue ++ s.loadDue
    ++ (List.range 4).flatMap (fun k => given (s.wdtDue k) (.watchdogExpiry (Fin.ofNat 4 k)))
    ++ given (s.get F.updStat_state [] == 4 && s.upd.trialLeft == 0) .trialTimerExpiry
    ++ (List.range 32).flatMap (fun c => given (s.mbxExpired c) (.mailboxTimeout (Fin.ofNat 32 c)))
    ++ s.heldDue ++ s.tagsDue ++ s.dramDue ++ s.rekeyDue ++ s.scanDue ++ s.samplesDue ++ given (!s.log.queue.isEmpty) .logEntryAccept

/-! ## The edge of the hub -/

/-- The frequency in kHz of a CLKMON source while it runs, 0 while it is stopped or none (R63).  The toggle signals count as
they rise; the frequencies of the memory controllers' clocks are not in the manual. -/
def State.monKhz (s : State) (src : Nat) : Nat :=
  let gate (d f : Nat) : Nat := if s.runs d then f else 0
  if src = 1 then 100000
  else if src = 2 then 1000000
  else if src = 3 then gate 1 400000
  else if src = 4 then gate 4 (1000 * tlNocMhz (s.get F.pwrTl_cur [9]))
  else if src = 5 then gate 5 (1000 * tlNocMhz (s.get F.pwrTl_cur [8]))
  else if src < 6 then 0
  else if src < 0xA then gate 6 (Config.controllerKhz false (src - 6))
  else if src < 0xC then gate (src - 3) (Config.controllerKhz true (src - 0xA))
  else if src < 0x10 then 0
  else if src < 0x14 then gate src (1000 * tlWaMhz (s.get F.pwrTl_cur [src - 0xC]))
  else if src < 0x20 then 0
  else if src < 0x48 then gate (if src < 0x34 then 10 else 11) (s.laneKhz (src - 0x20))
  else if src < 0x80 ∨ 0xFF < src then 0
  else gate (12 + (src - 0x80) / 32) (s.gclkKhz (src - 0x80))

/-- CLKMON after a further ns: low while its source is stopped or none, else moved on by the source cycles that have passed
(R63, R64). -/
def State.monitor (s : State) : State :=
  let src := s.get F.clkMon_src []
  let f := s.monKhz src
  if f = 0 then
    if decide (0x18 ≤ src ∧ src < 0x1C) && s.flag F.tbTickCtrl_en [src - 0x18] then s
    else { s with clk := { s.clk with mon := { s.clk.mon with high := false } } }
  else
    let t := s.clk.mon.part + f
    Nat.repeat State.monCycle (t / 1000000) { s with clk := { s.clk with mon := { s.clk.mon with part := t % 1000000 } } }

/-- Timers that count time: watchdogs and the trial (R510, R529); a halted core's watchdog and the trial of
a halted MC stand still. -/
def State.timers (s : State) : State :=
  let s := (List.range 4).foldl (fun s k =>
    let c := s.coreOf k
    if s.flag F.ccWdt_en [k] && !s.flag F.ccCoreCtrl_halted [k] && 0 < c.wdtLeft then
      s.setCore k { c with wdtLeft := c.wdtLeft - 1 } else s) s
  if s.get F.updStat_state [] = 4 ∧ s.pwr.mcHalted = false then
    { s with upd := { s.upd with trialLeft := s.upd.trialLeft - 1 } } else s

/-- The two sides of every stream queue see each other's beats of the cycle before (R173). -/
def State.queueViews (s : State) : State :=
  { s with queues := s.queues.foldl (fun m e =>
      SMap.set default m e.1 { e.2 with unseenR := 0, unseenW := 0 }) s.queues }

/-- The timebase counts 1 ns and its copies with it (R65, R67); a count just reached by a start is judged first. -/
def State.count1 (s : State) : State :=
  if s.tb.fresh then { s with tb := { s.tb with fresh := false } }
  else ({ s with tb := { s.tb with count := (s.tb.count + 1) % 2 ^ 64 } } : State).copiesCount

/-- Ticks on the present count that a write of en has brought after the count was reached; word arrays take them at their next
edge (R71, R74). -/
def State.lateTicks (s : State) : State :=
  if s.tb.fresh then s
  else (List.range 4).foldl (fun s n => s.fireTick n) s

/-- The word-array clocks move on by 1 ns at the frequency of their temper level: the dies that have an edge (R72, R471). -/
def State.arrayClocks (s : State) : State :=
  (List.range 4).foldl (fun s d =>
    if s.runs (16 + d) then
      let p := SMap.get 0 s.tb.phase d + tlWaMhz (s.get F.pwrTl_cur [4 + d])
      { s with tb := { s.tb with phase := SMap.set 0 s.tb.phase d (p % 1000),
                                 edged := if p < 1000 then s.tb.edged else s.tb.edged ++ [d] } }
    else s) ({ s with tb := { s.tb with edged := [] } } : State)

/-- The first half of a cycle: the edge. -/
def State.edge (s : State) : State :=
  let s := s.lateTicks.arrayClocks
  let s := s.tb.edged.foldl State.dieEdge s
  let s := s.count1.windowTime.queueViews.timers.monitor.applyDeferred.settleNets
  let s := s.nocResume.pendingHalts.pumpTlps.poisonResume.sectorResume.commandSlots
  let s := ((s.copyRow false).copyRow true).rtResume
  let s := (bar4Resume s.load.bar4 s).fbEdge
  { s with pending := s.pending ++ s.dueCommands }

/-! ## The issue of a cycle -/

/-- The command that issues an instruction word at a cell (R116, R120, R140). -/
def instrOf (a : CellId) (w : Word32) : Instr :=
  let f := fieldsOf w
  match (w.extractLsb' 26 6).toNat with
  | 0x00 => .nop a f
  | 0x01 => .add a f
  | 0x02 => .sub a f
  | 0x03 => .and a f
  | 0x04 => .or a f
  | 0x05 => .xor a f
  | 0x06 => .min a f
  | 0x07 => .max a f
  | 0x08 => .absd a f
  | 0x09 => .shl a f
  | 0x0A => .shr a f
  | 0x0B => .asr a f
  | 0x0C => .mov a f
  | 0x0D => .sel a f
  | 0x0E => .cmp a f
  | 0x10 => .mul a f
  | 0x11 => .mac a f
  | 0x12 => .msu a f
  | 0x13 => .clracc a f
  | 0x18 => .cmac a f
  | 0x19 => .cadd a f
  | 0x1A => .cld a f
  | 0x1C => .tap a f
  | _ => .illegalInstruction a w

/-- Whether a slot of the tile enters F in the present cycle (R152, R165). -/
def TileSt.slotDue (x : TileSt) : Bool :=
  match x.urgent with
  | .off => x.pos.isSome
  | .run => x.upos.isSome
  | .swap => false

/-- Whether an event recognised in the present cycle may be taken in it (R168). -/
def TileSt.takes (x : TileSt) : Bool :=
  x.urgent == .off &&
    (match x.pos with
     | none => true
     | some p => (!p.nopre || p.left == 1) && !x.guard)

/-- The instructions that a tile's slot issues: the word of every cell that the current mould gives (R147, R152). -/
def slotCommands (d t : Nat) (x : TileSt) : List Instr :=
  (List.range 16).filterMap (fun k =>
    (x.cur.instr k).map (fun w => instrOf ⟨Fin.ofNat 4 d, Fin.ofNat 2048 t, Fin.ofNat 16 k⟩ (BitVec.ofNat 32 w)))

/-- A tile issues a slot if one is due; a doorbell of the cycle before is recognised (R164). -/
def State.tileIssue (s0 : State) (d t : Nat) : State :=
  let s := if (s0.tile d t).bellDue then s0.recognise d t else s0
  let x := s.tile d t
  let s := if x.lead.preFab || x.lead.preBell || x.evt then s.setTile d t { x with mayTake := x.takes } else s
  if !x.slotDue then s
  else
    let e := x.at_
    let s := s.put F.wtPstat_entry [d, t] ((e.map (·.entry)).getD 0)
    let y := s.tile d t
    let s := s.setTile d t { y with
      slot := true, guard := if x.urgent == .off then false else y.guard,
      lastMain := if x.urgent == .off then (s.die d).cycle else y.lastMain }
    { s with pending := s.pending ++ slotCommands d t x }

/-- What a tile does with its mould memory in a free cycle: a corrected codeword is written back before the scrub goes on (R146,
R149; log entry 98). -/
def freeCycle (f : Fin 4) (t : Nat) (x : TileSt) : List Instr :=
  if !x.wb.isEmpty then [.mouldWriteback f (Fin.ofNat 2048 t)]
  else if x.used then [.mouldScrubRead f (Fin.ofNat 2048 t)]
  else []

/-- A die issues: beats of its ports, the slots of its tiles, then the accesses that use the phases left free (R103, R107, R114,
R146, R149). A held array pours nothing and its ports deliver nothing (R80). -/
def State.dieIssue (s : State) (d : Nat) : State :=
  let w := s.die d
  let f := Fin.ofNat 4 d
  let beats : List Instr :=
    (w.ports.filter (fun e => e.2.active)).map (fun e => .ingressBeat f (Fin.ofNat 64 e.1))
      ++ ((List.range 64).filter (fun p => w.spineOut.any (fun b => b.port == p && b.cycle == w.cycle))).map
          (fun p => .egressBeat f (Fin.ofNat 64 p))
  let s := { s with pending := s.pending ++ beats }
  let s := if s.held d then s else (w.tiles.map (·.1)).foldl (fun s t => s.tileIssue d t) s
  let rest : List Instr :=
    w.waits.map (fun x => .cellStoreAccessDone ⟨f, Fin.ofNat 2048 x.tile, Fin.ofNat 16 x.cell⟩)
      ++ w.tiles.flatMap (fun e => freeCycle f e.1 e.2)
  { s with pending := s.pending ++ rest }

/-- The second half of a cycle: the issue. A bucket leaks after the events of its interval's last cycle (R425). -/
def State.issue (s : State) : State :=
  let s := (s.tb.edged.filter (fun d => s.runs (16 + d))).foldl State.dieIssue s
  { s with pending := s.pending ++ given (s.now 8 % 1000 == 0) .bucketLeak }

/-- What the block does while no command waits: while the timebase stands, only register writes whose clock runs again take
effect (R19); else the next half of a cycle. -/
def idle (s : State) : State :=
  if !s.tb.running then s.applyDeferred
  else
    let t : State := { s with tb := { s.tb with half := !s.tb.half } }
    if s.tb.half then t.issue else t.edge

end Sys2Proof.Machine
end

