-- ==== Sys2Proof/Machine/Dispatch.lean ====
section
/-!
DEFINITION. Sys2Proof/Machine/Dispatch.lean: which meaning each command has, one arm per constructor of Instr.
-/

namespace Sys2Proof.Machine

/-- The effect of a command on everything but the queue of waiting commands. -/
def exec (i : Instr) (s : State) : Host.Outcome State Fault Refusal :=
  match i with
  | .powerOn p => Sys2Proof.Machine.execPowerOn p s
  | .powerOff => Sys2Proof.Machine.execPowerOff s
  | .referenceQualified refB start => Sys2Proof.Machine.execReferenceQualified refB start s
  | .pllsLocked => Sys2Proof.Machine.execPllsLocked s
  | .timebaseStart => Sys2Proof.Machine.execTimebaseStart s
  | .hotResumeComplete => Sys2Proof.Machine.execHotResumeComplete s
  | .referenceLost refB => Sys2Proof.Machine.execReferenceLost refB s
  | .retentionMonitorExpiry => Sys2Proof.Machine.execRetentionMonitorExpiry s
  | .referenceDriftFailed refB => Sys2Proof.Machine.execReferenceDriftFailed refB s
  | .referenceSwitchCommand src w => Sys2Proof.Machine.execReferenceSwitchCommand src w s
  | .clockGateWrite src d w => Sys2Proof.Machine.execClockGateWrite src d w s
  | .clkmonSelect src w => Sys2Proof.Machine.execClkmonSelect src w s
  | .timebaseSyncMessage die wander => Sys2Proof.Machine.execTimebaseSyncMessage die wander s
  | .timebaseFreeRun die => Sys2Proof.Machine.execTimebaseFreeRun die s
  | .tbTimeLoRead src => Sys2Proof.Machine.execTbTimeLoRead src s
  | .tick n => Sys2Proof.Machine.execTick n s
  | .tickEnable src n w => Sys2Proof.Machine.execTickEnable src n w s
  | .tickPeriodWrite src n w => Sys2Proof.Machine.execTickPeriodWrite src n w s
  | .watchdogExpiry k => Sys2Proof.Machine.execWatchdogExpiry k s
  | .nop a f => Sys2Proof.Machine.execNop a f s
  | .add a f => Sys2Proof.Machine.execAdd a f s
  | .sub a f => Sys2Proof.Machine.execSub a f s
  | .and a f => Sys2Proof.Machine.execAnd a f s
  | .or a f => Sys2Proof.Machine.execOr a f s
  | .xor a f => Sys2Proof.Machine.execXor a f s
  | .min a f => Sys2Proof.Machine.execMin a f s
  | .max a f => Sys2Proof.Machine.execMax a f s
  | .absd a f => Sys2Proof.Machine.execAbsd a f s
  | .shl a f => Sys2Proof.Machine.execShl a f s
  | .shr a f => Sys2Proof.Machine.execShr a f s
  | .asr a f => Sys2Proof.Machine.execAsr a f s
  | .mov a f => Sys2Proof.Machine.execMov a f s
  | .sel a f => Sys2Proof.Machine.execSel a f s
  | .cmp a f => Sys2Proof.Machine.execCmp a f s
  | .mul a f => Sys2Proof.Machine.execMul a f s
  | .mac a f => Sys2Proof.Machine.execMac a f s
  | .msu a f => Sys2Proof.Machine.execMsu a f s
  | .clracc a f => Sys2Proof.Machine.execClracc a f s
  | .cmac a f => Sys2Proof.Machine.execCmac a f s
  | .cadd a f => Sys2Proof.Machine.execCadd a f s
  | .cld a f => Sys2Proof.Machine.execCld a f s
  | .tap a f => Sys2Proof.Machine.execTap a f s
  | .illegalInstruction a w => Sys2Proof.Machine.execIllegalInstruction a w s
  | .pourEnd d t => Sys2Proof.Machine.execPourEnd d t s
  | .mouldScrubRead d t => Sys2Proof.Machine.execMouldScrubRead d t s
  | .mouldWriteback d t => Sys2Proof.Machine.execMouldWriteback d t s
  | .halt src d t => Sys2Proof.Machine.execHalt src d t s
  | .haltRelease src d t => Sys2Proof.Machine.execHaltRelease src d t s
  | .doorbell src d t => Sys2Proof.Machine.execDoorbell src d t s
  | .preemptionEvent d t => Sys2Proof.Machine.execPreemptionEvent d t s
  | .preemptionTaken d t => Sys2Proof.Machine.execPreemptionTaken d t s
  | .urgentReturn d t => Sys2Proof.Machine.execUrgentReturn d t s
  | .mouldWrite r => Sys2Proof.Machine.execMouldWrite r s
  | .scheduleWrite r => Sys2Proof.Machine.execScheduleWrite r s
  | .stagingWrite r => Sys2Proof.Machine.execStagingWrite r s
  | .fenceArm src d t => Sys2Proof.Machine.execFenceArm src d t s
  | .fenceCancel src d t => Sys2Proof.Machine.execFenceCancel src d t s
  | .cellStoreAccess r => Sys2Proof.Machine.execCellStoreAccess r s
  | .cellStoreAccessDone a => Sys2Proof.Machine.execCellStoreAccessDone a s
  | .cellStateWrite src a off w => Sys2Proof.Machine.execCellStateWrite src a off w s
  | .ingressBeat d p => Sys2Proof.Machine.execIngressBeat d p s
  | .egressBeat d p => Sys2Proof.Machine.execEgressBeat d p s
  | .portConfigWrite src d p win w => Sys2Proof.Machine.execPortConfigWrite src d p win w s
  | .portCountRead src d p => Sys2Proof.Machine.execPortCountRead src d p s
  | .wtPcntRead src d t => Sys2Proof.Machine.execWtPcntRead src d t s
  | .queueWrite d q b bad => Sys2Proof.Machine.execQueueWrite d q b bad s
  | .queueRead d q => Sys2Proof.Machine.execQueueRead d q s
  | .queueFlush src d q => Sys2Proof.Machine.execQueueFlush src d q s
  | .queueFlushRelease d q => Sys2Proof.Machine.execQueueFlushRelease d q s
  | .queueConfigWrite src d q w => Sys2Proof.Machine.execQueueConfigWrite src d q w s
  | .queueRegisterPop src d q => Sys2Proof.Machine.execQueueRegisterPop src d q s
  | .queueRegisterPush src d q w => Sys2Proof.Machine.execQueueRegisterPush src d q w s
  | .dmaRun src d q w => Sys2Proof.Machine.execDmaRun src d q w s
  | .dmaTransfer d q => Sys2Proof.Machine.execDmaTransfer d q s
  | .dmaPartialFlit d q => Sys2Proof.Machine.execDmaPartialFlit d q s
  | .dmaResponse d q lost => Sys2Proof.Machine.execDmaResponse d q lost s
  | .riserSpillWrite d i' => Sys2Proof.Machine.execRiserSpillWrite d i' s
  | .riserRefillRead d i' => Sys2Proof.Machine.execRiserRefillRead d i' s
  | .riserResponse d i' lost => Sys2Proof.Machine.execRiserResponse d i' lost s
  | .publish r => Sys2Proof.Machine.execPublish r s
  | .acknowledge r => Sys2Proof.Machine.execAcknowledge r s
  | .heldPublishRelease slot => Sys2Proof.Machine.execHeldPublishRelease slot s
  | .resultPolicyWrite src slot w => Sys2Proof.Machine.execResultPolicyWrite src slot w s
  | .globalClockSwitch d g src en oldRuns newRuns => Sys2Proof.Machine.execGlobalClockSwitch d g src en oldRuns newRuns s
  | .bramWrite d blk port rel => Sys2Proof.Machine.execBramWrite d blk port rel s
  | .bramRead d blk port rel => Sys2Proof.Machine.execBramRead d blk port rel s
  | .bramScrubStep d blk bUsed aWrote => Sys2Proof.Machine.execBramScrubStep d blk bUsed aWrote s
  | .bramRawWrite src => Sys2Proof.Machine.execBramRawWrite src s
  | .bramRawRead src => Sys2Proof.Machine.execBramRawRead src s
  | .bramCheckedRead src => Sys2Proof.Machine.execBramCheckedRead src s
  | .mac24Operation d blk rel => Sys2Proof.Machine.execMac24Operation d blk rel s
  | .crossingReceive g dir err rel => Sys2Proof.Machine.execCrossingReceive g dir err rel s
  | .probeRotation g dir => Sys2Proof.Machine.execProbeRotation g dir s
  | .spareTestDone g dir => Sys2Proof.Machine.execSpareTestDone g dir s
  | .transientParityFailure g dir => Sys2Proof.Machine.execTransientParityFailure g dir s
  | .holdRequest g dir => Sys2Proof.Machine.execHoldRequest g dir s
  | .probeSubstitute g dir => Sys2Proof.Machine.execProbeSubstitute g dir s
  | .liveShift g dir => Sys2Proof.Machine.execLiveShift g dir s
  | .crossingInject src w => Sys2Proof.Machine.execCrossingInject src w s
  | .flitReceive g dir flit uiBad => Sys2Proof.Machine.execFlitReceive g dir flit uiBad s
  | .flitReplay link seq => Sys2Proof.Machine.execFlitReplay link seq s
  | .packetShift g dir seq => Sys2Proof.Machine.execPacketShift g dir seq s
  | .routeDrainStart => Sys2Proof.Machine.execRouteDrainStart s
  | .routeSwitch => Sys2Proof.Machine.execRouteSwitch s
  | .wireCheckDone fails flash => Sys2Proof.Machine.execWireCheckDone fails flash s
  | .loadPattern src p => Sys2Proof.Machine.execLoadPattern src p s
  | .loadMaster src => Sys2Proof.Machine.execLoadMaster src s
  | .hostStart src => Sys2Proof.Machine.execHostStart src s
  | .abortLoad src => Sys2Proof.Machine.execAbortLoad src s
  | .unload src => Sys2Proof.Machine.execUnload src s
  | .loadFlaskFromMemory src => Sys2Proof.Machine.execLoadFlaskFromMemory src s
  | .bar4Write off data => Sys2Proof.Machine.execBar4Write off data s
  | .headerReceived flash => Sys2Proof.Machine.execHeaderReceived flash s
  | .chunkReceived flash => Sys2Proof.Machine.execChunkReceived flash s
  | .framesRecord => Sys2Proof.Machine.execFramesRecord s
  | .tileDataRecord => Sys2Proof.Machine.execTileDataRecord s
  | .registerSettingsRecord => Sys2Proof.Machine.execRegisterSettingsRecord s
  | .crossingTableRecord => Sys2Proof.Machine.execCrossingTableRecord s
  | .pinTableRecord => Sys2Proof.Machine.execPinTableRecord s
  | .dieEndRecord => Sys2Proof.Machine.execDieEndRecord s
  | .endOfChunkRecord => Sys2Proof.Machine.execEndOfChunkRecord s
  | .loadClearDone => Sys2Proof.Machine.execLoadClearDone s
  | .hostDeadlineExpiry => Sys2Proof.Machine.execHostDeadlineExpiry s
  | .crossingTrainingDone => Sys2Proof.Machine.execCrossingTrainingDone s
  | .startUpSequence => Sys2Proof.Machine.execStartUpSequence s
  | .startupGsr => Sys2Proof.Machine.execStartupGsr s
  | .startupIoen => Sys2Proof.Machine.execStartupIoen s
  | .startupGwe => Sys2Proof.Machine.execStartupGwe s
  | .startupDone => Sys2Proof.Machine.execStartupDone s
  | .legacyStartupEvent e => Sys2Proof.Machine.execLegacyStartupEvent e s
  | .perstNAssert => Sys2Proof.Machine.execPerstNAssert s
  | .perstNRelease => Sys2Proof.Machine.execPerstNRelease s
  | .capture src flask net => Sys2Proof.Machine.execCapture src flask net s
  | .captureTaken near => Sys2Proof.Machine.execCaptureTaken near s
  | .readCaptureFrame src flask k => Sys2Proof.Machine.execReadCaptureFrame src flask k s
  | .readConfigurationFrame src die frame => Sys2Proof.Machine.execReadConfigurationFrame src die frame s
  | .cancelCapture src flask => Sys2Proof.Machine.execCancelCapture src flask s
  | .readbackLockRead src => Sys2Proof.Machine.execReadbackLockRead src s
  | .readbackLockRelease src => Sys2Proof.Machine.execReadbackLockRelease src s
  | .fettlerFrameCheck d upset misread vote => Sys2Proof.Machine.execFettlerFrameCheck d upset misread vote s
  | .fettlerRequestPop src d flash => Sys2Proof.Machine.execFettlerRequestPop src d flash s
  | .writeFrame src die frame => Sys2Proof.Machine.execWriteFrame src die frame s
  | .writeFrameRebuildSignature src die frame => Sys2Proof.Machine.execWriteFrameRebuildSignature src die frame s
  | .frameRewriteDone back => Sys2Proof.Machine.execFrameRewriteDone back s
  | .readLegacyFrame src frame => Sys2Proof.Machine.execReadLegacyFrame src frame s
  | .legacyCaptureTrigger near => Sys2Proof.Machine.execLegacyCaptureTrigger near s
  | .legacyGlobalSetReset level => Sys2Proof.Machine.execLegacyGlobalSetReset level s
  | .legacyPinClockLost f => Sys2Proof.Machine.execLegacyPinClockLost f s
  | .legacyPllRelock f => Sys2Proof.Machine.execLegacyPllRelock f s
  | .nocRequestInject r panic => Sys2Proof.Machine.execNocRequestInject r panic s
  | .routerForward r port arrive credit => Sys2Proof.Machine.execRouterForward r port arrive credit s
  | .targetRequest r => Sys2Proof.Machine.execTargetRequest r s
  | .responseArrival r code stamp data bad => Sys2Proof.Machine.execResponseArrival r code stamp data bad s
  | .masterTimeout m core t => Sys2Proof.Machine.execMasterTimeout m core t s
  | .tagRelease m t => Sys2Proof.Machine.execTagRelease m t s
  | .targetTimeout r => Sys2Proof.Machine.execTargetTimeout r s
  | .histogramLevelSample h measured => Sys2Proof.Machine.execHistogramLevelSample h measured s
  | .histogramClear src h w => Sys2Proof.Machine.execHistogramClear src h w s
  | .traceClear src r => Sys2Proof.Machine.execTraceClear src r s
  | .nocMstatRead src m => Sys2Proof.Machine.execNocMstatRead src m s
  | .probeCountRead src r k => Sys2Proof.Machine.execProbeCountRead src r k s
  | .xgcntRead src g dir => Sys2Proof.Machine.execXgcntRead src g dir s
  | .dramRead r => Sys2Proof.Machine.execDramRead r s
  | .dramWrite r => Sys2Proof.Machine.execDramWrite r s
  | .correctionWriteback block => Sys2Proof.Machine.execCorrectionWriteback block s
  | .patrolScrub hbm unit => Sys2Proof.Machine.execPatrolScrub hbm unit s
  | .refresh bank => Sys2Proof.Machine.execRefresh bank s
  | .pageTimeout bank => Sys2Proof.Machine.execPageTimeout bank s
  | .powerDownEntry hbm unit rank => Sys2Proof.Machine.execPowerDownEntry hbm unit rank s
  | .dramTemperatureRead hbm unit temp => Sys2Proof.Machine.execDramTemperatureRead hbm unit temp s
  | .tracking hbm unit sub => Sys2Proof.Machine.execTracking hbm unit sub s
  | .periodicRetrain hbm unit rank busy fin => Sys2Proof.Machine.execPeriodicRetrain hbm unit rank busy fin s
  | .commandParityError hbm unit sub again retrained reqs => Sys2Proof.Machine.execCommandParityError hbm unit sub again retrained reqs s
  | .softRepair src hbm => Sys2Proof.Machine.execSoftRepair src hbm s
  | .hardRepair src hbm => Sys2Proof.Machine.execHardRepair src hbm s
  | .repairComplete hbm res => Sys2Proof.Machine.execRepairComplete hbm res s
  | .poisonBlock src => Sys2Proof.Machine.execPoisonBlock src s
  | .clearBlock src => Sys2Proof.Machine.execClearBlock src s
  | .regionEnable src r w => Sys2Proof.Machine.execRegionEnable src r w s
  | .regionInitDone r => Sys2Proof.Machine.execRegionInitDone r s
  | .regionDisable src r w => Sys2Proof.Machine.execRegionDisable src r w s
  | .encryptedRead r => Sys2Proof.Machine.execEncryptedRead r s
  | .encryptedWrite r => Sys2Proof.Machine.execEncryptedWrite r s
  | .sectorEviction e => Sys2Proof.Machine.execSectorEviction e s
  | .loadNewKey src r => Sys2Proof.Machine.execLoadNewKey src r s
  | .loadCurrentKey src r => Sys2Proof.Machine.execLoadCurrentKey src r s
  | .zeroKeyBuffer src => Sys2Proof.Machine.execZeroKeyBuffer src s
  | .clearSector src => Sys2Proof.Machine.execClearSector src s
  | .poisonSector src => Sys2Proof.Machine.execPoisonSector src s
  | .rebuildLostNode src => Sys2Proof.Machine.execRebuildLostNode src s
  | .rekey src r w => Sys2Proof.Machine.execRekey src r w s
  | .rekeyWalkStep r => Sys2Proof.Machine.execRekeyWalkStep r s
  | .rotationComplete r => Sys2Proof.Machine.execRotationComplete r s
  | .bucketLeak => Sys2Proof.Machine.execBucketLeak s
  | .rawWrite src => Sys2Proof.Machine.execRawWrite src s
  | .rawRead src => Sys2Proof.Machine.execRawRead src s
  | .checkedRead src => Sys2Proof.Machine.execCheckedRead src s
  | .parityInject src w => Sys2Proof.Machine.execParityInject src w s
  | .logEntryAccept => Sys2Proof.Machine.execLogEntryAccept s
  | .logReadCopy src p q => Sys2Proof.Machine.execLogReadCopy src p q s
  | .logPersist n erased => Sys2Proof.Machine.execLogPersist n erased s
  | .laneEnable src l w => Sys2Proof.Machine.execLaneEnable src l w s
  | .lanePinCheckDone l fault => Sys2Proof.Machine.execLanePinCheckDone l fault s
  | .rxLock l ps => Sys2Proof.Machine.execRxLock l ps s
  | .lockLossTimeout l => Sys2Proof.Machine.execLockLossTimeout l s
  | .fallBackRequest l => Sys2Proof.Machine.execFallBackRequest l s
  | .fallBackDetect l => Sys2Proof.Machine.execFallBackDetect l s
  | .fallBackEnd l inv rev fail => Sys2Proof.Machine.execFallBackEnd l inv rev fail s
  | .adaptationEpoch l => Sys2Proof.Machine.execAdaptationEpoch l s
  | .fecCodewordReceive l wrong => Sys2Proof.Machine.execFecCodewordReceive l wrong s
  | .laneWordRelease l tx late words => Sys2Proof.Machine.execLaneWordRelease l tx late words s
  | .loopbackSelect src l w => Sys2Proof.Machine.execLoopbackSelect src l w s
  | .laneSettingWrite src l rate w => Sys2Proof.Machine.execLaneSettingWrite src l rate w s
  | .fecCountRead src g => Sys2Proof.Machine.execFecCountRead src g s
  | .cecntRead src hbm unit => Sys2Proof.Machine.execCecntRead src hbm unit s
  | .tlpRead bar off len => Sys2Proof.Machine.execTlpRead bar off len s
  | .tlpWrite bar off data => Sys2Proof.Machine.execTlpWrite bar off data s
  | .translationEnable src n w => Sys2Proof.Machine.execTranslationEnable src n w s
  | .governorWindowEnd avg doms => Sys2Proof.Machine.execGovernorWindowEnd avg doms s
  | .sequencerRaiseStart => Sys2Proof.Machine.execSequencerRaiseStart s
  | .sequencerFrequencySwitch => Sys2Proof.Machine.execSequencerFrequencySwitch s
  | .sequencerStepComplete => Sys2Proof.Machine.execSequencerStepComplete s
  | .capWrite src w => Sys2Proof.Machine.execCapWrite src w s
  | .sleepRequest src => Sys2Proof.Machine.execSleepRequest src s
  | .deepSleepRequest src => Sys2Proof.Machine.execDeepSleepRequest src s
  | .runRequest src => Sys2Proof.Machine.execRunRequest src s
  | .tagDrainComplete => Sys2Proof.Machine.execTagDrainComplete s
  | .smbusReadTemperature => Sys2Proof.Machine.execSmbusReadTemperature s
  | .smbusReadPower => Sys2Proof.Machine.execSmbusReadPower s
  | .smbusReadStatus => Sys2Proof.Machine.execSmbusReadStatus s
  | .smbusWake => Sys2Proof.Machine.execSmbusWake s
  | .smbusFirmwareCommand code reply => Sys2Proof.Machine.execSmbusFirmwareCommand code reply s
  | .sensorSample n temps => Sys2Proof.Machine.execSensorSample n temps s
  | .tripRelease src w => Sys2Proof.Machine.execTripRelease src w s
  | .ageingMeasurement n ppm => Sys2Proof.Machine.execAgeingMeasurement n ppm s
  | .mcRestart watchdog => Sys2Proof.Machine.execMcRestart watchdog s
  | .lockRead src c => Sys2Proof.Machine.execLockRead src c s
  | .lockRelease src c => Sys2Proof.Machine.execLockRelease src c s
  | .go src c len => Sys2Proof.Machine.execGo src c len s
  | .take src c => Sys2Proof.Machine.execTake src c s
  | .done src c len => Sys2Proof.Machine.execDone src c len s
  | .withdraw src c => Sys2Proof.Machine.execWithdraw src c s
  | .mailboxTimeout c => Sys2Proof.Machine.execMailboxTimeout c s
  | .force src c => Sys2Proof.Machine.execForce src c s
  | .logService c busy => Sys2Proof.Machine.execLogService c busy s
  | .attestation c busy => Sys2Proof.Machine.execAttestation c busy s
  | .certificateChain c busy => Sys2Proof.Machine.execCertificateChain c busy s
  | .deviceNonce c => Sys2Proof.Machine.execDeviceNonce c s
  | .programOwnerKey c => Sys2Proof.Machine.execProgramOwnerKey c s
  | .revokeOwnerKey c => Sys2Proof.Machine.execRevokeOwnerKey c s
  | .blowHlDis c => Sys2Proof.Machine.execBlowHlDis c s
  | .revokeImageKey c => Sys2Proof.Machine.execRevokeImageKey c s
  | .revokeLegacyKey c => Sys2Proof.Machine.execRevokeLegacyKey c s
  | .keyWrite c => Sys2Proof.Machine.execKeyWrite c s
  | .checkAndStage src => Sys2Proof.Machine.execCheckAndStage src s
  | .stagingComplete ok => Sys2Proof.Machine.execStagingComplete ok s
  | .activate src => Sys2Proof.Machine.execActivate src s
  | .confirm src healthy => Sys2Proof.Machine.execConfirm src healthy s
  | .discardStagedSet src => Sys2Proof.Machine.execDiscardStagedSet src s
  | .trialTimerExpiry => Sys2Proof.Machine.execTrialTimerExpiry s
  | .coreReset src i' => Sys2Proof.Machine.execCoreReset src i' s
  | .coreBoot i' img => Sys2Proof.Machine.execCoreBoot i' img s
  | .secDrop src i' => Sys2Proof.Machine.execSecDrop src i' s
  | .watchdogKick src i' => Sys2Proof.Machine.execWatchdogKick src i' s
  | .clean src hi => Sys2Proof.Machine.execClean src hi s
  | .invalidate src hi => Sys2Proof.Machine.execInvalidate src hi s
  | .cleanAndInvalidate src hi => Sys2Proof.Machine.execCleanAndInvalidate src hi s
  | .coreIoAccess r kind pc prv => Sys2Proof.Machine.execCoreIoAccess r kind pc prv s
  | .triggerHit i' t kind addr val prv pc regs => Sys2Proof.Machine.execTriggerHit i' t kind addr val prv pc regs s
  | .tapReset => Sys2Proof.Machine.execTapReset s
  | .idcode => Sys2Proof.Machine.execIdcode s
  | .samplePreload cells load => Sys2Proof.Machine.execSamplePreload cells load s
  | .extest cells load => Sys2Proof.Machine.execExtest cells load s
  | .extestPulse cells load => Sys2Proof.Machine.execExtestPulse cells load s
  | .extestTrain cells load => Sys2Proof.Machine.execExtestTrain cells load s
  | .clamp => Sys2Proof.Machine.execClamp s
  | .highz => Sys2Proof.Machine.execHighz s
  | .dtmcs w => Sys2Proof.Machine.execDtmcs w s
  | .dmi op addr w pc prv regs exc => Sys2Proof.Machine.execDmi op addr w pc prv regs exc s
  | .bypass code => Sys2Proof.Machine.execBypass code s
  | .debugHalt h pc prv regs => Sys2Proof.Machine.execDebugHalt h pc prv regs s
  | .debugResume h pc regs => Sys2Proof.Machine.execDebugResume h pc regs s
  | .abstractRegisterAccess h write n v => Sys2Proof.Machine.execAbstractRegisterAccess h write n v s
  | .abstractMemoryAccess h write size addr v => Sys2Proof.Machine.execAbstractMemoryAccess h write size addr v s
  | .systemBusAccess write size addr v => Sys2Proof.Machine.execSystemBusAccess write size addr v s
  | .unlock src => Sys2Proof.Machine.execUnlock src s
  | .unlockCheckDone => Sys2Proof.Machine.execUnlockCheckDone s
  | .relock src => Sys2Proof.Machine.execRelock src s
  | .bankVccoChange hv bank good => Sys2Proof.Machine.execBankVccoChange hv bank good s
  | .pinFault q pad => Sys2Proof.Machine.execPinFault q pad s
  | .registerWrite src addr w => Sys2Proof.Machine.execRegisterWrite src addr w s
  | .lossOfLock l => Sys2Proof.Machine.execLossOfLock l s
  | .hostLinkStateChange up flit speed width link d3hot => Sys2Proof.Machine.execHostLinkStateChange up flit speed width link d3hot s
  | .trainingComplete hbm unit ok pcs pop => Sys2Proof.Machine.execTrainingComplete hbm unit ok pcs pop s
  | .flipFlopClockEdge d cl half rel hit => Sys2Proof.Machine.execFlipFlopClockEdge d cl half rel hit s
  | .asynchronousSetReset d cl half => Sys2Proof.Machine.execAsynchronousSetReset d cl half s

end Sys2Proof.Machine
end

