-- ==== Sys2Proof/WellFormed.lean ====
section
/-!
DEFINITION. Sys2Proof/WellFormed.lean: which commands the outside can present. The ranges of indices and register words
are in the operands' types; what is left are the lengths of byte lists and the form of a single-flit request.
-/

namespace Sys2Proof

/-- A request as a flit can carry it (R357): 1 to 64 bytes within one aligned block of 64, write data of that length, read
requests without data, and parity failures only at bytes it has. -/
def Req.wf (r : Req) : Bool :=
  decide (1 ≤ r.len ∧ r.len ≤ 64) && decide (r.addr.toNat % 64 + r.len ≤ 64)
    && decide (r.data.length = if r.write then r.len else 0) && r.badPar.all (fun i => decide (i < r.len))

/-- What the package and the board present at power-on (R39, R33): an assembly record of at most the 8 KiB of its window, and
identities for the seven dies or none. -/
def PowerOn.wf (p : PowerOn) : Bool :=
  decide (p.otp.asm.length ≤ 8192) && decide (p.otp.dieIds.length = 0 ∨ p.otp.dieIds.length = 7)

/-- A frame is 2,048 bytes (R291). -/
def frameLenOk (b : Option (List Byte)) : Bool :=
  match b with
  | none => true
  | some l => decide (l.length = 2048)

/-- Well-formed commands. Where a command carries no list, its types admit only what can be presented. -/
def Instr.wf : Instr → Bool
  | .powerOn p => p.wf
  | .mouldWrite r => r.wf && r.write
  | .scheduleWrite r => r.wf && r.write
  | .stagingWrite r => r.wf && r.write
  | .cellStoreAccess r => r.wf
  | .publish r => r.wf && r.write
  | .acknowledge r => r.wf && r.write
  | .nocRequestInject r _ => r.wf
  | .targetRequest r => r.wf
  | .responseArrival r _ _ data bad => r.wf && decide (data.length = if r.write then 0 else r.len) && bad.all (fun i => decide (i < r.len))
  | .targetTimeout r => r.wf
  | .dramRead r => r.wf && !r.write
  | .dramWrite r => r.wf && r.write
  | .encryptedRead r => r.wf && !r.write
  | .encryptedWrite r => r.wf && r.write
  | .commandParityError _ _ _ _ _ reqs => reqs.all Req.wf
  | .coreIoAccess r _ _ _ => r.wf
  | .bar4Write _ data => decide (1 ≤ data.length)
  | .tlpRead _ _ len => decide (1 ≤ len.val)
  | .tlpWrite _ _ data => decide (1 ≤ data.length ∧ data.length ≤ 4096)
  | .frameRewriteDone back => frameLenOk back
  | .fettlerFrameCheck _ upset _ _ => frameLenOk upset
  | .sensorSample n temps => decide (temps.length = if n.val < 4 then 8 else if n.val = 8 then 4 else 2)
  | _ => true

end Sys2Proof
end

