-- ==== Sys2Proof/Safety.lean ====
section
/-!
DEFINITION. Sys2Proof/Safety.lean: what counts as a safe run.
-/

namespace Sys2Proof

/-- An outcome that goes on. -/
def goesOn (o : Host.Outcome Machine.State Machine.Fault Machine.Refusal) : Bool :=
  match o with
  | .next _ => true
  | .fault _ => false
  | .refused _ => false

/-- Keys strictly rising: every key has one home. -/
def SMap.rising {α : Type} : SMap α → Bool
  | [] => true
  | _ :: [] => true
  | (a, _) :: (b, w) :: t => decide (a < b) && SMap.rising ((b, w) :: t)

/-! ## What the statements speak of -/

namespace Machine

/-- Whether an instruction takes both operands from the store of its cell, by two pointers (R118). -/
def twoStore (f : Fields) : Bool := storeSel f.sa.toNat && storeSel f.sb.toNat && f.sa.toNat != f.sb.toNat

/-- An instruction of two operands issues at a cell, its selects are plain, its operands read as `oa` and `ob`, and no
pointer it reads fails its check (R86, R88, R98, R117, R118). -/
def CellReady (s : State) (a : CellId) (f : Fields) (oa ob : Nat) : Prop :=
  let x := ctxOf s a
  issues s x = true ∧ plainSel f.sa.toNat = true ∧ plainSel f.sb.toNat = true ∧
    s.readOperand x.d x.t x.k x.g x.bank f.sa.toNat false = ⟨some oa, [], false⟩ ∧
    s.readOperand x.d x.t x.k x.g x.bank f.sb.toNat (twoStore f) = ⟨some ob, [], false⟩ ∧
    ptrFails s x f [f.sa.toNat, f.sb.toNat] (if storeSel f.dst.toNat then some f.dst.toNat else none) = []

/-- The state after an instruction that leaves `raw` (n bits), whether it clamped, and a new predicate flag where it gives one:
flags in the next cycle, the destination in the one after, the pointers at once (R88, R118, R127, R130, R137). A destination in
the store is lost where both operands came from it. -/
def cellAfter (s : State) (a : CellId) (f : Fields) (two hasDst flags : Bool) (raw : Nat) (sat : Bool) (c : Option Bool) : State :=
  let x := ctxOf s a
  let old := (s.die x.d).flagsX (flagKey (cellKey x.t x.k) x.bank)
  let s2 := if two then s.usePhaseB x.d x.t x.k x.g else s
  let drop := two && hasDst && storeSel f.dst.toNat
  let s3 := if drop then s2.raise F.wtStat_storeConflict [x.d, x.t] else s2
  let ws := if hasDst && !drop then destWrites s x f.dst.toNat raw (c.getD old.c) else []
  let fs := if flags then flagWrites s x (fun o =>
    { z := decide (raw = 0), n := raw.testBit (8 * x.g - 1), c := c.getD o.c, sat := o.sat || sat }) else []
  (s3.later x.d (fs ++ ws)).movePtrs x.d x.t x.k x.g x.bank f.p0u.toNat f.p1u.toNat

/-- The state after an accumulator instruction that leaves `raw` in ACC`dst` of the gang (R134, R137). -/
def accAfter (s : State) (a : CellId) (f : Fields) (two : Bool) (raw : Nat) (sat : Bool) : State :=
  let x := ctxOf s a
  let s2 := if two then s.usePhaseB x.d x.t x.k x.g else s
  let fs := flagWrites s x (fun o =>
    { z := decide (raw = 0), n := raw.testBit (32 * x.g - 1), c := o.c, sat := o.sat || sat })
  (s2.movePtrs x.d x.t x.k x.g x.bank f.p0u.toNat f.p1u.toNat).later x.d (accWrites x f.dst.toNat raw ++ fs)

/-- The accumulator of a gang reads as `v` (R134, R138). -/
def AccReads (s : State) (x : Ctx) (dst v : Nat) : Prop :=
  gangAcc (fun k => (s.die x.d).accX (accKey (cellKey x.t k) x.bank dst)) x.k x.g = (some v, [])

/-- A request of a class the L2 does not watch reaches a working, trained unit of its memory, at which no other request waits and
whose controller serves it itself (R358, R365, R379, R388, R393, R410). -/
def PlainAt (s : State) (r : Req) (u : MemUnit) : Prop :=
  let a := r.addr.toNat
  r.cls ≠ 3 ∧ inBlock a r.len = true ∧ (r.write = true → r.data.length = r.len) ∧ s.dramHas a = true ∧ s.metaRegion a = none ∧
    (∀ g, s.region a = some g → s.encrypted g = false) ∧ s.memRuns a = true ∧ s.dramGate a = .go u ∧ s.behind r = false

/-- The form that every step keeps: the register store rising by address, the DRAM in canonical form (rising, no byte listed
that reads as an unlisted one), at most 8 log entries of one unit awaiting the ring (R434), at most 64 held publishes (R202). -/
def Canonical (s : State) : Prop :=
  SMap.rising s.regs = true ∧ SMap.wf 0#8 s.dram.bytes = true ∧
    (∀ k : Nat, (s.log.queue.filter (fun (e : LogEntry) => e.source == k)).length ≤ 8) ∧ s.heldPubs.length ≤ 64

/-- What the issue of an instruction word at cell a leaves as it was: everything outside the word array but the log, the
interrupts, the messages sent and five registers (the tile's status and instruction status, the die's parity bucket, the log's
drop count, the MSI-X pending bits), the array of every other die, and in its own die the stores, the accumulators, the flags and
every other tile. -/
def CellFrame (a : CellId) (s t : State) : Prop :=
  let d := a.die.val
  let touched := [regAddr .wtStat [d, a.tile.val], regAddr .wtIstat [d, a.tile.val], regAddr .eccBktStat [16 * d], regAddr .logStat [],
    regAddr .msixPba [0]]
  (∀ k, k ∉ touched → SMap.find? t.regs k = SMap.find? s.regs k) ∧ (∀ e, e ≠ d → t.die e = s.die e) ∧
    (t.die d).store = (s.die d).store ∧ (t.die d).acc = (s.die d).acc ∧ (t.die d).flags = (s.die d).flags ∧
    (t.die d).tiles = (s.die d).tiles ∧
    t.dram = s.dram ∧ t.queues = s.queues ∧ t.dma = s.dma ∧ t.risers = s.risers ∧ t.slots = s.slots ∧ t.heldPubs = s.heldPubs ∧
    t.noc = s.noc ∧ t.xg = s.xg ∧ t.links = s.links ∧ t.lanes = s.lanes ∧ t.encR = s.encR ∧ t.encE = s.encE ∧ t.fab = s.fab ∧
    t.load = s.load ∧ t.otp = s.otp ∧ t.pwr = s.pwr ∧ t.mbx = s.mbx ∧ t.upd = s.upd ∧ t.cores = s.cores ∧ t.l2 = s.l2 ∧
    t.dbg = s.dbg ∧ t.clk = s.clk ∧ t.pins = s.pins ∧ t.tb = s.tb ∧ t.riserLast = s.riserLast ∧ t.deferred = s.deferred ∧ t.plicBusy = s.plicBusy ∧
    t.pending = s.pending

end Machine

end Sys2Proof
end

