-- ==== Sys2Proof/Certificates/Slice0/Obligations.lean ====
section
/-!
DEFINITION. Sys2Proof/Certificates/Slice0/Obligations.lean: the statements for the provers.
-/

section

open Sys2Proof Sys2Proof.Machine

/-- ADD, SUB, AND, OR, XOR, MIN, MAX, ABSD and MUL (R120, R123, R124, R127, R135), for gangs of every size. -/
def Obligations.CellArithmetic : Prop :=
  ∀ (s : State) (a : CellId) (f : Fields) (oa ob : Nat), CellReady s a f oa ob → plainSel f.dst.toNat = true →
    let n := 8 * (ctxOf s a).g
    let av := valueOf n f.u oa
    let bv := valueOf n f.u ob
    let after := fun (raw : Nat) (sat : Bool) (c : Option Bool) => Host.Outcome.next (cellAfter s a f (twoStore f) true true raw sat c)
    exec (.add a f) s = after (reduce n f.u f.s (av + bv)).1 (reduce n f.u f.s (av + bv)).2
        (some (decide (2 ^ n ≤ oa % 2 ^ n + ob % 2 ^ n))) ∧
      exec (.sub a f) s = after (reduce n f.u f.s (av - bv)).1 (reduce n f.u f.s (av - bv)).2
        (some (decide (oa % 2 ^ n < ob % 2 ^ n))) ∧
      exec (.and a f) s = after (Nat.land oa ob % 2 ^ n) false none ∧
      exec (.or a f) s = after (Nat.lor oa ob % 2 ^ n) false none ∧
      exec (.xor a f) s = after (Nat.xor oa ob % 2 ^ n) false none ∧
      exec (.min a f) s = after ((if av ≤ bv then oa else ob) % 2 ^ n) false (some (decide (av ≤ bv))) ∧
      exec (.max a f) s = after ((if bv ≤ av then oa else ob) % 2 ^ n) false (some (decide (bv ≤ av))) ∧
      exec (.absd a f) s = after ((av - bv).natAbs % 2 ^ n) false (some (decide (av < bv))) ∧
      (f.sh.toNat % 4 < (ctxOf s a).g →
        exec (.mul a f) s =
          let p := av * weightedByte n f.u ob (f.sh.toNat % 4) / ((2 ^ (f.sh.toNat / 4 % 8) : Nat) : Int)
          after (reduce n f.u f.s p).1 (reduce n f.u f.s p).2 none)

/-- SHL, SHR, ASR, MOV, SEL and CMP (R119, R122, R126, R127, R128). -/
def Obligations.CellShiftMoveSelectCompare : Prop :=
  ∀ (s : State) (a : CellId) (f : Fields) (oa ob : Nat),
    let x := ctxOf s a
    let n := 8 * x.g
    let av := valueOf n f.u oa
    let bv := valueOf n f.u ob
    let k := if f.sb = 0x17#5 then f.sh.toNat else ob % 32
    let dstStore := if storeSel f.dst.toNat then some f.dst.toNat else none
    let after := fun (two hasDst flags : Bool) (raw : Nat) (sat : Bool) (c : Option Bool) =>
      Host.Outcome.next (cellAfter s a f two hasDst flags raw sat c)
    (CellReady s a f oa ob → plainSel f.dst.toNat = true →
      exec (.shl a f) s = after (twoStore f) true true (reduce n f.u f.s (av * (2 ^ k : Nat))).1 (reduce n f.u f.s (av * (2 ^ k : Nat))).2
          (some (decide (0 < k ∧ k ≤ n ∧ (oa % 2 ^ n).testBit (n - k)))) ∧
        exec (.shr a f) s = after (twoStore f) true true (oa % 2 ^ n / 2 ^ k) false
          (some (decide (0 < k ∧ (oa % 2 ^ n).testBit (k - 1)))) ∧
        exec (.asr a f) s = after (twoStore f) true true (ofSigned n (av / ((2 ^ k : Nat) : Int))) false
          (some (decide (0 < k ∧ av / ((2 ^ (k - 1) : Nat) : Int) % 2 = 1))) ∧
        exec (.sel a f) s = after (twoStore f) true false
          ((if ((s.die x.d).flagsX (flagKey (cellKey x.t x.k) x.bank)).c then oa else ob) % 2 ^ n) false none) ∧
    (CellReady s a { f with dst := 0x17#5 } oa ob →
      exec (.cmp a f) s = after (twoStore f) false true (reduce n f.u f.s (av - bv)).1 false
        (some (match f.sh.toNat % 8 with
          | 0 => decide (av = bv)
          | 1 => decide (av ≠ bv)
          | 2 => decide (av < bv)
          | 3 => decide (bv ≤ av)
          | 4 => decide (av ≤ bv)
          | 5 => decide (bv < av)
          | 6 => true
          | _ => false))) ∧
    (issues s x = true → plainSel f.sa.toNat = true → plainSel f.dst.toNat = true →
      s.readOperand x.d x.t x.k x.g x.bank f.sa.toNat false = ⟨some oa, [], false⟩ → ptrFails s x f [f.sa.toNat] dstStore = [] →
        exec (.mov a f) s = after false true true (oa % 2 ^ n) false none) ∧
    (issues s x = true → scaledSel f.sa.toNat = true → plainSel f.dst.toNat = true →
      readScaled s x f.sa.toNat = ⟨some oa, [], false⟩ → ptrFails s x f [f.sa.toNat] dstStore = [] →
        exec (.mov a f) s =
          let v := valueOf (if f.sa.toNat = 0x16 then 32 else 32 * x.g) f.u oa / ((2 ^ f.sh.toNat : Nat) : Int)
          after false true true (reduce n f.u f.s v).1 (reduce n f.u f.s v).2 none)

/-- MAC, MSU (R135), CMAC, CADD, CLD (R132), CLRACC (R121, R129), TAP (R131) and NOP (R120). -/
def Obligations.CellAccumulate : Prop :=
  ∀ (s : State) (a : CellId) (f : Fields) (oa ob acc cin : Nat),
    let x := ctxOf s a
    let n := 8 * x.g
    let av := valueOf n f.u oa
    let w := av * weightedByte n f.u ob (f.sh.toNat % 4)
    let before := valueOf (32 * x.g) f.u acc
    let c := valueOf 32 f.u cin
    let red := fun v => reduce (32 * x.g) f.u f.s v
    let after := fun (two : Bool) (v : Int) => Host.Outcome.next (accAfter s a f two (red v).1 (red v).2)
    let ck := cellKey x.t x.k
    let ptr := fun p => SMap.get ptr0 (s.die x.d).ptr (accKey ck x.bank p)
    (CellReady s a { f with dst := 0x17#5 } oa ob → f.dst.toNat ≤ 1 →
      ((AccReads s x f.dst.toNat acc → f.sh.toNat % 4 < x.g →
          exec (.mac a f) s = after (twoStore f) (before + w) ∧ exec (.msu a f) s = after (twoStore f) (before - w)) ∧
        (x.g = 1 → readCinX s x = some cin → exec (.cmac a f) s = after (twoStore f) (c + av * valueOf n f.u ob)))) ∧
    (issues s x = true → ptrFails s x f [] none = [] →
      (f.dst.toNat ≤ 1 → x.g = 1 → readCinX s x = some cin →
        (AccReads s x f.dst.toNat acc → exec (.cadd a f) s = after false (before + c)) ∧ exec (.cld a f) s = after false c) ∧
      exec (.nop a f) s = .next (s.movePtrs x.d x.t x.k x.g x.bank f.p0u.toNat f.p1u.toNat) ∧
      (f.dst.toNat ≤ 2 →
        exec (.clracc a f) s =
          let as := if f.dst.toNat = 2 then accWrites x 0 0 ++ accWrites x 1 0 else accWrites x f.dst.toNat 0
          let fs := if f.sh.getLsbD 0 then flagWrites s x (fun o => { o with sat := false }) else []
          .next ((s.later x.d (as ++ fs)).movePtrs x.d x.t x.k x.g x.bank f.p0u.toNat f.p1u.toNat))) ∧
    (issues s x = true → x.g = 1 → f.dst.toNat ≤ 1 → AccReads s x f.dst.toNat acc → ptrOk (ptr 0) = true →
      (s.die x.d).readStore ck x.bank 1 false = .val oa →
      rdByte (SMap.get byte0 (s.die x.d).dreg (dregKey ck x.bank ((ptr 0).toNat % 16))) = .val ob →
        exec (.tap a f) s =
          let v := reduce 32 f.u f.s (valueOf 32 f.u acc + valueOf 8 f.u oa * valueOf 8 f.u ob)
          let fs := flagWrites s x (fun o => { z := decide (v.1 = 0), n := v.1.testBit 31, c := o.c, sat := o.sat || v.2 })
          .next ((s.later x.d (accWrites x f.dst.toNat v.1 ++ fs
            ++ [⟨x.cycle + 2, x.d, .store (storeKey ck ((ptr 1).toNat % 512 + 1)) (mkByte oa)⟩])).movePtrs
              x.d x.t x.k 1 x.bank f.p0u.toNat 2))

/-- Nulls (R86, R98) and illegal words (R140). -/
def Obligations.CellNulls : Prop :=
  ∀ (s : State) (a : CellId) (f : Fields) (w : Word32) (ob : Nat),
    let x := ctxOf s a
    let op := (w.extractLsb' 26 6).toNat
    (issues s x = true → plainSel f.sa.toNat = true → plainSel f.sb.toNat = true → plainSel f.dst.toNat = true →
      twoStore f = false →
      s.readOperand x.d x.t x.k x.g x.bank f.sa.toNat false = ⟨none, [], false⟩ →
      s.readOperand x.d x.t x.k x.g x.bank f.sb.toNat false = ⟨some ob, [], false⟩ →
      ptrFails s x f [f.sa.toNat, f.sb.toNat] (if storeSel f.dst.toNat then some f.dst.toNat else none) = [] →
        exec (.add a f) s = .next s ∧ exec (.sub a f) s = .next s ∧ exec (.xor a f) s = .next s) ∧
    (issues s x = true → opKnown op = false →
      exec (.illegalInstruction a w) s =
        .next ((s.raise F.wtIstat_illOp [x.d, x.t]).put F.wtIstat_illCell [x.d, x.t]
          ((List.range x.g).foldl (fun v j => Nat.lor v (2 ^ (x.k + j)))
            ((s.raise F.wtIstat_illOp [x.d, x.t]).get F.wtIstat_illCell [x.d, x.t])))) ∧
    (opKnown op = true → wordBadSel op (fieldsOf w) = false → wordBadForm op (fieldsOf w) x.g = false →
      exec (.illegalInstruction a w) s = .next s) ∧
    (issues s x = false → exec (.add a f) s = .next s ∧ exec (.tap a f) s = .next s ∧
      exec (.illegalInstruction a w) s = .next s)

/-- Register commands of a tile (R80, R113, R115, R156, R159, R161, R163, R164). -/
def Obligations.TileCommands : Prop :=
  ∀ (s : State) (src : Src) (d : Fin 4) (t : Fin 2048) (a : CellId) (off : Fin 64) (w : Word32),
    (s.runs (16 + d.val) = false →
      exec (.halt src d t) s = .next (s.answer src .terr) ∧
      exec (.haltRelease src d t) s = .next (s.answer src .terr) ∧
      exec (.fenceArm src d t) s = .next (s.answer src .terr) ∧
      exec (.fenceCancel src d t) s = .next (s.answer src .terr) ∧
      exec (.doorbell src d t) s = .next (s.answer src .terr) ∧
      exec (.wtPcntRead src d t) s = .next (s.answer src .terr)) ∧
    (s.runs (16 + d.val) = true →
      exec (.halt src d t) s = .next ((s.raise F.wtCtrl_halt [d, t]).answer src .ok) ∧
      exec (.fenceArm src d t) s = .next ((s.raise F.wtFenceCtrl_arm [d, t]).answer src .ok) ∧
      exec (.fenceCancel src d t) s = .next ((s.put F.wtFenceCtrl_arm [d, t] 0).answer src .ok) ∧
      (s.haltOf d t = false → exec (.haltRelease src d t) s = .next (s.answer src .ok)) ∧
      (∀ e h, s.haltOf d t = true → (s.die d).readCw t (cwSched 0) = .clean e →
        (s.die d).readCw t (cwMould (entryMould e) 16) = .clean h →
          exec (.haltRelease src d t) s =
            let s1 := (s.put F.wtCtrl_halt [d, t] 0).setBusy d t
            .next ((s1.setTile d t { s1.tile d t with lead := ⟨bitsOf h 63 62, h.testBit 61, h.testBit 60, h.testBit 59, bitsOf h 58 54⟩ }).answer
              src .ok)) ∧
      exec (.doorbell src d t) s =
        (if (s.tile d t).lead.preBell && !s.held d then
          .next ((s.setTile d t { s.tile d t with bell := true }).answer src .ok)
        else .next (s.answer src .ok)) ∧
      exec (.wtPcntRead src d t) s =
        (let s1 := if src.peeks then s else s.setReg .wtPcnt [d, t] 0#32
        .next (s1.answerWord src (s.readReg .wtPcnt [d, t])))) ∧
    (s.runs (16 + a.die.val) = true →
      exec (.cellStateWrite src a off w) s =
        if (s.tile a.die a.tile).running || (s.tile a.die a.tile).urgent != .off then .next (s.answer src .aerr)
        else .next ((s.setDie a.die (putCellState (s.die a.die) (cellKey a.tile a.cell) (4 * off.val) w)).answer src .ok))

/-- POUR_END, MOULD_SCRUB_READ, MOULD_WRITEBACK, PREEMPTION_EVENT, PREEMPTION_TAKEN, URGENT_RETURN. -/
def Obligations.PourScrubAndPreemption : Prop :=
  ∀ (s : State) (d : Fin 4) (t : Fin 2048),
    let x := s.tile d t
    let w := s.die d
    (x.running = true → x.pos = none → x.endAt ≤ w.cycle →
      exec (.pourEnd d t) s = .next (s.setTile d t { x with running := false })) ∧
    (∀ v, x.memFree = true → s.runs (16 + d.val) = true → w.readCw t x.scrub = .clean v →
      exec (.mouldScrubRead d t) s = .next (s.setTile d t { x with scrub := (x.scrub + 1) % 336, scrubbed := true })) ∧
    (∀ cw v rest, x.wb = (cw, v) :: rest → x.memFree = true →
      exec (.mouldWriteback d t) s =
        .next (s.setDie d ((w.putCw t cw v).setTile t { (w.putCw t cw v).tile t with wb := rest, scrubbed := true }))) ∧
    (s.flag F.ftlFlask_iso [16 * d.val + flaskOfTile t] = true → exec (.preemptionEvent d t) s = .next s) ∧
    (x.lead.preFab = true → s.held d = false → s.runs (16 + d.val) = true →
      s.flag F.ftlFlask_iso [16 * d.val + flaskOfTile t] = false →
      exec (.preemptionEvent d t) s =
        if (s.haltOf d t && x.idle) || x.evt then .next (s.raise F.wtPstat_preLost [d, t])
        else .next (s.setTile d t { x with evt := true })) ∧
    (x.evt = true → x.mayTake = true → x.slot = false → x.urgent = .off →
      exec (.preemptionTaken d t) s =
        let y := { x with evt := false, mayTake := false, urgent := .swap, bank := true, busy := true }
        let s1 := (s.setTile d t y).countUp F.wtPcnt_preempts [d, t]
        match s1.seek d t x.lead.urg with
        | (none, s2) => .next (s2.setTile d t { s2.tile d t with upos := none })
        | (some (p, m), s2) => .next ((s2.setTile d t { s2.tile d t with upos := some p }).loadMould d t m)) ∧
    (x.urgent = .run → x.upos = none → x.ticksHeld = [] →
      let s1 := s.setTile d t { x with urgent := .off, bank := false, ticksHeld := [], guard := true }
      ((s1.tile d t).pos = none → exec (.urgentReturn d t) s = .next s1) ∧
      (∀ p e, (s1.tile d t).pos = some p → x.pos = some p → (s1.die d).readCw t (cwSched p.entry) = .clean e →
        exec (.urgentReturn d t) s = .next (s1.loadMould d t (entryMould e))))

/-- MOULD_WRITE, SCHEDULE_WRITE, STAGING_WRITE (R143, R150, R160), CELL_STORE_ACCESS and CELL_STORE_ACCESS_DONE (R114). -/
def Obligations.TileWindowAccesses : Prop :=
  ∀ (s : State) (r : Req) (d t off : Nat), tileWindow r.addr.toNat = some (d, t, off) → r.data.length = r.len →
    (0x2000 ≤ off → off < 0x3000 → sizeOk [4, 8, 16, 32, 64] off r.len 256 = true →
      (s.runs (16 + d) = false → exec (.mouldWrite r) s = .next (s.respond r .terr)) ∧
      (s.runs (16 + d) = true → s.openTile d t = false → slotNamed (s.die d) t ((off - 0x2000) / 256) = true →
        exec (.mouldWrite r) s = .next (s.respond r .aerr)) ∧
      (s.runs (16 + d) = true → s.openTile d t = true ∨ slotNamed (s.die d) t ((off - 0x2000) / 256) = false →
        (r.badPar ≠ [] → exec (.mouldWrite r) s = .next (s.respond r .perr)) ∧
        (r.badPar = [] → off % 256 < 0x88 → r.len ≠ 4 →
          exec (.mouldWrite r) s =
            .next (((List.range (r.len / 8)).foldl (fun u i =>
              if off % 256 / 8 + i < 17 then
                u.writeCw d t (cwMould ((off - 0x2000) / 256) (off % 256 / 8 + i)) (leNat (slice r.data (8 * i) 8))
              else u) s).respond r .ok)))) ∧
    (0x3000 ≤ off → off < 0x3100 → sizeOk [4, 8, 16, 32, 64] off r.len 128 = true → s.runs (16 + d) = true →
      let stored := (List.range (r.len / 4)).foldl (fun u i =>
        u.writeCw d t (272 + ((off - 0x3000) / 4 + i)) (leNat (slice r.data (4 * i) 4))) s
      (off < 0x3080 → s.openTile d t = false → exec (.scheduleWrite r) s = .next (s.respond r .aerr)) ∧
      (off < 0x3080 → s.openTile d t = true → r.badPar = [] → exec (.scheduleWrite r) s = .next (stored.respond r .ok)) ∧
      (0x3080 ≤ off → r.badPar = [] → exec (.stagingWrite r) s = .next (stored.respond r .ok))) ∧
    (off < 0x2000 → sizeOk [1, 2, 4, 8, 16, 32, 64] off r.len 512 = true →
      (s.runs (16 + d) = false → exec (.cellStoreAccess r) s = .next (s.respond r .terr)) ∧
      (s.runs (16 + d) = true →
        exec (.cellStoreAccess r) s =
          .next (s.setDie d { s.die d with waits := (s.die d).waits ++ [⟨r, t, off / 512, off % 512⟩] }))) ∧
    (∀ (a : CellId) (x : StoreWait),
      let w := s.die a.die
      let ck := cellKey a.tile a.cell
      w.waits.find? (fun y => y.tile == a.tile.val && y.cell == a.cell.val) = some x → w.phaseBFree ck = true →
        let w1 := { w with waits := w.waits.erase x, phB := ck :: w.phB }
        (x.req.write = true → x.req.badPar = [] →
          exec (.cellStoreAccessDone a) s =
            .next ((s.setDie a.die { w1 with store := (List.range x.req.len).foldl (fun m i =>
              SMap.set byte0 m (storeKey ck (x.addr + i)) (mkByte (x.req.data.getD i 0#8).toNat)) w.store }).respond x.req .ok)) ∧
        (x.req.write = true → x.req.badPar ≠ [] →
          exec (.cellStoreAccessDone a) s = .next ((s.setDie a.die w1).respond x.req .perr)) ∧
        (x.req.write = false →
          let bs := (List.range x.req.len).map (fun i => SMap.get byte0 w.store (storeKey ck (x.addr + i)))
          bs.all byteOk = true →
            exec (.cellStoreAccessDone a) s =
              .next ((s.setDie a.die w1).respond x.req .ok (bs.map (fun b => b.setWidth 8)))))

/-- Writing a codeword through the code and reading it back (R146, R150, R564). -/
def Obligations.MouldReadBack : Prop :=
  ∀ (s : State) (d t cw data : Nat), cw < 336 →
    ((s.writeCw d t cw data).die d).readCw t cw = .clean (data % 2 ^ (if cw < 272 then 64 else 32)) ∧
    ∀ d' t' cw', cw' < 336 → (d', t', cw') ≠ (d, t, cw) →
      ((s.writeCw d t cw data).die d').readCw t' cw' = (s.die d').readCw t' cw'

/-- PUBLISH (R200) and ACKNOWLEDGE (R201). -/
def Obligations.ResultSlotCommands : Prop :=
  ∀ (s : State) (r : Req) (i : Nat), r.badPar = [] →
    (slotOf r.addr.toNat = some (i, 0) → r.len = 64 → r.data.length = 64 → s.flag F.rslPol_en [i] = false →
      exec (.publish r) s = .next (s.respond r .aerr)) ∧
    (slotOf r.addr.toNat = some (i, 0) → r.len = 64 → r.data.length = 64 → s.flag F.rslPol_en [i] = true →
      s.flag F.rslPol_pol [i] = true →
        ∃ t, exec (.publish r) s = .next t ∧
          (t.slot i).payload = r.data.take 56 ∧ (t.slot i).valid = true ∧
          (t.slot i).seq = (if (s.slot i).seq = 0xFFFFFFFF#32 then 1#32 else (s.slot i).seq + 1) ∧
          (t.slot i).lost = ((s.slot i).lost || (s.slot i).valid) ∧ (∀ j, j ≠ i → t.slot j = s.slot j) ∧
          { t with slots := s.slots, outbox := s.outbox } = s ∧ t.outbox = s.outbox ++ [.flit r .ok [] []]) ∧
    (slotOf r.addr.toNat = some (i, 56) → r.len = 4 → r.data.length = 4 →
      ((s.slot i).valid = true → leNat r.data = (s.slot i).seq.toNat →
        ∃ t, exec (.acknowledge r) s = .next t ∧ t.slot i = { s.slot i with valid := false, lost := false } ∧
          (∀ j, j ≠ i → t.slot j = s.slot j) ∧ { t with slots := s.slots, outbox := s.outbox } = s ∧
          t.outbox = s.outbox ++ [.flit r .ok [] []]) ∧
      (¬ ((s.slot i).valid = true ∧ leNat r.data = (s.slot i).seq.toNat) →
        exec (.acknowledge r) s = .next ((s.raise F.rslStat_stale []).respond r .ok)))

/-- PUBLISH that waits, HELD_PUBLISH_RELEASE (R202) and RESULT_POLICY_WRITE (R205). -/
def Obligations.HeldPublishes : Prop :=
  ∀ (s : State) (r : Req) (i : Nat) (k : Fin 4096) (src : Src) (w : Word32),
    (slotOf r.addr.toNat = some (i, 0) → r.len = 64 → r.data.length = 64 → s.flag F.rslPol_en [i] = true →
      s.flag F.rslPol_pol [i] = false → (s.slot i).valid = true →
        (s.heldPubs.length < 64 → r.badPar = [] →
          exec (.publish r) s = .next { s with heldPubs := s.heldPubs ++ [⟨i, r⟩] }) ∧
        (64 ≤ s.heldPubs.length → exec (.publish r) s = .next ((s.raise F.rslStat_pendFull []).respond r .retry))) ∧
    (∀ h pre post, (s.slot k).valid = false → s.heldPubs = pre ++ h :: post → h.slot = k.val →
      (∀ p ∈ pre, p.slot ≠ k.val) →
      exec (.heldPublishRelease k) s =
        .next ((({ s with heldPubs := pre ++ post } : State).setSlot k
          { payload := h.req.data.take 56
            seq := if (s.slot k).seq = 0xFFFFFFFF#32 then 1#32 else (s.slot k).seq + 1
            valid := true
            lost := (s.slot k).lost }).respond h.req .ok)) ∧
    (s.regWaits .rslPol = true →
      exec (.resultPolicyWrite src k w) s = .next ((s.defer src (regAddr .rslPol [k]) w).answer src .ok)) ∧
    (let s1 := s.writeReg .rslPol [k] w
     s.regWaits .rslPol = false → s1.flag F.rslPol_en [k] = false →
      exec (.resultPolicyWrite src k w) s =
        .next (((s1.heldPubs.filter (fun (h : HeldPub) => h.slot == k.val)).foldl (fun (u : State) h => u.respond h.req .aerr)
          { s1 with heldPubs := s1.heldPubs.filter (fun h => h.slot != k.val) }).answer src .ok)) ∧
    (let s1 := s.writeReg .rslPol [k] w
     s.regWaits .rslPol = false → s1.flag F.rslPol_en [k] = true → s.flag F.rslPol_pol [k] = true →
      exec (.resultPolicyWrite src k w) s = .next (s1.answer src .ok))

/-- QUEUE_WRITE and QUEUE_READ of a queue that is no riser queue (R172, R173, R177, R178, R182). -/
def Obligations.QueueBeats : Prop :=
  ∀ (s : State) (d : Fin 4) (q : Fin 64) (b : Beat),
    let x := s.queue d q
    let c : Beat := { b with err := false }
    (s.sqFabric d q = true → s.egress d q = false →
      (s.sqEn d q = false → exec (.queueWrite d q b false) s = .next s) ∧
      (s.sqEn d q = true → s.sqRiser d q = false → x.flushing = false → x.beats.length + x.unseenR < s.sqDepth d q →
        b.parOk = true →
        (s.sqPkt d q = false →
          exec (.queueWrite d q b false) s =
            .next (s.setQueue d q { x with beats := x.beats ++ [c], unseenW := x.unseenW + 1 })) ∧
        (s.sqPkt d q = true → x.dropping = false →
          (b.last = true →
            exec (.queueWrite d q b false) s =
              .next (s.setQueue d q { x with beats := x.beats ++ [c], commit := x.beats.length + 1, open_ := false
                                             unseenW := x.unseenW + (x.beats.length + 1 - x.commit) })) ∧
          (b.last = false → x.beats.length + 1 < s.sqDepth d q + x.commit →
            exec (.queueWrite d q b false) s = .next (s.setQueue d q { x with beats := x.beats ++ [c], open_ := true })) ∧
          exec (.queueWrite d q b true) s =
            let y := x.keep (s.sqDepth d q) x.commit
            .next (((s.raise F.waSqStat_rewound [d, q]).setQueue d q y).setQueue d q
              { y with dropping := !b.last, open_ := !b.last })))) ∧
    (s.sqFabric d q = true → s.egress d q = true →
      (s.sqVisible d q = 0 → exec (.queueRead d q) s = .next s) ∧
      (∀ rest, s.sqEn d q = true → s.sqRiser d q = false → 0 < s.sqVisible d q → x.beats = b :: rest → b.parOk = true →
        exec (.queueRead d q) s =
          .next ((s.setQueue d q { x.pop (s.sqDepth d q) with commit := x.commit - 1, unseenR := x.unseenR + 1 }).emit
            (.beat d q b b.err))))

/-- QUEUE_FLUSH, QUEUE_FLUSH_RELEASE (R176), QUEUE_CONFIG_WRITE (R172, R192), QUEUE_REGISTER_POP (R184), QUEUE_REGISTER_PUSH
(R185). The register writes act where the register's clock runs (R19). What a queue keeps when its storage changes is the model's
choice (log entry 100). -/
def Obligations.QueueRegisterCommands : Prop :=
  ∀ (s : State) (src : Src) (d : Fin 4) (q : Fin 64) (w : Word32),
    let x := s.queue d q
    (s.regWaits .waSqCfg = false →
      exec (.queueFlush src d q) s = .next ((s.setQueue d q { x with flushing := true }).answer src .ok)) ∧
    (x.flushing = false → exec (.queueFlushRelease d q) s = .next s) ∧
    (x.flushing = true →
      (x.rslot = none →
        exec (.queueFlushRelease d q) s = .next (s.setQueue d q { (default : QueueSt) with old := (x.keep (s.sqDepth d q) 0).old })) ∧
      (∀ i, x.rslot = some i →
        exec (.queueFlushRelease d q) s =
          .next ((((s.setQueue d q { (default : QueueSt) with old := x.old, rslot := some i }).setRiser d i default).put
            F.waRsStat_spilling [d, i] 0).put F.waRsStat_degraded [d, i] 0))) ∧
    (s.regWaits .waSqCfg = false → F.waSqCfg_flush.of w = 0 → s.sqEn d q = true →
      let s1 := s.put F.waSqCfg_afull [d, q] (F.waSqCfg_afull.of w)
      let s2 := if F.waSqCfg_pkt.of w = s.get F.waSqCfg_pkt [d, q] ∧ F.waSqCfg_riser.of w = s.get F.waSqCfg_riser [d, q] ∧
        F.waSqCfg_rslot.of w = s.get F.waSqCfg_rslot [d, q] then s1 else s1.raise F.waSqStat_cfgErr [d, q]
      exec (.queueConfigWrite src d q w) s =
        .next ((if F.waSqCfg_en.of w = 0 then s2.put F.waSqCfg_en [d, q] 0 else s2).answer src .ok)) ∧
    (s.regWaits .waSqCfg = false → F.waSqCfg_flush.of w = 0 → s.sqEn d q = false → F.waSqCfg_en.of w = 1 →
      let s1 := (((s.put F.waSqCfg_afull [d, q] (F.waSqCfg_afull.of w)).put F.waSqCfg_pkt [d, q] (F.waSqCfg_pkt.of w)).put
        F.waSqCfg_riser [d, q] (F.waSqCfg_riser.of w)).put F.waSqCfg_rslot [d, q] (F.waSqCfg_rslot.of w)
      ((s1.held d = true ∨ ∃ i, s1.sqNamed d q = some i ∧ s1.riserOk d q i = false) →
        exec (.queueConfigWrite src d q w) s = .next ((s1.raise F.waSqStat_cfgErr [d, q]).answer src .ok)) ∧
      (s1.held d = false → (∀ i, s1.sqNamed d q = some i → s1.riserOk d q i = true) →
        (x.rslot = s1.sqNamed d q →
          exec (.queueConfigWrite src d q w) s =
            .next (((s1.put F.waSqCfg_en [d, q] 1).setQueue d q { x with dropping := false, open_ := false }).answer src .ok)) ∧
        (x.rslot ≠ s1.sqNamed d q →
          ∃ t : State, exec (.queueConfigWrite src d q w) s = .next (t.answer src .ok) ∧ (t.queue d q).beats = [] ∧
            (t.queue d q).rslot = s1.sqNamed d q))) ∧
    (∀ b rest, s.get F.waSqCfg_attach [d, q] = 2 → s.egress d q = true → s.sqEn d q = true → 0 < s.sqVisible d q →
      x.beats = b :: rest →
        exec (.queueRegisterPop src d q) s =
          .next ((if src.peeks then s else (s.sqTake d q).2).answerWord src (b.data.extractLsb' 96 32))) ∧
    (s.sqWritable d q = false → exec (.queueRegisterPush src d q w) s = .next (s.answer src .aerr)) ∧
    (s.sqWritable d q = true → s.sqFull d q = true → (s.sqPkt d q = false ∨ x.dropping = false ∨ x.flushing = true) →
      exec (.queueRegisterPush src d q w) s = .next (s.answer src .retry)) ∧
    (s.sqWritable d q = true → s.sqFull d q = false →
      let data : BitVec 128 := w ++ s.reg .waSqWr [d, q, 2] ++ s.reg .waSqWr [d, q, 1] ++ s.reg .waSqWr [d, q, 0]
      exec (.queueRegisterPush src d q w) s =
        .next (((((s.setReg .waSqWr [d, q, 3] w).setReg .waSqWrctl [d, q] 0#32).sqOffer d q
          ⟨data, parOf16 data, s.flag F.waSqWrctl_last [d, q], false⟩ (s.flag F.waSqWrctl_bad [d, q])).2).answer src .ok))

/-- INGRESS_BEAT (R103 to R105), EGRESS_BEAT (R88, R106 to R109), PORT_CONFIG_WRITE (R110), PORT_COUNT_READ (R113). That bytes which
reach a disabled port count one drop a cycle is the model's choice (log entry 97). -/
def Obligations.StreamPorts : Prop :=
  ∀ (s : State) (src : Src) (d : Fin 4) (p : Fin 64) (w : Word32) (win : Bool),
    let x := s.port d p
    let st := s.get F.waPortWin_start [d, p]
    let on := s.flag F.waPortCfg_en [d, p] && !s.egress d p && !s.held d && x.active
    let wa := s.die d
    let now := wa.spineOut.filter (fun (b : SpineByte) => b.port == p.val && b.cycle == wa.cycle)
    let s0 := s.setDie d { wa with spineOut := wa.spineOut.filter (fun (b : SpineByte) => !(b.port == p.val && b.cycle == wa.cycle)) }
    ((on = false ∨ x.since < st ∨ st + s.get F.waPortWin_beats [d, p] ≤ x.since) → exec (.ingressBeat d p) s = .next s) ∧
    (on = true → st ≤ x.since → x.since < st + s.get F.waPortWin_beats [d, p] → x.closed = false →
      ((s.sqTake d p).1 = none →
        exec (.ingressBeat d p) s = .next (((s.sqTake d p).2.countUp F.waPortCnt_bubbles [d, p]).raise F.waPortStat_underrun [d, p])) ∧
      (∀ b, (s.sqTake d p).1 = some b → (s.sqTake d p).2.portInjects d p = none →
        let s2 := (s.sqTake d p).2.onSpine d p b
        exec (.ingressBeat d p) s =
          .next (if b.last = true ∧ s.get F.waPortCfg_lastMode [d, p] = 1 then s2.setPort d p { s2.port d p with closed := true } else s2))) ∧
    (now = [] → exec (.egressBeat d p) s = .next s) ∧
    (now ≠ [] → now.all (fun (b : SpineByte) => byteOk b.v) = true → s.flag F.waPortCfg_en [d, p] = false →
      exec (.egressBeat d p) s = .next (s0.countUp F.waPortCnt_drops [d, p])) ∧
    (∀ b, now = [b] → byteOk b.v = false → s.flag F.waPortCfg_en [d, p] = true → s.egress d p = true → s.held d = false →
      exec (.egressBeat d p) s = .next ((s0.raise F.waPortStat_parErr [d, p]).bucket (16 * d.val))) ∧
    (∀ b0 bs, now ≠ [] → s.flag F.waPortCfg_en [d, p] = true → s.egress d p = true → s.held d = false →
      now.all (fun (b : SpineByte) => byteOk b.v) = true → (s0.egressLanes d p now).1 = some b0 :: bs.map some →
        let s2 := (s0.egressLanes d p now).2
        let data := BitVec.ofNat 128 (leNat ((b0 :: bs).map (fun (b : SpineByte) => b.v.setWidth 8)))
        let beat : Beat := ⟨data, parOf16 data, s.get F.waPortCfg_lastMode [d, p] == 2 && b0.c, false⟩
        (s.get F.waPortCfg_lastMode [d, p] ≠ 1 → exec (.egressBeat d p) s = .next (s2.egressOffer d p beat)) ∧
        (s.get F.waPortCfg_lastMode [d, p] = 1 →
          let s3 := match (s2.port d p).held with
            | some h => s2.egressOffer d p h
            | none => s2
          exec (.egressBeat d p) s = .next (s3.setPort d p { s3.port d p with held := some beat }))) ∧
    (s.regWaits (if win then .waPortWin else .waPortCfg) = false →
      exec (.portConfigWrite src d p win w) s =
        .next ((s.setPort d p (if win then { x with newWin := some w } else { x with newCfg := some w })).answer src .ok)) ∧
    exec (.portCountRead src d p) s =
      .next ((if src.peeks then s else s.setReg .waPortCnt [d, p] 0#32).answerWord src (s.readReg .waPortCnt [d, p]))

/-- DMA_RUN (R186 to R188), DMA_TRANSFER and DMA_PARTIAL_FLIT (R189), DMA_RESPONSE (R191). -/
def Obligations.StreamDma : Prop :=
  ∀ (s : State) (src : Src) (d : Fin 4) (q : Fin 64) (w : Word32) (tag : Nat),
    let x := s.dmaCh d q
    let w' := w ||| 0x80000000#32
    let s1 := s.setReg .waDmCtrl [d, q] (F.waDmCtrl_run.put (writeFields (RegName.desc .waDmCtrl).fields (s.reg .waDmCtrl [d, q]) w') 0)
    let issue := fun (u : State) (e : EngReq) => u.engineIssue (dmaPort d q) e
    let cls : Fin 4 := if s.flag F.waDmCtrl_rt [d, q] then 0 else 1
    (s.regWaits .waDmCtrl = false → 12 ≤ F.waDmCtrl_size.of w' → F.waDmCtrl_size.of w' ≤ 30 → F.waDmCtrl_run.of w' = 1 →
      s.flag F.waDmCtrl_run [d, q] = false →
      (s1.sqEn d q = false ∨ s1.get F.waSqCfg_attach [d, q] ≠ 1 →
        exec (.dmaRun src d q w) s =
          .next (((s1.raise F.waSqStat_cfgErr [d, q]).put F.waDmCtrl_run [d, q] 0).answer src .ok)) ∧
      (s1.sqEn d q = true → s1.get F.waSqCfg_attach [d, q] = 1 → s1.ringBase d q % s1.ringSize d q ≠ 0 →
        exec (.dmaRun src d q w) s =
          .next (((s1.raise F.waDmCtrl_err [d, q]).put F.waDmCtrl_resp [d, q] 4).answer src .ok)) ∧
      (s1.sqEn d q = true → s1.get F.waSqCfg_attach [d, q] = 1 → s1.ringBase d q % s1.ringSize d q = 0 →
        let s2 := s1.raise F.waDmCtrl_run [d, q]
        let p := if s2.egress d q then s2.ringTail d q else s2.ringHead d q
        exec (.dmaRun src d q w) s =
          .next ((s2.setDma d q ⟨[], if s2.egress d q then none else x.pktLeft, p, p⟩).answer src .ok))) ∧
    (s.dmaActive d q = false → exec (.dmaTransfer d q) s = .next s ∧ exec (.dmaPartialFlit d q) s = .next s) ∧
    (s.nextTag (dmaMaster d q) = some tag → s.dmaActive d q = true → s.egress d q = false → 0 < s.dmaFetch d q →
      let n := s.dmaFetch d q
      let p := issue s ⟨tag, cls, s.ringBase d q + x.issued, false, [], n, .retry⟩
      exec (.dmaTransfer d q) s =
        .next (p.2.setDma d q { x with flight := x.flight ++ [p.1], issued := (x.issued + 16 * n) % p.2.ringSize d q })) ∧
    (s.nextTag (dmaMaster d q) = some tag → s.dmaActive d q = true → s.egress d q = true → s.sqPkt d q = false →
      let writes := fun (n : Nat) =>
        let t := takeBeats d q false n s
        let p := issue t.2 ⟨tag, t.2.dmaClass d q, t.2.ringBase d q + x.issued, true, t.1, t.1.length, .retry⟩
        Host.Outcome.next (p.2.setDma d q
          { x with flight := x.flight ++ [p.1], pktLeft := none, issued := (x.issued + 16 * t.1.length) % p.2.ringSize d q })
      (x.issued % 64 = 0 → 4 ≤ s.dmaReady d q → 4 ≤ s.dmaRoom d q → exec (.dmaTransfer d q) s = writes 4) ∧
      (let n := min (min (s.dmaReady d q) (4 - x.issued / 16 % 4)) (s.dmaRoom d q)
       0 < n → exec (.dmaPartialFlit d q) s = writes n)) ∧
    (x.flight = [] → ∀ lost, exec (.dmaResponse d q lost) s = .next s) ∧
    (∀ e rest, x.flight = e :: rest →
      let acked := (x.acked + 16 * e.count) % s.ringSize d q
      (e.resp = .ok → e.write = true → s.sqPkt d q = false →
        exec (.dmaResponse d q false) s = .next ((s.setDma d q { x with flight := rest, acked := acked }).dmaAdvance d q acked)) ∧
      (e.resp = .ok → e.write = false →
        (s.dmaTakes d q e.count = false → exec (.dmaResponse d q false) s = .next s) ∧
        (s.dmaTakes d q e.count = true →
          let r := passBeats d q e.beats (s.setDma d q { x with flight := rest })
          let s2 := r.2.dmaAdvance d q (r.2.dmaCh d q).acked
          exec (.dmaResponse d q false) s = .next (if r.1 then s2 else s2.dmaStop d q .aerr))) ∧
      (e.resp = .retry →
        let p := issue s e
        exec (.dmaResponse d q false) s = .next (p.2.setDma d q { p.2.dmaCh d q with flight := p.1 :: rest })) ∧
      (let stop := fun (c : Resp) =>
        let s3 := ((s.put F.waDmCtrl_run [d, q] 0).raise F.waDmCtrl_err [d, q]).put F.waDmCtrl_resp [d, q] c.code
        let s4 := s3.setDma d q { s3.dmaCh d q with flight := [] }
        s4.logEv d 1 q 0x0504 3 (leBytes 1 d ++ leBytes 1 q ++ leBytes 1 c.code)
       exec (.dmaResponse d q true) s = .next (stop .terr) ∧
       (e.resp ≠ .ok → e.resp ≠ .retry → exec (.dmaResponse d q false) s = .next (stop e.resp))))

/-- RISER_SPILL_WRITE, RISER_REFILL_READ (R193, R194, R196), RISER_RESPONSE (R197). -/
def Obligations.Risers : Prop :=
  ∀ (s : State) (d : Fin 4) (i : Fin 32) (q tag : Nat), s.riserQueue d i = some q →
    let r := s.riser d i
    let x := s.queue d q
    let fly := r.flying true
    let back := r.flying false
    let size := 2 ^ s.get F.waRsCfg_size [d, i]
    let k := 32 * d.val + i.val
    let n := 4 - r.wptr / 16 % 4
    let m := min (min (r.mid.length - back) (if s.sqPkt d q then x.commit - x.beats.length - back else r.mid.length - back))
      (min (4 - (r.rptr / 16 + back) % 4) (1024 - x.beats.length - back))
    (s.flag F.waRsStat_degraded [d, i] = true → exec (.riserSpillWrite d i) s = .next s) ∧
    (s.nextTag 63 = some tag → s.runs 5 = true → s.noc.drain = false → s.riserTurn k = true →
      s.flag F.waRsStat_degraded [d, i] = false → fly + n ≤ r.tail.length → r.mid.length + fly + n ≤ s.midCap d i →
      s.flag F.waRsStat_spilling [d, i] = true ∨ (1024 ≤ x.beats.length ∧ 512 ≤ r.tail.length) → (r.spilled = true → m = 0) →
        let s1 := ({ s with riserLast := k } : State).raise F.waRsStat_spilling [d, i]
        let p := s1.engineIssue 63 ⟨tag, 1, s.riserBase d i + r.wptr % size, true, (r.tail.drop fly).take n, n, .retry⟩
        exec (.riserSpillWrite d i) s =
          .next (p.2.setRiser d i
            { p.2.riser d i with flight := r.flight ++ [p.1], wptr := r.wptr + 16 * n, spilled := true })) ∧
    (m = 0 → exec (.riserRefillRead d i) s = .next s) ∧
    (s.nextTag 63 = some tag → s.runs 5 = true → s.noc.drain = false → s.riserTurn k = true →
      0 < m → (r.spilled = true ∨ s.spillBeats d i = []) →
        let p := ({ s with riserLast := k } : State).engineIssue 63
          ⟨tag, 1, s.riserBase d i + (r.rptr + 16 * back) % size, false, [], m, .retry⟩
        exec (.riserRefillRead d i) s =
          .next (p.2.setRiser d i { p.2.riser d i with flight := r.flight ++ [p.1], spilled := false })) ∧
    (∀ e rest, r.flight = e :: rest →
      (e.resp = .ok → e.write = true →
        exec (.riserResponse d i false) s =
          .next ((s.setRiser d i { r with flight := rest, tail := r.tail.drop e.count
                                          mid := r.mid ++ e.beats.map (fun (b : Beat) => b.last) }).riserSettle d q i)) ∧
      (e.write = true →
        let s1 := s.setRiser d i { r with flight := rest.filter (fun (f : EngReq) => !f.write), wptr := r.rptr + 16 * r.mid.length }
        let s2 := (s1.raise F.waRsStat_wrErr [d, i]).raise F.waRsStat_degraded [d, i]
        exec (.riserResponse d i true) s =
          .next ((s2.logEv d 1 i 0x0505 3 (leBytes 1 d ++ leBytes 1 i ++ leBytes 1 5)).riserSettle d q i)) ∧
      (e.write = false →
        let took := fun (bs : List Beat) =>
          let s1 := s.setRiser d i { r with flight := rest, mid := r.mid.drop e.count, rptr := r.rptr + 16 * e.count }
          s1.setQueue d q { x with beats := x.beats ++ bs, unseenW := x.unseenW + bs.length }
        (e.resp = .ok →
          exec (.riserResponse d i false) s =
            .next ((took ((e.beats.zip (r.mid.take e.count)).map (fun p => { p.1 with last := p.2, err := false }))).riserSettle d q i)) ∧
        exec (.riserResponse d i true) s =
          .next ((((took (((bytesBeats [] e.count).zip (r.mid.take e.count)).map (fun p => { p.1 with last := p.2, err := true }))).raise
            F.waRsStat_rdErr [d, i]).logEv d 1 i 0x0505 3 (leBytes 1 d ++ leBytes 1 i ++ leBytes 1 5)).riserSettle d q i)) ∧
      (e.resp = .retry →
        let p := s.engineIssue 63 e
        exec (.riserResponse d i false) s = .next (p.2.setRiser d i { p.2.riser d i with flight := p.1 :: rest })))

/-- DRAM_READ (R383, R386, R387, R393) and DRAM_WRITE (R367, R384, R385, R393; log entries 12 and 21). -/
def Obligations.DramAccesses : Prop :=
  ∀ (s : State) (r : Req) (u : MemUnit),
    let a := r.addr.toNat
    let b := a / 64
    let q := r.src.requester
    let s1 := s.touchRow a r.page
    let part := fun (d : List Byte) => (d.drop (a % 64)).take r.len
    (r.write = false → PlainAt s r u →
      (∀ d, s1.decodeBlock b = .clean d → exec (.dramRead r) s = .next (s1.respond r .ok (part d))) ∧
      (∀ d, s1.decodeBlock b = .fixed d →
        exec (.dramRead r) s =
          let s2 := s1.countFix u (64 * b)
          let d2 := { s2.dram with wback := s2.dram.wback.filter (fun e => e.1 != b) ++ [(b, d)] }
          .next (({ s2 with dram := d2 } : State).respond r .ok (part d))) ∧
      (s1.decodeBlock b = .poison → exec (.dramRead r) s = .next (s1.respond r .perr (part (s1.blockBytes b)))) ∧
      (∀ d n, s1.decodeBlock b = .bad d n [] →
        exec (.dramRead r) s =
          .next ((s1.logEv u.site u.kind u.unit 0x0601 3
            (leBytes 6 (64 * b) ++ locBytes (s1.location (64 * b)) ++ [n] ++ leBytes 1 1 ++ leBytes 1 q)).respond r .derr (part d)))) ∧
    (r.write = true → PlainAt s r u →
      (r.badPar ≠ [] → exec (.dramWrite r) s = .next ((s1.poisonBlock b).respond r .perr)) ∧
      (r.badPar = [] → r.len = 64 → exec (.dramWrite r) s = .next ((s1.putBlock b r.data (s1.freshMeta b)).respond r .ok)) ∧
      (r.badPar = [] → r.len ≠ 64 →
        (∀ d, s1.decodeBlock b = .clean d →
          exec (.dramWrite r) s = .next ((s1.putBlock b (overwrite d (a % 64) r.data) (s1.freshMeta b)).respond r .ok)) ∧
        (s1.decodeBlock b = .poison → exec (.dramWrite r) s = .next (s1.respond r .perr)))) ∧
    (r.cls ≠ 3 → inBlock a r.len = true → (r.write = true → r.data.length = r.len) → s.dramHas a = true → s.memRuns a = true →
      s.metaRegion a = none → s.region a = none → s.dramGate a = .wait →
        let held := ({ s with dram := { s.dram with held := s.dram.held ++ [⟨r, s.tb.count, false⟩] } } : State)
        (r.write = false → exec (.dramRead r) s = .next held) ∧ (r.write = true → exec (.dramWrite r) s = .next held)) ∧
    (r.cls ≠ 3 → s.dramHas a = false →
      (r.write = false → exec (.dramRead r) s = .next (s.respond r .aerr)) ∧
      (r.write = true → exec (.dramWrite r) s = .next (s.respond r .aerr)))

/-- DRAM_WRITE of a whole block, byte by byte, and the read after it (R23, R357, R383, R384). -/
def Obligations.DramBytes : Prop :=
  ∀ (s : State) (r p : Req) (u : MemUnit),
    let a := r.addr.toNat
    isHbm a = true → r.write = true → r.len = 64 → r.badPar = [] → (List.range 64).all (fun g => !s.flag F.ddrRgnCfg_en [g]) = true →
      PlainAt s r u →
        ∃ t, exec (.dramWrite r) s = .next t ∧ t.outbox = s.outbox ++ [.flit r .ok [] []] ∧
          (∀ x, SMap.get 0#8 t.dram.bytes x =
            if a ≤ x ∧ x < a + 64 then r.data.getD (x - a) 0#8 else SMap.get 0#8 s.dram.bytes x) ∧
          { t with dram := s.dram, outbox := s.outbox } = s ∧
          (p.write = false → p.cls ≠ 3 → inBlock p.addr.toNat p.len = true → p.addr.toNat / 64 = a / 64 →
            ∃ v, exec (.dramRead p) t = .next v ∧
              v.outbox = t.outbox ++ [.flit p .ok ((r.data.drop (p.addr.toNat % 64)).take p.len) []])

/-- POISON_BLOCK, CLEAR_BLOCK, CORRECTION_WRITEBACK, PATROL_SCRUB, SOFT_REPAIR, HARD_REPAIR, REPAIR_COMPLETE, CECNT_READ. -/
def Obligations.BlockCommands : Prop :=
  ∀ (s : State) (src : Src) (hbm : Bool) (block : BitVec 42) (u : MemUnit) (i : Fin 4),
    let a := s.pcmdAddr
    (mayWrite .ddrPcmd src = false →
      exec (.poisonBlock src) s = .next (s.answer src .serr) ∧ exec (.clearBlock src) s = .next (s.answer src .serr)) ∧
    (mayWrite .ddrPcmd src = true → s.regWaits .ddrPcmd = false → s.flag F.ddrPcmd_busy [] = false → s.dramHas a = true → s.region a = none →
      s.metaRegion a = none → s.dramGate a = .go u →
      exec (.poisonBlock src) s =
        .next (((s.putBlock (a / 64) (s.blockBytes (a / 64))
          { s.bmeta (a / 64) with poison := true, byParity := s.byParity (64 * (a / 64)) }).put F.ddrPcmd_resp [] 0).answer src .ok) ∧
      exec (.clearBlock src) s =
        .next (((s.putBlock (a / 64) (List.replicate 64 0#8) (s.freshMeta (a / 64))).put F.ddrPcmd_resp [] 0).answer src .ok)) ∧
    (mayWrite .ddrPcmd src = true → s.regWaits .ddrPcmd = false → s.flag F.ddrPcmd_busy [] = true →
      exec (.poisonBlock src) s = .next (s.answer src .ok) ∧ exec (.clearBlock src) s = .next (s.answer src .ok)) ∧
    (mayWrite .ddrPcmd src = true → s.regWaits .ddrPcmd = false → s.flag F.ddrPcmd_busy [] = false → s.dramHas a = true → s.region a = none →
      s.metaRegion a = none → s.dramGate a = .wait →
        let begun := fun (op : Nat) => ({ s with dram := { s.dram with pcmd := some (op, a) } } : State).raise F.ddrPcmd_busy []
        exec (.poisonBlock src) s = .next ((begun 1).answer src .ok) ∧
        exec (.clearBlock src) s = .next ((begun 2).answer src .ok)) ∧
    (∀ b d, s.dram.wback.find? (fun (e : Nat × List Byte) => e.1 == block.toNat) = some (b, d) →
      exec (.correctionWriteback block) s = .next (if s.wbackFree b then s.putBlock b d (s.freshMeta b) else s)) ∧
    (let k := if hbm then i.val % 2 else i.val
     let b := s.patrolAddr hbm k (s.patrolAt hbm k)
     (s.patrolRuns hbm k = false → exec (.patrolScrub hbm i) s = .next s) ∧
     (s.dramGate b = .wait → exec (.patrolScrub hbm i) s = .next s) ∧
     (s.patrolRuns hbm k = true → s.dramGate b = .go u →
       exec (.patrolScrub hbm i) s = .next (((s.patrolOn hbm k).touchRow b 0).readBlock u (b / 64) 0).2.2.2)) ∧
    (mayWrite .ddrPprcmd src = true → s.regWaits .ddrPprcmd = false →
      (s.flag F.ddrPprcmd_busy [] = true → exec (.softRepair src false) s = .next (s.answer src .ok)) ∧
      (s.flag F.ddrPprcmd_busy [] = false →
        let n := s.pair .ddrPprlocLo .ddrPprlocHi []
        let loc := BitVec.ofNat 64 n
        let queued := (s.dram.held.filter (fun (h : HeldReq) => s.location h.req.addr.toNat == n)).map (fun (h : HeldReq) => h.req)
        let begun := fun (hard : Bool) =>
          ({ s with dram := { s.dram with repair := some ⟨hard, loc, queued, false, []⟩ } } : State).raise F.ddrPprcmd_busy []
        let copied := fun (hard : Bool) =>
          let bs := (begun hard).rowBlocks loc.toNat
          let v := bs.foldl (fun (v : State) (x : RepairBlock) => v.putBlock x.block x.data1 x.meta1) (begun hard)
          { v with dram := { v.dram with repair := some ⟨hard, loc, queued, true, bs⟩ } }
        let starts := fun (hard : Bool) => (if queued = [] then copied hard else begun hard).answer src .ok
        exec (.softRepair src false) s = .next (starts false) ∧
        (s.unitTrained (locUnit n) = true → exec (.hardRepair src false) s = .next ((s.put F.ddrPprcmd_res [] 1).answer src .ok)) ∧
        (s.unitTrained (locUnit n) = false → exec (.hardRepair src false) s = .next (starts true)))) ∧
    (∀ rep, s.dram.repair = some rep → rep.copied = false → exec (.repairComplete false 0) s = .next s) ∧
    (∀ rep, s.dram.repair = some rep → rep.copied = true →
      let l := rep.loc.toNat
      let v := locUnit l
      let ended := fun (soft : List (BitVec 64)) (res : Nat) =>
        ((({ s with dram := { s.dram with soft := soft, repair := none } } : State).put F.ddrPprcmd_busy [] 0).put
          F.ddrPprcmd_res [] res).logEv v.site v.kind v.unit 0x0605 0 (locBytes l ++ leBytes 1 res)
      exec (.repairComplete false 0) s = .next (ended (if rep.hard then s.dram.soft else s.dram.soft ++ [rep.loc]) 0) ∧
      exec (.repairComplete false 3) s = .next (ended s.dram.soft 3)) ∧
    exec (.cecntRead src false i) s =
      .next ((if src.peeks then s else s.setReg .ddrChCecnt [i] 0#32).answerWord src (s.readReg .ddrChCecnt [i])) ∧
    exec (.cecntRead src true i) s =
      .next ((if src.peeks then s else s.setReg .hbmStkCecnt [i.val % 2] 0#32).answerWord src (s.readReg .hbmStkCecnt [i.val % 2]))

/-- REFRESH, PAGE_TIMEOUT, POWER_DOWN_ENTRY, DRAM_TEMPERATURE_READ, TRACKING, PERIODIC_RETRAIN, COMMAND_PARITY_ERROR, TRAINING_COMPLETE. -/
def Obligations.DramUpkeep : Prop :=
  ∀ (s : State) (bank : BitVec 32) (unit : Fin 4) (sub : Fin 32) (hbm done : Bool) (temp : Int) (reqs : List Req) (pcs pop rank : BitVec 32),
    let k := if hbm then unit.val % 2 else unit.val
    let closed := fun (p : OpenRow → Bool) => ({ s with dram := { s.dram with openRows := s.dram.openRows.filter p } } : State)
    let u : MemUnit := ⟨false, unit.val, 0⟩
    let timers := fun (l : List Nat) (v : State) =>
      { v with dram := { v.dram with lastCmd := l.foldl (fun m x => SMap.insert m x v.tb.count) v.dram.lastCmd } }
    let fails := fun (v : State) (x : MemUnit) => (v.logEv 8 6 unit 0x0604 4 (locBytes x.location)).raise F.ddrChStat_failed [unit.val]
    exec (.refresh bank) s = .next (closed (fun (o : OpenRow) => o.bank != bank.toNat * 2 ^ 32)) ∧
    exec (.pageTimeout bank) s = .next (closed (fun (o : OpenRow) => !(o.bank == bank.toNat * 2 ^ 32 && (o.hint != 1 &&
      decide (o.last + 4 * (if o.bank.testBit 63 then s.get F.hbmCfg_pageTmo [] else s.get F.ddrChCfg_pageTmo [bitsOf o.bank 62 61]) ≤ s.tb.count))))) ∧
    (let tmo := if hbm then s.get F.hbmCfg_pdTmo [] else s.get F.ddrChCfg_pdTmo [unit.val]
     (tmo = 0 → exec (.powerDownEntry hbm unit bank) s = .next s) ∧
     (tmo ≠ 0 → bank.toNat ∉ s.dram.pdown → SMap.get 0 s.dram.lastCmd bank.toNat + 16 * tmo ≤ s.tb.count →
       exec (.powerDownEntry hbm unit bank) s = .next { s with dram := { s.dram with pdown := s.dram.pdown ++ [bank.toNat] } })) ∧
    exec (.dramTemperatureRead hbm unit temp) s =
      .next (s.put (if hbm then F.hbmStkStat_hot else F.ddrChStat_hot) [k] (if 85 < temp then 1 else 0)) ∧
    exec (.tracking hbm unit sub) s = .next s ∧
    (s.upd.commit = none →
      let rest := s.dram.slice.filter (fun (x : Nat) => x != rank.toNat)
      let shown := if hbm then F.hbmStkStat_tracking else F.ddrChStat_tracking
      exec (.periodicRetrain hbm unit rank true done) s =
        .next (({ s with dram := { s.dram with slice := rest ++ [rank.toNat] } } : State).put shown [k] 1) ∧
      exec (.periodicRetrain hbm unit rank false done) s =
        .next (({ s with dram := { s.dram with slice := rest } } : State).put shown [k] (if done then 0 else 1))) ∧
    exec (.commandParityError hbm unit sub false done reqs) s = .next s ∧
    (let v : MemUnit := ⟨false, unit.val, sub.val⟩
     let failed := fun (w : State) (r : Req) =>
       if w.dram.held.any (fun h => h.req == r && h.answered) then w
       else ({ w with dram := { w.dram with held := w.dram.held.filter (fun h => h.req != r) } } : State).respond r .derr
     let s1 := (reqs.foldl failed s).logEv 8 6 unit 0x0603 3 (locBytes v.location)
     exec (.commandParityError false unit sub true true reqs) s = .next s1 ∧
     exec (.commandParityError false unit sub true false reqs) s = .next (fails s1 v)) ∧
    (let w := s.reg .ddrChStat [unit.val] &&& 0xFC000000#32 ||| (pop &&& 0x03FF00FF#32)
     let s1 := (s.setReg .ddrChStat [unit.val] w).raise F.ddrChStat_found [unit.val]
     exec (.trainingComplete false unit true pcs pop) s =
       .next (timers (unitRanks false unit.val (s1.get F.ddrChStat_ranks [unit.val])) (s1.raise F.ddrChStat_trained [unit.val])) ∧
     exec (.trainingComplete false unit false pcs pop) s = .next (fails s1 u)) ∧
    exec (.trainingComplete true unit true 0#32 pop) s =
      .next (timers (unitRanks true (unit.val % 2) 0) ((s.raise F.hbmStkStat_found [unit.val % 2]).raise F.hbmStkStat_trained [unit.val % 2]))

/-- REGION_ENABLE, REGION_DISABLE, REGION_INIT_DONE, LOAD_NEW_KEY, LOAD_CURRENT_KEY, ZERO_KEY_BUFFER, REKEY. -/
def Obligations.EncryptionSetup : Prop :=
  ∀ (s : State) (src : Src) (r : Fin 64) (w : Word32),
    (mayWrite .ddrRgnCfg src = false →
      exec (.regionEnable src r w) s = .next (s.answer src .serr) ∧ exec (.regionDisable src r w) s = .next (s.answer src .serr)) ∧
    (mayWrite .ddrRgnCfg src = true → s.regWaits .ddrRgnCfg = false → F.ddrRgnCfg_cfgErr.of (w ||| 0x80000000#32) = 0 → s.flag F.ddrRgnCfg_en [r.val] = false →
      F.ddrRgnCfg_en.of (w ||| 0x80000000#32) = 1 →
        let w1 := w ||| 0x80000000#32
        let s1 := ((s.put F.ddrRgnCfg_code [r.val] (F.ddrRgnCfg_code.of w1)).put F.ddrRgnCfg_enc [r.val] (F.ddrRgnCfg_enc.of w1)).put
          F.ddrRgnCfg_encCfg [r.val] (F.ddrRgnCfg_encCfg.of w1)
        (s1.rgnOk r = false → exec (.regionEnable src r w) s = .next ((s1.raise F.ddrRgnCfg_cfgErr [r.val]).answer src .ok)) ∧
        (s1.rgnOk r = true →
          let s2 := s1.raise F.ddrRgnCfg_en [r.val]
          exec (.regionEnable src r w) s = .next ((if s2.flag F.ddrRgnCfg_enc [r.val] then s2.initRegion r else s2).answer src .ok))) ∧
    (mayWrite .ddrRgnCfg src = true → s.regWaits .ddrRgnCfg = false → F.ddrRgnCfg_cfgErr.of (w &&& 0x7FFFFFFF#32) = 0 → s.flag F.ddrRgnCfg_en [r.val] = true →
      s.flag F.ddrRgnCfg_enc [r.val] = false → F.ddrRgnCfg_en.of (w &&& 0x7FFFFFFF#32) = 0 →
      F.ddrRgnCfg_code.of (w &&& 0x7FFFFFFF#32) = s.get F.ddrRgnCfg_code [r.val] →
      F.ddrRgnCfg_enc.of (w &&& 0x7FFFFFFF#32) = s.get F.ddrRgnCfg_enc [r.val] →
      F.ddrRgnCfg_encCfg.of (w &&& 0x7FFFFFFF#32) = s.get F.ddrRgnCfg_encCfg [r.val] →
        exec (.regionDisable src r w) s = .next ((s.put F.ddrRgnCfg_en [r.val] 0).answer src .ok)) ∧
    exec (.regionInitDone r) s = .next (if s.get F.encRgnStat_state [r.val] = 1 then s.put F.encRgnStat_state [r.val] 2 else s) ∧
    (let ks : KeySet := ⟨s.keyBytes 0 32, s.keyBytes 32 32, s.keyBytes 64 32⟩
     let x := s.encRgn r
     let z := (List.range 24).foldl (fun (u : State) k => u.setReg .encKeybuf [k] 0#32) s
     let ok := z.put F.encKeycmd_res [] 0
     let refused := Host.Outcome.next ((z.put F.encKeycmd_res [] 1).answer src .ok)
     mayWrite .encKeycmd src = true → s.regWaits .encKeycmd = false →
       exec (.zeroKeyBuffer src) s = .next (ok.answer src .ok) ∧
       (s.get F.encRgnStat_state [r.val] ≠ 2 ∨ ks.k1 = ks.k2 → exec (.loadNewKey src r) s = refused) ∧
       (s.get F.encRgnStat_state [r.val] = 2 → ks.k1 ≠ ks.k2 →
         exec (.loadNewKey src r) s =
           .next (((ok.setEncRgn r { x with new := some ks }).raise F.encRgnStat_newKey [r.val]).answer src .ok)) ∧
       (s.flag F.ddrRgnCfg_en [r.val] = true ∨ ks.k1 = ks.k2 → exec (.loadCurrentKey src r) s = refused) ∧
       (s.flag F.ddrRgnCfg_en [r.val] = false → ks.k1 ≠ ks.k2 →
         exec (.loadCurrentKey src r) s =
           .next (((ok.setEncRgn r { x with cur := some ks }).raise F.encRgnStat_curKey [r.val]).answer src .ok))) ∧
    (mayWrite .encRgnCtrl src = true → s.regWaits .encRgnCtrl = false → F.encRgnCtrl_rekey.of (w ||| 0x80000000#32) = 1 →
      let s1 := s.writeReg .encRgnCtrl [r.val] (w ||| 0x80000000#32)
      (s1.get F.encRgnStat_state [r.val] = 2 → (s1.encRgn r).new.isSome = true →
        exec (.rekey src r w) s =
          .next ((((s1.put F.encRgnStat_state [r.val] 3).setReg .encRgnBoundLo [r.val] 0#32).setReg .encRgnBoundHi [r.val] 0#32).answer
            src .ok)) ∧
      (¬ (s1.get F.encRgnStat_state [r.val] = 2 ∧ (s1.encRgn r).new.isSome = true) →
        exec (.rekey src r w) s = .next ((s1.raise F.encRgnStat_rkErr [r.val]).answer src .ok)))

/-- ENCRYPTED_READ, ENCRYPTED_WRITE (R410 to R414), SECTOR_EVICTION (R412), CLEAR_SECTOR, POISON_SECTOR, REBUILD_LOST_NODE (R413, R414, R416). -/
def Obligations.EncryptedAccesses : Prop :=
  ∀ (s : State) (r : Req) (g : Nat) (src : Src) (k : Fin 6),
    let a := r.addr.toNat
    let e := engineOf a
    let i := (a - s.rgnBase g) / 512
    let o := (a - s.rgnBase g) % 512
    (r.cls ≠ 3 → inBlock a r.len = true → s.dramHas a = true → s.metaRegion a = none → s.region a = some g → s.encrypted g = true →
      s.memRuns a = true → s.sectorWaits g i = false → s.behind r = false →
      (r.write = false →
        (s.encGate g = some .retry → exec (.encryptedRead r) s = .next (s.respond r .retry)) ∧
        (s.encGate g = none → (s.belowLost e g i).isSome = true → exec (.encryptedRead r) s = .next (s.respond r .perr)) ∧
        (s.encGate g = none → s.belowLost e g i = none → s.healOf e g i = none →
          (∀ l, s.lineOf e g i = some l →
            exec (.encryptedRead r) s = .next ((s.putLine e l).respond r .ok (sectorSlice l.data o r.len))) ∧
          (∀ d, s.lineOf e g i = none → (s.fetchSector e g i a r.src.requester).1 = .data d →
            exec (.encryptedRead r) s = .next (((s.fetchSector e g i a r.src.requester).2.putLine e ⟨g, i, d, false, false⟩).respond r .ok (sectorSlice d o r.len))))) ∧
      (r.write = true → r.data.length = r.len →
        (s.encGate g = some .retry → exec (.encryptedWrite r) s = .next (s.respond r .retry)) ∧
        (s.encGate g = none → (s.belowLost e g i).isSome = true → exec (.encryptedWrite r) s = .next (s.respond r .perr)) ∧
        (s.encGate g = none → s.belowLost e g i = none → s.healOf e g i = none →
          (∀ l, s.lineOf e g i = some l →
            (r.badPar = [] →
              exec (.encryptedWrite r) s =
                .next ((s.putLine e { l with data := sectorMerge l.data o r.data, dirty := true }).respond r .ok)) ∧
            (r.badPar ≠ [] → exec (.encryptedWrite r) s = .next ((s.poisonSector e g i).respond r .perr))) ∧
          (∀ d, s.lineOf e g i = none → (s.fetchSector e g i a r.src.requester).1 = .data d →
            let s1 := (s.fetchSector e g i a r.src.requester).2
            (r.badPar = [] →
              exec (.encryptedWrite r) s = .next ((s1.putLine e ⟨g, i, sectorMerge d o r.data, true, false⟩).respond r .ok)) ∧
            (r.badPar ≠ [] → exec (.encryptedWrite r) s = .next ((s1.poisonSector e g i).respond r .perr)))))) ∧
    (r.cls ≠ 3 → inBlock a r.len = true → s.dramHas a = true → s.metaRegion a = none → s.region a = some g → s.encrypted g = true →
      s.memRuns a = true → s.sectorWaits g i = true → s.encGate g = none → s.belowLost e g i = none → s.healOf e g i = none → s.lineOf e g i = none →
        let held := ({ s with dram := { s.dram with held := s.dram.held ++ [⟨r, s.tb.count, false⟩] } } : State)
        (r.write = false → exec (.encryptedRead r) s = .next held) ∧
        (r.write = true → r.data.length = r.len → exec (.encryptedWrite r) s = .next held)) ∧
    (s.runs 9 = true →
      (∀ l, (s.eng k).victim = some l → s.sectorWaits l.region l.sector = false →
        exec (.sectorEviction k) s = .next ((s.dropLine k l.region l.sector).writeBack k l)) ∧
      ((s.eng k).victim = none → exec (.sectorEviction k) s = .next s)) ∧
    (let b := s.scmdAddr
     let f := engineOf b
     let j := (b - s.rgnBase g) / 512
     mayWrite .encScmd src = true → s.regWaits .encScmd = false → s.flag F.encScmd_busy [] = false → s.region b = some g → s.encrypted g = true →
       s.encGate g = none → s.sectorWaits g j = false →
       (∀ n, s.belowLost f g j = some n →
         exec (.rebuildLostNode src) s = .next (((s.rebuild f n).put F.encScmd_resp [] 0).answer src .ok) ∧
         exec (.clearSector src) s = .next ((s.put F.encScmd_resp [] 2).answer src .ok) ∧
         exec (.poisonSector src) s = .next ((s.put F.encScmd_resp [] 2).answer src .ok)) ∧
       (let s1 := (s.verifyPath f g j b 10).2
        s.belowLost f g j = none → (s.verifyPath f g j b 10).1 = .used → s1.healOf f g j = none →
         let s2 := s1.dropHeal f g j
         exec (.clearSector src) s =
           .next ((((s2.dropLine f g j).writeBack f ⟨g, j, 0#4096, true, false⟩).put F.encScmd_resp [] 0).answer src .ok) ∧
         exec (.poisonSector src) s = .next (((s2.poisonSector f g j).put F.encScmd_resp [] 0).answer src .ok)))

/-- REKEY_WALK_STEP and ROTATION_COMPLETE (R419). -/
def Obligations.KeyRotation : Prop :=
  ∀ (s : State) (r : Fin 64),
    let b := s.bound r
    let a := s.sectorAddr r b
    let e := engineOf a
    let on := s.setBound r (b + 1)
    ((s.rgnState r ≠ 3 ∨ s.get F.encRgnCtrl_rate [r.val] = 0) → exec (.rekeyWalkStep r) s = .next s) ∧
    (s.rgnState r = 3 → 0 < s.get F.encRgnCtrl_rate [r.val] → b < s.rgnSectors r → s.runs 9 = true →
      ((s.belowLost e r b).isSome = true ∨ s.ctrOf r b = 0 → exec (.rekeyWalkStep r) s = .next on) ∧
      (s.belowLost e r b = none → s.ctrOf r b ≠ 0 →
        (∀ l, s.lineOf e r b = some l →
          exec (.rekeyWalkStep r) s =
            (let x := s.eng e
            let ls := x.lines.map (fun (m : CLine) => if m = l then { m with dirty := true, convert := true } else m)
            .next ((s.setEng e { x with lines := ls }).setBound r (b + 1)))) ∧
        (∀ d, s.lineOf e r b = none → s.sectorWaits r b = false → (s.fetchSector e r b a 0).1 = .data d →
          exec (.rekeyWalkStep r) s = .next (((s.fetchSector e r b a 0).2.setBound r (b + 1)).putLine e ⟨r, b, d, true, true⟩)))) ∧
    (s.rgnState r = 3 → s.rgnSectors r ≤ b → s.converting r = false →
      let x := s.encRgn r
      let s1 := (s.setEncRgn r { x with cur := x.new, new := none }).setBound r 0
      let s2 := ((s1.put F.encRgnStat_state [r.val] 2).put F.encRgnStat_newKey [r.val] 0).raise F.encRgnStat_curKey [r.val]
      exec (.rotationComplete r) s = .next ((s2.logEv 8 8 (engineOf (s.rgnBase r)) 0x0703 0 (leBytes 1 r)).interrupt .rekey)) ∧
    (s.rgnState r ≠ 3 ∨ s.bound r < s.rgnSectors r ∨ s.converting r = true → exec (.rotationComplete r) s = .next s)

/-- BUCKET_LEAK (R423), PARITY_INJECT (R429), RAW_WRITE, RAW_READ, CHECKED_READ (R428), LOG_ENTRY_ACCEPT (R434 to R436), LOG_READ_COPY (R437), LOG_PERSIST (R438). -/
def Obligations.LogAndTestAccess : Prop :=
  ∀ (s : State) (src : Src) (w : Word32) (p : RtPlace) (port : Fin 4) (n : Fin 4097) (erased : Nat),
    let sb := s.flag F.eccRtcmd_sbit []
    let db := s.flag F.eccRtcmd_dbit []
    (let leak := fun (u : State) (b : Nat) =>
      let k := u.get F.eccBktCfg_leak [b]
      let c := u.get F.eccBktStat_count [b]
      if k < 31 ∧ u.now 8 % (1000 * 2 ^ k) = 0 ∧ c ≠ 0 then u.put F.eccBktStat_count [b] (c - 1) else u
     exec .bucketLeak s = .next ((List.range 96).foldl leak s)) ∧
    (s.regWaits .eccPinj = false → exec (.parityInject src w) s = .next ((s.writeReg .eccPinj [] (F.eccPinj_arm.put w 1)).answer src .ok)) ∧
    (s.rtMay src = false →
      exec (.rawWrite src) s = .next (s.answer src .serr) ∧ exec (.rawRead src) s = .next (s.answer src .serr) ∧
        exec (.checkedRead src) s = .next (s.answer src .serr)) ∧
    (s.rtMay src = true → s.regWaits .eccRtcmd = false → s.flag F.eccRtcmd_busy [] = true →
      exec (.rawWrite src) s = .next (s.answer src .ok) ∧ exec (.rawRead src) s = .next (s.answer src .ok) ∧
        exec (.checkedRead src) s = .next (s.answer src .ok)) ∧
    (s.rtMay src = true → s.regWaits .eccRtcmd = false → s.flag F.eccRtcmd_busy [] = false →
      (∀ c, s.rtRefuse 2 = some c → exec (.rawRead src) s = .next ((s.rtDone c sb db).answer src .ok)) ∧
      (s.rtPlace = some p → s.rtWaits p = false →
        (s.rtRefuse 1 = none →
          exec (.rawWrite src) s = .next (((s.rtStore p s.rtBuf.1 s.rtBuf.2).rtDone .ok sb db).answer src .ok)) ∧
        (s.rtRefuse 2 = none →
          exec (.rawRead src) s =
            .next ((((s.setRtData p.width (s.rtRaw p).1).setRtCheck (s.rtRaw p).2).rtDone .ok sb db).answer src .ok)) ∧
        (let c := s.rtChecked src.requester p
         s.rtRefuse 3 = none →
          exec (.checkedRead src) s = .next (((c.2.2.2.setRtData p.width c.1).rtDone .ok c.2.1 c.2.2.1).answer src .ok)))) ∧
    (s.log.queue = [] → exec .logEntryAccept s = .next s) ∧
    (∀ e t, s.log.queue = e :: t →
      let s0 := ({ s with log := { s.log with queue := t } } : State)
      let q := s.get F.logWseq_seq []
      let s1 := if 4096 ≤ seqDist q (s.get F.logPseq_seq []) then s0.countUp F.logStat_lost [] else s0
      let s2 := (s1.putEntry q e.bytes).put F.logWseq_seq [] (q + 1)
      exec .logEntryAccept s = .next (if s2.get F.logCfg_irqSev [] ≤ e.sev then s2.interrupt .log else s2)) ∧
    (s.regWaits .logRdseq = false → s.logHolds w.toNat = false →
      exec (.logReadCopy src port w) s =
        .next ((s.showEntry port w.toNat true (List.replicate 32 0#8) false).answer src .ok)) ∧
    (let e := s.readEntry w.toNat
     s.regWaits .logRdseq = false → s.logHolds w.toNat = true →
      exec (.logReadCopy src port w) s = .next ((e.2.2.showEntry port w.toNat false e.1 e.2.1).answer src .ok)) ∧
    (s.pwr.mcRuns = false → exec (.logPersist n erased) s = .next s) ∧
    (s.pwr.mcRuns = true →
      exec (.logPersist 0 erased) s = .next { s with log := { s.log with flash := s.log.flash.drop erased } } ∧
      (s.pseq ≠ s.wseq → s.logHolds s.pseq = true →
        let bs := ((List.range 4).map (fun k => leBytes 8 ((s.ringRead (4 * (s.pseq % 4096) + k)).1))).flatten
        exec (.logPersist 1 0) s =
          .next (({ s with log := { s.log with flash := s.log.flash ++ [(s.pseq, bs)] } } : State).put F.logPseq_seq [] (s.pseq + 1))))

/-- REFERENCE_QUALIFIED, PLLS_LOCKED, TIMEBASE_START, REFERENCE_LOST, RETENTION_MONITOR_EXPIRY, HOT_RESUME_COMPLETE,
REFERENCE_DRIFT_FAILED, REFERENCE_SWITCH_COMMAND. -/
def Obligations.ClockStartup : Prop :=
  ∀ (s : State) (b : Bool) (start : Restart) (src : Src) (w : Word32),
    let phase := s.clk.phase
    let q := fun (u : State) => { u with clk := if b then { u.clk with failedB := false } else { u.clk with failedA := false } }
    let on := q (s.setQualified b true)
    let out := fun (u : State) => { u with clk :=
      if b then { u.clk with failedB := false, lostB := true } else { u.clk with failedA := false, lostA := true } }
    let lost := out ((s.countUp (if b then F.clkRefstat_bLosses else F.clkRefstat_aLosses) []).setQualified b false)
    let switch := fun (u : State) (tgt : Bool) (cause : Nat) =>
      ((u.put F.clkRefstat_active [] (b2n tgt)).raise F.clkRefstat_switched []).logEv 8 9 0 0x0201 1 (leBytes 1 (b2n tgt) ++ leBytes 1 cause)
    (phase = .heldOff → exec (.referenceQualified b start) s = .next s ∧ exec (.referenceLost b) s = .next s) ∧
    (phase = .waitRef → s.qualified b = false →
      exec (.referenceQualified b start) s = .next ((on.put F.clkRefstat_active [] (b2n b)).setClk .locking)) ∧
    (phase = .outage → s.qualified b = false →
      (s.clk.retExpired = true →
        exec (.referenceQualified b start) s =
          .next (((on.warmRestart start).put F.clkRefstat_active [] (b2n b)).setClk .locking)) ∧
      (s.clk.retExpired = false → on.activeB = b → exec (.referenceQualified b start) s = .next (on.setClk .resuming)) ∧
      (s.clk.retExpired = false → on.activeB ≠ b → exec (.referenceQualified b start) s = .next ((switch on b 0).setClk .resuming))) ∧
    (phase = .running → s.qualified b = false → on.activeB ≠ b → on.flag F.clkRefctrl_prefer [] = b →
      (if b then s.clk.lostB else s.clk.lostA) = false ∨ on.flag F.clkRefctrl_revert [] = true →
        exec (.referenceQualified b start) s = .next (switch on b 2)) ∧
    (phase = .locking → exec .pllsLocked s = .next ((s.raise F.clkRefstat_locked []).setClk .locked)) ∧
    (phase = .resuming → exec .pllsLocked s = .next (s.raise F.clkRefstat_locked [])) ∧
    (phase = .locked →
      exec .timebaseStart s = .next ((s.startTimebase (if s.clk.warm then s.tb.count + 1 else 0)).setClk .running)) ∧
    (phase = .resuming → s.flag F.clkRefstat_locked [] = true → s.tb.running = false →
      let s1 := (s.startTimebase (s.tb.count + 1)).xgResume.lanesRestart
      exec .timebaseStart s = .next { s1 with dram := { s1.dram with catchUp := true } }) ∧
    (phase = .resuming → s.tb.running = true →
      let s1 := (s.raise F.clkRefstat_hotResume []).logEv 8 9 0 0x0202 2 (leBytes 8 s.clk.held)
      exec .hotResumeComplete s = .next { s1 with
        clk := { s1.clk with phase := .running, retRunning := false, retExpired := false }
        dram := { s1.dram with catchUp := false }
        pins := { s1.pins with safe := s1.flag F.pwrTrip_active [] } }) ∧
    (phase ≠ .heldOff → s.activeB ≠ b → exec (.referenceLost b) s = .next lost) ∧
    (phase = .running → s.activeB = b →
      (lost.qualified (!b) = true → lost.activeB = b → exec (.referenceLost b) s = .next (switch lost (!b) 0)) ∧
      (lost.qualified (!b) = false →
        exec (.referenceLost b) s = .next lost.totalLoss ∧ lost.totalLoss.clk.phase = .outage ∧
          lost.totalLoss.clk.held = lost.totalLoss.tb.count ∧ lost.totalLoss.tb.running = false ∧ lost.totalLoss.pins.safe = true ∧
          lost.totalLoss.clk.retRunning = true)) ∧
    exec .retentionMonitorExpiry s =
      .next (if s.clk.retRunning then { s with clk := { s.clk with retRunning := false, retExpired := true } } else s) ∧
    (s.activeB ≠ b → s.qualified b = true → s.qualified (!b) = true →
      let s1 := s.setQualified b false
      exec (.referenceDriftFailed b) s =
        .next { s1 with clk :=
          if b then { s1.clk with failedB := true, lostB := true } else { s1.clk with failedA := true, lostA := true } }) ∧
    (s.regWaits .clkRefctrl = false →
     let s1 := s.writeReg .clkRefctrl [] w
     let tgt := s1.flag F.clkRefctrl_prefer []
     (F.clkRefctrl_switch.of w = 0 → exec (.referenceSwitchCommand src w) s = .next (s1.answer src .ok)) ∧
     (F.clkRefctrl_switch.of w = 1 → s1.qualified tgt = false →
       exec (.referenceSwitchCommand src w) s = .next ((s1.raise F.clkRefstat_cmdErr []).answer src .ok)) ∧
     (F.clkRefctrl_switch.of w = 1 → s1.qualified tgt = true → s1.activeB ≠ tgt →
       exec (.referenceSwitchCommand src w) s = .next ((switch s1 tgt 1).answer src .ok)))

/-- CLOCK_GATE_WRITE, CLKMON_SELECT, TIMEBASE_SYNC_MESSAGE, TIMEBASE_FREE_RUN, TB_TIME_LO_READ, TICK_ENABLE, TICK_PERIOD_WRITE, TICK. -/
def Obligations.TimebaseAndTicks : Prop :=
  ∀ (s : State) (src : Src) (d : Fin 24) (w : Word32) (die : Fin 7) (wander : Int) (n : Fin 4),
    (s.regWaits .clkGate = false → d.val ≤ 2 → exec (.clockGateWrite src d w) s = .next (s.answer src .ok)) ∧
    (s.regWaits .clkGate = false → 3 ≤ d.val →
      let s1 := (s.put F.clkGate_run [d.val] (F.clkGate_run.of w)).put F.clkGate_sleep [d.val] (F.clkGate_sleep.of w)
      exec (.clockGateWrite src d w) s =
        .next ((if d.val = 3 then s1.put F.clkGate_deep [d.val] (F.clkGate_deep.of w) else s1).answer src .ok)) ∧
    (let s1 := s.writeReg .clkMon [] w
     s.regWaits .clkMon = false →
     exec (.clkmonSelect src w) s =
       .next ((if s1.reg .clkMon [] = s.reg .clkMon [] then s1 else { s1 with clk := { s1.clk with mon := ⟨16, 0, 0, false⟩ } }).answer
         src .ok)) ∧
    (die.val = 4 ∨ s.tb.running = false → exec (.timebaseSyncMessage die wander) s = .next s) ∧
    (die.val ≠ 4 → s.tb.running = true →
      let o := s.offset die + (SMap.get 0 s.tb.drift die + wander)
      let s1 := s.putDieBit F.tbStat_free die false
      let s2 := ({ s1 with tb := { s1.tb with
        drift := SMap.set 0 s1.tb.drift die (SMap.get 0 s1.tb.drift die + wander), sync := SMap.set 0 s1.tb.sync die (s1.tb.count + 1)
        slew := die.val :: s1.tb.slew.filter (fun (k : Nat) => k != die.val) } } : State)
      (o.natAbs ≤ 1 → exec (.timebaseSyncMessage die wander) s = .next s2) ∧
      (1 < o.natAbs →
        let s3 := s2.putDieBit F.tbStat_misaligned die true
        exec (.timebaseSyncMessage die wander) s =
          .next (if (s.get F.tbStat_misaligned []).testBit die then s3
            else s3.logEv (if die.val < 4 then die.val else die.val + 5) 9 0 0x0203 1 (leBytes 1 die.val ++ leBytes 8 (ofSigned 64 o))))) ∧
    (die.val ≠ 4 → exec (.timebaseFreeRun die) s = .next (s.putDieBit F.tbStat_free die true)) ∧
    (let t := s.now 8
     exec (.tbTimeLoRead src) s =
       .next ((if src.peeks then s else s.setReg .tbTimeHi [] (BitVec.ofNat 32 (t / 2 ^ 32))).answerWord src (BitVec.ofNat 32 t))) ∧
    (let s1 := s.writeReg .tbTickCtrl [n.val] w
     let was := s.flag F.tbTickCtrl_en [n.val]
     let now := s1.flag F.tbTickCtrl_en [n.val]
     let s0 := ({ s1 with tb := { s1.tb with period := SMap.set 0 s1.tb.period n 0, anchor := SMap.set 0 s1.tb.anchor n 0 } } : State).put
       F.tbTickCtrl_pending [n.val] 0
     let s2 := ({ s0 with tb := { s0.tb with since := SMap.set 0 s0.tb.since n s0.tb.count } } : State)
     s.regWaits .tbTickCtrl = false →
     (was = now → exec (.tickEnable src n w) s = .next (s1.answer src .ok)) ∧
     (was = false → now = true → exec (.tickEnable src n w) s = .next ((s2.setReg .tbTickCount [n.val] 0#32).answer src .ok)) ∧
     (was = true → now = false → exec (.tickEnable src n w) s = .next (s2.answer src .ok))) ∧
    (let p := F.tbTickPeriod_period.of w
     s.regWaits .tbTickPeriod = false →
     (p < 64 ∨ 16777216 < p → exec (.tickPeriodWrite src n w) s = .next ((s.raise F.tbTickCtrl_badPeriod [n.val]).answer src .ok)) ∧
     (64 ≤ p → p ≤ 16777216 →
       (s.flag F.tbTickCtrl_en [n.val] = false →
         exec (.tickPeriodWrite src n w) s = .next ((s.put F.tbTickPeriod_period [n.val] p).answer src .ok)) ∧
       (s.flag F.tbTickCtrl_en [n.val] = true →
         exec (.tickPeriodWrite src n w) s =
           .next (((({ s with tb := { s.tb with period := SMap.set 0 s.tb.period n (s.periodOf n) } } : State).put
             F.tbTickPeriod_period [n.val] p).raise F.tbTickCtrl_pending [n.val]).answer src .ok)))) ∧
    (s.tickActs n = false → exec (.tick n) s = .next s) ∧
    (let fired := fun (u : State) => ((List.range 4).filterMap (fun d => (s.dieReached d n).map (fun c => (d, c)))).foldl
       (fun (t : State) e => t.dieFires e.1 n e.2) u
     (s.tickDue n = false → exec (.tick n) s = .next ((fired s).takeTicks n)) ∧
     (s.tickDue n = true → n ≠ 0 → exec (.tick n) s = .next ((fired ((s.tickFires n).monTick n)).takeTicks n)) ∧
     (s.tickDue n = true → n = 0 →
       exec (.tick n) s = .next ((fired ((s.tickFires 0).monTick 0).snapTick.modeEntryTick.windowTick).takeTicks 0)))

/-- POWER_ON, POWER_OFF (R542, R543), BANK_VCCO_CHANGE (R545), PIN_FAULT (R553). -/
def Obligations.PowerAndPins : Prop :=
  ∀ (s : State) (p : PowerOn) (hv : Bool) (bank : Fin 24) (good : Bool) (q : Fin 1216) (pad : Bool),
    (s.clk.phase ≠ .heldOff → exec (.powerOn p) s = .next s) ∧
    (s.clk.phase = .heldOff →
      ∃ t, exec (.powerOn p) s = .next t ∧ t.clk.phase = .waitRef ∧ t.clk.profile = p.profile ∧ t.pins.user = 1 ∧ t.pins.txIdle = true ∧
        t.pins.perst = true ∧ t.otp.made = true ∧ t.tb = s.tb ∧ t.wa = s.wa ∧ t.dram = s.dram ∧ t.pending = s.pending) ∧
    (s.clk.phase = .heldOff → exec .powerOff s = .next s) ∧
    (s.clk.phase ≠ .heldOff →
      ∃ t, exec .powerOff s = .next t ∧ t.clk.phase = .heldOff ∧ t.otp = s.otp ∧ t.log.flash = s.log.flash ∧
        t.load.flash = s.load.flash ∧ t.upd.commit = s.upd.commit ∧ t.upd.board = s.upd.board ∧ t.dram = State.reset.dram ∧
        t.wa = State.reset.wa ∧ t.tb = State.reset.tb ∧ t.pins = State.reset.pins ∧ t.outbox = s.outbox ∧ t.pending = s.pending) ∧
    (let f := if hv then F.glbBankpwrHv_good else F.glbBankpwrHp_good
     let old := s.get f []
     s.clk.phase ≠ .heldOff → (hv = true → bank.val < 14) →
       (old.testBit bank = good → exec (.bankVccoChange hv bank good) s = .next s) ∧
       (old.testBit bank ≠ good →
         exec (.bankVccoChange hv bank good) s =
           .next ((s.put f [] (Nat.xor old (2 ^ bank.val))).logEv (if hv then 8 else bank.val / 6) 0 0 0x0D02 2
             (leBytes 1 (b2n hv) ++ leBytes 1 bank.val ++ leBytes 1 (b2n good))))) ∧
    (s.padOut s.free q ≠ .drive (!pad) → exec (.pinFault q pad) s = .next s) ∧
    (s.padOut s.free q = .drive (!pad) →
      let k := q.val / 32
      let old := s.get F.glbPinflt_fault [k]
      let s1 := if old.testBit (q.val % 32) then s
        else (s.put F.glbPinflt_fault [k] (Nat.lor old (2 ^ (q.val % 32)))).logEv (if q.val < 768 then q.val / 192 else 8) 0 0 0x0D01 2
          (leBytes 2 q.val ++ leBytes 1 (b2n pad) ++ leBytes 1 (b2n (!pad)))
      exec (.pinFault q pad) s =
        .next (if s1.flag F.glbPinctrl_faultOff [] then { s1 with pins := { s1.pins with off := q.val :: s1.pins.off } } else s1))

/-- CROSSING_RECEIVE (R264, R266, R275), PROBE_ROTATION (R271), SPARE_TEST_DONE, TRANSIENT_PARITY_FAILURE (R272), HOLD_REQUEST,
PROBE_SUBSTITUTE, LIVE_SHIFT (R273). -/
def Obligations.CrossingSparing : Prop :=
  ∀ (s : State) (g : Fin 480) (dir : Fin 2) (rel : EdgeRel) (err : BitVec 152),
    let x := s.xgroup g dir
    let ix := [g.val, dir.val]
    let vs := s.visited g dir
    (s.groupRuns g dir = false → exec (.crossingReceive g dir err rel) s = .next s) ∧
    (let e := (s.enterEdge rel).draw
     let u := e.2.rotateProbe g dir
     let y := u.xgroup g dir
     let rx := u.arriving g dir 0#152
     s.groupRuns g dir = true → u.injected g dir = none → u.shiftDue g dir = none →
      (∀ b, b < 16 → (u.role g = 2 ∨ (u.role g = 1 ∧ y.registered b = true)) → laneParOk rx b = true) →
        exec (.crossingReceive g dir 0#152 rel) s =
          .next ((u.setXg g dir { y with
            count := (y.count + 1) % 2 ^ 32, tx := e.2.seen.txNext e.1 g dir, rx := u.delivered g dir rx, xerr := 0#16
            fails := y.fails.filter (fun (f : Nat × Nat) => decide ((y.count + 2 ^ 32 - f.2) % 2 ^ 32 < 9215)) }).syncSpares g dir)) ∧
    (let fresh := s.get F.glbXgstat_probe ix == 0xFF
     (s.hasProbe g dir = false ∨ x.test.isSome = true ∨ x.sub.isSome = true ∨ (x.count / 64 = x.turn ∧ fresh = false) →
       exec (.probeRotation g dir) s = .next s) ∧
     (s.hasProbe g dir = true → x.test = none → x.sub = none → (x.count / 64 ≠ x.turn ∨ fresh = true) →
       let opened := if fresh then x.open_ else x.open_.map (fun (e : Nat × Nat) => (e.1, e.2 + 1))
       exec (.probeRotation g dir) s =
         .next ((s.setXg g dir { x with turn := x.count / 64, open_ := opened }).put F.glbXgstat_probe ix
           (vs.getD (x.count / 64 % vs.length) 0)))) ∧
    (x.test = none → exec (.spareTestDone g dir) s = .next s) ∧
    (∀ k, x.test = some k →
      let s1 := s.setXg g dir { x with test := none }
      (reached x.count ((k.at_ + 4096) % 2 ^ 32) = false → exec (.spareTestDone g dir) s = .next s) ∧
      (reached x.count ((k.at_ + 4096) % 2 ^ 32) = true →
        (k.bad = false → exec (.spareTestDone g dir) s = .next (s1.judgeFailed g dir k.wire)) ∧
        (∀ wire, k.bad = true → s1.probeWire g dir = some wire →
          exec (.spareTestDone g dir) s =
            .next ((s1.put F.glbXgstat_spareBad ix (Nat.lor (s1.get F.glbXgstat_spareBad ix) (2 ^ (wire - 144)))).syncSpares g dir)))) ∧
    (let old := fun (e : Nat × Nat) => decide (2 * vs.length ≤ e.2)
     let s1 := s.setXg g dir { x with open_ := x.open_.filter (fun e => !old e) }
     exec (.transientParityFailure g dir) s =
       .next (if (x.open_.filter old).any (fun e => !(s.get F.glbXgcnt_lostLanes ix).testBit e.1)
         then s1.raise F.glbXgstat_transient ix else s1)) ∧
    (x.holds = [] → exec (.holdRequest g dir) s = .next s ∧ exec (.probeSubstitute g dir) s = .next s ∧
      exec (.liveShift g dir) s = .next s) ∧
    (∀ h t, x.holds = h :: t → s.role g = 1 →
      (h.asked = false →
        let now := s.now (sender (edgeOf g) dir)
        let tau := s.nextMoment (now + 8000)
        exec (.holdRequest g dir) s =
          .next ((s.setXg g dir { x with holds := { h with
            asked := true
            k1 := (x.count + s.edgesIn g dir 2000) % 2 ^ 32
            k := (x.count + s.edgesIn g dir (tau - now)) % 2 ^ 32
            tau := tau } :: t }).raise F.glbXgstat_pending ix)) ∧
      (h.asked = true →
        (s.hasProbe g dir = true → reached x.count h.k1 = true →
          let sig := s.signalOn g dir h.wire
          exec (.probeSubstitute g dir) s =
            .next ((s.setXg g dir { x with
              sub := some h.wire, test := none
              open_ := x.open_.filter (fun (e : Nat × Nat) => e.1 != laneOf sig) }).put F.glbXgstat_probe ix sig)) ∧
        (reached x.count h.k = false → exec (.liveShift g dir) s = .next s) ∧
        (s.freeSpares g dir ≠ [] → reached x.count h.k = true → h.tau ≤ s.now (sender (edgeOf g) dir) →
          let s1 := s.shiftGroup g dir h.wire
          exec (.liveShift g dir) s = .next (if x.count = h.k then s1 else s1.raise F.glbXgstat_late ix))))

/-- FLIT_RECEIVE (R278 to R282), FLIT_REPLAY (R280), PACKET_SHIFT (R281, R282), CROSSING_INJECT (R427), XGCNT_READ. -/
def Obligations.PacketLinks : Prop :=
  ∀ (s : State) (g : Fin 480) (dir : Fin 2) (flit : BitVec 768) (link : Fin 20) (seq : BitVec 12) (src : Src) (w : Word32),
    let x := s.xgroup g dir
    let l := 2 * edgeOf g + dir.val
    let n := flit.toNat
    let nak := fun (u : State) => u.launch (backLink l) 0#672 (u.link (backLink l)).next 1 true
    (s.packetWorks g = false → exec (.flitReceive g dir flit 0#16) s = .next s) ∧
    (s.packetWorks g = true →
      (flitCrcOk flit = false → x.crcRun < 15 →
        exec (.flitReceive g dir flit 0#16) s = .next (nak (s.setXg g dir { x with crcRun := x.crcRun + 1 }))) ∧
      (flitCrcOk flit = false → 15 ≤ x.crcRun →
        exec (.flitReceive g dir flit 0#16) s = .next ((nak (s.setXg g dir { x with crcRun := x.crcRun + 1 })).retireGroup g dir)) ∧
      (flitCrcOk flit = true → x.shift = none →
        let s1 := (s.setXg g dir { x with crcRun := 0 }).flitReturns l flit
        let y := s1.link l
        let q := bitsOf n 683 672
        (bitsOf n 713 712 ≠ 0 → exec (.flitReceive g dir flit 0#16) s = .next s1) ∧
        (bitsOf n 713 712 = 0 →
          (q = y.expect →
            exec (.flitReceive g dir flit 0#16) s = .next ((s1.deliverFlit l (flit.extractLsb' 0 672)).deliverEarly l 512)) ∧
          (q ≠ y.expect → (q + 4096 - y.expect) % 4096 < 512 → y.early.any (fun (e : Nat × BitVec 672) => e.1 == q) = false →
            exec (.flitReceive g dir flit 0#16) s =
              .next (s1.setLink l { y with early := y.early ++ [(q, flit.extractLsb' 0 672)] })) ∧
          (q ≠ y.expect → 512 ≤ (q + 4096 - y.expect) % 4096 → exec (.flitReceive g dir flit 0#16) s = .next s1))) ∧
      (∀ a h t, flitCrcOk flit = true → x.shift = some a → x.holds = h :: t → (bitsOf n 683 672 + 4096 - a) % 4096 < 2048 →
        bitsOf n 713 712 ≠ 0 →
          exec (.flitReceive g dir flit 0#16) s =
            .next (((s.setXg g dir { x with crcRun := 0 }).shiftGroup g dir h.wire).flitReturns l flit))) ∧
    (let y := (s.link link).acked ((seq.toNat + 4095) % 4096)
     exec (.flitReplay link seq) s =
       .next ((y.replay.filter (fun (e : Nat × BitVec 672) => decide ((e.1 + 4096 - seq.toNat) % 4096 < 2048))).foldl
         (fun (u : State) (e : Nat × BitVec 672) => u.launch link e.2 e.1 0 false) (s.setLink link y))) ∧
    (∀ h t, x.holds = h :: t → s.role g = 2 →
      (s.freeSpares g dir = [] →
        exec (.packetShift g dir seq) s =
          .next (((s.setXg g dir { x with holds := [], shift := none }).put F.glbXgstat_pending [g.val, dir.val] 0).retireGroup g dir)) ∧
      (s.freeSpares g dir ≠ [] →
        exec (.packetShift g dir seq) s =
          .next ((s.setXg g dir { x with shift := some seq.toNat }).raise F.glbXgstat_pending [g.val, dir.val]))) ∧
    (s.regWaits .glbXinj = false →
      exec (.crossingInject src w) s = .next ((s.writeReg .glbXinj [] (w ||| 0x80000000#32)).answer src .ok)) ∧
    exec (.xgcntRead src g dir) s =
      .next ((if src.peeks then s else s.put F.glbXgcnt_parErrs [g.val, dir.val] 0).answerWord src (s.readReg .glbXgcnt [g.val, dir.val]))

/-- NOC_REQUEST_INJECT (R356, R357, R362, R372), RESPONSE_ARRIVAL (R363, R366, R367), MASTER_TIMEOUT, TAG_RELEASE (R363), TARGET_TIMEOUT
(R364). -/
def Obligations.NocTransactions : Prop :=
  ∀ (s : State) (r : Req) (panic : Bool) (code : Fin 8) (stamp : BitVec 16) (data : List Byte) (core : Fin 4) (x : TagSt),
    let m := r.src.master
    let now := s.now (masterDie m)
    let expired := x.start + 1000 * x.tmo ≤ now
    let leaves := (s.runs 5 = true ∧ s.noc.drain = false) ∨ ((m = 58 ∨ m = 60 ∨ m = 61) ∧ hubBlock r.addr.toNat = true)
    let sent := fun (v : State) (q : Req) => v.emit (.req q false)
    let held := fun (v : State) (q : Req) => { v with noc := { v.noc with held := v.noc.held ++ [q] } }
    let tagged := s.setTag m r.tag ⟨now / 16 % 65536, now, s.get F.nocMcfg_tmoUs [m.val], r.write, r.cls, false⟩
    let stamped := { r with stamp := BitVec.ofNat 16 (now / 16 % 65536), src := { r.src with peek := r.src.peeks } }
    (((s.pwr.stopIssue = true ∧ m.val < 56) ∨ (s.tag m r.tag).isSome = true ∨ s.tagLimit m ≤ s.tagsUsed m) →
      exec (.nocRequestInject r panic) s = .next s) ∧
    (s.pwr.stopIssue = false ∨ 56 ≤ m.val → s.tag m r.tag = none → s.tagsUsed m < s.tagLimit m →
      (48 ≤ m.val → leaves → s.flag F.eccPinj_arm [] = false →
        exec (.nocRequestInject r panic) s = .next (sent tagged stamped)) ∧
      (48 ≤ m.val → ¬ leaves → exec (.nocRequestInject r panic) s = .next (held tagged stamped)) ∧
      (m.val < 48 → exec (.nocRequestInject r panic) s = .next ((s.setPanic m (panic && r.cls.val == 0)).inject r))) ∧
    (s.tag m r.tag = none →
      exec (.responseArrival r code stamp data [] ) s = .next (s.countUp F.nocMstat_late [m.val]) ∧
      exec (.masterTimeout m core r.tag) s = .next s ∧ exec (.tagRelease m r.tag) s = .next s) ∧
    (s.tag m r.tag = some x →
      (x.out = true ∨ x.stamp ≠ stamp.toNat →
        exec (.responseArrival r code stamp data []) s = .next (s.countUp F.nocMstat_late [m.val])) ∧
      (x.out = false → x.stamp = stamp.toNat →
        (code = 6 → repeats m = true →
          (leaves → s.flag F.eccPinj_arm [] = false →
            exec (.responseArrival r code stamp data []) s = .next (sent s { r with stamp := stamp })) ∧
          (¬ leaves → exec (.responseArrival r code stamp data []) s = .next (held s { r with stamp := stamp }))) ∧
        (code ≠ 6 →
          exec (.responseArrival r code stamp data []) s =
            .next (((s.histLatency m x.write (now - x.start)).freeTag m r.tag).deliverResp { r with write := x.write } (respOf code)
              data []))) ∧
      (x.out = false → expired →
        let v := (s.setTag m r.tag { x with out := true, start := now }).countUp F.nocMstat_tmos [m.val]
        exec (.masterTimeout m core r.tag) s =
          .next (({ v with noc := { v.noc with
              held := v.noc.held.filter (fun (q : Req) => q.src.master != m || q.tag != r.tag) } } : State).deliverResp
            { hostReq m 0 0 x.write 0 1 [] with src := ⟨m, core, false, false⟩, tag := r.tag } .terr [] [])) ∧
      (x.out = true → expired → exec (.tagRelease m r.tag) s = .next (s.freeTag m r.tag)) ∧
      (¬ expired → exec (.masterTimeout m core r.tag) s = .next s ∧ exec (.tagRelease m r.tag) s = .next s) ∧
      (x.out = false → x.stamp = r.stamp.toNat → ¬ expired → exec (.targetTimeout r) s = .next s)) ∧
    (s.tag m r.tag = none ∨ (s.tag m r.tag = some x ∧ expired) → s.heldPubs.any (fun (h : HeldPub) => h.req == r) = true →
      exec (.targetTimeout r) s =
        .next (({ s with heldPubs := s.heldPubs.filter (fun (h : HeldPub) => h.req != r) } : State).emit (.flit r .terr [] [])))

/-- ROUTER_FORWARD (R356, R357, R368), ROUTE_DRAIN_START, ROUTE_SWITCH (R356), TRACE_CLEAR, PROBE_COUNT_READ (R373),
HISTOGRAM_CLEAR, HISTOGRAM_LEVEL_SAMPLE (R374), NOC_MSTAT_READ. -/
def Obligations.NocRouting : Prop :=
  ∀ (s : State) (r : Fin 116) (port : Fin 8) (x : RouterFlit) (arr : Option RouterFlit) (credit : BitVec 8) (f g : WaitFlit)
    (src : Src) (k : Fin 4) (h : Fin 16) (w : Word32) (m : Fin 64) (v : Nat),
    let n := x.hdr.toNat
    let site := routerDie r
    let a := s.arbiter r port
    let drop := fun (u : State) => u.logEv site 5 r 0x0502 3 (leBytes 1 r.val ++ leBytes 1 ((s.outPort r n).getD 4))
    let idle := fun (u : State) => (u.setArbiter r port { a with hist := (false :: a.hist).take 31 }).setWaiting r port []
    let go := fun (o : Option RouterFlit) => exec (.routerForward r port o credit) s
    (s.runs 5 = false → go arr = .next s) ∧
    (s.runs 5 = true → s.flag F.nocPrbCtrl_en [r.val] = false → s.waitingAt r port = [] → port ≠ 6 →
      go none = .next (idle s) ∧
      (headerPar n ≠ x.par.toNat → go (some x) = .next (idle (drop (s.bucket (nocBucket site))))) ∧
      (headerPar n = x.par.toNat →
        (4 ≤ bitsOf n 95 93 → go (some x) = .next (idle (drop s))) ∧
        (bitsOf n 95 93 < 4 →
          (s.outPort r n = none →
            let s1 := s.logEv site 5 r 0x0501 4 (leBytes 1 r.val ++ leBytes 1 (bitsOf n 89 84) ++ leBytes 6 (bitsOf n 73 32 * 64))
            go (some x) = .next (idle (if bitsOf n 95 93 < 2 then s1.emit (.flit (reqOf n x.data) .terr [] []) else s1))) ∧
          (∀ p, s.outPort r n = some p → p ≠ port.val →
            go (some x) = .next (idle (s.setWaiting r p (s.waitingAt r p ++ [⟨x, 0, none⟩]))))))) ∧
    (s.runs 5 = true → s.flag F.nocPrbCtrl_en [r.val] = false → s.waitingAt r port = [f] → f.link = none →
      let left := (s.setArbiter r port
        { hist := (false :: a.hist).take 31, last := SMap.set 7 a.last f.cls f.flit.input.val
          bulk := if f.cls = 1 then true else if f.cls = 3 then false else a.bulk }).setWaiting r port []
      let fn := f.flit.hdr.toNat
      (port ≠ 6 → credit.getLsbD (flitVc fn) = true →
        (port.val < 4 →
          go none = .next (left.arriveFlit (meshNext r port) { f.flit with input := Fin.ofNat 8 ((port.val + 2) % 4) } none)) ∧
        (4 ≤ port.val →
          go none = .next (left.emit (.bytes "flit"
            (leBytes 1 r ++ leBytes 12 fn ++ leBytes 2 f.flit.par.toNat ++ leBytes 64 f.flit.data.toNat ++
              leBytes 8 f.flit.dpar.toNat))))) ∧
      (port ≠ 6 → credit.getLsbD (flitVc fn) = false →
        go none = .next ((s.setArbiter r port { a with hist := (false :: a.hist).take 31 }).setWaiting r port
          [{ f with waited := f.waited + 1 }])) ∧
      (∀ l, port = 6 → s.edgeLink r fn = some l → s.linkTakes l (flitVc fn) = true →
        go none = .next (left.sendFlit l (f.flit.hdr ++ f.flit.dpar ++ f.flit.data)))) ∧
    (s.runs 5 = true → s.flag F.nocPrbCtrl_en [r.val] = false → s.waitingAt r port = [f, g] → 4 ≤ port.val → port ≠ 6 →
      f.link = none → g.link = none → f.cls ≠ 0 → g.cls = 0 →
      credit.getLsbD (flitVc f.flit.hdr.toNat) = true → credit.getLsbD (flitVc g.flit.hdr.toNat) = true →
        ∃ t, go none = .next t ∧
          t.waitingAt r port = if 24 ≤ (a.hist.take 31).countP (· == true) then [g] else [f]) ∧
    ((List.range 10).any (fun (j : Nat) => s.edgeLost j && !s.noc.lostEdges.contains j) = true →
      exec .routeDrainStart s = .next { s with noc := { s.noc with drain := true } }) ∧
    (s.noc.drain = true →
      exec .routeSwitch s =
        .next { s with noc := { s.noc with drain := false, lostEdges := (List.range 10).filter (fun (j : Nat) => s.edgeLost j) } }) ∧
    (s.noc.drain = false → exec .routeSwitch s = .next s) ∧
    (s.regWaits .nocPrbTstat = false → exec (.traceClear src r) s = .next ((s.setTrace r []).answer src .ok)) ∧
    exec (.probeCountRead src r k) s =
      .next ((if src.peeks then s else s.setReg .nocPrbCnt [r.val, k.val] 0#32).answerWord src (s.readReg .nocPrbCnt [r.val, k.val])) ∧
    (let s1 := s.writeReg .nocHistCfg [h.val] (w ||| 0x20000000#32)
     s.regWaits .nocHistCfg = false → exec (.histogramClear src h w) s = .next ((s1.histClear h).answer src .ok)) ∧
    (s.levelSource h v = none → exec (.histogramLevelSample h v) s = .next s) ∧
    (∀ u, s.levelSource h v = some u → exec (.histogramLevelSample h v) s = .next (s.histRecord h u)) ∧
    exec (.nocMstatRead src m) s =
      .next ((if src.peeks then s else s.setReg .nocMstat [m.val] 0#32).answerWord src
        (F.nocMstat_outst.put (s.readReg .nocMstat [m.val]) (s.tagsUsed m)))

/-- TLP_READ, TLP_WRITE (R459 to R462), BAR4_WRITE, TRANSLATION_ENABLE (R460), HOST_LINK_STATE_CHANGE (R456, R494). -/
def Obligations.HostAccesses : Prop :=
  ∀ (s : State) (bar : Fin 3) (off : BitVec 36) (len : Fin 4097) (data : List Byte) (src : Src) (n : Fin 16) (w : Word32)
    (up flit d3hot : Bool) (speed : Fin 7) (width : Fin 17) (link : Fin 3) (boff : BitVec 28),
    let o := off.toNat
    let take := fun (u : State) (t : HostTlp) => ({ u with lanes := { u.lanes with tlps := u.lanes.tlps ++ [t] } } : State).pumpTlps
    (s.hostReach = false → exec (.tlpRead bar off len) s = .next s ∧ exec (.tlpWrite bar off data) s = .next s) ∧
    (s.hostReach = true →
      (bar ≠ 2 →
        exec (.tlpRead bar off len) s =
          .next (take s ⟨false, bar == 1, false,
            (splitTlp 66 o len).map (fun (p : Nat × Nat) => s.hostPiece bar false p.1 p.2 [])⟩)) ∧
      exec (.tlpRead 2 off len) s =
        .next (take s ⟨false, false, false, [⟨hostReq 58 2 0 false 0 0 [], none, some (Resp.ok, List.replicate len 0#8)⟩]⟩) ∧
      (data.length ≤ 4096 →
        exec (.tlpWrite 2 off data) s = .next (s.bar4Write (o % 2 ^ 28) data) ∧
        (let ps := (splitTlp 66 o data.length).map (fun (p : Nat × Nat) => s.hostPiece 1 true p.1 p.2 (slice data (p.1 - o) p.2))
         ps.all (fun (p : HostPiece) => p.ans.isNone) = true →
           exec (.tlpWrite 1 off data) s = .next (take s ⟨true, true, s.flag F.pciTrCfg_strict [o / 2 ^ 32], ps⟩)))) ∧
    (s.hostLoading = false ∨ (s.load.bar4 = [] ∧ s.stagingFull data = false) →
      exec (.bar4Write boff data) s = .next (s.bar4Take boff.toNat data)) ∧
    (s.hostLoading = true → s.load.bar4 ≠ [] ∨ s.stagingFull data = true →
      exec (.bar4Write boff data) s = .next { s with load := { s.load with bar4 := s.load.bar4 ++ [(boff.toNat, data)] } }) ∧
    (mayWrite .pciTrCfg src = true → s.regWaits .pciTrCfg = false →
      exec (.translationEnable src n w) s = .next ((s.trWrite .pciTrCfg n (w ||| 0x80000000#32)).answer src .ok)) ∧
    (mayWrite .pciTrCfg src = false → exec (.translationEnable src n w) s = .next (s.answer src .serr)) ∧
    (s.flag F.pciStat_hlDis [] = false → s.pins.perst = false → s.runs 10 = true →
      let shown := fun (sp wd : Nat) =>
        (((s.put F.pciStat_dlUp [] (b2n up)).put F.pciStat_flit [] (b2n (up && flit))).put F.pciStat_speed [] sp).put F.pciStat_width [] wd
      let s1 := if up then shown speed (min width.val (linkWidth (s.get F.pciStat_laneBad []))) else shown 0 0
      let s2 := ({ s1 with lanes := { s1.lanes with linkState := link, d3hot := d3hot } } : State)
      exec (.hostLinkStateChange up flit speed width link d3hot) s = .next (if up then s2.mbxFlush else s2))

/-- LANE_ENABLE, LOOPBACK_SELECT, LANE_SETTING_WRITE (R440, R441, R454, R455), LANE_PIN_CHECK_DONE (R449), RX_LOCK (R448, R450),
LOSS_OF_LOCK, LOCK_LOSS_TIMEOUT (R453). -/
def Obligations.LaneBringUp : Prop :=
  ∀ (s : State) (src : Src) (l : Fin 40) (w ps : Word32) (fault : Fin 5),
    let w1 := w ||| 0x80000000#32
    let legal := fun (v : Word32) => laneLegal (F.lnLaneCfg_mode.of v) (s.get F.lnLaneRate_kbd [l.val]) (F.lnLaneCfg_width.of v)
    let held := s.regWaits .lnLaneCfg
    let refused := Host.Outcome.next ((s.raise F.lnLaneStat_cfgErr [l.val]).answer src .ok)
    let dark := fun (u : State) (g : LaneStage) => ((u.put F.lnLaneStat_lock [l.val] 0).setReg .lnLaneLat [l.val] 0#32).setStage l g
    (held = false → s.laneHeld l = true ∨ legal w1 = false → exec (.laneEnable src l w) s = refused) ∧
    (held = false → s.laneHeld l = true ∨ legal w = false →
      exec (.loopbackSelect src l w) s = refused ∧ exec (.laneSettingWrite src l false w) s = refused) ∧
    (held = false → s.laneHeld l = false → legal w1 = true → F.lnLaneCfg_en.of w1 = 1 → s.flag F.lnLaneCfg_en [l.val] = false →
      exec (.laneEnable src l w) s = .next (((s.writeReg .lnLaneCfg [l.val] w1).startLane l).answer src .ok)) ∧
    (held = false → s.laneHeld l = false → legal w = true →
      let s1 := s.writeReg .lnLaneCfg [l.val] w
      (F.lnLaneCfg_en.of w = 0 →
        exec (.laneSettingWrite src l false w) s = .next ((dark s1 .off).answer src .ok)) ∧
      (F.lnLaneCfg_en.of w = 1 → s.flag F.lnLaneCfg_en [l.val] = true → s1.flag F.lnLaneStat_retired [l.val] = false →
        F.lnLaneCfg_lb.of w ≠ s.get F.lnLaneCfg_lb [l.val] →
          exec (.loopbackSelect src l w) s = .next ((s1.startLane l).answer src .ok))) ∧
    (s.regWaits .lnLaneRate = false → s.laneHeld l = false → laneLegal (s.get F.lnLaneCfg_mode [l.val]) (F.lnLaneRate_kbd.of w) 0 = true →
      let s1 := s.writeReg .lnLaneRate [l.val] w
      s1.reg .lnLaneRate [l.val] ≠ s.reg .lnLaneRate [l.val] → s1.flag F.lnLaneCfg_en [l.val] = true →
        s1.flag F.lnLaneStat_retired [l.val] = false →
          exec (.laneSettingWrite src l true w) s =
            .next ((if s.stage l = .pins then (s1.put F.lnLaneStat_lock [l.val] 0).setReg .lnLaneLat [l.val] 0#32
              else dark s1 .adapt).answer src .ok)) ∧
    (s.stage l ≠ .pins → exec (.lanePinCheckDone l fault) s = .next s) ∧
    (s.stage l = .pins →
      exec (.lanePinCheckDone l 0) s = .next (s.setStage l .adapt) ∧
      (fault ≠ 0 → exec (.lanePinCheckDone l fault) s = .next ((s.put F.lnLaneStat_pin [l.val] fault).retireLane l 0))) ∧
    (s.stage l = .adapt ∨ s.stage l = .lost →
      exec (.rxLock l ps) s = .next (((s.raise F.lnLaneStat_lock [l.val]).setReg .lnLaneLat [l.val] ps).setStage l .data)) ∧
    (s.stage l = .data → exec (.lossOfLock l) s = .next (dark s .lost)) ∧
    (s.stage l ≠ .data → exec (.lossOfLock l) s = .next s) ∧
    (s.stage l = .lost ∨ s.stage l = .adapt → s.flag F.lnLaneStat_fbActive [l.val] = false →
      (s.flag F.lnLaneCfg_fbEn [l.val] = true → s.flag F.lnLaneStat_fbFail [l.val] = false →
        exec (.lockLossTimeout l) s = .next (s.fallBack l)) ∧
      (s.flag F.lnLaneCfg_fbEn [l.val] = false → exec (.lockLossTimeout l) s = .next (s.retireLane l 1)))

/-- FALL_BACK_REQUEST, FALL_BACK_DETECT, FALL_BACK_END (R451), FEC_CODEWORD_RECEIVE (R443, R453), LANE_WORD_RELEASE (R448),
FEC_COUNT_READ, ADAPTATION_EPOCH (R452). -/
def Obligations.LaneFallBackAndFec : Prop :=
  ∀ (s : State) (src : Src) (l : Fin 40) (g : Fin 10) (inv : BitVec 4) (rev : Bool) (words : List (List (Fin 4)))
    (wd : List (Fin 4)) (wrong : Nat),
    let begun := if s.flag F.lnLaneStat_fbActive [l.val] then s
      else ((s.linkOf l).filter (fun (k : Nat) => !s.flag F.lnLaneStat_retired [k] && s.flag F.lnLaneCfg_en [k])).foldl
        (fun (u : State) (k : Nat) => ((u.raise F.lnLaneStat_fbActive [k]).put F.lnLaneStat_lock [k] 0).setReg .lnLaneLat [k] 0#32) s
    (s.flag F.lnLaneCfg_en [l.val] = true → s.laneHeld l = false → exec (.fallBackRequest l) s = .next begun) ∧
    (s.flag F.lnLaneCfg_en [l.val] = false ∨ s.laneHeld l = true → exec (.fallBackRequest l) s = .next s) ∧
    exec (.fallBackDetect l) s = .next (if s.stage l = .data then begun else s) ∧
    (s.flag F.lnLaneStat_fbActive [l.val] = false → exec (.fallBackEnd l inv rev false) s = .next s) ∧
    (s.flag F.lnLaneStat_fbActive [l.val] = true → s.linkOf l = [l.val] →
      let back := (s.put F.lnLaneStat_fbActive [l.val] 0).setStage l .adapt
      let told := fun (u : State) (fail : Bool) =>
        (u.logEv (laneSite l) 10 l 0x0802 1 (leBytes 1 l.val ++ leBytes 1 inv.toNat ++ leBytes 1 0 ++ leBytes 1 (b2n fail))).interrupt .lanes
      exec (.fallBackEnd l inv false false) s = .next (told (back.put F.lnLaneStat_inv [l.val] (b2n (inv.getLsbD 0))) false) ∧
      exec (.fallBackEnd l inv false true) s = .next (told (back.raise F.lnLaneStat_fbFail [l.val]) true)) ∧
    (let gl := l.val / 4
     let k := (s.linkOf l).headD l
     let rest := s.lanes.fecErr.filter (fun (j : Nat) => j != k)
     let good := ({ s with lanes := { s.lanes with fecErr := rest } } : State)
     let bad := ({ s with lanes := { s.lanes with fecErr := k :: rest } } : State)
     let now := s.now (laneSite l)
     let times := (SMap.get [] s.lanes.fecBad gl).filter (fun (t : Nat) => now < t + 1000000000) ++ [now]
     let s1 := bad.countUp F.lnGrpFec_uncorr [gl]
     (s.flag F.lnGrpCfg_fec [gl] = false → exec (.fecCodewordReceive l wrong) s = .next s) ∧
     (s.flag F.lnGrpCfg_fec [gl] = true →
       exec (.fecCodewordReceive l 0) s = .next good ∧
       (0 < wrong → wrong ≤ 15 → exec (.fecCodewordReceive l wrong) s = .next (good.countUp F.lnGrpFec_corr [gl])) ∧
       (15 < wrong → times.length ≤ 1000 →
         exec (.fecCodewordReceive l wrong) s =
           .next { s1 with lanes := { s1.lanes with fecBad := SMap.set [] s1.lanes.fecBad gl times } }))) ∧
    (let far := s.flag F.lnGrpCfg_attach [l.val / 4] || (s.flag F.glbTarod_active [] && s.flag F.glbTarod_die [] == decide (20 ≤ l.val))
     let die := (if l.val < 20 then 0 else 1) + (if far then 2 else 0)
     let s1 := (((s.raise F.lnLaneStat_late [l.val]).bucket (crossBucket die)).logEv (laneSite l) 10 l 0x0803 2
       (leBytes 1 l.val ++ leBytes 4 words.length))
     exec (.laneWordRelease l true false [wd]) s = .next (s.sendWord l) ∧
     exec (.laneWordRelease l false false [wd]) s = .next (s.takeWord l (wd.map (fun (q : Fin 4) => q.val))) ∧
     exec (.laneWordRelease l true true words) s = .next s1 ∧
     exec (.laneWordRelease l false true words) s =
       .next { s1 with lanes := { s1.lanes with
         rx := SMap.insert s1.lanes.rx l { SMap.get default s1.lanes.rx l with valid := false, err := true } } }) ∧
    exec (.fecCountRead src g) s =
      .next ((if src.peeks then s else s.setReg .lnGrpFec [g.val] 0#32).answerWord src (s.readReg .lnGrpFec [g.val])) ∧
    (∀ c, s.upd.commit = some c → s.flag F.lnLaneStat_lock [l.val] = true →
      let slot := bitsOf c.slots 2 2
      let fw := SMap.set 0 s.upd.laneFw l.val slot
      let s1 := ({ s with upd := { s.upd with laneFw := fw } } : State)
      let rest := (List.range 40).any (fun (k : Nat) =>
        laneSite k == laneSite l && s.flag F.lnLaneStat_lock [k] && SMap.get 0 fw k != slot)
      SMap.get 0 s.upd.laneFw l.val ≠ slot →
        exec (.adaptationEpoch l) s = .next (if rest then s1 else s1.logEv (laneSite l) 10 0 0x0806 0 (leBytes 1 (laneSite l))))

/-- FLIP_FLOP_CLOCK_EDGE, ASYNCHRONOUS_SET_RESET (R222, R223, R227), GLOBAL_CLOCK_SWITCH (R224), MAC24_OPERATION (R249, R250). -/
def Obligations.FabricEdges : Prop :=
  ∀ (s : State) (d : Fin 4) (cl : Fin 131072) (half : Fin 2) (rel : EdgeRel) (hit : List (Fin 32)) (en oldRuns newRuns : Bool)
    (g : Fin 32) (clock : ClockSource) (blk : Fin 6144),
    let e := (s.enterEdge rel).draw
    let old := e.2.seen
    let ev := old.signals e.1
    let edge := exec (.flipFlopClockEdge d cl half rel hit) s
    let mac := exec (.mac24Operation d blk rel) s
    let comes := old.clockComes e.1 ev d (flaskOfCluster cl) (Config.halfClock (s.logicFrames d (flaskOfCluster cl)) d cl half)
    (comes = false → edge = .next s) ∧
    (comes = true →
      ∃ t, edge = .next t ∧ t.free = s.free + 1 ∧ { t with fab := s.fab, free := s.free } = s ∧
        (∀ i, i < 32 →
          let k := 16 * half.val + i / 2
          let b := i % 2
          let c := old.cellCfg d cl k
          let y := old.cellSig e.1 ev d cl k
          t.ff d cl k b =
            if hit.any (fun (h : Fin 32) => h.val == i) && !old.gsrAt d cl && old.gweAt d cl
            then (Config.freeValue 32 e.1 : BitVec 32).getLsbD i
            else if old.gsrAt d cl then c.init.getD b false
            else if !old.gweAt d cl then old.ff d cl k b
            else if c.srEn.getD b false && ev (.sink d cl (srSink half)) then c.srVal.getD b false
            else if c.ceEn.getD b false && !ev (.sink d cl (ceSink (k / 8))) then old.ff d cl k b
            else if b = 0 then c.dA y else c.dB y) ∧
        (∀ cl' k b, k < 32 → b < 2 → (cl' ≠ cl.val ∨ k / 16 ≠ half.val) → t.ff d cl' k b = s.ff d cl' k b)) ∧
    (old.clockComes e.1 ev d (flaskOfMac blk) (s.macCfg d blk).clock = false → mac = .next s) ∧
    (old.clockComes e.1 ev d (flaskOfMac blk) (s.macCfg d blk).clock = true →
      mac = .next (e.2.setMac d blk ((old.macBlock d blk).edge (s.macCfg d blk) (old.macIn ev d blk)))) ∧
    (let u := s.draw.2
     let obeyed := !u.gsrAt d cl && u.gweAt d cl && (u.clusterCfg d cl).async.getD half.val false && u.srLevel s.free d cl half
     (obeyed = false → exec (.asynchronousSetReset d cl half) s = .next u) ∧
     (obeyed = true →
       ∃ t, exec (.asynchronousSetReset d cl half) s = .next t ∧
         ∀ i b, i < 16 → b < 2 → t.ff d cl (16 * half + i) b =
           if (s.cellCfg d cl (16 * half + i)).srEn.getD b false then (s.cellCfg d cl (16 * half + i)).srVal.getD b false
           else s.ff d cl (16 * half + i) b)) ∧
    (let x := s.gclock d g
     let ready := (x.src.all (fun (o : ClockSource) => s.sourceRuns d o oldRuns)) && s.sourceRuns d clock newRuns
     ∃ t, exec (.globalClockSwitch d g clock en oldRuns newRuns) s = .next t ∧
       { t with fab := { t.fab with gclk := s.fab.gclk } } = s ∧
       (ready = true → t.gclock d g = ⟨some clock, en, newRuns, none⟩) ∧
       (ready = false →
         t.gclock d g = { x with ext := oldRuns, want := some (clock, en, newRuns) } ∧ t.netRuns d g = false))

/-- BRAM_WRITE, BRAM_READ (R233 to R241), BRAM_SCRUB_STEP (R244), BRAM_RAW_WRITE, BRAM_RAW_READ, BRAM_CHECKED_READ (R245, R246). -/
def Obligations.BlockRam : Prop :=
  ∀ (s : State) (d : Fin 4) (blk : Fin 2560) (port : Fin 2) (rel : EdgeRel) (src : Src),
    let e := (s.enterEdge rel).draw
    let u := ({ e.2 with free := e.2.free + 2 } : State)
    let old := e.2.seen
    let ev := old.signals e.1
    let p := bramPins ev d blk port
    let c := s.bramCfg d blk
    let w := (c.place port p.addr).1
    let l0 := (c.place port p.addr).2
    let x := (old.bramPort d blk port).clockOut p.regCe p.regRst
    let other := (u.access d blk (1 - port.val)).filter (fun (a : BramAccess) => a.word == w)
    let lanes := c.lanes port p
    let new := c.stores port p
    let stored := fun (won : BitVec 8) =>
      (if u.gweIn d (flaskOfBram blk) then u.setBramWord d blk w (c.merged (u.bramWord d blk w) new won) else u).noteAccess d blk port
        ⟨w, false, lanes, new⟩
    let shows := fun (v : State) (word : BitVec 72) =>
      let r := v.bramDeliver d blk port w l0 (c.width port) word
      r.2.setBramPort d blk port { x with rd := r.1 }
    let wr := exec (.bramWrite d blk port rel) s
    let rd := exec (.bramRead d blk port rel) s
    let y := SMap.get default s.fab.scrubs (bramKey d blk)
    let s0 := s.draw.2
    let scrub := fun (t : State) (z : ScrubSt) =>
      Host.Outcome.next ({ t with fab := { t.fab with scrubs := SMap.set default t.fab.scrubs (bramKey d blk) z } } : State)
    (old.bramReached e.1 ev d blk port = false → wr = .next s ∧ rd = .next s) ∧
    (old.bramReached e.1 ev d blk port = true →
      (p.writes = true → rd = .next s) ∧ (p.writes = false → wr = .next s) ∧
      (p.en = false → rd = .next (u.setBramPort d blk port x)) ∧
      (p.en = true → p.we = 0#8 → other = none →
        rd = .next ((shows u (old.bramWord d blk w)).noteAccess d blk port ⟨w, true, 0#8, 0#72⟩)) ∧
      (p.en = true → p.we ≠ 0#8 → other = none →
        (c.rdw.getD port.val 0 = 0 → wr = .next (shows (stored lanes) (c.merged (old.bramWord d blk w) new lanes))) ∧
        (c.rdw.getD port.val 0 = 1 → wr = .next (shows (stored lanes) (old.bramWord d blk w))) ∧
        (2 ≤ c.rdw.getD port.val 0 → wr = .next ((stored lanes).setBramPort d blk port x))) ∧
      (∀ a, p.en = true → p.we ≠ 0#8 → other = some a → sameClock (c.clock.getD 0 .zero) (c.clock.getD 1 .zero) = true →
        2 ≤ c.rdw.getD port.val 0 →
          wr = .next ((stored (if port = 0 then lanes else lanes &&& ~~~a.wrote)).setBramPort d blk port x))) ∧
    (c.secded = false ∨ c.scrub = false → ∀ b a, exec (.bramScrubStep d blk b a) s = .next s) ∧
    (c.secded = true → c.scrub = true → s0.bramReached s.free (s0.signals s.free) d blk 1 = true →
      (∀ v b a, dec72 (s.bramWord d blk y.pos) = .clean v →
        exec (.bramScrubStep d blk b a) s = scrub s0 ⟨(y.pos + 1) % 1024, false⟩) ∧
      (∀ v, dec72 (s.bramWord d blk y.pos) = .fixed v → y.counted = false →
        let s1 := s0.bucket (16 * d + 4) (bramLoc blk y.pos)
        exec (.bramScrubStep d blk false false) s =
          scrub (s1.setBramWord d blk y.pos (enc72 v)) ⟨(y.pos + 1) % 1024, false⟩ ∧
        exec (.bramScrubStep d blk true false) s = scrub s1 { y with counted := true })) ∧
    (let sb := s.flag F.eccBrcmd_sbit []
     let db := s.flag F.eccBrcmd_dbit []
     let bd := s.get F.eccBrsel_die []
     let bb := s.get F.eccBrsel_block []
     let bw := s.get F.eccBraddr_word []
     let v := s.bramWord bd bb bw
     s.regWaits .eccBrcmd = false →
     (∀ k, s.brRefuse = some k →
       exec (.bramRawWrite src) s = .next ((s.brDone k sb db).answer src .ok) ∧
       exec (.bramRawRead src) s = .next ((s.brDone k sb db).answer src .ok) ∧
       exec (.bramCheckedRead src) s = .next ((s.brDone k sb db).answer src .ok)) ∧
     (s.brRefuse = none →
       exec (.bramRawWrite src) s =
         .next (((s.setBramWord bd bb bw (BitVec.ofNat 72
           (s.pair .eccBrdataLo .eccBrdataHi [] + 2 ^ 64 * s.get F.eccBrchk_chk []))).brDone .ok sb db).answer src .ok) ∧
       exec (.bramRawRead src) s =
         .next ((((s.brData v.toNat).put F.eccBrchk_chk [] (v.toNat / 2 ^ 64)).brDone .ok sb db).answer src .ok) ∧
       (let r := s.bramDeliver bd bb 0 bw 0 8 v
        let s2 := r.2.brData r.1.data.toNat
        exec (.bramCheckedRead src) s =
          .next (((if (s.bramCfg bd bb).secded then s2 else s2.put F.eccBrchk_chk [] r.1.perr.toNat).brDone .ok r.1.sbit r.1.dbit).answer
            src .ok))))

/-- SEQUENCER_RAISE_START, SEQUENCER_FREQUENCY_SWITCH, SEQUENCER_STEP_COMPLETE (R474, R475), CAP_WRITE (R478), SENSOR_SAMPLE (R469, R482),
TRIP_RELEASE (R483), GOVERNOR_WINDOW_END (R476), AGEING_MEASUREMENT (R484). -/
def Obligations.PowerSequencing : Prop :=
  ∀ (s : State) (src : Src) (w avg : Word32) (p : SeqStep) (rest : List SeqStep) (n : Fin 12) (temps : List (BitVec 12)) (doms : List Nat)
    (ppm : Nat),
    (s.pwr.plan = [] → exec .sequencerRaiseStart s = .next s ∧ exec .sequencerFrequencySwitch s = .next s) ∧
    (s.pwr.plan = p :: rest → s.clocked = true →
      (p.raising = true → s.pwr.stage = 0 → s.anchor true ≤ s.tb.count + 20000 →
        let s1 := s.raise F.pwrStat_busy []
        exec .sequencerRaiseStart s = .next { s1 with pwr := { s1.pwr with stage := 1, planAt := s.tb.count } }) ∧
      (s.nextMoment s.tb.count = s.tb.count →
        (p.raising = true → s.pwr.stage = 1 → s.anchor true ≤ s.tb.count →
          let s1 := (s.switchLevels p).put F.pwrStat_busy [] 0
          exec .sequencerFrequencySwitch s =
            .next { s1 with pwr := { s1.pwr with stage := 0, plan := rest, clearedAt := s.tb.count } }) ∧
        (p.raising = false → s.pwr.stage = 0 → s.anchor false ≤ s.tb.count →
          let s1 := (s.switchLevels p).raise F.pwrStat_busy []
          exec .sequencerFrequencySwitch s = .next { s1 with pwr := { s1.pwr with stage := 2, planAt := s.tb.count } })) ∧
      (s.pwr.stage = 2 →
        let s1 := s.put F.pwrStat_busy [] 0
        exec .sequencerStepComplete s =
          .next { s1 with pwr := { s1.pwr with stage := 0, plan := rest, clearedAt := s.tb.count } })) ∧
    (mayWrite .pwrCap src = true → s.regWaits .pwrCap = false →
      exec (.capWrite src w) s =
        .next ((s.put F.pwrCap_capW [] (min (s.get F.pwrFuse_ceilW []) (max 40 (F.pwrCap_capW.of w)))).answer src .ok)) ∧
    (mayWrite .pwrCap src = false → exec (.capWrite src w) s = .next (s.answer src .serr)) ∧
    (let top := (temps.map BitVec.toNat).foldl max 0
     let at_ := (temps.findIdx? (fun (t : BitVec 12) => t.toNat == top)).getD 0
     let s1 := s.put F.pwrSens_temp [n.val] top
     let s2 := (s1.trip true).powerLog 0x0901 4 (leBytes 1 n.val ++ leBytes 1 at_ ++ leBytes 2 top)
     let calm := fun (u : State) => ({ u with pwr := { u.pwr with warned := u.pwr.warned.filter (fun (k : Nat) => k != n.val) } } : State)
     n.val ∈ sensorSites → temps ≠ [] →
       (top < 1392 → top < s1.get F.pwrTrip_warn [] → exec (.sensorSample n temps) s = .next (calm s1)) ∧
       (1392 ≤ top → (s1.flag F.pwrTrip_active [] && s1.flag F.pwrTrip_therm []) = false → top < s2.get F.pwrTrip_warn [] →
         exec (.sensorSample n temps) s = .next (calm s2)) ∧
       (1392 ≤ top → (s1.flag F.pwrTrip_active [] && s1.flag F.pwrTrip_therm []) = false → s2.get F.pwrTrip_warn [] ≤ top → n.val ∈ s2.pwr.warned →
         exec (.sensorSample n temps) s = .next s2)) ∧
    (let w1 := w ||| 0x20000000#32
     let s1 := s.writeReg .pwrTrip [] w1
     mayWrite .pwrTrip src = true → s.regWaits .pwrTrip = false → src.requester = 1 ∨ src.requester = 10 →
       (1312 ≤ s1.hottest → exec (.tripRelease src w) s = .next ((s1.raise F.pwrTrip_early []).answer src .ok)) ∧
       (s1.hottest < 1312 → s1.flag F.pwrTrip_active [] = true →
         let s2 := (s1.put F.pwrTrip_active [] 0).put F.pwrTrip_therm [] 0
         let s3 := { s2 with pins := { s2.pins with safe := s2.clk.phase != ClkPhase.running, txIdle := false, therm := false }
                             pwr := { s2.pwr with stopIssue := s2.pwr.entry == 2 } }
         exec (.tripRelease src w) s =
           .next ((s3.lanesRestart.powerLog 0x0903 0 (leBytes 1 (s1.get F.pwrTrip_therm []) ++ leBytes 2 s3.hottest)).answer
             src .ok))) ∧
    (s.clocked = false ∨ s.pwr.winOver = false → exec (.governorWindowEnd avg doms) s = .next s) ∧
    (let s0 := ({ s with pwr := { s.pwr with winOver := false } } : State)
     let s1 := s0.setReg .pwrMeas [] avg
     let s2 := ({ s1 with pwr := { s1.pwr with above := 0, misses := s1.pwr.misses - 1 } } : State)
     s.clocked = true → s.pwr.winOver = true → 100 * avg.toNat ≤ 105 * (1000 * s.get F.pwrFuse_ceilW []) →
      (95 * (1000 * s.get F.pwrCap_capW []) < 100 * avg.toNat → avg.toNat ≤ 1000 * s.get F.pwrCap_capW [] →
         exec (.governorWindowEnd avg doms) s = .next { s2 with pwr := { s2.pwr with below := 0 } }) ∧
      (100 * avg.toNat ≤ 95 * (1000 * s.get F.pwrCap_capW []) → s.pwr.below < 9 →
         exec (.governorWindowEnd avg doms) s = .next { s2 with pwr := { s2.pwr with below := s.pwr.below + 1 } })) ∧
    (∀ k, s.railMv k ≤ s.get F.pwrFuse_vmaxMv []) ∧
    (s.pwr.mcRuns = false → exec (.ageingMeasurement n ppm) s = .next s) ∧
    (s.pwr.mcRuns = true → n.val ∈ sensorSites →
      exec (.ageingMeasurement n ppm) s =
        .next ((dieDomains n).foldl (fun (u : State) (k : Nat) => (List.range 8).foldl (fun (v : State) (t : Nat) => v.raiseMargin k ppm t) u)
          (s.put F.pwrSens_agePpm [n.val] (min 65535 ppm))).fixLevels)

/-- SLEEP_REQUEST, DEEP_SLEEP_REQUEST, RUN_REQUEST, TAG_DRAIN_COMPLETE (R479 to R481), and the SMBus commands (R468). -/
def Obligations.PowerModesAndSmbus : Prop :=
  ∀ (s : State) (src : Src) (code : BitVec 8) (reply : Option (List Byte)) (d : List Byte),
    let asked := fun (w : Word32) => s.writeReg .pwrMode [] w
    let enter := fun (u : State) (m : Nat) =>
      ({ u with pwr := { u.pwr with request := m, entry := if u.pwr.entry = 0 then 1 else u.pwr.entry } } : State)
    (mayWrite .pwrMode src = false →
      exec (.sleepRequest src) s = .next (s.answer src .serr) ∧ exec (.deepSleepRequest src) s = .next (s.answer src .serr) ∧
        exec (.runRequest src) s = .next (s.answer src .serr)) ∧
    (mayWrite .pwrMode src = true → s.regWaits .pwrMode = false → s.mode ≠ 2 →
      ((asked 1#32).mode = 0 → exec (.sleepRequest src) s = .next ((enter (asked 1#32) 1).answer src .ok)) ∧
      ((asked 2#32).linkL0 = true →
        exec (.deepSleepRequest src) s = .next (((asked 2#32).raise F.pwrStat_refused []).answer src .ok)) ∧
      ((asked 2#32).linkL0 = false → (asked 2#32).mode < 2 →
        exec (.deepSleepRequest src) s = .next ((enter (asked 2#32) 2).answer src .ok)) ∧
      exec (.runRequest src) s = .next (((asked 0#32).wake 1).answer src .ok)) ∧
    (s.mode = 2 → src.requester = 1 → exec (.runRequest src) s = .next (s.answer src .serr)) ∧
    (s.pwr.entry ≠ 2 → exec .tagDrainComplete s = .next s) ∧
    (s.pwr.entry = 2 → s.noc.tags.all (fun (e : Nat × TagSt) => e.2.out) = true → s.pwr.plan = [] → s.pwr.request = 1 →
      let s1 := (s.put F.pwrStat_mode [] 1).cutPours
      let s2 := ({ s1 with pwr := { s1.pwr with entry := 0 } } : State)
      exec .tagDrainComplete s = .next (if s2.pwr.wakeAfter ≠ 0 then s2.wakeNow s2.pwr.wakeAfter else s2)) ∧
    (s.clk.phase = .heldOff →
      exec .smbusReadTemperature s = .next s ∧ exec .smbusReadPower s = .next s ∧ exec .smbusReadStatus s = .next s ∧
        exec .smbusWake s = .next s ∧ exec (.smbusFirmwareCommand code reply) s = .next s) ∧
    (s.clk.phase ≠ .heldOff →
      exec .smbusReadTemperature s = .next (s.emit (.bytes "SMBus" (leBytes 2 s.hottest))) ∧
      exec .smbusReadPower s = .next (s.emit (.bytes "SMBus" (leBytes 2 (s.get F.pwrMeas_mw [] / 10)))) ∧
      exec .smbusReadStatus s =
        .next (s.emit (.bytes "SMBus" (leBytes 1
          (64 * s.mode + 32 * s.get F.pwrTrip_active [] + 16 * s.get F.pwrTrip_therm [] + 8 * b2n s.pwr.mcRuns)))) ∧
      exec .smbusWake s = .next (s.wake 4) ∧
      (code.toNat ∉ [1, 2, 3, 16] →
        (s.pwr.mcRuns = true → exec (.smbusFirmwareCommand code (some d)) s = .next (s.emit (.bytes "SMBus" d))) ∧
        exec (.smbusFirmwareCommand code none) s = .next (s.emit (.bytes "SMBus NACK" []))))

/-- LOCK_READ, LOCK_RELEASE (R490), GO, TAKE, DONE, WITHDRAW (R492), FORCE (R565), MAILBOX_TIMEOUT (R495), LOG_SERVICE (R498). -/
def Obligations.Mailboxes : Prop :=
  ∀ (s : State) (src : Src) (c : Fin 32) (len : BitVec 5) (k : Fin 9),
    let n := src.requester
    let st := s.get F.mbxStat_state [c.val]
    let owner := s.get F.mbxStat_owner [c.val]
    let rcv := s.get F.mbxStat_rcv [c.val]
    let serr := Host.Outcome.next (s.answer src .serr)
    (s.mbxReach src c = false →
      exec (.lockRead src c) s = serr ∧ exec (.lockRelease src c) s = serr ∧ exec (.go src c len) s = serr ∧ exec (.take src c) s = serr ∧
        exec (.done src c len) s = serr ∧ exec (.withdraw src c) s = serr ∧ exec (.force src c) s = serr) ∧
    (s.mbxReach src c = true →
      (src.peeks = true → exec (.lockRead src c) s = .next (s.answerWord src (BitVec.ofNat 32 owner))) ∧
      (src.peeks = false → st = 0 →
        exec (.lockRead src c) s = .next (((s.mbxEnter c 1).put F.mbxStat_owner [c.val] n).answerWord src 0#32)) ∧
      (src.peeks = false → st ≠ 0 →
        exec (.lockRead src c) s = .next (s.answerWord src (BitVec.ofNat 32 (if owner = n then 0 else owner)))) ∧
      (s.regWaits .mbxLock = false → exec (.lockRelease src c) s =
        .next ((if st ≠ 0 ∧ st ≠ 3 ∧ owner = n then s.mbxFree c else s).answer src .ok)) ∧
      (s.regWaits .mbxCtrl = false →
       exec (.go src c len) s = (if st = 1 ∧ owner = n then .next ((s.mbxGo c len.toNat).answer src .ok) else serr) ∧
       exec (.done src c len) s = (if st = 3 ∧ rcv = n then .next ((s.mbxDone c len.toNat).answer src .ok) else serr) ∧
       exec (.take src c) s = (if st = 2 ∧ rcv = n then .next ((s.mbxEnter c 3).answer src .ok) else serr) ∧
       exec (.withdraw src c) s = (if st = 2 ∧ owner = n then .next ((s.mbxEnter c 1).answer src .ok) else serr)) ∧
      (mayWrite .mbxCfg src = true → s.regWaits .mbxCfg = false →
        exec (.force src c) s = .next ((s.mbxCfgWrite c (s.reg .mbxCfg [c.val] ||| 0x80000000#32)).answer src .ok))) ∧
    (s.mbxExpired c = false → exec (.mailboxTimeout c) s = .next s) ∧
    (s.mbxExpired c = true →
      let s1 := (s.mbxEnter c 1).raise F.mbxStat_tmo [c.val]
      exec (.mailboxTimeout c) s = .next ((s1.mbxLog 0x0A01 c owner rcv).mbxToOwner c owner)) ∧
    (s.mcServes k = false → ∀ b, exec (.logService k b) s = .next s) ∧
    (s.mcServes k = true →
      (knownService k (s.mbxWord k 0) = false → ∀ b, exec (.logService k b) s = .next (s.mbxReply k 8 [0xFFFFFFFF])) ∧
      (k = 8 → s.mbxWord k 0 = 0x10001 →
        let q := s.mbxWord k 1
        (exec (.logService k true) s = .next (s.mbxReply k 10 ([2, q] ++ List.replicate 8 0))) ∧
        ((s.log.flash.filter (fun (e : Nat × List Byte) => e.1 == q)).getLast? = none →
          exec (.logService k false) s = .next (s.mbxReply k 10 ([1, q] ++ List.replicate 8 0))) ∧
        (∀ e, (s.log.flash.filter (fun (e : Nat × List Byte) => e.1 == q)).getLast? = some e →
          exec (.logService k false) s =
            .next (s.mbxReply k 10 ([0, q] ++ (List.range 8).map (fun (j : Nat) => leNat ((e.2.drop (4 * j)).take 4)))))))

/-- LOAD_PATTERN, LOAD_MASTER, HOST_START, LOAD_FLASK_FROM_MEMORY, ABORT_LOAD, UNLOAD (R298 to R301, R308, R309), HEADER_RECEIVED (R295),
LOAD_CLEAR_DONE (R308). -/
def Obligations.Loads : Prop :=
  ∀ (s : State) (src : Src) (p : Fin 4) (flash : Option FlashRead),
    let serr := Host.Outcome.next (s.answer src .serr)
    let err := Host.Outcome.next ((s.raise F.cfgStat_cmdErr []).answer src .ok)
    (mayWrite .cfgCmd src = false →
      exec (.loadPattern src p) s = serr ∧ exec (.loadMaster src) s = serr ∧ exec (.hostStart src) s = serr ∧
        exec (.abortLoad src) s = serr ∧ exec (.unload src) s = serr ∧ exec (.loadFlaskFromMemory src) s = serr) ∧
    (mayWrite .cfgCmd src = true → s.regWaits .cfgCmd = false →
      (s.loading = true ∨ s.flag F.glbWirechk_done [] = false →
        exec (.loadPattern src p) s = err ∧ exec (.loadMaster src) s = err ∧ exec (.hostStart src) s = err ∧
          exec (.loadFlaskFromMemory src) s = err) ∧
      (s.loading = false → s.flag F.glbWirechk_done [] = true →
        let s1 := s.wake 1
        exec (.loadMaster src) s = .next (s1.startMaster.answer src .ok) ∧
        (s.get F.cfgHdeadline_us [] ≠ 0 →
          let s2 := (s1.beginLoad 3 0 0).put F.cfgHpos_pos [] 0
          exec (.hostStart src) s =
            .next (({ s2 with load := { s2.load with deadline := s2.now 8 + 1000 * s2.get F.cfgHdeadline_us [] + 1 } } : State).answer
              src .ok)) ∧
        exec (.loadFlaskFromMemory src) s =
          .next ((s1.beginLoad 4 0 (s1.get F.cfgMaddrLo_addr [] * 512 + 2 ^ 32 * s1.get F.cfgMaddrHi_addr [])).answer src .ok) ∧
        (let s2 := s1.beginLoad 1 p 0
         ∀ d b, s2.get F.cfgStat_nflash [] ≠ 0 → s2.pickDir = some (d, b) → (dirEntry d p).2 ≠ 0 →
           let s3 := if b then s2.raise F.cfgStat_dirB [] else s2
           (dirEntry d p).1 + (dirEntry d p).2 ≤ s3.flashSize →
             exec (.loadPattern src p) s = .next (({ s3 with load := { s3.load with base := (dirEntry d p).1 } } : State).answer src .ok))) ∧
      (s.loading = false →
        (s.get F.cfgStat_loaded [] = 0 → exec (.abortLoad src) s = err ∧ exec (.unload src) s = err) ∧
        (s.get F.cfgStat_loaded [] ≠ 0 →
          exec (.unload src) s = .next (((s.clearDevice.recordError 0x13 0 0xF 0).endLoad 0 0).answer src .ok))) ∧
      (s.loading = true → s.load.stage ≠ .clearing →
        exec (.abortLoad src) s = .next ((s.failLoad 0x13 0xF 0 true).answer src .ok))) ∧
    (s.load.stage ≠ .header → s.load.stage ≠ .follower → exec (.headerReceived flash) s = .next s) ∧
    (s.load.stage = .header → s.load.src ≠ 3 → s.load.src ≠ 4 →
      flash.bind (s.flashBytes (s.load.base + s.imageBase) 512) = none →
        exec (.headerReceived flash) s = .next (s.failLoad 0x01 0xF 0)) ∧
    (s.load.stage = .header → s.load.src = 3 →
      let h := s.load.staging.take 512
      let b := s.load.staging.take (tableEnd h)
      let table := slice b 512 (32 * hChunks h)
      let ds := tableDigests table (hChunks h)
      let s3 := s.consume (tableEnd h)
      (s.load.staging.length < 512 → exec (.headerReceived flash) s = .next s) ∧
      (512 ≤ s.load.staging.length → headerForm h = false → exec (.headerReceived flash) s = .next (s.failLoad 0x03 0xF 0)) ∧
      (512 ≤ s.load.staging.length → headerForm h = true →
        (s.load.staging.length < tableEnd h → exec (.headerReceived flash) s = .next s) ∧
        (tableEnd h ≤ s.load.staging.length →
          (s.headerCode 3 h table false ≠ 0 → exec (.headerReceived flash) s = .next (s.failLoad (s.headerCode 3 h table false) 0xF 0)) ∧
          (s.headerCode 3 h table false = 0 →
            (hKind h ≠ 2 → exec (.headerReceived flash) s = .next (s3.acceptFull h ds)) ∧
            (hKind h = 2 →
              exec (.headerReceived flash) s =
                .next (match s3.storeDigests (imageNo h) ds with
                  | some s4 => s4.acceptFlask h ds
                  | none => s3.failLoad 0x0A 0xF 0)))))) ∧
    (s.load.stage ≠ .clearing → exec .loadClearDone s = .next s) ∧
    (s.load.stage = .clearing →
      (s.load.fallBack = true → exec .loadClearDone s = .next (s.setPhase 0).startMaster) ∧
      (s.load.fallBack = false → s.get F.cfgStat_lastErr [] = 0x13 → exec .loadClearDone s = .next (s.endLoad 0 0)) ∧
      (s.load.fallBack = false → s.get F.cfgStat_lastErr [] ≠ 0x13 → exec .loadClearDone s = .next s.allFailed))

/-- CHUNK_RECEIVED (R287, R45), FRAMES_RECORD, TILE_DATA_RECORD, REGISTER_SETTINGS_RECORD, CROSSING_TABLE_RECORD, PIN_TABLE_RECORD,
DIE_END_RECORD, END_OF_CHUNK_RECORD (R290 to R293). A record at the head of a chunk that is of the kind named and legal here acts. -/
def Obligations.ImageRecords : Prop :=
  ∀ (s : State) (r : Rec) (rest : List Byte) (flash : Option FlashRead),
    let h := s.load.hdr
    let i := s.load.chunk
    let n := chunkLen h i
    let settled := fun (u : State) => Host.Outcome.next u.settle
    let s1 := ({ s with load := { s.load with rest := rest } } : State)
    let writing := s.load.stage = .write ∧ s.load.inChunk = false ∧ i < hChunks h
    let far := (hDies h).find? (fun (d : Nat) => (dieRoute s.liveEdges 8 d).isNone)
    let b := s.load.staging.take n
    let t1 := s.consume n
    let t2 := ({ t1 with load := { t1.load with chunk := i + 1 } } : State)
    (s.load.stage ≠ .write ∨ s.load.inChunk = true ∨ hChunks h ≤ i → exec (.chunkReceived flash) s = .next s) ∧
    (∀ d, writing → far = some d → exec (.chunkReceived flash) s = .next (s.failBody 0x10 d)) ∧
    (writing → far = none → s.load.src ≠ 3 → s.load.src ≠ 4 →
      flash.bind (s.flashBytes (s.load.base + (s.imageBase + tableEnd h + 65536 * i)) n) = none →
        exec (.chunkReceived flash) s = .next (s.failLoad 0x01 0xF 0)) ∧
    (writing → far = none → s.load.src = 3 →
      (s.load.staging.length < n → exec (.chunkReceived flash) s = .next s) ∧
      (n ≤ s.load.staging.length →
        (sha256 b ≠ s.load.table.getD i 0#256 → exec (.chunkReceived flash) s = .next (t2.failBody 0x0B)) ∧
        (sha256 b = s.load.table.getD i 0#256 →
          exec (.chunkReceived flash) s =
            (match t2.payload h i b with
            | none => .next (t2.failBody 0x0D)
            | some p => settled { t2 with load := { t2.load with rest := p, inChunk := true } })))) ∧
    (s.load.inChunk = false →
      exec .framesRecord s = .next s ∧ exec .tileDataRecord s = .next s ∧ exec .registerSettingsRecord s = .next s ∧
        exec .crossingTableRecord s = .next s ∧ exec .pinTableRecord s = .next s ∧ exec .dieEndRecord s = .next s ∧
        exec .endOfChunkRecord s = .next s) ∧
    (s.load.inChunk = true → parseRec s.load.rest = some (r, rest) → s.recOk r = true →
      (r.kind = 1 →
        let fs := (List.range r.count).map (fun (j : Nat) => (r.addr + j, slice r.data (2048 * j) 2048))
        let u := (fs.foldl (fun (v : State) (e : Nat × List Byte) =>
          (v.setFrame r.die e.1 e.2).setSig r.die e.1 (enc53 ((crc32 e.2).toNat + 2 ^ 32 * (v.load.chunk - 1)))) s1).noteWrite r.die
        let v := ({ u with load := { u.load with
          frames := SMap.insert u.load.frames r.die (SMap.get 0 u.load.frames r.die + r.count) } } : State)
        let bad := (List.range 16).any (fun (k : Nat) =>
          fs.any (fun (e : Nat × List Byte) => flaskOfFrame e.1 == some k && !contentFrame e.1) && v.flaskIllegal r.die k)
        (bad = true → exec .framesRecord s = settled (v.failBody 0x0D r.die)) ∧
        (bad = false → exec .framesRecord s = settled v)) ∧
      (r.kind = 2 →
        exec .tileDataRecord s = settled (((List.range (r.count / 4)).foldl (fun (v : State) (j : Nat) =>
          v.tileUnit r.die (r.addr / 0x10000) (r.addr % 0x10000 + 4 * j) (slice r.data (4 * j) 4)) s1).noteWrite r.die)) ∧
      (r.kind = 3 →
        exec .registerSettingsRecord s = settled (((List.range r.count).foldl (fun (v : State) (j : Nat) =>
          v.imageSetting r.die (fieldAt r.data (8 * j) 4) (BitVec.ofNat 32 (fieldAt r.data (8 * j + 4) 4))) s1).noteWrite r.die)) ∧
      (r.kind = 4 →
        let working := (groupsOf r.die).filter (fun (g : Nat) => !(s1.flag F.glbXgstat_failed [g, 0] || s1.flag F.glbXgstat_failed [g, 1]))
        let need := fieldAt r.data 0 1 + s1.hubIo r.die r.data + fieldAt r.data 2 1
        let s2 := ({ s1 with load := { s1.load with edges := r.die :: s1.load.edges, tables := SMap.insert s1.load.tables r.die r.data } } : State)
        let s3 := s2.giveRoles r.die r.data working
        let lost := Nat.land (s3.get F.glbXstat_edgeLost []) (1023 - 2 ^ r.die)
        let s4 := (s3.put F.glbXstat_edgeLost [] lost).put F.glbXstat_lostAny [] (b2n (lost != 0))
        (s1.tableOk r.die r.data = false → exec .crossingTableRecord s = settled (s1.failBody 0x0D)) ∧
        (s1.tableOk r.die r.data = true →
          (working.length < need → exec .crossingTableRecord s = settled (s1.failBody 0x0F)) ∧
          (need ≤ working.length → s2.banksOk = false → exec .crossingTableRecord s = settled (s2.failBody 0x0D)) ∧
          (need ≤ working.length → s2.banksOk = true →
            exec .crossingTableRecord s = settled
              (match s4.relocate r.die 0 with
              | none => s4.failBody 0x0F
              | some v1 =>
                match v1.relocate r.die 1 with
                | none => v1.failBody 0x0F
                | some v2 => v2.freshRoutes)))) ∧
      (r.kind = 5 →
        let s2 := ({ s1 with load := { s1.load with gotPins := true, pinTable := r.data } } : State)
        let legal := (slice r.data 1216 14).all (fun (o : Byte) => o == 0#8 || o == 2#8 || o == 3#8)
        (legal = false → exec .pinTableRecord s = settled (s1.failBody 0x0D)) ∧
        (legal = true → exec .pinTableRecord s = settled (if s2.banksOk then s2 else s2.failBody 0x0D))) ∧
      (r.kind = 15 →
        exec .dieEndRecord s = settled { s1 with load := { s1.load with dieEnds := r.die :: s1.load.dieEnds } }) ∧
      (r.kind = 0 → i ≠ hChunks h →
        exec .endOfChunkRecord s = .next { s1 with load := { s1.load with inChunk := false, rest := [] } })) ∧
    (s.load.inChunk = true → s.load.rest.length < 16 → s.load.rest.all (fun (x : Byte) => x == 0#8) = true → i ≠ hChunks h →
      s.settle = { s with load := { s.load with inChunk := false, rest := [] } }) ∧
    (s.load.inChunk = true → s.load.rest.length < 16 → s.load.rest.all (fun (x : Byte) => x == 0#8) = false →
      s.settle = s.failBody 0x0D)

/-- CROSSING_TRAINING_DONE (R264), START_UP_SEQUENCE, STARTUP_GSR, STARTUP_IOEN, STARTUP_GWE, STARTUP_DONE (R306, R307, R318),
LEGACY_STARTUP_EVENT (R348), HOST_DEADLINE_EXPIRY (R301), WIRE_CHECK_DONE (R43, R46), PERST_N_ASSERT, PERST_N_RELEASE (R310, R457). -/
def Obligations.StartUpEvents : Prop :=
  ∀ (s : State) (e : Fin 3) (fails : List (Nat × Nat × List Nat)) (dir : FlashDir) (m : Nat),
    let l := s.load
    let f := hPlace l.hdr
    let at_ := s.now 8
    (l.stage ≠ .training → exec .crossingTrainingDone s = .next s) ∧
    (l.stage = .training →
      let s1 := (List.range 480).foldl (fun (u : State) (g : Nat) => if u.role g = 0 then u else (u.trainGroup g 0).trainGroup g 1) s
      exec .crossingTrainingDone s = .next { s1 with load := { s1.load with stage := .trained, step0 := s1.now 8 + 1 } }) ∧
    (l.stage ≠ .trained ∨ at_ % 1000 ≠ 0 ∨ at_ < l.step0 → exec .startUpSequence s = .next s) ∧
    (l.stage = .trained → at_ % 1000 = 0 → l.step0 ≤ at_ →
      let s1 := ({ s with load := { s.load with stage := .startup, step0 := at_, events := 0#4, deadline := 0 } } : State)
      (s.flaskLoad = true → exec .startUpSequence s = .next s1) ∧
      (s.flaskLoad = false → hFollower l.native = 0 →
        let s2 := (hMask l.native).foldl (fun (u : State) (d : Nat) =>
          (u.put F.pwrTl_floor [d] (min 7 (bitsOf (fieldAt l.native 0x12 1) 3 0))).put F.pwrTl_floor [4 + d]
            (min 7 (bitsOf (fieldAt l.native 0x12 1) 7 4))) (s1.setPhase 4)
        exec .startUpSequence s = .next ({ s2 with load := { s2.load with legacy := 0#4, legacySteps := [], tarod := 0 } } : State).fixLevels)) ∧
    (s.eventDue 0 = false → exec .startupGsr s = .next s) ∧ (s.eventDue 1 = false → exec .startupIoen s = .next s) ∧
    (s.eventDue 2 = false → exec .startupGwe s = .next s) ∧ (s.eventDue 3 = false → exec .startupDone s = .next s) ∧
    (s.flaskLoad = true →
      (s.eventDue 0 = true →
        let s2 := (s.eventActs 0).initFfs (inFlask f)
        let held := s2.fab.flaskHeld.filter (fun (k : Nat) => k != f)
        exec .startupGsr s = .next (({ s2 with fab := { s2.fab with flaskHeld := held } } : State).applySrs (inFlask f))) ∧
      (s.eventDue 1 = true → exec .startupIoen s = .next (((s.eventActs 1).put F.ftlFlask_iso [f] 0).lanesOfFlask (f / 16) (f % 16))) ∧
      (s.eventDue 2 = true →
        let s1 := s.eventActs 2
        let off := s1.fab.flaskOff.filter (fun (k : Nat) => k != f)
        exec .startupGwe s = .next (({ s1 with fab := { s1.fab with flaskOff := off } } : State).applySrs (inFlask f))) ∧
      (s.eventDue 3 = true →
        let s2 := ((s.eventActs 3).put F.ftlFlask_state [f] 2).put F.ftlFlask_enc [f] (b2n (hSlot l.hdr != 0))
        let s3 := (s2.countUp F.ftlFlask_loads [f]).logEv 8 4 0 0x0403 0 (leBytes 1 f)
        let s4 := ({ s3 with load := { s3.load with images := SMap.insert s3.load.images (16 + f) (s3.accepted (16 + f)) } } : State)
        exec .startupDone s = .next (s4.endLoad (s4.get F.cfgStat_phase []) (s4.get F.cfgStat_source [])))) ∧
    (s.flaskLoad = false →
      (s.eventDue 0 = true →
        let s1 := s.eventActs 0
        exec .startupGsr s =
          .next (({ s1 with fab := { s1.fab with gsrOff := hMask l.native ++ s1.fab.gsrOff } } : State).applySrs
            (fun (d _ : Nat) => (hMask l.native).contains d))) ∧
      (s.eventDue 1 = true →
        let s1 := s.eventActs 1
        exec .startupIoen s = .next (({ s1 with pins := { s1.pins with user := 2 } } : State).imageLanes false)) ∧
      (s.eventDue 2 = true →
        let s1 := s.eventActs 2
        let s3 := (hMask l.native).foldl State.releaseArray
          ({ s1 with fab := { s1.fab with gwe := hMask l.native ++ s1.fab.gwe } } : State)
        exec .startupGwe s = .next (s3.enableQueues.applySrs (fun (d _ : Nat) => (hMask l.native).contains d))) ∧
      (s.eventDue 3 = true → hFollower l.native = 0 →
        let s1 := s.eventActs 3
        let s2 := (hMask l.native).foldl (fun (u : State) (d : Nat) => u.dieRuns d l.native l.base) s1
        let s4 := ((s2.raise F.cfgStat_done []).put F.cfgStat_loaded [] (s1.setDies.foldl (fun (n d : Nat) => n + 2 ^ d) 0)).put
          F.cfgStat_onMaster [] (b2n (l.src == 2))
        let s5 := (s4.put F.cfgStat_errPin [] 0).startFettlers s1.setDies
        let s6 := s5.logEv 8 4 0 0x0401 0
          (leBytes 1 l.src ++ leBytes 1 (if l.src = 1 then l.pattern else 0) ++ leBytes 1 (fieldAt l.native 0xE 1 % 16))
        let images := (hMask l.native).foldl (fun (v : SMap (BitVec 256)) (d : Nat) => SMap.insert v d (s6.accepted d)) s6.load.images
        let s7 := ({ s6 with pins := { s6.pins with cfgDone := true, cfgErr := false }, load := { s6.load with images := images } } : State)
        exec .startupDone s = .next (((s7.endLoad 5 l.src).debugDomain l.native).boundaryEnds).fixLevels)) ∧
    (s.load.legacySteps[e.val]? = none → exec (.legacyStartupEvent e) s = .next s) ∧
    (s.load.legacySteps[e.val]? = some m → s.now 8 < m → exec (.legacyStartupEvent e) s = .next s) ∧
    (s.load.legacySteps[e.val]? = some m → m ≤ s.now 8 → s.load.legacy.getLsbD e = false → e = 1 →
      let done := s.load.legacy ||| 2#4
      let s1 := ({ s with load := { s.load with legacy := done } } : State).imageLanes true
      exec (.legacyStartupEvent e) s = .next (if done = 7#4 then s1.raise F.glbTarod_up [] else s1)) ∧
    (s.load.deadline ≠ 0 → s.load.deadline ≤ s.now 8 + 1 → s.hostLoading = true → s.load.stage ≠ .startup →
      exec .hostDeadlineExpiry s = .next (s.failLoad 0x11 0xF 0)) ∧
    (s.load.deadline = 0 ∨ s.now 8 + 1 < s.load.deadline ∨ s.hostLoading = false ∨ s.load.stage = .startup →
      exec .hostDeadlineExpiry s = .next s) ∧
    (s.clk.phase ≠ .running ∨ s.flag F.glbWirechk_done [] = true → exec (.wireCheckDone fails dir) s = .next s) ∧
    (s.clk.phase = .running → s.flag F.glbWirechk_done [] = false →
      let s1 := (List.range 480).foldl (fun (u : State) (g : Nat) => (u.syncSpares g 0).syncSpares g 1) s
      let s2 := (({ s1 with load := { s1.load with flash := dir } } : State).raise F.glbWirechk_done []).freshRoutes
      exec (.wireCheckDone [] dir) s = .next (s2.startPattern (s2.get F.cfgStat_profile []))) ∧
    (let s1 := if s.hostLoading then s.failLoad 0x13 0xF 0 else s
     let s2 := (s1.resetDomains (fun (x : Domain) => x == .host)).otpRegs
     exec .perstNAssert s = .next ((({ s2 with
       pins := { s2.pins with perst := true }
       lanes := { s2.lanes with linkState := 0, d3hot := false, tlps := [] } } : State).mbxReset 1).wake 3)) ∧
    (let s1 := ({ s with pins := { s.pins with perst := false } } : State)
     (s.flag F.pciStat_hlDis [] = true → exec .perstNRelease s = .next s1) ∧
     (s.flag F.pciStat_hlDis [] = false → exec .perstNRelease s = .next ((List.range 16).foldl State.startLane s1)))

/-- READBACK_LOCK_READ, READBACK_LOCK_RELEASE (R322), CAPTURE (R320), READ_CAPTURE_FRAME, READ_CONFIGURATION_FRAME, CANCEL_CAPTURE
(R321, R322), CAPTURE_TAKEN (R320). That only the host, the MC and debug take the lock is read from the owner codes (log entry 15);
a flip-flop within 100 ps of the edge gives a free value (log entry 10). -/
def Obligations.FlaskReadback : Prop :=
  ∀ (s : State) (src : Src) (flask : Fin 64) (net : Fin 32) (k frame : BitVec 16) (die : Fin 4) (near : List Nat) (c : CaptureCmd),
    let own := s.get F.ftlRblock_owner []
    let ok := fun (u : State) => Host.Outcome.next (u.answer src .ok)
    let refused := fun (u : State) => (u.put F.ftlRbcmd_busy [] 0).put F.ftlRbcmd_res [] 1
    let done := fun (u : State) => (u.put F.ftlRbcmd_busy [] 0).put F.ftlRbcmd_res [] 0
    (own ≠ 0 ∨ src.peeks = true ∨ src.requester ∉ [1, 10, 11] →
      exec (.readbackLockRead src) s = .next (s.answerWord src (BitVec.ofNat 32 own))) ∧
    (own = 0 → src.peeks = false → src.requester ∈ [1, 10, 11] →
      exec (.readbackLockRead src) s =
        .next ((s.put F.ftlRblock_owner [] src.requester).answerWord src (BitVec.ofNat 32 own))) ∧
    (s.regWaits .ftlRblock = false →
      exec (.readbackLockRelease src) s = ok (if own = src.requester then s.put F.ftlRblock_owner [] 0 else s)) ∧
    (s.rbHolds src = false →
      exec (.capture src flask net) s = .next (s.answer src .serr) ∧ exec (.readCaptureFrame src flask k) s = .next (s.answer src .serr) ∧
        exec (.readConfigurationFrame src die frame) s = .next (s.answer src .serr) ∧
        exec (.cancelCapture src flask) s = .next (s.answer src .serr)) ∧
    (s.rbHolds src = true → s.regWaits .ftlRbcmd = false → s.flag F.ftlRbcmd_busy [] = true →
      exec (.capture src flask net) s = ok s ∧ exec (.readCaptureFrame src flask k) s = ok s ∧
        exec (.readConfigurationFrame src die frame) s = ok s) ∧
    (s.rbHolds src = true → s.regWaits .ftlRbcmd = false → s.flag F.ftlRbcmd_busy [] = false →
      (s.reloading flask = true →
        exec (.capture src flask net) s = ok (refused s) ∧ exec (.readCaptureFrame src flask k) s = ok (refused s)) ∧
      (s.reloading flask = false →
        (let at_ := s.pair .ftlRbtLo .ftlRbtHi []
         let late : Bool := decide (at_ < s.now (flask.val / 16))
         let s1 := (s.raise F.ftlRbcmd_busy []).put F.ftlRbcmd_res [] (if late then 2 else 0)
         exec (.capture src flask net) s = ok { s1 with fab := { s1.fab with capture := some ⟨flask, net, at_⟩ } }) ∧
        (32 ≤ k.toNat → exec (.readCaptureFrame src flask k) s = ok (refused s)) ∧
        (k.toNat < 32 →
          exec (.readCaptureFrame src flask k) s =
            ok (done (s.fillWin .ftlRbwin ((List.range 2048).map (fun (i : Nat) => s.captByte flask (2048 * k.toNat + i))))))) ∧
      (49152 ≤ frame.toNat → exec (.readConfigurationFrame src die frame) s = ok (refused s)) ∧
      (s.regionEnc die frame.toNat = true → src.requester ≠ 10 → exec (.readConfigurationFrame src die frame) s = ok (refused s)) ∧
      (frame.toNat < 49152 → (s.regionEnc die frame.toNat = false ∨ src.requester = 10) →
        (∀ j, flaskOfFrame frame.toNat = some j → s.reloading (16 * die.val + j) = false) →
        exec (.readConfigurationFrame src die frame) s = ok (done (s.fillWin .ftlRbwin (s.frameBytes die frame.toNat))))) ∧
    (s.rbHolds src = true → s.regWaits .ftlRbcmd = false → s.fab.capture = some c → c.flask = flask.val →
      exec (.cancelCapture src flask) s = ok (done { s with fab := { s.fab with capture := none } })) ∧
    (s.fab.capture = none → exec (.captureTaken near) s = .next s) ∧
    (s.fab.capture = some c →
      let comes := s.netComes s.free (s.signals s.free) (c.flask / 16) c.net
      (s.now (c.flask / 16) < c.t ∨ comes = false → exec (.captureTaken near) s = .next s) ∧
      (c.t ≤ s.now (c.flask / 16) → comes = true →
        let u := ({ s with fab := { s.fab with capture := none } } : State)
        let u1 := ({ u with fab := { u.fab with capt := u.captureMap c.flask near }, free := u.free + 2 ^ 26 } : State)
        exec (.captureTaken near) s = .next ((u1.raise F.ftlFlask_captured [c.flask]).put F.ftlRbcmd_busy [] 0)))

/-- FETTLER_FRAME_CHECK (R323, R325, R326), FETTLER_REQUEST_POP (R327), WRITE_FRAME, WRITE_FRAME_REBUILD_SIGNATURE, FRAME_REWRITE_DONE
(R327 to R329). -/
def Obligations.FettlerRepair : Prop :=
  ∀ (s : State) (src : Src) (d : Fin 4) (frame : BitVec 16) (fl : Option (FlashRead × FlashRead)) (r : FtlReq) (rest : List FtlReq) (v : Nat),
    let f := SMap.get 0 s.fab.at_ d.val
    let crc := (crc32 (s.frame d f)).toNat
    let check := Instr.fettlerFrameCheck d none false none
    let q := SMap.get [] s.fab.requests d.val
    let queue := fun (u : State) (x : FtlReq) =>
      let list := SMap.set [] u.fab.requests d.val (SMap.get [] u.fab.requests d.val ++ [x])
      ({ u with fab := { u.fab with requests := list } } : State).put F.ftlStat_qlevel [d.val] (q.length + 1)
    (s.flag F.ftlStat_scanning [d.val] = false ∨ s.runs (20 + d.val) = false → exec check s = .next s) ∧
    (s.flag F.ftlStat_scanning [d.val] = true → s.runs (20 + d.val) = true →
      (s.checked d f = false → exec check s = .next (s.scanOn d f)) ∧
      (s.checked d f = true →
        (dec53 (s.sig d f) = .clean v →
          (crc = v % 2 ^ 32 → exec check s = .next (s.scanOn d f)) ∧
          (crc ≠ v % 2 ^ 32 →
            let s1 := (s.raise F.ftlStat_mism [d.val]).noteFailing d f
            (s1.fab.skip.contains (frameKey d f) = true → exec check s = .next (s1.scanOn d f)) ∧
            (s1.fab.skip.contains (frameKey d f) = false →
              (16 ≤ (SMap.get [] s1.fab.requests d.val).length →
                exec check s = .next (((s1.raise F.ftlStat_ovf [d.val]).interrupt .fettler).scanOn d f)) ∧
              (q.length < 16 →
                exec check s = .next (((queue s1 ⟨false, v / 2 ^ 32 % 2 ^ 14, f⟩).interrupt .fettler).scanOn d f))))) ∧
        (dec53 (s.sig d f) = .fixed v → crc = v % 2 ^ 32 →
          exec check s =
            .next ((((s.raise F.ftlStat_sigCe [d.val]).bucket (16 * d.val + 7)).setSig d f (enc53 v)).scanOn d f)) ∧
        (dec53 (s.sig d f) = .bad v → s.fab.skip.contains (frameKey d f) = false → q.length < 16 →
          let s1 := queue (s.raise F.ftlStat_sigUe [d.val]) ⟨true, v / 2 ^ 32 % 2 ^ 14, f⟩
          let skip := frameKey d f :: s.fab.skip
          exec check s = .next (({ s1 with fab := { s1.fab with skip := skip } } : State).scanOn d f)))) ∧
    (q = [] → exec (.fettlerRequestPop src d fl) s = .next (s.answerWord src 0#32)) ∧
    (q = r :: rest →
      let w := BitVec.ofNat 32 (2 ^ 31 + 2 ^ 30 * b2n r.rebuild + 2 ^ 16 * (r.chunk % 2 ^ 14) + r.frame)
      let requests := SMap.set [] s.fab.requests d.val rest
      let s1 := ({ s with fab := { s.fab with requests := requests } } : State).put F.ftlStat_qlevel [d.val] rest.length
      (src.peeks = true → exec (.fettlerRequestPop src d fl) s = .next (s.answerWord src w)) ∧
      (src.peeks = false → src.requester ≠ 10 → exec (.fettlerRequestPop src d fl) s = .next (s1.answerWord src w)) ∧
      (src.peeks = false → src.requester = 10 →
        exec (.fettlerRequestPop src d fl) s = .next ((s1.prepareRepair d r fl).answerWord src w))) ∧
    (src.requester ≠ 10 →
      exec (.writeFrame src d frame) s = .next (s.answer src .serr) ∧
      exec (.writeFrameRebuildSignature src d frame) s = .next (s.answer src .serr)) ∧
    (src.requester = 10 → s.regWaits .ftlRcmd = false → s.flag F.ftlRcmd_busy [] = true →
      exec (.writeFrame src d frame) s = .next (s.answer src .ok) ∧
      exec (.writeFrameRebuildSignature src d frame) s = .next (s.answer src .ok)) ∧
    (src.requester = 10 → s.regWaits .ftlRcmd = false → s.flag F.ftlRcmd_busy [] = false →
      (49152 ≤ frame.toNat ∨ s.runs (20 + d.val) = false →
        exec (.writeFrame src d frame) s = .next ((s.put F.ftlRcmd_res [] 1).answer src .ok) ∧
        exec (.writeFrameRebuildSignature src d frame) s = .next ((s.put F.ftlRcmd_res [] 1).answer src .ok)) ∧
      (frame.toNat < 49152 → s.runs (20 + d.val) = true →
        let start := fun (op : Nat) => ((((s.put F.ftlRcmd_op [] op).put F.ftlRcmd_die [] d.val).put F.ftlRcmd_frame [] frame.toNat).raise
          F.ftlRcmd_busy []).answer src .ok
        exec (.writeFrame src d frame) s = .next (start 1) ∧
        exec (.writeFrameRebuildSignature src d frame) s = .next (start 2))) ∧
    (s.flag F.ftlRcmd_busy [] = false ∨ s.load.inChunk = true → exec (.frameRewriteDone none) s = .next s) ∧
    (s.flag F.ftlRcmd_busy [] = true → s.load.inChunk = false →
      let e := s.get F.ftlRcmd_die []
      let g := s.get F.ftlRcmd_frame []
      let bytes := ((List.range 512).map (fun (i : Nat) => leBytes 4 (s.reg .ftlRbuf [i]).toNat)).flatten
      let s1 := (s.setFrame e g bytes).put F.ftlRcmd_busy [] 0
      let chunk := (dec53 (s1.sig e g)).data / 2 ^ 32 % 2 ^ 14
      let s2 := if s1.get F.ftlRcmd_op [] = 2 then s1.setSig e g (enc53 ((crc32 bytes).toNat + 2 ^ 32 * chunk)) else s1
      let loc := leBytes 1 e ++ leBytes 2 g ++ leBytes 2 chunk
      ((crc32 (s2.frame e g)).toNat = (dec53 (s2.sig e g)).data % 2 ^ 32 →
        let skip := s2.fab.skip.filter (fun (x : Nat) => x != frameKey e g)
        exec (.frameRewriteDone none) s =
          .next ((({ s2 with fab := { s2.fab with skip := skip } } : State).put F.ftlRcmd_res [] 0).logEv e 4 0 0x0404 1 loc)) ∧
      ((crc32 (s2.frame e g)).toNat ≠ (dec53 (s2.sig e g)).data % 2 ^ 32 →
        exec (.frameRewriteDone none) s =
          .next (((((s2.put F.ftlRcmd_res [] 2).raise F.ftlStat_hard [e]).noteFailing e g).logEv e 4 0 0x0405 4 loc).ftlSkip e g)))

/-- CHECK_AND_STAGE, STAGING_COMPLETE (R502 to R504), ACTIVATE (R506, R508), CONFIRM (R509, R511), DISCARD_STAGED_SET, TRIAL_TIMER_EXPIRY
(R510), MC_RESTART (R467, R510). What op 2, 3 and 4 do in other states is log entry 15. -/
def Obligations.SetUpdate : Prop :=
  ∀ (s s1 : State) (src : Src) (b : Bool) (m : List Byte) (c : Commit),
    let st := s.get F.updStat_state []
    let ok := fun (u : State) => Host.Outcome.next (u.answer src .ok)
    let fail := fun (u : State) (e : Nat) => (u.put F.updStat_err [] e).put F.updStat_state [] 5
    let mcAble := s.pwr.mcRuns = true ∧ s.pwr.mcHalted = false
    let buf := s.get F.updBufLo_addr [] * 512 + 2 ^ 32 * s.get F.updBufHi_addr []
    let live := s.regWaits .updCmd = false
    (mayWrite .updCmd src = false →
      exec (.checkAndStage src) s = .next (s.answer src .serr) ∧ exec (.activate src) s = .next (s.answer src .serr) ∧
        exec (.discardStagedSet src) s = .next (s.answer src .serr)) ∧
    (src.requester ≠ 10 → exec (.confirm src b) s = .next (s.answer src .serr)) ∧
    (mayWrite .updCmd src = true → live →
      (1 ≤ st → st ≤ 4 → exec (.checkAndStage src) s = ok (s.raise F.updStat_cmdErr [])) ∧
      (st = 0 ∨ 5 ≤ st → ¬ mcAble → exec (.checkAndStage src) s = ok s) ∧
      (st = 3 → ¬ mcAble → exec (.activate src) s = ok s) ∧
      (st = 0 ∨ 5 ≤ st → mcAble →
        (memRead 8 buf s = (none, s1) →
          exec (.checkAndStage src) s =
            ok ((fail s1 1).updLog 0x0B01 2 (leBytes 4 (heatOf []) ++ leBytes 1 1 ++ leBytes 1 0))) ∧
        (memRead 8 buf s = (some m, s1) → s1.manifestError m ≠ 0 →
          exec (.checkAndStage src) s =
            ok ((fail s1 (s1.manifestError m)).updLog 0x0B01 2
              (leBytes 4 (heatOf m) ++ leBytes 1 (s1.manifestError m) ++ leBytes 1 0))) ∧
        (memRead 8 buf s = (some m, s1) → s1.manifestError m = 0 → s1.changedEntries m = [] →
          let u : UpdSt := { s1.upd with staged := m, changed := [], newDir := s1.newEntries m [], newBoard := s1.upd.board }
          exec (.checkAndStage src) s = ok (({ s1 with upd := u } : State).put F.updStat_state [] 2))) ∧
      (st ≠ 3 → exec (.activate src) s = ok (s.raise F.updStat_cmdErr [])) ∧
      (st = 3 → mcAble → s.upd.commit = some c → s.upd.changed.contains 1 = false →
        let flip := (s.upd.changed.filter (fun (k : Nat) => decide (1 ≤ k ∧ k ≤ 4))).foldl (fun (n k : Nat) => n + 2 ^ (k - 1)) 0
        let heat := heatOf s.upd.staged
        let trial : Commit := { seq := 0, state := 1, slots := c.slots ^^^ flip, prevSlots := c.slots, heat := max c.heat heat,
                                dir := s.upd.newDir, prevDir := c.dir, manifest := s.upd.staged, prevManifest := c.manifest }
        let u := (s.writeCommit trial).writeDirectory s.upd.newDir
        let u1 := ({ u with upd := { u.upd with trialLeft := 60000000000, board := s.upd.newBoard } } : State).put F.updStat_state [] 4
        let mask := s.upd.changed.foldl (fun (n k : Nat) => n + 2 ^ k) 0
        exec (.activate src) s = ok (u1.updLog 0x0B02 0 (leBytes 4 heat ++ leBytes 4 mask))) ∧
      (st = 3 →
        exec (.discardStagedSet src) s =
          ok (({ s with upd := { s.upd with staged := [], changed := [] } } : State).put F.updStat_state [] 0)) ∧
      (st = 0 ∨ st = 5 → exec (.discardStagedSet src) s = ok s) ∧
      (st ∉ [0, 3, 5] → exec (.discardStagedSet src) s = ok (s.raise F.updStat_cmdErr []))) ∧
    (src.requester = 10 → live →
      (st ≠ 4 ∨ b = false → exec (.confirm src b) s = ok (s.raise F.updStat_cmdErr [])) ∧
      (st = 4 → b = true → exec (.confirm src b) s = ok (s.confirm true)) ∧
      (st = 4 → s.upd.commit = some c →
        (s.confirm true).upd.trialLeft = 0 ∧ (s.confirm true).upd.staged = [] ∧
          (s.confirm true).upd.commit = some { c with state := 2, seq := c.seq + 1 })) ∧
    (st ≠ 2 → exec (.stagingComplete b) s = .next s) ∧
    (st = 2 →
      exec (.stagingComplete true) s = .next (s.put F.updStat_state [] 3) ∧ exec (.stagingComplete false) s = .next (fail s 0xA)) ∧
    (st ≠ 4 ∨ s.upd.trialLeft ≠ 0 → exec .trialTimerExpiry s = .next s) ∧
    (st = 4 → s.upd.trialLeft = 0 → exec .trialTimerExpiry s = .next (s.revertSet 0)) ∧
    (s.upd.commit = some c →
      let u := (s.writeCommit { c with state := 3, slots := c.prevSlots, dir := c.prevDir, manifest := c.prevManifest }).writeDirectory c.prevDir
      let u1 := ({ u with upd := { u.upd with trialLeft := 0, staged := [], changed := [] } } : State)
      s.revertSet 0 = (((u1.put F.updStat_err [] 0xB).put F.updStat_state [] 0).bootMc).updLog 0x0B04 4
        (leBytes 4 (heatOf c.manifest) ++ leBytes 1 0)) ∧
    (s.clk.phase = .heldOff → exec (.mcRestart b) s = .next s) ∧
    (s.clk.phase ≠ .heldOff →
      let u := ((s.raise F.pwrStat_mcRestart []).powerLog 0x0907 2 (leBytes 1 (b2n b))).bootMc
      exec (.mcRestart b) s = .next (if u.get F.updStat_state [] = 4 then u.revertSet 1 else u))

/-- PROGRAM_OWNER_KEY, REVOKE_OWNER_KEY, BLOW_HL_DIS, REVOKE_IMAGE_KEY, REVOKE_LEGACY_KEY (R514), KEY_WRITE (R515), ATTESTATION (R517),
CERTIFICATE_CHAIN (R518), DEVICE_NONCE (R514). The operation byte that a key write logs, and a report's state and count bytes, are free
values (log entry 10). -/
def Obligations.OwnerAndAttestation : Prop :=
  ∀ (s s1 : State) (c : Fin 9) (busy : Bool) (b : List Byte) (i k : Nat) (g : BitVec 256),
    let served := s.mcServes c = true
    let what := s.mbxWord c 0
    let owner := [Instr.programOwnerKey c, .revokeOwnerKey c, .blowHlDis c, .revokeImageKey c, .revokeLegacyKey c]
    let asked := memRead 3 (s.mbxPair c 1) s = (some b, s1)
    let reply := Host.Outcome.next ((s1.ownerRequest b).2.mbxReply c 8 [(s1.ownerRequest b).1])
    let key := BitVec.ofNat 256 (beNat (s.mbxBytes c 2 8))
    let slot := s.mbxWord c 1
    let u := ({ s with free := s.free + 1 } : State)
    let fuse := (Config.freeValue 8 s.free).toNat
    (s.mcServes c = false →
      (∀ x ∈ owner, exec x s = .next s) ∧ exec (.keyWrite c) s = .next s ∧ exec (.attestation c busy) s = .next s ∧
        exec (.certificateChain c busy) s = .next s ∧ exec (.deviceNonce c) s = .next s) ∧
    (served → what = 0x40002 → asked →
      (fieldAt b 0 1 ∉ [2, 3, 4, 5] → exec (.programOwnerKey c) s = reply) ∧
      (fieldAt b 0 1 = 2 → exec (.revokeOwnerKey c) s = reply) ∧ (fieldAt b 0 1 = 3 → exec (.blowHlDis c) s = reply) ∧
      (fieldAt b 0 1 = 4 → exec (.revokeImageKey c) s = reply) ∧ (fieldAt b 0 1 = 5 → exec (.revokeLegacyKey c) s = reply)) ∧
    (s.upd.nonce = none → s.ownerRequest b = (5, s)) ∧
    (i < 4 → SMap.find? s.otp.ownerKeys i = none →
      s.ownerApply 1 i k g = some { s with otp := { s.otp with ownerKeys := SMap.insert s.otp.ownerKeys i g } }) ∧
    (4 ≤ i ∨ (SMap.find? s.otp.ownerKeys i).isSome = true → s.ownerApply 1 i k g = none) ∧
    (i = k → s.ownerApply 2 i k g = none) ∧
    (s.otp.hlDis = true → s.ownerApply 3 i k g = none) ∧
    (1 ≤ i → i ≤ 4 → s.otp.imageRev.getLsbD (i - 1) = false →
      s.ownerApply 4 i k g = some { s with otp := { s.otp with imageRev := s.otp.imageRev ||| BitVec.ofNat 4 (2 ^ (i - 1)) } }) ∧
    (i < 2 → s.otp.legacyRev.getLsbD i = false →
      s.ownerApply 5 i k g = some { s with otp := { s.otp with legacyRev := s.otp.legacyRev ||| BitVec.ofNat 2 (2 ^ i) } }) ∧
    (served → what = 0x50001 → c = 0 →
      (1 ≤ slot → slot ≤ 4 → SMap.find? s.otp.imageKeys slot = none → s.otp.imageRev.getLsbD (slot - 1) = false →
        exec (.keyWrite c) s =
          .next (((({ u with otp := { s.otp with imageKeys := SMap.insert s.otp.imageKeys slot key } } : State).otpRegs).fuseLog
            fuse slot).mbxReply c 8 [0])) ∧
      (16 ≤ slot → slot ≤ 17 → SMap.find? s.otp.legacyKeys (slot - 16) = none → s.otp.legacyRev.getLsbD (slot - 16) = false →
        exec (.keyWrite c) s =
          .next (((({ u with otp := { s.otp with legacyKeys := SMap.insert s.otp.legacyKeys (slot - 16) key } } : State).otpRegs).fuseLog
            fuse slot).mbxReply c 8 [0])) ∧
      (¬ (1 ≤ slot ∧ slot ≤ 4 ∧ SMap.find? s.otp.imageKeys slot = none ∧ s.otp.imageRev.getLsbD (slot - 1) = false) →
        ¬ (16 ≤ slot ∧ slot ≤ 17 ∧ SMap.find? s.otp.legacyKeys (slot - 16) = none ∧ s.otp.legacyRev.getLsbD (slot - 16) = false) →
        exec (.keyWrite c) s = .next (u.mbxReply c 8 [5]))) ∧
    (served → what = 0x20001 →
      exec (.attestation c busy) s =
        .next (u.deliver c busy (u.report (u.mbxBytes c 1 8) s.free) (u.mbxPair c 9) (u.mbxWord c 11))) ∧
    (served → what = 0x30001 →
      exec (.certificateChain c true) s = .next (s.mbxReply c 8 [2, Config.certificateChain.length]) ∧
      (s.mbxWord c 3 < Config.certificateChain.length →
        exec (.certificateChain c false) s = .next (s.mbxReply c 8 [3, Config.certificateChain.length])) ∧
      (Config.certificateChain.length ≤ s.mbxWord c 3 →
        let w := memWrite (Config.certificateChain.length + 1) (s.mbxPair c 1) Config.certificateChain s
        exec (.certificateChain c false) s = .next (w.2.mbxReply c 8 [if w.1 then 0 else 4, Config.certificateChain.length]))) ∧
    (served → what = 0x40001 →
      let v := Config.random s.free
      let u1 := ({ u with upd := { u.upd with nonce := some v } } : State)
      exec (.deviceNonce c) s =
        .next (u1.mbxReply c 10 ([0, u1.mbxWord c 1] ++ (List.range 8).map (fun (j : Nat) => bitsOf v.toNat (32 * j + 31) (32 * j)))))

/-- CORE_BOOT (R525, R526, R537), CORE_RESET, SEC_DROP (R522), WATCHDOG_KICK, WATCHDOG_EXPIRY (R529, R530), CLEAN, INVALIDATE,
CLEAN_AND_INVALIDATE (R523). The chunk byte of a boot that no MC serves is a free value (log entry 10). -/
def Obligations.CoreControl : Prop :=
  ∀ (s s1 : State) (src : Src) (i : Fin 4) (img : List Byte) (hi : BitVec 16) (u : MemUnit) (n : Nat),
    let h := img.take 512
    let serr := Host.Outcome.next (s.answer src .serr)
    (s.flag F.ccCoreCtrl_rst [i.val] = true ∨ s.flag F.ccCoreCtrl_running [i.val] = true ∨ (s.coreOf i.val).boot ≠ 0 ∨ s.clocked = false →
      exec (.coreBoot i img) s = .next s) ∧
    ((∀ v : MemUnit, s.dramGate s.bootAddr ≠ .go v) ∨ s.pwr.mcRuns = true ∧ s.pwr.mcHalted = true →
      exec (.coreBoot i img) s = .next s) ∧
    (s.flag F.ccCoreCtrl_rst [i.val] = false → s.flag F.ccCoreCtrl_running [i.val] = false → (s.coreOf i.val).boot = 0 →
      s.clocked = true → s.dramGate s.bootAddr = .go u →
      (s.pwr.mcRuns = false →
        exec (.coreBoot i img) s = .next (({ s with free := s.free + 1 } : State).bootFails i.val (Config.freeValue 8 s.free).toNat)) ∧
      (s.pwr.mcRuns = true → s.pwr.mcHalted = false →
        let run := bootChunks h (img.drop 512) s.bootAddr (hChunks h) 0 (img.drop (tableEnd h)) s
        (run = (some n, s1) → exec (.coreBoot i img) s = .next (s1.bootFails i.val n)) ∧
        (run = (none, s1) →
          let s2 := s1.logEv 8 15 i.val 0x0C04 0 (leBytes 1 i.val ++ leBytes 4 (heatOf s1.activeManifest))
          (s2.flag F.dbgCfg_hold [] = false → exec (.coreBoot i img) s = .next (s2.startCore i.val)) ∧
          (s2.flag F.dbgCfg_hold [] = true →
            exec (.coreBoot i img) s = .next (s2.setCore i.val { s2.coreOf i.val with boot := 1 }))))) ∧
    (mayWrite .ccCoreCtrl src = true → s.regWaits .ccCoreCtrl = false →
      let reset := s.writeReg .ccCoreCtrl [i.val] 0x80000000#32
      let w := (s.reg .ccCoreCtrl [i.val] &&& 0x80000000#32) ||| 0x20000000#32
      let kept := s.writeReg .ccCoreCtrl [i.val] w
      exec (.coreReset src i) s = .next ((reset.coreReset i.val).answer src .ok) ∧
      (s.flag F.ccCoreCtrl_rst [i.val] = false →
        let again := if kept.flag F.ccCoreCtrl_running [i.val] = false ∧ (kept.coreOf i.val).boot = 2 then
            kept.setCore i.val { kept.coreOf i.val with boot := 0 }
          else kept
        exec (.secDrop src i) s = .next ((again.put F.ccCoreCtrl_secEn [i.val] 0).answer src .ok)) ∧
      (s.flag F.ccCoreCtrl_rst [i.val] = true →
        exec (.secDrop src i) s = .next (((kept.coreReset i.val).put F.ccCoreCtrl_secEn [i.val] 0).answer src .ok))) ∧
    (mayWrite .ccCoreCtrl src = false →
      exec (.coreReset src i) s = serr ∧
      (src.requester ≠ 2 + i.val → exec (.secDrop src i) s = serr) ∧
      (src.requester = 2 + i.val → s.regWaits .ccCoreCtrl = false →
        exec (.secDrop src i) s = .next ((s.put F.ccCoreCtrl_secEn [i.val] 0).answer src .ok))) ∧
    (let w := (s.reg .ccWdt [i.val] &&& 0x80FFFFFF#32) ||| 0x20000000#32
     let wrote := s.writeReg .ccWdt [i.val] w
     let left := fun (v : State) => v.setCore i.val { v.coreOf i.val with wdtLeft := 1000 * v.get F.ccWdt_periodUs [i.val] }
     (mayWrite .ccWdt src = true → s.regWaits .ccWdt = false →
        exec (.watchdogKick src i) s =
          .next ((if wrote.flag F.ccWdt_en [i.val] = true then left wrote else wrote).answer src .ok)) ∧
      (mayWrite .ccWdt src = false → src.requester = 2 + i.val → s.regWaits .ccWdt = false →
        exec (.watchdogKick src i) s = .next ((if s.flag F.ccWdt_en [i.val] = true then left s else s).answer src .ok)) ∧
      (mayWrite .ccWdt src = false → src.requester ≠ 2 + i.val → exec (.watchdogKick src i) s = serr)) ∧
    (s.wdtDue i.val = false → exec (.watchdogExpiry i) s = .next s) ∧
    (s.wdtDue i.val = true →
      (s.flag F.ccWdt_expired [i.val] = false →
        exec (.watchdogExpiry i) s = .next (((s.raise F.ccWdt_expired [i.val]).interrupt (.wdt i.val)).wdtReload i.val)) ∧
      (s.flag F.ccWdt_expired [i.val] = true →
        exec (.watchdogExpiry i) s =
          .next (((s.coreReset i.val).raise F.ccCoreCtrl_wdtReset [i.val]).logEv 8 15 i.val 0x0C03 3 (leBytes 1 i.val)))) ∧
    (mayWrite .ccCmoHi src = false →
      exec (.clean src hi) s = serr ∧ exec (.invalidate src hi) s = serr ∧ exec (.cleanAndInvalidate src hi) s = serr) ∧
    (mayWrite .ccCmoHi src = true → s.regWaits .ccCmoHi = false →
      let op := fun (k : Word32) => s.writeReg .ccCmoHi [] (k ||| hi.setWidth 32)
      let page := fun (v : State) => v.get F.ccCmoLo_addr [] + 2 ^ 20 * v.get F.ccCmoHi_addr []
      exec (.clean src hi) s = .next (((op 0x40000000#32).pageOp 1 (page (op 0x40000000#32))).answer src .ok) ∧
      exec (.invalidate src hi) s = .next (((op 0x80000000#32).pageOp 2 (page (op 0x80000000#32))).answer src .ok) ∧
      exec (.cleanAndInvalidate src hi) s = .next (((op 0xC0000000#32).pageOp 3 (page (op 0xC0000000#32))).answer src .ok))

/-- CORE_IO_ACCESS (R520, R521), TRIGGER_HIT (R534), UNLOCK, UNLOCK_CHECK_DONE, RELOCK (R538, R539). What a trap saves in the core's
registers follows the RISC-V privileged architecture that R519 names (log entry 46). -/
def Obligations.CoreEvents : Prop :=
  ∀ (s : State) (r : Req) (src : Src) (i : Fin 4) (j : Fin 8) (x : Fin 3) (av val pc : BitVec 64) (prv : Fin 4)
    (regs : List (BitVec 16 × BitVec 64)) (kind : CoreAccess) (b : List Byte),
    let c := r.src.core.val
    let io := s.hartUp c = true ∧ s.hartHalted c = false ∧ cacheable r.addr.toNat = false
    let d := s.hreg i.val (0x8000 + 16 * j.val + 1)
    let hit := fun (k : Nat) => s.trigHits i.val k x.val av.toNat val.toNat prv.val
    let live := s.hartUp i.val = true ∧ s.hartHalted i.val = false ∧ d.getLsbD 11 = false ∧ s.chainHits i.val hit j.val = true
    let fire := exec (.triggerHit i j x av val prv pc regs) s
    let e := r.addr.setWidth 64
    (s.hartUp c = false ∨ s.hartHalted c = true ∨ cacheable r.addr.toNat = true → exec (.coreIoAccess r kind pc prv) s = .next s) ∧
    (io →
      exec (.coreIoAccess r .fetch pc prv) s = .next (s.hartTrap c 1 e pc prv) ∧
      exec (.coreIoAccess r .lr pc prv) s = .next (s.hartTrap c 5 e pc prv) ∧
      exec (.coreIoAccess r .amo pc prv) s = .next (s.hartTrap c 7 e pc prv) ∧
      (s.ioWaits c = true → exec (.coreIoAccess r .plain pc prv) s = .next s) ∧
      (s.ioWaits c = false →
        ∃ m : Req, m.src = ⟨57, r.src.core, decide (prv = 3), false⟩ ∧ m.cls = 2 ∧ m.addr = r.addr ∧ m.write = r.write ∧
          m.data = r.data ∧ m.len = r.len ∧ m.tag.val = 256 * c + r.tag.val % 256 ∧
          exec (.coreIoAccess r .plain pc prv) s = exec (.nocRequestInject m false) s)) ∧
    (s.hartUp i.val = false ∨ s.hartHalted i.val = true ∨ d.getLsbD 11 = true ∨ s.chainHits i.val hit j.val = false → fire = .next s) ∧
    (live →
      (bits64 d 15 12 = 0 → fire = .next ((s.mergeHregs i.val regs).hartTrap i.val 3 av pc prv)) ∧
      (bits64 d 15 12 = 1 → d.getLsbD 59 = true →
        let s1 := s.mergeHregs i.val regs
        fire = .next ((s1.setHreg i.val csrDcsr (putBits64 (s1.hreg i.val csrDcsr) 1 0 prv)).enterDebug i.val 2 pc)) ∧
      (bits64 d 15 12 = 1 → d.getLsbD 59 = false → fire = .next s) ∧
      (2 ≤ bits64 d 15 12 → fire = .next s)) ∧
    (src.requester ≠ 11 →
      exec (.unlock src) s = .next (s.answer src .serr) ∧
      (src.requester ≠ 10 → exec (.relock src) s = .next (s.answer src .serr))) ∧
    (src.requester = 11 → s.regWaits .dbgUnlkcmd = false →
      (s.flag F.dbgUnlkcmd_busy [] = true → exec (.unlock src) s = .next (s.answer src .ok)) ∧
      (s.flag F.dbgUnlkcmd_busy [] = false →
        let copy := some (s.wordBytes .dbgUnlkbuf (List.range 48))
        exec (.unlock src) s =
          .next ((({ s with dbg := { s.dbg with unlock := copy } } : State).raise F.dbgUnlkcmd_busy []).answer src .ok))) ∧
    (src.requester = 10 ∨ src.requester = 11 → s.regWaits .dbgUnlkcmd = false →
      exec (.relock src) s = .next (((s.put F.dbgCfg_mcScope [] 0).put F.dbgCfg_secScope [] 0).answer src .ok)) ∧
    (s.dbg.unlock = none → exec .unlockCheckDone s = .next s) ∧
    (s.dbg.unlock = some b →
      let why := s.unlockResult b
      let signer := fieldAt b 0 1
      let scope := fieldAt b 1 1 % 4
      let s1 := (({ s with dbg := { s.dbg with unlock := none } } : State).put F.dbgUnlkcmd_busy [] 0).put F.dbgUnlkcmd_res [] why
      (why ≠ 0 →
        exec .unlockCheckDone s = .next ((s1.logEv 8 15 0 0x0C02 5 (leBytes 1 signer ++ leBytes 1 why)).newNonce)) ∧
      (why = 0 → scope = 3 →
        exec .unlockCheckDone s = .next (((((s1.raise F.dbgCfg_mcScope []).raise F.dbgCfg_secScope []).logEv 8 15 0 0x0C01 5
          (leBytes 1 signer ++ leBytes 1 scope))).newNonce)) ∧
      (why = 0 → scope = 1 →
        exec .unlockCheckDone s =
          .next (((s1.raise F.dbgCfg_mcScope []).logEv 8 15 0 0x0C01 5 (leBytes 1 signer ++ leBytes 1 scope)).newNonce)) ∧
      (why = 0 → scope = 2 →
        exec .unlockCheckDone s =
          .next (((s1.raise F.dbgCfg_secScope []).logEv 8 15 0 0x0C01 5 (leBytes 1 signer ++ leBytes 1 scope)).newNonce)))

/-- TAP_RESET, IDCODE, SAMPLE_PRELOAD, EXTEST, EXTEST_PULSE, EXTEST_TRAIN, CLAMP, HIGHZ, BYPASS (R531, R532). -/
def Obligations.TapAndBoundaryScan : Prop :=
  ∀ (s : State) (cells load : List Bool) (code : BitVec 8),
    let ir := fun (c : BitVec 8) (m : Nat) => ({ s with dbg := { s.dbg with ir := c, bsMode := m } } : State)
    let scan := fun (u : State) =>
      ({ u with dbg := { u.dbg with bsr := load } } : State).emit (.bytes "TDO" (cellBytes ((cells.length + 7) / 8) cells))
    let refused := Host.Outcome.next ((ir 0xFF#8 0).raise F.dbgCfg_bsRef [])
    exec .tapReset s = .next (ir 1#8 0) ∧
    exec .idcode s = .next ((ir 1#8 0).emit (.bytes "TDO" (leBytes 4 (s.get F.dieId_major [8] % 16 * 2 ^ 28 + 0x8640EBB)))) ∧
    exec (.samplePreload cells load) s = .next (scan (ir 2#8 0)) ∧
    (s.get F.cfgStat_loaded [] = 0 →
      exec (.extest cells load) s = .next (scan (ir 3#8 1)) ∧ exec (.extestPulse cells load) s = .next (scan (ir 4#8 2)) ∧
        exec (.extestTrain cells load) s = .next (scan (ir 5#8 3)) ∧ exec .clamp s = .next (ir 6#8 4) ∧
        exec .highz s = .next (ir 7#8 5)) ∧
    (s.get F.cfgStat_loaded [] ≠ 0 →
      exec (.extest cells load) s = refused ∧ exec (.extestPulse cells load) s = refused ∧
        exec (.extestTrain cells load) s = refused ∧ exec .clamp s = refused ∧ exec .highz s = refused) ∧
    (code.toNat ∉ [0x01, 0x02, 0x03, 0x04, 0x05, 0x06, 0x07, 0x10, 0x11] → exec (.bypass code) s = .next (ir 0xFF#8 0)) ∧
    (code.toNat ∈ [0x01, 0x02, 0x03, 0x04, 0x05, 0x06, 0x07, 0x10, 0x11] → exec (.bypass code) s = .next s)

/-- DEBUG_HALT, DEBUG_RESUME (R533, R537), ABSTRACT_REGISTER_ACCESS, ABSTRACT_MEMORY_ACCESS (R533), SYSTEM_BUS_ACCESS (R535), DTMCS, DMI
(R533, R536). The registers' layout, the codes of cmderr and sberror and the version fields are those of RISC-V External Debug Support
(log entry 46). -/
def Obligations.DebugModule : Prop :=
  ∀ (s s1 : State) (h : Fin 5) (pc v a : BitVec 64) (prv : Fin 4) (regs : List (BitVec 16 × BitVec 64)) (n : BitVec 16) (w : Bool)
    (size : Fin 4) (word : Word32) (c : Resp) (d : List Byte) (adr : BitVec 7) (e : Bool) (x : BitVec 64),
    let able := s.dmRuns = true ∧ s.selectable h.val = true
    let halted := s.hartHalted h.val = true ∧ s.hartUp h.val = true
    let err := fun (u : State) (k : Nat) => Host.Outcome.next (u.setDm 0x16 (setWordField (u.dmReg 0x16) 10 8 k))
    let bus := exec (.systemBusAccess w size a v) s
    let sbErr := fun (k : Nat) => ({ s with dbg := { s.dbg with sberror := k } } : State)
    let ir := ({ s with dbg := { s.dbg with ir := 0x11#8, bsMode := 0 } } : State)
    let out := fun (u : State) (k : Word32) (b : Nat) => u.emit (.bytes "TDO" (leBytes 4 k.toNat ++ leBytes 1 b))
    (s.dmRuns = false ∨ s.selectable h.val = false →
      exec (.debugHalt h pc prv regs) s = .next s ∧ exec (.debugResume h pc regs) s = .next s ∧
        exec (.abstractRegisterAccess h w n v) s = .next s ∧ exec (.abstractMemoryAccess h w size a v) s = .next s) ∧
    (able →
      (s.hartHalted h.val = true → exec (.debugHalt h pc prv regs) s = .next s) ∧
      (s.hartHalted h.val = false → s.hartUp h.val = true →
        let u := s.mergeHregs h.val regs
        exec (.debugHalt h pc prv regs) s =
          .next ((u.setHreg h.val csrDcsr (putBits64 (u.hreg h.val csrDcsr) 1 0 prv)).enterDebug h.val 3 pc)) ∧
      (s.hartHalted h.val = false → s.hartUp h.val = false →
        exec (.debugHalt h pc prv regs) s = .next (s.setCore h.val { s.coreOf h.val with haltReq := true })) ∧
      (s.hartHalted h.val = false ∨ s.hartUp h.val = false → exec (.debugResume h pc regs) s = .next s) ∧
      (halted →
        let u := if h.val < 4 then s.wdtReload h.val else s
        let u1 := u.setDm 0x11 (u.dmReg 0x11 ||| BitVec.ofNat 32 (2 ^ h.val))
        ((u1.hreg h.val csrDcsr).getLsbD 2 = true →
          exec (.debugResume h pc regs) s = .next ((u1.mergeHregs h.val regs).enterDebug h.val 4 pc)) ∧
        ((u1.hreg h.val csrDcsr).getLsbD 2 = false → h.val < 4 →
          exec (.debugResume h pc regs) s = .next (u1.put F.ccCoreCtrl_halted [h.val] 0)) ∧
        ((u1.hreg h.val csrDcsr).getLsbD 2 = false → h.val = 4 →
          exec (.debugResume h pc regs) s = .next { u1 with pwr := { u1.pwr with mcHalted := false } }))) ∧
    (able → s.cmdErr ≠ 0 →
      exec (.abstractRegisterAccess h w n v) s = .next s ∧ exec (.abstractMemoryAccess h w size a v) s = .next s) ∧
    (able → s.cmdErr = 0 →
      (s.hartHalted h.val = false ∨ s.hartUp h.val = false →
        exec (.abstractRegisterAccess h w n v) s = err s 4 ∧ exec (.abstractMemoryAccess h w size a v) s = err s 4) ∧
      (halted →
        (0x1040 ≤ n.toNat → exec (.abstractRegisterAccess h w n v) s = err s 2) ∧
        (n.toNat < 0x1040 →
          exec (.abstractRegisterAccess h false n v) s = .next (s.setDmArg 0 (s.hartRead h.val n.toNat)) ∧
          (s.hartWrite h.val n.toNat v = some s1 → exec (.abstractRegisterAccess h true n v) s = .next s1) ∧
          (s.hartWrite h.val n.toNat v = none → exec (.abstractRegisterAccess h true n v) s = err s 3)) ∧
        (a.toNat % 2 ^ size.val ≠ 0 ∨ 2 ^ 48 ≤ a.toNat → exec (.abstractMemoryAccess h w size a v) s = err s 5) ∧
        (a.toNat % 2 ^ size.val = 0 → a.toNat < 2 ^ 48 →
          (s.hartMem h.val w a.toNat (2 ^ size.val) v = (none, s1) → exec (.abstractMemoryAccess h w size a v) s = err s1 5) ∧
          (s.hartMem h.val w a.toNat (2 ^ size.val) v = (some x, s1) →
            exec (.abstractMemoryAccess h w size a v) s = .next (if w = true then s1 else s1.setDmArg 0 x))))) ∧
    (s.dmRuns = false ∨ s.dbg.sberror ≠ 0 ∨ s.sbBusy = true → bus = .next s) ∧
    (s.dmRuns = true → s.dbg.sberror = 0 → s.sbBusy = false →
      (a.toNat % 2 ^ size.val ≠ 0 → bus = .next (sbErr 3)) ∧
      (a.toNat % 2 ^ size.val = 0 →
        (2 ^ 48 ≤ a.toNat → bus = .next (sbErr 2)) ∧
        (a.toNat < 2 ^ 48 →
          let r := dbgReq ⟨61, 0, false, !w && s.flag F.dbgCfg_sbPeek []⟩ (if cacheable a.toNat then 3 else 2) w a.toNat (2 ^ size.val) v
          (s.injects r = false → bus = .next ((s.setDm 0x38 (s.dmReg 0x38 ||| 0x00200000#32)).inject r)) ∧
          (s.injects r = true → s.requestNow r = (some (c, d), s1) → bus = .next (s1.sbDone w size.val c d))))) ∧
    (let u := ({ s with dbg := { s.dbg with ir := 0x10#8, bsMode := 0 } } : State)
     let u1 := u.emit (.bytes "TDO" (leBytes 4 (1 + 7 * 16 + 1024 * s.dmiStat)))
     (word.getLsbD 16 = false → word.getLsbD 17 = false → exec (.dtmcs word) s = .next u1) ∧
     (word.getLsbD 16 = true ∨ word.getLsbD 17 = true → exec (.dtmcs word) s = .next (u1.setDm 0x80 0#32))) ∧
    (s.dmRuns = false → ∀ op, exec (.dmi op adr word pc prv regs e) s = .next (out (ir.setDm 0x80 3#32) 0#32 3)) ∧
    (s.dmRuns = true → s.dmiStat ≠ 0 → ∀ op, exec (.dmi op adr word pc prv regs e) s = .next (out ir 0#32 s.dmiStat)) ∧
    (s.dmRuns = true → s.dmiStat = 0 →
      exec (.dmi 0 adr word pc prv regs e) s = .next (out ir 0#32 0) ∧
      exec (.dmi 1 adr word pc prv regs e) s = .next (out (ir.dmRead adr.toNat).2 (ir.dmRead adr.toNat).1 0) ∧
      exec (.dmi 2 adr word pc prv regs e) s = .next (out (ir.dmWrite adr.toNat word pc prv.val regs e) word 0))

/-- TARGET_REQUEST (R24, R365), REGISTER_WRITE (R16, R19), READ_LEGACY_FRAME (R351), LEGACY_CAPTURE_TRIGGER (R350), LEGACY_GLOBAL_SET_RESET
(R349), LEGACY_PIN_CLOCK_LOST, LEGACY_PLL_RELOCK (R338). -/
def Obligations.AccessesAndTarod : Prop :=
  ∀ (s t : State) (r : Req) (src : Src) (a : BitVec 48) (w : Word32) (code : Resp) (frame : BitVec 24) (got : List Byte) (near : List Nat) (f : Fin 8) (d n m : Nat),
    let at_ := targetOf r.addr.toNat
    let whole := inBlock r.addr.toNat r.len = true
    let open_ := targetOf a.toNat ≠ .secure ∨ s.secure src = true
    (inBlock r.addr.toNat r.len = false → exec (.targetRequest r) s = .next (s.respond r .aerr)) ∧
    (whole → at_ = .memory → exec (.targetRequest r) s = .next (s.memRequest r)) ∧
    (whole → at_ = .user d →
      exec (.targetRequest r) s = .next (if s.runs (12 + d) = true then s.emit (.user d r) else s.respond r .terr)) ∧
    (whole → at_ = .tile d n m → m < 0x2000 → exec (.targetRequest r) s = .next (s.storeArrive r d n m)) ∧
    (whole → at_ = .tile d n m → 0x2000 ≤ m → m < 0x3000 → r.write = true →
      exec (.targetRequest r) s = .next ((s.mouldWrite r d n m).2.respond r (s.mouldWrite r d n m).1)) ∧
    (whole → at_ = .tile d n m → 0x2000 ≤ m → m < 0x3000 → r.write = false → s.mouldRead r d n m = (code, got, t) →
      exec (.targetRequest r) s = .next (t.respond r code got)) ∧
    (whole → at_ = .tile d n m → 0x3000 ≤ m → m < 0x3100 →
      (r.write = true → s.entryWrite r d n m = (code, t) → exec (.targetRequest r) s = .next (t.respond r code)) ∧
      (r.write = false → s.entryRead r d n m = (code, got, t) → exec (.targetRequest r) s = .next (t.respond r code got))) ∧
    (whole → at_ = .words ∨ (at_ = .tile d n m ∧ 0x3100 ≤ m) → exec (.targetRequest r) s = .next (s.wordsRequest r)) ∧
    (whole → at_ = .slots → exec (.targetRequest r) s = .next (if r.write = true then s.slotWrite r else s.slotRead r)) ∧
    (whole → at_ = .secure →
      (s.secure r.src = true → exec (.targetRequest r) s = .next (s.respond r .aerr)) ∧
      (s.secure r.src = false →
        exec (.targetRequest r) s =
          .next ((s.logEv 8 5 0 0x0503 5 (leBytes 1 r.src.requester ++ leBytes 6 r.addr.toNat)).respond r .serr))) ∧
    (whole → at_ = .nowhere → exec (.targetRequest r) s = .next (s.respond r .aerr)) ∧
    (a.toNat % 4 ≠ 0 → exec (.registerWrite src a w) s = .next (s.answer src .aerr)) ∧
    (a.toNat % 4 = 0 → targetOf a.toNat = .secure → s.secure src = false →
      exec (.registerWrite src a w) s =
        .next ((s.logEv 8 5 0 0x0503 5 (leBytes 1 src.requester ++ leBytes 6 a.toNat)).answer src .serr)) ∧
    (a.toNat % 4 = 0 → open_ → s.wordJudge src a.toNat true w = some code → exec (.registerWrite src a w) s = .next (s.answer src code)) ∧
    (a.toNat % 4 = 0 → open_ → s.wordJudge src a.toNat true w = none → s.wordWrite src a.toNat w = (code, t) →
      exec (.registerWrite src a w) s = .next (t.answer src code)) ∧
    (s.rbHolds src = false → exec (.readLegacyFrame src frame) s = .next (s.answer src .serr)) ∧
    (s.rbHolds src = true → s.regWaits .ftlTrbcmd = false → s.flag F.ftlTrbcmd_busy [] = true →
      exec (.readLegacyFrame src frame) s = .next (s.answer src .ok)) ∧
    (s.rbHolds src = true → s.regWaits .ftlTrbcmd = false → s.flag F.ftlTrbcmd_busy [] = false →
      (s.tarod = none → exec (.readLegacyFrame src frame) s = .next ((s.put F.ftlTrbcmd_res [] 1).answer src .ok)) ∧
      (s.tarod = some d →
        (Config.legacyFrameOk frame.toNat = false →
          exec (.readLegacyFrame src frame) s = .next ((s.put F.ftlTrbcmd_res [] 1).answer src .ok)) ∧
        (s.flag F.glbTarod_enc [] = true → src.requester ≠ 10 →
          exec (.readLegacyFrame src frame) s = .next ((s.put F.ftlTrbcmd_res [] 1).answer src .ok)) ∧
        (Config.legacyFrameOk frame.toNat = true → s.flag F.glbTarod_enc [] = false ∨ src.requester = 10 →
          let b := (Config.legacyFrame s.fab.frames s.fab.capt s.fab.bram d frame.toNat).take 404
          exec (.readLegacyFrame src frame) s =
            .next (((s.fillWin .ftlTrbwin ((b ++ List.replicate 512 0#8).take 512)).put F.ftlTrbcmd_res [] 0).answer src .ok)))) ∧
    (s.tarod = none →
      exec (.legacyCaptureTrigger near) s = .next s ∧ (∀ level, exec (.legacyGlobalSetReset level) s = .next s) ∧
        exec (.legacyPinClockLost f) s = .next s ∧ exec (.legacyPllRelock f) s = .next s) ∧
    (s.tarod = some d →
      exec (.legacyCaptureTrigger near) s =
        .next ((List.range 16).foldl (fun (u : State) (k : Nat) => u.captureFlask (16 * d + k) near) s) ∧
      exec (.legacyGlobalSetReset false) s = .next ((s.put F.glbTarod_gsr [] 0).applySrs (fun (k _ : Nat) => k == d)) ∧
      exec (.legacyGlobalSetReset true) s =
        .next ((List.range 5120).foldl (fun (u : State) (p : Nat) =>
          let b := u.bramPort d (p / 2) (p % 2)
          u.setBramPort d (p / 2) (p % 2) { b with out := { b.out with data := Config.legacyGsrOut d p b.out.data } })
          ((s.put F.glbTarod_gsr [] 1).initFfs (fun (k _ : Nat) => k == d))) ∧
      (let u := s.put F.glbTarod_fpllLock [] (Nat.land (s.get F.glbTarod_fpllLock []) (255 - 2 ^ f.val))
       let off := (8 * d + f.val) :: u.fab.pllOff.filter (fun (k : Nat) => k != 8 * d + f.val)
       exec (.legacyPinClockLost f) s = .next { u with fab := { u.fab with pllOff := off } }) ∧
      (let u := s.put F.glbTarod_fpllLock [] (Nat.lor (s.get F.glbTarod_fpllLock []) (2 ^ f.val))
       let off := u.fab.pllOff.filter (fun (k : Nat) => k != 8 * d + f.val)
       exec (.legacyPllRelock f) s = .next { u with fab := { u.fab with pllOff := off } }))

/-- The command at the front of the queue runs on the state with the queue's rest (log entry 1). -/
def Obligations.CommandAtFront : Prop :=
  ∀ (s : State) (c : Instr) (rest : List Instr), s.pending = c :: rest → step s = exec c { s with pending := rest }

/-- An idle step (log entry 1): only waiting register writes while the timebase stands (R19, R59), else the edge or the issue of a
cycle, with the leak of R425 at its end. -/
def Obligations.IdleStep : Prop :=
  ∀ s : State, s.pending = [] →
    let t := ({ s with tb := { s.tb with half := !s.tb.half } } : State)
    (s.tb.running = false → step s = .next s.applyDeferred) ∧
    (s.tb.running = true → s.tb.half = false → step s = .next t.edge) ∧
    (s.tb.running = true → s.tb.half = true →
      let u := (t.tb.edged.filter (fun (d : Nat) => t.runs (16 + d))).foldl State.dieIssue t
      let leak : List Instr := if u.now 8 % 1000 = 0 then [.bucketLeak] else []
      step s = .next { u with pending := u.pending ++ leak })

/-- State.reset: the fields at the values that the register tables of the spec give, and its canonical form. -/
def Obligations.ResetState : Prop :=
  let s := State.reset
  s.clk.phase = .heldOff ∧ s.pending = [] ∧ s.outbox = [] ∧ s.dram.bytes = [] ∧ s.heldPubs = [] ∧ s.log.queue = [] ∧
    (∀ d : Fin 4, s.flag F.waStat_held [d.val] = true) ∧ (∀ i : Fin 4, s.flag F.ccCoreCtrl_secEn [i.val] = true) ∧
    (∀ c : Fin 32, s.get F.mbxStat_state [c.val] = 0) ∧ s.get F.cfgStat_phase [] = 0 ∧ s.get F.cfgStat_loaded [] = 0 ∧
    s.get F.pwrStat_mode [] = 0 ∧
    (∀ b : Fin 84, s.get F.eccBktCfg_thr [b.val] = 16 ∧ s.get F.eccBktCfg_leak [b.val] = 20 ∧ s.get F.eccBktStat_count [b.val] = 0) ∧
    s.slots = [] ∧ Canonical s

/-- Every command goes on; in a canonical state the outputs grow at their end and the queue is untouched. -/
def Obligations.EveryCommandGoesOn : Prop :=
  (∀ (c : Instr) (s : State), ∃ t, exec c s = .next t) ∧
  (∀ (c : Instr) (s t : State), Canonical s → exec c s = .next t → t.pending = s.pending ∧ s.outbox <+: t.outbox) ∧
  (∀ s : State, Canonical s → s.pending = [] → ∃ t, step s = .next t ∧ s.outbox <+: t.outbox)

/-- Every step keeps the canonical form: of memory and registers, the 8 entries of R434 and the 64 publishes of R202. -/
def Obligations.StepKeepsForm : Prop :=
  ∀ s t : State, Canonical s → step s = .next t → Canonical t

/-- R564: clean, single-bit and double-bit reads of the three codes. -/
def Obligations.SecDedCorrects : Prop :=
  (∀ d : Nat, d < 2 ^ 64 →
    dec72 (enc72 d) = .clean d ∧ (∀ i, i < 72 → dec72 (enc72 d ^^^ (1#72 <<< i)) = .fixed d) ∧
    ∀ i j, i < j → j < 72 → ∃ x, dec72 (enc72 d ^^^ (1#72 <<< i) ^^^ (1#72 <<< j)) = .bad x) ∧
  (∀ d : Nat, d < 2 ^ 32 →
    dec39 (enc39 d) = .clean d ∧ (∀ i, i < 39 → dec39 (enc39 d ^^^ (1#39 <<< i)) = .fixed d) ∧
    ∀ i j, i < j → j < 39 → ∃ x, dec39 (enc39 d ^^^ (1#39 <<< i) ^^^ (1#39 <<< j)) = .bad x) ∧
  (∀ d : Nat, d < 2 ^ 46 →
    dec53 (enc53 d) = .clean d ∧ (∀ i, i < 53 → dec53 (enc53 d ^^^ (1#53 <<< i)) = .fixed d) ∧
    ∀ i j, i < j → j < 53 → ∃ x, dec53 (enc53 d ^^^ (1#53 <<< i) ^^^ (1#53 <<< j)) = .bad x)

/-- R16 for the common write and read of a register word. -/
def Obligations.RegisterAccessTypes : Prop :=
  ∀ (s : State) (n : RegName) (idx : List Nat) (v : Word32),
    let t := s.writeReg n idx v
    (∀ f ∈ n.desc.fields,
      let old := f.of (s.reg n idx)
      let new := f.of (t.reg n idx)
      (f.acc = .rw → new = f.of v) ∧ (f.acc = .ro ∨ f.acc = .wo → new = old) ∧
      (f.acc = .w1c → ∀ b, new.testBit b = (old.testBit b && !(f.of v).testBit b)) ∧
      (f.acc = .w1s → ∀ b, new.testBit b = (old.testBit b || (f.of v).testBit b)) ∧
      f.of (s.readReg n idx) = (if f.acc = .wo then 0 else old)) ∧
    (∀ b, b < 32 → (∀ f ∈ n.desc.fields, b < f.lo ∨ f.hi < b) →
      (t.reg n idx).getLsbD b = (s.reg n idx).getLsbD b ∧ (s.readReg n idx).getLsbD b = false) ∧
    (∀ a, a ≠ regAddr n idx → SMap.find? t.regs a = SMap.find? s.regs a)

/-- R126: the results of SHL, SHR and ASR, as raw n-bit values of the instruction's next state. -/
def Obligations.ShiftResults : Prop :=
  ∀ (s : State) (a : CellId) (f : Fields) (oa ob : Nat),
    let n := 8 * (ctxOf s a).g
    let k := if f.sb = 0x17#5 then f.sh.toNat else ob % 32
    let av := valueOf n f.u oa
    let ua := oa % 2 ^ n
    let lo : Int := if f.u = true then 0 else -(2 ^ (n - 1) : Nat)
    let hi : Int := if f.u = true then (2 ^ n : Nat) - 1 else (2 ^ (n - 1) : Nat) - 1
    CellReady s a f oa ob → plainSel f.dst.toNat = true →
      (∃ (raw : Nat) (sat : Bool) (c : Option Bool),
        exec (.shl a f) s = .next (cellAfter s a f (twoStore f) true true raw sat c) ∧ raw < 2 ^ n ∧
        (lo ≤ av * 2 ^ k → av * 2 ^ k ≤ hi → valueOf n f.u raw = av * 2 ^ k ∧ sat = false) ∧
        (f.s = false → ((raw : Int) - av * 2 ^ k) % (2 ^ n : Nat) = 0 ∧ sat = false ∧ (n ≤ k → raw = 0)) ∧
        (f.s = true → av ≠ 0 → av * 2 ^ k < lo ∨ hi < av * 2 ^ k →
          valueOf n f.u raw = (if av < 0 then lo else hi) ∧ sat = true) ∧
        (f.s = true → av ≠ 0 → n ≤ k → valueOf n f.u raw = (if av < 0 then lo else hi) ∧ sat = true) ∧
        (av = 0 → raw = 0)) ∧
      (∃ c : Option Bool, exec (.shr a f) s = .next (cellAfter s a f (twoStore f) true true (ua / 2 ^ k) false c) ∧
        (n ≤ k → ua / 2 ^ k = 0)) ∧
      (∃ (raw : Nat) (c : Option Bool),
        exec (.asr a f) s = .next (cellAfter s a f (twoStore f) true true raw false c) ∧ raw < 2 ^ n ∧
        (f.u = true → raw = ua / 2 ^ k) ∧
        (f.u = false → valueOf n false raw = av.fdiv (2 ^ k : Nat) ∧ (n ≤ k → raw = if av < 0 then 2 ^ n - 1 else 0)))

/-- The frame of the word cell's instructions. -/
def Obligations.CellInstructionFrame : Prop :=
  ∀ (s t : State) (a : CellId) (f : Fields) (w : Word32) (c : Instr),
    c ∈ [.nop a f, .add a f, .sub a f, .and a f, .or a f, .xor a f, .min a f, .max a f, .absd a f, .shl a f, .shr a f, .asr a f, .mov a f,
      .sel a f, .cmp a f, .mul a f, .mac a f, .msu a f, .clracc a f, .cmac a f, .cadd a f, .cld a f, .tap a f, .illegalInstruction a w] →
    exec c s = .next t → CellFrame a s t

/-- R130: the pointer after each update code, for the members of a gang (R98), by NOP, which does nothing else. -/
def Obligations.PointerUpdates : Prop :=
  ∀ (s : State) (a : CellId) (f : Fields),
    let x := ctxOf s a
    let m := ((s.die x.d).tile x.t).cur
    let was := fun (k b p : Nat) => SMap.get ptr0 (s.die x.d).ptr (accKey (cellKey x.t k) b p)
    issues s x = true → ptrFails s x f [] none = [] →
      ∃ t, exec (.nop a f) s = .next t ∧
        let now := fun (k b p : Nat) => SMap.get ptr0 (t.die x.d).ptr (accKey (cellKey x.t k) b p)
        (∀ j, j < x.g → ∀ p, p < 2 →
          let code := if p = 0 then f.p0u.toNat else f.p1u.toNat
          let base := if p = 0 then m.base0 else m.base1
          let old := was (x.k + j) x.bank p
          let new := now (x.k + j) x.bank p
          (code = 0 → new = old) ∧
          (code = 1 → new.toNat % 512 = (old.toNat % 512 + 1) % 512 ∧ ptrOk new = true) ∧
          (code = 2 → new.toNat % 512 = (old.toNat % 512 + 511) % 512 ∧ ptrOk new = true) ∧
          (code = 3 → ∀ b, base = some b → new.toNat % 512 = b % 512 ∧ ptrOk new = true)) ∧
        (∀ k b p, k < 16 → b < 2 → p < 2 → k < x.k ∨ x.k + x.g ≤ k ∨ b ≠ x.bank → now k b p = was k b p)

end
end

