-- ==== Sys2Proof/Laws/PerInstr.lean ====
section
/-!
SUPPORT. Sys2Proof/Laws/PerInstr.lean: what holds of every command as syntax, constructor by constructor.
-/

section

set_option Elab.async false

namespace Sys2Proof.Laws.Known

/-- The single-flit requests a command carries. -/
def carried (i : Instr) : List Req :=
  match i with
  | .mouldWrite r => [r]
  | .scheduleWrite r => [r]
  | .stagingWrite r => [r]
  | .cellStoreAccess r => [r]
  | .publish r => [r]
  | .acknowledge r => [r]
  | .nocRequestInject r _ => [r]
  | .targetRequest r => [r]
  | .responseArrival r _ _ _ _ => [r]
  | .targetTimeout r => [r]
  | .dramRead r => [r]
  | .dramWrite r => [r]
  | .commandParityError _ _ _ _ _ l => l
  | .encryptedRead r => [r]
  | .encryptedWrite r => [r]
  | .coreIoAccess r _ _ _ => [r]
  | _ => []

/-- A well-formed command carries well-formed requests only. -/
def Statement (i : Instr) : Prop := i.wf = true → ∀ r ∈ carried i, r.wf = true

end Sys2Proof.Laws.Known

namespace Sys2Proof

theorem Laws.Known.powerOn (p : PowerOn) :
    Laws.Known.Statement (.powerOn p) := fun _ _ h => absurd h List.not_mem_nil
theorem Laws.Known.powerOff :
    Laws.Known.Statement (.powerOff) := fun _ _ h => absurd h List.not_mem_nil
theorem Laws.Known.referenceQualified (refB : Bool) (start : Restart) :
    Laws.Known.Statement (.referenceQualified refB start) := fun _ _ h => absurd h List.not_mem_nil
theorem Laws.Known.pllsLocked :
    Laws.Known.Statement (.pllsLocked) := fun _ _ h => absurd h List.not_mem_nil
theorem Laws.Known.timebaseStart :
    Laws.Known.Statement (.timebaseStart) := fun _ _ h => absurd h List.not_mem_nil
theorem Laws.Known.hotResumeComplete :
    Laws.Known.Statement (.hotResumeComplete) := fun _ _ h => absurd h List.not_mem_nil
theorem Laws.Known.referenceLost (refB : Bool) :
    Laws.Known.Statement (.referenceLost refB) := fun _ _ h => absurd h List.not_mem_nil
theorem Laws.Known.retentionMonitorExpiry :
    Laws.Known.Statement (.retentionMonitorExpiry) := fun _ _ h => absurd h List.not_mem_nil
theorem Laws.Known.referenceDriftFailed (refB : Bool) :
    Laws.Known.Statement (.referenceDriftFailed refB) := fun _ _ h => absurd h List.not_mem_nil
theorem Laws.Known.referenceSwitchCommand (src : Src) (w : Word32) :
    Laws.Known.Statement (.referenceSwitchCommand src w) := fun _ _ h => absurd h List.not_mem_nil
theorem Laws.Known.clockGateWrite (src : Src) (d : Fin 24) (w : Word32) :
    Laws.Known.Statement (.clockGateWrite src d w) := fun _ _ h => absurd h List.not_mem_nil
theorem Laws.Known.clkmonSelect (src : Src) (w : Word32) :
    Laws.Known.Statement (.clkmonSelect src w) := fun _ _ h => absurd h List.not_mem_nil
theorem Laws.Known.timebaseSyncMessage (die : Fin 7) (wander : Int) :
    Laws.Known.Statement (.timebaseSyncMessage die wander) := fun _ _ h => absurd h List.not_mem_nil
theorem Laws.Known.timebaseFreeRun (die : Fin 7) :
    Laws.Known.Statement (.timebaseFreeRun die) := fun _ _ h => absurd h List.not_mem_nil
theorem Laws.Known.tbTimeLoRead (src : Src) :
    Laws.Known.Statement (.tbTimeLoRead src) := fun _ _ h => absurd h List.not_mem_nil
theorem Laws.Known.tick (n : Fin 4) :
    Laws.Known.Statement (.tick n) := fun _ _ h => absurd h List.not_mem_nil
theorem Laws.Known.tickEnable (src : Src) (n : Fin 4) (w : Word32) :
    Laws.Known.Statement (.tickEnable src n w) := fun _ _ h => absurd h List.not_mem_nil
theorem Laws.Known.tickPeriodWrite (src : Src) (n : Fin 4) (w : Word32) :
    Laws.Known.Statement (.tickPeriodWrite src n w) := fun _ _ h => absurd h List.not_mem_nil
theorem Laws.Known.watchdogExpiry (k : Fin 4) :
    Laws.Known.Statement (.watchdogExpiry k) := fun _ _ h => absurd h List.not_mem_nil
theorem Laws.Known.nop (a : CellId) (f : Fields) :
    Laws.Known.Statement (.nop a f) := fun _ _ h => absurd h List.not_mem_nil
theorem Laws.Known.add (a : CellId) (f : Fields) :
    Laws.Known.Statement (.add a f) := fun _ _ h => absurd h List.not_mem_nil
theorem Laws.Known.sub (a : CellId) (f : Fields) :
    Laws.Known.Statement (.sub a f) := fun _ _ h => absurd h List.not_mem_nil
theorem Laws.Known.and (a : CellId) (f : Fields) :
    Laws.Known.Statement (.and a f) := fun _ _ h => absurd h List.not_mem_nil
theorem Laws.Known.or (a : CellId) (f : Fields) :
    Laws.Known.Statement (.or a f) := fun _ _ h => absurd h List.not_mem_nil
theorem Laws.Known.xor (a : CellId) (f : Fields) :
    Laws.Known.Statement (.xor a f) := fun _ _ h => absurd h List.not_mem_nil
theorem Laws.Known.min (a : CellId) (f : Fields) :
    Laws.Known.Statement (.min a f) := fun _ _ h => absurd h List.not_mem_nil
theorem Laws.Known.max (a : CellId) (f : Fields) :
    Laws.Known.Statement (.max a f) := fun _ _ h => absurd h List.not_mem_nil
theorem Laws.Known.absd (a : CellId) (f : Fields) :
    Laws.Known.Statement (.absd a f) := fun _ _ h => absurd h List.not_mem_nil
theorem Laws.Known.shl (a : CellId) (f : Fields) :
    Laws.Known.Statement (.shl a f) := fun _ _ h => absurd h List.not_mem_nil
theorem Laws.Known.shr (a : CellId) (f : Fields) :
    Laws.Known.Statement (.shr a f) := fun _ _ h => absurd h List.not_mem_nil
theorem Laws.Known.asr (a : CellId) (f : Fields) :
    Laws.Known.Statement (.asr a f) := fun _ _ h => absurd h List.not_mem_nil
theorem Laws.Known.mov (a : CellId) (f : Fields) :
    Laws.Known.Statement (.mov a f) := fun _ _ h => absurd h List.not_mem_nil
theorem Laws.Known.sel (a : CellId) (f : Fields) :
    Laws.Known.Statement (.sel a f) := fun _ _ h => absurd h List.not_mem_nil
theorem Laws.Known.cmp (a : CellId) (f : Fields) :
    Laws.Known.Statement (.cmp a f) := fun _ _ h => absurd h List.not_mem_nil
theorem Laws.Known.mul (a : CellId) (f : Fields) :
    Laws.Known.Statement (.mul a f) := fun _ _ h => absurd h List.not_mem_nil
theorem Laws.Known.mac (a : CellId) (f : Fields) :
    Laws.Known.Statement (.mac a f) := fun _ _ h => absurd h List.not_mem_nil
theorem Laws.Known.msu (a : CellId) (f : Fields) :
    Laws.Known.Statement (.msu a f) := fun _ _ h => absurd h List.not_mem_nil
theorem Laws.Known.clracc (a : CellId) (f : Fields) :
    Laws.Known.Statement (.clracc a f) := fun _ _ h => absurd h List.not_mem_nil
theorem Laws.Known.cmac (a : CellId) (f : Fields) :
    Laws.Known.Statement (.cmac a f) := fun _ _ h => absurd h List.not_mem_nil
theorem Laws.Known.cadd (a : CellId) (f : Fields) :
    Laws.Known.Statement (.cadd a f) := fun _ _ h => absurd h List.not_mem_nil
theorem Laws.Known.cld (a : CellId) (f : Fields) :
    Laws.Known.Statement (.cld a f) := fun _ _ h => absurd h List.not_mem_nil
theorem Laws.Known.tap (a : CellId) (f : Fields) :
    Laws.Known.Statement (.tap a f) := fun _ _ h => absurd h List.not_mem_nil
theorem Laws.Known.illegalInstruction (a : CellId) (w : Word32) :
    Laws.Known.Statement (.illegalInstruction a w) := fun _ _ h => absurd h List.not_mem_nil
theorem Laws.Known.pourEnd (d : Fin 4) (t : Fin 2048) :
    Laws.Known.Statement (.pourEnd d t) := fun _ _ h => absurd h List.not_mem_nil
theorem Laws.Known.mouldScrubRead (d : Fin 4) (t : Fin 2048) :
    Laws.Known.Statement (.mouldScrubRead d t) := fun _ _ h => absurd h List.not_mem_nil
theorem Laws.Known.mouldWriteback (d : Fin 4) (t : Fin 2048) :
    Laws.Known.Statement (.mouldWriteback d t) := fun _ _ h => absurd h List.not_mem_nil
theorem Laws.Known.halt (src : Src) (d : Fin 4) (t : Fin 2048) :
    Laws.Known.Statement (.halt src d t) := fun _ _ h => absurd h List.not_mem_nil
theorem Laws.Known.haltRelease (src : Src) (d : Fin 4) (t : Fin 2048) :
    Laws.Known.Statement (.haltRelease src d t) := fun _ _ h => absurd h List.not_mem_nil
theorem Laws.Known.doorbell (src : Src) (d : Fin 4) (t : Fin 2048) :
    Laws.Known.Statement (.doorbell src d t) := fun _ _ h => absurd h List.not_mem_nil
theorem Laws.Known.preemptionEvent (d : Fin 4) (t : Fin 2048) :
    Laws.Known.Statement (.preemptionEvent d t) := fun _ _ h => absurd h List.not_mem_nil
theorem Laws.Known.preemptionTaken (d : Fin 4) (t : Fin 2048) :
    Laws.Known.Statement (.preemptionTaken d t) := fun _ _ h => absurd h List.not_mem_nil
theorem Laws.Known.urgentReturn (d : Fin 4) (t : Fin 2048) :
    Laws.Known.Statement (.urgentReturn d t) := fun _ _ h => absurd h List.not_mem_nil
theorem Laws.Known.mouldWrite (r : Req) :
    Laws.Known.Statement (.mouldWrite r) := by simp_all [Laws.Known.Statement, Laws.Known.carried, Instr.wf]
theorem Laws.Known.scheduleWrite (r : Req) :
    Laws.Known.Statement (.scheduleWrite r) := by simp_all [Laws.Known.Statement, Laws.Known.carried, Instr.wf]
theorem Laws.Known.stagingWrite (r : Req) :
    Laws.Known.Statement (.stagingWrite r) := by simp_all [Laws.Known.Statement, Laws.Known.carried, Instr.wf]
theorem Laws.Known.fenceArm (src : Src) (d : Fin 4) (t : Fin 2048) :
    Laws.Known.Statement (.fenceArm src d t) := fun _ _ h => absurd h List.not_mem_nil
theorem Laws.Known.fenceCancel (src : Src) (d : Fin 4) (t : Fin 2048) :
    Laws.Known.Statement (.fenceCancel src d t) := fun _ _ h => absurd h List.not_mem_nil
theorem Laws.Known.cellStoreAccess (r : Req) :
    Laws.Known.Statement (.cellStoreAccess r) := by simp_all [Laws.Known.Statement, Laws.Known.carried, Instr.wf]
theorem Laws.Known.cellStoreAccessDone (a : CellId) :
    Laws.Known.Statement (.cellStoreAccessDone a) := fun _ _ h => absurd h List.not_mem_nil
theorem Laws.Known.cellStateWrite (src : Src) (a : CellId) (off : Fin 64) (w : Word32) :
    Laws.Known.Statement (.cellStateWrite src a off w) := fun _ _ h => absurd h List.not_mem_nil
theorem Laws.Known.ingressBeat (d : Fin 4) (p : Fin 64) :
    Laws.Known.Statement (.ingressBeat d p) := fun _ _ h => absurd h List.not_mem_nil
theorem Laws.Known.egressBeat (d : Fin 4) (p : Fin 64) :
    Laws.Known.Statement (.egressBeat d p) := fun _ _ h => absurd h List.not_mem_nil
theorem Laws.Known.portConfigWrite (src : Src) (d : Fin 4) (p : Fin 64) (win : Bool) (w : Word32) :
    Laws.Known.Statement (.portConfigWrite src d p win w) := fun _ _ h => absurd h List.not_mem_nil
theorem Laws.Known.portCountRead (src : Src) (d : Fin 4) (p : Fin 64) :
    Laws.Known.Statement (.portCountRead src d p) := fun _ _ h => absurd h List.not_mem_nil
theorem Laws.Known.wtPcntRead (src : Src) (d : Fin 4) (t : Fin 2048) :
    Laws.Known.Statement (.wtPcntRead src d t) := fun _ _ h => absurd h List.not_mem_nil
theorem Laws.Known.queueWrite (d : Fin 4) (q : Fin 64) (b : Beat) (bad : Bool) :
    Laws.Known.Statement (.queueWrite d q b bad) := fun _ _ h => absurd h List.not_mem_nil
theorem Laws.Known.queueRead (d : Fin 4) (q : Fin 64) :
    Laws.Known.Statement (.queueRead d q) := fun _ _ h => absurd h List.not_mem_nil
theorem Laws.Known.queueFlush (src : Src) (d : Fin 4) (q : Fin 64) :
    Laws.Known.Statement (.queueFlush src d q) := fun _ _ h => absurd h List.not_mem_nil
theorem Laws.Known.queueFlushRelease (d : Fin 4) (q : Fin 64) :
    Laws.Known.Statement (.queueFlushRelease d q) := fun _ _ h => absurd h List.not_mem_nil
theorem Laws.Known.queueConfigWrite (src : Src) (d : Fin 4) (q : Fin 64) (w : Word32) :
    Laws.Known.Statement (.queueConfigWrite src d q w) := fun _ _ h => absurd h List.not_mem_nil
theorem Laws.Known.queueRegisterPop (src : Src) (d : Fin 4) (q : Fin 64) :
    Laws.Known.Statement (.queueRegisterPop src d q) := fun _ _ h => absurd h List.not_mem_nil
theorem Laws.Known.queueRegisterPush (src : Src) (d : Fin 4) (q : Fin 64) (w : Word32) :
    Laws.Known.Statement (.queueRegisterPush src d q w) := fun _ _ h => absurd h List.not_mem_nil
theorem Laws.Known.dmaRun (src : Src) (d : Fin 4) (q : Fin 64) (w : Word32) :
    Laws.Known.Statement (.dmaRun src d q w) := fun _ _ h => absurd h List.not_mem_nil
theorem Laws.Known.dmaTransfer (d : Fin 4) (q : Fin 64) :
    Laws.Known.Statement (.dmaTransfer d q) := fun _ _ h => absurd h List.not_mem_nil
theorem Laws.Known.dmaPartialFlit (d : Fin 4) (q : Fin 64) :
    Laws.Known.Statement (.dmaPartialFlit d q) := fun _ _ h => absurd h List.not_mem_nil
theorem Laws.Known.dmaResponse (d : Fin 4) (q : Fin 64) (lost : Bool) :
    Laws.Known.Statement (.dmaResponse d q lost) := fun _ _ h => absurd h List.not_mem_nil
theorem Laws.Known.riserSpillWrite (d : Fin 4) (i : Fin 32) :
    Laws.Known.Statement (.riserSpillWrite d i) := fun _ _ h => absurd h List.not_mem_nil
theorem Laws.Known.riserRefillRead (d : Fin 4) (i : Fin 32) :
    Laws.Known.Statement (.riserRefillRead d i) := fun _ _ h => absurd h List.not_mem_nil
theorem Laws.Known.riserResponse (d : Fin 4) (i : Fin 32) (lost : Bool) :
    Laws.Known.Statement (.riserResponse d i lost) := fun _ _ h => absurd h List.not_mem_nil
theorem Laws.Known.publish (r : Req) :
    Laws.Known.Statement (.publish r) := by simp_all [Laws.Known.Statement, Laws.Known.carried, Instr.wf]
theorem Laws.Known.acknowledge (r : Req) :
    Laws.Known.Statement (.acknowledge r) := by simp_all [Laws.Known.Statement, Laws.Known.carried, Instr.wf]
theorem Laws.Known.heldPublishRelease (slot : Fin 4096) :
    Laws.Known.Statement (.heldPublishRelease slot) := fun _ _ h => absurd h List.not_mem_nil
theorem Laws.Known.resultPolicyWrite (src : Src) (slot : Fin 4096) (w : Word32) :
    Laws.Known.Statement (.resultPolicyWrite src slot w) := fun _ _ h => absurd h List.not_mem_nil
theorem Laws.Known.globalClockSwitch (d : Fin 4) (g : Fin 32) (src : ClockSource) (en oldRuns newRuns : Bool) :
    Laws.Known.Statement (.globalClockSwitch d g src en oldRuns newRuns) := fun _ _ h => absurd h List.not_mem_nil
theorem Laws.Known.bramWrite (d : Fin 4) (blk : Fin 2560) (port : Fin 2) (rel : EdgeRel) :
    Laws.Known.Statement (.bramWrite d blk port rel) := fun _ _ h => absurd h List.not_mem_nil
theorem Laws.Known.bramRead (d : Fin 4) (blk : Fin 2560) (port : Fin 2) (rel : EdgeRel) :
    Laws.Known.Statement (.bramRead d blk port rel) := fun _ _ h => absurd h List.not_mem_nil
theorem Laws.Known.bramScrubStep (d : Fin 4) (blk : Fin 2560) (bUsed aWrote : Bool) :
    Laws.Known.Statement (.bramScrubStep d blk bUsed aWrote) := fun _ _ h => absurd h List.not_mem_nil
theorem Laws.Known.bramRawWrite (src : Src) :
    Laws.Known.Statement (.bramRawWrite src) := fun _ _ h => absurd h List.not_mem_nil
theorem Laws.Known.bramRawRead (src : Src) :
    Laws.Known.Statement (.bramRawRead src) := fun _ _ h => absurd h List.not_mem_nil
theorem Laws.Known.bramCheckedRead (src : Src) :
    Laws.Known.Statement (.bramCheckedRead src) := fun _ _ h => absurd h List.not_mem_nil
theorem Laws.Known.mac24Operation (d : Fin 4) (blk : Fin 6144) (rel : EdgeRel) :
    Laws.Known.Statement (.mac24Operation d blk rel) := fun _ _ h => absurd h List.not_mem_nil
theorem Laws.Known.crossingReceive (g : Fin 480) (dir : Fin 2) (err : BitVec 152) (rel : EdgeRel) :
    Laws.Known.Statement (.crossingReceive g dir err rel) := fun _ _ h => absurd h List.not_mem_nil
theorem Laws.Known.probeRotation (g : Fin 480) (dir : Fin 2) :
    Laws.Known.Statement (.probeRotation g dir) := fun _ _ h => absurd h List.not_mem_nil
theorem Laws.Known.spareTestDone (g : Fin 480) (dir : Fin 2) :
    Laws.Known.Statement (.spareTestDone g dir) := fun _ _ h => absurd h List.not_mem_nil
theorem Laws.Known.transientParityFailure (g : Fin 480) (dir : Fin 2) :
    Laws.Known.Statement (.transientParityFailure g dir) := fun _ _ h => absurd h List.not_mem_nil
theorem Laws.Known.holdRequest (g : Fin 480) (dir : Fin 2) :
    Laws.Known.Statement (.holdRequest g dir) := fun _ _ h => absurd h List.not_mem_nil
theorem Laws.Known.probeSubstitute (g : Fin 480) (dir : Fin 2) :
    Laws.Known.Statement (.probeSubstitute g dir) := fun _ _ h => absurd h List.not_mem_nil
theorem Laws.Known.liveShift (g : Fin 480) (dir : Fin 2) :
    Laws.Known.Statement (.liveShift g dir) := fun _ _ h => absurd h List.not_mem_nil
theorem Laws.Known.crossingInject (src : Src) (w : Word32) :
    Laws.Known.Statement (.crossingInject src w) := fun _ _ h => absurd h List.not_mem_nil
theorem Laws.Known.flitReceive (g : Fin 480) (dir : Fin 2) (flit : BitVec 768) (uiBad : BitVec 16) :
    Laws.Known.Statement (.flitReceive g dir flit uiBad) := fun _ _ h => absurd h List.not_mem_nil
theorem Laws.Known.flitReplay (link : Fin 20) (seq : BitVec 12) :
    Laws.Known.Statement (.flitReplay link seq) := fun _ _ h => absurd h List.not_mem_nil
theorem Laws.Known.packetShift (g : Fin 480) (dir : Fin 2) (seq : BitVec 12) :
    Laws.Known.Statement (.packetShift g dir seq) := fun _ _ h => absurd h List.not_mem_nil
theorem Laws.Known.routeDrainStart :
    Laws.Known.Statement (.routeDrainStart) := fun _ _ h => absurd h List.not_mem_nil
theorem Laws.Known.routeSwitch :
    Laws.Known.Statement (.routeSwitch) := fun _ _ h => absurd h List.not_mem_nil
theorem Laws.Known.wireCheckDone (fails : List (Nat × Nat × List Nat)) (flash : FlashDir) :
    Laws.Known.Statement (.wireCheckDone fails flash) := fun _ _ h => absurd h List.not_mem_nil
theorem Laws.Known.loadPattern (src : Src) (p : Fin 4) :
    Laws.Known.Statement (.loadPattern src p) := fun _ _ h => absurd h List.not_mem_nil
theorem Laws.Known.loadMaster (src : Src) :
    Laws.Known.Statement (.loadMaster src) := fun _ _ h => absurd h List.not_mem_nil
theorem Laws.Known.hostStart (src : Src) :
    Laws.Known.Statement (.hostStart src) := fun _ _ h => absurd h List.not_mem_nil
theorem Laws.Known.abortLoad (src : Src) :
    Laws.Known.Statement (.abortLoad src) := fun _ _ h => absurd h List.not_mem_nil
theorem Laws.Known.unload (src : Src) :
    Laws.Known.Statement (.unload src) := fun _ _ h => absurd h List.not_mem_nil
theorem Laws.Known.loadFlaskFromMemory (src : Src) :
    Laws.Known.Statement (.loadFlaskFromMemory src) := fun _ _ h => absurd h List.not_mem_nil
theorem Laws.Known.bar4Write (off : BitVec 28) (data : List Byte) :
    Laws.Known.Statement (.bar4Write off data) := fun _ _ h => absurd h List.not_mem_nil
theorem Laws.Known.headerReceived (flash : Option FlashRead) :
    Laws.Known.Statement (.headerReceived flash) := fun _ _ h => absurd h List.not_mem_nil
theorem Laws.Known.chunkReceived (flash : Option FlashRead) :
    Laws.Known.Statement (.chunkReceived flash) := fun _ _ h => absurd h List.not_mem_nil
theorem Laws.Known.framesRecord :
    Laws.Known.Statement (.framesRecord) := fun _ _ h => absurd h List.not_mem_nil
theorem Laws.Known.tileDataRecord :
    Laws.Known.Statement (.tileDataRecord) := fun _ _ h => absurd h List.not_mem_nil
theorem Laws.Known.registerSettingsRecord :
    Laws.Known.Statement (.registerSettingsRecord) := fun _ _ h => absurd h List.not_mem_nil
theorem Laws.Known.crossingTableRecord :
    Laws.Known.Statement (.crossingTableRecord) := fun _ _ h => absurd h List.not_mem_nil
theorem Laws.Known.pinTableRecord :
    Laws.Known.Statement (.pinTableRecord) := fun _ _ h => absurd h List.not_mem_nil
theorem Laws.Known.dieEndRecord :
    Laws.Known.Statement (.dieEndRecord) := fun _ _ h => absurd h List.not_mem_nil
theorem Laws.Known.endOfChunkRecord :
    Laws.Known.Statement (.endOfChunkRecord) := fun _ _ h => absurd h List.not_mem_nil
theorem Laws.Known.loadClearDone :
    Laws.Known.Statement (.loadClearDone) := fun _ _ h => absurd h List.not_mem_nil
theorem Laws.Known.hostDeadlineExpiry :
    Laws.Known.Statement (.hostDeadlineExpiry) := fun _ _ h => absurd h List.not_mem_nil
theorem Laws.Known.crossingTrainingDone :
    Laws.Known.Statement (.crossingTrainingDone) := fun _ _ h => absurd h List.not_mem_nil
theorem Laws.Known.startUpSequence :
    Laws.Known.Statement (.startUpSequence) := fun _ _ h => absurd h List.not_mem_nil
theorem Laws.Known.startupGsr :
    Laws.Known.Statement (.startupGsr) := fun _ _ h => absurd h List.not_mem_nil
theorem Laws.Known.startupIoen :
    Laws.Known.Statement (.startupIoen) := fun _ _ h => absurd h List.not_mem_nil
theorem Laws.Known.startupGwe :
    Laws.Known.Statement (.startupGwe) := fun _ _ h => absurd h List.not_mem_nil
theorem Laws.Known.startupDone :
    Laws.Known.Statement (.startupDone) := fun _ _ h => absurd h List.not_mem_nil
theorem Laws.Known.legacyStartupEvent (e : Fin 3) :
    Laws.Known.Statement (.legacyStartupEvent e) := fun _ _ h => absurd h List.not_mem_nil
theorem Laws.Known.perstNAssert :
    Laws.Known.Statement (.perstNAssert) := fun _ _ h => absurd h List.not_mem_nil
theorem Laws.Known.perstNRelease :
    Laws.Known.Statement (.perstNRelease) := fun _ _ h => absurd h List.not_mem_nil
theorem Laws.Known.capture (src : Src) (flask : Fin 64) (net : Fin 32) :
    Laws.Known.Statement (.capture src flask net) := fun _ _ h => absurd h List.not_mem_nil
theorem Laws.Known.captureTaken (near : List Nat) :
    Laws.Known.Statement (.captureTaken near) := fun _ _ h => absurd h List.not_mem_nil
theorem Laws.Known.readCaptureFrame (src : Src) (flask : Fin 64) (k : BitVec 16) :
    Laws.Known.Statement (.readCaptureFrame src flask k) := fun _ _ h => absurd h List.not_mem_nil
theorem Laws.Known.readConfigurationFrame (src : Src) (die : Fin 4) (frame : BitVec 16) :
    Laws.Known.Statement (.readConfigurationFrame src die frame) := fun _ _ h => absurd h List.not_mem_nil
theorem Laws.Known.cancelCapture (src : Src) (flask : Fin 64) :
    Laws.Known.Statement (.cancelCapture src flask) := fun _ _ h => absurd h List.not_mem_nil
theorem Laws.Known.readbackLockRead (src : Src) :
    Laws.Known.Statement (.readbackLockRead src) := fun _ _ h => absurd h List.not_mem_nil
theorem Laws.Known.readbackLockRelease (src : Src) :
    Laws.Known.Statement (.readbackLockRelease src) := fun _ _ h => absurd h List.not_mem_nil
theorem Laws.Known.fettlerFrameCheck (d : Fin 4) (upset : Option (List Byte)) (misread : Bool) (vote : Option Byte) :
    Laws.Known.Statement (.fettlerFrameCheck d upset misread vote) := fun _ _ h => absurd h List.not_mem_nil
theorem Laws.Known.fettlerRequestPop (src : Src) (d : Fin 4) (flash : Option (FlashRead × FlashRead)) :
    Laws.Known.Statement (.fettlerRequestPop src d flash) := fun _ _ h => absurd h List.not_mem_nil
theorem Laws.Known.writeFrame (src : Src) (die : Fin 4) (frame : BitVec 16) :
    Laws.Known.Statement (.writeFrame src die frame) := fun _ _ h => absurd h List.not_mem_nil
theorem Laws.Known.writeFrameRebuildSignature (src : Src) (die : Fin 4) (frame : BitVec 16) :
    Laws.Known.Statement (.writeFrameRebuildSignature src die frame) := fun _ _ h => absurd h List.not_mem_nil
theorem Laws.Known.frameRewriteDone (back : Option (List Byte)) :
    Laws.Known.Statement (.frameRewriteDone back) := fun _ _ h => absurd h List.not_mem_nil
theorem Laws.Known.readLegacyFrame (src : Src) (frame : BitVec 24) :
    Laws.Known.Statement (.readLegacyFrame src frame) := fun _ _ h => absurd h List.not_mem_nil
theorem Laws.Known.legacyCaptureTrigger (near : List Nat) :
    Laws.Known.Statement (.legacyCaptureTrigger near) := fun _ _ h => absurd h List.not_mem_nil
theorem Laws.Known.legacyGlobalSetReset (level : Bool) :
    Laws.Known.Statement (.legacyGlobalSetReset level) := fun _ _ h => absurd h List.not_mem_nil
theorem Laws.Known.legacyPinClockLost (f : Fin 8) :
    Laws.Known.Statement (.legacyPinClockLost f) := fun _ _ h => absurd h List.not_mem_nil
theorem Laws.Known.legacyPllRelock (f : Fin 8) :
    Laws.Known.Statement (.legacyPllRelock f) := fun _ _ h => absurd h List.not_mem_nil
theorem Laws.Known.nocRequestInject (r : Req) (panic : Bool) :
    Laws.Known.Statement (.nocRequestInject r panic) := by simp_all [Laws.Known.Statement, Laws.Known.carried, Instr.wf]
theorem Laws.Known.routerForward (r : Fin 116) (port : Fin 8) (arrive : Option RouterFlit) (credit : BitVec 8) :
    Laws.Known.Statement (.routerForward r port arrive credit) := fun _ _ h => absurd h List.not_mem_nil
theorem Laws.Known.targetRequest (r : Req) :
    Laws.Known.Statement (.targetRequest r) := by simp_all [Laws.Known.Statement, Laws.Known.carried, Instr.wf]
theorem Laws.Known.responseArrival (r : Req) (code : Fin 8) (stamp : BitVec 16) (data : List Byte) (bad : List Nat) :
    Laws.Known.Statement (.responseArrival r code stamp data bad) := by simp_all [Laws.Known.Statement, Laws.Known.carried, Instr.wf]
theorem Laws.Known.masterTimeout (m : Fin 64) (core : Fin 4) (t : Fin 1024) :
    Laws.Known.Statement (.masterTimeout m core t) := fun _ _ h => absurd h List.not_mem_nil
theorem Laws.Known.tagRelease (m : Fin 64) (t : Fin 1024) :
    Laws.Known.Statement (.tagRelease m t) := fun _ _ h => absurd h List.not_mem_nil
theorem Laws.Known.targetTimeout (r : Req) :
    Laws.Known.Statement (.targetTimeout r) := by simp_all [Laws.Known.Statement, Laws.Known.carried, Instr.wf]
theorem Laws.Known.histogramLevelSample (h : Fin 16) (measured : Nat) :
    Laws.Known.Statement (.histogramLevelSample h measured) := fun _ _ h => absurd h List.not_mem_nil
theorem Laws.Known.histogramClear (src : Src) (h : Fin 16) (w : Word32) :
    Laws.Known.Statement (.histogramClear src h w) := fun _ _ h => absurd h List.not_mem_nil
theorem Laws.Known.traceClear (src : Src) (r : Fin 116) :
    Laws.Known.Statement (.traceClear src r) := fun _ _ h => absurd h List.not_mem_nil
theorem Laws.Known.nocMstatRead (src : Src) (m : Fin 64) :
    Laws.Known.Statement (.nocMstatRead src m) := fun _ _ h => absurd h List.not_mem_nil
theorem Laws.Known.probeCountRead (src : Src) (r : Fin 116) (k : Fin 4) :
    Laws.Known.Statement (.probeCountRead src r k) := fun _ _ h => absurd h List.not_mem_nil
theorem Laws.Known.xgcntRead (src : Src) (g : Fin 480) (dir : Fin 2) :
    Laws.Known.Statement (.xgcntRead src g dir) := fun _ _ h => absurd h List.not_mem_nil
theorem Laws.Known.dramRead (r : Req) :
    Laws.Known.Statement (.dramRead r) := by simp_all [Laws.Known.Statement, Laws.Known.carried, Instr.wf]
theorem Laws.Known.dramWrite (r : Req) :
    Laws.Known.Statement (.dramWrite r) := by simp_all [Laws.Known.Statement, Laws.Known.carried, Instr.wf]
theorem Laws.Known.correctionWriteback (block : BitVec 42) :
    Laws.Known.Statement (.correctionWriteback block) := fun _ _ h => absurd h List.not_mem_nil
theorem Laws.Known.patrolScrub (hbm : Bool) (unit : Fin 4) :
    Laws.Known.Statement (.patrolScrub hbm unit) := fun _ _ h => absurd h List.not_mem_nil
theorem Laws.Known.refresh (bank : BitVec 32) :
    Laws.Known.Statement (.refresh bank) := fun _ _ h => absurd h List.not_mem_nil
theorem Laws.Known.pageTimeout (bank : BitVec 32) :
    Laws.Known.Statement (.pageTimeout bank) := fun _ _ h => absurd h List.not_mem_nil
theorem Laws.Known.powerDownEntry (hbm : Bool) (unit : Fin 4) (rank : BitVec 32) :
    Laws.Known.Statement (.powerDownEntry hbm unit rank) := fun _ _ h => absurd h List.not_mem_nil
theorem Laws.Known.dramTemperatureRead (hbm : Bool) (unit : Fin 4) (temp : Int) :
    Laws.Known.Statement (.dramTemperatureRead hbm unit temp) := fun _ _ h => absurd h List.not_mem_nil
theorem Laws.Known.tracking (hbm : Bool) (unit : Fin 4) (sub : Fin 32) :
    Laws.Known.Statement (.tracking hbm unit sub) := fun _ _ h => absurd h List.not_mem_nil
theorem Laws.Known.periodicRetrain (hbm : Bool) (unit : Fin 4) (rank : BitVec 32) (busy fin : Bool) :
    Laws.Known.Statement (.periodicRetrain hbm unit rank busy fin) := fun _ _ h => absurd h List.not_mem_nil
theorem Laws.Known.commandParityError (hbm : Bool) (unit : Fin 4) (sub : Fin 32) (again retrained : Bool) (reqs : List Req) :
    Laws.Known.Statement (.commandParityError hbm unit sub again retrained reqs) := by simp [Laws.Known.Statement, Laws.Known.carried, Instr.wf]
theorem Laws.Known.softRepair (src : Src) (hbm : Bool) :
    Laws.Known.Statement (.softRepair src hbm) := fun _ _ h => absurd h List.not_mem_nil
theorem Laws.Known.hardRepair (src : Src) (hbm : Bool) :
    Laws.Known.Statement (.hardRepair src hbm) := fun _ _ h => absurd h List.not_mem_nil
theorem Laws.Known.repairComplete (hbm : Bool) (res : Fin 8) :
    Laws.Known.Statement (.repairComplete hbm res) := fun _ _ h => absurd h List.not_mem_nil
theorem Laws.Known.poisonBlock (src : Src) :
    Laws.Known.Statement (.poisonBlock src) := fun _ _ h => absurd h List.not_mem_nil
theorem Laws.Known.clearBlock (src : Src) :
    Laws.Known.Statement (.clearBlock src) := fun _ _ h => absurd h List.not_mem_nil
theorem Laws.Known.regionEnable (src : Src) (r : Fin 64) (w : Word32) :
    Laws.Known.Statement (.regionEnable src r w) := fun _ _ h => absurd h List.not_mem_nil
theorem Laws.Known.regionInitDone (r : Fin 64) :
    Laws.Known.Statement (.regionInitDone r) := fun _ _ h => absurd h List.not_mem_nil
theorem Laws.Known.regionDisable (src : Src) (r : Fin 64) (w : Word32) :
    Laws.Known.Statement (.regionDisable src r w) := fun _ _ h => absurd h List.not_mem_nil
theorem Laws.Known.encryptedRead (r : Req) :
    Laws.Known.Statement (.encryptedRead r) := by simp_all [Laws.Known.Statement, Laws.Known.carried, Instr.wf]
theorem Laws.Known.encryptedWrite (r : Req) :
    Laws.Known.Statement (.encryptedWrite r) := by simp_all [Laws.Known.Statement, Laws.Known.carried, Instr.wf]
theorem Laws.Known.sectorEviction (e : Fin 6) :
    Laws.Known.Statement (.sectorEviction e) := fun _ _ h => absurd h List.not_mem_nil
theorem Laws.Known.loadNewKey (src : Src) (r : Fin 64) :
    Laws.Known.Statement (.loadNewKey src r) := fun _ _ h => absurd h List.not_mem_nil
theorem Laws.Known.loadCurrentKey (src : Src) (r : Fin 64) :
    Laws.Known.Statement (.loadCurrentKey src r) := fun _ _ h => absurd h List.not_mem_nil
theorem Laws.Known.zeroKeyBuffer (src : Src) :
    Laws.Known.Statement (.zeroKeyBuffer src) := fun _ _ h => absurd h List.not_mem_nil
theorem Laws.Known.clearSector (src : Src) :
    Laws.Known.Statement (.clearSector src) := fun _ _ h => absurd h List.not_mem_nil
theorem Laws.Known.poisonSector (src : Src) :
    Laws.Known.Statement (.poisonSector src) := fun _ _ h => absurd h List.not_mem_nil
theorem Laws.Known.rebuildLostNode (src : Src) :
    Laws.Known.Statement (.rebuildLostNode src) := fun _ _ h => absurd h List.not_mem_nil
theorem Laws.Known.rekey (src : Src) (r : Fin 64) (w : Word32) :
    Laws.Known.Statement (.rekey src r w) := fun _ _ h => absurd h List.not_mem_nil
theorem Laws.Known.rekeyWalkStep (r : Fin 64) :
    Laws.Known.Statement (.rekeyWalkStep r) := fun _ _ h => absurd h List.not_mem_nil
theorem Laws.Known.rotationComplete (r : Fin 64) :
    Laws.Known.Statement (.rotationComplete r) := fun _ _ h => absurd h List.not_mem_nil
theorem Laws.Known.bucketLeak :
    Laws.Known.Statement (.bucketLeak) := fun _ _ h => absurd h List.not_mem_nil
theorem Laws.Known.rawWrite (src : Src) :
    Laws.Known.Statement (.rawWrite src) := fun _ _ h => absurd h List.not_mem_nil
theorem Laws.Known.rawRead (src : Src) :
    Laws.Known.Statement (.rawRead src) := fun _ _ h => absurd h List.not_mem_nil
theorem Laws.Known.checkedRead (src : Src) :
    Laws.Known.Statement (.checkedRead src) := fun _ _ h => absurd h List.not_mem_nil
theorem Laws.Known.parityInject (src : Src) (w : Word32) :
    Laws.Known.Statement (.parityInject src w) := fun _ _ h => absurd h List.not_mem_nil
theorem Laws.Known.logEntryAccept :
    Laws.Known.Statement (.logEntryAccept) := fun _ _ h => absurd h List.not_mem_nil
theorem Laws.Known.logReadCopy (src : Src) (p : Fin 4) (q : Word32) :
    Laws.Known.Statement (.logReadCopy src p q) := fun _ _ h => absurd h List.not_mem_nil
theorem Laws.Known.logPersist (n : Fin 4097) (erased : Nat) :
    Laws.Known.Statement (.logPersist n erased) := fun _ _ h => absurd h List.not_mem_nil
theorem Laws.Known.laneEnable (src : Src) (l : Fin 40) (w : Word32) :
    Laws.Known.Statement (.laneEnable src l w) := fun _ _ h => absurd h List.not_mem_nil
theorem Laws.Known.lanePinCheckDone (l : Fin 40) (fault : Fin 5) :
    Laws.Known.Statement (.lanePinCheckDone l fault) := fun _ _ h => absurd h List.not_mem_nil
theorem Laws.Known.rxLock (l : Fin 40) (ps : Word32) :
    Laws.Known.Statement (.rxLock l ps) := fun _ _ h => absurd h List.not_mem_nil
theorem Laws.Known.lockLossTimeout (l : Fin 40) :
    Laws.Known.Statement (.lockLossTimeout l) := fun _ _ h => absurd h List.not_mem_nil
theorem Laws.Known.fallBackRequest (l : Fin 40) :
    Laws.Known.Statement (.fallBackRequest l) := fun _ _ h => absurd h List.not_mem_nil
theorem Laws.Known.fallBackDetect (l : Fin 40) :
    Laws.Known.Statement (.fallBackDetect l) := fun _ _ h => absurd h List.not_mem_nil
theorem Laws.Known.fallBackEnd (l : Fin 40) (inv : BitVec 4) (rev fail : Bool) :
    Laws.Known.Statement (.fallBackEnd l inv rev fail) := fun _ _ h => absurd h List.not_mem_nil
theorem Laws.Known.adaptationEpoch (l : Fin 40) :
    Laws.Known.Statement (.adaptationEpoch l) := fun _ _ h => absurd h List.not_mem_nil
theorem Laws.Known.fecCodewordReceive (l : Fin 40) (wrong : Nat) :
    Laws.Known.Statement (.fecCodewordReceive l wrong) := fun _ _ h => absurd h List.not_mem_nil
theorem Laws.Known.laneWordRelease (l : Fin 40) (tx late : Bool) (words : List (List (Fin 4))) :
    Laws.Known.Statement (.laneWordRelease l tx late words) := fun _ _ h => absurd h List.not_mem_nil
theorem Laws.Known.loopbackSelect (src : Src) (l : Fin 40) (w : Word32) :
    Laws.Known.Statement (.loopbackSelect src l w) := fun _ _ h => absurd h List.not_mem_nil
theorem Laws.Known.laneSettingWrite (src : Src) (l : Fin 40) (rate : Bool) (w : Word32) :
    Laws.Known.Statement (.laneSettingWrite src l rate w) := fun _ _ h => absurd h List.not_mem_nil
theorem Laws.Known.fecCountRead (src : Src) (g : Fin 10) :
    Laws.Known.Statement (.fecCountRead src g) := fun _ _ h => absurd h List.not_mem_nil
theorem Laws.Known.cecntRead (src : Src) (hbm : Bool) (unit : Fin 4) :
    Laws.Known.Statement (.cecntRead src hbm unit) := fun _ _ h => absurd h List.not_mem_nil
theorem Laws.Known.tlpRead (bar : Fin 3) (off : BitVec 36) (len : Fin 4097) :
    Laws.Known.Statement (.tlpRead bar off len) := fun _ _ h => absurd h List.not_mem_nil
theorem Laws.Known.tlpWrite (bar : Fin 3) (off : BitVec 36) (data : List Byte) :
    Laws.Known.Statement (.tlpWrite bar off data) := fun _ _ h => absurd h List.not_mem_nil
theorem Laws.Known.translationEnable (src : Src) (n : Fin 16) (w : Word32) :
    Laws.Known.Statement (.translationEnable src n w) := fun _ _ h => absurd h List.not_mem_nil
theorem Laws.Known.governorWindowEnd (avg : BitVec 32) (doms : List Nat) :
    Laws.Known.Statement (.governorWindowEnd avg doms) := fun _ _ h => absurd h List.not_mem_nil
theorem Laws.Known.sequencerRaiseStart :
    Laws.Known.Statement (.sequencerRaiseStart) := fun _ _ h => absurd h List.not_mem_nil
theorem Laws.Known.sequencerFrequencySwitch :
    Laws.Known.Statement (.sequencerFrequencySwitch) := fun _ _ h => absurd h List.not_mem_nil
theorem Laws.Known.sequencerStepComplete :
    Laws.Known.Statement (.sequencerStepComplete) := fun _ _ h => absurd h List.not_mem_nil
theorem Laws.Known.capWrite (src : Src) (w : Word32) :
    Laws.Known.Statement (.capWrite src w) := fun _ _ h => absurd h List.not_mem_nil
theorem Laws.Known.sleepRequest (src : Src) :
    Laws.Known.Statement (.sleepRequest src) := fun _ _ h => absurd h List.not_mem_nil
theorem Laws.Known.deepSleepRequest (src : Src) :
    Laws.Known.Statement (.deepSleepRequest src) := fun _ _ h => absurd h List.not_mem_nil
theorem Laws.Known.runRequest (src : Src) :
    Laws.Known.Statement (.runRequest src) := fun _ _ h => absurd h List.not_mem_nil
theorem Laws.Known.tagDrainComplete :
    Laws.Known.Statement (.tagDrainComplete) := fun _ _ h => absurd h List.not_mem_nil
theorem Laws.Known.smbusReadTemperature :
    Laws.Known.Statement (.smbusReadTemperature) := fun _ _ h => absurd h List.not_mem_nil
theorem Laws.Known.smbusReadPower :
    Laws.Known.Statement (.smbusReadPower) := fun _ _ h => absurd h List.not_mem_nil
theorem Laws.Known.smbusReadStatus :
    Laws.Known.Statement (.smbusReadStatus) := fun _ _ h => absurd h List.not_mem_nil
theorem Laws.Known.smbusWake :
    Laws.Known.Statement (.smbusWake) := fun _ _ h => absurd h List.not_mem_nil
theorem Laws.Known.smbusFirmwareCommand (code : BitVec 8) (reply : Option (List Byte)) :
    Laws.Known.Statement (.smbusFirmwareCommand code reply) := fun _ _ h => absurd h List.not_mem_nil
theorem Laws.Known.sensorSample (n : Fin 12) (temps : List (BitVec 12)) :
    Laws.Known.Statement (.sensorSample n temps) := fun _ _ h => absurd h List.not_mem_nil
theorem Laws.Known.tripRelease (src : Src) (w : Word32) :
    Laws.Known.Statement (.tripRelease src w) := fun _ _ h => absurd h List.not_mem_nil
theorem Laws.Known.ageingMeasurement (n : Fin 12) (ppm : Nat) :
    Laws.Known.Statement (.ageingMeasurement n ppm) := fun _ _ h => absurd h List.not_mem_nil
theorem Laws.Known.mcRestart (watchdog : Bool) :
    Laws.Known.Statement (.mcRestart watchdog) := fun _ _ h => absurd h List.not_mem_nil
theorem Laws.Known.lockRead (src : Src) (c : Fin 32) :
    Laws.Known.Statement (.lockRead src c) := fun _ _ h => absurd h List.not_mem_nil
theorem Laws.Known.lockRelease (src : Src) (c : Fin 32) :
    Laws.Known.Statement (.lockRelease src c) := fun _ _ h => absurd h List.not_mem_nil
theorem Laws.Known.go (src : Src) (c : Fin 32) (len : BitVec 5) :
    Laws.Known.Statement (.go src c len) := fun _ _ h => absurd h List.not_mem_nil
theorem Laws.Known.take (src : Src) (c : Fin 32) :
    Laws.Known.Statement (.take src c) := fun _ _ h => absurd h List.not_mem_nil
theorem Laws.Known.done (src : Src) (c : Fin 32) (len : BitVec 5) :
    Laws.Known.Statement (.done src c len) := fun _ _ h => absurd h List.not_mem_nil
theorem Laws.Known.withdraw (src : Src) (c : Fin 32) :
    Laws.Known.Statement (.withdraw src c) := fun _ _ h => absurd h List.not_mem_nil
theorem Laws.Known.mailboxTimeout (c : Fin 32) :
    Laws.Known.Statement (.mailboxTimeout c) := fun _ _ h => absurd h List.not_mem_nil
theorem Laws.Known.force (src : Src) (c : Fin 32) :
    Laws.Known.Statement (.force src c) := fun _ _ h => absurd h List.not_mem_nil
theorem Laws.Known.logService (c : Fin 9) (busy : Bool) :
    Laws.Known.Statement (.logService c busy) := fun _ _ h => absurd h List.not_mem_nil
theorem Laws.Known.attestation (c : Fin 9) (busy : Bool) :
    Laws.Known.Statement (.attestation c busy) := fun _ _ h => absurd h List.not_mem_nil
theorem Laws.Known.certificateChain (c : Fin 9) (busy : Bool) :
    Laws.Known.Statement (.certificateChain c busy) := fun _ _ h => absurd h List.not_mem_nil
theorem Laws.Known.deviceNonce (c : Fin 9) :
    Laws.Known.Statement (.deviceNonce c) := fun _ _ h => absurd h List.not_mem_nil
theorem Laws.Known.programOwnerKey (c : Fin 9) :
    Laws.Known.Statement (.programOwnerKey c) := fun _ _ h => absurd h List.not_mem_nil
theorem Laws.Known.revokeOwnerKey (c : Fin 9) :
    Laws.Known.Statement (.revokeOwnerKey c) := fun _ _ h => absurd h List.not_mem_nil
theorem Laws.Known.blowHlDis (c : Fin 9) :
    Laws.Known.Statement (.blowHlDis c) := fun _ _ h => absurd h List.not_mem_nil
theorem Laws.Known.revokeImageKey (c : Fin 9) :
    Laws.Known.Statement (.revokeImageKey c) := fun _ _ h => absurd h List.not_mem_nil
theorem Laws.Known.revokeLegacyKey (c : Fin 9) :
    Laws.Known.Statement (.revokeLegacyKey c) := fun _ _ h => absurd h List.not_mem_nil
theorem Laws.Known.keyWrite (c : Fin 9) :
    Laws.Known.Statement (.keyWrite c) := fun _ _ h => absurd h List.not_mem_nil
theorem Laws.Known.checkAndStage (src : Src) :
    Laws.Known.Statement (.checkAndStage src) := fun _ _ h => absurd h List.not_mem_nil
theorem Laws.Known.stagingComplete (ok : Bool) :
    Laws.Known.Statement (.stagingComplete ok) := fun _ _ h => absurd h List.not_mem_nil
theorem Laws.Known.activate (src : Src) :
    Laws.Known.Statement (.activate src) := fun _ _ h => absurd h List.not_mem_nil
theorem Laws.Known.confirm (src : Src) (healthy : Bool) :
    Laws.Known.Statement (.confirm src healthy) := fun _ _ h => absurd h List.not_mem_nil
theorem Laws.Known.discardStagedSet (src : Src) :
    Laws.Known.Statement (.discardStagedSet src) := fun _ _ h => absurd h List.not_mem_nil
theorem Laws.Known.trialTimerExpiry :
    Laws.Known.Statement (.trialTimerExpiry) := fun _ _ h => absurd h List.not_mem_nil
theorem Laws.Known.coreReset (src : Src) (i : Fin 4) :
    Laws.Known.Statement (.coreReset src i) := fun _ _ h => absurd h List.not_mem_nil
theorem Laws.Known.coreBoot (i : Fin 4) (img : List Byte) :
    Laws.Known.Statement (.coreBoot i img) := fun _ _ h => absurd h List.not_mem_nil
theorem Laws.Known.secDrop (src : Src) (i : Fin 4) :
    Laws.Known.Statement (.secDrop src i) := fun _ _ h => absurd h List.not_mem_nil
theorem Laws.Known.watchdogKick (src : Src) (i : Fin 4) :
    Laws.Known.Statement (.watchdogKick src i) := fun _ _ h => absurd h List.not_mem_nil
theorem Laws.Known.clean (src : Src) (hi : BitVec 16) :
    Laws.Known.Statement (.clean src hi) := fun _ _ h => absurd h List.not_mem_nil
theorem Laws.Known.invalidate (src : Src) (hi : BitVec 16) :
    Laws.Known.Statement (.invalidate src hi) := fun _ _ h => absurd h List.not_mem_nil
theorem Laws.Known.cleanAndInvalidate (src : Src) (hi : BitVec 16) :
    Laws.Known.Statement (.cleanAndInvalidate src hi) := fun _ _ h => absurd h List.not_mem_nil
theorem Laws.Known.coreIoAccess (r : Req) (kind : CoreAccess) (pc : BitVec 64) (prv : Fin 4) :
    Laws.Known.Statement (.coreIoAccess r kind pc prv) := by simp_all [Laws.Known.Statement, Laws.Known.carried, Instr.wf]
theorem Laws.Known.triggerHit (i : Fin 4) (t : Fin 8) (kind : Fin 3) (addr val : BitVec 64) (prv : Fin 4) (pc : BitVec 64) (regs : List (BitVec 16 × BitVec 64)) :
    Laws.Known.Statement (.triggerHit i t kind addr val prv pc regs) := fun _ _ h => absurd h List.not_mem_nil
theorem Laws.Known.tapReset :
    Laws.Known.Statement (.tapReset) := fun _ _ h => absurd h List.not_mem_nil
theorem Laws.Known.idcode :
    Laws.Known.Statement (.idcode) := fun _ _ h => absurd h List.not_mem_nil
theorem Laws.Known.samplePreload (cells load : List Bool) :
    Laws.Known.Statement (.samplePreload cells load) := fun _ _ h => absurd h List.not_mem_nil
theorem Laws.Known.extest (cells load : List Bool) :
    Laws.Known.Statement (.extest cells load) := fun _ _ h => absurd h List.not_mem_nil
theorem Laws.Known.extestPulse (cells load : List Bool) :
    Laws.Known.Statement (.extestPulse cells load) := fun _ _ h => absurd h List.not_mem_nil
theorem Laws.Known.extestTrain (cells load : List Bool) :
    Laws.Known.Statement (.extestTrain cells load) := fun _ _ h => absurd h List.not_mem_nil
theorem Laws.Known.clamp :
    Laws.Known.Statement (.clamp) := fun _ _ h => absurd h List.not_mem_nil
theorem Laws.Known.highz :
    Laws.Known.Statement (.highz) := fun _ _ h => absurd h List.not_mem_nil
theorem Laws.Known.dtmcs (w : Word32) :
    Laws.Known.Statement (.dtmcs w) := fun _ _ h => absurd h List.not_mem_nil
theorem Laws.Known.dmi (op : Fin 3) (addr : BitVec 7) (w : Word32) (pc : BitVec 64) (prv : Fin 4) (regs : List (BitVec 16 × BitVec 64)) (exc : Bool) :
    Laws.Known.Statement (.dmi op addr w pc prv regs exc) := fun _ _ h => absurd h List.not_mem_nil
theorem Laws.Known.bypass (code : BitVec 8) :
    Laws.Known.Statement (.bypass code) := fun _ _ h => absurd h List.not_mem_nil
theorem Laws.Known.debugHalt (h : Fin 5) (pc : BitVec 64) (prv : Fin 4) (regs : List (BitVec 16 × BitVec 64)) :
    Laws.Known.Statement (.debugHalt h pc prv regs) := fun _ _ h => absurd h List.not_mem_nil
theorem Laws.Known.debugResume (h : Fin 5) (pc : BitVec 64) (regs : List (BitVec 16 × BitVec 64)) :
    Laws.Known.Statement (.debugResume h pc regs) := fun _ _ h => absurd h List.not_mem_nil
theorem Laws.Known.abstractRegisterAccess (h : Fin 5) (write : Bool) (n : BitVec 16) (v : BitVec 64) :
    Laws.Known.Statement (.abstractRegisterAccess h write n v) := fun _ _ h => absurd h List.not_mem_nil
theorem Laws.Known.abstractMemoryAccess (h : Fin 5) (write : Bool) (size : Fin 4) (addr v : BitVec 64) :
    Laws.Known.Statement (.abstractMemoryAccess h write size addr v) := fun _ _ h => absurd h List.not_mem_nil
theorem Laws.Known.systemBusAccess (write : Bool) (size : Fin 4) (addr v : BitVec 64) :
    Laws.Known.Statement (.systemBusAccess write size addr v) := fun _ _ h => absurd h List.not_mem_nil
theorem Laws.Known.unlock (src : Src) :
    Laws.Known.Statement (.unlock src) := fun _ _ h => absurd h List.not_mem_nil
theorem Laws.Known.unlockCheckDone :
    Laws.Known.Statement (.unlockCheckDone) := fun _ _ h => absurd h List.not_mem_nil
theorem Laws.Known.relock (src : Src) :
    Laws.Known.Statement (.relock src) := fun _ _ h => absurd h List.not_mem_nil
theorem Laws.Known.bankVccoChange (hv : Bool) (bank : Fin 24) (good : Bool) :
    Laws.Known.Statement (.bankVccoChange hv bank good) := fun _ _ h => absurd h List.not_mem_nil
theorem Laws.Known.pinFault (q : Fin 1216) (pad : Bool) :
    Laws.Known.Statement (.pinFault q pad) := fun _ _ h => absurd h List.not_mem_nil
theorem Laws.Known.registerWrite (src : Src) (addr : BitVec 48) (w : Word32) :
    Laws.Known.Statement (.registerWrite src addr w) := fun _ _ h => absurd h List.not_mem_nil
theorem Laws.Known.lossOfLock (l : Fin 40) :
    Laws.Known.Statement (.lossOfLock l) := fun _ _ h => absurd h List.not_mem_nil
theorem Laws.Known.hostLinkStateChange (up flit : Bool) (speed : Fin 7) (width : Fin 17) (link : Fin 3) (d3hot : Bool) :
    Laws.Known.Statement (.hostLinkStateChange up flit speed width link d3hot) := fun _ _ h => absurd h List.not_mem_nil
theorem Laws.Known.trainingComplete (hbm : Bool) (unit : Fin 4) (ok : Bool) (pcs pop : Word32) :
    Laws.Known.Statement (.trainingComplete hbm unit ok pcs pop) := fun _ _ h => absurd h List.not_mem_nil
theorem Laws.Known.flipFlopClockEdge (d : Fin 4) (cl : Fin 131072) (half : Fin 2) (rel : EdgeRel) (hit : List (Fin 32)) :
    Laws.Known.Statement (.flipFlopClockEdge d cl half rel hit) := fun _ _ h => absurd h List.not_mem_nil
theorem Laws.Known.asynchronousSetReset (d : Fin 4) (cl : Fin 131072) (half : Fin 2) :
    Laws.Known.Statement (.asynchronousSetReset d cl half) := fun _ _ h => absurd h List.not_mem_nil

end Sys2Proof

end
end

