-- ==== Sys2Proof/Laws/SMap.lean ====
section
/-!
SUPPORT. Sys2Proof/Laws/SMap.lean: the laws of sparse stores: what a read returns after a write, and that the canonical form
is kept.
-/

namespace Sys2Proof

variable {α : Type}

theorem SMap.find?_insert_same (m : SMap α) (k : Nat) (v : α) : SMap.find? (SMap.insert m k v) k = some v := by
  induction m with
  | nil => simp [SMap.insert, SMap.find?]
  | cons e t ih =>
    obtain ⟨a, w⟩ := e
    simp only [SMap.insert]
    split
    · simp [SMap.find?]
    · split
      · simp [SMap.find?]
      · rename_i h
        simp [SMap.find?, h, ih]

theorem SMap.find?_insert_ne (m : SMap α) {k j : Nat} (v : α) (h : j ≠ k) :
    SMap.find? (SMap.insert m k v) j = SMap.find? m j := by
  induction m with
  | nil => simp [SMap.insert, SMap.find?, h.symm]
  | cons e t ih =>
    obtain ⟨a, w⟩ := e
    simp only [SMap.insert]
    split
    · simp [SMap.find?, h.symm]
    · split
      · rename_i e
        subst e
        simp [SMap.find?, h.symm]
      · simp [SMap.find?, ih]

theorem SMap.insert_insert (m : SMap α) (k : Nat) (v w : α) :
    SMap.insert (SMap.insert m k v) k w = SMap.insert m k w := by
  induction m with
  | nil => simp [SMap.insert]
  | cons e t ih =>
    obtain ⟨a, x⟩ := e
    simp only [SMap.insert]
    split
    · simp [SMap.insert]
    · split
      · simp [SMap.insert]
      · simp_all [SMap.insert]

theorem SMap.find?_erase_ne (m : SMap α) {k j : Nat} (h : j ≠ k) :
    SMap.find? (SMap.erase m k) j = SMap.find? m j := by
  induction m with
  | nil => rfl
  | cons e t ih =>
    obtain ⟨a, w⟩ := e
    have ih' : SMap.find? (List.filter (fun e => e.1 != k) t) j = SMap.find? t j := ih
    by_cases ha : a = k
    · subst ha
      simp [SMap.erase, SMap.find?, h.symm, ih']
    · simp [SMap.erase, SMap.find?, ha, ih']

theorem SMap.find?_erase_same (m : SMap α) (k : Nat) : SMap.find? (SMap.erase m k) k = none := by
  induction m with
  | nil => rfl
  | cons e t ih =>
    obtain ⟨a, w⟩ := e
    have ih' : SMap.find? (List.filter (fun e => e.1 != k) t) k = none := ih
    by_cases ha : a = k
    · subst ha
      simp [SMap.erase, ih']
    · simp [SMap.erase, SMap.find?, ha, ih']

/-! ## Rising keys -/

theorem SMap.rising_cons {a : Nat} {v : α} {t : SMap α} :
    SMap.rising ((a, v) :: t) = true ↔ (∀ e ∈ t, a < e.1) ∧ SMap.rising t = true := by
  induction t generalizing a v with
  | nil => simp [SMap.rising]
  | cons e t ih =>
    obtain ⟨b, w⟩ := e
    have hb : SMap.rising ((a, v) :: (b, w) :: t) = (decide (a < b) && SMap.rising ((b, w) :: t)) := rfl
    rw [hb, Bool.and_eq_true, decide_eq_true_eq]
    constructor
    · rintro ⟨h1, h2⟩
      refine ⟨?_, h2⟩
      intro e he
      rcases List.mem_cons.mp he with rfl | he
      · exact h1
      · exact Nat.lt_trans h1 ((ih.mp h2).1 e he)
    · rintro ⟨h1, h2⟩
      exact ⟨h1 _ (List.mem_cons_self ..), h2⟩

theorem SMap.mem_insert {m : SMap α} {k : Nat} {v : α} {e : Nat × α} (h : e ∈ SMap.insert m k v) : e = (k, v) ∨ e ∈ m := by
  induction m with
  | nil => simpa [SMap.insert] using h
  | cons x t ih =>
    obtain ⟨a, w⟩ := x
    simp only [SMap.insert] at h
    split at h
    · simpa using h
    · split at h
      · simp at h ⊢
        tauto
      · rcases List.mem_cons.mp h with rfl | h
        · simp
        · rcases ih h with h | h
          · exact Or.inl h
          · exact Or.inr (List.mem_cons_of_mem _ h)

theorem SMap.rising_insert {m : SMap α} (h : SMap.rising m = true) (k : Nat) (v : α) :
    SMap.rising (SMap.insert m k v) = true := by
  induction m with
  | nil => rfl
  | cons x t ih =>
    obtain ⟨a, w⟩ := x
    have hc := SMap.rising_cons.mp h
    simp only [SMap.insert]
    split
    · rename_i hk
      refine SMap.rising_cons.mpr ⟨?_, h⟩
      intro e he
      rcases List.mem_cons.mp he with rfl | he
      · exact hk
      · exact Nat.lt_trans hk (hc.1 e he)
    · split
      · rename_i e
        subst e
        exact SMap.rising_cons.mpr hc
      · rename_i h1 h2
        refine SMap.rising_cons.mpr ⟨?_, ih hc.2⟩
        intro e he
        rcases SMap.mem_insert he with rfl | he
        · simp only
          omega
        · exact hc.1 e he

theorem SMap.rising_filter {m : SMap α} (h : SMap.rising m = true) (p : Nat × α → Bool) :
    SMap.rising (List.filter p m) = true := by
  induction m with
  | nil => rfl
  | cons x t ih =>
    obtain ⟨a, w⟩ := x
    have hc := SMap.rising_cons.mp h
    simp only [List.filter]
    split
    · exact SMap.rising_cons.mpr ⟨fun e he => hc.1 e (List.mem_filter.mp he).1, ih hc.2⟩
    · exact ih hc.2

theorem SMap.rising_erase {m : SMap α} (h : SMap.rising m = true) (k : Nat) : SMap.rising (SMap.erase m k) = true :=
  SMap.rising_filter h _

theorem SMap.mem_erase {m : SMap α} {k : Nat} {e : Nat × α} (h : e ∈ SMap.erase m k) : e ∈ m := (List.mem_filter.mp h).1

section
variable [DecidableEq α]

theorem SMap.rising_set (d : α) {m : SMap α} (h : SMap.rising m = true) (k : Nat) (v : α) :
    SMap.rising (SMap.set d m k v) = true := by
  simp only [SMap.set]
  split
  · exact SMap.rising_erase h k
  · exact SMap.rising_insert h k v

/-- The canonical form is rising keys and no entry equal to what an unlisted key reads as. -/
theorem SMap.wf_iff (d : α) (m : SMap α) : SMap.wf d m = true ↔ SMap.rising m = true ∧ ∀ e ∈ m, e.2 ≠ d := by
  induction m with
  | nil => simp [SMap.wf, SMap.rising]
  | cons x t ih =>
    obtain ⟨a, v⟩ := x
    cases t with
    | nil => simp [SMap.wf, SMap.rising]
    | cons y t =>
      obtain ⟨b, w⟩ := y
      have hw : SMap.wf d ((a, v) :: (b, w) :: t) = (decide (v ≠ d) && decide (a < b) && SMap.wf d ((b, w) :: t)) := rfl
      have hr : SMap.rising ((a, v) :: (b, w) :: t) = (decide (a < b) && SMap.rising ((b, w) :: t)) := rfl
      rw [hw, hr, Bool.and_eq_true, Bool.and_eq_true, Bool.and_eq_true, ih]
      simp only [decide_eq_true_eq, List.forall_mem_cons]
      tauto

theorem SMap.wf_set {d : α} {m : SMap α} (h : SMap.wf d m = true) (k : Nat) (v : α) :
    SMap.wf d (SMap.set d m k v) = true := by
  have hm := (SMap.wf_iff d m).mp h
  refine (SMap.wf_iff d _).mpr ⟨SMap.rising_set d hm.1 k v, ?_⟩
  intro e he
  simp only [SMap.set] at he
  split at he
  · exact hm.2 e (SMap.mem_erase he)
  · rename_i hv
    rcases SMap.mem_insert he with rfl | he
    · exact hv
    · exact hm.2 e he

theorem SMap.wf_filter {d : α} {m : SMap α} (h : SMap.wf d m = true) (p : Nat × α → Bool) :
    SMap.wf d (List.filter p m) = true := by
  have hm := (SMap.wf_iff d m).mp h
  exact (SMap.wf_iff d _).mpr ⟨SMap.rising_filter hm.1 p, fun e he => hm.2 e (List.mem_filter.mp he).1⟩

theorem SMap.wf_clear {d : α} {m : SMap α} (h : SMap.wf d m = true) (p : Nat → Bool) : SMap.wf d (SMap.clear m p) = true :=
  SMap.wf_filter h _

theorem SMap.get_set_ne (d : α) (m : SMap α) {k j : Nat} (v : α) (h : j ≠ k) :
    SMap.get d (SMap.set d m k v) j = SMap.get d m j := by
  simp only [SMap.get, SMap.set]
  split
  · rw [SMap.find?_erase_ne m h]
  · rw [SMap.find?_insert_ne m v h]

/-- Reading what was written. -/
theorem SMap.get_set_same (d : α) (m : SMap α) (k : Nat) (v : α) : SMap.get d (SMap.set d m k v) k = v := by
  simp only [SMap.get, SMap.set]
  split
  · rename_i e
    rw [SMap.find?_erase_same, e]
    rfl
  · rw [SMap.find?_insert_same]
    rfl

end

end Sys2Proof
end

