-- ==== Sys2Proof/Laws/Sound.lean ====
section
/-!
SUPPORT. Sys2Proof/Laws/Sound.lean: what no operation breaks, as one predicate of the state before and the state after, with
its rules.
-/

namespace Sys2Proof.Machine

/-- What holds of a state `s` and is kept: the register store and the DRAM in canonical form, no unit with more than 8 log
entries awaiting the ring (R434), at most 64 held publishes (R202); and, against the state `was` before, the same waiting
commands, nothing taken back of what left the block, and no free value drawn again. -/
structure Sound (was s : State) : Prop where
  regs : SMap.rising s.regs = true
  mem : SMap.wf 0#8 s.dram.bytes = true
  units : ∀ k, (s.log.queue.filter (fun e => e.source == k)).length ≤ 8
  held : s.heldPubs.length ≤ 64
  queue : s.pending = was.pending
  out : was.outbox <+: s.outbox
  free : was.free ≤ s.free

/-- A meaning answers a next state, of which the same holds. -/
structure SoundOut (was : State) (x : Out) : Prop where
  next_ : ∃ t, x = .next t ∧ Sound was t

/-- The same of the state that a function returns beside other results, or may return. -/
structure Sound2 {α : Type} (was : State) (x : α × State) : Prop where
  snd : Sound was x.2
structure Sound3 {α β : Type} (was : State) (x : α × β × State) : Prop where
  last : Sound was x.2.2
structure Sound4 {α β γ : Type} (was : State) (x : α × β × γ × State) : Prop where
  last : Sound was x.2.2.2
structure SoundO (was : State) (x : Option State) : Prop where
  all : ∀ t, x = some t → Sound was t
structure SoundO2 {α : Type} (was : State) (x : Option (α × State)) : Prop where
  all : ∀ a t, x = some (a, t) → Sound was t
structure SoundO4 {α β γ : Type} (was : State) (x : Option (α × β × γ × State)) : Prop where
  all : ∀ a b c t, x = some (a, b, c, t) → Sound was t

section
variable {was : State}

theorem SoundOut.next {s : State} (h : Sound was s) : SoundOut was (.next s) := ⟨s, rfl, h⟩
theorem SoundOut.of {x : Out} {t : State} (e : x = .next t) (h : SoundOut was x) : Sound was t := by
  obtain ⟨u, f, h⟩ := h.next_
  cases e.symm.trans f
  exact h
theorem Sound2.pair {α : Type} {a : α} {s : State} (h : Sound was s) : Sound2 was (a, s) := ⟨h⟩
theorem Sound2.of {α : Type} {x : α × State} {a : α} {t : State} (e : x = (a, t)) (h : Sound2 was x) : Sound was t := by
  subst e; exact h.snd
theorem Sound3.pair {α β : Type} {a : α} {b : β} {s : State} (h : Sound was s) : Sound3 was (a, b, s) := ⟨h⟩
theorem Sound3.of {α β : Type} {x : α × β × State} {a : α} {b : β} {t : State} (e : x = (a, b, t)) (h : Sound3 was x) :
    Sound was t := by subst e; exact h.last
theorem Sound4.pair {α β γ : Type} {a : α} {b : β} {c : γ} {s : State} (h : Sound was s) : Sound4 was (a, b, c, s) := ⟨h⟩
theorem Sound4.of {α β γ : Type} {x : α × β × γ × State} {a : α} {b : β} {c : γ} {t : State} (e : x = (a, b, c, t))
    (h : Sound4 was x) : Sound was t := by subst e; exact h.last
theorem SoundO.none_ : SoundO was none := ⟨fun t e => by cases e⟩
theorem SoundO.some_ {s : State} (h : Sound was s) : SoundO was (some s) := ⟨fun t e => by cases e; exact h⟩
theorem SoundO.of {x : Option State} {t : State} (e : x = some t) (h : SoundO was x) : Sound was t := h.all t e
theorem SoundO2.none_ {α : Type} : SoundO2 was (none : Option (α × State)) := ⟨fun a t e => by cases e⟩
theorem SoundO2.some_ {α : Type} {a : α} {s : State} (h : Sound was s) : SoundO2 was (some (a, s)) :=
  ⟨fun b t e => by cases e; exact h⟩
theorem SoundO2.of {α : Type} {x : Option (α × State)} {a : α} {t : State} (e : x = some (a, t)) (h : SoundO2 was x) :
    Sound was t := h.all a t e
theorem SoundO4.none_ {α β γ : Type} : SoundO4 was (none : Option (α × β × γ × State)) := ⟨fun a b c t e => by cases e⟩
theorem SoundO4.some_ {α β γ : Type} {a : α} {b : β} {c : γ} {s : State} (h : Sound was s) :
    SoundO4 was (some (a, b, c, s)) := ⟨fun a' b' c' t e => by cases e; exact h⟩
theorem SoundO4.of {α β γ : Type} {x : Option (α × β × γ × State)} {a : α} {b : β} {c : γ} {t : State}
    (e : x = some (a, b, c, t)) (h : SoundO4 was x) : Sound was t := h.all a b c t e

/-- A state computed on the way. -/
theorem Sound.cut {u : State} {G : Prop} (h : Sound was u) (k : Sound was u → G) : G := k h

/-- A fold whose every step keeps it keeps it. -/
theorem Sound.foldl {α : Type} {f : State → α → State} {l : List α} {s : State} (hf : ∀ s x, Sound was s → Sound was (f s x))
    (h : Sound was s) : Sound was (l.foldl f s) := by
  induction l generalizing s with
  | nil => exact h
  | cons a t ih => exact ih (hf s a h)

/-- The same of a fold that carries other results beside the state. -/
theorem Sound2.foldl {α β : Type} {f : α × State → β → α × State} {l : List β} {p : α × State}
    (hf : ∀ p x, Sound was p.2 → Sound2 was (f p x)) (h : Sound was p.2) : Sound2 was (l.foldl f p) := by
  induction l generalizing p with
  | nil => exact ⟨h⟩
  | cons a t ih => exact ih (hf p a h).snd

/-- The same of a fold that carries two results beside the state. -/
theorem Sound3.foldl {α β γ : Type} {f : α × β × State → γ → α × β × State} {l : List γ} {p : α × β × State}
    (hf : ∀ p x, Sound was p.2.2 → Sound3 was (f p x)) (h : Sound was p.2.2) : Sound3 was (l.foldl f p) := by
  induction l generalizing p with
  | nil => exact ⟨h⟩
  | cons a t ih => exact ih (hf p a h).last

/-- The same of a fold that may fail. -/
theorem SoundO.foldlM {α : Type} {f : State → α → Option State} {l : List α} {s : State}
    (hf : ∀ s x, Sound was s → SoundO was (f s x)) (h : Sound was s) : SoundO was (l.foldlM f s) := by
  induction l generalizing s with
  | nil => exact SoundO.some_ h
  | cons a t ih =>
    have h1 := hf s a h
    rw [List.foldlM_cons]
    generalize f s a = o at h1
    cases o
    · exact SoundO.none_
    · exact ih (h1.all _ rfl)

theorem Sound.ite {c : Prop} [Decidable c] {a b : State} (ha : Sound was a) (hb : Sound was b) :
    Sound was (if c then a else b) := by
  split
  · exact ha
  · exact hb

theorem SoundOut.ite {c : Prop} [Decidable c] {a b : Out} (ha : SoundOut was a) (hb : SoundOut was b) :
    SoundOut was (if c then a else b) := by
  split
  · exact ha
  · exact hb

theorem Sound2.ite {α : Type} {c : Prop} [Decidable c] {a b : α × State} (ha : Sound2 was a) (hb : Sound2 was b) :
    Sound2 was (if c then a else b) := by
  split
  · exact ha
  · exact hb

theorem Sound3.ite {α β : Type} {c : Prop} [Decidable c] {a b : α × β × State} (ha : Sound3 was a) (hb : Sound3 was b) :
    Sound3 was (if c then a else b) := by
  split
  · exact ha
  · exact hb

theorem SoundO.ite {c : Prop} [Decidable c] {a b : Option State} (ha : SoundO was a) (hb : SoundO was b) :
    SoundO was (if c then a else b) := by
  split
  · exact ha
  · exact hb

/-- A record update of anything but what Sound speaks of. -/
theorem Sound.mk_ {was s : State} {clk : ClkSt} {pins : PinSt} {tb : TbSt} {wa : SMap WaDie} {queues : SMap QueueSt}
    {dma : SMap DmaSt} {risers : SMap RiserSt} {riserLast : Nat} {slots : SMap Slot} {dram : Dram} {noc : NocSt} {xg : SMap XGroup} {links :
    SMap LinkSt} {lanes : LaneSt} {encR : SMap EncRegion} {encE : SMap EncEngine} {log : LogSt} {fab : FabSt} {load :
    LoadSt} {otp : Otp} {pwr : PwrSt} {mbx : SMap MbxSt} {upd : UpdSt} {cores : SMap CoreSt} {l2 : SMap L2Line} {dbg :
    DbgSt} {plic : BitVec 512} {plicBusy : BitVec 512} {deferred : List WaitingWrite} (h : Sound was s) (e : dram.bytes
    = s.dram.bytes) (f : log.queue = s.log.queue) :
    Sound was (State.mk s.regs clk pins tb wa queues dma risers riserLast slots s.heldPubs dram noc xg links lanes encR encE log
      fab load otp pwr mbx upd cores l2 dbg plic plicBusy deferred s.free s.outbox s.pending) :=
  ⟨h.regs, by simpa [e] using h.mem, by simpa [f] using h.units, h.held, h.queue, h.out, h.free⟩

/-- The DRAM replaced by one in canonical form. -/
theorem Sound.dram_ {s : State} {d : Dram} (h : Sound was s) (hd : SMap.wf 0#8 d.bytes = true) :
    Sound was { s with dram := d } := ⟨h.regs, hd, h.units, h.held, h.queue, h.out, h.free⟩

/-- The table of held publishes replaced by one that fits. -/
theorem Sound.held_ {s : State} {l : List HeldPub} (h : Sound was s) (hl : l.length ≤ 64) :
    Sound was { s with heldPubs := l } := ⟨h.regs, h.mem, h.units, hl, h.queue, h.out, h.free⟩

/-- The outbox replaced by a longer one. -/
theorem Sound.outbox_ {s : State} {l : List Output} (h : Sound was s) (hl : was.outbox <+: l) :
    Sound was { s with outbox := l } := ⟨h.regs, h.mem, h.units, h.held, h.queue, hl, h.free⟩

/-- The log queue replaced by one with no new entry. -/
theorem Sound.log_ {s : State} {l : LogSt} (h : Sound was s) (hl : List.Sublist l.queue s.log.queue) :
    Sound was { s with log := l } :=
  ⟨h.regs, h.mem, fun k => Nat.le_trans (hl.filter _).length_le (h.units k), h.held, h.queue, h.out, h.free⟩

/-- The waiting commands replaced on both sides. -/
theorem Sound.requeue {s : State} (h : Sound was s) (l : List Instr) :
    Sound { was with pending := l } { s with pending := l } :=
  ⟨h.regs, h.mem, h.units, h.held, rfl, h.out, h.free⟩

end

/-- Sound but for commands that now wait. -/
def SoundQ (was s : State) : Prop := ∃ l, Sound { was with pending := l } s

theorem SoundQ.of {was s : State} (h : Sound was s) : SoundQ was s := ⟨was.pending, h⟩

theorem SoundQ.after {was s t : State} (h : SoundQ was s) (k : ∀ w, Sound w s → Sound w t) : SoundQ was t :=
  by
  obtain ⟨l, h⟩ := h
  exact ⟨l, k _ h⟩

theorem SoundQ.requeue {was s : State} (h : SoundQ was s) (l : List Instr) : SoundQ was { s with pending := l } := by
  obtain ⟨_, h⟩ := h
  exact ⟨l, h.requeue l⟩

theorem SoundQ.foldl {α : Type} {was : State} {f : State → α → State} {l : List α} {s : State}
    (hf : ∀ s x, SoundQ was s → SoundQ was (f s x)) (h : SoundQ was s) : SoundQ was (l.foldl f s) := by
  induction l generalizing s with
  | nil => exact h
  | cons a t ih => exact ih (hf s a h)

theorem SoundQ.ite {was : State} {c : Prop} [Decidable c] {a b : State} (ha : SoundQ was a) (hb : SoundQ was b) :
    SoundQ was (if c then a else b) := by
  split
  · exact ha
  · exact hb

end Sys2Proof.Machine
end

