-- ==== Sys2Proof/Laws/SoundOps.lean ====
section
/-!
SUPPORT. Sys2Proof/Laws/SoundOps.lean: the operations of Machine/Ops.lean keep what Sound says.
-/

namespace Sys2Proof.Machine

theorem State.setReg_sound {was s : State} {n : RegName} {idx : List Nat} {v : Word32} (h : Sound was s) :
    Sound was (State.setReg s n idx v) :=
  ⟨SMap.rising_set _ h.regs _ _, h.mem, h.units, h.held, h.queue, h.out, h.free⟩

theorem State.put_sound {was : State} {s : State} {f : Fld} {idx : List Nat} {v : Nat} (hs : Sound was s) :
    Sound was (State.put s f idx v) := by
  unfold State.put
  iterate 8 (all_goals try first
      | with_reducible assumption | with_reducible apply State.setReg_sound)

theorem State.raise_sound {was : State} {s : State} {f : Fld} {idx : List Nat} (hs : Sound was s) :
    Sound was (State.raise s f idx) := by
  unfold State.raise
  iterate 8 (all_goals try first
      | with_reducible assumption | with_reducible apply State.put_sound)

theorem State.countUp_sound {was : State} {s : State} {f : Fld} {idx : List Nat} (hs : Sound was s) :
    Sound was (State.countUp s f idx) := by
  unfold State.countUp
  iterate 8 (all_goals try first
      | with_reducible assumption | with_reducible apply State.put_sound)

theorem State.writeReg_sound {was : State} {s : State} {n : RegName} {idx : List Nat} {v : Word32} (hs : Sound was s) :
    Sound was (State.writeReg s n idx v) := by
  unfold State.writeReg
  iterate 8 (all_goals try first
      | with_reducible assumption | with_reducible apply State.setReg_sound)

theorem State.resetDomains_sound {was s : State} {p : Domain → Bool} (h : Sound was s) :
    Sound was (State.resetDomains s p) :=
  ⟨SMap.rising_filter h.regs _, h.mem, h.units, h.held, h.queue, h.out, h.free⟩

theorem State.resetRegs_sound {was s : State} {p : RegName → List Nat → Bool} (h : Sound was s) :
    Sound was (State.resetRegs s p) :=
  ⟨SMap.rising_filter h.regs _, h.mem, h.units, h.held, h.queue, h.out, h.free⟩

theorem State.emit_sound {was s : State} {x : Output} (h : Sound was s) : Sound was (State.emit s x) :=
  ⟨h.regs, h.mem, h.units, h.held, h.queue, h.out.trans (List.prefix_append _ _), h.free⟩

theorem State.answer_sound {was : State} {s : State} {q : Src} {code : Resp} (hs : Sound was s) :
    Sound was (State.answer s q code) := by
  unfold State.answer
  iterate 8 (all_goals try first
      | with_reducible assumption | with_reducible apply State.emit_sound)

theorem State.answerWord_sound {was : State} {s : State} {q : Src} {w : Word32} (hs : Sound was s) :
    Sound was (State.answerWord s q w) := by
  unfold State.answerWord
  iterate 8 (all_goals try first
      | with_reducible assumption | with_reducible apply State.emit_sound)

theorem State.respond_sound {was : State} {s : State} {r : Req} {code : Resp} {data : List Byte} {bad : List Nat} (hs : Sound was s) :
    Sound was (State.respond s r code data bad) := by
  unfold State.respond
  iterate 8 (all_goals try first
      | with_reducible assumption | with_reducible apply State.emit_sound)

theorem State.draw_sound {was s : State} (h : Sound was s) : Sound2 was (State.draw s) :=
  ⟨⟨h.regs, h.mem, h.units, h.held, h.queue, h.out, Nat.le_succ_of_le h.free⟩⟩

theorem State.defer_sound {was : State} {s : State} {q : Src} {a : Nat} {w : Word32} (hs : Sound was s) :
    Sound was (State.defer s q a w) := by
  unfold State.defer
  iterate 60 (all_goals try first
      | with_reducible assumption | intro _ | with_reducible refine Sound2.of (by assumption) ?_
      | with_reducible refine Sound3.of (by assumption) ?_ | with_reducible refine Sound4.of (by assumption) ?_
      | with_reducible refine SoundO.of (by assumption) ?_ | with_reducible refine SoundO2.of (by assumption) ?_
      | with_reducible refine SoundO4.of (by assumption) ?_ | with_reducible refine SoundOut.of (by assumption) ?_
      | with_reducible apply SoundOut.next | with_reducible apply SoundO.none_ | with_reducible apply SoundO.some_
      | with_reducible apply SoundO2.none_ | with_reducible apply SoundO2.some_ | with_reducible apply SoundO4.none_
      | with_reducible apply SoundO4.some_ | with_reducible apply Sound.ite | with_reducible apply SoundOut.ite
      | with_reducible apply Sound2.ite | with_reducible apply Sound3.ite | with_reducible apply SoundO.ite
      | with_reducible apply Sound.foldl | with_reducible apply Sound2.foldl
      | (extract_lets +onlyGivenNames s1; first | (refine Sound.cut (was := was) (u := s1) ?_ ?_; rotate_left; (intro hs1; clear_value s1); rotate_left; subst s1) | skip)
      | with_reducible refine Sound4.last ?_ | with_reducible refine Sound3.last ?_
      | with_reducible refine Sound2.snd ?_ | split | with_reducible apply Sound2.pair
      | with_reducible apply Sound3.pair | with_reducible apply Sound4.pair
      | with_reducible refine Sound.mk_ ?_ rfl rfl)

theorem State.regAct_sound {was : State} {s : State} {q : Src} {n : RegName} {idx : List Nat} {w : Word32} {f : State → State} (hs : Sound was s) (hf : ∀ a0, Sound was a0 → Sound was (f a0)) :
    Sound was (State.regAct s q n idx w f) := by
  unfold State.regAct
  iterate 60 (all_goals try first
      | with_reducible assumption | intro _ | with_reducible refine Sound2.of (by assumption) ?_
      | with_reducible refine Sound3.of (by assumption) ?_ | with_reducible refine Sound4.of (by assumption) ?_
      | with_reducible refine SoundO.of (by assumption) ?_ | with_reducible refine SoundO2.of (by assumption) ?_
      | with_reducible refine SoundO4.of (by assumption) ?_ | with_reducible refine SoundOut.of (by assumption) ?_
      | with_reducible apply State.defer_sound | with_reducible apply State.answer_sound | with_reducible apply hf
      | with_reducible apply SoundOut.next | with_reducible apply SoundO.none_ | with_reducible apply SoundO.some_
      | with_reducible apply SoundO2.none_ | with_reducible apply SoundO2.some_ | with_reducible apply SoundO4.none_
      | with_reducible apply SoundO4.some_ | with_reducible apply Sound.ite
      | (extract_lets +onlyGivenNames s1; first | (refine Sound.cut (was := was) (u := s1) ?_ ?_; rotate_left; (intro hs1; clear_value s1); rotate_left; subst s1) | skip))

theorem State.command_sound {was : State} {s : State} {q : Src} {n : RegName} {idx : List Nat} {w : Word32} {f : State → State} (hs : Sound was s) (hf : ∀ a0, Sound was a0 → Sound was (f a0)) :
    Sound was (State.command s q n idx w f) := by
  unfold State.command
  iterate 60 (all_goals try first
      | with_reducible assumption | intro _ | with_reducible refine Sound2.of (by assumption) ?_
      | with_reducible refine Sound3.of (by assumption) ?_ | with_reducible refine Sound4.of (by assumption) ?_
      | with_reducible refine SoundO.of (by assumption) ?_ | with_reducible refine SoundO2.of (by assumption) ?_
      | with_reducible refine SoundO4.of (by assumption) ?_ | with_reducible refine SoundOut.of (by assumption) ?_
      | with_reducible apply State.regAct_sound | with_reducible apply State.answer_sound | with_reducible apply hf
      | with_reducible apply SoundOut.next | with_reducible apply SoundO.none_ | with_reducible apply SoundO.some_
      | with_reducible apply SoundO2.none_ | with_reducible apply SoundO2.some_ | with_reducible apply SoundO4.none_
      | with_reducible apply SoundO4.some_ | with_reducible apply Sound.ite
      | (extract_lets +onlyGivenNames s1; first | (refine Sound.cut (was := was) (u := s1) ?_ ?_; rotate_left; (intro hs1; clear_value s1); rotate_left; subst s1) | skip))

theorem State.logEv_sound {was s : State} {site kind index event sev : Nat} {payload : List Byte} (h : Sound was s) :
    Sound was (State.logEv s site kind index event sev payload) := by
  unfold State.logEv
  extract_lets e
  split
  · rename_i hl
    refine ⟨h.regs, h.mem, ?_, h.held, h.queue, h.out, h.free⟩
    intro k
    have hk := h.units k
    simp only [List.filter_append, List.length_append]
    by_cases he : e.source = k
    · subst he
      simp
      omega
    · simp [he, hk]
  · exact State.countUp_sound h

theorem State.sendMsix_sound {was : State} {s : State} {v : Nat} (hs : Sound was s) :
    Sound was (State.sendMsix s v) := by
  unfold State.sendMsix
  iterate 20 (all_goals try first
      | with_reducible assumption | intro _ | with_reducible apply State.setReg_sound
      | with_reducible apply State.emit_sound | with_reducible apply Sound.ite)

theorem State.interrupt_sound {was : State} {s : State} {i : Irq} (hs : Sound was s) :
    Sound was (State.interrupt s i) := by
  unfold State.interrupt
  iterate 20 (all_goals try first
      | with_reducible assumption | intro _ | with_reducible apply State.sendMsix_sound
      | with_reducible apply Sound.ite | with_reducible apply Sound.foldl | split
      | with_reducible refine Sound.mk_ ?_ rfl rfl)

theorem State.bucket_sound {was : State} {s : State} {b : Nat} {loc : List Byte} (hs : Sound was s) :
    Sound was (State.bucket s b loc) := by
  unfold State.bucket
  iterate 20 (all_goals try first
      | with_reducible assumption | intro _ | with_reducible apply State.put_sound
      | with_reducible apply State.raise_sound | with_reducible apply State.logEv_sound
      | with_reducible apply State.interrupt_sound | with_reducible apply Sound.ite)

theorem State.setDie_sound {was : State} {s : State} {d : Nat} {w : WaDie} (hs : Sound was s) :
    Sound was (State.setDie s d w) := by
  unfold State.setDie
  iterate 8 (all_goals try first
      | with_reducible assumption | with_reducible refine Sound.mk_ ?_ rfl rfl)

theorem State.setTile_sound {was : State} {s : State} {d t : Nat} {x : TileSt} (hs : Sound was s) :
    Sound was (State.setTile s d t x) := by
  unfold State.setTile
  iterate 8 (all_goals try first
      | with_reducible assumption | with_reducible apply State.setDie_sound)

theorem State.setQueue_sound {was : State} {s : State} {d q : Nat} {x : QueueSt} (hs : Sound was s) :
    Sound was (State.setQueue s d q x) := by
  unfold State.setQueue
  iterate 8 (all_goals try first
      | with_reducible assumption | with_reducible refine Sound.mk_ ?_ rfl rfl)

end Sys2Proof.Machine
end

