-- ==== Sys2Proof/Laws/SoundGroups.lean ====
section
/-!
SUPPORT. Sys2Proof/Laws/SoundGroups.lean: the operations of Machine/Groups.lean keep what Sound says.
-/

namespace Sys2Proof.Machine

theorem State.setXg_sound {was : State} {s : State} {g dir : Nat} {x : XGroup} (hs : Sound was s) :
    Sound was (State.setXg s g dir x) := by
  unfold State.setXg
  iterate 8 (all_goals try first
      | with_reducible assumption | with_reducible refine Sound.mk_ ?_ rfl rfl)

theorem State.freshRoutes_sound {was : State} {s : State} (hs : Sound was s) :
    Sound was (State.freshRoutes s) := by
  unfold State.freshRoutes
  iterate 60 (all_goals try first
      | with_reducible assumption | intro _ | with_reducible refine Sound2.of (by assumption) ?_
      | with_reducible refine Sound3.of (by assumption) ?_ | with_reducible refine Sound4.of (by assumption) ?_
      | with_reducible refine SoundO.of (by assumption) ?_ | with_reducible refine SoundO2.of (by assumption) ?_
      | with_reducible refine SoundO4.of (by assumption) ?_ | with_reducible refine SoundOut.of (by assumption) ?_
      | with_reducible apply SoundOut.next | with_reducible apply SoundO.none_ | with_reducible apply SoundO.some_
      | with_reducible apply SoundO2.none_ | with_reducible apply SoundO2.some_ | with_reducible apply SoundO4.none_
      | with_reducible apply SoundO4.some_ | with_reducible apply Sound.ite | with_reducible apply SoundOut.ite
      | with_reducible apply Sound2.ite | with_reducible apply Sound3.ite | with_reducible apply SoundO.ite
      | with_reducible apply Sound.foldl | with_reducible apply Sound2.foldl
      | (extract_lets +onlyGivenNames s1; first | (refine Sound.cut (was := was) (u := s1) ?_ ?_; rotate_left; (intro hs1; clear_value s1); rotate_left; subst s1) | skip)
      | with_reducible refine Sound4.last ?_ | with_reducible refine Sound3.last ?_
      | with_reducible refine Sound2.snd ?_ | split | with_reducible apply Sound2.pair
      | with_reducible apply Sound3.pair | with_reducible apply Sound4.pair
      | with_reducible refine Sound.mk_ ?_ rfl rfl)

end Sys2Proof.Machine
end

