-- ==== Sys2Proof/Laws/SoundOperands.lean ====
section
/-!
SUPPORT. Sys2Proof/Laws/SoundOperands.lean: the operations of Machine/Operands.lean keep what Sound says.
-/

namespace Sys2Proof.Machine

theorem State.parityFail_sound {was : State} {s : State} {d t k : Nat} (hs : Sound was s) :
    Sound was (State.parityFail s d t k) := by
  unfold State.parityFail
  iterate 8 (all_goals try first
      | with_reducible assumption | with_reducible apply State.raise_sound | with_reducible apply State.put_sound
      | with_reducible apply State.bucket_sound)

theorem State.noteOperand_sound {was : State} {s : State} {d t : Nat} {o : Operand} (hs : Sound was s) :
    Sound was (State.noteOperand s d t o) := by
  unfold State.noteOperand
  iterate 20 (all_goals try first
      | with_reducible assumption | intro _ | with_reducible apply State.parityFail_sound
      | with_reducible apply State.raise_sound | with_reducible apply Sound.ite | with_reducible apply Sound.foldl)

theorem State.usePhaseB_sound {was : State} {s : State} {d t k g : Nat} (hs : Sound was s) :
    Sound was (State.usePhaseB s d t k g) := by
  unfold State.usePhaseB
  iterate 8 (all_goals try first
      | with_reducible assumption | with_reducible apply State.setDie_sound)

theorem State.later_sound {was : State} {s : State} {d : Nat} {ps : List Pend} (hs : Sound was s) :
    Sound was (State.later s d ps) := by
  unfold State.later
  iterate 8 (all_goals try first
      | with_reducible assumption | with_reducible apply State.setDie_sound)

end Sys2Proof.Machine
end

