-- ==== Sys2Proof/Laws/SoundCells.lean ====
section
/-!
SUPPORT. Sys2Proof/Laws/SoundCells.lean: the operations of Machine/Cells.lean keep what Sound says.
-/

namespace Sys2Proof.Machine

theorem illegal_sound {was : State} {s : State} {d t k g : Nat} {op sel form : Bool} (hs : Sound was s) :
    Sound was (illegal s d t k g op sel form) := by
  unfold illegal
  iterate 20 (all_goals try first
      | with_reducible assumption | intro _ | with_reducible apply State.raise_sound
      | with_reducible apply State.put_sound | with_reducible apply Sound.ite)

theorem State.movePtrs_sound {was : State} {s : State} {d t k g bank c0 c1 : Nat} (hs : Sound was s) :
    Sound was (State.movePtrs s d t k g bank c0 c1) := by
  unfold State.movePtrs
  iterate 8 (all_goals try first
      | with_reducible assumption | with_reducible apply State.setDie_sound)

theorem issueAlu_sound {was : State} {op : AluOp} {a : CellId} {f : Fields} {s : State} (hs : Sound was s) :
    Sound was (issueAlu op a f s) := by
  unfold issueAlu
  iterate 50 (all_goals try first
      | with_reducible assumption | intro _ | with_reducible apply illegal_sound
      | with_reducible apply State.noteOperand_sound | with_reducible apply State.usePhaseB_sound
      | with_reducible apply State.raise_sound | with_reducible apply State.later_sound
      | with_reducible apply State.movePtrs_sound | with_reducible apply Sound.ite | with_reducible apply Sound.foldl
      | (extract_lets +onlyGivenNames s1; first | (refine Sound.cut (was := was) (u := s1) ?_ ?_; rotate_left; (intro hs1; clear_value s1); rotate_left; subst s1) | skip)
      | split)

theorem issueAcc_sound {was : State} {op : AccOp} {a : CellId} {f : Fields} {s : State} (hs : Sound was s) :
    Sound was (issueAcc op a f s) := by
  unfold issueAcc
  iterate 50 (all_goals try first
      | with_reducible assumption | intro _ | with_reducible apply illegal_sound
      | with_reducible apply State.noteOperand_sound | with_reducible apply State.usePhaseB_sound
      | with_reducible apply State.movePtrs_sound | with_reducible apply State.later_sound
      | with_reducible apply State.parityFail_sound | with_reducible apply Sound.ite
      | with_reducible apply Sound.foldl
      | (extract_lets +onlyGivenNames s1; first | (refine Sound.cut (was := was) (u := s1) ?_ ?_; rotate_left; (intro hs1; clear_value s1); rotate_left; subst s1) | skip)
      | split)

theorem execNop_sound {was : State} {a : CellId} {f : Fields} {s : State} (hs : Sound was s) :
    SoundOut was (execNop a f s) := by
  unfold execNop
  iterate 20 (all_goals try first
      | with_reducible assumption | intro _ | with_reducible apply State.noteOperand_sound
      | with_reducible apply State.movePtrs_sound | with_reducible apply SoundOut.next
      | with_reducible apply Sound.ite | with_reducible apply SoundOut.ite)

theorem execAdd_sound {was : State} {a : CellId} {f : Fields} {s : State} (hs : Sound was s) :
    SoundOut was (execAdd a f s) := by
  unfold execAdd
  iterate 8 (all_goals try first
      | with_reducible assumption | with_reducible apply issueAlu_sound | with_reducible apply SoundOut.next)

theorem execSub_sound {was : State} {a : CellId} {f : Fields} {s : State} (hs : Sound was s) :
    SoundOut was (execSub a f s) := by
  unfold execSub
  iterate 8 (all_goals try first
      | with_reducible assumption | with_reducible apply issueAlu_sound | with_reducible apply SoundOut.next)

theorem execAnd_sound {was : State} {a : CellId} {f : Fields} {s : State} (hs : Sound was s) :
    SoundOut was (execAnd a f s) := by
  unfold execAnd
  iterate 8 (all_goals try first
      | with_reducible assumption | with_reducible apply issueAlu_sound | with_reducible apply SoundOut.next)

theorem execOr_sound {was : State} {a : CellId} {f : Fields} {s : State} (hs : Sound was s) :
    SoundOut was (execOr a f s) := by
  unfold execOr
  iterate 8 (all_goals try first
      | with_reducible assumption | with_reducible apply issueAlu_sound | with_reducible apply SoundOut.next)

theorem execXor_sound {was : State} {a : CellId} {f : Fields} {s : State} (hs : Sound was s) :
    SoundOut was (execXor a f s) := by
  unfold execXor
  iterate 8 (all_goals try first
      | with_reducible assumption | with_reducible apply issueAlu_sound | with_reducible apply SoundOut.next)

theorem execMin_sound {was : State} {a : CellId} {f : Fields} {s : State} (hs : Sound was s) :
    SoundOut was (execMin a f s) := by
  unfold execMin
  iterate 8 (all_goals try first
      | with_reducible assumption | with_reducible apply issueAlu_sound | with_reducible apply SoundOut.next)

theorem execMax_sound {was : State} {a : CellId} {f : Fields} {s : State} (hs : Sound was s) :
    SoundOut was (execMax a f s) := by
  unfold execMax
  iterate 8 (all_goals try first
      | with_reducible assumption | with_reducible apply issueAlu_sound | with_reducible apply SoundOut.next)

theorem execAbsd_sound {was : State} {a : CellId} {f : Fields} {s : State} (hs : Sound was s) :
    SoundOut was (execAbsd a f s) := by
  unfold execAbsd
  iterate 8 (all_goals try first
      | with_reducible assumption | with_reducible apply issueAlu_sound | with_reducible apply SoundOut.next)

theorem execShl_sound {was : State} {a : CellId} {f : Fields} {s : State} (hs : Sound was s) :
    SoundOut was (execShl a f s) := by
  unfold execShl
  iterate 8 (all_goals try first
      | with_reducible assumption | with_reducible apply issueAlu_sound | with_reducible apply SoundOut.next)

theorem execShr_sound {was : State} {a : CellId} {f : Fields} {s : State} (hs : Sound was s) :
    SoundOut was (execShr a f s) := by
  unfold execShr
  iterate 8 (all_goals try first
      | with_reducible assumption | with_reducible apply issueAlu_sound | with_reducible apply SoundOut.next)

theorem execAsr_sound {was : State} {a : CellId} {f : Fields} {s : State} (hs : Sound was s) :
    SoundOut was (execAsr a f s) := by
  unfold execAsr
  iterate 8 (all_goals try first
      | with_reducible assumption | with_reducible apply issueAlu_sound | with_reducible apply SoundOut.next)

theorem execMov_sound {was : State} {a : CellId} {f : Fields} {s : State} (hs : Sound was s) :
    SoundOut was (execMov a f s) := by
  unfold execMov
  iterate 8 (all_goals try first
      | with_reducible assumption | with_reducible apply issueAlu_sound | with_reducible apply SoundOut.next)

theorem execSel_sound {was : State} {a : CellId} {f : Fields} {s : State} (hs : Sound was s) :
    SoundOut was (execSel a f s) := by
  unfold execSel
  iterate 8 (all_goals try first
      | with_reducible assumption | with_reducible apply issueAlu_sound | with_reducible apply SoundOut.next)

theorem execCmp_sound {was : State} {a : CellId} {f : Fields} {s : State} (hs : Sound was s) :
    SoundOut was (execCmp a f s) := by
  unfold execCmp
  iterate 8 (all_goals try first
      | with_reducible assumption | with_reducible apply issueAlu_sound | with_reducible apply SoundOut.next)

theorem execMul_sound {was : State} {a : CellId} {f : Fields} {s : State} (hs : Sound was s) :
    SoundOut was (execMul a f s) := by
  unfold execMul
  iterate 8 (all_goals try first
      | with_reducible assumption | with_reducible apply issueAlu_sound | with_reducible apply SoundOut.next)

theorem execMac_sound {was : State} {a : CellId} {f : Fields} {s : State} (hs : Sound was s) :
    SoundOut was (execMac a f s) := by
  unfold execMac
  iterate 8 (all_goals try first
      | with_reducible assumption | with_reducible apply issueAcc_sound | with_reducible apply SoundOut.next)

theorem execMsu_sound {was : State} {a : CellId} {f : Fields} {s : State} (hs : Sound was s) :
    SoundOut was (execMsu a f s) := by
  unfold execMsu
  iterate 8 (all_goals try first
      | with_reducible assumption | with_reducible apply issueAcc_sound | with_reducible apply SoundOut.next)

theorem execCmac_sound {was : State} {a : CellId} {f : Fields} {s : State} (hs : Sound was s) :
    SoundOut was (execCmac a f s) := by
  unfold execCmac
  iterate 8 (all_goals try first
      | with_reducible assumption | with_reducible apply issueAcc_sound | with_reducible apply SoundOut.next)

theorem execCadd_sound {was : State} {a : CellId} {f : Fields} {s : State} (hs : Sound was s) :
    SoundOut was (execCadd a f s) := by
  unfold execCadd
  iterate 8 (all_goals try first
      | with_reducible assumption | with_reducible apply issueAcc_sound | with_reducible apply SoundOut.next)

theorem execCld_sound {was : State} {a : CellId} {f : Fields} {s : State} (hs : Sound was s) :
    SoundOut was (execCld a f s) := by
  unfold execCld
  iterate 8 (all_goals try first
      | with_reducible assumption | with_reducible apply issueAcc_sound | with_reducible apply SoundOut.next)

theorem execClracc_sound {was : State} {a : CellId} {f : Fields} {s : State} (hs : Sound was s) :
    SoundOut was (execClracc a f s) := by
  unfold execClracc
  iterate 20 (all_goals try first
      | with_reducible assumption | intro _ | with_reducible apply illegal_sound
      | with_reducible apply State.noteOperand_sound | with_reducible apply State.later_sound
      | with_reducible apply State.movePtrs_sound | with_reducible apply SoundOut.next
      | with_reducible apply Sound.ite | with_reducible apply SoundOut.ite)

theorem execTap_sound {was : State} {a : CellId} {f : Fields} {s : State} (hs : Sound was s) :
    SoundOut was (execTap a f s) := by
  unfold execTap
  iterate 50 (all_goals try first
      | with_reducible assumption | intro _ | with_reducible apply illegal_sound
      | with_reducible apply State.noteOperand_sound | with_reducible apply State.later_sound
      | with_reducible apply State.movePtrs_sound | with_reducible apply SoundOut.next
      | with_reducible apply Sound.ite | with_reducible apply SoundOut.ite | with_reducible apply Sound.foldl
      | (extract_lets +onlyGivenNames s1; first | (refine Sound.cut (was := was) (u := s1) ?_ ?_; rotate_left; (intro hs1; clear_value s1); rotate_left; subst s1) | skip)
      | split)

theorem execIllegalInstruction_sound {was : State} {a : CellId} {w : Word32} {s : State} (hs : Sound was s) :
    SoundOut was (execIllegalInstruction a w s) := by
  unfold execIllegalInstruction
  iterate 20 (all_goals try first
      | with_reducible assumption | intro _ | with_reducible apply illegal_sound | with_reducible apply SoundOut.next
      | with_reducible apply Sound.ite | with_reducible apply SoundOut.ite)

end Sys2Proof.Machine
end

