-- ==== Sys2Proof/Laws/SoundTiles.lean ====
section
/-!
SUPPORT. Sys2Proof/Laws/SoundTiles.lean: the operations of Machine/Tiles.lean keep what Sound says.
-/

namespace Sys2Proof.Machine

theorem State.writeCw_sound {was : State} {s : State} {d t cw data : Nat} (hs : Sound was s) :
    Sound was (State.writeCw s d t cw data) := by
  unfold State.writeCw
  iterate 8 (all_goals try first
      | with_reducible assumption | with_reducible apply State.setDie_sound)

theorem State.foundUe_sound {was : State} {s : State} {d t cw : Nat} (hs : Sound was s) :
    Sound was (State.foundUe s d t cw) := by
  unfold State.foundUe
  iterate 20 (all_goals try first
      | with_reducible assumption | intro _ | with_reducible apply State.raise_sound
      | with_reducible apply State.put_sound | with_reducible apply State.setTile_sound
      | with_reducible apply State.logEv_sound | with_reducible apply Sound.ite)

theorem State.corrected_sound {was : State} {s : State} {d t cw data : Nat} (hs : Sound was s) :
    Sound was (State.corrected s d t cw data) := by
  unfold State.corrected
  iterate 8 (all_goals try first
      | with_reducible assumption | with_reducible apply State.raise_sound | with_reducible apply State.bucket_sound
      | with_reducible apply State.setTile_sound)

theorem State.fetchCw_sound {was : State} {s : State} {d t cw : Nat} (hs : Sound was s) :
    Sound2 was (State.fetchCw s d t cw) := by
  unfold State.fetchCw
  iterate 20 (all_goals try first
      | with_reducible assumption | intro _ | with_reducible apply State.corrected_sound
      | with_reducible apply State.foundUe_sound | with_reducible apply Sound.ite | with_reducible apply Sound2.ite
      | with_reducible apply Sound.foldl | split | with_reducible apply Sound2.pair)

theorem State.setBusy_sound {was : State} {s : State} {d : Nat} {t : Nat} (hs : Sound was s) :
    Sound was (State.setBusy s d t) := by
  unfold State.setBusy
  iterate 60 (all_goals try first
      | with_reducible assumption | intro _ | with_reducible refine Sound2.of (by assumption) ?_
      | with_reducible refine Sound3.of (by assumption) ?_ | with_reducible refine Sound4.of (by assumption) ?_
      | with_reducible refine SoundO.of (by assumption) ?_ | with_reducible refine SoundO2.of (by assumption) ?_
      | with_reducible refine SoundO4.of (by assumption) ?_ | with_reducible refine SoundOut.of (by assumption) ?_
      | with_reducible apply State.setTile_sound
      | (extract_lets +onlyGivenNames s1; first | (refine Sound.cut (was := was) (u := s1) ?_ ?_; rotate_left; (intro hs1; clear_value s1); rotate_left; subst s1) | skip))

theorem State.latchLead_sound {was : State} {s0 : State} {d : Nat} {t : Nat} (hs : Sound was s0) :
    Sound was (State.latchLead s0 d t) := by
  unfold State.latchLead
  iterate 60 (all_goals try first
      | with_reducible assumption | intro _ | with_reducible refine Sound2.of (by assumption) ?_
      | with_reducible refine Sound3.of (by assumption) ?_ | with_reducible refine Sound4.of (by assumption) ?_
      | with_reducible refine SoundO.of (by assumption) ?_ | with_reducible refine SoundO2.of (by assumption) ?_
      | with_reducible refine SoundO4.of (by assumption) ?_ | with_reducible refine SoundOut.of (by assumption) ?_
      | with_reducible apply State.setBusy_sound | with_reducible apply State.fetchCw_sound
      | with_reducible apply State.raise_sound | with_reducible apply State.setTile_sound
      | with_reducible apply SoundOut.next | with_reducible apply SoundO.none_ | with_reducible apply SoundO.some_
      | with_reducible apply SoundO2.none_ | with_reducible apply SoundO2.some_ | with_reducible apply SoundO4.none_
      | with_reducible apply SoundO4.some_ | with_reducible apply Sound.ite | with_reducible apply SoundOut.ite
      | with_reducible apply Sound2.ite | with_reducible apply Sound3.ite | with_reducible apply SoundO.ite
      | with_reducible apply Sound.foldl | with_reducible apply Sound2.foldl
      | (extract_lets +onlyGivenNames s1; first | (refine Sound.cut (was := was) (u := s1) ?_ ?_; rotate_left; (intro hs1; clear_value s1); rotate_left; subst s1) | skip)
      | with_reducible refine Sound4.last ?_ | with_reducible refine Sound3.last ?_
      | with_reducible refine Sound2.snd ?_ | split)

theorem walkSchedule_sound {was : State} {d t x0 x1 : Nat} {s : State} (hs : Sound was s) :
    Sound2 was (walkSchedule d t x0 x1 s) := by
  induction x0 generalizing x1 s with
  | zero => exact ⟨hs⟩
  | succ n ih =>
    unfold walkSchedule
    iterate 50 (all_goals try first
        | with_reducible assumption | intro _ | with_reducible refine Sound2.of (by assumption) ?_
        | with_reducible refine SoundO.of (by assumption) ?_ | with_reducible apply State.fetchCw_sound
        | with_reducible apply State.raise_sound | apply ih | with_reducible apply Sound.ite
        | with_reducible apply Sound2.ite | with_reducible apply Sound.foldl
        | (extract_lets +onlyGivenNames s1; first | (refine Sound.cut (was := was) (u := s1) ?_ ?_; rotate_left; (intro hs1; clear_value s1); rotate_left; subst s1) | skip)
        | with_reducible refine Sound4.last ?_ | with_reducible refine Sound3.last ?_
        | with_reducible refine Sound2.snd ?_ | split | with_reducible apply Sound2.pair)

theorem State.seek_sound {was : State} {s : State} {d t i : Nat} (hs : Sound was s) :
    Sound2 was (State.seek s d t i) := by
  unfold State.seek
  iterate 8 (all_goals try first
      | with_reducible assumption | with_reducible apply walkSchedule_sound)

theorem State.noteCurrent_sound {was : State} {s : State} {d t : Nat} (hs : Sound was s) :
    Sound was (State.noteCurrent s d t) := by
  unfold State.noteCurrent
  iterate 20 (all_goals try first
      | with_reducible assumption | intro _ | with_reducible apply State.raise_sound | with_reducible apply Sound.ite)

theorem fetchMould_sound {was : State} {d t m : Nat} {x0 : List Nat} {s : State} (hs : Sound was s) :
    Sound2 was (fetchMould d t m x0 s) := by
  induction x0 generalizing s with
  | nil => exact ⟨hs⟩
  | cons q qs ih =>
    unfold fetchMould
    iterate 50 (all_goals try first
        | with_reducible assumption | intro _ | with_reducible refine Sound2.of (by assumption) ?_
        | with_reducible refine SoundO.of (by assumption) ?_ | with_reducible apply State.fetchCw_sound | apply ih
        | with_reducible apply Sound.ite | with_reducible apply Sound2.ite | with_reducible apply Sound.foldl
        | (extract_lets +onlyGivenNames s1; first | (refine Sound.cut (was := was) (u := s1) ?_ ?_; rotate_left; (intro hs1; clear_value s1); rotate_left; subst s1) | skip)
        | with_reducible refine Sound4.last ?_ | with_reducible refine Sound3.last ?_
        | with_reducible refine Sound2.snd ?_ | split | with_reducible apply Sound2.pair)

theorem State.loadMould_sound {was : State} {s : State} {d t m : Nat} (hs : Sound was s) :
    Sound was (State.loadMould s d t m) := by
  unfold State.loadMould
  iterate 50 (all_goals try first
      | with_reducible assumption | intro _ | with_reducible refine Sound2.of (by assumption) ?_
      | with_reducible apply fetchMould_sound | with_reducible apply State.setTile_sound
      | with_reducible apply State.noteCurrent_sound | with_reducible apply Sound.ite
      | with_reducible apply Sound2.ite | with_reducible apply Sound.foldl
      | (extract_lets +onlyGivenNames s1; first | (refine Sound.cut (was := was) (u := s1) ?_ ?_; rotate_left; (intro hs1; clear_value s1); rotate_left; subst s1) | skip)
      | with_reducible refine Sound2.snd ?_)

theorem State.startPour_sound {was : State} {s0 : State} {d : Nat} {t : Nat} (hs : Sound was s0) :
    Sound was (State.startPour s0 d t) := by
  unfold State.startPour
  iterate 60 (all_goals try first
      | with_reducible assumption | intro _ | with_reducible refine Sound2.of (by assumption) ?_
      | with_reducible refine Sound3.of (by assumption) ?_ | with_reducible refine Sound4.of (by assumption) ?_
      | with_reducible refine SoundO.of (by assumption) ?_ | with_reducible refine SoundO2.of (by assumption) ?_
      | with_reducible refine SoundO4.of (by assumption) ?_ | with_reducible refine SoundOut.of (by assumption) ?_
      | with_reducible apply State.setBusy_sound | with_reducible apply State.seek_sound
      | with_reducible apply State.setTile_sound | with_reducible apply State.loadMould_sound
      | with_reducible apply SoundOut.next | with_reducible apply SoundO.none_ | with_reducible apply SoundO.some_
      | with_reducible apply SoundO2.none_ | with_reducible apply SoundO2.some_ | with_reducible apply SoundO4.none_
      | with_reducible apply SoundO4.some_ | with_reducible apply Sound.ite | with_reducible apply SoundOut.ite
      | with_reducible apply Sound2.ite | with_reducible apply Sound3.ite | with_reducible apply SoundO.ite
      | with_reducible apply Sound.foldl | with_reducible apply Sound2.foldl
      | (extract_lets +onlyGivenNames s1; first | (refine Sound.cut (was := was) (u := s1) ?_ ?_; rotate_left; (intro hs1; clear_value s1); rotate_left; subst s1) | skip)
      | with_reducible refine Sound4.last ?_ | with_reducible refine Sound3.last ?_
      | with_reducible refine Sound2.snd ?_ | split)

theorem copyStage_sound {was : State} {d t i : Nat} {s : State} (hs : Sound was s) :
    Sound was (copyStage d t i s) := by
  unfold copyStage
  iterate 50 (all_goals try first
      | with_reducible assumption | intro _ | with_reducible refine Sound2.of (by assumption) ?_
      | with_reducible apply State.fetchCw_sound | with_reducible apply State.writeCw_sound
      | with_reducible apply State.setDie_sound | with_reducible apply State.setTile_sound
      | with_reducible apply Sound.ite | with_reducible apply Sound2.ite | with_reducible apply Sound.foldl
      | (extract_lets +onlyGivenNames s1; first | (refine Sound.cut (was := was) (u := s1) ?_ ?_; rotate_left; (intro hs1; clear_value s1); rotate_left; subst s1) | skip)
      | with_reducible refine Sound2.snd ?_ | split)

theorem State.commitFence_sound {was : State} {s : State} {d : Nat} {t : Nat} {t0 : Nat} {prev : Nat} (hs : Sound was s) :
    Sound was (State.commitFence s d t t0 prev) := by
  unfold State.commitFence
  iterate 60 (all_goals try first
      | with_reducible assumption | intro _ | with_reducible refine Sound2.of (by assumption) ?_
      | with_reducible refine Sound3.of (by assumption) ?_ | with_reducible refine Sound4.of (by assumption) ?_
      | with_reducible refine SoundO.of (by assumption) ?_ | with_reducible refine SoundO2.of (by assumption) ?_
      | with_reducible refine SoundO4.of (by assumption) ?_ | with_reducible refine SoundOut.of (by assumption) ?_
      | with_reducible apply copyStage_sound | with_reducible apply State.setTile_sound
      | with_reducible apply State.latchLead_sound | with_reducible apply State.put_sound
      | with_reducible apply State.raise_sound | with_reducible apply SoundOut.next
      | with_reducible apply SoundO.none_ | with_reducible apply SoundO.some_ | with_reducible apply SoundO2.none_
      | with_reducible apply SoundO2.some_ | with_reducible apply SoundO4.none_ | with_reducible apply SoundO4.some_
      | with_reducible apply Sound.ite | with_reducible apply SoundOut.ite | with_reducible apply Sound2.ite
      | with_reducible apply Sound3.ite | with_reducible apply SoundO.ite | with_reducible apply Sound.foldl
      | (extract_lets +onlyGivenNames s1; first | (refine Sound.cut (was := was) (u := s1) ?_ ?_; rotate_left; (intro hs1; clear_value s1); rotate_left; subst s1) | skip))

theorem State.misrun_sound {was : State} {s : State} {d t : Nat} (hs : Sound was s) :
    Sound was (State.misrun s d t) := by
  unfold State.misrun
  iterate 8 (all_goals try first
      | with_reducible assumption | with_reducible apply State.raise_sound | with_reducible apply State.countUp_sound
      | with_reducible apply State.bucket_sound)

theorem State.pourAtTick_sound {was : State} {s : State} {d : Nat} {t : Nat} {n : Nat} {t0 : Nat} {prev : Nat} {delayed : Bool} (hs : Sound was s) :
    Sound was (State.pourAtTick s d t n t0 prev delayed) := by
  unfold State.pourAtTick
  iterate 60 (all_goals try first
      | with_reducible assumption | intro _ | with_reducible refine Sound2.of (by assumption) ?_
      | with_reducible refine Sound3.of (by assumption) ?_ | with_reducible refine Sound4.of (by assumption) ?_
      | with_reducible refine SoundO.of (by assumption) ?_ | with_reducible refine SoundO2.of (by assumption) ?_
      | with_reducible refine SoundO4.of (by assumption) ?_ | with_reducible refine SoundOut.of (by assumption) ?_
      | with_reducible apply State.commitFence_sound | with_reducible apply State.setTile_sound
      | with_reducible apply State.startPour_sound | with_reducible apply State.raise_sound
      | with_reducible apply SoundOut.next | with_reducible apply SoundO.none_ | with_reducible apply SoundO.some_
      | with_reducible apply SoundO2.none_ | with_reducible apply SoundO2.some_ | with_reducible apply SoundO4.none_
      | with_reducible apply SoundO4.some_ | with_reducible apply Sound.ite
      | (extract_lets +onlyGivenNames s1; first | (refine Sound.cut (was := was) (u := s1) ?_ ?_; rotate_left; (intro hs1; clear_value s1); rotate_left; subst s1) | skip))

theorem State.tileTickNow_sound {was : State} {s : State} {d : Nat} {t : Nat} {n : Nat} {t0 : Nat} {prev : Nat} {delayed : Bool} (hs : Sound was s) :
    Sound was (State.tileTickNow s d t n t0 prev delayed) := by
  unfold State.tileTickNow
  iterate 60 (all_goals try first
      | with_reducible assumption | intro _ | with_reducible refine Sound2.of (by assumption) ?_
      | with_reducible refine Sound3.of (by assumption) ?_ | with_reducible refine Sound4.of (by assumption) ?_
      | with_reducible refine SoundO.of (by assumption) ?_ | with_reducible refine SoundO2.of (by assumption) ?_
      | with_reducible refine SoundO4.of (by assumption) ?_ | with_reducible refine SoundOut.of (by assumption) ?_
      | with_reducible apply State.setTile_sound | with_reducible apply State.misrun_sound
      | with_reducible apply State.pourAtTick_sound | with_reducible apply State.commitFence_sound
      | with_reducible apply SoundOut.next | with_reducible apply SoundO.none_ | with_reducible apply SoundO.some_
      | with_reducible apply SoundO2.none_ | with_reducible apply SoundO2.some_ | with_reducible apply SoundO4.none_
      | with_reducible apply SoundO4.some_ | with_reducible apply Sound.ite
      | (extract_lets +onlyGivenNames s1; first | (refine Sound.cut (was := was) (u := s1) ?_ ?_; rotate_left; (intro hs1; clear_value s1); rotate_left; subst s1) | skip))

theorem State.tileTick_sound {was : State} {s : State} {d n t0 prev t : Nat} (hs : Sound was s) :
    Sound was (State.tileTick s d n t0 prev t) := by
  unfold State.tileTick
  iterate 20 (all_goals try first
      | with_reducible assumption | intro _ | with_reducible apply State.setTile_sound
      | with_reducible apply State.tileTickNow_sound | with_reducible apply Sound.ite)

theorem State.cutPours_sound {was : State} {s : State} (hs : Sound was s) :
    Sound was (State.cutPours s) := by
  unfold State.cutPours
  iterate 8 (all_goals try first
      | with_reducible assumption | with_reducible refine Sound.mk_ ?_ rfl rfl)

theorem execPourEnd_sound {was : State} {d : Fin 4} {t : Fin 2048} {s : State} (hs : Sound was s) :
    SoundOut was (execPourEnd d t s) := by
  unfold execPourEnd
  iterate 20 (all_goals try first
      | with_reducible assumption | intro _ | with_reducible apply State.setTile_sound
      | with_reducible apply SoundOut.next | with_reducible apply Sound.ite | with_reducible apply SoundOut.ite)

theorem execMouldScrubRead_sound {was : State} {d : Fin 4} {t : Fin 2048} {s : State} (hs : Sound was s) :
    SoundOut was (execMouldScrubRead d t s) := by
  unfold execMouldScrubRead
  iterate 50 (all_goals try first
      | with_reducible assumption | intro _ | with_reducible refine Sound2.of (by assumption) ?_
      | with_reducible apply State.fetchCw_sound | with_reducible apply State.setTile_sound
      | with_reducible apply SoundOut.next | with_reducible apply Sound.ite | with_reducible apply SoundOut.ite
      | with_reducible apply Sound2.ite | with_reducible apply Sound.foldl
      | (extract_lets +onlyGivenNames s1; first | (refine Sound.cut (was := was) (u := s1) ?_ ?_; rotate_left; (intro hs1; clear_value s1); rotate_left; subst s1) | skip)
      | with_reducible refine Sound2.snd ?_)

theorem execMouldWriteback_sound {was : State} {d : Fin 4} {t : Fin 2048} {s : State} (hs : Sound was s) :
    SoundOut was (execMouldWriteback d t s) := by
  unfold execMouldWriteback
  iterate 50 (all_goals try first
      | with_reducible assumption | intro _ | with_reducible apply State.setDie_sound
      | with_reducible apply State.setTile_sound | with_reducible apply SoundOut.next | with_reducible apply Sound.ite
      | with_reducible apply SoundOut.ite | with_reducible apply Sound.foldl
      | (extract_lets +onlyGivenNames s1; first | (refine Sound.cut (was := was) (u := s1) ?_ ?_; rotate_left; (intro hs1; clear_value s1); rotate_left; subst s1) | skip)
      | split)

theorem execHalt_sound {was : State} {src : Src} {d : Fin 4} {t : Fin 2048} {s : State} (hs : Sound was s) :
    SoundOut was (execHalt src d t s) := by
  unfold execHalt
  iterate 20 (all_goals try first
      | with_reducible assumption | intro _ | with_reducible apply State.raise_sound
      | with_reducible apply State.answer_sound | with_reducible apply SoundOut.next | with_reducible apply Sound.ite
      | with_reducible apply SoundOut.ite)

theorem execHaltRelease_sound {was : State} {src : Src} {d : Fin 4} {t : Fin 2048} {s : State} (hs : Sound was s) :
    SoundOut was (execHaltRelease src d t s) := by
  unfold execHaltRelease
  iterate 20 (all_goals try first
      | with_reducible assumption | intro _ | with_reducible apply State.answer_sound
      | with_reducible apply State.put_sound | with_reducible apply State.latchLead_sound
      | with_reducible apply SoundOut.next | with_reducible apply Sound.ite | with_reducible apply SoundOut.ite)

theorem execDoorbell_sound {was : State} {src : Src} {d : Fin 4} {t : Fin 2048} {s : State} (hs : Sound was s) :
    SoundOut was (execDoorbell src d t s) := by
  unfold execDoorbell
  iterate 20 (all_goals try first
      | with_reducible assumption | intro _ | with_reducible apply State.answer_sound
      | with_reducible apply State.setTile_sound | with_reducible apply SoundOut.next | with_reducible apply Sound.ite
      | with_reducible apply SoundOut.ite)

theorem State.recognise_sound {was : State} {s : State} {d t : Nat} (hs : Sound was s) :
    Sound was (State.recognise s d t) := by
  unfold State.recognise
  iterate 20 (all_goals try first
      | with_reducible assumption | intro _ | with_reducible apply State.raise_sound
      | with_reducible apply State.setTile_sound | with_reducible apply Sound.ite)

theorem execPreemptionEvent_sound {was : State} {d : Fin 4} {t : Fin 2048} {s : State} (hs : Sound was s) :
    SoundOut was (execPreemptionEvent d t s) := by
  unfold execPreemptionEvent
  iterate 20 (all_goals try first
      | with_reducible assumption | intro _ | with_reducible apply State.recognise_sound
      | with_reducible apply SoundOut.next | with_reducible apply Sound.ite | with_reducible apply SoundOut.ite)

theorem execPreemptionTaken_sound {was : State} {d : Fin 4} {t : Fin 2048} {s : State} (hs : Sound was s) :
    SoundOut was (execPreemptionTaken d t s) := by
  unfold execPreemptionTaken
  iterate 50 (all_goals try first
      | with_reducible assumption | intro _ | with_reducible refine Sound2.of (by assumption) ?_
      | with_reducible apply State.setTile_sound | with_reducible apply State.countUp_sound
      | with_reducible apply State.seek_sound | with_reducible apply State.loadMould_sound
      | with_reducible apply SoundOut.next | with_reducible apply Sound.ite | with_reducible apply SoundOut.ite
      | with_reducible apply Sound2.ite | with_reducible apply Sound.foldl
      | (extract_lets +onlyGivenNames s1; first | (refine Sound.cut (was := was) (u := s1) ?_ ?_; rotate_left; (intro hs1; clear_value s1); rotate_left; subst s1) | skip)
      | with_reducible refine Sound2.snd ?_ | split)

theorem execUrgentReturn_sound {was : State} {d : Fin 4} {t : Fin 2048} {s : State} (hs : Sound was s) :
    SoundOut was (execUrgentReturn d t s) := by
  unfold execUrgentReturn
  iterate 50 (all_goals try first
      | with_reducible assumption | intro _ | with_reducible refine Sound2.of (by assumption) ?_
      | with_reducible apply State.setTile_sound | with_reducible apply State.tileTickNow_sound
      | with_reducible apply State.fetchCw_sound | with_reducible apply State.loadMould_sound
      | with_reducible apply State.raise_sound | with_reducible apply SoundOut.next | with_reducible apply Sound.ite
      | with_reducible apply SoundOut.ite | with_reducible apply Sound2.ite | with_reducible apply Sound.foldl
      | (extract_lets +onlyGivenNames s1; first | (refine Sound.cut (was := was) (u := s1) ?_ ?_; rotate_left; (intro hs1; clear_value s1); rotate_left; subst s1) | skip)
      | with_reducible refine Sound2.snd ?_ | split)

theorem execFenceArm_sound {was : State} {src : Src} {d : Fin 4} {t : Fin 2048} {s : State} (hs : Sound was s) :
    SoundOut was (execFenceArm src d t s) := by
  unfold execFenceArm
  iterate 20 (all_goals try first
      | with_reducible assumption | intro _ | with_reducible apply State.raise_sound
      | with_reducible apply State.answer_sound | with_reducible apply SoundOut.next | with_reducible apply Sound.ite
      | with_reducible apply SoundOut.ite)

theorem execFenceCancel_sound {was : State} {src : Src} {d : Fin 4} {t : Fin 2048} {s : State} (hs : Sound was s) :
    SoundOut was (execFenceCancel src d t s) := by
  unfold execFenceCancel
  iterate 20 (all_goals try first
      | with_reducible assumption | intro _ | with_reducible apply State.put_sound
      | with_reducible apply State.answer_sound | with_reducible apply SoundOut.next | with_reducible apply Sound.ite
      | with_reducible apply SoundOut.ite)

theorem State.mouldStore_sound {was : State} {s : State} {d t off : Nat} {data : List Byte} (hs : Sound was s) :
    Sound2 was (State.mouldStore s d t off data) := by
  unfold State.mouldStore
  iterate 50 (all_goals try first
      | with_reducible assumption | intro _ | with_reducible refine Sound2.of (by assumption) ?_
      | with_reducible apply State.fetchCw_sound | with_reducible apply State.writeCw_sound
      | with_reducible apply Sound.ite | with_reducible apply Sound2.ite | with_reducible apply Sound.foldl
      | (extract_lets +onlyGivenNames s1; first | (refine Sound.cut (was := was) (u := s1) ?_ ?_; rotate_left; (intro hs1; clear_value s1); rotate_left; subst s1) | skip)
      | with_reducible refine Sound2.snd ?_ | split | with_reducible apply Sound2.pair)

theorem State.mouldWrite_sound {was : State} {s : State} {r : Req} {d t off : Nat} (hs : Sound was s) :
    Sound2 was (State.mouldWrite s r d t off) := by
  unfold State.mouldWrite
  iterate 20 (all_goals try first
      | with_reducible assumption | intro _ | with_reducible apply State.mouldStore_sound
      | with_reducible apply Sound.ite | with_reducible apply Sound2.ite | with_reducible apply Sound.foldl | split
      | with_reducible apply Sound2.pair)

theorem State.entryWrite_sound {was : State} {s : State} {r : Req} {d t off : Nat} (hs : Sound was s) :
    Sound2 was (State.entryWrite s r d t off) := by
  unfold State.entryWrite
  iterate 20 (all_goals try first
      | with_reducible assumption | intro _ | with_reducible apply State.writeCw_sound
      | with_reducible apply Sound.ite | with_reducible apply Sound2.ite | with_reducible apply Sound.foldl | split
      | with_reducible apply Sound2.pair)

theorem readCws_sound {was : State} {d t : Nat} {x0 : List Nat} {s : State} (hs : Sound was s) :
    Sound3 was (readCws d t x0 s) := by
  induction x0 generalizing s with
  | nil => exact ⟨hs⟩
  | cons q qs ih =>
    unfold readCws
    iterate 50 (all_goals try first
        | with_reducible assumption | intro _ | with_reducible refine Sound2.of (by assumption) ?_
        | with_reducible refine Sound3.of (by assumption) ?_ | with_reducible refine SoundO.of (by assumption) ?_
        | with_reducible apply State.fetchCw_sound | apply ih | with_reducible apply Sound.ite
        | with_reducible apply Sound2.ite | with_reducible apply Sound3.ite | with_reducible apply Sound.foldl
        | (extract_lets +onlyGivenNames s1; first | (refine Sound.cut (was := was) (u := s1) ?_ ?_; rotate_left; (intro hs1; clear_value s1); rotate_left; subst s1) | skip)
        | with_reducible refine Sound4.last ?_ | with_reducible refine Sound3.last ?_
        | with_reducible refine Sound2.snd ?_ | split | with_reducible apply Sound2.pair
        | with_reducible apply Sound3.pair)

theorem State.mouldRead_sound {was : State} {s : State} {r : Req} {d t off : Nat} (hs : Sound was s) :
    Sound3 was (State.mouldRead s r d t off) := by
  unfold State.mouldRead
  iterate 50 (all_goals try first
      | with_reducible assumption | intro _ | with_reducible refine Sound3.of (by assumption) ?_
      | with_reducible apply readCws_sound | with_reducible apply Sound.ite | with_reducible apply Sound3.ite
      | with_reducible apply Sound.foldl
      | (extract_lets +onlyGivenNames s1; first | (refine Sound.cut (was := was) (u := s1) ?_ ?_; rotate_left; (intro hs1; clear_value s1); rotate_left; subst s1) | skip)
      | with_reducible refine Sound3.last ?_ | split | with_reducible apply Sound3.pair)

theorem State.entryRead_sound {was : State} {s : State} {r : Req} {d t off : Nat} (hs : Sound was s) :
    Sound3 was (State.entryRead s r d t off) := by
  unfold State.entryRead
  iterate 50 (all_goals try first
      | with_reducible assumption | intro _ | with_reducible refine Sound3.of (by assumption) ?_
      | with_reducible apply readCws_sound | with_reducible apply Sound.ite | with_reducible apply Sound3.ite
      | with_reducible apply Sound.foldl
      | (extract_lets +onlyGivenNames s1; first | (refine Sound.cut (was := was) (u := s1) ?_ ?_; rotate_left; (intro hs1; clear_value s1); rotate_left; subst s1) | skip)
      | with_reducible refine Sound3.last ?_ | split | with_reducible apply Sound3.pair)

theorem execMouldWrite_sound {was : State} {r : Req} {s : State} (hs : Sound was s) :
    SoundOut was (execMouldWrite r s) := by
  unfold execMouldWrite
  iterate 50 (all_goals try first
      | with_reducible assumption | intro _ | with_reducible refine Sound2.of (by assumption) ?_
      | with_reducible apply State.mouldWrite_sound | with_reducible apply State.respond_sound
      | with_reducible apply SoundOut.next | with_reducible apply Sound.ite | with_reducible apply SoundOut.ite
      | with_reducible apply Sound2.ite | with_reducible apply Sound.foldl
      | (extract_lets +onlyGivenNames s1; first | (refine Sound.cut (was := was) (u := s1) ?_ ?_; rotate_left; (intro hs1; clear_value s1); rotate_left; subst s1) | skip)
      | with_reducible refine Sound2.snd ?_ | split)

theorem execScheduleWrite_sound {was : State} {r : Req} {s : State} (hs : Sound was s) :
    SoundOut was (execScheduleWrite r s) := by
  unfold execScheduleWrite
  iterate 50 (all_goals try first
      | with_reducible assumption | intro _ | with_reducible refine Sound2.of (by assumption) ?_
      | with_reducible apply State.entryWrite_sound | with_reducible apply State.respond_sound
      | with_reducible apply SoundOut.next | with_reducible apply Sound.ite | with_reducible apply SoundOut.ite
      | with_reducible apply Sound2.ite | with_reducible apply Sound.foldl
      | (extract_lets +onlyGivenNames s1; first | (refine Sound.cut (was := was) (u := s1) ?_ ?_; rotate_left; (intro hs1; clear_value s1); rotate_left; subst s1) | skip)
      | with_reducible refine Sound2.snd ?_ | split)

theorem execStagingWrite_sound {was : State} {r : Req} {s : State} (hs : Sound was s) :
    SoundOut was (execStagingWrite r s) := by
  unfold execStagingWrite
  iterate 50 (all_goals try first
      | with_reducible assumption | intro _ | with_reducible refine Sound2.of (by assumption) ?_
      | with_reducible apply State.entryWrite_sound | with_reducible apply State.respond_sound
      | with_reducible apply SoundOut.next | with_reducible apply Sound.ite | with_reducible apply SoundOut.ite
      | with_reducible apply Sound2.ite | with_reducible apply Sound.foldl
      | (extract_lets +onlyGivenNames s1; first | (refine Sound.cut (was := was) (u := s1) ?_ ?_; rotate_left; (intro hs1; clear_value s1); rotate_left; subst s1) | skip)
      | with_reducible refine Sound2.snd ?_ | split)

theorem State.storeArrive_sound {was : State} {s : State} {r : Req} {d t off : Nat} (hs : Sound was s) :
    Sound was (State.storeArrive s r d t off) := by
  unfold State.storeArrive
  iterate 20 (all_goals try first
      | with_reducible assumption | intro _ | with_reducible apply State.respond_sound
      | with_reducible apply State.setDie_sound | with_reducible apply Sound.ite)

theorem execCellStoreAccess_sound {was : State} {r : Req} {s : State} (hs : Sound was s) :
    SoundOut was (execCellStoreAccess r s) := by
  unfold execCellStoreAccess
  iterate 20 (all_goals try first
      | with_reducible assumption | intro _ | with_reducible apply State.storeArrive_sound
      | with_reducible apply State.respond_sound | with_reducible apply SoundOut.next | with_reducible apply Sound.ite
      | with_reducible apply SoundOut.ite | with_reducible apply Sound.foldl | split)

theorem execCellStoreAccessDone_sound {was : State} {a : CellId} {s : State} (hs : Sound was s) :
    SoundOut was (execCellStoreAccessDone a s) := by
  unfold execCellStoreAccessDone
  iterate 50 (all_goals try first
      | with_reducible assumption | intro _ | with_reducible apply State.setDie_sound
      | with_reducible apply State.respond_sound | with_reducible apply State.parityFail_sound
      | with_reducible apply SoundOut.next | with_reducible apply Sound.ite | with_reducible apply SoundOut.ite
      | with_reducible apply Sound.foldl
      | (extract_lets +onlyGivenNames s1; first | (refine Sound.cut (was := was) (u := s1) ?_ ?_; rotate_left; (intro hs1; clear_value s1); rotate_left; subst s1) | skip)
      | split)

theorem execCellStateWrite_sound {was : State} {src : Src} {a : CellId} {off : Fin 64} {w : Word32} {s : State} (hs : Sound was s) :
    SoundOut was (execCellStateWrite src a off w s) := by
  unfold execCellStateWrite
  iterate 20 (all_goals try first
      | with_reducible assumption | intro _ | with_reducible apply State.answer_sound
      | with_reducible apply State.setDie_sound | with_reducible apply SoundOut.next | with_reducible apply Sound.ite
      | with_reducible apply SoundOut.ite)

theorem execWtPcntRead_sound {was : State} {src : Src} {d : Fin 4} {t : Fin 2048} {s : State} (hs : Sound was s) :
    SoundOut was (execWtPcntRead src d t s) := by
  unfold execWtPcntRead
  iterate 20 (all_goals try first
      | with_reducible assumption | intro _ | with_reducible apply State.answer_sound
      | with_reducible apply State.setReg_sound | with_reducible apply State.answerWord_sound
      | with_reducible apply SoundOut.next | with_reducible apply Sound.ite | with_reducible apply SoundOut.ite)

end Sys2Proof.Machine
end

