-- ==== Sys2Proof/Laws/SoundQueues.lean ====
section
/-!
SUPPORT. Sys2Proof/Laws/SoundQueues.lean: the operations of Machine/Queues.lean keep what Sound says.
-/

namespace Sys2Proof.Machine

theorem State.setRiser_sound {was : State} {s : State} {d i : Nat} {x : RiserSt} (hs : Sound was s) :
    Sound was (State.setRiser s d i x) := by
  unfold State.setRiser
  iterate 8 (all_goals try first
      | with_reducible assumption | with_reducible refine Sound.mk_ ?_ rfl rfl)

theorem State.setQueueWord_sound {was : State} {s : State} {d : Nat} {q : Nat} {pos : Nat} {w : BitVec 144} (hs : Sound was s) :
    Sound was (State.setQueueWord s d q pos w) := by
  unfold State.setQueueWord
  iterate 60 (all_goals try first
      | with_reducible assumption | intro _ | with_reducible refine Sound2.of (by assumption) ?_
      | with_reducible refine Sound3.of (by assumption) ?_ | with_reducible refine Sound4.of (by assumption) ?_
      | with_reducible refine SoundO.of (by assumption) ?_ | with_reducible refine SoundO2.of (by assumption) ?_
      | with_reducible refine SoundO4.of (by assumption) ?_ | with_reducible refine SoundOut.of (by assumption) ?_
      | with_reducible apply State.setQueue_sound | with_reducible apply SoundOut.next
      | with_reducible apply SoundO.none_ | with_reducible apply SoundO.some_ | with_reducible apply SoundO2.none_
      | with_reducible apply SoundO2.some_ | with_reducible apply SoundO4.none_ | with_reducible apply SoundO4.some_
      | with_reducible apply Sound.ite
      | (extract_lets +onlyGivenNames s1; first | (refine Sound.cut (was := was) (u := s1) ?_ ?_; rotate_left; (intro hs1; clear_value s1); rotate_left; subst s1) | skip))

theorem State.setPanic_sound {was : State} {s : State} {m : Nat} {b : Bool} (hs : Sound was s) :
    Sound was (State.setPanic s m b) := by
  unfold State.setPanic
  iterate 8 (all_goals try first
      | with_reducible assumption | with_reducible apply State.setReg_sound)

theorem State.riserPass_sound {was : State} {s : State} {d q : Nat} (hs : Sound was s) :
    Sound was (State.riserPass s d q) := by
  unfold State.riserPass
  iterate 20 (all_goals try first
      | with_reducible assumption | intro _ | with_reducible apply State.setRiser_sound
      | with_reducible apply State.setQueue_sound | with_reducible apply Sound.ite)

theorem State.sqStore_sound {was : State} {s : State} {d q : Nat} {b : Beat} (hs : Sound was s) :
    Sound was (State.sqStore s d q b) := by
  unfold State.sqStore
  iterate 20 (all_goals try first
      | with_reducible assumption | intro _ | with_reducible apply State.setRiser_sound
      | with_reducible apply State.setQueue_sound | with_reducible apply Sound.ite)

theorem State.sqRewind_sound {was : State} {s : State} {d : Nat} {q : Nat} (hs : Sound was s) :
    Sound was (State.sqRewind s d q) := by
  unfold State.sqRewind
  iterate 60 (all_goals try first
      | with_reducible assumption | intro _ | with_reducible refine Sound2.of (by assumption) ?_
      | with_reducible refine Sound3.of (by assumption) ?_ | with_reducible refine Sound4.of (by assumption) ?_
      | with_reducible refine SoundO.of (by assumption) ?_ | with_reducible refine SoundO2.of (by assumption) ?_
      | with_reducible refine SoundO4.of (by assumption) ?_ | with_reducible refine SoundOut.of (by assumption) ?_
      | with_reducible apply State.raise_sound | with_reducible apply State.setRiser_sound
      | with_reducible apply State.put_sound | with_reducible apply State.setQueue_sound
      | with_reducible apply SoundOut.next | with_reducible apply SoundO.none_ | with_reducible apply SoundO.some_
      | with_reducible apply SoundO2.none_ | with_reducible apply SoundO2.some_ | with_reducible apply SoundO4.none_
      | with_reducible apply SoundO4.some_ | with_reducible apply Sound.ite
      | (extract_lets +onlyGivenNames s1; first | (refine Sound.cut (was := was) (u := s1) ?_ ?_; rotate_left; (intro hs1; clear_value s1); rotate_left; subst s1) | skip))

theorem State.sqMarkBad_sound {was : State} {s : State} {d q : Nat} {last : Bool} (hs : Sound was s) :
    Sound was (State.sqMarkBad s d q last) := by
  unfold State.sqMarkBad
  iterate 8 (all_goals try first
      | with_reducible assumption | with_reducible apply State.sqRewind_sound
      | with_reducible apply State.setQueue_sound)

theorem State.sqOffer_sound {was : State} {s : State} {d q : Nat} {b : Beat} {bad : Bool} (hs : Sound was s) :
    Sound2 was (State.sqOffer s d q b bad) := by
  unfold State.sqOffer
  iterate 20 (all_goals try first
      | with_reducible assumption | intro _ | with_reducible apply State.setQueue_sound
      | with_reducible apply State.raise_sound | with_reducible apply State.sqMarkBad_sound
      | with_reducible apply State.sqStore_sound | with_reducible apply State.riserPass_sound
      | with_reducible apply State.updatePanic_sound | with_reducible apply Sound.ite
      | with_reducible apply Sound2.ite | with_reducible apply Sound.foldl | split | with_reducible apply Sound2.pair)

theorem State.sqTake_sound {was : State} {s : State} {d q : Nat} (hs : Sound was s) :
    Sound2 was (State.sqTake s d q) := by
  unfold State.sqTake
  iterate 20 (all_goals try first
      | with_reducible assumption | intro _ | with_reducible apply State.raise_sound
      | with_reducible apply State.setQueue_sound | with_reducible apply State.riserPass_sound
      | with_reducible apply State.updatePanic_sound | with_reducible apply Sound.ite
      | with_reducible apply Sound2.ite | with_reducible apply Sound.foldl | split | with_reducible apply Sound2.pair)

theorem execQueueWrite_sound {was : State} {d : Fin 4} {q : Fin 64} {b : Beat} {bad : Bool} {s : State} (hs : Sound was s) :
    SoundOut was (execQueueWrite d q b bad s) := by
  unfold execQueueWrite
  iterate 50 (all_goals try first
      | with_reducible assumption | intro _ | with_reducible refine Sound2.of (by assumption) ?_
      | with_reducible apply State.sqOffer_sound | with_reducible apply SoundOut.next | with_reducible apply Sound.ite
      | with_reducible apply SoundOut.ite | with_reducible apply Sound2.ite | with_reducible apply Sound.foldl
      | (extract_lets +onlyGivenNames s1; first | (refine Sound.cut (was := was) (u := s1) ?_ ?_; rotate_left; (intro hs1; clear_value s1); rotate_left; subst s1) | skip)
      | with_reducible refine Sound2.snd ?_)

theorem execQueueRead_sound {was : State} {d : Fin 4} {q : Fin 64} {s : State} (hs : Sound was s) :
    SoundOut was (execQueueRead d q s) := by
  unfold execQueueRead
  iterate 50 (all_goals try first
      | with_reducible assumption | intro _ | with_reducible refine Sound2.of (by assumption) ?_
      | with_reducible apply State.sqTake_sound | with_reducible apply State.emit_sound
      | with_reducible apply SoundOut.next | with_reducible apply Sound.ite | with_reducible apply SoundOut.ite
      | with_reducible apply Sound2.ite | with_reducible apply Sound.foldl
      | (extract_lets +onlyGivenNames s1; first | (refine Sound.cut (was := was) (u := s1) ?_ ?_; rotate_left; (intro hs1; clear_value s1); rotate_left; subst s1) | skip)
      | with_reducible refine Sound2.snd ?_ | split)

theorem State.sqFlush_sound {was : State} {s : State} {d q : Nat} (hs : Sound was s) :
    Sound was (State.sqFlush s d q) := by
  unfold State.sqFlush
  iterate 8 (all_goals try first
      | with_reducible assumption | with_reducible apply State.setQueue_sound)

theorem execQueueFlush_sound {was : State} {src : Src} {d : Fin 4} {q : Fin 64} {s : State} (hs : Sound was s) :
    SoundOut was (execQueueFlush src d q s) := by
  unfold execQueueFlush
  iterate 60 (all_goals try first
      | with_reducible assumption | intro _ | with_reducible refine Sound2.of (by assumption) ?_
      | with_reducible refine Sound3.of (by assumption) ?_ | with_reducible refine Sound4.of (by assumption) ?_
      | with_reducible refine SoundO.of (by assumption) ?_ | with_reducible refine SoundO2.of (by assumption) ?_
      | with_reducible refine SoundO4.of (by assumption) ?_ | with_reducible refine SoundOut.of (by assumption) ?_
      | with_reducible apply State.regAct_sound | with_reducible apply State.put_sound
      | with_reducible apply State.sqFlush_sound | with_reducible apply SoundOut.next
      | (extract_lets +onlyGivenNames s1; first | (refine Sound.cut (was := was) (u := s1) ?_ ?_; rotate_left; (intro hs1; clear_value s1); rotate_left; subst s1) | skip))

theorem State.emptyRiser_sound {was : State} {s : State} {d : Nat} {i : Nat} (hs : Sound was s) :
    Sound was (State.emptyRiser s d i) := by
  unfold State.emptyRiser
  iterate 60 (all_goals try first
      | with_reducible assumption | intro _ | with_reducible refine Sound2.of (by assumption) ?_
      | with_reducible refine Sound3.of (by assumption) ?_ | with_reducible refine Sound4.of (by assumption) ?_
      | with_reducible refine SoundO.of (by assumption) ?_ | with_reducible refine SoundO2.of (by assumption) ?_
      | with_reducible refine SoundO4.of (by assumption) ?_ | with_reducible refine SoundOut.of (by assumption) ?_
      | with_reducible apply State.setRiser_sound | with_reducible apply State.put_sound
      | (extract_lets +onlyGivenNames s1; first | (refine Sound.cut (was := was) (u := s1) ?_ ?_; rotate_left; (intro hs1; clear_value s1); rotate_left; subst s1) | skip))

theorem execQueueFlushRelease_sound {was : State} {d : Fin 4} {q : Fin 64} {s : State} (hs : Sound was s) :
    SoundOut was (execQueueFlushRelease d q s) := by
  unfold execQueueFlushRelease
  iterate 60 (all_goals try first
      | with_reducible assumption | intro _ | with_reducible refine Sound2.of (by assumption) ?_
      | with_reducible refine Sound3.of (by assumption) ?_ | with_reducible refine Sound4.of (by assumption) ?_
      | with_reducible refine SoundO.of (by assumption) ?_ | with_reducible refine SoundO2.of (by assumption) ?_
      | with_reducible refine SoundO4.of (by assumption) ?_ | with_reducible refine SoundOut.of (by assumption) ?_
      | with_reducible apply State.setQueue_sound | with_reducible apply State.emptyRiser_sound
      | with_reducible apply SoundOut.next | with_reducible apply SoundO.none_ | with_reducible apply SoundO.some_
      | with_reducible apply SoundO2.none_ | with_reducible apply SoundO2.some_ | with_reducible apply SoundO4.none_
      | with_reducible apply SoundO4.some_ | with_reducible apply Sound.ite | with_reducible apply SoundOut.ite
      | with_reducible apply Sound2.ite | with_reducible apply Sound3.ite | with_reducible apply SoundO.ite
      | with_reducible apply Sound.foldl | with_reducible apply Sound2.foldl
      | (extract_lets +onlyGivenNames s1; first | (refine Sound.cut (was := was) (u := s1) ?_ ?_; rotate_left; (intro hs1; clear_value s1); rotate_left; subst s1) | skip)
      | with_reducible refine Sound4.last ?_ | with_reducible refine Sound3.last ?_
      | with_reducible refine Sound2.snd ?_ | split)

theorem State.sqEnable_sound {was : State} {s : State} {d : Nat} {q : Nat} (hs : Sound was s) :
    Sound was (State.sqEnable s d q) := by
  unfold State.sqEnable
  iterate 60 (all_goals try first
      | with_reducible assumption | intro _ | with_reducible refine Sound2.of (by assumption) ?_
      | with_reducible refine Sound3.of (by assumption) ?_ | with_reducible refine Sound4.of (by assumption) ?_
      | with_reducible refine SoundO.of (by assumption) ?_ | with_reducible refine SoundO2.of (by assumption) ?_
      | with_reducible refine SoundO4.of (by assumption) ?_ | with_reducible refine SoundOut.of (by assumption) ?_
      | with_reducible apply State.put_sound | with_reducible apply State.setQueue_sound
      | with_reducible apply State.emptyRiser_sound | with_reducible apply SoundOut.next
      | with_reducible apply SoundO.none_ | with_reducible apply SoundO.some_ | with_reducible apply SoundO2.none_
      | with_reducible apply SoundO2.some_ | with_reducible apply SoundO4.none_ | with_reducible apply SoundO4.some_
      | with_reducible apply Sound.ite | with_reducible apply SoundOut.ite | with_reducible apply Sound2.ite
      | with_reducible apply Sound3.ite | with_reducible apply SoundO.ite | with_reducible apply Sound.foldl
      | with_reducible apply Sound2.foldl
      | (extract_lets +onlyGivenNames s1; first | (refine Sound.cut (was := was) (u := s1) ?_ ?_; rotate_left; (intro hs1; clear_value s1); rotate_left; subst s1) | skip)
      | with_reducible refine Sound4.last ?_ | with_reducible refine Sound3.last ?_
      | with_reducible refine Sound2.snd ?_ | split)

theorem State.sqConfig_sound {was : State} {s : State} {d : Nat} {q : Nat} {w : Word32} (hs : Sound was s) :
    Sound was (State.sqConfig s d q w) := by
  unfold State.sqConfig
  iterate 60 (all_goals try first
      | with_reducible assumption | intro _ | with_reducible refine Sound2.of (by assumption) ?_
      | with_reducible refine Sound3.of (by assumption) ?_ | with_reducible refine Sound4.of (by assumption) ?_
      | with_reducible refine SoundO.of (by assumption) ?_ | with_reducible refine SoundO2.of (by assumption) ?_
      | with_reducible refine SoundO4.of (by assumption) ?_ | with_reducible refine SoundOut.of (by assumption) ?_
      | with_reducible apply State.put_sound | with_reducible apply State.raise_sound
      | with_reducible apply State.sqEnable_sound | with_reducible apply State.sqFlush_sound
      | with_reducible apply SoundOut.next | with_reducible apply SoundO.none_ | with_reducible apply SoundO.some_
      | with_reducible apply SoundO2.none_ | with_reducible apply SoundO2.some_ | with_reducible apply SoundO4.none_
      | with_reducible apply SoundO4.some_ | with_reducible apply Sound.ite
      | (extract_lets +onlyGivenNames s1; first | (refine Sound.cut (was := was) (u := s1) ?_ ?_; rotate_left; (intro hs1; clear_value s1); rotate_left; subst s1) | skip))

theorem execQueueConfigWrite_sound {was : State} {src : Src} {d : Fin 4} {q : Fin 64} {w : Word32} {s : State} (hs : Sound was s) :
    SoundOut was (execQueueConfigWrite src d q w s) := by
  unfold execQueueConfigWrite
  iterate 60 (all_goals try first
      | with_reducible assumption | intro _ | with_reducible refine Sound2.of (by assumption) ?_
      | with_reducible refine Sound3.of (by assumption) ?_ | with_reducible refine Sound4.of (by assumption) ?_
      | with_reducible refine SoundO.of (by assumption) ?_ | with_reducible refine SoundO2.of (by assumption) ?_
      | with_reducible refine SoundO4.of (by assumption) ?_ | with_reducible refine SoundOut.of (by assumption) ?_
      | with_reducible apply State.regAct_sound | with_reducible apply State.sqConfig_sound
      | with_reducible apply SoundOut.next
      | (extract_lets +onlyGivenNames s1; first | (refine Sound.cut (was := was) (u := s1) ?_ ?_; rotate_left; (intro hs1; clear_value s1); rotate_left; subst s1) | skip))

theorem State.sqPop_sound {was : State} {s : State} {src : Src} {d q : Nat} (hs : Sound was s) :
    Sound2 was (State.sqPop s src d q) := by
  unfold State.sqPop
  iterate 50 (all_goals try first
      | with_reducible assumption | intro _ | with_reducible refine Sound2.of (by assumption) ?_
      | with_reducible apply State.sqTake_sound | with_reducible apply Sound.ite | with_reducible apply Sound2.ite
      | with_reducible apply Sound.foldl
      | (extract_lets +onlyGivenNames s1; first | (refine Sound.cut (was := was) (u := s1) ?_ ?_; rotate_left; (intro hs1; clear_value s1); rotate_left; subst s1) | skip)
      | with_reducible refine Sound2.snd ?_ | split | with_reducible apply Sound2.pair)

theorem execQueueRegisterPop_sound {was : State} {src : Src} {d : Fin 4} {q : Fin 64} {s : State} (hs : Sound was s) :
    SoundOut was (execQueueRegisterPop src d q s) := by
  unfold execQueueRegisterPop
  iterate 50 (all_goals try first
      | with_reducible assumption | intro _ | with_reducible refine Sound2.of (by assumption) ?_
      | with_reducible apply State.sqPop_sound | with_reducible apply State.answerWord_sound
      | with_reducible apply SoundOut.next | with_reducible apply Sound.ite | with_reducible apply SoundOut.ite
      | with_reducible apply Sound2.ite | with_reducible apply Sound.foldl
      | (extract_lets +onlyGivenNames s1; first | (refine Sound.cut (was := was) (u := s1) ?_ ?_; rotate_left; (intro hs1; clear_value s1); rotate_left; subst s1) | skip)
      | with_reducible refine Sound2.snd ?_)

theorem State.sqPush_sound {was : State} {s : State} {d q : Nat} {w : Word32} (hs : Sound was s) :
    Sound2 was (State.sqPush s d q w) := by
  unfold State.sqPush
  iterate 50 (all_goals try first
      | with_reducible assumption | intro _ | with_reducible refine Sound2.of (by assumption) ?_
      | with_reducible apply State.setReg_sound | with_reducible apply State.sqOffer_sound
      | with_reducible apply Sound.ite | with_reducible apply Sound2.ite | with_reducible apply Sound.foldl
      | (extract_lets +onlyGivenNames s1; first | (refine Sound.cut (was := was) (u := s1) ?_ ?_; rotate_left; (intro hs1; clear_value s1); rotate_left; subst s1) | skip)
      | with_reducible refine Sound2.snd ?_ | split | with_reducible apply Sound2.pair)

theorem execQueueRegisterPush_sound {was : State} {src : Src} {d : Fin 4} {q : Fin 64} {w : Word32} {s : State} (hs : Sound was s) :
    SoundOut was (execQueueRegisterPush src d q w s) := by
  unfold execQueueRegisterPush
  iterate 50 (all_goals try first
      | with_reducible assumption | intro _ | with_reducible refine Sound2.of (by assumption) ?_
      | with_reducible apply State.sqPush_sound | with_reducible apply State.answer_sound
      | with_reducible apply SoundOut.next | with_reducible apply Sound.ite | with_reducible apply SoundOut.ite
      | with_reducible apply Sound2.ite | with_reducible apply Sound.foldl
      | (extract_lets +onlyGivenNames s1; first | (refine Sound.cut (was := was) (u := s1) ?_ ?_; rotate_left; (intro hs1; clear_value s1); rotate_left; subst s1) | skip)
      | with_reducible refine Sound2.snd ?_)

end Sys2Proof.Machine
end

