-- ==== Sys2Proof/Laws/SoundPorts.lean ====
section
/-!
SUPPORT. Sys2Proof/Laws/SoundPorts.lean: the operations of Machine/Ports.lean keep what Sound says.
-/

namespace Sys2Proof.Machine

theorem State.setPort_sound {was : State} {s : State} {d p : Nat} {x : PortSt} (hs : Sound was s) :
    Sound was (State.setPort s d p x) := by
  unfold State.setPort
  iterate 8 (all_goals try first
      | with_reducible assumption | with_reducible apply State.setDie_sound)

theorem State.injectBeat_sound {was : State} {s : State} {d p : Nat} {b : Beat} (hs : Sound was s) :
    Sound2 was (State.injectBeat s d p b) := by
  unfold State.injectBeat
  iterate 20 (all_goals try first
      | with_reducible assumption | intro _ | with_reducible apply State.put_sound | with_reducible apply Sound.ite
      | with_reducible apply Sound2.ite | with_reducible apply Sound.foldl | split | with_reducible apply Sound2.pair)

theorem State.bubble_sound {was : State} {s : State} {d p : Nat} {counted : Bool} (hs : Sound was s) :
    Sound was (State.bubble s d p counted) := by
  unfold State.bubble
  iterate 20 (all_goals try first
      | with_reducible assumption | intro _ | with_reducible apply State.countUp_sound
      | with_reducible apply State.raise_sound | with_reducible apply Sound.ite)

theorem State.onSpine_sound {was : State} {s : State} {d p : Nat} {b : Beat} (hs : Sound was s) :
    Sound was (State.onSpine s d p b) := by
  unfold State.onSpine
  iterate 20 (all_goals try first
      | with_reducible assumption | intro _ | with_reducible apply State.raise_sound
      | with_reducible apply State.bucket_sound | with_reducible apply State.setDie_sound
      | with_reducible apply Sound.ite | with_reducible apply Sound.foldl)

theorem execIngressBeat_sound {was : State} {d : Fin 4} {p : Fin 64} {s : State} (hs : Sound was s) :
    SoundOut was (execIngressBeat d p s) := by
  unfold execIngressBeat
  iterate 50 (all_goals try first
      | with_reducible assumption | intro _ | with_reducible refine Sound2.of (by assumption) ?_
      | with_reducible apply State.bubble_sound | with_reducible apply State.sqTake_sound
      | with_reducible apply State.injectBeat_sound | with_reducible apply State.onSpine_sound
      | with_reducible apply State.setPort_sound | with_reducible apply SoundOut.next | with_reducible apply Sound.ite
      | with_reducible apply SoundOut.ite | with_reducible apply Sound2.ite | with_reducible apply Sound.foldl
      | (extract_lets +onlyGivenNames s1; first | (refine Sound.cut (was := was) (u := s1) ?_ ?_; rotate_left; (intro hs1; clear_value s1); rotate_left; subst s1) | skip)
      | with_reducible refine Sound2.snd ?_ | split)

theorem State.egressOffer_sound {was : State} {s : State} {d p : Nat} {b : Beat} (hs : Sound was s) :
    Sound was (State.egressOffer s d p b) := by
  unfold State.egressOffer
  iterate 50 (all_goals try first
      | with_reducible assumption | intro _ | with_reducible refine Sound2.of (by assumption) ?_
      | with_reducible apply State.injectBeat_sound | with_reducible apply State.sqOffer_sound
      | with_reducible apply State.countUp_sound | with_reducible apply State.raise_sound
      | with_reducible apply State.sqMarkBad_sound | with_reducible apply Sound.ite | with_reducible apply Sound2.ite
      | with_reducible apply Sound.foldl
      | (extract_lets +onlyGivenNames s1; first | (refine Sound.cut (was := was) (u := s1) ?_ ?_; rotate_left; (intro hs1; clear_value s1); rotate_left; subst s1) | skip)
      | with_reducible refine Sound2.snd ?_ | split)

theorem State.egressLanes_sound {was : State} {s : State} {d p : Nat} {bs : List SpineByte} (hs : Sound was s) :
    Sound2 was (State.egressLanes s d p bs) := by
  unfold State.egressLanes
  refine Sound2.foldl (fun q i h => ?_) hs
  simp only
  exact ⟨Sound.foldl (fun s b h => State.countUp_sound (State.raise_sound (State.raise_sound h))) h⟩

theorem execEgressBeat_sound {was : State} {d : Fin 4} {p : Fin 64} {s : State} (hs : Sound was s) :
    SoundOut was (execEgressBeat d p s) := by
  unfold execEgressBeat
  iterate 50 (all_goals try first
      | with_reducible assumption | intro _ | with_reducible refine Sound2.of (by assumption) ?_
      | with_reducible apply State.setDie_sound | with_reducible apply State.countUp_sound
      | with_reducible apply State.raise_sound | with_reducible apply State.bucket_sound
      | with_reducible apply State.egressLanes_sound | with_reducible apply State.egressOffer_sound
      | with_reducible apply State.setPort_sound | with_reducible apply SoundOut.next | with_reducible apply Sound.ite
      | with_reducible apply SoundOut.ite | with_reducible apply Sound2.ite | with_reducible apply Sound.foldl
      | (extract_lets +onlyGivenNames s1; first | (refine Sound.cut (was := was) (u := s1) ?_ ?_; rotate_left; (intro hs1; clear_value s1); rotate_left; subst s1) | skip)
      | with_reducible refine Sound2.snd ?_ | split)

theorem State.portConfig_sound {was : State} {s : State} {d p : Nat} {win : Bool} {w : Word32} (hs : Sound was s) :
    Sound was (State.portConfig s d p win w) := by
  unfold State.portConfig
  iterate 20 (all_goals try first
      | with_reducible assumption | intro _ | with_reducible apply State.setPort_sound
      | with_reducible apply Sound.ite)

theorem execPortConfigWrite_sound {was : State} {src : Src} {d : Fin 4} {p : Fin 64} {win : Bool} {w : Word32} {s : State} (hs : Sound was s) :
    SoundOut was (execPortConfigWrite src d p win w s) := by
  unfold execPortConfigWrite
  iterate 60 (all_goals try first
      | with_reducible assumption | intro _ | with_reducible refine Sound2.of (by assumption) ?_
      | with_reducible refine Sound3.of (by assumption) ?_ | with_reducible refine Sound4.of (by assumption) ?_
      | with_reducible refine SoundO.of (by assumption) ?_ | with_reducible refine SoundO2.of (by assumption) ?_
      | with_reducible refine SoundO4.of (by assumption) ?_ | with_reducible refine SoundOut.of (by assumption) ?_
      | with_reducible apply State.regAct_sound | with_reducible apply State.portConfig_sound
      | with_reducible apply SoundOut.next
      | (extract_lets +onlyGivenNames s1; first | (refine Sound.cut (was := was) (u := s1) ?_ ?_; rotate_left; (intro hs1; clear_value s1); rotate_left; subst s1) | skip))

theorem execPortCountRead_sound {was : State} {src : Src} {d : Fin 4} {p : Fin 64} {s : State} (hs : Sound was s) :
    SoundOut was (execPortCountRead src d p s) := by
  unfold execPortCountRead
  iterate 20 (all_goals try first
      | with_reducible assumption | intro _ | with_reducible apply State.setReg_sound
      | with_reducible apply State.answerWord_sound | with_reducible apply SoundOut.next
      | with_reducible apply Sound.ite)

theorem State.portTick_sound {was : State} {s : State} {d n p : Nat} (hs : Sound was s) :
    Sound was (State.portTick s d n p) := by
  unfold State.portTick
  iterate 20 (all_goals try first
      | with_reducible assumption | intro _ | with_reducible apply State.raise_sound
      | with_reducible apply State.egressOffer_sound | with_reducible apply State.writeReg_sound
      | with_reducible apply State.setPort_sound | with_reducible apply Sound.ite | with_reducible apply Sound.foldl
      | split)

end Sys2Proof.Machine
end

