-- ==== Sys2Proof/Laws/SoundResultSlots.lean ====
section
/-!
SUPPORT. Sys2Proof/Laws/SoundResultSlots.lean: the operations of Machine/ResultSlots.lean keep what Sound says.
-/

namespace Sys2Proof.Machine

theorem State.setSlot_sound {was : State} {s : State} {i : Nat} {x : Slot} (hs : Sound was s) :
    Sound was (State.setSlot s i x) := by
  unfold State.setSlot
  iterate 8 (all_goals try first
      | with_reducible assumption | with_reducible refine Sound.mk_ ?_ rfl rfl)

theorem State.storePublish_sound {was : State} {s : State} {i : Nat} {data : List Byte} (hs : Sound was s) :
    Sound was (State.storePublish s i data) := by
  unfold State.storePublish
  iterate 8 (all_goals try first
      | with_reducible assumption | with_reducible apply State.setSlot_sound)

theorem State.publishAt_sound {was : State} {s : State} {i : Nat} {r : Req} (hs : Sound was s) :
    Sound was (State.publishAt s i r) := by
  have resp := fun c d b => State.respond_sound (r := r) (code := c) (data := d) (bad := b) hs
  have ok := State.respond_sound (r := r) (code := .ok) (data := []) (bad := [])
    (State.storePublish_sound (i := i) (data := r.data) hs)
  unfold State.publishAt
  repeat' split
  all_goals first | exact resp _ _ _ | exact ok | exact State.respond_sound (State.raise_sound hs) | skip
  rename_i h _
  exact ⟨hs.regs, hs.mem, hs.units, by simp; omega, hs.queue, hs.out, hs.free⟩

theorem State.ackAt_sound {was : State} {s : State} {i : Nat} {r : Req} (hs : Sound was s) :
    Sound was (State.ackAt s i r) := by
  unfold State.ackAt
  iterate 20 (all_goals try first
      | with_reducible assumption | intro _ | with_reducible apply State.respond_sound
      | with_reducible apply State.setSlot_sound | with_reducible apply State.raise_sound
      | with_reducible apply Sound.ite)

theorem State.slotWrite_sound {was : State} {s : State} {r : Req} (hs : Sound was s) :
    Sound was (State.slotWrite s r) := by
  unfold State.slotWrite
  iterate 20 (all_goals try first
      | with_reducible assumption | intro _ | with_reducible apply State.respond_sound
      | with_reducible apply State.publishAt_sound | with_reducible apply State.ackAt_sound
      | with_reducible apply Sound.ite | with_reducible apply Sound.foldl | split)

theorem State.slotRead_sound {was : State} {s : State} {r : Req} (hs : Sound was s) :
    Sound was (State.slotRead s r) := by
  unfold State.slotRead
  iterate 20 (all_goals try first
      | with_reducible assumption | intro _ | with_reducible apply State.respond_sound
      | with_reducible apply Sound.ite | with_reducible apply Sound.foldl | split)

theorem execPublish_sound {was : State} {r : Req} {s : State} (hs : Sound was s) :
    SoundOut was (execPublish r s) := by
  unfold execPublish
  iterate 20 (all_goals try first
      | with_reducible assumption | intro _ | with_reducible apply State.publishAt_sound
      | with_reducible apply State.respond_sound | with_reducible apply SoundOut.next | with_reducible apply Sound.ite
      | with_reducible apply SoundOut.ite | with_reducible apply Sound.foldl | split)

theorem execAcknowledge_sound {was : State} {r : Req} {s : State} (hs : Sound was s) :
    SoundOut was (execAcknowledge r s) := by
  unfold execAcknowledge
  iterate 20 (all_goals try first
      | with_reducible assumption | intro _ | with_reducible apply State.ackAt_sound
      | with_reducible apply State.respond_sound | with_reducible apply SoundOut.next | with_reducible apply Sound.ite
      | with_reducible apply SoundOut.ite | with_reducible apply Sound.foldl | split)

theorem execHeldPublishRelease_sound {was : State} {slot : Fin 4096} {s : State} (hs : Sound was s) :
    SoundOut was (execHeldPublishRelease slot s) := by
  unfold execHeldPublishRelease
  split
  · exact SoundOut.next hs
  · split
    · exact SoundOut.next (State.respond_sound (State.storePublish_sound
        ⟨hs.regs, hs.mem, hs.units, Nat.le_trans (List.length_erase_le ..) hs.held, hs.queue, hs.out, hs.free⟩))
    · exact SoundOut.next hs

theorem State.flushHeld_sound {was : State} {s : State} {i : Nat} {each : HeldPub → State → State} (hs : Sound was s)
    (heach : ∀ h s, Sound was s → Sound was (each h s)) : Sound was (State.flushHeld s i each) := by
  unfold State.flushHeld
  exact Sound.foldl (fun _ _ h => heach _ _ h)
    ⟨hs.regs, hs.mem, hs.units, Nat.le_trans (List.length_filter_le ..) hs.held, hs.queue, hs.out, hs.free⟩

theorem State.slotPolicy_sound {was : State} {s : State} {i : Nat} {w : Word32} (hs : Sound was s) :
    Sound was (State.slotPolicy s i w) := by
  unfold State.slotPolicy
  iterate 20 (all_goals try first
      | with_reducible assumption | intro _ | with_reducible apply State.writeReg_sound
      | with_reducible apply State.flushHeld_sound | with_reducible apply State.respond_sound
      | with_reducible apply State.storePublish_sound | with_reducible apply Sound.ite)

theorem execResultPolicyWrite_sound {was : State} {src : Src} {slot : Fin 4096} {w : Word32} {s : State} (hs : Sound was s) :
    SoundOut was (execResultPolicyWrite src slot w s) := by
  unfold execResultPolicyWrite
  iterate 60 (all_goals try first
      | with_reducible assumption | intro _ | with_reducible refine Sound2.of (by assumption) ?_
      | with_reducible refine Sound3.of (by assumption) ?_ | with_reducible refine Sound4.of (by assumption) ?_
      | with_reducible refine SoundO.of (by assumption) ?_ | with_reducible refine SoundO2.of (by assumption) ?_
      | with_reducible refine SoundO4.of (by assumption) ?_ | with_reducible refine SoundOut.of (by assumption) ?_
      | with_reducible apply State.regAct_sound | with_reducible apply State.slotPolicy_sound
      | with_reducible apply SoundOut.next
      | (extract_lets +onlyGivenNames s1; first | (refine Sound.cut (was := was) (u := s1) ?_ ?_; rotate_left; (intro hs1; clear_value s1); rotate_left; subst s1) | skip))

theorem State.clearSlots_sound {was : State} {s : State} (hs : Sound was s) : Sound was (State.clearSlots s) := by
  unfold State.clearSlots
  exact Sound.foldl (fun _ _ h => State.respond_sound h)
    ⟨hs.regs, hs.mem, hs.units, Nat.zero_le _, hs.queue, hs.out, hs.free⟩

end Sys2Proof.Machine
end

