-- ==== Sys2Proof/Laws/SoundDram.lean ====
section
/-!
SUPPORT. Sys2Proof/Laws/SoundDram.lean: the operations of Machine/Dram.lean keep what Sound says.
-/

namespace Sys2Proof.Machine

theorem State.setEncRgn_sound {was : State} {s : State} {r : Nat} {x : EncRegion} (hs : Sound was s) :
    Sound was (State.setEncRgn s r x) := by
  unfold State.setEncRgn
  iterate 8 (all_goals try first
      | with_reducible assumption | with_reducible refine Sound.mk_ ?_ rfl rfl)

theorem State.ownBytes_sound {was : State} {s : State} {b : Nat} (hs : Sound was s) :
    Sound was (State.ownBytes s b) := by
  unfold State.ownBytes
  iterate 20 (all_goals try first
      | with_reducible assumption | intro _ | with_reducible apply State.setEncRgn_sound
      | with_reducible apply Sound.ite | with_reducible apply Sound.foldl | split)

theorem putBytes_wf {m : SMap (BitVec 8)} {a : Nat} {l : List (BitVec 8)} (h : SMap.wf 0#8 m = true) :
    SMap.wf 0#8 (putBytes m a l) = true := by
  induction l generalizing m a with
  | nil => exact h
  | cons b t ih => exact ih (SMap.wf_set h _ _)

theorem State.putBlock_sound {was : State} {s : State} {b : Nat} {data : List Byte} {m : BlockMeta} (hs : Sound was s) :
    Sound was (State.putBlock s b data m) := by
  have h := State.ownBytes_sound (b := b) hs
  exact ⟨h.regs, putBytes_wf h.mem, h.units, h.held, h.queue, h.out, h.free⟩

theorem State.countFix_sound {was : State} {s : State} {u : MemUnit} {a : Nat} (hs : Sound was s) :
    Sound was (State.countFix s u a) := by
  unfold State.countFix
  iterate 20 (all_goals try first
      | with_reducible assumption | intro _ | with_reducible apply State.countUp_sound
      | with_reducible apply State.bucket_sound | with_reducible apply Sound.ite)

theorem State.logBad_sound {was : State} {s : State} {u : MemUnit} {a requester : Nat} {n : Byte} {code : Resp} (hs : Sound was s) :
    Sound was (State.logBad s u a requester n code) := by
  unfold State.logBad
  iterate 8 (all_goals try first
      | with_reducible assumption | with_reducible apply State.logEv_sound)

theorem State.logFailed_sound {was : State} {s : State} {u : MemUnit} {a : Nat} (hs : Sound was s) :
    Sound was (State.logFailed s u a) := by
  unfold State.logFailed
  iterate 20 (all_goals try first
      | with_reducible assumption | intro _ | with_reducible apply State.logEv_sound | with_reducible apply Sound.ite
      | with_reducible apply Sound.foldl | split | with_reducible refine Sound.mk_ ?_ rfl rfl)

theorem State.touchRow_sound {was : State} {s : State} {a hint : Nat} (hs : Sound was s) :
    Sound was (State.touchRow s a hint) := by
  unfold State.touchRow
  iterate 20 (all_goals try first
      | with_reducible assumption | intro _ | with_reducible apply State.raise_sound | with_reducible apply Sound.ite
      | with_reducible apply Sound.foldl | split | with_reducible refine Sound.mk_ ?_ rfl rfl)

theorem State.readBlock_sound {was : State} {s : State} {u : MemUnit} {b requester : Nat} (hs : Sound was s) :
    Sound4 was (State.readBlock s u b requester) := by
  unfold State.readBlock
  iterate 20 (all_goals try first
      | with_reducible assumption | intro _ | with_reducible apply State.countFix_sound
      | with_reducible apply State.logBad_sound | with_reducible apply Sound.ite | with_reducible apply Sound.foldl
      | split | with_reducible apply Sound4.pair | with_reducible refine Sound.mk_ ?_ rfl rfl)

theorem State.poisonBlock_sound {was : State} {s : State} {b : Nat} (hs : Sound was s) :
    Sound was (State.poisonBlock s b) := by
  unfold State.poisonBlock
  iterate 8 (all_goals try first
      | with_reducible assumption | with_reducible apply State.putBlock_sound)

theorem State.writeBlock_sound {was : State} {s : State} {u : MemUnit} {a : Nat} {data : List Byte} {requester : Nat} (hs : Sound was s) :
    Sound2 was (State.writeBlock s u a data requester) := by
  unfold State.writeBlock
  iterate 20 (all_goals try first
      | with_reducible assumption | intro _ | with_reducible apply State.putBlock_sound
      | with_reducible apply State.countFix_sound | with_reducible apply State.logBad_sound
      | with_reducible apply State.poisonBlock_sound | with_reducible apply Sound.ite
      | with_reducible apply Sound2.ite | with_reducible apply Sound.foldl | split | with_reducible apply Sound2.pair)

theorem State.ctlRead_sound {was : State} {s : State} {a len requester hint : Nat} (hs : Sound was s) :
    SoundO4 was (State.ctlRead s a len requester hint) := by
  unfold State.ctlRead
  iterate 50 (all_goals try first
      | with_reducible assumption | intro _ | with_reducible refine Sound4.of (by assumption) ?_
      | with_reducible apply State.logFailed_sound | with_reducible apply State.touchRow_sound
      | with_reducible apply State.readBlock_sound | with_reducible exact SoundO4.none_
      | with_reducible apply SoundO4.some_ | with_reducible apply Sound.ite | with_reducible apply Sound.foldl
      | (extract_lets +onlyGivenNames s1; first | (refine Sound.cut (was := was) (u := s1) ?_ ?_; rotate_left; (intro hs1; clear_value s1); rotate_left; subst s1) | skip)
      | with_reducible refine Sound4.last ?_ | split)

theorem State.ctlWrite_sound {was : State} {s : State} {a : Nat} {data : List Byte} {badPar : Bool} {requester hint : Nat} (hs : Sound was s) :
    SoundO2 was (State.ctlWrite s a data badPar requester hint) := by
  unfold State.ctlWrite
  iterate 50 (all_goals try first
      | with_reducible assumption | intro _ | with_reducible refine Sound2.of (by assumption) ?_
      | with_reducible apply State.logFailed_sound | with_reducible apply State.touchRow_sound
      | with_reducible apply State.poisonBlock_sound | with_reducible apply State.writeBlock_sound
      | with_reducible exact SoundO2.none_ | with_reducible apply SoundO2.some_ | with_reducible apply Sound.ite
      | with_reducible apply Sound2.ite | with_reducible apply Sound.foldl
      | (extract_lets +onlyGivenNames s1; first | (refine Sound.cut (was := was) (u := s1) ?_ ?_; rotate_left; (intro hs1; clear_value s1); rotate_left; subst s1) | skip)
      | with_reducible refine Sound2.snd ?_ | split)

theorem State.orElse_sound {was : State} {s : State} {o : Option (Resp × State)} (hs : Sound was s) (ho : SoundO2 was o) :
    Sound was (State.orElse s o) := by
  unfold State.orElse
  split
  · exact ho.all _ _ rfl
  · exact hs

theorem execCorrectionWriteback_sound {was : State} {block : BitVec 42} {s : State} (hs : Sound was s) :
    SoundOut was (execCorrectionWriteback block s) := by
  unfold execCorrectionWriteback
  iterate 20 (all_goals try first
      | with_reducible assumption | intro _ | with_reducible apply State.putBlock_sound
      | with_reducible apply SoundOut.next | with_reducible apply Sound.ite | with_reducible apply SoundOut.ite
      | with_reducible apply Sound.foldl | split)

theorem State.patrolOn_sound {was : State} {s : State} {hbm : Bool} {k : Nat} (hs : Sound was s) :
    Sound was (State.patrolOn s hbm k) := Sound.dram_ hs hs.mem

theorem execPatrolScrub_sound {was : State} {hbm : Bool} {unit : Fin 4} {s : State} (hs : Sound was s) :
    SoundOut was (execPatrolScrub hbm unit s) := by
  unfold execPatrolScrub
  iterate 50 (all_goals try first
      | with_reducible assumption | intro _ | with_reducible refine Sound4.of (by assumption) ?_
      | with_reducible apply State.patrolOn_sound
      | with_reducible apply State.touchRow_sound | with_reducible apply State.readBlock_sound
      | with_reducible apply SoundOut.next | with_reducible apply Sound.ite | with_reducible apply SoundOut.ite
      | with_reducible apply Sound.foldl
      | (extract_lets +onlyGivenNames s1; first | (refine Sound.cut (was := was) (u := s1) ?_ ?_; rotate_left; (intro hs1; clear_value s1); rotate_left; subst s1) | skip)
      | with_reducible refine Sound4.last ?_ | split)

theorem execRefresh_sound {was : State} {bank : BitVec 32} {s : State} (hs : Sound was s) :
    SoundOut was (execRefresh bank s) := by
  unfold execRefresh
  iterate 8 (all_goals try first
      | with_reducible assumption | with_reducible apply SoundOut.next | with_reducible refine Sound.mk_ ?_ rfl rfl)

theorem execPageTimeout_sound {was : State} {bank : BitVec 32} {s : State} (hs : Sound was s) :
    SoundOut was (execPageTimeout bank s) := by
  unfold execPageTimeout
  iterate 8 (all_goals try first
      | with_reducible assumption | with_reducible apply SoundOut.next | with_reducible refine Sound.mk_ ?_ rfl rfl)

theorem execPowerDownEntry_sound {was : State} {hbm : Bool} {unit : Fin 4} {rank : BitVec 32} {s : State} (hs : Sound was s) :
    SoundOut was (execPowerDownEntry hbm unit rank s) := by
  unfold execPowerDownEntry
  iterate 20 (all_goals try first
      | with_reducible assumption | intro _ | with_reducible apply SoundOut.next | with_reducible apply Sound.ite
      | with_reducible apply SoundOut.ite | with_reducible apply Sound.foldl | split
      | with_reducible refine Sound.mk_ ?_ rfl rfl)

theorem execDramTemperatureRead_sound {was : State} {hbm : Bool} {unit : Fin 4} {temp : Int} {s : State} (hs : Sound was s) :
    SoundOut was (execDramTemperatureRead hbm unit temp s) := by
  unfold execDramTemperatureRead
  iterate 8 (all_goals try first
      | with_reducible assumption | with_reducible apply State.put_sound | with_reducible apply SoundOut.next)

theorem execTracking_sound {was : State} {hbm : Bool} {unit : Fin 4} {sub : Fin 32} {s : State} (hs : Sound was s) :
    SoundOut was (execTracking hbm unit sub s) := by
  unfold execTracking
  iterate 8 (all_goals try first
      | with_reducible assumption | with_reducible apply SoundOut.next)

theorem State.failUnit_sound {was : State} {s : State} {u : MemUnit} (hs : Sound was s) :
    Sound was (State.failUnit s u) := by
  unfold State.failUnit
  iterate 20 (all_goals try first
      | with_reducible assumption | intro _ | with_reducible apply State.logEv_sound
      | with_reducible apply State.put_sound | with_reducible apply State.raise_sound | with_reducible apply Sound.ite)

theorem execPeriodicRetrain_sound {was : State} {hbm : Bool} {unit : Fin 4} {rank : BitVec 32} {busy : Bool} {fin : Bool} {s : State} (hs : Sound was s) :
    SoundOut was (execPeriodicRetrain hbm unit rank busy fin s) := by
  unfold execPeriodicRetrain
  iterate 60 (all_goals try first
      | with_reducible assumption | intro _ | with_reducible refine Sound2.of (by assumption) ?_
      | with_reducible refine Sound3.of (by assumption) ?_ | with_reducible refine Sound4.of (by assumption) ?_
      | with_reducible refine SoundO.of (by assumption) ?_ | with_reducible refine SoundO2.of (by assumption) ?_
      | with_reducible refine SoundO4.of (by assumption) ?_ | with_reducible refine SoundOut.of (by assumption) ?_
      | with_reducible apply State.put_sound | with_reducible apply SoundOut.next | with_reducible apply SoundO.none_
      | with_reducible apply SoundO.some_ | with_reducible apply SoundO2.none_ | with_reducible apply SoundO2.some_
      | with_reducible apply SoundO4.none_ | with_reducible apply SoundO4.some_ | with_reducible apply Sound.ite
      | with_reducible apply SoundOut.ite | with_reducible apply Sound2.ite | with_reducible apply Sound3.ite
      | with_reducible apply SoundO.ite | with_reducible apply Sound.foldl | with_reducible apply Sound2.foldl
      | (extract_lets +onlyGivenNames s1; first | (refine Sound.cut (was := was) (u := s1) ?_ ?_; rotate_left; (intro hs1; clear_value s1); rotate_left; subst s1) | skip)
      | with_reducible refine Sound4.last ?_ | with_reducible refine Sound3.last ?_
      | with_reducible refine Sound2.snd ?_ | split | with_reducible apply Sound2.pair
      | with_reducible apply Sound3.pair | with_reducible apply Sound4.pair
      | with_reducible refine Sound.mk_ ?_ rfl rfl)

theorem State.cmdFails_sound {was : State} {s : State} {r : Req} (hs : Sound was s) : Sound was (State.cmdFails s r) :=
  Sound.ite hs (State.respond_sound (Sound.dram_ hs hs.mem))

theorem execCommandParityError_sound {was : State} {hbm : Bool} {unit : Fin 4} {sub : Fin 32} {again retrained : Bool} {reqs : List Req} {s : State} (hs : Sound was s) :
    SoundOut was (execCommandParityError hbm unit sub again retrained reqs s) := by
  unfold execCommandParityError
  iterate 20 (all_goals try first
      | with_reducible assumption | intro _ | with_reducible apply State.cmdFails_sound
      | with_reducible apply State.logEv_sound | with_reducible apply State.failUnit_sound
      | with_reducible apply SoundOut.next | with_reducible apply Sound.ite | with_reducible apply SoundOut.ite
      | with_reducible apply Sound.foldl)

theorem State.startTimers_sound {was : State} {s : State} {l : List Nat} (hs : Sound was s) :
    Sound was (State.startTimers s l) := Sound.dram_ hs hs.mem

theorem execTrainingComplete_sound {was : State} {hbm : Bool} {unit : Fin 4} {ok : Bool} {pcs pop : Word32} {s : State} (hs : Sound was s) :
    SoundOut was (execTrainingComplete hbm unit ok pcs pop s) := by
  unfold execTrainingComplete
  iterate 20 (all_goals try first
      | with_reducible assumption | intro _ | with_reducible apply State.failUnit_sound
      | with_reducible apply State.startTimers_sound
      | with_reducible apply State.raise_sound | with_reducible apply State.setReg_sound
      | with_reducible apply SoundOut.next | with_reducible apply Sound.ite | with_reducible apply SoundOut.ite
      | with_reducible apply Sound.foldl)

theorem State.poisonAt_sound {was : State} {s : State} {op a : Nat} (hs : Sound was s) :
    Sound was (State.poisonAt s op a) := by
  unfold State.poisonAt
  iterate 20 (all_goals try first
      | with_reducible assumption | intro _ | with_reducible apply State.put_sound
      | with_reducible apply State.raise_sound | with_reducible apply State.poisonBlock_sound
      | with_reducible apply State.putBlock_sound | with_reducible apply State.logFailed_sound
      | with_reducible apply Sound.ite | with_reducible apply Sound.foldl | split | exact Sound.dram_ hs hs.mem)

theorem State.poisonCommand_sound {was : State} {s : State} {op : Nat} (hs : Sound was s) :
    Sound was (State.poisonCommand s op) := by
  unfold State.poisonCommand
  exact Sound.ite hs (State.poisonAt_sound hs)

theorem State.poisonResume_sound {was : State} {s : State} (hs : Sound was s) : Sound was (State.poisonResume s) := by
  unfold State.poisonResume
  split
  · exact Sound.ite hs (State.poisonAt_sound (State.put_sound (Sound.dram_ hs hs.mem)))
  · exact hs

theorem execPoisonBlock_sound {was : State} {src : Src} {s : State} (hs : Sound was s) :
    SoundOut was (execPoisonBlock src s) := by
  unfold execPoisonBlock
  iterate 60 (all_goals try first
      | with_reducible assumption | intro _ | with_reducible refine Sound2.of (by assumption) ?_
      | with_reducible refine Sound3.of (by assumption) ?_ | with_reducible refine Sound4.of (by assumption) ?_
      | with_reducible refine SoundO.of (by assumption) ?_ | with_reducible refine SoundO2.of (by assumption) ?_
      | with_reducible refine SoundO4.of (by assumption) ?_ | with_reducible refine SoundOut.of (by assumption) ?_
      | with_reducible apply State.command_sound | with_reducible apply State.put_sound
      | with_reducible apply State.poisonCommand_sound | with_reducible apply SoundOut.next
      | (extract_lets +onlyGivenNames s1; first | (refine Sound.cut (was := was) (u := s1) ?_ ?_; rotate_left; (intro hs1; clear_value s1); rotate_left; subst s1) | skip))

theorem execClearBlock_sound {was : State} {src : Src} {s : State} (hs : Sound was s) :
    SoundOut was (execClearBlock src s) := by
  unfold execClearBlock
  iterate 60 (all_goals try first
      | with_reducible assumption | intro _ | with_reducible refine Sound2.of (by assumption) ?_
      | with_reducible refine Sound3.of (by assumption) ?_ | with_reducible refine Sound4.of (by assumption) ?_
      | with_reducible refine SoundO.of (by assumption) ?_ | with_reducible refine SoundO2.of (by assumption) ?_
      | with_reducible refine SoundO4.of (by assumption) ?_ | with_reducible refine SoundOut.of (by assumption) ?_
      | with_reducible apply State.command_sound | with_reducible apply State.put_sound
      | with_reducible apply State.poisonCommand_sound | with_reducible apply SoundOut.next
      | (extract_lets +onlyGivenNames s1; first | (refine Sound.cut (was := was) (u := s1) ?_ ?_; rotate_left; (intro hs1; clear_value s1); rotate_left; subst s1) | skip))

theorem State.setRepair_sound {was : State} {s : State} {hbm : Bool} {r : Option Repair} (hs : Sound was s) :
    Sound was (State.setRepair s hbm r) := by
  unfold State.setRepair
  split <;> exact Sound.dram_ hs hs.mem

theorem State.copyRow_sound {was : State} {s : State} {hbm : Bool} (hs : Sound was s) : Sound was (State.copyRow s hbm) := by
  unfold State.copyRow
  iterate 20 (all_goals try first
      | with_reducible assumption | intro _ | with_reducible apply State.setRepair_sound
      | with_reducible apply State.putBlock_sound | with_reducible apply Sound.ite | with_reducible apply Sound.foldl | split)

theorem State.startRepair_sound {was : State} {s : State} {hbm hard : Bool} (hs : Sound was s) :
    Sound was (State.startRepair s hbm hard) := by
  unfold State.startRepair
  iterate 20 (all_goals try first
      | with_reducible assumption | intro _ | with_reducible apply State.copyRow_sound
      | with_reducible apply State.setRepair_sound
      | with_reducible apply State.raise_sound | with_reducible apply Sound.ite | with_reducible apply Sound.foldl
      | split | with_reducible refine Sound.mk_ ?_ rfl rfl)

theorem State.repairCommand_sound {was : State} {s : State} {hbm : Bool} {op : Nat} (hs : Sound was s) :
    Sound was (State.repairCommand s hbm op) := by
  unfold State.repairCommand
  iterate 20 (all_goals try first
      | with_reducible assumption | intro _ | with_reducible apply State.startRepair_sound
      | with_reducible apply State.put_sound | with_reducible apply Sound.ite)

theorem execSoftRepair_sound {was : State} {src : Src} {hbm : Bool} {s : State} (hs : Sound was s) :
    SoundOut was (execSoftRepair src hbm s) := by
  unfold execSoftRepair
  iterate 60 (all_goals try first
      | with_reducible assumption | intro _ | with_reducible refine Sound2.of (by assumption) ?_
      | with_reducible refine Sound3.of (by assumption) ?_ | with_reducible refine Sound4.of (by assumption) ?_
      | with_reducible refine SoundO.of (by assumption) ?_ | with_reducible refine SoundO2.of (by assumption) ?_
      | with_reducible refine SoundO4.of (by assumption) ?_ | with_reducible refine SoundOut.of (by assumption) ?_
      | with_reducible apply State.command_sound | with_reducible apply State.put_sound
      | with_reducible apply State.repairCommand_sound | with_reducible apply SoundOut.next
      | (extract_lets +onlyGivenNames s1; first | (refine Sound.cut (was := was) (u := s1) ?_ ?_; rotate_left; (intro hs1; clear_value s1); rotate_left; subst s1) | skip))

theorem execHardRepair_sound {was : State} {src : Src} {hbm : Bool} {s : State} (hs : Sound was s) :
    SoundOut was (execHardRepair src hbm s) := by
  unfold execHardRepair
  iterate 60 (all_goals try first
      | with_reducible assumption | intro _ | with_reducible refine Sound2.of (by assumption) ?_
      | with_reducible refine Sound3.of (by assumption) ?_ | with_reducible refine Sound4.of (by assumption) ?_
      | with_reducible refine SoundO.of (by assumption) ?_ | with_reducible refine SoundO2.of (by assumption) ?_
      | with_reducible refine SoundO4.of (by assumption) ?_ | with_reducible refine SoundOut.of (by assumption) ?_
      | with_reducible apply State.command_sound | with_reducible apply State.put_sound
      | with_reducible apply State.repairCommand_sound | with_reducible apply SoundOut.next
      | (extract_lets +onlyGivenNames s1; first | (refine Sound.cut (was := was) (u := s1) ?_ ?_; rotate_left; (intro hs1; clear_value s1); rotate_left; subst s1) | skip))

theorem State.undoRepair_sound {was : State} {s : State} {b : RepairBlock} (hs : Sound was s) :
    Sound was (State.undoRepair s b) := by
  unfold State.undoRepair
  iterate 20 (all_goals try first
      | with_reducible assumption | intro _ | with_reducible apply State.putBlock_sound
      | with_reducible apply Sound.ite)

theorem execRepairComplete_sound {was : State} {hbm : Bool} {res : Fin 8} {s : State} (hs : Sound was s) :
    SoundOut was (execRepairComplete hbm res s) := by
  unfold execRepairComplete
  iterate 20 (all_goals try first
      | with_reducible assumption | intro _ | with_reducible apply State.undoRepair_sound
      | with_reducible apply State.setRepair_sound
      | with_reducible apply State.put_sound | with_reducible apply State.logEv_sound
      | with_reducible apply SoundOut.next | with_reducible apply Sound.ite | with_reducible apply SoundOut.ite
      | with_reducible apply Sound.foldl | split | with_reducible refine Sound.mk_ ?_ rfl rfl)

theorem State.cecntRead_sound {was : State} {s : State} {src : Src} {n : RegName} {i : Nat} (hs : Sound was s) :
    Sound2 was (State.cecntRead s src n i) := by
  unfold State.cecntRead
  iterate 20 (all_goals try first
      | with_reducible assumption | intro _ | with_reducible apply State.setReg_sound | with_reducible apply Sound.ite
      | with_reducible apply Sound2.ite | with_reducible apply Sound.foldl | split | with_reducible apply Sound2.pair)

theorem execCecntRead_sound {was : State} {src : Src} {hbm : Bool} {unit : Fin 4} {s : State} (hs : Sound was s) :
    SoundOut was (execCecntRead src hbm unit s) := by
  unfold execCecntRead
  iterate 50 (all_goals try first
      | with_reducible assumption | intro _ | with_reducible refine Sound2.of (by assumption) ?_
      | with_reducible apply State.cecntRead_sound | with_reducible apply State.answerWord_sound
      | with_reducible apply SoundOut.next | with_reducible apply Sound.ite | with_reducible apply SoundOut.ite
      | with_reducible apply Sound2.ite | with_reducible apply Sound.foldl
      | (extract_lets +onlyGivenNames s1; first | (refine Sound.cut (was := was) (u := s1) ?_ ?_; rotate_left; (intro hs1; clear_value s1); rotate_left; subst s1) | skip)
      | with_reducible refine Sound2.snd ?_)

end Sys2Proof.Machine
end

