-- ==== Sys2Proof/Laws/SoundEncryption.lean ====
section
/-!
SUPPORT. Sys2Proof/Laws/SoundEncryption.lean: the operations of Machine/Encryption.lean keep what Sound says.
-/

namespace Sys2Proof.Machine

theorem State.setEng_sound {was : State} {s : State} {e : Nat} {x : EncEngine} (hs : Sound was s) :
    Sound was (State.setEng s e x) := by
  unfold State.setEng
  iterate 8 (all_goals try first
      | with_reducible assumption | with_reducible refine Sound.mk_ ?_ rfl rfl)

theorem State.setBound_sound {was : State} {s : State} {r b : Nat} (hs : Sound was s) :
    Sound was (State.setBound s r b) := by
  unfold State.setBound
  iterate 8 (all_goals try first
      | with_reducible assumption | with_reducible apply State.setReg_sound)

theorem State.syncLost_sound {was : State} {s : State} {r : Nat} (hs : Sound was s) :
    Sound was (State.syncLost s r) := by
  unfold State.syncLost
  iterate 8 (all_goals try first
      | with_reducible assumption | with_reducible apply State.put_sound)

theorem State.tamper_sound {was : State} {s : State} {e r a requester finding : Nat} (hs : Sound was s) :
    Sound was (State.tamper s e r a requester finding) := by
  unfold State.tamper
  iterate 8 (all_goals try first
      | with_reducible assumption | with_reducible apply State.raise_sound | with_reducible apply State.put_sound
      | with_reducible apply State.logEv_sound | with_reducible apply State.interrupt_sound)

theorem State.nodeLost_sound {was : State} {s : State} {e a requester : Nat} {n : Node} (hs : Sound was s) :
    Sound was (State.nodeLost s e a requester n) := by
  unfold State.nodeLost
  iterate 20 (all_goals try first
      | with_reducible assumption | intro _ | with_reducible apply State.raise_sound
      | with_reducible apply State.put_sound | with_reducible apply State.logEv_sound
      | with_reducible apply State.interrupt_sound | with_reducible apply State.setEng_sound
      | with_reducible apply State.syncLost_sound | with_reducible apply Sound.ite)

theorem State.fetchCopy_sound {was : State} {s : State} {n : Node} {copyB : Bool} {requester : Nat} (hs : Sound was s) :
    Sound2 was (State.fetchCopy s n copyB requester) := by
  unfold State.fetchCopy
  iterate 50 (all_goals try first
      | with_reducible assumption | intro _ | with_reducible refine SoundO4.of (by assumption) ?_
      | with_reducible apply State.ctlRead_sound | with_reducible apply Sound.ite | with_reducible apply Sound2.ite
      | with_reducible apply Sound.foldl
      | (extract_lets +onlyGivenNames s1; first | (refine Sound.cut (was := was) (u := s1) ?_ ?_; rotate_left; (intro hs1; clear_value s1); rotate_left; subst s1) | skip)
      | split | with_reducible apply Sound2.pair)

theorem State.rewriteCopy_sound {was : State} {s : State} {n : Node} {copyB : Bool} (hs : Sound was s) :
    Sound was (State.rewriteCopy s n copyB) := by
  unfold State.rewriteCopy
  refine State.setEncRgn_sound ?_
  exact ⟨hs.regs, by dsimp only; exact putBytes_wf hs.mem, hs.units, hs.held, hs.queue, hs.out, hs.free⟩

theorem State.fetchNode_sound {was : State} {s : State} {e : Nat} {n : Node} {a requester : Nat} (hs : Sound was s) :
    Sound2 was (State.fetchNode s e n a requester) := by
  unfold State.fetchNode
  iterate 50 (all_goals try first
      | with_reducible assumption | intro _ | with_reducible refine Sound2.of (by assumption) ?_
      | with_reducible refine SoundO.of (by assumption) ?_ | with_reducible apply State.fetchCopy_sound
      | with_reducible apply State.rewriteCopy_sound | with_reducible apply State.bucket_sound
      | with_reducible apply State.tamper_sound | with_reducible apply Sound.ite | with_reducible apply Sound2.ite
      | with_reducible apply Sound.foldl
      | (extract_lets +onlyGivenNames s1; first | (refine Sound.cut (was := was) (u := s1) ?_ ?_; rotate_left; (intro hs1; clear_value s1); rotate_left; subst s1) | skip)
      | with_reducible refine Sound4.last ?_ | with_reducible refine Sound3.last ?_
      | with_reducible refine Sound2.snd ?_ | split | with_reducible apply Sound2.pair)

theorem State.cacheNode_sound {was : State} {s : State} {e : Nat} {n : Node} (hs : Sound was s) :
    Sound was (State.cacheNode s e n) := by
  unfold State.cacheNode
  iterate 8 (all_goals try first
      | with_reducible assumption | with_reducible apply State.setEng_sound)

theorem verifyNodes_sound {was : State} {e a requester : Nat} {x0 : List Node} {s : State} (hs : Sound was s) :
    Sound2 was (verifyNodes e a requester x0 s) := by
  induction x0 generalizing s with
  | nil => exact ⟨hs⟩
  | cons n t ih =>
    unfold verifyNodes
    have h := (State.fetchNode_sound (e := e) (n := n) (a := a) (requester := requester) hs).snd
    generalize s.fetchNode e n a requester = p at *
    obtain ⟨f, s1⟩ := p
    cases f
    · exact ih (State.cacheNode_sound h)
    · exact ⟨State.nodeLost_sound h⟩
    · exact ⟨State.tamper_sound h⟩

theorem State.verifyPath_sound {was : State} {s : State} {e r i a requester : Nat} (hs : Sound was s) :
    Sound2 was (State.verifyPath s e r i a requester) := by
  unfold State.verifyPath
  iterate 8 (all_goals try first
      | with_reducible assumption | with_reducible apply verifyNodes_sound)

theorem State.setCtr_sound {was : State} {s : State} {e r i c : Nat} (hs : Sound was s) :
    Sound was (State.setCtr s e r i c) := by
  unfold State.setCtr
  iterate 20 (all_goals try first
      | with_reducible assumption | intro _ | with_reducible apply State.setEncRgn_sound
      | with_reducible apply State.rewriteCopy_sound | with_reducible apply State.cacheNode_sound
      | with_reducible apply Sound.ite | with_reducible apply Sound.foldl)

theorem readCipher_sound {was : State} {a requester : Nat} {x0 : List Nat} {s : State} (hs : Sound was s) :
    Sound2 was (readCipher a requester x0 s) := by
  induction x0 generalizing s with
  | nil => exact ⟨hs⟩
  | cons k t ih =>
    have h := State.ctlRead_sound (a := a + 64 * k) (len := 64) (requester := requester) (hint := 0) hs
    unfold readCipher
    split
    · rename_i e
      exact ⟨(ih (h.all _ _ _ _ e)).snd⟩
    · rename_i e _
      exact ⟨(ih (h.all _ _ _ _ (by assumption))).snd⟩
    · exact ⟨hs⟩

theorem State.fetchSector_sound {was : State} {s : State} {e r i a requester : Nat} (hs : Sound was s) :
    Sound2 was (State.fetchSector s e r i a requester) := by
  unfold State.fetchSector
  iterate 50 (all_goals try first
      | with_reducible assumption | intro _ | with_reducible refine Sound2.of (by assumption) ?_
      | with_reducible refine SoundO4.of (by assumption) ?_ | with_reducible apply State.verifyPath_sound
      | with_reducible apply State.nodeLost_sound | with_reducible apply readCipher_sound
      | with_reducible apply State.ctlRead_sound | with_reducible apply State.tamper_sound
      | with_reducible apply Sound.ite | with_reducible apply Sound2.ite | with_reducible apply Sound.foldl
      | (extract_lets +onlyGivenNames s1; first | (refine Sound.cut (was := was) (u := s1) ?_ ?_; rotate_left; (intro hs1; clear_value s1); rotate_left; subst s1) | skip)
      | with_reducible refine Sound2.snd ?_ | split | with_reducible apply Sound2.pair)

theorem State.writeTag_sound {was : State} {s : State} {r i : Nat} {t : BitVec 64} (hs : Sound was s) :
    Sound was (State.writeTag s r i t) := by
  unfold State.writeTag
  exact State.orElse_sound hs (State.ctlWrite_sound hs)

theorem State.writeCipher_sound {was : State} {s : State} {r i : Nat} {c : BitVec 4096} (hs : Sound was s) :
    Sound was (State.writeCipher s r i c) := by
  unfold State.writeCipher
  exact Sound.foldl (fun _ _ h => State.orElse_sound h (State.ctlWrite_sound h)) hs

theorem State.writeBack_sound {was : State} {s : State} {e : Nat} {l : CLine} (hs : Sound was s) :
    Sound was (State.writeBack s e l) := by
  unfold State.writeBack
  iterate 20 (all_goals try first
      | with_reducible assumption | intro _ | with_reducible apply State.writeCipher_sound
      | with_reducible apply State.writeTag_sound | with_reducible apply State.setCtr_sound
      | with_reducible apply Sound.ite)

theorem State.dropLine_sound {was : State} {s : State} {e r i : Nat} (hs : Sound was s) :
    Sound was (State.dropLine s e r i) := by
  unfold State.dropLine
  iterate 8 (all_goals try first
      | with_reducible assumption | with_reducible apply State.setEng_sound)

theorem State.poisonSector_sound {was : State} {s : State} {e r i : Nat} (hs : Sound was s) :
    Sound was (State.poisonSector s e r i) := by
  unfold State.poisonSector
  iterate 8 (all_goals try first
      | with_reducible assumption | with_reducible apply State.dropLine_sound
      | with_reducible apply State.writeTag_sound | with_reducible apply State.setCtr_sound)

theorem State.evict_sound {was : State} {s : State} {e : Nat} (hs : Sound was s) :
    Sound was (State.evict s e) := by
  unfold State.evict
  iterate 20 (all_goals try first
      | with_reducible assumption | intro _ | with_reducible apply State.dropLine_sound
      | with_reducible apply State.writeBack_sound | with_reducible apply Sound.ite | with_reducible apply Sound.foldl
      | split)

theorem State.putLine_sound {was : State} {s : State} {e : Nat} {l : CLine} (hs : Sound was s) :
    Sound was (State.putLine s e l) := by
  unfold State.putLine
  iterate 20 (all_goals try first
      | with_reducible assumption | intro _ | with_reducible apply State.dropLine_sound
      | with_reducible apply State.evict_sound | with_reducible apply State.setEng_sound
      | with_reducible apply Sound.ite)

theorem State.dropHeal_sound {was : State} {s : State} {e r i : Nat} (hs : Sound was s) :
    Sound was (State.dropHeal s e r i) := by
  unfold State.dropHeal
  iterate 8 (all_goals try first
      | with_reducible assumption | with_reducible apply State.setEng_sound)

theorem State.encRead_sound {was : State} {s : State} {r a len requester : Nat} (hs : Sound was s) :
    Sound3 was (State.encRead s r a len requester) := by
  unfold State.encRead
  iterate 50 (all_goals try first
      | with_reducible assumption | intro _ | with_reducible refine Sound2.of (by assumption) ?_
      | with_reducible apply State.putLine_sound | with_reducible apply State.fetchSector_sound
      | with_reducible apply Sound.ite | with_reducible apply Sound2.ite | with_reducible apply Sound3.ite
      | with_reducible apply Sound.foldl
      | (extract_lets +onlyGivenNames s1; first | (refine Sound.cut (was := was) (u := s1) ?_ ?_; rotate_left; (intro hs1; clear_value s1); rotate_left; subst s1) | skip)
      | with_reducible refine Sound2.snd ?_ | split | with_reducible apply Sound3.pair)

theorem State.healWrite_sound {was : State} {s : State} {e r i o : Nat} {q : Req} (hs : Sound was s) :
    Sound was (State.healWrite s e r i o q) := by
  unfold State.healWrite
  iterate 20 (all_goals try first
      | with_reducible assumption | intro _ | with_reducible apply State.dropHeal_sound
      | with_reducible apply State.respond_sound | with_reducible apply State.putLine_sound
      | with_reducible apply State.setEng_sound | with_reducible apply Sound.ite | with_reducible apply Sound.foldl)

theorem State.healTimeout_sound {was : State} {s : State} {q : Req} (hs : Sound was s) :
    SoundO was (State.healTimeout s q) := by
  refine ⟨fun t h => ?_⟩
  unfold State.healTimeout at h
  obtain ⟨e, -, he⟩ := List.exists_of_findSome?_eq_some h
  split at he
  · cases he
    exact Sound.foldl (fun _ _ h => State.respond_sound h) (State.dropHeal_sound hs)
  · cases he

theorem State.failWrite_sound {was : State} {s : State} {e r i : Nat} {q : Req} {c : Resp} (hs : Sound was s) :
    Sound was (State.failWrite s e r i q c) := State.respond_sound (State.poisonSector_sound hs)

theorem State.encWrite_sound {was : State} {s : State} {r : Nat} {q : Req} (hs : Sound was s) :
    Sound was (State.encWrite s r q) := by
  unfold State.encWrite
  split
  · exact State.respond_sound hs
  · extract_lets a e i o
    have hf := (State.fetchSector_sound (e := e) (r := r) (i := i) (a := a) (requester := q.src.requester) hs).snd
    clear_value a e i o
    refine Sound.ite (State.respond_sound hs) (Sound.ite (Sound.ite (State.healWrite_sound hs) (State.respond_sound hs)) ?_)
    split
    · exact Sound.ite (State.respond_sound (State.putLine_sound hs)) (State.failWrite_sound hs)
    generalize s.fetchSector e r i a q.src.requester = p at hf
    obtain ⟨f, s1⟩ := p
    cases f
    case data d => exact Sound.ite (State.respond_sound (State.putLine_sound hf)) (State.failWrite_sound hf)
    case poison => exact Sound.ite (State.healWrite_sound hf) (State.respond_sound hf)
    case derr => exact State.failWrite_sound hf
    case tamper => exact State.failWrite_sound hf
    all_goals exact State.respond_sound hf

theorem execSectorEviction_sound {was : State} {e : Fin 6} {s : State} (hs : Sound was s) :
    SoundOut was (execSectorEviction e s) := by
  unfold execSectorEviction
  iterate 20 (all_goals try first
      | with_reducible assumption | intro _ | with_reducible apply State.evict_sound
      | with_reducible apply SoundOut.next | with_reducible apply Sound.ite | with_reducible apply SoundOut.ite)

theorem State.initRegion_sound {was : State} {s : State} {r : Nat} (hs : Sound was s) :
    Sound was (State.initRegion s r) := by
  unfold State.initRegion
  have h := (State.draw_sound hs).snd
  generalize s.draw = p at *
  obtain ⟨n, s1⟩ := p
  refine State.put_sound (State.setEncRgn_sound ?_)
  exact ⟨h.regs, by dsimp only; exact SMap.wf_clear h.mem _, h.units, h.held, h.queue, h.out, h.free⟩

theorem State.dropRegion_sound {was : State} {s : State} {r : Nat} (hs : Sound was s) :
    Sound was (State.dropRegion s r) := by
  unfold State.dropRegion
  iterate 20 (all_goals try first
      | with_reducible assumption | intro _ | with_reducible apply State.respond_sound
      | with_reducible apply State.setEng_sound | with_reducible apply State.syncLost_sound
      | with_reducible apply Sound.ite | with_reducible apply Sound.foldl)

theorem State.materialise_sound {was : State} {s : State} {r : Nat} (hs : Sound was s) :
    Sound was (State.materialise s r) := by
  unfold State.materialise
  iterate 20 (all_goals try first
      | with_reducible assumption | intro _ | with_reducible apply State.putBlock_sound
      | with_reducible apply Sound.ite | with_reducible apply Sound.foldl | split)

theorem State.disableRegion_sound {was : State} {s : State} {r : Nat} (hs : Sound was s) :
    Sound was (State.disableRegion s r) := by
  unfold State.disableRegion
  iterate 20 (all_goals try first
      | with_reducible assumption | intro _ | with_reducible apply State.materialise_sound
      | with_reducible apply State.dropRegion_sound | with_reducible apply State.setEncRgn_sound
      | with_reducible apply State.put_sound | with_reducible apply Sound.ite)

theorem State.rgnConfig_sound {was : State} {s : State} {r : Nat} {w : Word32} (hs : Sound was s) :
    Sound was (State.rgnConfig s r w) := by
  unfold State.rgnConfig
  iterate 20 (all_goals try first
      | with_reducible assumption | intro _ | with_reducible apply State.put_sound
      | with_reducible apply State.raise_sound | with_reducible apply State.disableRegion_sound
      | with_reducible apply State.initRegion_sound | with_reducible apply Sound.ite)

theorem State.rgnRange_sound {was : State} {s : State} {n : RegName} {r : Nat} {w : Word32} (hs : Sound was s) :
    Sound was (State.rgnRange s n r w) := by
  unfold State.rgnRange
  iterate 20 (all_goals try first
      | with_reducible assumption | intro _ | with_reducible apply State.raise_sound
      | with_reducible apply State.writeReg_sound | with_reducible apply Sound.ite)

theorem execRegionEnable_sound {was : State} {src : Src} {r : Fin 64} {w : Word32} {s : State} (hs : Sound was s) :
    SoundOut was (execRegionEnable src r w s) := by
  unfold execRegionEnable
  iterate 60 (all_goals try first
      | with_reducible assumption | intro _ | with_reducible refine Sound2.of (by assumption) ?_
      | with_reducible refine Sound3.of (by assumption) ?_ | with_reducible refine Sound4.of (by assumption) ?_
      | with_reducible refine SoundO.of (by assumption) ?_ | with_reducible refine SoundO2.of (by assumption) ?_
      | with_reducible refine SoundO4.of (by assumption) ?_ | with_reducible refine SoundOut.of (by assumption) ?_
      | with_reducible apply State.command_sound | with_reducible apply State.rgnConfig_sound
      | with_reducible apply SoundOut.next
      | (extract_lets +onlyGivenNames s1; first | (refine Sound.cut (was := was) (u := s1) ?_ ?_; rotate_left; (intro hs1; clear_value s1); rotate_left; subst s1) | skip))

theorem execRegionDisable_sound {was : State} {src : Src} {r : Fin 64} {w : Word32} {s : State} (hs : Sound was s) :
    SoundOut was (execRegionDisable src r w s) := by
  unfold execRegionDisable
  iterate 60 (all_goals try first
      | with_reducible assumption | intro _ | with_reducible refine Sound2.of (by assumption) ?_
      | with_reducible refine Sound3.of (by assumption) ?_ | with_reducible refine Sound4.of (by assumption) ?_
      | with_reducible refine SoundO.of (by assumption) ?_ | with_reducible refine SoundO2.of (by assumption) ?_
      | with_reducible refine SoundO4.of (by assumption) ?_ | with_reducible refine SoundOut.of (by assumption) ?_
      | with_reducible apply State.command_sound | with_reducible apply State.rgnConfig_sound
      | with_reducible apply SoundOut.next
      | (extract_lets +onlyGivenNames s1; first | (refine Sound.cut (was := was) (u := s1) ?_ ?_; rotate_left; (intro hs1; clear_value s1); rotate_left; subst s1) | skip))

theorem execRegionInitDone_sound {was : State} {r : Fin 64} {s : State} (hs : Sound was s) :
    SoundOut was (execRegionInitDone r s) := by
  unfold execRegionInitDone
  iterate 20 (all_goals try first
      | with_reducible assumption | intro _ | with_reducible apply State.put_sound
      | with_reducible apply SoundOut.next | with_reducible apply Sound.ite | with_reducible apply SoundOut.ite)

theorem State.zeroKeybuf_sound {was : State} {s : State} (hs : Sound was s) :
    Sound was (State.zeroKeybuf s) := by
  unfold State.zeroKeybuf
  iterate 20 (all_goals try first
      | with_reducible assumption | intro _ | with_reducible apply State.setReg_sound | with_reducible apply Sound.ite
      | with_reducible apply Sound.foldl)

theorem State.keyCommand_sound {was : State} {s : State} {op r : Nat} (hs : Sound was s) :
    Sound was (State.keyCommand s op r) := by
  unfold State.keyCommand
  iterate 20 (all_goals try first
      | with_reducible assumption | intro _ | with_reducible apply State.zeroKeybuf_sound
      | with_reducible apply State.put_sound | with_reducible apply State.setEncRgn_sound
      | with_reducible apply State.raise_sound | with_reducible apply Sound.ite)

theorem execLoadNewKey_sound {was : State} {src : Src} {r : Fin 64} {s : State} (hs : Sound was s) :
    SoundOut was (execLoadNewKey src r s) := by
  unfold execLoadNewKey
  iterate 60 (all_goals try first
      | with_reducible assumption | intro _ | with_reducible refine Sound2.of (by assumption) ?_
      | with_reducible refine Sound3.of (by assumption) ?_ | with_reducible refine Sound4.of (by assumption) ?_
      | with_reducible refine SoundO.of (by assumption) ?_ | with_reducible refine SoundO2.of (by assumption) ?_
      | with_reducible refine SoundO4.of (by assumption) ?_ | with_reducible refine SoundOut.of (by assumption) ?_
      | with_reducible apply State.command_sound | with_reducible apply State.put_sound
      | with_reducible apply State.keyCommand_sound | with_reducible apply SoundOut.next
      | (extract_lets +onlyGivenNames s1; first | (refine Sound.cut (was := was) (u := s1) ?_ ?_; rotate_left; (intro hs1; clear_value s1); rotate_left; subst s1) | skip))

theorem execLoadCurrentKey_sound {was : State} {src : Src} {r : Fin 64} {s : State} (hs : Sound was s) :
    SoundOut was (execLoadCurrentKey src r s) := by
  unfold execLoadCurrentKey
  iterate 60 (all_goals try first
      | with_reducible assumption | intro _ | with_reducible refine Sound2.of (by assumption) ?_
      | with_reducible refine Sound3.of (by assumption) ?_ | with_reducible refine Sound4.of (by assumption) ?_
      | with_reducible refine SoundO.of (by assumption) ?_ | with_reducible refine SoundO2.of (by assumption) ?_
      | with_reducible refine SoundO4.of (by assumption) ?_ | with_reducible refine SoundOut.of (by assumption) ?_
      | with_reducible apply State.command_sound | with_reducible apply State.put_sound
      | with_reducible apply State.keyCommand_sound | with_reducible apply SoundOut.next
      | (extract_lets +onlyGivenNames s1; first | (refine Sound.cut (was := was) (u := s1) ?_ ?_; rotate_left; (intro hs1; clear_value s1); rotate_left; subst s1) | skip))

theorem execZeroKeyBuffer_sound {was : State} {src : Src} {s : State} (hs : Sound was s) :
    SoundOut was (execZeroKeyBuffer src s) := by
  unfold execZeroKeyBuffer
  iterate 60 (all_goals try first
      | with_reducible assumption | intro _ | with_reducible refine Sound2.of (by assumption) ?_
      | with_reducible refine Sound3.of (by assumption) ?_ | with_reducible refine Sound4.of (by assumption) ?_
      | with_reducible refine SoundO.of (by assumption) ?_ | with_reducible refine SoundO2.of (by assumption) ?_
      | with_reducible refine SoundO4.of (by assumption) ?_ | with_reducible refine SoundOut.of (by assumption) ?_
      | with_reducible apply State.command_sound | with_reducible apply State.keyCommand_sound
      | with_reducible apply SoundOut.next
      | (extract_lets +onlyGivenNames s1; first | (refine Sound.cut (was := was) (u := s1) ?_ ?_; rotate_left; (intro hs1; clear_value s1); rotate_left; subst s1) | skip))

theorem State.rebuild_sound {was : State} {s : State} {e : Nat} {n : Node} (hs : Sound was s) :
    Sound was (State.rebuild s e n) := by
  unfold State.rebuild
  iterate 20 (all_goals try first
      | with_reducible assumption | intro _ | with_reducible apply State.dropLine_sound
      | with_reducible apply State.writeTag_sound | with_reducible apply State.setCtr_sound
      | with_reducible apply State.setEng_sound | with_reducible apply State.syncLost_sound
      | with_reducible apply Sound.ite | with_reducible apply Sound.foldl)

theorem State.sectorAt_sound {was : State} {s : State} {op a : Nat} (hs : Sound was s) :
    Sound was (State.sectorAt s op a) := by
  unfold State.sectorAt
  iterate 50 (all_goals try first
      | with_reducible assumption | intro _ | with_reducible refine Sound2.of (by assumption) ?_
      | with_reducible apply State.put_sound | with_reducible apply State.rebuild_sound
      | with_reducible apply State.verifyPath_sound | with_reducible apply State.respond_sound
      | with_reducible apply State.dropHeal_sound | with_reducible apply State.dropLine_sound
      | with_reducible apply State.writeBack_sound | with_reducible apply State.poisonSector_sound
      | with_reducible apply Sound.ite | with_reducible apply Sound2.ite | with_reducible apply Sound.foldl
      | (extract_lets +onlyGivenNames s1; first | (refine Sound.cut (was := was) (u := s1) ?_ ?_; rotate_left; (intro hs1; clear_value s1); rotate_left; subst s1) | skip)
      | with_reducible refine Sound2.snd ?_ | split | exact State.raise_sound (Sound.dram_ hs hs.mem))

theorem State.sectorCommand_sound {was : State} {s : State} {op : Nat} (hs : Sound was s) :
    Sound was (State.sectorCommand s op) := by
  unfold State.sectorCommand
  exact Sound.ite hs (State.sectorAt_sound hs)

theorem State.sectorResume_sound {was : State} {s : State} (hs : Sound was s) : Sound was (State.sectorResume s) := by
  unfold State.sectorResume
  split
  · exact State.sectorAt_sound (State.put_sound (Sound.dram_ hs hs.mem))
  · exact hs

theorem execClearSector_sound {was : State} {src : Src} {s : State} (hs : Sound was s) :
    SoundOut was (execClearSector src s) := by
  unfold execClearSector
  iterate 60 (all_goals try first
      | with_reducible assumption | intro _ | with_reducible refine Sound2.of (by assumption) ?_
      | with_reducible refine Sound3.of (by assumption) ?_ | with_reducible refine Sound4.of (by assumption) ?_
      | with_reducible refine SoundO.of (by assumption) ?_ | with_reducible refine SoundO2.of (by assumption) ?_
      | with_reducible refine SoundO4.of (by assumption) ?_ | with_reducible refine SoundOut.of (by assumption) ?_
      | with_reducible apply State.command_sound | with_reducible apply State.sectorCommand_sound
      | with_reducible apply SoundOut.next
      | (extract_lets +onlyGivenNames s1; first | (refine Sound.cut (was := was) (u := s1) ?_ ?_; rotate_left; (intro hs1; clear_value s1); rotate_left; subst s1) | skip))

theorem execPoisonSector_sound {was : State} {src : Src} {s : State} (hs : Sound was s) :
    SoundOut was (execPoisonSector src s) := by
  unfold execPoisonSector
  iterate 60 (all_goals try first
      | with_reducible assumption | intro _ | with_reducible refine Sound2.of (by assumption) ?_
      | with_reducible refine Sound3.of (by assumption) ?_ | with_reducible refine Sound4.of (by assumption) ?_
      | with_reducible refine SoundO.of (by assumption) ?_ | with_reducible refine SoundO2.of (by assumption) ?_
      | with_reducible refine SoundO4.of (by assumption) ?_ | with_reducible refine SoundOut.of (by assumption) ?_
      | with_reducible apply State.command_sound | with_reducible apply State.sectorCommand_sound
      | with_reducible apply SoundOut.next
      | (extract_lets +onlyGivenNames s1; first | (refine Sound.cut (was := was) (u := s1) ?_ ?_; rotate_left; (intro hs1; clear_value s1); rotate_left; subst s1) | skip))

theorem execRebuildLostNode_sound {was : State} {src : Src} {s : State} (hs : Sound was s) :
    SoundOut was (execRebuildLostNode src s) := by
  unfold execRebuildLostNode
  iterate 60 (all_goals try first
      | with_reducible assumption | intro _ | with_reducible refine Sound2.of (by assumption) ?_
      | with_reducible refine Sound3.of (by assumption) ?_ | with_reducible refine Sound4.of (by assumption) ?_
      | with_reducible refine SoundO.of (by assumption) ?_ | with_reducible refine SoundO2.of (by assumption) ?_
      | with_reducible refine SoundO4.of (by assumption) ?_ | with_reducible refine SoundOut.of (by assumption) ?_
      | with_reducible apply State.command_sound | with_reducible apply State.sectorCommand_sound
      | with_reducible apply SoundOut.next
      | (extract_lets +onlyGivenNames s1; first | (refine Sound.cut (was := was) (u := s1) ?_ ?_; rotate_left; (intro hs1; clear_value s1); rotate_left; subst s1) | skip))

theorem State.rekey_sound {was : State} {s : State} {r : Nat} (hs : Sound was s) :
    Sound was (State.rekey s r) := by
  unfold State.rekey
  iterate 20 (all_goals try first
      | with_reducible assumption | intro _ | with_reducible apply State.put_sound
      | with_reducible apply State.setBound_sound | with_reducible apply State.raise_sound
      | with_reducible apply Sound.ite)

theorem State.encCtrl_sound {was : State} {s : State} {r : Nat} {w : Word32} (hs : Sound was s) :
    Sound was (State.encCtrl s r w) := by
  unfold State.encCtrl
  iterate 20 (all_goals try first
      | with_reducible assumption | intro _ | with_reducible apply State.writeReg_sound
      | with_reducible apply State.rekey_sound | with_reducible apply Sound.ite)

theorem execRekey_sound {was : State} {src : Src} {r : Fin 64} {w : Word32} {s : State} (hs : Sound was s) :
    SoundOut was (execRekey src r w s) := by
  unfold execRekey
  iterate 60 (all_goals try first
      | with_reducible assumption | intro _ | with_reducible refine Sound2.of (by assumption) ?_
      | with_reducible refine Sound3.of (by assumption) ?_ | with_reducible refine Sound4.of (by assumption) ?_
      | with_reducible refine SoundO.of (by assumption) ?_ | with_reducible refine SoundO2.of (by assumption) ?_
      | with_reducible refine SoundO4.of (by assumption) ?_ | with_reducible refine SoundOut.of (by assumption) ?_
      | with_reducible apply State.command_sound | with_reducible apply State.encCtrl_sound
      | with_reducible apply SoundOut.next
      | (extract_lets +onlyGivenNames s1; first | (refine Sound.cut (was := was) (u := s1) ?_ ?_; rotate_left; (intro hs1; clear_value s1); rotate_left; subst s1) | skip))

theorem execRekeyWalkStep_sound {was : State} {r : Fin 64} {s : State} (hs : Sound was s) :
    SoundOut was (execRekeyWalkStep r s) := by
  unfold execRekeyWalkStep
  extract_lets b a e
  have hf := (State.fetchSector_sound (e := e) (r := r) (i := b) (a := a) (requester := 0) hs).snd
  have hb := State.setBound_sound (r := r) (b := b + 1) hs
  clear_value b a e
  split
  · exact SoundOut.next hs
  split
  · exact SoundOut.next hb
  split
  · exact SoundOut.next (State.setBound_sound (State.setEng_sound hs))
  split
  · exact SoundOut.next hs
  generalize s.fetchSector e r b a 0 = p at hf
  obtain ⟨f, s1⟩ := p
  have h := State.setBound_sound (r := r) (b := b + 1) hf
  cases f
  case data d => exact SoundOut.next (State.putLine_sound h)
  case nodeLost => exact SoundOut.next h
  case nodeTamper => exact SoundOut.next h
  all_goals exact SoundOut.next (State.poisonSector_sound h)

theorem execRotationComplete_sound {was : State} {r : Fin 64} {s : State} (hs : Sound was s) :
    SoundOut was (execRotationComplete r s) := by
  unfold execRotationComplete
  iterate 20 (all_goals try first
      | with_reducible assumption | intro _ | with_reducible apply State.setEncRgn_sound
      | with_reducible apply State.setBound_sound | with_reducible apply State.put_sound
      | with_reducible apply State.raise_sound | with_reducible apply State.logEv_sound
      | with_reducible apply State.interrupt_sound | with_reducible apply State.rekey_sound
      | with_reducible apply SoundOut.next | with_reducible apply Sound.ite | with_reducible apply SoundOut.ite)

end Sys2Proof.Machine
end

