-- ==== Sys2Proof/Laws/SoundMesh.lean ====
section
/-!
SUPPORT. Sys2Proof/Laws/SoundMesh.lean: the operations of Machine/Mesh.lean keep what Sound says.
-/

namespace Sys2Proof.Machine

theorem State.setTrace_sound {was : State} {s : State} {r : Nat} {t : List (List Byte)} (hs : Sound was s) :
    Sound was (State.setTrace s r t) := by
  unfold State.setTrace
  iterate 8 (all_goals try first
      | with_reducible assumption | with_reducible apply State.put_sound | with_reducible refine Sound.mk_ ?_ rfl rfl)

theorem State.countBy_sound {was : State} {s : State} {f : Fld} {idx : List Nat} {n : Nat} (hs : Sound was s) :
    Sound was (State.countBy s f idx n) := by
  unfold State.countBy
  iterate 8 (all_goals try first
      | with_reducible assumption | with_reducible apply State.put_sound)

theorem State.probe_sound {was : State} {s : State} {r port h : Nat} {parBad : Bool} {waited : Nat} (hs : Sound was s) :
    Sound was (State.probe s r port h parBad waited) := by
  unfold State.probe
  iterate 20 (all_goals try first
      | with_reducible assumption | intro _ | with_reducible apply State.countBy_sound
      | with_reducible apply State.setTrace_sound | with_reducible apply Sound.ite | with_reducible apply Sound.foldl
      | split)

theorem State.discardFlit_sound {was : State} {s : State} {r port : Nat} (hs : Sound was s) :
    Sound was (State.discardFlit s r port) := State.logEv_sound hs

theorem State.badHeader_sound {was : State} {s : State} {r port h : Nat} (hs : Sound was s) :
    Sound was (State.badHeader s r port h) := State.discardFlit_sound (State.bucket_sound (State.probe_sound hs))

end Sys2Proof.Machine
end

