-- ==== Sys2Proof/Laws/SoundMemory.lean ====
section
/-!
SUPPORT. Sys2Proof/Laws/SoundMemory.lean: the operations of Machine/Memory.lean keep what Sound says.
-/

namespace Sys2Proof.Machine

theorem State.setTag_sound {was : State} {s : State} {m t : Nat} {x : TagSt} (hs : Sound was s) :
    Sound was (State.setTag s m t x) := by
  unfold State.setTag
  iterate 8 (all_goals try first
      | with_reducible assumption | with_reducible refine Sound.mk_ ?_ rfl rfl)

theorem State.freeTag_sound {was : State} {s : State} {m t : Nat} (hs : Sound was s) :
    Sound was (State.freeTag s m t) := by
  unfold State.freeTag
  iterate 8 (all_goals try first
      | with_reducible assumption | with_reducible refine Sound.mk_ ?_ rfl rfl)

theorem State.pinj_sound {was : State} {s : State} {r : Req} (hs : Sound was s) : Sound3 was (State.pinj s r) :=
  ⟨Sound.ite (State.put_sound hs) hs⟩

theorem State.headerLost_sound {was : State} {s : State} {r : Req} (hs : Sound was s) : Sound was (State.headerLost s r) :=
  State.countUp_sound (State.badHeader_sound hs)

theorem State.plainAccess_sound {was : State} {s : State} {r : Req} (hs : Sound was s) :
    Sound was (State.plainAccess s r) := by
  unfold State.plainAccess
  iterate 50 (all_goals try first
      | with_reducible assumption | intro _ | with_reducible refine SoundO2.of (by assumption) ?_
      | with_reducible refine SoundO4.of (by assumption) ?_ | with_reducible apply State.ctlWrite_sound
      | with_reducible apply State.respond_sound | with_reducible apply State.ctlRead_sound
      | with_reducible apply Sound.ite | with_reducible apply Sound.foldl
      | (extract_lets +onlyGivenNames s1; first | (refine Sound.cut (was := was) (u := s1) ?_ ?_; rotate_left; (intro hs1; clear_value s1); rotate_left; subst s1) | skip)
      | split)

theorem State.hold_sound {was : State} {s : State} {r : Req} (hs : Sound was s) : Sound was (State.hold s r) :=
  Sound.dram_ hs hs.mem

theorem State.memAccess_sound {was : State} {s : State} {r : Req} {turn : Bool} (hs : Sound was s) :
    Sound was (State.memAccess s r turn) := by
  unfold State.memAccess
  iterate 50 (all_goals try first
      | with_reducible assumption | intro _ | with_reducible refine Sound3.of (by assumption) ?_
      | with_reducible refine SoundO4.of (by assumption) ?_ | with_reducible apply State.respond_sound
      | with_reducible apply State.ctlRead_sound | with_reducible apply State.encWrite_sound
      | with_reducible apply State.encRead_sound | with_reducible apply State.plainAccess_sound
      | with_reducible apply State.hold_sound | with_reducible apply Sound.ite | with_reducible apply Sound3.ite
      | with_reducible apply Sound.foldl
      | (extract_lets +onlyGivenNames s1; first | (refine Sound.cut (was := was) (u := s1) ?_ ?_; rotate_left; (intro hs1; clear_value s1); rotate_left; subst s1) | skip)
      | with_reducible refine Sound3.last ?_ | split)

theorem State.unhold_sound {was : State} {s old : State} (hs : Sound was s) : Sound was (State.unhold s old) :=
  Sound.dram_ hs hs.mem

theorem State.noRoute_sound {was : State} {s : State} {router : Nat} {m : Nat} {a : Nat} (hs : Sound was s) :
    Sound was (State.noRoute s router m a) := by
  unfold State.noRoute
  iterate 60 (all_goals try first
      | with_reducible assumption | intro _ | with_reducible refine Sound2.of (by assumption) ?_
      | with_reducible refine Sound3.of (by assumption) ?_ | with_reducible refine Sound4.of (by assumption) ?_
      | with_reducible refine SoundO.of (by assumption) ?_ | with_reducible refine SoundO2.of (by assumption) ?_
      | with_reducible refine SoundO4.of (by assumption) ?_ | with_reducible refine SoundOut.of (by assumption) ?_
      | with_reducible apply State.logEv_sound
      | (extract_lets +onlyGivenNames s1; first | (refine Sound.cut (was := was) (u := s1) ?_ ?_; rotate_left; (intro hs1; clear_value s1); rotate_left; subst s1) | skip))

theorem State.engineAccess_sound {was : State} {s : State} {r : Req} (hs : Sound was s) :
    Sound3 was (State.engineAccess s r) := by
  unfold State.engineAccess
  extract_lets m
  refine Sound3.ite ⟨hs⟩ ?_
  split
  rename_i lost r1 s1 e
  have hs1 : Sound was s1 := Sound3.of e (State.pinj_sound hs)
  refine Sound3.ite ⟨State.headerLost_sound hs1⟩ (Sound3.ite ⟨State.noRoute_sound hs1⟩ ?_)
  extract_lets s' new
  have h : Sound was s' := State.memAccess_sound hs1
  split
  · exact ⟨h.outbox_ (hs1.out.trans (List.prefix_append ..))⟩
  · exact ⟨State.unhold_sound h⟩

theorem State.engineIssue_sound {was : State} {s : State} {m : Fin 64} {e : EngReq} (hs : Sound was s) :
    Sound2 was (State.engineIssue s m e) := by
  unfold State.engineIssue
  iterate 50 (all_goals try first
      | with_reducible assumption | intro _ | with_reducible refine Sound3.of (by assumption) ?_
      | with_reducible apply State.engineAccess_sound | with_reducible apply Sound.ite
      | with_reducible apply Sound2.ite | with_reducible apply Sound3.ite | with_reducible apply Sound.foldl
      | (extract_lets +onlyGivenNames s1; first | (refine Sound.cut (was := was) (u := s1) ?_ ?_; rotate_left; (intro hs1; clear_value s1); rotate_left; subst s1) | skip)
      | with_reducible refine Sound3.last ?_ | split | with_reducible apply Sound2.pair)

theorem State.setL2_sound {was : State} {s : State} {b : Nat} {x : L2Line} (hs : Sound was s) :
    Sound was (State.setL2 s b x) := by
  unfold State.setL2
  iterate 8 (all_goals try first
      | with_reducible assumption | with_reducible refine Sound.mk_ ?_ rfl rfl)

theorem State.dropL2_sound {was : State} {s : State} {b : Nat} (hs : Sound was s) :
    Sound was (State.dropL2 s b) := by
  unfold State.dropL2
  iterate 8 (all_goals try first
      | with_reducible assumption | with_reducible refine Sound.mk_ ?_ rfl rfl)

theorem State.cleanL2_sound {was : State} {s : State} {b : Nat} (hs : Sound was s) :
    Sound was (State.cleanL2 s b) := by
  unfold State.cleanL2
  iterate 50 (all_goals try first
      | with_reducible assumption | intro _ | with_reducible refine Sound3.of (by assumption) ?_
      | with_reducible apply State.engineAccess_sound | with_reducible apply State.setL2_sound
      | with_reducible apply Sound.ite | with_reducible apply Sound3.ite | with_reducible apply Sound.foldl
      | (extract_lets +onlyGivenNames s1; first | (refine Sound.cut (was := was) (u := s1) ?_ ?_; rotate_left; (intro hs1; clear_value s1); rotate_left; subst s1) | skip)
      | with_reducible refine Sound3.last ?_ | split)

theorem State.setCore_sound {was : State} {s : State} {i : Nat} {x : CoreSt} (hs : Sound was s) :
    Sound was (State.setCore s i x) := by
  unfold State.setCore
  iterate 8 (all_goals try first
      | with_reducible assumption | with_reducible refine Sound.mk_ ?_ rfl rfl)

theorem State.clearResv_sound {was : State} {s : State} {b : Nat} {keep : Option Nat} (hs : Sound was s) :
    Sound was (State.clearResv s b keep) := by
  unfold State.clearResv
  iterate 20 (all_goals try first
      | with_reducible assumption | intro _ | with_reducible apply State.setCore_sound
      | with_reducible apply Sound.ite | with_reducible apply Sound.foldl)

theorem State.memRequest_sound {was : State} {s : State} {r : Req} {turn : Bool} (hs : Sound was s) :
    Sound was (State.memRequest s r turn) := by
  unfold State.memRequest
  iterate 20 (all_goals try first
      | with_reducible assumption | intro _ | with_reducible apply State.memAccess_sound
      | with_reducible apply State.cleanL2_sound | with_reducible apply State.dropL2_sound
      | with_reducible apply State.clearResv_sound | with_reducible apply State.respond_sound
      | with_reducible apply Sound.ite | with_reducible apply Sound.foldl | split)

theorem State.commandSlot_sound {was : State} {s : State} {u : Option MemUnit} (hs : Sound was s) :
    Sound was (State.commandSlot s u) := by
  unfold State.commandSlot
  extract_lets q pick
  split
  · exact hs
  · extract_lets served t
    have ht : Sound was t := State.memRequest_sound (Sound.dram_ hs hs.mem)
    split
    · exact ht.outbox_ (hs.out.trans (List.prefix_append ..))
    · exact ht

theorem State.queueWrites_sound {was : State} {s : State} (hs : Sound was s) :
    Sound was (State.queueWrites s) := by
  unfold State.queueWrites
  iterate 60 (all_goals try first
      | with_reducible assumption | intro _ | with_reducible refine Sound2.of (by assumption) ?_
      | with_reducible refine Sound3.of (by assumption) ?_ | with_reducible refine Sound4.of (by assumption) ?_
      | with_reducible refine SoundO.of (by assumption) ?_ | with_reducible refine SoundO2.of (by assumption) ?_
      | with_reducible refine SoundO4.of (by assumption) ?_ | with_reducible refine SoundOut.of (by assumption) ?_
      | with_reducible apply State.respond_sound | with_reducible apply SoundOut.next
      | with_reducible apply SoundO.none_ | with_reducible apply SoundO.some_ | with_reducible apply SoundO2.none_
      | with_reducible apply SoundO2.some_ | with_reducible apply SoundO4.none_ | with_reducible apply SoundO4.some_
      | with_reducible apply Sound.ite | with_reducible apply SoundOut.ite | with_reducible apply Sound2.ite
      | with_reducible apply Sound3.ite | with_reducible apply SoundO.ite | with_reducible apply Sound.foldl
      | with_reducible apply Sound2.foldl
      | (extract_lets +onlyGivenNames s1; first | (refine Sound.cut (was := was) (u := s1) ?_ ?_; rotate_left; (intro hs1; clear_value s1); rotate_left; subst s1) | skip)
      | with_reducible refine Sound4.last ?_ | with_reducible refine Sound3.last ?_
      | with_reducible refine Sound2.snd ?_ | split | with_reducible apply Sound2.pair
      | with_reducible apply Sound3.pair | with_reducible apply Sound4.pair
      | with_reducible refine Sound.mk_ ?_ rfl rfl)

theorem State.commandSlots_sound {was : State} {s : State} (hs : Sound was s) :
    Sound was (State.commandSlots s) := by
  unfold State.commandSlots
  iterate 60 (all_goals try first
      | with_reducible assumption | intro _ | with_reducible refine Sound2.of (by assumption) ?_
      | with_reducible refine Sound3.of (by assumption) ?_ | with_reducible refine Sound4.of (by assumption) ?_
      | with_reducible refine SoundO.of (by assumption) ?_ | with_reducible refine SoundO2.of (by assumption) ?_
      | with_reducible refine SoundO4.of (by assumption) ?_ | with_reducible refine SoundOut.of (by assumption) ?_
      | with_reducible apply State.queueWrites_sound | with_reducible apply State.commandSlot_sound
      | with_reducible apply SoundOut.next | with_reducible apply SoundO.none_ | with_reducible apply SoundO.some_
      | with_reducible apply SoundO2.none_ | with_reducible apply SoundO2.some_ | with_reducible apply SoundO4.none_
      | with_reducible apply SoundO4.some_ | with_reducible apply Sound.ite | with_reducible apply SoundOut.ite
      | with_reducible apply Sound2.ite | with_reducible apply Sound3.ite | with_reducible apply SoundO.ite
      | with_reducible apply Sound.foldl
      | (extract_lets +onlyGivenNames s1; first | (refine Sound.cut (was := was) (u := s1) ?_ ?_; rotate_left; (intro hs1; clear_value s1); rotate_left; subst s1) | skip))

theorem State.queueTimeout_sound {was : State} {s : State} {r : Req} (hs : Sound was s) :
    SoundO was (State.queueTimeout s r) := by
  unfold State.queueTimeout
  iterate 60 (all_goals try first
      | with_reducible assumption | intro _ | with_reducible refine Sound2.of (by assumption) ?_
      | with_reducible refine Sound3.of (by assumption) ?_ | with_reducible refine Sound4.of (by assumption) ?_
      | with_reducible refine SoundO.of (by assumption) ?_ | with_reducible refine SoundO2.of (by assumption) ?_
      | with_reducible refine SoundO4.of (by assumption) ?_ | with_reducible refine SoundOut.of (by assumption) ?_
      | with_reducible apply State.respond_sound | with_reducible apply SoundOut.next
      | with_reducible apply SoundO.none_ | with_reducible apply SoundO.some_ | with_reducible apply SoundO2.none_
      | with_reducible apply SoundO2.some_ | with_reducible apply SoundO4.none_ | with_reducible apply SoundO4.some_
      | with_reducible apply Sound.ite | with_reducible apply SoundOut.ite | with_reducible apply Sound2.ite
      | with_reducible apply Sound3.ite | with_reducible apply SoundO.ite | with_reducible apply Sound.foldl
      | with_reducible apply Sound2.foldl
      | (extract_lets +onlyGivenNames s1; first | (refine Sound.cut (was := was) (u := s1) ?_ ?_; rotate_left; (intro hs1; clear_value s1); rotate_left; subst s1) | skip)
      | with_reducible refine Sound4.last ?_ | with_reducible refine Sound3.last ?_
      | with_reducible refine Sound2.snd ?_ | split | with_reducible apply Sound2.pair
      | with_reducible apply Sound3.pair | with_reducible apply Sound4.pair
      | with_reducible refine Sound.mk_ ?_ rfl rfl)

theorem execDramRead_sound {was : State} {r : Req} {s : State} (hs : Sound was s) :
    SoundOut was (execDramRead r s) := by
  unfold execDramRead
  iterate 8 (all_goals try first
      | with_reducible assumption | with_reducible apply State.memRequest_sound | with_reducible apply SoundOut.next)

theorem execDramWrite_sound {was : State} {r : Req} {s : State} (hs : Sound was s) :
    SoundOut was (execDramWrite r s) := by
  unfold execDramWrite
  iterate 8 (all_goals try first
      | with_reducible assumption | with_reducible apply State.memRequest_sound | with_reducible apply SoundOut.next)

theorem execEncryptedRead_sound {was : State} {r : Req} {s : State} (hs : Sound was s) :
    SoundOut was (execEncryptedRead r s) := by
  unfold execEncryptedRead
  iterate 8 (all_goals try first
      | with_reducible assumption | with_reducible apply State.memRequest_sound | with_reducible apply SoundOut.next)

theorem execEncryptedWrite_sound {was : State} {r : Req} {s : State} (hs : Sound was s) :
    SoundOut was (execEncryptedWrite r s) := by
  unfold execEncryptedWrite
  iterate 8 (all_goals try first
      | with_reducible assumption | with_reducible apply State.memRequest_sound | with_reducible apply SoundOut.next)

end Sys2Proof.Machine
end

