-- ==== Sys2Proof/Laws/SoundRouters.lean ====
section
/-!
SUPPORT. Sys2Proof/Laws/SoundRouters.lean: the operations of Machine/Routers.lean keep what Sound says.
-/

namespace Sys2Proof.Machine

theorem State.setWaiting_sound {was : State} {s : State} {r : Nat} {port : Nat} {l : List WaitFlit} (hs : Sound was s) :
    Sound was (State.setWaiting s r port l) := by
  unfold State.setWaiting
  iterate 60 (all_goals try first
      | with_reducible assumption | intro _ | with_reducible refine Sound2.of (by assumption) ?_
      | with_reducible refine Sound3.of (by assumption) ?_ | with_reducible refine Sound4.of (by assumption) ?_
      | with_reducible refine SoundO.of (by assumption) ?_ | with_reducible refine SoundO2.of (by assumption) ?_
      | with_reducible refine SoundO4.of (by assumption) ?_ | with_reducible refine SoundOut.of (by assumption) ?_
      | with_reducible apply SoundOut.next | with_reducible apply SoundO.none_ | with_reducible apply SoundO.some_
      | with_reducible apply SoundO2.none_ | with_reducible apply SoundO2.some_ | with_reducible apply SoundO4.none_
      | with_reducible apply SoundO4.some_ | with_reducible apply Sound.ite | with_reducible apply SoundOut.ite
      | with_reducible apply Sound2.ite | with_reducible apply Sound3.ite | with_reducible apply SoundO.ite
      | with_reducible apply Sound.foldl | with_reducible apply Sound2.foldl
      | (extract_lets +onlyGivenNames s1; first | (refine Sound.cut (was := was) (u := s1) ?_ ?_; rotate_left; (intro hs1; clear_value s1); rotate_left; subst s1) | skip)
      | with_reducible refine Sound4.last ?_ | with_reducible refine Sound3.last ?_
      | with_reducible refine Sound2.snd ?_ | split | with_reducible apply Sound2.pair
      | with_reducible apply Sound3.pair | with_reducible apply Sound4.pair
      | with_reducible refine Sound.mk_ ?_ rfl rfl)

theorem State.freeBuffer_sound {was : State} {s : State} {link : Option Nat} {h : Nat} (hs : Sound was s) :
    Sound was (State.freeBuffer s link h) := by
  unfold State.freeBuffer
  iterate 60 (all_goals try first
      | with_reducible assumption | intro _ | with_reducible refine Sound2.of (by assumption) ?_
      | with_reducible refine Sound3.of (by assumption) ?_ | with_reducible refine Sound4.of (by assumption) ?_
      | with_reducible refine SoundO.of (by assumption) ?_ | with_reducible refine SoundO2.of (by assumption) ?_
      | with_reducible refine SoundO4.of (by assumption) ?_ | with_reducible refine SoundOut.of (by assumption) ?_
      | with_reducible apply SoundOut.next | with_reducible apply SoundO.none_ | with_reducible apply SoundO.some_
      | with_reducible apply SoundO2.none_ | with_reducible apply SoundO2.some_ | with_reducible apply SoundO4.none_
      | with_reducible apply SoundO4.some_ | with_reducible apply Sound.ite | with_reducible apply SoundOut.ite
      | with_reducible apply Sound2.ite | with_reducible apply Sound3.ite | with_reducible apply SoundO.ite
      | with_reducible apply Sound.foldl | with_reducible apply Sound2.foldl
      | (extract_lets +onlyGivenNames s1; first | (refine Sound.cut (was := was) (u := s1) ?_ ?_; rotate_left; (intro hs1; clear_value s1); rotate_left; subst s1) | skip)
      | with_reducible refine Sound4.last ?_ | with_reducible refine Sound3.last ?_
      | with_reducible refine Sound2.snd ?_ | split | with_reducible apply Sound2.pair
      | with_reducible apply Sound3.pair | with_reducible apply Sound4.pair
      | with_reducible refine Sound.mk_ ?_ rfl rfl)

theorem State.arriveFlit_sound {was : State} {s : State} {r : Nat} {x : RouterFlit} {link : Option Nat} (hs : Sound was s) :
    Sound was (State.arriveFlit s r x link) := by
  unfold State.arriveFlit
  iterate 60 (all_goals try first
      | with_reducible assumption | intro _ | with_reducible refine Sound2.of (by assumption) ?_
      | with_reducible refine Sound3.of (by assumption) ?_ | with_reducible refine Sound4.of (by assumption) ?_
      | with_reducible refine SoundO.of (by assumption) ?_ | with_reducible refine SoundO2.of (by assumption) ?_
      | with_reducible refine SoundO4.of (by assumption) ?_ | with_reducible refine SoundOut.of (by assumption) ?_
      | with_reducible apply State.freeBuffer_sound | with_reducible apply State.badHeader_sound
      | with_reducible apply State.discardFlit_sound
      | with_reducible apply State.noRoute_sound | with_reducible apply State.respond_sound
      | with_reducible apply State.setWaiting_sound | with_reducible apply SoundOut.next
      | with_reducible apply SoundO.none_ | with_reducible apply SoundO.some_ | with_reducible apply SoundO2.none_
      | with_reducible apply SoundO2.some_ | with_reducible apply SoundO4.none_ | with_reducible apply SoundO4.some_
      | with_reducible apply Sound.ite | with_reducible apply SoundOut.ite | with_reducible apply Sound2.ite
      | with_reducible apply Sound3.ite | with_reducible apply SoundO.ite | with_reducible apply Sound.foldl
      | with_reducible apply Sound2.foldl
      | (extract_lets +onlyGivenNames s1; first | (refine Sound.cut (was := was) (u := s1) ?_ ?_; rotate_left; (intro hs1; clear_value s1); rotate_left; subst s1) | skip)
      | with_reducible refine Sound4.last ?_ | with_reducible refine Sound3.last ?_
      | with_reducible refine Sound2.snd ?_ | split)

end Sys2Proof.Machine
end

