-- ==== Sys2Proof/Laws/SoundStreams.lean ====
section
/-!
SUPPORT. Sys2Proof/Laws/SoundStreams.lean: the operations of Machine/Streams.lean keep what Sound says.
-/

namespace Sys2Proof.Machine

theorem State.setDma_sound {was : State} {s : State} {d q : Nat} {x : DmaSt} (hs : Sound was s) :
    Sound was (State.setDma s d q x) := by
  unfold State.setDma
  iterate 8 (all_goals try first
      | with_reducible assumption | with_reducible refine Sound.mk_ ?_ rfl rfl)

theorem State.dmaStop_sound {was : State} {s : State} {d q : Nat} {c : Resp} (hs : Sound was s) :
    Sound was (State.dmaStop s d q c) := by
  unfold State.dmaStop
  iterate 8 (all_goals try first
      | with_reducible assumption | with_reducible apply State.put_sound | with_reducible apply State.raise_sound
      | with_reducible apply State.setDma_sound | with_reducible apply State.logEv_sound)

theorem State.dmaControl_sound {was : State} {s : State} {d q : Nat} {w : Word32} (hs : Sound was s) :
    Sound was (State.dmaControl s d q w) := by
  unfold State.dmaControl
  iterate 20 (all_goals try first
      | with_reducible assumption | intro _ | with_reducible apply State.put_sound
      | with_reducible apply State.setReg_sound | with_reducible apply State.raise_sound
      | with_reducible apply State.setDma_sound | with_reducible apply State.updatePanic_sound
      | with_reducible apply Sound.ite)

theorem execDmaRun_sound {was : State} {src : Src} {d : Fin 4} {q : Fin 64} {w : Word32} {s : State} (hs : Sound was s) :
    SoundOut was (execDmaRun src d q w s) := by
  unfold execDmaRun
  iterate 60 (all_goals try first
      | with_reducible assumption | intro _ | with_reducible refine Sound2.of (by assumption) ?_
      | with_reducible refine Sound3.of (by assumption) ?_ | with_reducible refine Sound4.of (by assumption) ?_
      | with_reducible refine SoundO.of (by assumption) ?_ | with_reducible refine SoundO2.of (by assumption) ?_
      | with_reducible refine SoundO4.of (by assumption) ?_ | with_reducible refine SoundOut.of (by assumption) ?_
      | with_reducible apply State.regAct_sound | with_reducible apply State.dmaControl_sound
      | with_reducible apply SoundOut.next
      | (extract_lets +onlyGivenNames s1; first | (refine Sound.cut (was := was) (u := s1) ?_ ?_; rotate_left; (intro hs1; clear_value s1); rotate_left; subst s1) | skip))

theorem takeBeats_sound {was : State} {d q : Nat} {pkt : Bool} {x0 : Nat} {s : State} (hs : Sound was s) :
    Sound2 was (takeBeats d q pkt x0 s) := by
  induction x0 generalizing s with
  | zero => exact ⟨hs⟩
  | succ n ih =>
    unfold takeBeats
    iterate 50 (all_goals try first
        | with_reducible assumption | intro _ | with_reducible refine Sound2.of (by assumption) ?_
        | with_reducible refine SoundO.of (by assumption) ?_ | with_reducible apply State.sqTake_sound | apply ih
        | with_reducible apply Sound.ite | with_reducible apply Sound2.ite | with_reducible apply Sound.foldl
        | (extract_lets +onlyGivenNames s1; first | (refine Sound.cut (was := was) (u := s1) ?_ ?_; rotate_left; (intro hs1; clear_value s1); rotate_left; subst s1) | skip)
        | with_reducible refine Sound4.last ?_ | with_reducible refine Sound3.last ?_
        | with_reducible refine Sound2.snd ?_ | split | with_reducible apply Sound2.pair)

theorem State.dmaEgress_sound {was : State} {s : State} {d : Nat} {q : Nat} {tag : Nat} {n : Nat} (hs : Sound was s) :
    Sound was (State.dmaEgress s d q tag n) := by
  unfold State.dmaEgress
  iterate 60 (all_goals try first
      | with_reducible assumption | intro _ | with_reducible refine Sound2.of (by assumption) ?_
      | with_reducible refine Sound3.of (by assumption) ?_ | with_reducible refine Sound4.of (by assumption) ?_
      | with_reducible refine SoundO.of (by assumption) ?_ | with_reducible refine SoundO2.of (by assumption) ?_
      | with_reducible refine SoundO4.of (by assumption) ?_ | with_reducible refine SoundOut.of (by assumption) ?_
      | with_reducible apply takeBeats_sound | with_reducible apply State.engineIssue_sound
      | with_reducible apply State.setDma_sound | with_reducible apply SoundOut.next
      | with_reducible apply SoundO.none_ | with_reducible apply SoundO.some_ | with_reducible apply SoundO2.none_
      | with_reducible apply SoundO2.some_ | with_reducible apply SoundO4.none_ | with_reducible apply SoundO4.some_
      | with_reducible apply Sound.ite | with_reducible apply SoundOut.ite | with_reducible apply Sound2.ite
      | with_reducible apply Sound3.ite | with_reducible apply SoundO.ite | with_reducible apply Sound.foldl
      | with_reducible apply Sound2.foldl
      | (extract_lets +onlyGivenNames s1; first | (refine Sound.cut (was := was) (u := s1) ?_ ?_; rotate_left; (intro hs1; clear_value s1); rotate_left; subst s1) | skip)
      | with_reducible refine Sound4.last ?_ | with_reducible refine Sound3.last ?_
      | with_reducible refine Sound2.snd ?_)

theorem State.dmaIngress_sound {was : State} {s : State} {d : Nat} {q : Nat} {tag : Nat} {n : Nat} (hs : Sound was s) :
    Sound was (State.dmaIngress s d q tag n) := by
  unfold State.dmaIngress
  iterate 60 (all_goals try first
      | with_reducible assumption | intro _ | with_reducible refine Sound2.of (by assumption) ?_
      | with_reducible refine Sound3.of (by assumption) ?_ | with_reducible refine Sound4.of (by assumption) ?_
      | with_reducible refine SoundO.of (by assumption) ?_ | with_reducible refine SoundO2.of (by assumption) ?_
      | with_reducible refine SoundO4.of (by assumption) ?_ | with_reducible refine SoundOut.of (by assumption) ?_
      | with_reducible apply State.engineIssue_sound | with_reducible apply State.setDma_sound
      | with_reducible apply SoundOut.next | with_reducible apply SoundO.none_ | with_reducible apply SoundO.some_
      | with_reducible apply SoundO2.none_ | with_reducible apply SoundO2.some_ | with_reducible apply SoundO4.none_
      | with_reducible apply SoundO4.some_ | with_reducible apply Sound.ite | with_reducible apply SoundOut.ite
      | with_reducible apply Sound2.ite | with_reducible apply Sound3.ite | with_reducible apply SoundO.ite
      | with_reducible apply Sound.foldl | with_reducible apply Sound2.foldl
      | (extract_lets +onlyGivenNames s1; first | (refine Sound.cut (was := was) (u := s1) ?_ ?_; rotate_left; (intro hs1; clear_value s1); rotate_left; subst s1) | skip)
      | with_reducible refine Sound4.last ?_ | with_reducible refine Sound3.last ?_
      | with_reducible refine Sound2.snd ?_)

theorem execDmaTransfer_sound {was : State} {d : Fin 4} {q : Fin 64} {s : State} (hs : Sound was s) :
    SoundOut was (execDmaTransfer d q s) := by
  unfold execDmaTransfer
  iterate 60 (all_goals try first
      | with_reducible assumption | intro _ | with_reducible refine Sound2.of (by assumption) ?_
      | with_reducible refine Sound3.of (by assumption) ?_ | with_reducible refine Sound4.of (by assumption) ?_
      | with_reducible refine SoundO.of (by assumption) ?_ | with_reducible refine SoundO2.of (by assumption) ?_
      | with_reducible refine SoundO4.of (by assumption) ?_ | with_reducible refine SoundOut.of (by assumption) ?_
      | with_reducible apply State.dmaEgress_sound | with_reducible apply State.dmaIngress_sound
      | with_reducible apply SoundOut.next | with_reducible apply SoundO.none_ | with_reducible apply SoundO.some_
      | with_reducible apply SoundO2.none_ | with_reducible apply SoundO2.some_ | with_reducible apply SoundO4.none_
      | with_reducible apply SoundO4.some_ | with_reducible apply Sound.ite | with_reducible apply SoundOut.ite
      | with_reducible apply Sound2.ite | with_reducible apply Sound3.ite | with_reducible apply SoundO.ite
      | with_reducible apply Sound.foldl | with_reducible apply Sound2.foldl
      | (extract_lets +onlyGivenNames s1; first | (refine Sound.cut (was := was) (u := s1) ?_ ?_; rotate_left; (intro hs1; clear_value s1); rotate_left; subst s1) | skip)
      | with_reducible refine Sound4.last ?_ | with_reducible refine Sound3.last ?_
      | with_reducible refine Sound2.snd ?_ | split)

theorem execDmaPartialFlit_sound {was : State} {d : Fin 4} {q : Fin 64} {s : State} (hs : Sound was s) :
    SoundOut was (execDmaPartialFlit d q s) := by
  unfold execDmaPartialFlit
  iterate 60 (all_goals try first
      | with_reducible assumption | intro _ | with_reducible refine Sound2.of (by assumption) ?_
      | with_reducible refine Sound3.of (by assumption) ?_ | with_reducible refine Sound4.of (by assumption) ?_
      | with_reducible refine SoundO.of (by assumption) ?_ | with_reducible refine SoundO2.of (by assumption) ?_
      | with_reducible refine SoundO4.of (by assumption) ?_ | with_reducible refine SoundOut.of (by assumption) ?_
      | with_reducible apply State.dmaEgress_sound | with_reducible apply SoundOut.next
      | with_reducible apply SoundO.none_ | with_reducible apply SoundO.some_ | with_reducible apply SoundO2.none_
      | with_reducible apply SoundO2.some_ | with_reducible apply SoundO4.none_ | with_reducible apply SoundO4.some_
      | with_reducible apply Sound.ite | with_reducible apply SoundOut.ite | with_reducible apply Sound2.ite
      | with_reducible apply Sound3.ite | with_reducible apply SoundO.ite | with_reducible apply Sound.foldl
      | with_reducible apply Sound2.foldl
      | (extract_lets +onlyGivenNames s1; first | (refine Sound.cut (was := was) (u := s1) ?_ ?_; rotate_left; (intro hs1; clear_value s1); rotate_left; subst s1) | skip)
      | with_reducible refine Sound4.last ?_ | with_reducible refine Sound3.last ?_
      | with_reducible refine Sound2.snd ?_ | split)

theorem State.dmaAdvance_sound {was : State} {s : State} {d q p : Nat} (hs : Sound was s) :
    Sound was (State.dmaAdvance s d q p) := by
  unfold State.dmaAdvance
  iterate 20 (all_goals try first
      | with_reducible assumption | intro _ | with_reducible apply State.put_sound
      | with_reducible apply State.interrupt_sound | with_reducible apply Sound.ite)

theorem State.dmaPass_sound {was : State} {s : State} {d : Nat} {q : Nat} (hs : Sound was s) :
    Sound was (State.dmaPass s d q) := by
  unfold State.dmaPass
  iterate 60 (all_goals try first
      | with_reducible assumption | intro _ | with_reducible refine Sound2.of (by assumption) ?_
      | with_reducible refine Sound3.of (by assumption) ?_ | with_reducible refine Sound4.of (by assumption) ?_
      | with_reducible refine SoundO.of (by assumption) ?_ | with_reducible refine SoundO2.of (by assumption) ?_
      | with_reducible refine SoundO4.of (by assumption) ?_ | with_reducible refine SoundOut.of (by assumption) ?_
      | with_reducible apply State.setDma_sound
      | (extract_lets +onlyGivenNames s1; first | (refine Sound.cut (was := was) (u := s1) ?_ ?_; rotate_left; (intro hs1; clear_value s1); rotate_left; subst s1) | skip))

theorem passBeats_sound {was : State} {d q : Nat} {x0 : List Beat} {s : State} (hs : Sound was s) :
    Sound2 was (passBeats d q x0 s) := by
  induction x0 generalizing s with
  | nil => exact ⟨hs⟩
  | cons b t ih =>
    unfold passBeats
    refine Sound2.ite ?_ (ih (State.dmaPass_sound (State.sqOffer_sound hs).snd))
    split
    · extract_lets n
      exact Sound2.ite ⟨hs⟩ (ih (State.dmaPass_sound (State.setDma_sound hs)))
    · extract_lets s1
      have h : Sound was s1 := (State.sqOffer_sound hs).snd
      clear_value s1
      exact ih (State.dmaPass_sound (State.setDma_sound h))

theorem execDmaResponse_sound {was : State} {d : Fin 4} {q : Fin 64} {lost : Bool} {s : State} (hs : Sound was s) :
    SoundOut was (execDmaResponse d q lost s) := by
  unfold execDmaResponse
  split
  · exact SoundOut.next hs
  · rename_i e rest _
    dsimp only
    split
    · exact SoundOut.next (State.setDma_sound (State.engineIssue_sound hs).snd)
    · split
      · split
        · exact SoundOut.next (State.dmaAdvance_sound (State.setDma_sound hs))
        · exact SoundOut.next (State.setDma_sound hs)
      · split
        · exact SoundOut.next hs
        · have h : Sound was (passBeats d.val q.val e.beats
              (s.setDma d.val q.val { s.dmaCh d.val q.val with flight := rest })).2 :=
            (passBeats_sound (State.setDma_sound hs)).snd
          have h2 := State.dmaAdvance_sound (d := d.val) (q := q.val)
            (p := ((passBeats d.val q.val e.beats
              (s.setDma d.val q.val { s.dmaCh d.val q.val with flight := rest })).2.dmaCh d.val q.val).acked) h
          exact SoundOut.next (Sound.ite h2 (State.dmaStop_sound h2))
    · exact SoundOut.next (State.dmaStop_sound hs)

theorem State.syncRiser_sound {was : State} {s : State} {d i : Nat} (hs : Sound was s) :
    Sound was (State.syncRiser s d i) := by
  unfold State.syncRiser
  iterate 8 (all_goals try first
      | with_reducible assumption | with_reducible apply State.put_sound)

theorem execRiserSpillWrite_sound {was : State} {d : Fin 4} {i : Fin 32} {s : State} (hs : Sound was s) :
    SoundOut was (execRiserSpillWrite d i s) := by
  unfold execRiserSpillWrite
  iterate 50 (all_goals try first
      | with_reducible assumption | intro _ | with_reducible refine Sound2.of (by assumption) ?_
      | with_reducible apply State.raise_sound | with_reducible apply State.engineIssue_sound
      | with_reducible apply State.setRiser_sound | with_reducible apply SoundOut.next
      | with_reducible apply Sound.ite | with_reducible apply SoundOut.ite | with_reducible apply Sound2.ite
      | with_reducible apply Sound.foldl
      | (extract_lets +onlyGivenNames s1; first | (refine Sound.cut (was := was) (u := s1) ?_ ?_; rotate_left; (intro hs1; clear_value s1); rotate_left; subst s1) | skip)
      | with_reducible refine Sound2.snd ?_ | split | with_reducible refine Sound.mk_ ?_ rfl rfl)

theorem execRiserRefillRead_sound {was : State} {d : Fin 4} {i : Fin 32} {s : State} (hs : Sound was s) :
    SoundOut was (execRiserRefillRead d i s) := by
  unfold execRiserRefillRead
  iterate 50 (all_goals try first
      | with_reducible assumption | intro _ | with_reducible refine Sound2.of (by assumption) ?_
      | with_reducible apply State.engineIssue_sound | with_reducible apply State.setRiser_sound
      | with_reducible apply SoundOut.next | with_reducible apply Sound.ite | with_reducible apply SoundOut.ite
      | with_reducible apply Sound2.ite | with_reducible apply Sound.foldl
      | (extract_lets +onlyGivenNames s1; first | (refine Sound.cut (was := was) (u := s1) ?_ ?_; rotate_left; (intro hs1; clear_value s1); rotate_left; subst s1) | skip)
      | with_reducible refine Sound2.snd ?_ | split | with_reducible refine Sound.mk_ ?_ rfl rfl)

theorem State.riserSettle_sound {was : State} {s : State} {d q i : Nat} (hs : Sound was s) :
    Sound was (State.riserSettle s d q i) := by
  unfold State.riserSettle
  iterate 20 (all_goals try first
      | with_reducible assumption | intro _ | with_reducible apply State.put_sound
      | with_reducible apply State.syncRiser_sound | with_reducible apply State.riserPass_sound
      | with_reducible apply State.updatePanic_sound | with_reducible apply Sound.ite)

theorem execRiserResponse_sound {was : State} {d : Fin 4} {i : Fin 32} {lost : Bool} {s : State} (hs : Sound was s) :
    SoundOut was (execRiserResponse d i lost s) := by
  unfold execRiserResponse
  split
  · dsimp only
    split
    · exact SoundOut.next (State.setRiser_sound (State.engineIssue_sound hs).snd)
    · repeat' split
      all_goals
        refine SoundOut.next (State.riserSettle_sound ?_)
        repeat' split
      all_goals first
        | exact State.setRiser_sound hs
        | exact State.logEv_sound (State.raise_sound (State.raise_sound (State.setRiser_sound hs)))
        | exact State.setQueue_sound (State.setRiser_sound hs)
        | exact State.logEv_sound (State.raise_sound (State.setQueue_sound (State.setRiser_sound hs)))
  · exact SoundOut.next hs

end Sys2Proof.Machine
end

