-- ==== Sys2Proof/Laws/SoundClocks.lean ====
section
/-!
SUPPORT. Sys2Proof/Laws/SoundClocks.lean: the operations of Machine/Clocks.lean keep what Sound says.
-/

namespace Sys2Proof.Machine

theorem State.clkGateWrite_sound {was : State} {s : State} {d : Nat} {w : Word32} (hs : Sound was s) :
    Sound was (State.clkGateWrite s d w) := by
  unfold State.clkGateWrite
  iterate 20 (all_goals try first
      | with_reducible assumption | intro _ | with_reducible apply State.put_sound | with_reducible apply Sound.ite)

theorem execClockGateWrite_sound {was : State} {src : Src} {d : Fin 24} {w : Word32} {s : State} (hs : Sound was s) :
    SoundOut was (execClockGateWrite src d w s) := by
  unfold execClockGateWrite
  iterate 60 (all_goals try first
      | with_reducible assumption | intro _ | with_reducible refine Sound2.of (by assumption) ?_
      | with_reducible refine Sound3.of (by assumption) ?_ | with_reducible refine Sound4.of (by assumption) ?_
      | with_reducible refine SoundO.of (by assumption) ?_ | with_reducible refine SoundO2.of (by assumption) ?_
      | with_reducible refine SoundO4.of (by assumption) ?_ | with_reducible refine SoundOut.of (by assumption) ?_
      | with_reducible apply State.regAct_sound | with_reducible apply State.clkGateWrite_sound
      | with_reducible apply SoundOut.next
      | (extract_lets +onlyGivenNames s1; first | (refine Sound.cut (was := was) (u := s1) ?_ ?_; rotate_left; (intro hs1; clear_value s1); rotate_left; subst s1) | skip))

theorem State.clkMonWrite_sound {was : State} {s : State} {w : Word32} (hs : Sound was s) :
    Sound was (State.clkMonWrite s w) := by
  unfold State.clkMonWrite
  iterate 20 (all_goals try first
      | with_reducible assumption | intro _ | with_reducible apply State.writeReg_sound
      | with_reducible apply Sound.ite | with_reducible apply Sound.foldl | split
      | with_reducible refine Sound.mk_ ?_ rfl rfl)

theorem execClkmonSelect_sound {was : State} {src : Src} {w : Word32} {s : State} (hs : Sound was s) :
    SoundOut was (execClkmonSelect src w s) := by
  unfold execClkmonSelect
  iterate 60 (all_goals try first
      | with_reducible assumption | intro _ | with_reducible refine Sound2.of (by assumption) ?_
      | with_reducible refine Sound3.of (by assumption) ?_ | with_reducible refine Sound4.of (by assumption) ?_
      | with_reducible refine SoundO.of (by assumption) ?_ | with_reducible refine SoundO2.of (by assumption) ?_
      | with_reducible refine SoundO4.of (by assumption) ?_ | with_reducible refine SoundOut.of (by assumption) ?_
      | with_reducible apply State.regAct_sound | with_reducible apply State.clkMonWrite_sound
      | with_reducible apply SoundOut.next
      | (extract_lets +onlyGivenNames s1; first | (refine Sound.cut (was := was) (u := s1) ?_ ?_; rotate_left; (intro hs1; clear_value s1); rotate_left; subst s1) | skip))

theorem State.monCycle_sound {was : State} {s : State} (hs : Sound was s) :
    Sound was (State.monCycle s) := by
  unfold State.monCycle
  iterate 60 (all_goals try first
      | with_reducible assumption | intro _ | with_reducible refine Sound2.of (by assumption) ?_
      | with_reducible refine Sound3.of (by assumption) ?_ | with_reducible refine Sound4.of (by assumption) ?_
      | with_reducible refine SoundO.of (by assumption) ?_ | with_reducible refine SoundO2.of (by assumption) ?_
      | with_reducible refine SoundO4.of (by assumption) ?_ | with_reducible refine SoundOut.of (by assumption) ?_
      | with_reducible apply SoundOut.next | with_reducible apply SoundO.none_ | with_reducible apply SoundO.some_
      | with_reducible apply SoundO2.none_ | with_reducible apply SoundO2.some_ | with_reducible apply SoundO4.none_
      | with_reducible apply SoundO4.some_ | with_reducible apply Sound.ite | with_reducible apply SoundOut.ite
      | with_reducible apply Sound2.ite | with_reducible apply Sound3.ite | with_reducible apply SoundO.ite
      | with_reducible apply Sound.foldl | with_reducible apply Sound2.foldl
      | (extract_lets +onlyGivenNames s1; first | (refine Sound.cut (was := was) (u := s1) ?_ ?_; rotate_left; (intro hs1; clear_value s1); rotate_left; subst s1) | skip)
      | with_reducible refine Sound4.last ?_ | with_reducible refine Sound3.last ?_
      | with_reducible refine Sound2.snd ?_ | split | with_reducible apply Sound2.pair
      | with_reducible apply Sound3.pair | with_reducible apply Sound4.pair
      | with_reducible refine Sound.mk_ ?_ rfl rfl)

theorem State.setQualified_sound {was : State} {s : State} {refB q : Bool} (hs : Sound was s) :
    Sound was (State.setQualified s refB q) := by
  unfold State.setQualified
  iterate 8 (all_goals try first
      | with_reducible assumption | with_reducible apply State.put_sound)

theorem State.switchTo_sound {was : State} {s : State} {refB : Bool} {cause : Nat} (hs : Sound was s) :
    Sound was (State.switchTo s refB cause) := by
  unfold State.switchTo
  iterate 20 (all_goals try first
      | with_reducible assumption | intro _ | with_reducible apply State.put_sound
      | with_reducible apply State.raise_sound | with_reducible apply State.logEv_sound
      | with_reducible apply Sound.ite)

theorem State.refControl_sound {was : State} {s : State} {w : Word32} (hs : Sound was s) :
    Sound was (State.refControl s w) := by
  unfold State.refControl
  iterate 20 (all_goals try first
      | with_reducible assumption | intro _ | with_reducible apply State.writeReg_sound
      | with_reducible apply State.switchTo_sound | with_reducible apply State.raise_sound
      | with_reducible apply Sound.ite)

theorem execReferenceSwitchCommand_sound {was : State} {src : Src} {w : Word32} {s : State} (hs : Sound was s) :
    SoundOut was (execReferenceSwitchCommand src w s) := by
  unfold execReferenceSwitchCommand
  iterate 60 (all_goals try first
      | with_reducible assumption | intro _ | with_reducible refine Sound2.of (by assumption) ?_
      | with_reducible refine Sound3.of (by assumption) ?_ | with_reducible refine Sound4.of (by assumption) ?_
      | with_reducible refine SoundO.of (by assumption) ?_ | with_reducible refine SoundO2.of (by assumption) ?_
      | with_reducible refine SoundO4.of (by assumption) ?_ | with_reducible refine SoundOut.of (by assumption) ?_
      | with_reducible apply State.regAct_sound | with_reducible apply State.refControl_sound
      | with_reducible apply SoundOut.next
      | (extract_lets +onlyGivenNames s1; first | (refine Sound.cut (was := was) (u := s1) ?_ ?_; rotate_left; (intro hs1; clear_value s1); rotate_left; subst s1) | skip))

theorem execReferenceDriftFailed_sound {was : State} {refB : Bool} {s : State} (hs : Sound was s) :
    SoundOut was (execReferenceDriftFailed refB s) := by
  unfold execReferenceDriftFailed
  iterate 20 (all_goals try first
      | with_reducible assumption | intro _ | with_reducible apply State.setQualified_sound
      | with_reducible apply SoundOut.next | with_reducible apply Sound.ite | with_reducible apply SoundOut.ite
      | with_reducible apply Sound.foldl | split | with_reducible refine Sound.mk_ ?_ rfl rfl)

theorem execRetentionMonitorExpiry_sound {was : State} {s : State} (hs : Sound was s) :
    SoundOut was (execRetentionMonitorExpiry s) := by
  unfold execRetentionMonitorExpiry
  iterate 20 (all_goals try first
      | with_reducible assumption | intro _ | with_reducible apply SoundOut.next | with_reducible apply Sound.ite
      | with_reducible apply SoundOut.ite | with_reducible apply Sound.foldl | split
      | with_reducible refine Sound.mk_ ?_ rfl rfl)

theorem State.setOffset_sound {was : State} {s : State} {c : Nat} {o : Int} (hs : Sound was s) :
    Sound was (State.setOffset s c o) := by
  unfold State.setOffset
  iterate 8 (all_goals try first
      | with_reducible assumption | with_reducible refine Sound.mk_ ?_ rfl rfl)

theorem State.putDieBit_sound {was : State} {s : State} {f : Fld} {c : Nat} {b : Bool} (hs : Sound was s) :
    Sound was (State.putDieBit s f c b) := by
  unfold State.putDieBit
  iterate 8 (all_goals try first
      | with_reducible assumption | with_reducible apply State.put_sound)

theorem execTimebaseSyncMessage_sound {was : State} {die : Fin 7} {wander : Int} {s : State} (hs : Sound was s) :
    SoundOut was (execTimebaseSyncMessage die wander s) := by
  unfold execTimebaseSyncMessage
  iterate 60 (all_goals try first
      | with_reducible assumption | intro _ | with_reducible refine Sound2.of (by assumption) ?_
      | with_reducible refine Sound3.of (by assumption) ?_ | with_reducible refine Sound4.of (by assumption) ?_
      | with_reducible refine SoundO.of (by assumption) ?_ | with_reducible refine SoundO2.of (by assumption) ?_
      | with_reducible refine SoundO4.of (by assumption) ?_ | with_reducible refine SoundOut.of (by assumption) ?_
      | with_reducible apply State.putDieBit_sound | with_reducible apply State.logEv_sound
      | with_reducible apply SoundOut.next | with_reducible apply SoundO.none_ | with_reducible apply SoundO.some_
      | with_reducible apply SoundO2.none_ | with_reducible apply SoundO2.some_ | with_reducible apply SoundO4.none_
      | with_reducible apply SoundO4.some_ | with_reducible apply Sound.ite | with_reducible apply SoundOut.ite
      | with_reducible apply Sound2.ite | with_reducible apply Sound3.ite | with_reducible apply SoundO.ite
      | with_reducible apply Sound.foldl | with_reducible apply Sound2.foldl
      | (extract_lets +onlyGivenNames s1; first | (refine Sound.cut (was := was) (u := s1) ?_ ?_; rotate_left; (intro hs1; clear_value s1); rotate_left; subst s1) | skip)
      | with_reducible refine Sound4.last ?_ | with_reducible refine Sound3.last ?_
      | with_reducible refine Sound2.snd ?_ | split | with_reducible apply Sound2.pair
      | with_reducible apply Sound3.pair | with_reducible apply Sound4.pair
      | with_reducible refine Sound.mk_ ?_ rfl rfl)

theorem State.copyCount_sound {was : State} {s : State} {c : Nat} (hs : Sound was s) :
    Sound was (State.copyCount s c) := by
  unfold State.copyCount
  iterate 60 (all_goals try first
      | with_reducible assumption | intro _ | with_reducible refine Sound2.of (by assumption) ?_
      | with_reducible refine Sound3.of (by assumption) ?_ | with_reducible refine Sound4.of (by assumption) ?_
      | with_reducible refine SoundO.of (by assumption) ?_ | with_reducible refine SoundO2.of (by assumption) ?_
      | with_reducible refine SoundO4.of (by assumption) ?_ | with_reducible refine SoundOut.of (by assumption) ?_
      | with_reducible apply State.putDieBit_sound | with_reducible apply SoundOut.next
      | with_reducible apply SoundO.none_ | with_reducible apply SoundO.some_ | with_reducible apply SoundO2.none_
      | with_reducible apply SoundO2.some_ | with_reducible apply SoundO4.none_ | with_reducible apply SoundO4.some_
      | with_reducible apply Sound.ite | with_reducible apply SoundOut.ite | with_reducible apply Sound2.ite
      | with_reducible apply Sound3.ite | with_reducible apply SoundO.ite | with_reducible apply Sound.foldl
      | with_reducible apply Sound2.foldl
      | (extract_lets +onlyGivenNames s1; first | (refine Sound.cut (was := was) (u := s1) ?_ ?_; rotate_left; (intro hs1; clear_value s1); rotate_left; subst s1) | skip)
      | with_reducible refine Sound4.last ?_ | with_reducible refine Sound3.last ?_
      | with_reducible refine Sound2.snd ?_ | split | with_reducible apply Sound2.pair
      | with_reducible apply Sound3.pair | with_reducible apply Sound4.pair
      | with_reducible refine Sound.mk_ ?_ rfl rfl)

theorem State.copiesCount_sound {was : State} {s : State} (hs : Sound was s) :
    Sound was (State.copiesCount s) := by
  unfold State.copiesCount
  iterate 60 (all_goals try first
      | with_reducible assumption | intro _ | with_reducible refine Sound2.of (by assumption) ?_
      | with_reducible refine Sound3.of (by assumption) ?_ | with_reducible refine Sound4.of (by assumption) ?_
      | with_reducible refine SoundO.of (by assumption) ?_ | with_reducible refine SoundO2.of (by assumption) ?_
      | with_reducible refine SoundO4.of (by assumption) ?_ | with_reducible refine SoundOut.of (by assumption) ?_
      | with_reducible apply State.copyCount_sound | with_reducible apply SoundOut.next
      | with_reducible apply SoundO.none_ | with_reducible apply SoundO.some_ | with_reducible apply SoundO2.none_
      | with_reducible apply SoundO2.some_ | with_reducible apply SoundO4.none_ | with_reducible apply SoundO4.some_
      | with_reducible apply Sound.ite | with_reducible apply SoundOut.ite | with_reducible apply Sound2.ite
      | with_reducible apply Sound3.ite | with_reducible apply SoundO.ite | with_reducible apply Sound.foldl
      | with_reducible apply Sound2.foldl
      | (extract_lets +onlyGivenNames s1; first | (refine Sound.cut (was := was) (u := s1) ?_ ?_; rotate_left; (intro hs1; clear_value s1); rotate_left; subst s1) | skip)
      | with_reducible refine Sound4.last ?_ | with_reducible refine Sound3.last ?_
      | with_reducible refine Sound2.snd ?_ | split | with_reducible apply Sound2.pair
      | with_reducible apply Sound3.pair | with_reducible apply Sound4.pair
      | with_reducible refine Sound.mk_ ?_ rfl rfl)

theorem execTimebaseFreeRun_sound {was : State} {die : Fin 7} {s : State} (hs : Sound was s) :
    SoundOut was (execTimebaseFreeRun die s) := by
  unfold execTimebaseFreeRun
  iterate 20 (all_goals try first
      | with_reducible assumption | intro _ | with_reducible apply State.putDieBit_sound
      | with_reducible apply SoundOut.next | with_reducible apply Sound.ite | with_reducible apply SoundOut.ite)

theorem State.timeLoRead_sound {was : State} {s : State} {src : Src} (hs : Sound was s) :
    Sound2 was (State.timeLoRead s src) := by
  unfold State.timeLoRead
  iterate 20 (all_goals try first
      | with_reducible assumption | intro _ | with_reducible apply State.setReg_sound | with_reducible apply Sound.ite
      | with_reducible apply Sound2.ite | with_reducible apply Sound.foldl | split | with_reducible apply Sound2.pair)

theorem execTbTimeLoRead_sound {was : State} {src : Src} {s : State} (hs : Sound was s) :
    SoundOut was (execTbTimeLoRead src s) := by
  unfold execTbTimeLoRead
  iterate 50 (all_goals try first
      | with_reducible assumption | intro _ | with_reducible refine Sound2.of (by assumption) ?_
      | with_reducible apply State.timeLoRead_sound | with_reducible apply State.answerWord_sound
      | with_reducible apply SoundOut.next | with_reducible apply Sound.ite | with_reducible apply SoundOut.ite
      | with_reducible apply Sound2.ite | with_reducible apply Sound.foldl
      | (extract_lets +onlyGivenNames s1; first | (refine Sound.cut (was := was) (u := s1) ?_ ?_; rotate_left; (intro hs1; clear_value s1); rotate_left; subst s1) | skip)
      | with_reducible refine Sound2.snd ?_)

theorem State.tickControl_sound {was : State} {s : State} {n : Nat} {w : Word32} (hs : Sound was s) :
    Sound was (State.tickControl s n w) := by
  unfold State.tickControl
  iterate 20 (all_goals try first
      | with_reducible assumption | intro _ | with_reducible apply State.writeReg_sound
      | with_reducible apply State.put_sound | with_reducible apply State.setReg_sound
      | with_reducible apply Sound.ite | with_reducible apply Sound.foldl | split
      | with_reducible refine Sound.mk_ ?_ rfl rfl)

theorem execTickEnable_sound {was : State} {src : Src} {n : Fin 4} {w : Word32} {s : State} (hs : Sound was s) :
    SoundOut was (execTickEnable src n w s) := by
  unfold execTickEnable
  iterate 60 (all_goals try first
      | with_reducible assumption | intro _ | with_reducible refine Sound2.of (by assumption) ?_
      | with_reducible refine Sound3.of (by assumption) ?_ | with_reducible refine Sound4.of (by assumption) ?_
      | with_reducible refine SoundO.of (by assumption) ?_ | with_reducible refine SoundO2.of (by assumption) ?_
      | with_reducible refine SoundO4.of (by assumption) ?_ | with_reducible refine SoundOut.of (by assumption) ?_
      | with_reducible apply State.regAct_sound | with_reducible apply State.tickControl_sound
      | with_reducible apply SoundOut.next
      | (extract_lets +onlyGivenNames s1; first | (refine Sound.cut (was := was) (u := s1) ?_ ?_; rotate_left; (intro hs1; clear_value s1); rotate_left; subst s1) | skip))

theorem State.tickPeriod_sound {was : State} {s : State} {n : Nat} {w : Word32} (hs : Sound was s) :
    Sound was (State.tickPeriod s n w) := by
  unfold State.tickPeriod
  iterate 20 (all_goals try first
      | with_reducible assumption | intro _ | with_reducible apply State.raise_sound
      | with_reducible apply State.put_sound | with_reducible apply Sound.ite | with_reducible apply Sound.foldl
      | split | with_reducible refine Sound.mk_ ?_ rfl rfl)

theorem execTickPeriodWrite_sound {was : State} {src : Src} {n : Fin 4} {w : Word32} {s : State} (hs : Sound was s) :
    SoundOut was (execTickPeriodWrite src n w s) := by
  unfold execTickPeriodWrite
  iterate 60 (all_goals try first
      | with_reducible assumption | intro _ | with_reducible refine Sound2.of (by assumption) ?_
      | with_reducible refine Sound3.of (by assumption) ?_ | with_reducible refine Sound4.of (by assumption) ?_
      | with_reducible refine SoundO.of (by assumption) ?_ | with_reducible refine SoundO2.of (by assumption) ?_
      | with_reducible refine SoundO4.of (by assumption) ?_ | with_reducible refine SoundOut.of (by assumption) ?_
      | with_reducible apply State.regAct_sound | with_reducible apply State.tickPeriod_sound
      | with_reducible apply SoundOut.next
      | (extract_lets +onlyGivenNames s1; first | (refine Sound.cut (was := was) (u := s1) ?_ ?_; rotate_left; (intro hs1; clear_value s1); rotate_left; subst s1) | skip))

theorem State.tickStart_sound {was : State} {s : State} {r : RegName} {n : Nat} {w : Word32} (hs : Sound was s) :
    Sound was (State.tickStart s r n w) := by
  unfold State.tickStart
  iterate 20 (all_goals try first
      | with_reducible assumption | intro _ | with_reducible apply State.writeReg_sound
      | with_reducible apply Sound.ite)

theorem State.tickFires_sound {was : State} {s : State} {n : Nat} (hs : Sound was s) :
    Sound was (State.tickFires s n) := by
  unfold State.tickFires
  iterate 20 (all_goals try first
      | with_reducible assumption | intro _ | with_reducible apply State.setReg_sound
      | with_reducible apply State.put_sound | with_reducible apply Sound.ite | with_reducible apply Sound.foldl
      | split | with_reducible refine Sound.mk_ ?_ rfl rfl)

theorem State.monTick_sound {was : State} {s : State} {n : Nat} (hs : Sound was s) :
    Sound was (State.monTick s n) := by
  unfold State.monTick
  iterate 60 (all_goals try first
      | with_reducible assumption | intro _ | with_reducible refine Sound2.of (by assumption) ?_
      | with_reducible refine Sound3.of (by assumption) ?_ | with_reducible refine Sound4.of (by assumption) ?_
      | with_reducible refine SoundO.of (by assumption) ?_ | with_reducible refine SoundO2.of (by assumption) ?_
      | with_reducible refine SoundO4.of (by assumption) ?_ | with_reducible refine SoundOut.of (by assumption) ?_
      | with_reducible apply State.monCycle_sound | with_reducible apply SoundOut.next
      | with_reducible apply SoundO.none_ | with_reducible apply SoundO.some_ | with_reducible apply SoundO2.none_
      | with_reducible apply SoundO2.some_ | with_reducible apply SoundO4.none_ | with_reducible apply SoundO4.some_
      | with_reducible apply Sound.ite
      | (extract_lets +onlyGivenNames s1; first | (refine Sound.cut (was := was) (u := s1) ?_ ?_; rotate_left; (intro hs1; clear_value s1); rotate_left; subst s1) | skip))

theorem State.dieFires_sound {was : State} {s : State} {d : Nat} {n : Nat} {c : Nat} (hs : Sound was s) :
    Sound was (State.dieFires s d n c) := by
  unfold State.dieFires
  iterate 60 (all_goals try first
      | with_reducible assumption | intro _ | with_reducible refine Sound2.of (by assumption) ?_
      | with_reducible refine Sound3.of (by assumption) ?_ | with_reducible refine Sound4.of (by assumption) ?_
      | with_reducible refine SoundO.of (by assumption) ?_ | with_reducible refine SoundO2.of (by assumption) ?_
      | with_reducible refine SoundO4.of (by assumption) ?_ | with_reducible refine SoundOut.of (by assumption) ?_
      | with_reducible apply SoundOut.next | with_reducible apply SoundO.none_ | with_reducible apply SoundO.some_
      | with_reducible apply SoundO2.none_ | with_reducible apply SoundO2.some_ | with_reducible apply SoundO4.none_
      | with_reducible apply SoundO4.some_ | with_reducible apply Sound.ite | with_reducible apply SoundOut.ite
      | with_reducible apply Sound2.ite | with_reducible apply Sound3.ite | with_reducible apply SoundO.ite
      | with_reducible apply Sound.foldl | with_reducible apply Sound2.foldl
      | (extract_lets +onlyGivenNames s1; first | (refine Sound.cut (was := was) (u := s1) ?_ ?_; rotate_left; (intro hs1; clear_value s1); rotate_left; subst s1) | skip)
      | with_reducible refine Sound4.last ?_ | with_reducible refine Sound3.last ?_
      | with_reducible refine Sound2.snd ?_ | split | with_reducible apply Sound2.pair
      | with_reducible apply Sound3.pair | with_reducible apply Sound4.pair
      | with_reducible refine Sound.mk_ ?_ rfl rfl)

end Sys2Proof.Machine
end

