-- ==== Sys2Proof/Laws/SoundLanes.lean ====
section
/-!
SUPPORT. Sys2Proof/Laws/SoundLanes.lean: the operations of Machine/Lanes.lean keep what Sound says.
-/

namespace Sys2Proof.Machine

theorem State.setStage_sound {was : State} {s : State} {l : Nat} {g : LaneStage} (hs : Sound was s) :
    Sound was (State.setStage s l g) := by
  unfold State.setStage
  iterate 8 (all_goals try first
      | with_reducible assumption | with_reducible refine Sound.mk_ ?_ rfl rfl)

theorem State.retireLane_sound {was : State} {s : State} {l cause : Nat} (hs : Sound was s) :
    Sound was (State.retireLane s l cause) := by
  unfold State.retireLane
  iterate 20 (all_goals try first
      | with_reducible assumption | intro _ | with_reducible apply State.raise_sound
      | with_reducible apply State.put_sound | with_reducible apply State.setReg_sound
      | with_reducible apply State.setStage_sound | with_reducible apply State.logEv_sound
      | with_reducible apply State.interrupt_sound | with_reducible apply Sound.ite)

theorem State.adaptLane_sound {was : State} {s : State} {l : Nat} (hs : Sound was s) :
    Sound was (State.adaptLane s l) := by
  unfold State.adaptLane
  iterate 12 (all_goals try first
      | with_reducible assumption | intro _ | with_reducible apply Sound.ite | with_reducible apply State.put_sound | with_reducible apply State.setReg_sound
      | with_reducible apply State.setStage_sound)

theorem State.startLane_sound {was : State} {s : State} {l : Nat} (hs : Sound was s) :
    Sound was (State.startLane s l) := by
  unfold State.startLane
  iterate 8 (all_goals try first
      | with_reducible assumption | with_reducible apply State.put_sound | with_reducible apply State.setReg_sound
      | with_reducible apply State.setStage_sound)

theorem State.laneConfig_sound {was : State} {s : State} {l : Nat} {w : Word32} (hs : Sound was s) :
    Sound was (State.laneConfig s l w) := by
  unfold State.laneConfig
  iterate 20 (all_goals try first
      | with_reducible assumption | intro _ | with_reducible apply State.raise_sound
      | with_reducible apply State.writeReg_sound | with_reducible apply State.put_sound
      | with_reducible apply State.setReg_sound | with_reducible apply State.setStage_sound
      | with_reducible apply State.startLane_sound | with_reducible apply State.adaptLane_sound
      | with_reducible apply Sound.ite)

theorem State.laneRate_sound {was : State} {s : State} {l : Nat} {w : Word32} (hs : Sound was s) :
    Sound was (State.laneRate s l w) := by
  unfold State.laneRate
  iterate 20 (all_goals try first
      | with_reducible assumption | intro _ | with_reducible apply State.raise_sound
      | with_reducible apply State.writeReg_sound | with_reducible apply State.adaptLane_sound
      | with_reducible apply Sound.ite)

theorem State.laneGroup_sound {was : State} {s : State} {g : Nat} {w : Word32} (hs : Sound was s) :
    Sound was (State.laneGroup s g w) := by
  unfold State.laneGroup
  iterate 20 (all_goals try first
      | with_reducible assumption | intro _ | with_reducible apply State.raise_sound
      | with_reducible apply State.writeReg_sound | with_reducible apply State.put_sound
      | with_reducible apply Sound.ite | with_reducible apply Sound.foldl)

theorem State.laneStatus_sound {was : State} {s : State} {n : RegName} {i : Nat} {w : Word32} (hs : Sound was s) :
    Sound was (State.laneStatus s n i w) :=
  Sound.ite (Sound.foldl (fun _ _ h => State.raise_sound h) hs) (State.writeReg_sound hs)

theorem execLaneEnable_sound {was : State} {src : Src} {l : Fin 40} {w : Word32} {s : State} (hs : Sound was s) :
    SoundOut was (execLaneEnable src l w s) := by
  unfold execLaneEnable
  iterate 60 (all_goals try first
      | with_reducible assumption | intro _ | with_reducible refine Sound2.of (by assumption) ?_
      | with_reducible refine Sound3.of (by assumption) ?_ | with_reducible refine Sound4.of (by assumption) ?_
      | with_reducible refine SoundO.of (by assumption) ?_ | with_reducible refine SoundO2.of (by assumption) ?_
      | with_reducible refine SoundO4.of (by assumption) ?_ | with_reducible refine SoundOut.of (by assumption) ?_
      | with_reducible apply State.regAct_sound | with_reducible apply State.laneConfig_sound
      | with_reducible apply SoundOut.next
      | (extract_lets +onlyGivenNames s1; first | (refine Sound.cut (was := was) (u := s1) ?_ ?_; rotate_left; (intro hs1; clear_value s1); rotate_left; subst s1) | skip))

theorem execLoopbackSelect_sound {was : State} {src : Src} {l : Fin 40} {w : Word32} {s : State} (hs : Sound was s) :
    SoundOut was (execLoopbackSelect src l w s) := by
  unfold execLoopbackSelect
  iterate 60 (all_goals try first
      | with_reducible assumption | intro _ | with_reducible refine Sound2.of (by assumption) ?_
      | with_reducible refine Sound3.of (by assumption) ?_ | with_reducible refine Sound4.of (by assumption) ?_
      | with_reducible refine SoundO.of (by assumption) ?_ | with_reducible refine SoundO2.of (by assumption) ?_
      | with_reducible refine SoundO4.of (by assumption) ?_ | with_reducible refine SoundOut.of (by assumption) ?_
      | with_reducible apply State.regAct_sound | with_reducible apply State.laneConfig_sound
      | with_reducible apply SoundOut.next
      | (extract_lets +onlyGivenNames s1; first | (refine Sound.cut (was := was) (u := s1) ?_ ?_; rotate_left; (intro hs1; clear_value s1); rotate_left; subst s1) | skip))

theorem execLaneSettingWrite_sound {was : State} {src : Src} {l : Fin 40} {rate : Bool} {w : Word32} {s : State} (hs : Sound was s) :
    SoundOut was (execLaneSettingWrite src l rate w s) := by
  unfold execLaneSettingWrite
  iterate 60 (all_goals try first
      | with_reducible assumption | intro _ | with_reducible refine Sound2.of (by assumption) ?_
      | with_reducible refine Sound3.of (by assumption) ?_ | with_reducible refine Sound4.of (by assumption) ?_
      | with_reducible refine SoundO.of (by assumption) ?_ | with_reducible refine SoundO2.of (by assumption) ?_
      | with_reducible refine SoundO4.of (by assumption) ?_ | with_reducible refine SoundOut.of (by assumption) ?_
      | with_reducible apply State.regAct_sound | with_reducible apply State.laneRate_sound
      | with_reducible apply State.laneConfig_sound | with_reducible apply SoundOut.next
      | with_reducible apply SoundO.none_ | with_reducible apply SoundO.some_ | with_reducible apply SoundO2.none_
      | with_reducible apply SoundO2.some_ | with_reducible apply SoundO4.none_ | with_reducible apply SoundO4.some_
      | with_reducible apply Sound.ite
      | (extract_lets +onlyGivenNames s1; first | (refine Sound.cut (was := was) (u := s1) ?_ ?_; rotate_left; (intro hs1; clear_value s1); rotate_left; subst s1) | skip))

theorem execLanePinCheckDone_sound {was : State} {l : Fin 40} {fault : Fin 5} {s : State} (hs : Sound was s) :
    SoundOut was (execLanePinCheckDone l fault s) := by
  unfold execLanePinCheckDone
  iterate 20 (all_goals try first
      | with_reducible assumption | intro _ | with_reducible apply State.setStage_sound
      | with_reducible apply State.put_sound | with_reducible apply State.retireLane_sound
      | with_reducible apply SoundOut.next | with_reducible apply Sound.ite | with_reducible apply SoundOut.ite)

theorem execRxLock_sound {was : State} {l : Fin 40} {ps : Word32} {s : State} (hs : Sound was s) :
    SoundOut was (execRxLock l ps s) := by
  unfold execRxLock
  iterate 20 (all_goals try first
      | with_reducible assumption | intro _ | with_reducible apply State.raise_sound
      | with_reducible apply State.setReg_sound | with_reducible apply State.setStage_sound
      | with_reducible apply SoundOut.next | with_reducible apply Sound.ite | with_reducible apply SoundOut.ite)

theorem execLossOfLock_sound {was : State} {l : Fin 40} {s : State} (hs : Sound was s) :
    SoundOut was (execLossOfLock l s) := by
  unfold execLossOfLock
  iterate 20 (all_goals try first
      | with_reducible assumption | intro _ | with_reducible apply State.put_sound
      | with_reducible apply State.setReg_sound | with_reducible apply State.setStage_sound
      | with_reducible apply SoundOut.next | with_reducible apply Sound.ite | with_reducible apply SoundOut.ite)

theorem State.fallBack_sound {was : State} {s : State} {l : Nat} (hs : Sound was s) :
    Sound was (State.fallBack s l) := by
  unfold State.fallBack
  iterate 20 (all_goals try first
      | with_reducible assumption | intro _ | with_reducible apply State.raise_sound
      | with_reducible apply State.setReg_sound
      | with_reducible apply State.put_sound | with_reducible apply Sound.ite | with_reducible apply Sound.foldl)

theorem execLockLossTimeout_sound {was : State} {l : Fin 40} {s : State} (hs : Sound was s) :
    SoundOut was (execLockLossTimeout l s) := by
  unfold execLockLossTimeout
  iterate 20 (all_goals try first
      | with_reducible assumption | intro _ | with_reducible apply State.fallBack_sound
      | with_reducible apply State.retireLane_sound | with_reducible apply SoundOut.next
      | with_reducible apply Sound.ite | with_reducible apply SoundOut.ite)

theorem execFallBackRequest_sound {was : State} {l : Fin 40} {s : State} (hs : Sound was s) :
    SoundOut was (execFallBackRequest l s) := by
  unfold execFallBackRequest
  iterate 20 (all_goals try first
      | with_reducible assumption | intro _ | with_reducible apply State.fallBack_sound
      | with_reducible apply SoundOut.next | with_reducible apply Sound.ite | with_reducible apply SoundOut.ite)

theorem execFallBackDetect_sound {was : State} {l : Fin 40} {s : State} (hs : Sound was s) :
    SoundOut was (execFallBackDetect l s) := by
  unfold execFallBackDetect
  iterate 20 (all_goals try first
      | with_reducible assumption | intro _ | with_reducible apply State.fallBack_sound
      | with_reducible apply SoundOut.next | with_reducible apply Sound.ite | with_reducible apply SoundOut.ite)

theorem execFallBackEnd_sound {was : State} {l : Fin 40} {inv : BitVec 4} {rev fail : Bool} {s : State} (hs : Sound was s) :
    SoundOut was (execFallBackEnd l inv rev fail s) := by
  unfold execFallBackEnd
  iterate 20 (all_goals try first
      | with_reducible assumption | intro _ | with_reducible apply State.put_sound
      | with_reducible apply State.setStage_sound | with_reducible apply State.raise_sound
      | with_reducible apply State.logEv_sound | with_reducible apply State.interrupt_sound
      | with_reducible apply SoundOut.next | with_reducible apply Sound.ite | with_reducible apply SoundOut.ite
      | with_reducible apply Sound.foldl)

theorem execFecCodewordReceive_sound {was : State} {l : Fin 40} {wrong : Nat} {s : State} (hs : Sound was s) :
    SoundOut was (execFecCodewordReceive l wrong s) := by
  unfold execFecCodewordReceive
  iterate 60 (all_goals try first
      | with_reducible assumption | intro _ | with_reducible refine Sound2.of (by assumption) ?_
      | with_reducible refine Sound3.of (by assumption) ?_ | with_reducible refine Sound4.of (by assumption) ?_
      | with_reducible refine SoundO.of (by assumption) ?_ | with_reducible refine SoundO2.of (by assumption) ?_
      | with_reducible refine SoundO4.of (by assumption) ?_ | with_reducible refine SoundOut.of (by assumption) ?_
      | with_reducible apply State.countUp_sound | with_reducible apply State.retireLane_sound
      | with_reducible apply SoundOut.next | with_reducible apply SoundO.none_ | with_reducible apply SoundO.some_
      | with_reducible apply SoundO2.none_ | with_reducible apply SoundO2.some_ | with_reducible apply SoundO4.none_
      | with_reducible apply SoundO4.some_ | with_reducible apply Sound.ite | with_reducible apply SoundOut.ite
      | with_reducible apply Sound2.ite | with_reducible apply Sound3.ite | with_reducible apply SoundO.ite
      | with_reducible apply Sound.foldl | with_reducible apply Sound2.foldl
      | (extract_lets +onlyGivenNames s1; first | (refine Sound.cut (was := was) (u := s1) ?_ ?_; rotate_left; (intro hs1; clear_value s1); rotate_left; subst s1) | skip)
      | with_reducible refine Sound4.last ?_ | with_reducible refine Sound3.last ?_
      | with_reducible refine Sound2.snd ?_ | split | with_reducible apply Sound2.pair
      | with_reducible apply Sound3.pair | with_reducible apply Sound4.pair
      | with_reducible refine Sound.mk_ ?_ rfl rfl)

theorem State.fecRead_sound {was : State} {s : State} {src : Src} {g : Nat} (hs : Sound was s) :
    Sound2 was (State.fecRead s src g) := by
  unfold State.fecRead
  iterate 20 (all_goals try first
      | with_reducible assumption | intro _ | with_reducible apply State.setReg_sound | with_reducible apply Sound.ite
      | with_reducible apply Sound2.ite | with_reducible apply Sound.foldl | split | with_reducible apply Sound2.pair)

theorem execFecCountRead_sound {was : State} {src : Src} {g : Fin 10} {s : State} (hs : Sound was s) :
    SoundOut was (execFecCountRead src g s) := by
  unfold execFecCountRead
  iterate 50 (all_goals try first
      | with_reducible assumption | intro _ | with_reducible refine Sound2.of (by assumption) ?_
      | with_reducible apply State.fecRead_sound | with_reducible apply State.answerWord_sound
      | with_reducible apply SoundOut.next | with_reducible apply Sound.ite | with_reducible apply SoundOut.ite
      | with_reducible apply Sound2.ite | with_reducible apply Sound.foldl
      | (extract_lets +onlyGivenNames s1; first | (refine Sound.cut (was := was) (u := s1) ?_ ?_; rotate_left; (intro hs1; clear_value s1); rotate_left; subst s1) | skip)
      | with_reducible refine Sound2.snd ?_)

theorem State.mbxFlush_sound {was : State} {s : State} (hs : Sound was s) :
    Sound was (State.mbxFlush s) := by
  unfold State.mbxFlush
  iterate 20 (all_goals try first
      | with_reducible assumption | intro _ | with_reducible apply State.sendMsix_sound
      | with_reducible apply Sound.ite | with_reducible apply Sound.foldl | split
      | with_reducible refine Sound.mk_ ?_ rfl rfl)

theorem execHostLinkStateChange_sound {was : State} {up flit : Bool} {speed : Fin 7} {width : Fin 17} {link : Fin 3} {d3hot : Bool} {s : State} (hs : Sound was s) :
    SoundOut was (execHostLinkStateChange up flit speed width link d3hot s) := by
  unfold execHostLinkStateChange
  iterate 20 (all_goals try first
      | with_reducible assumption | intro _ | with_reducible apply State.put_sound
      | with_reducible apply State.mbxFlush_sound | with_reducible apply SoundOut.next
      | with_reducible apply Sound.ite | with_reducible apply SoundOut.ite | with_reducible apply Sound.foldl | split
      | with_reducible refine Sound.mk_ ?_ rfl rfl)

theorem State.lanesRestart_sound {was : State} {s : State} (hs : Sound was s) :
    Sound was (State.lanesRestart s) := by
  unfold State.lanesRestart
  iterate 20 (all_goals try first
      | with_reducible assumption | intro _ | with_reducible apply State.adaptLane_sound
      | with_reducible apply Sound.ite | with_reducible apply Sound.foldl)

end Sys2Proof.Machine
end

