-- ==== Sys2Proof/Laws/SoundMac24.lean ====
section
/-!
SUPPORT. Sys2Proof/Laws/SoundMac24.lean: the operations of Machine/Mac24.lean keep what Sound says.
-/

namespace Sys2Proof.Machine

theorem State.setMac_sound {was : State} {s : State} {d blk : Nat} {x : MacSt} (hs : Sound was s) :
    Sound was (State.setMac s d blk x) := by
  unfold State.setMac
  iterate 8 (all_goals try first
      | with_reducible assumption | with_reducible refine Sound.mk_ ?_ rfl rfl)

end Sys2Proof.Machine
end

