-- ==== Sys2Proof/Laws/SoundCrossings.lean ====
section
/-!
SUPPORT. Sys2Proof/Laws/SoundCrossings.lean: the operations of Machine/Crossings.lean keep what Sound says.
-/

namespace Sys2Proof.Machine

theorem State.syncSpares_sound {was : State} {s : State} {g dir : Nat} (hs : Sound was s) :
    Sound was (State.syncSpares s g dir) := by
  unfold State.syncSpares
  iterate 20 (all_goals try first
      | with_reducible assumption | intro _ | with_reducible apply State.put_sound | with_reducible apply Sound.ite)

theorem State.markSpare_sound {was : State} {s : State} {g : Nat} {dir : Nat} {i : Nat} (hs : Sound was s) :
    Sound was (State.markSpare s g dir i) := by
  unfold State.markSpare
  iterate 60 (all_goals try first
      | with_reducible assumption | intro _ | with_reducible refine Sound2.of (by assumption) ?_
      | with_reducible refine Sound3.of (by assumption) ?_ | with_reducible refine Sound4.of (by assumption) ?_
      | with_reducible refine SoundO.of (by assumption) ?_ | with_reducible refine SoundO2.of (by assumption) ?_
      | with_reducible refine SoundO4.of (by assumption) ?_ | with_reducible refine SoundOut.of (by assumption) ?_
      | with_reducible apply State.put_sound
      | (extract_lets +onlyGivenNames s1; first | (refine Sound.cut (was := was) (u := s1) ?_ ?_; rotate_left; (intro hs1; clear_value s1); rotate_left; subst s1) | skip))

theorem State.judgeFailed_sound {was : State} {s : State} {g dir sig : Nat} (hs : Sound was s) :
    Sound was (State.judgeFailed s g dir sig) := by
  unfold State.judgeFailed
  iterate 20 (all_goals try first
      | with_reducible assumption | intro _ | with_reducible apply State.setXg_sound
      | with_reducible apply State.raise_sound | with_reducible apply Sound.ite)

theorem State.forceLane_sound {was : State} {s : State} {g dir b : Nat} (hs : Sound was s) :
    Sound was (State.forceLane s g dir b) := by
  unfold State.forceLane
  iterate 20 (all_goals try first
      | with_reducible assumption | intro _ | with_reducible apply State.put_sound
      | with_reducible apply State.setXg_sound | with_reducible apply State.raise_sound
      | with_reducible apply State.logEv_sound | with_reducible apply State.interrupt_sound
      | with_reducible apply Sound.ite | with_reducible apply Sound.foldl | split
      | with_reducible refine Sound.mk_ ?_ rfl rfl)

theorem State.rotateProbe_sound {was : State} {s : State} {g : Nat} {dir : Nat} (hs : Sound was s) :
    Sound was (State.rotateProbe s g dir) := by
  unfold State.rotateProbe
  iterate 60 (all_goals try first
      | with_reducible assumption | intro _ | with_reducible refine Sound2.of (by assumption) ?_
      | with_reducible refine Sound3.of (by assumption) ?_ | with_reducible refine Sound4.of (by assumption) ?_
      | with_reducible refine SoundO.of (by assumption) ?_ | with_reducible refine SoundO2.of (by assumption) ?_
      | with_reducible refine SoundO4.of (by assumption) ?_ | with_reducible refine SoundOut.of (by assumption) ?_
      | with_reducible apply State.setXg_sound | with_reducible apply State.put_sound
      | with_reducible apply SoundOut.next | with_reducible apply SoundO.none_ | with_reducible apply SoundO.some_
      | with_reducible apply SoundO2.none_ | with_reducible apply SoundO2.some_ | with_reducible apply SoundO4.none_
      | with_reducible apply SoundO4.some_ | with_reducible apply Sound.ite
      | (extract_lets +onlyGivenNames s1; first | (refine Sound.cut (was := was) (u := s1) ?_ ?_; rotate_left; (intro hs1; clear_value s1); rotate_left; subst s1) | skip))

theorem State.laneFailed_sound {was : State} {s : State} {g dir b : Nat} {explained : Bool} (hs : Sound was s) :
    Sound was (State.laneFailed s g dir b explained) := by
  unfold State.laneFailed
  iterate 20 (all_goals try first
      | with_reducible assumption | intro _ | with_reducible apply State.countUp_sound
      | with_reducible apply State.bucket_sound | with_reducible apply State.setXg_sound
      | with_reducible apply State.forceLane_sound | with_reducible apply Sound.ite)

theorem execCrossingReceive_sound {was : State} {g : Fin 480} {dir : Fin 2} {err : BitVec 152} {rel : EdgeRel} {s : State} (hs : Sound was s) :
    SoundOut was (execCrossingReceive g dir err rel s) := by
  unfold execCrossingReceive
  iterate 60 (all_goals try first
      | with_reducible assumption | intro _ | with_reducible refine Sound2.of (by assumption) ?_
      | with_reducible refine Sound3.of (by assumption) ?_ | with_reducible refine Sound4.of (by assumption) ?_
      | with_reducible refine SoundO.of (by assumption) ?_ | with_reducible refine SoundO2.of (by assumption) ?_
      | with_reducible refine SoundO4.of (by assumption) ?_ | with_reducible refine SoundOut.of (by assumption) ?_
      | with_reducible apply State.enterEdge_sound | with_reducible apply State.draw_sound
      | with_reducible apply State.rotateProbe_sound | with_reducible apply State.put_sound
      | with_reducible apply State.setXg_sound | with_reducible apply State.laneFailed_sound
      | with_reducible apply State.judgeFailed_sound | with_reducible apply State.markSpare_sound
      | with_reducible apply State.syncSpares_sound | with_reducible apply SoundOut.next
      | with_reducible apply SoundO.none_ | with_reducible apply SoundO.some_ | with_reducible apply SoundO2.none_
      | with_reducible apply SoundO2.some_ | with_reducible apply SoundO4.none_ | with_reducible apply SoundO4.some_
      | with_reducible apply Sound.ite | with_reducible apply SoundOut.ite | with_reducible apply Sound2.ite
      | with_reducible apply Sound3.ite | with_reducible apply SoundO.ite | with_reducible apply Sound.foldl
      | with_reducible apply Sound2.foldl
      | (extract_lets +onlyGivenNames s1; first | (refine Sound.cut (was := was) (u := s1) ?_ ?_; rotate_left; (intro hs1; clear_value s1); rotate_left; subst s1) | skip)
      | with_reducible refine Sound4.last ?_ | with_reducible refine Sound3.last ?_
      | with_reducible refine Sound2.snd ?_)

theorem execProbeRotation_sound {was : State} {g : Fin 480} {dir : Fin 2} {s : State} (hs : Sound was s) :
    SoundOut was (execProbeRotation g dir s) := by
  unfold execProbeRotation
  iterate 60 (all_goals try first
      | with_reducible assumption | intro _ | with_reducible refine Sound2.of (by assumption) ?_
      | with_reducible refine Sound3.of (by assumption) ?_ | with_reducible refine Sound4.of (by assumption) ?_
      | with_reducible refine SoundO.of (by assumption) ?_ | with_reducible refine SoundO2.of (by assumption) ?_
      | with_reducible refine SoundO4.of (by assumption) ?_ | with_reducible refine SoundOut.of (by assumption) ?_
      | with_reducible apply State.rotateProbe_sound | with_reducible apply SoundOut.next
      | (extract_lets +onlyGivenNames s1; first | (refine Sound.cut (was := was) (u := s1) ?_ ?_; rotate_left; (intro hs1; clear_value s1); rotate_left; subst s1) | skip))

theorem execSpareTestDone_sound {was : State} {g : Fin 480} {dir : Fin 2} {s : State} (hs : Sound was s) :
    SoundOut was (execSpareTestDone g dir s) := by
  unfold execSpareTestDone
  iterate 60 (all_goals try first
      | with_reducible assumption | intro _ | with_reducible refine Sound2.of (by assumption) ?_
      | with_reducible refine Sound3.of (by assumption) ?_ | with_reducible refine Sound4.of (by assumption) ?_
      | with_reducible refine SoundO.of (by assumption) ?_ | with_reducible refine SoundO2.of (by assumption) ?_
      | with_reducible refine SoundO4.of (by assumption) ?_ | with_reducible refine SoundOut.of (by assumption) ?_
      | with_reducible apply State.setXg_sound | with_reducible apply State.markSpare_sound
      | with_reducible apply State.syncSpares_sound | with_reducible apply State.judgeFailed_sound
      | with_reducible apply SoundOut.next | with_reducible apply SoundO.none_ | with_reducible apply SoundO.some_
      | with_reducible apply SoundO2.none_ | with_reducible apply SoundO2.some_ | with_reducible apply SoundO4.none_
      | with_reducible apply SoundO4.some_ | with_reducible apply Sound.ite | with_reducible apply SoundOut.ite
      | with_reducible apply Sound2.ite | with_reducible apply Sound3.ite | with_reducible apply SoundO.ite
      | with_reducible apply Sound.foldl | with_reducible apply Sound2.foldl
      | (extract_lets +onlyGivenNames s1; first | (refine Sound.cut (was := was) (u := s1) ?_ ?_; rotate_left; (intro hs1; clear_value s1); rotate_left; subst s1) | skip)
      | with_reducible refine Sound4.last ?_ | with_reducible refine Sound3.last ?_
      | with_reducible refine Sound2.snd ?_ | split)

theorem execTransientParityFailure_sound {was : State} {g : Fin 480} {dir : Fin 2} {s : State} (hs : Sound was s) :
    SoundOut was (execTransientParityFailure g dir s) := by
  unfold execTransientParityFailure
  iterate 20 (all_goals try first
      | with_reducible assumption | intro _ | with_reducible apply State.setXg_sound
      | with_reducible apply State.raise_sound | with_reducible apply SoundOut.next | with_reducible apply Sound.ite
      | with_reducible apply SoundOut.ite)

theorem execHoldRequest_sound {was : State} {g : Fin 480} {dir : Fin 2} {s : State} (hs : Sound was s) :
    SoundOut was (execHoldRequest g dir s) := by
  unfold execHoldRequest
  iterate 60 (all_goals try first
      | with_reducible assumption | intro _ | with_reducible refine Sound2.of (by assumption) ?_
      | with_reducible refine Sound3.of (by assumption) ?_ | with_reducible refine Sound4.of (by assumption) ?_
      | with_reducible refine SoundO.of (by assumption) ?_ | with_reducible refine SoundO2.of (by assumption) ?_
      | with_reducible refine SoundO4.of (by assumption) ?_ | with_reducible refine SoundOut.of (by assumption) ?_
      | with_reducible apply State.setXg_sound | with_reducible apply State.raise_sound
      | with_reducible apply SoundOut.next | with_reducible apply SoundO.none_ | with_reducible apply SoundO.some_
      | with_reducible apply SoundO2.none_ | with_reducible apply SoundO2.some_ | with_reducible apply SoundO4.none_
      | with_reducible apply SoundO4.some_ | with_reducible apply Sound.ite | with_reducible apply SoundOut.ite
      | with_reducible apply Sound2.ite | with_reducible apply Sound3.ite | with_reducible apply SoundO.ite
      | with_reducible apply Sound.foldl | with_reducible apply Sound2.foldl
      | (extract_lets +onlyGivenNames s1; first | (refine Sound.cut (was := was) (u := s1) ?_ ?_; rotate_left; (intro hs1; clear_value s1); rotate_left; subst s1) | skip)
      | with_reducible refine Sound4.last ?_ | with_reducible refine Sound3.last ?_
      | with_reducible refine Sound2.snd ?_ | split)

theorem execProbeSubstitute_sound {was : State} {g : Fin 480} {dir : Fin 2} {s : State} (hs : Sound was s) :
    SoundOut was (execProbeSubstitute g dir s) := by
  unfold execProbeSubstitute
  iterate 50 (all_goals try first
      | with_reducible assumption | intro _ | with_reducible apply State.setXg_sound
      | with_reducible apply State.put_sound | with_reducible apply SoundOut.next | with_reducible apply Sound.ite
      | with_reducible apply SoundOut.ite | with_reducible apply Sound.foldl
      | (extract_lets +onlyGivenNames s1; first | (refine Sound.cut (was := was) (u := s1) ?_ ?_; rotate_left; (intro hs1; clear_value s1); rotate_left; subst s1) | skip)
      | split)

theorem State.shiftGroup_sound {was : State} {s : State} {g dir sig : Nat} (hs : Sound was s) :
    Sound was (State.shiftGroup s g dir sig) := by
  unfold State.shiftGroup
  iterate 8 (all_goals try first
      | with_reducible assumption | with_reducible apply State.setXg_sound | with_reducible apply State.put_sound
      | with_reducible apply State.syncSpares_sound | with_reducible apply State.logEv_sound)

theorem execLiveShift_sound {was : State} {g : Fin 480} {dir : Fin 2} {s : State} (hs : Sound was s) :
    SoundOut was (execLiveShift g dir s) := by
  unfold execLiveShift
  iterate 60 (all_goals try first
      | with_reducible assumption | intro _ | with_reducible refine Sound2.of (by assumption) ?_
      | with_reducible refine Sound3.of (by assumption) ?_ | with_reducible refine Sound4.of (by assumption) ?_
      | with_reducible refine SoundO.of (by assumption) ?_ | with_reducible refine SoundO2.of (by assumption) ?_
      | with_reducible refine SoundO4.of (by assumption) ?_ | with_reducible refine SoundOut.of (by assumption) ?_
      | with_reducible apply State.shiftGroup_sound | with_reducible apply State.raise_sound
      | with_reducible apply SoundOut.next | with_reducible apply SoundO.none_ | with_reducible apply SoundO.some_
      | with_reducible apply SoundO2.none_ | with_reducible apply SoundO2.some_ | with_reducible apply SoundO4.none_
      | with_reducible apply SoundO4.some_ | with_reducible apply Sound.ite | with_reducible apply SoundOut.ite
      | with_reducible apply Sound2.ite | with_reducible apply Sound3.ite | with_reducible apply SoundO.ite
      | with_reducible apply Sound.foldl | with_reducible apply Sound2.foldl
      | (extract_lets +onlyGivenNames s1; first | (refine Sound.cut (was := was) (u := s1) ?_ ?_; rotate_left; (intro hs1; clear_value s1); rotate_left; subst s1) | skip)
      | with_reducible refine Sound4.last ?_ | with_reducible refine Sound3.last ?_
      | with_reducible refine Sound2.snd ?_ | split)

theorem State.xinjWrite_sound {was : State} {s : State} {w : Word32} (hs : Sound was s) :
    Sound was (State.xinjWrite s w) := by
  unfold State.xinjWrite
  iterate 8 (all_goals try first
      | with_reducible assumption | with_reducible apply State.writeReg_sound)

theorem execCrossingInject_sound {was : State} {src : Src} {w : Word32} {s : State} (hs : Sound was s) :
    SoundOut was (execCrossingInject src w s) := by
  unfold execCrossingInject
  iterate 60 (all_goals try first
      | with_reducible assumption | intro _ | with_reducible refine Sound2.of (by assumption) ?_
      | with_reducible refine Sound3.of (by assumption) ?_ | with_reducible refine Sound4.of (by assumption) ?_
      | with_reducible refine SoundO.of (by assumption) ?_ | with_reducible refine SoundO2.of (by assumption) ?_
      | with_reducible refine SoundO4.of (by assumption) ?_ | with_reducible refine SoundOut.of (by assumption) ?_
      | with_reducible apply State.regAct_sound | with_reducible apply State.xinjWrite_sound
      | with_reducible apply SoundOut.next
      | (extract_lets +onlyGivenNames s1; first | (refine Sound.cut (was := was) (u := s1) ?_ ?_; rotate_left; (intro hs1; clear_value s1); rotate_left; subst s1) | skip))

theorem State.xgcntRead_sound {was : State} {s : State} {src : Src} {g dir : Nat} (hs : Sound was s) :
    Sound2 was (State.xgcntRead s src g dir) := by
  unfold State.xgcntRead
  iterate 20 (all_goals try first
      | with_reducible assumption | intro _ | with_reducible apply State.put_sound | with_reducible apply Sound.ite
      | with_reducible apply Sound2.ite | with_reducible apply Sound.foldl | split | with_reducible apply Sound2.pair)

theorem execXgcntRead_sound {was : State} {src : Src} {g : Fin 480} {dir : Fin 2} {s : State} (hs : Sound was s) :
    SoundOut was (execXgcntRead src g dir s) := by
  unfold execXgcntRead
  iterate 50 (all_goals try first
      | with_reducible assumption | intro _ | with_reducible refine Sound2.of (by assumption) ?_
      | with_reducible apply State.xgcntRead_sound | with_reducible apply State.answerWord_sound
      | with_reducible apply SoundOut.next | with_reducible apply Sound.ite | with_reducible apply SoundOut.ite
      | with_reducible apply Sound2.ite | with_reducible apply Sound.foldl
      | (extract_lets +onlyGivenNames s1; first | (refine Sound.cut (was := was) (u := s1) ?_ ?_; rotate_left; (intro hs1; clear_value s1); rotate_left; subst s1) | skip)
      | with_reducible refine Sound2.snd ?_)

theorem State.setLink_sound {was : State} {s : State} {l : Nat} {x : LinkSt} (hs : Sound was s) :
    Sound was (State.setLink s l x) := by
  unfold State.setLink
  iterate 8 (all_goals try first
      | with_reducible assumption | with_reducible refine Sound.mk_ ?_ rfl rfl)

theorem State.launch_sound {was : State} {s : State} {l : Nat} {bits : BitVec 672} {seq : Nat} {kind : Nat} {nak : Bool} (hs : Sound was s) :
    Sound was (State.launch s l bits seq kind nak) := by
  unfold State.launch
  iterate 60 (all_goals try first
      | with_reducible assumption | intro _ | with_reducible refine Sound2.of (by assumption) ?_
      | with_reducible refine Sound3.of (by assumption) ?_ | with_reducible refine Sound4.of (by assumption) ?_
      | with_reducible refine SoundO.of (by assumption) ?_ | with_reducible refine SoundO2.of (by assumption) ?_
      | with_reducible refine SoundO4.of (by assumption) ?_ | with_reducible refine SoundOut.of (by assumption) ?_
      | with_reducible apply State.setLink_sound | with_reducible apply State.emit_sound
      | with_reducible apply SoundOut.next | with_reducible apply SoundO.none_ | with_reducible apply SoundO.some_
      | with_reducible apply SoundO2.none_ | with_reducible apply SoundO2.some_ | with_reducible apply SoundO4.none_
      | with_reducible apply SoundO4.some_ | with_reducible apply Sound.ite | with_reducible apply SoundOut.ite
      | with_reducible apply Sound2.ite | with_reducible apply Sound3.ite | with_reducible apply SoundO.ite
      | with_reducible apply Sound.foldl | with_reducible apply Sound2.foldl
      | (extract_lets +onlyGivenNames s1; first | (refine Sound.cut (was := was) (u := s1) ?_ ?_; rotate_left; (intro hs1; clear_value s1); rotate_left; subst s1) | skip)
      | with_reducible refine Sound4.last ?_ | with_reducible refine Sound3.last ?_
      | with_reducible refine Sound2.snd ?_ | split)

theorem State.resend_sound {was : State} {s : State} {l : Nat} {seq : Nat} (hs : Sound was s) :
    Sound was (State.resend s l seq) := by
  unfold State.resend
  iterate 60 (all_goals try first
      | with_reducible assumption | intro _ | with_reducible refine Sound2.of (by assumption) ?_
      | with_reducible refine Sound3.of (by assumption) ?_ | with_reducible refine Sound4.of (by assumption) ?_
      | with_reducible refine SoundO.of (by assumption) ?_ | with_reducible refine SoundO2.of (by assumption) ?_
      | with_reducible refine SoundO4.of (by assumption) ?_ | with_reducible refine SoundOut.of (by assumption) ?_
      | with_reducible apply State.launch_sound | with_reducible apply SoundOut.next
      | with_reducible apply SoundO.none_ | with_reducible apply SoundO.some_ | with_reducible apply SoundO2.none_
      | with_reducible apply SoundO2.some_ | with_reducible apply SoundO4.none_ | with_reducible apply SoundO4.some_
      | with_reducible apply Sound.ite | with_reducible apply SoundOut.ite | with_reducible apply Sound2.ite
      | with_reducible apply Sound3.ite | with_reducible apply SoundO.ite | with_reducible apply Sound.foldl
      | (extract_lets +onlyGivenNames s1; first | (refine Sound.cut (was := was) (u := s1) ?_ ?_; rotate_left; (intro hs1; clear_value s1); rotate_left; subst s1) | skip))

theorem State.retireGroup_sound {was : State} {s : State} {g : Nat} {dir : Nat} (hs : Sound was s) :
    Sound was (State.retireGroup s g dir) := by
  unfold State.retireGroup
  iterate 60 (all_goals try first
      | with_reducible assumption | intro _ | with_reducible refine Sound2.of (by assumption) ?_
      | with_reducible refine Sound3.of (by assumption) ?_ | with_reducible refine Sound4.of (by assumption) ?_
      | with_reducible refine SoundO.of (by assumption) ?_ | with_reducible refine SoundO2.of (by assumption) ?_
      | with_reducible refine SoundO4.of (by assumption) ?_ | with_reducible refine SoundOut.of (by assumption) ?_
      | with_reducible apply State.raise_sound | with_reducible apply State.put_sound
      | with_reducible apply State.logEv_sound | with_reducible apply State.resend_sound
      | with_reducible apply SoundOut.next | with_reducible apply SoundO.none_ | with_reducible apply SoundO.some_
      | with_reducible apply SoundO2.none_ | with_reducible apply SoundO2.some_ | with_reducible apply SoundO4.none_
      | with_reducible apply SoundO4.some_ | with_reducible apply Sound.ite | with_reducible apply SoundOut.ite
      | with_reducible apply Sound2.ite | with_reducible apply Sound3.ite | with_reducible apply SoundO.ite
      | with_reducible apply Sound.foldl | with_reducible apply Sound2.foldl
      | (extract_lets +onlyGivenNames s1; first | (refine Sound.cut (was := was) (u := s1) ?_ ?_; rotate_left; (intro hs1; clear_value s1); rotate_left; subst s1) | skip)
      | with_reducible refine Sound4.last ?_ | with_reducible refine Sound3.last ?_
      | with_reducible refine Sound2.snd ?_ | split)

theorem State.flitReturns_sound {was : State} {s : State} {l : Nat} {f : BitVec 768} (hs : Sound was s) :
    Sound was (State.flitReturns s l f) := by
  unfold State.flitReturns
  iterate 60 (all_goals try first
      | with_reducible assumption | intro _ | with_reducible refine Sound2.of (by assumption) ?_
      | with_reducible refine Sound3.of (by assumption) ?_ | with_reducible refine Sound4.of (by assumption) ?_
      | with_reducible refine SoundO.of (by assumption) ?_ | with_reducible refine SoundO2.of (by assumption) ?_
      | with_reducible refine SoundO4.of (by assumption) ?_ | with_reducible refine SoundOut.of (by assumption) ?_
      | with_reducible apply State.setLink_sound | with_reducible apply State.resend_sound
      | with_reducible apply SoundOut.next | with_reducible apply SoundO.none_ | with_reducible apply SoundO.some_
      | with_reducible apply SoundO2.none_ | with_reducible apply SoundO2.some_ | with_reducible apply SoundO4.none_
      | with_reducible apply SoundO4.some_ | with_reducible apply Sound.ite | with_reducible apply SoundOut.ite
      | with_reducible apply Sound2.ite | with_reducible apply Sound3.ite | with_reducible apply SoundO.ite
      | with_reducible apply Sound.foldl | with_reducible apply Sound2.foldl
      | (extract_lets +onlyGivenNames s1; first | (refine Sound.cut (was := was) (u := s1) ?_ ?_; rotate_left; (intro hs1; clear_value s1); rotate_left; subst s1) | skip)
      | with_reducible refine Sound4.last ?_ | with_reducible refine Sound3.last ?_
      | with_reducible refine Sound2.snd ?_ | split)

theorem State.deliverFlit_sound {was : State} {s : State} {l : Nat} {bits : BitVec 672} (hs : Sound was s) :
    Sound was (State.deliverFlit s l bits) := by
  unfold State.deliverFlit
  iterate 60 (all_goals try first
      | with_reducible assumption | intro _ | with_reducible refine Sound2.of (by assumption) ?_
      | with_reducible refine Sound3.of (by assumption) ?_ | with_reducible refine Sound4.of (by assumption) ?_
      | with_reducible refine SoundO.of (by assumption) ?_ | with_reducible refine SoundO2.of (by assumption) ?_
      | with_reducible refine SoundO4.of (by assumption) ?_ | with_reducible refine SoundOut.of (by assumption) ?_
      | with_reducible apply State.setLink_sound | with_reducible apply State.arriveFlit_sound
      | (extract_lets +onlyGivenNames s1; first | (refine Sound.cut (was := was) (u := s1) ?_ ?_; rotate_left; (intro hs1; clear_value s1); rotate_left; subst s1) | skip))

theorem State.deliverEarly_sound {was : State} {s : State} {l x0 : Nat} (hs : Sound was s) :
    Sound was (State.deliverEarly s l x0) := by
  induction x0 generalizing s with
  | zero => exact hs
  | succ n ih =>
    unfold State.deliverEarly
    extract_lets x
    split
    · exact ih (State.deliverFlit_sound (State.setLink_sound hs))
    · exact hs

theorem execFlitReceive_sound {was : State} {g : Fin 480} {dir : Fin 2} {flit : BitVec 768} {uiBad : BitVec 16} {s : State} (hs : Sound was s) :
    SoundOut was (execFlitReceive g dir flit uiBad s) := by
  unfold execFlitReceive
  iterate 60 (all_goals try first
      | with_reducible assumption | intro _ | with_reducible refine Sound2.of (by assumption) ?_
      | with_reducible refine Sound3.of (by assumption) ?_ | with_reducible refine Sound4.of (by assumption) ?_
      | with_reducible refine SoundO.of (by assumption) ?_ | with_reducible refine SoundO2.of (by assumption) ?_
      | with_reducible refine SoundO4.of (by assumption) ?_ | with_reducible refine SoundOut.of (by assumption) ?_
      | with_reducible apply State.countUp_sound | with_reducible apply State.bucket_sound
      | with_reducible apply State.setXg_sound | with_reducible apply State.launch_sound
      | with_reducible apply State.retireGroup_sound | with_reducible apply State.shiftGroup_sound
      | with_reducible apply State.flitReturns_sound | with_reducible apply State.deliverFlit_sound
      | with_reducible apply State.deliverEarly_sound | with_reducible apply State.setLink_sound
      | with_reducible apply SoundOut.next | with_reducible apply SoundO.none_ | with_reducible apply SoundO.some_
      | with_reducible apply SoundO2.none_ | with_reducible apply SoundO2.some_ | with_reducible apply SoundO4.none_
      | with_reducible apply SoundO4.some_ | with_reducible apply Sound.ite | with_reducible apply SoundOut.ite
      | with_reducible apply Sound2.ite | with_reducible apply Sound3.ite | with_reducible apply SoundO.ite
      | with_reducible apply Sound.foldl | with_reducible apply Sound2.foldl
      | (extract_lets +onlyGivenNames s1; first | (refine Sound.cut (was := was) (u := s1) ?_ ?_; rotate_left; (intro hs1; clear_value s1); rotate_left; subst s1) | skip)
      | with_reducible refine Sound4.last ?_ | with_reducible refine Sound3.last ?_
      | with_reducible refine Sound2.snd ?_ | split)

theorem execFlitReplay_sound {was : State} {link : Fin 20} {seq : BitVec 12} {s : State} (hs : Sound was s) :
    SoundOut was (execFlitReplay link seq s) := by
  unfold execFlitReplay
  iterate 60 (all_goals try first
      | with_reducible assumption | intro _ | with_reducible refine Sound2.of (by assumption) ?_
      | with_reducible refine Sound3.of (by assumption) ?_ | with_reducible refine Sound4.of (by assumption) ?_
      | with_reducible refine SoundO.of (by assumption) ?_ | with_reducible refine SoundO2.of (by assumption) ?_
      | with_reducible refine SoundO4.of (by assumption) ?_ | with_reducible refine SoundOut.of (by assumption) ?_
      | with_reducible apply State.setLink_sound | with_reducible apply State.resend_sound
      | with_reducible apply SoundOut.next
      | (extract_lets +onlyGivenNames s1; first | (refine Sound.cut (was := was) (u := s1) ?_ ?_; rotate_left; (intro hs1; clear_value s1); rotate_left; subst s1) | skip))

theorem State.sendFlit_sound {was : State} {s : State} {l : Nat} {bits : BitVec 672} (hs : Sound was s) :
    Sound was (State.sendFlit s l bits) := by
  unfold State.sendFlit
  iterate 60 (all_goals try first
      | with_reducible assumption | intro _ | with_reducible refine Sound2.of (by assumption) ?_
      | with_reducible refine Sound3.of (by assumption) ?_ | with_reducible refine Sound4.of (by assumption) ?_
      | with_reducible refine SoundO.of (by assumption) ?_ | with_reducible refine SoundO2.of (by assumption) ?_
      | with_reducible refine SoundO4.of (by assumption) ?_ | with_reducible refine SoundOut.of (by assumption) ?_
      | with_reducible apply State.setLink_sound | with_reducible apply State.launch_sound
      | (extract_lets +onlyGivenNames s1; first | (refine Sound.cut (was := was) (u := s1) ?_ ?_; rotate_left; (intro hs1; clear_value s1); rotate_left; subst s1) | skip))

theorem execPacketShift_sound {was : State} {g : Fin 480} {dir : Fin 2} {seq : BitVec 12} {s : State} (hs : Sound was s) :
    SoundOut was (execPacketShift g dir seq s) := by
  unfold execPacketShift
  iterate 60 (all_goals try first
      | with_reducible assumption | intro _ | with_reducible refine Sound2.of (by assumption) ?_
      | with_reducible refine Sound3.of (by assumption) ?_ | with_reducible refine Sound4.of (by assumption) ?_
      | with_reducible refine SoundO.of (by assumption) ?_ | with_reducible refine SoundO2.of (by assumption) ?_
      | with_reducible refine SoundO4.of (by assumption) ?_ | with_reducible refine SoundOut.of (by assumption) ?_
      | with_reducible apply State.setXg_sound | with_reducible apply State.put_sound
      | with_reducible apply State.retireGroup_sound | with_reducible apply State.raise_sound
      | with_reducible apply SoundOut.next | with_reducible apply SoundO.none_ | with_reducible apply SoundO.some_
      | with_reducible apply SoundO2.none_ | with_reducible apply SoundO2.some_ | with_reducible apply SoundO4.none_
      | with_reducible apply SoundO4.some_ | with_reducible apply Sound.ite | with_reducible apply SoundOut.ite
      | (extract_lets +onlyGivenNames s1; first | (refine Sound.cut (was := was) (u := s1) ?_ ?_; rotate_left; (intro hs1; clear_value s1); rotate_left; subst s1) | skip))

theorem State.xgResume_sound {was : State} {s : State} (hs : Sound was s) :
    Sound was (State.xgResume s) := by
  unfold State.xgResume
  iterate 20 (all_goals try first
      | with_reducible assumption | intro _ | with_reducible apply State.setXg_sound
      | with_reducible apply State.put_sound | with_reducible apply Sound.ite | with_reducible apply Sound.foldl)

end Sys2Proof.Machine
end

