-- ==== Sys2Proof/Laws/SoundNoc.lean ====
section
/-!
SUPPORT. Sys2Proof/Laws/SoundNoc.lean: the operations of Machine/Noc.lean keep what Sound says.
-/

namespace Sys2Proof.Machine

theorem State.setArbiter_sound {was : State} {s : State} {r : Nat} {port : Nat} {x : ArbSt} (hs : Sound was s) :
    Sound was (State.setArbiter s r port x) := by
  unfold State.setArbiter
  iterate 60 (all_goals try first
      | with_reducible assumption | intro _ | with_reducible refine Sound2.of (by assumption) ?_
      | with_reducible refine Sound3.of (by assumption) ?_ | with_reducible refine Sound4.of (by assumption) ?_
      | with_reducible refine SoundO.of (by assumption) ?_ | with_reducible refine SoundO2.of (by assumption) ?_
      | with_reducible refine SoundO4.of (by assumption) ?_ | with_reducible refine SoundOut.of (by assumption) ?_
      | with_reducible apply SoundOut.next | with_reducible apply SoundO.none_ | with_reducible apply SoundO.some_
      | with_reducible apply SoundO2.none_ | with_reducible apply SoundO2.some_ | with_reducible apply SoundO4.none_
      | with_reducible apply SoundO4.some_ | with_reducible apply Sound.ite | with_reducible apply SoundOut.ite
      | with_reducible apply Sound2.ite | with_reducible apply Sound3.ite | with_reducible apply SoundO.ite
      | with_reducible apply Sound.foldl | with_reducible apply Sound2.foldl
      | (extract_lets +onlyGivenNames s1; first | (refine Sound.cut (was := was) (u := s1) ?_ ?_; rotate_left; (intro hs1; clear_value s1); rotate_left; subst s1) | skip)
      | with_reducible refine Sound4.last ?_ | with_reducible refine Sound3.last ?_
      | with_reducible refine Sound2.snd ?_ | split | with_reducible apply Sound2.pair
      | with_reducible apply Sound3.pair | with_reducible apply Sound4.pair
      | with_reducible refine Sound.mk_ ?_ rfl rfl)

theorem State.moveFlit_sound {was : State} {s : State} {r : Nat} {port : Nat} {f : WaitFlit} (hs : Sound was s) :
    Sound was (State.moveFlit s r port f) := by
  unfold State.moveFlit
  iterate 60 (all_goals try first
      | with_reducible assumption | intro _ | with_reducible refine Sound2.of (by assumption) ?_
      | with_reducible refine Sound3.of (by assumption) ?_ | with_reducible refine Sound4.of (by assumption) ?_
      | with_reducible refine SoundO.of (by assumption) ?_ | with_reducible refine SoundO2.of (by assumption) ?_
      | with_reducible refine SoundO4.of (by assumption) ?_ | with_reducible refine SoundOut.of (by assumption) ?_
      | with_reducible apply State.probe_sound | with_reducible apply State.freeBuffer_sound
      | with_reducible apply State.arriveFlit_sound | with_reducible apply State.sendFlit_sound
      | with_reducible apply State.emit_sound | with_reducible apply SoundOut.next | with_reducible apply SoundO.none_
      | with_reducible apply SoundO.some_ | with_reducible apply SoundO2.none_ | with_reducible apply SoundO2.some_
      | with_reducible apply SoundO4.none_ | with_reducible apply SoundO4.some_ | with_reducible apply Sound.ite
      | with_reducible apply SoundOut.ite | with_reducible apply Sound2.ite | with_reducible apply Sound3.ite
      | with_reducible apply SoundO.ite | with_reducible apply Sound.foldl | with_reducible apply Sound2.foldl
      | (extract_lets +onlyGivenNames s1; first | (refine Sound.cut (was := was) (u := s1) ?_ ?_; rotate_left; (intro hs1; clear_value s1); rotate_left; subst s1) | skip)
      | with_reducible refine Sound4.last ?_ | with_reducible refine Sound3.last ?_
      | with_reducible refine Sound2.snd ?_ | split)

theorem State.outputCycle_sound {was : State} {s : State} {r port : Nat} {credit : BitVec 8} (hs : Sound was s) :
    Sound was (State.outputCycle s r port credit) := by
  unfold State.outputCycle
  extract_lets fs a took rest s1
  have h : Sound was s1 := State.setWaiting_sound (State.setArbiter_sound hs)
  clear_value s1 took
  split
  · exact State.moveFlit_sound h
  · exact Sound.ite (Sound.foldl (fun _ _ k => Sound.ite k (State.launch_sound k)) h) h

theorem execRouterForward_sound {was : State} {r : Fin 116} {port : Fin 8} {arrive : Option RouterFlit} {credit : BitVec 8} {s : State} (hs : Sound was s) :
    SoundOut was (execRouterForward r port arrive credit s) := by
  unfold execRouterForward
  iterate 60 (all_goals try first
      | with_reducible assumption | intro _ | with_reducible refine Sound2.of (by assumption) ?_
      | with_reducible refine Sound3.of (by assumption) ?_ | with_reducible refine Sound4.of (by assumption) ?_
      | with_reducible refine SoundO.of (by assumption) ?_ | with_reducible refine SoundO2.of (by assumption) ?_
      | with_reducible refine SoundO4.of (by assumption) ?_ | with_reducible refine SoundOut.of (by assumption) ?_
      | with_reducible apply State.arriveFlit_sound | with_reducible apply State.outputCycle_sound
      | with_reducible apply SoundOut.next | with_reducible apply SoundO.none_ | with_reducible apply SoundO.some_
      | with_reducible apply SoundO2.none_ | with_reducible apply SoundO2.some_ | with_reducible apply SoundO4.none_
      | with_reducible apply SoundO4.some_ | with_reducible apply Sound.ite | with_reducible apply SoundOut.ite
      | with_reducible apply Sound2.ite | with_reducible apply Sound3.ite | with_reducible apply SoundO.ite
      | with_reducible apply Sound.foldl | with_reducible apply Sound2.foldl
      | (extract_lets +onlyGivenNames s1; first | (refine Sound.cut (was := was) (u := s1) ?_ ?_; rotate_left; (intro hs1; clear_value s1); rotate_left; subst s1) | skip)
      | with_reducible refine Sound4.last ?_ | with_reducible refine Sound3.last ?_
      | with_reducible refine Sound2.snd ?_ | split)

theorem State.traceClear_sound {was : State} {s : State} {r : Nat} (hs : Sound was s) :
    Sound was (State.traceClear s r) := by
  unfold State.traceClear
  iterate 8 (all_goals try first
      | with_reducible assumption | with_reducible apply State.setTrace_sound)

theorem execTraceClear_sound {was : State} {src : Src} {r : Fin 116} {s : State} (hs : Sound was s) :
    SoundOut was (execTraceClear src r s) := by
  unfold execTraceClear
  iterate 60 (all_goals try first
      | with_reducible assumption | intro _ | with_reducible refine Sound2.of (by assumption) ?_
      | with_reducible refine Sound3.of (by assumption) ?_ | with_reducible refine Sound4.of (by assumption) ?_
      | with_reducible refine SoundO.of (by assumption) ?_ | with_reducible refine SoundO2.of (by assumption) ?_
      | with_reducible refine SoundO4.of (by assumption) ?_ | with_reducible refine SoundOut.of (by assumption) ?_
      | with_reducible apply State.regAct_sound | with_reducible apply State.traceClear_sound
      | with_reducible apply SoundOut.next
      | (extract_lets +onlyGivenNames s1; first | (refine Sound.cut (was := was) (u := s1) ?_ ?_; rotate_left; (intro hs1; clear_value s1); rotate_left; subst s1) | skip))

theorem State.probeCountRead_sound {was : State} {s : State} {src : Src} {r k : Nat} (hs : Sound was s) :
    Sound2 was (State.probeCountRead s src r k) := by
  unfold State.probeCountRead
  iterate 20 (all_goals try first
      | with_reducible assumption | intro _ | with_reducible apply State.setReg_sound | with_reducible apply Sound.ite
      | with_reducible apply Sound2.ite | with_reducible apply Sound.foldl | split | with_reducible apply Sound2.pair)

theorem execProbeCountRead_sound {was : State} {src : Src} {r : Fin 116} {k : Fin 4} {s : State} (hs : Sound was s) :
    SoundOut was (execProbeCountRead src r k s) := by
  unfold execProbeCountRead
  iterate 50 (all_goals try first
      | with_reducible assumption | intro _ | with_reducible refine Sound2.of (by assumption) ?_
      | with_reducible apply State.probeCountRead_sound | with_reducible apply State.answerWord_sound
      | with_reducible apply SoundOut.next | with_reducible apply Sound.ite | with_reducible apply SoundOut.ite
      | with_reducible apply Sound2.ite | with_reducible apply Sound.foldl
      | (extract_lets +onlyGivenNames s1; first | (refine Sound.cut (was := was) (u := s1) ?_ ?_; rotate_left; (intro hs1; clear_value s1); rotate_left; subst s1) | skip)
      | with_reducible refine Sound2.snd ?_)

theorem execRouteDrainStart_sound {was : State} {s : State} (hs : Sound was s) :
    SoundOut was (execRouteDrainStart s) := by
  unfold execRouteDrainStart
  iterate 20 (all_goals try first
      | with_reducible assumption | intro _ | with_reducible apply SoundOut.next | with_reducible apply Sound.ite
      | with_reducible apply SoundOut.ite | with_reducible apply Sound.foldl | split
      | with_reducible refine Sound.mk_ ?_ rfl rfl)

theorem execRouteSwitch_sound {was : State} {s : State} (hs : Sound was s) :
    SoundOut was (execRouteSwitch s) := by
  unfold execRouteSwitch
  iterate 20 (all_goals try first
      | with_reducible assumption | intro _ | with_reducible apply SoundOut.next | with_reducible apply Sound.ite
      | with_reducible apply SoundOut.ite | with_reducible apply Sound.foldl | split
      | with_reducible refine Sound.mk_ ?_ rfl rfl)

theorem State.histRecord_sound {was : State} {s : State} {h v : Nat} (hs : Sound was s) :
    Sound was (State.histRecord s h v) := by
  unfold State.histRecord
  iterate 20 (all_goals try first
      | with_reducible assumption | intro _ | with_reducible apply State.countUp_sound
      | with_reducible apply State.put_sound | with_reducible apply Sound.ite)

theorem State.histClear_sound {was : State} {s : State} {h : Nat} (hs : Sound was s) :
    Sound was (State.histClear s h) := by
  unfold State.histClear
  iterate 20 (all_goals try first
      | with_reducible assumption | intro _ | with_reducible apply State.setReg_sound | with_reducible apply Sound.ite
      | with_reducible apply Sound.foldl)

theorem State.histConfig_sound {was : State} {s : State} {h : Nat} {w : Word32} (hs : Sound was s) :
    Sound was (State.histConfig s h w) := by
  unfold State.histConfig
  iterate 20 (all_goals try first
      | with_reducible assumption | intro _ | with_reducible apply State.writeReg_sound
      | with_reducible apply State.histClear_sound | with_reducible apply Sound.ite)

theorem execHistogramClear_sound {was : State} {src : Src} {h : Fin 16} {w : Word32} {s : State} (hs : Sound was s) :
    SoundOut was (execHistogramClear src h w s) := by
  unfold execHistogramClear
  iterate 60 (all_goals try first
      | with_reducible assumption | intro _ | with_reducible refine Sound2.of (by assumption) ?_
      | with_reducible refine Sound3.of (by assumption) ?_ | with_reducible refine Sound4.of (by assumption) ?_
      | with_reducible refine SoundO.of (by assumption) ?_ | with_reducible refine SoundO2.of (by assumption) ?_
      | with_reducible refine SoundO4.of (by assumption) ?_ | with_reducible refine SoundOut.of (by assumption) ?_
      | with_reducible apply State.regAct_sound | with_reducible apply State.histConfig_sound
      | with_reducible apply SoundOut.next
      | (extract_lets +onlyGivenNames s1; first | (refine Sound.cut (was := was) (u := s1) ?_ ?_; rotate_left; (intro hs1; clear_value s1); rotate_left; subst s1) | skip))

theorem State.histLatency_sound {was : State} {s : State} {m : Nat} {write : Bool} {ns : Nat} (hs : Sound was s) :
    Sound was (State.histLatency s m write ns) := by
  unfold State.histLatency
  iterate 20 (all_goals try first
      | with_reducible assumption | intro _ | with_reducible apply State.histRecord_sound
      | with_reducible apply Sound.ite | with_reducible apply Sound.foldl)

theorem execHistogramLevelSample_sound {was : State} {h : Fin 16} {measured : Nat} {s : State} (hs : Sound was s) :
    SoundOut was (execHistogramLevelSample h measured s) := by
  unfold execHistogramLevelSample
  iterate 20 (all_goals try first
      | with_reducible assumption | intro _ | with_reducible apply State.histRecord_sound
      | with_reducible apply SoundOut.next | with_reducible apply Sound.ite | with_reducible apply SoundOut.ite
      | with_reducible apply Sound.foldl | split)

theorem State.send_sound {was : State} {s : State} {r : Req} (hs : Sound was s) : Sound was (State.send s r) := by
  unfold State.send
  split
  · have h := (State.pinj_sound (r := r) hs).last
    generalize s.pinj r = p at h
    obtain ⟨_, _, s1⟩ := p
    exact State.emit_sound h
  · exact Sound.mk_ hs rfl rfl

theorem State.nocResume_sound {was : State} {s : State} (hs : Sound was s) : Sound was (State.nocResume s) := by
  unfold State.nocResume
  split
  · exact Sound.foldl (fun _ _ h => State.send_sound h) (Sound.mk_ hs rfl rfl)
  · exact hs

theorem State.inject_sound {was : State} {s : State} {r : Req} (hs : Sound was s) :
    Sound was (State.inject s r) := by
  unfold State.inject
  exact State.send_sound (State.setTag_sound hs)

theorem execNocRequestInject_sound {was : State} {r : Req} {panic : Bool} {s : State} (hs : Sound was s) :
    SoundOut was (execNocRequestInject r panic s) := by
  unfold execNocRequestInject
  iterate 20 (all_goals try first
      | with_reducible assumption | intro _ | with_reducible apply State.setPanic_sound
      | with_reducible apply State.inject_sound | with_reducible apply SoundOut.next | with_reducible apply Sound.ite
      | with_reducible apply SoundOut.ite)

theorem State.tagDone_sound {was : State} {s : State} {m t : Nat} {x : TagSt} (hs : Sound was s) :
    Sound was (State.tagDone s m t x) := by
  unfold State.tagDone
  iterate 8 (all_goals try first
      | with_reducible assumption | with_reducible apply State.histLatency_sound
      | with_reducible apply State.freeTag_sound)

theorem execTagRelease_sound {was : State} {m : Fin 64} {t : Fin 1024} {s : State} (hs : Sound was s) :
    SoundOut was (execTagRelease m t s) := by
  unfold execTagRelease
  iterate 20 (all_goals try first
      | with_reducible assumption | intro _ | with_reducible apply State.freeTag_sound
      | with_reducible apply SoundOut.next | with_reducible apply Sound.ite | with_reducible apply SoundOut.ite
      | with_reducible apply Sound.foldl | split)

theorem execTargetTimeout_sound {was : State} {r : Req} {s : State} (hs : Sound was s) :
    SoundOut was (execTargetTimeout r s) := by
  unfold execTargetTimeout
  refine SoundOut.ite (SoundOut.next hs) ?_
  split
  · exact SoundOut.next (State.respond_sound (hs.held_ (Nat.le_trans (List.length_filter_le ..) hs.held)))
  · split
    · exact SoundOut.next (State.respond_sound (State.setDie_sound hs))
    · split
      · rename_i h
        exact SoundOut.next (SoundO.of h (State.healTimeout_sound hs))
      · have h := State.queueTimeout_sound (r := r) hs
        generalize State.queueTimeout _ _ = o at h ⊢
        cases o
        · exact SoundOut.next hs
        · exact SoundOut.next (h.all _ rfl)

theorem State.mcfgWrite_sound {was : State} {s : State} {m : Nat} {w : Word32} (hs : Sound was s) :
    Sound was (State.mcfgWrite s m w) := by
  unfold State.mcfgWrite
  iterate 8 (all_goals try first
      | with_reducible assumption | with_reducible apply State.writeReg_sound)

theorem State.mstatRead_sound {was : State} {s : State} {src : Src} {m : Nat} (hs : Sound was s) :
    Sound2 was (State.mstatRead s src m) := by
  unfold State.mstatRead
  iterate 20 (all_goals try first
      | with_reducible assumption | intro _ | with_reducible apply State.put_sound
      | with_reducible apply State.setReg_sound | with_reducible apply Sound.ite | with_reducible apply Sound2.ite
      | with_reducible apply Sound.foldl | split | with_reducible apply Sound2.pair)

theorem execNocMstatRead_sound {was : State} {src : Src} {m : Fin 64} {s : State} (hs : Sound was s) :
    SoundOut was (execNocMstatRead src m s) := by
  unfold execNocMstatRead
  iterate 50 (all_goals try first
      | with_reducible assumption | intro _ | with_reducible refine Sound2.of (by assumption) ?_
      | with_reducible apply State.mstatRead_sound | with_reducible apply State.answerWord_sound
      | with_reducible apply SoundOut.next | with_reducible apply Sound.ite | with_reducible apply SoundOut.ite
      | with_reducible apply Sound2.ite | with_reducible apply Sound.foldl
      | (extract_lets +onlyGivenNames s1; first | (refine Sound.cut (was := was) (u := s1) ?_ ?_; rotate_left; (intro hs1; clear_value s1); rotate_left; subst s1) | skip)
      | with_reducible refine Sound2.snd ?_)

end Sys2Proof.Machine
end

