-- ==== Sys2Proof/Laws/SoundEccLog.lean ====
section
/-!
SUPPORT. Sys2Proof/Laws/SoundEccLog.lean: the operations of Machine/EccLog.lean keep what Sound says.
-/

namespace Sys2Proof.Machine

theorem State.leakBucket_sound {was : State} {s : State} {b : Nat} (hs : Sound was s) :
    Sound was (State.leakBucket s b) := by
  unfold State.leakBucket
  iterate 20 (all_goals try first
      | with_reducible assumption | intro _ | with_reducible apply State.put_sound | with_reducible apply Sound.ite)

theorem execBucketLeak_sound {was : State} {s : State} (hs : Sound was s) :
    SoundOut was (execBucketLeak s) := by
  unfold execBucketLeak
  iterate 20 (all_goals try first
      | with_reducible assumption | intro _ | with_reducible apply State.leakBucket_sound
      | with_reducible apply SoundOut.next | with_reducible apply Sound.ite | with_reducible apply SoundOut.ite
      | with_reducible apply Sound.foldl)

theorem execParityInject_sound {was : State} {src : Src} {w : Word32} {s : State} (hs : Sound was s) :
    SoundOut was (execParityInject src w s) := by
  unfold execParityInject
  iterate 60 (all_goals try first
      | with_reducible assumption | intro _ | with_reducible refine Sound2.of (by assumption) ?_
      | with_reducible refine Sound3.of (by assumption) ?_ | with_reducible refine Sound4.of (by assumption) ?_
      | with_reducible refine SoundO.of (by assumption) ?_ | with_reducible refine SoundO2.of (by assumption) ?_
      | with_reducible refine SoundO4.of (by assumption) ?_ | with_reducible refine SoundOut.of (by assumption) ?_
      | with_reducible apply State.regAct_sound | with_reducible apply State.writeReg_sound
      | with_reducible apply State.put_sound | with_reducible apply SoundOut.next
      | (extract_lets +onlyGivenNames s1; first | (refine Sound.cut (was := was) (u := s1) ?_ ?_; rotate_left; (intro hs1; clear_value s1); rotate_left; subst s1) | skip))

theorem State.setRingCw_sound {was : State} {s : State} {i : Nat} {v : BitVec 72} (hs : Sound was s) :
    Sound was (State.setRingCw s i v) := by
  unfold State.setRingCw
  iterate 8 (all_goals try first
      | with_reducible assumption | with_reducible refine Sound.mk_ ?_ rfl rfl)

theorem State.putEntry_sound {was : State} {s : State} {q : Nat} {bytes : List Byte} (hs : Sound was s) :
    Sound was (State.putEntry s q bytes) := by
  unfold State.putEntry
  iterate 20 (all_goals try first
      | with_reducible assumption | intro _ | with_reducible apply State.setRingCw_sound
      | with_reducible apply Sound.ite | with_reducible apply Sound.foldl)

theorem State.acceptEntry_sound {was : State} {s : State} {e : LogEntry} (hs : Sound was s) :
    Sound was (State.acceptEntry s e) := by
  unfold State.acceptEntry
  iterate 20 (all_goals try first
      | with_reducible assumption | intro _ | with_reducible apply State.countUp_sound
      | with_reducible apply State.putEntry_sound | with_reducible apply State.put_sound
      | with_reducible apply State.interrupt_sound | with_reducible apply Sound.ite)

theorem execLogEntryAccept_sound {was : State} {s : State} (hs : Sound was s) : SoundOut was (execLogEntryAccept s) := by
  unfold execLogEntryAccept
  split
  · exact SoundOut.next hs
  · rename_i e t h
    exact SoundOut.next (State.acceptEntry_sound (hs.log_ (by rw [h]; exact List.sublist_cons_self e t)))

theorem State.counted_sound {was : State} {s : State} {b : Nat} {r : SecRead} {back : State → Nat → State} (hs : Sound was s) (hback : ∀ a0 a1, Sound was a0 → Sound was (back a0 a1)) :
    Sound4 was (State.counted s b r back) := by
  unfold State.counted
  iterate 60 (all_goals try first
      | with_reducible assumption | intro _ | with_reducible refine Sound2.of (by assumption) ?_
      | with_reducible refine Sound3.of (by assumption) ?_ | with_reducible refine Sound4.of (by assumption) ?_
      | with_reducible refine SoundO.of (by assumption) ?_ | with_reducible refine SoundO2.of (by assumption) ?_
      | with_reducible refine SoundO4.of (by assumption) ?_ | with_reducible refine SoundOut.of (by assumption) ?_
      | with_reducible apply State.bucket_sound | with_reducible apply hback | with_reducible apply SoundOut.next
      | with_reducible apply SoundO.none_ | with_reducible apply SoundO.some_ | with_reducible apply SoundO2.none_
      | with_reducible apply SoundO2.some_ | with_reducible apply SoundO4.none_ | with_reducible apply SoundO4.some_
      | with_reducible apply Sound.ite | with_reducible apply SoundOut.ite | with_reducible apply Sound2.ite
      | with_reducible apply Sound3.ite | with_reducible apply SoundO.ite | with_reducible apply Sound.foldl
      | with_reducible apply Sound2.foldl
      | (extract_lets +onlyGivenNames s1; first | (refine Sound.cut (was := was) (u := s1) ?_ ?_; rotate_left; (intro hs1; clear_value s1); rotate_left; subst s1) | skip)
      | with_reducible refine Sound4.last ?_ | with_reducible refine Sound3.last ?_
      | with_reducible refine Sound2.snd ?_ | split | with_reducible apply Sound2.pair
      | with_reducible apply Sound3.pair | with_reducible apply Sound4.pair)

theorem State.ringRead_sound {was : State} {s : State} {i : Nat} (hs : Sound was s) :
    Sound4 was (State.ringRead s i) := by
  unfold State.ringRead
  iterate 60 (all_goals try first
      | with_reducible assumption | intro _ | with_reducible refine Sound2.of (by assumption) ?_
      | with_reducible refine Sound3.of (by assumption) ?_ | with_reducible refine Sound4.of (by assumption) ?_
      | with_reducible refine SoundO.of (by assumption) ?_ | with_reducible refine SoundO2.of (by assumption) ?_
      | with_reducible refine SoundO4.of (by assumption) ?_ | with_reducible refine SoundOut.of (by assumption) ?_
      | with_reducible apply State.counted_sound | with_reducible apply State.setRingCw_sound
      | (extract_lets +onlyGivenNames s1; first | (refine Sound.cut (was := was) (u := s1) ?_ ?_; rotate_left; (intro hs1; clear_value s1); rotate_left; subst s1) | skip))

theorem State.readEntry_sound {was : State} {s : State} {q : Nat} (hs : Sound was s) :
    Sound3 was (State.readEntry s q) := by
  unfold State.readEntry
  generalize ([] : List Byte) = bs
  generalize false = ue
  generalize List.range 4 = l
  induction l generalizing bs ue s with
  | nil => exact ⟨hs⟩
  | cons k l ih =>
    simp only [List.foldl_cons]
    exact ih (State.ringRead_sound hs).last _ _

theorem State.logRead_sound {was : State} {s : State} {q : Nat} (hs : Sound was s) :
    Sound3 was (State.logRead s q) := by
  unfold State.logRead
  iterate 20 (all_goals try first
      | with_reducible assumption | intro _ | with_reducible apply State.readEntry_sound
      | with_reducible apply Sound.ite | with_reducible apply Sound3.ite | with_reducible apply Sound.foldl | split
      | with_reducible apply Sound3.pair)

theorem State.showEntry_sound {was : State} {s : State} {p q : Nat} {gone : Bool} {bs : List Byte} {ue : Bool} (hs : Sound was s) :
    Sound was (State.showEntry s p q gone bs ue) := by
  unfold State.showEntry
  iterate 20 (all_goals try first
      | with_reducible assumption | intro _ | with_reducible apply State.put_sound
      | with_reducible apply State.setReg_sound | with_reducible apply Sound.ite | with_reducible apply Sound.foldl)

theorem State.logCopy_sound {was : State} {s : State} {p q : Nat} (hs : Sound was s) : Sound was (State.logCopy s p q) := by
  unfold State.logCopy
  exact State.showEntry_sound (State.logRead_sound hs).last

theorem execLogReadCopy_sound {was : State} {src : Src} {p : Fin 4} {q : Word32} {s : State} (hs : Sound was s) :
    SoundOut was (execLogReadCopy src p q s) := by
  unfold execLogReadCopy
  iterate 60 (all_goals try first
      | with_reducible assumption | intro _ | with_reducible refine Sound2.of (by assumption) ?_
      | with_reducible refine Sound3.of (by assumption) ?_ | with_reducible refine Sound4.of (by assumption) ?_
      | with_reducible refine SoundO.of (by assumption) ?_ | with_reducible refine SoundO2.of (by assumption) ?_
      | with_reducible refine SoundO4.of (by assumption) ?_ | with_reducible refine SoundOut.of (by assumption) ?_
      | with_reducible apply State.regAct_sound | with_reducible apply State.logCopy_sound
      | with_reducible apply SoundOut.next
      | (extract_lets +onlyGivenNames s1; first | (refine Sound.cut (was := was) (u := s1) ?_ ?_; rotate_left; (intro hs1; clear_value s1); rotate_left; subst s1) | skip))

theorem State.persistOne_sound {was : State} {s : State} (hs : Sound was s) :
    Sound was (State.persistOne s) := by
  unfold State.persistOne
  iterate 60 (all_goals try first
      | with_reducible assumption | intro _ | with_reducible refine Sound2.of (by assumption) ?_
      | with_reducible refine Sound3.of (by assumption) ?_ | with_reducible refine Sound4.of (by assumption) ?_
      | with_reducible refine SoundO.of (by assumption) ?_ | with_reducible refine SoundO2.of (by assumption) ?_
      | with_reducible refine SoundO4.of (by assumption) ?_ | with_reducible refine SoundOut.of (by assumption) ?_
      | with_reducible apply State.readEntry_sound | with_reducible apply State.put_sound
      | with_reducible apply SoundOut.next | with_reducible apply SoundO.none_ | with_reducible apply SoundO.some_
      | with_reducible apply SoundO2.none_ | with_reducible apply SoundO2.some_ | with_reducible apply SoundO4.none_
      | with_reducible apply SoundO4.some_ | with_reducible apply Sound.ite | with_reducible apply SoundOut.ite
      | with_reducible apply Sound2.ite | with_reducible apply Sound3.ite | with_reducible apply SoundO.ite
      | with_reducible apply Sound.foldl | with_reducible apply Sound2.foldl
      | (extract_lets +onlyGivenNames s1; first | (refine Sound.cut (was := was) (u := s1) ?_ ?_; rotate_left; (intro hs1; clear_value s1); rotate_left; subst s1) | skip)
      | with_reducible refine Sound4.last ?_ | with_reducible refine Sound3.last ?_
      | with_reducible refine Sound2.snd ?_ | split | with_reducible apply Sound2.pair
      | with_reducible apply Sound3.pair | with_reducible apply Sound4.pair
      | with_reducible refine Sound.mk_ ?_ rfl rfl)

theorem execLogPersist_sound {was : State} {n : Fin 4097} {erased : Nat} {s : State} (hs : Sound was s) :
    SoundOut was (execLogPersist n erased s) := by
  unfold execLogPersist
  iterate 20 (all_goals try first
      | with_reducible assumption | intro _ | with_reducible apply State.persistOne_sound
      | with_reducible apply SoundOut.next | with_reducible apply Sound.ite | with_reducible apply SoundOut.ite
      | with_reducible apply Sound.foldl | split | with_reducible refine Sound.mk_ ?_ rfl rfl)

theorem State.setSig_sound {was : State} {s : State} {d f : Nat} {v : BitVec 53} (hs : Sound was s) :
    Sound was (State.setSig s d f v) := by
  unfold State.setSig
  iterate 8 (all_goals try first
      | with_reducible assumption | with_reducible refine Sound.mk_ ?_ rfl rfl)

theorem State.setDigestCw_sound {was : State} {s : State} {i : Nat} {v : BitVec 72} (hs : Sound was s) :
    Sound was (State.setDigestCw s i v) := by
  unfold State.setDigestCw
  iterate 8 (all_goals try first
      | with_reducible assumption | with_reducible refine Sound.mk_ ?_ rfl rfl)

theorem State.setSramWord_sound {was : State} {s : State} {w : Nat} {v : BitVec 39} (hs : Sound was s) :
    Sound was (State.setSramWord s w v) := by
  unfold State.setSramWord
  iterate 8 (all_goals try first
      | with_reducible assumption | with_reducible refine Sound.mk_ ?_ rfl rfl)

theorem State.rtStore_sound {was : State} {s : State} {p : RtPlace} {data chk : Nat} (hs : Sound was s) :
    Sound was (State.rtStore s p data chk) := by
  unfold State.rtStore
  iterate 20 (all_goals try first
      | with_reducible assumption | intro _ | with_reducible apply State.setDie_sound
      | with_reducible apply State.setTile_sound | with_reducible apply State.setSig_sound
      | with_reducible apply State.setSramWord_sound | with_reducible apply State.setDigestCw_sound
      | with_reducible apply State.setRingCw_sound | with_reducible apply State.putBlock_sound
      | with_reducible apply Sound.ite | with_reducible apply Sound.foldl | split)

theorem State.digestRead_sound {was : State} {s : State} {i : Nat} (hs : Sound was s) :
    Sound4 was (State.digestRead s i) :=
  State.counted_sound hs (fun _ _ h => State.setDigestCw_sound h)

theorem State.sigChecked_sound {was : State} {s : State} {d f : Nat} {r : SecRead} (hs : Sound was s) :
    Sound4 was (State.sigChecked s d f r) := by
  unfold State.sigChecked
  iterate 20 (all_goals try first
      | with_reducible assumption | intro _ | with_reducible apply State.raise_sound
      | with_reducible apply State.bucket_sound | with_reducible apply State.setSig_sound
      | with_reducible apply Sound.ite | with_reducible apply Sound.foldl | split | with_reducible apply Sound4.pair)

theorem State.rtChecked_sound {was : State} {s : State} {requester : Nat} {p : RtPlace} (hs : Sound was s) :
    Sound4 was (State.rtChecked s requester p) := by
  unfold State.rtChecked
  iterate 60 (all_goals try first
      | with_reducible assumption | intro _ | with_reducible refine Sound2.of (by assumption) ?_
      | with_reducible refine Sound3.of (by assumption) ?_ | with_reducible refine Sound4.of (by assumption) ?_
      | with_reducible refine SoundO.of (by assumption) ?_ | with_reducible refine SoundO2.of (by assumption) ?_
      | with_reducible refine SoundO4.of (by assumption) ?_ | with_reducible refine SoundOut.of (by assumption) ?_
      | with_reducible apply State.corrected_sound | with_reducible apply State.foundUe_sound
      | with_reducible apply State.sigChecked_sound | with_reducible apply State.counted_sound
      | with_reducible apply State.setSramWord_sound | with_reducible apply State.digestRead_sound
      | with_reducible apply State.ringRead_sound | with_reducible apply State.readBlock_sound
      | with_reducible apply SoundOut.next | with_reducible apply SoundO.none_ | with_reducible apply SoundO.some_
      | with_reducible apply SoundO2.none_ | with_reducible apply SoundO2.some_ | with_reducible apply SoundO4.none_
      | with_reducible apply SoundO4.some_ | with_reducible apply Sound.ite | with_reducible apply SoundOut.ite
      | with_reducible apply Sound2.ite | with_reducible apply Sound3.ite | with_reducible apply SoundO.ite
      | with_reducible apply Sound.foldl | with_reducible apply Sound2.foldl
      | (extract_lets +onlyGivenNames s1; first | (refine Sound.cut (was := was) (u := s1) ?_ ?_; rotate_left; (intro hs1; clear_value s1); rotate_left; subst s1) | skip)
      | with_reducible refine Sound4.last ?_ | with_reducible refine Sound3.last ?_
      | with_reducible refine Sound2.snd ?_ | split | with_reducible apply Sound2.pair
      | with_reducible apply Sound3.pair | with_reducible apply Sound4.pair)

theorem State.setRtData_sound {was : State} {s : State} {n v : Nat} (hs : Sound was s) :
    Sound was (State.setRtData s n v) := by
  unfold State.setRtData
  iterate 20 (all_goals try first
      | with_reducible assumption | intro _ | with_reducible apply State.setReg_sound | with_reducible apply Sound.ite
      | with_reducible apply Sound.foldl)

theorem State.setRtCheck_sound {was : State} {s : State} {v : Nat} (hs : Sound was s) :
    Sound was (State.setRtCheck s v) := by
  unfold State.setRtCheck
  iterate 20 (all_goals try first
      | with_reducible assumption | intro _ | with_reducible apply State.setReg_sound | with_reducible apply Sound.ite
      | with_reducible apply Sound.foldl)

theorem State.rtDone_sound {was : State} {s : State} {code : Resp} {sbit dbit : Bool} (hs : Sound was s) :
    Sound was (State.rtDone s code sbit dbit) := by
  unfold State.rtDone
  iterate 8 (all_goals try first
      | with_reducible assumption | with_reducible apply State.put_sound)

theorem State.rtCommand_sound {was : State} {s : State} {requester : Nat} {op : Nat} (hs : Sound was s) :
    Sound was (State.rtCommand s requester op) := by
  unfold State.rtCommand
  iterate 60 (all_goals try first
      | with_reducible assumption | intro _ | with_reducible refine Sound2.of (by assumption) ?_
      | with_reducible refine Sound3.of (by assumption) ?_ | with_reducible refine Sound4.of (by assumption) ?_
      | with_reducible refine SoundO.of (by assumption) ?_ | with_reducible refine SoundO2.of (by assumption) ?_
      | with_reducible refine SoundO4.of (by assumption) ?_ | with_reducible refine SoundOut.of (by assumption) ?_
      | with_reducible apply State.rtDone_sound | with_reducible apply State.raise_sound
      | with_reducible apply State.rtStore_sound | with_reducible apply State.setRtData_sound
      | with_reducible apply State.setRtCheck_sound | with_reducible apply State.rtChecked_sound
      | with_reducible apply SoundOut.next | with_reducible apply SoundO.none_ | with_reducible apply SoundO.some_
      | with_reducible apply SoundO2.none_ | with_reducible apply SoundO2.some_ | with_reducible apply SoundO4.none_
      | with_reducible apply SoundO4.some_ | with_reducible apply Sound.ite | with_reducible apply SoundOut.ite
      | with_reducible apply Sound2.ite | with_reducible apply Sound3.ite | with_reducible apply SoundO.ite
      | with_reducible apply Sound.foldl | with_reducible apply Sound2.foldl
      | (extract_lets +onlyGivenNames s1; first | (refine Sound.cut (was := was) (u := s1) ?_ ?_; rotate_left; (intro hs1; clear_value s1); rotate_left; subst s1) | skip)
      | with_reducible refine Sound4.last ?_ | with_reducible refine Sound3.last ?_
      | with_reducible refine Sound2.snd ?_ | split | with_reducible apply Sound2.pair
      | with_reducible apply Sound3.pair | with_reducible apply Sound4.pair
      | with_reducible refine Sound.mk_ ?_ rfl rfl)

theorem State.rtResume_sound {was : State} {s : State} (hs : Sound was s) :
    Sound was (State.rtResume s) := by
  unfold State.rtResume
  iterate 60 (all_goals try first
      | with_reducible assumption | intro _ | with_reducible refine Sound2.of (by assumption) ?_
      | with_reducible refine Sound3.of (by assumption) ?_ | with_reducible refine Sound4.of (by assumption) ?_
      | with_reducible refine SoundO.of (by assumption) ?_ | with_reducible refine SoundO2.of (by assumption) ?_
      | with_reducible refine SoundO4.of (by assumption) ?_ | with_reducible refine SoundOut.of (by assumption) ?_
      | with_reducible apply State.put_sound | with_reducible apply State.rtCommand_sound
      | with_reducible apply SoundOut.next | with_reducible apply SoundO.none_ | with_reducible apply SoundO.some_
      | with_reducible apply SoundO2.none_ | with_reducible apply SoundO2.some_ | with_reducible apply SoundO4.none_
      | with_reducible apply SoundO4.some_ | with_reducible apply Sound.ite | with_reducible apply SoundOut.ite
      | with_reducible apply Sound2.ite | with_reducible apply Sound3.ite | with_reducible apply SoundO.ite
      | with_reducible apply Sound.foldl | with_reducible apply Sound2.foldl
      | (extract_lets +onlyGivenNames s1; first | (refine Sound.cut (was := was) (u := s1) ?_ ?_; rotate_left; (intro hs1; clear_value s1); rotate_left; subst s1) | skip)
      | with_reducible refine Sound4.last ?_ | with_reducible refine Sound3.last ?_
      | with_reducible refine Sound2.snd ?_ | split | with_reducible apply Sound2.pair
      | with_reducible apply Sound3.pair | with_reducible apply Sound4.pair
      | with_reducible refine Sound.mk_ ?_ rfl rfl)

theorem State.rtWrite_sound {was : State} {s : State} {src : Src} {op : Nat} (hs : Sound was s) :
    Sound was (State.rtWrite s src op) := by
  unfold State.rtWrite
  iterate 60 (all_goals try first
      | with_reducible assumption | intro _ | with_reducible refine Sound2.of (by assumption) ?_
      | with_reducible refine Sound3.of (by assumption) ?_ | with_reducible refine Sound4.of (by assumption) ?_
      | with_reducible refine SoundO.of (by assumption) ?_ | with_reducible refine SoundO2.of (by assumption) ?_
      | with_reducible refine SoundO4.of (by assumption) ?_ | with_reducible refine SoundOut.of (by assumption) ?_
      | with_reducible apply State.regAct_sound | with_reducible apply State.put_sound
      | with_reducible apply State.rtCommand_sound | with_reducible apply State.answer_sound
      | with_reducible apply SoundOut.next | with_reducible apply SoundO.none_ | with_reducible apply SoundO.some_
      | with_reducible apply SoundO2.none_ | with_reducible apply SoundO2.some_ | with_reducible apply SoundO4.none_
      | with_reducible apply SoundO4.some_ | with_reducible apply Sound.ite
      | (extract_lets +onlyGivenNames s1; first | (refine Sound.cut (was := was) (u := s1) ?_ ?_; rotate_left; (intro hs1; clear_value s1); rotate_left; subst s1) | skip))

theorem execRawWrite_sound {was : State} {src : Src} {s : State} (hs : Sound was s) :
    SoundOut was (execRawWrite src s) := by
  unfold execRawWrite
  iterate 8 (all_goals try first
      | with_reducible assumption | with_reducible apply State.rtWrite_sound | with_reducible apply SoundOut.next)

theorem execRawRead_sound {was : State} {src : Src} {s : State} (hs : Sound was s) :
    SoundOut was (execRawRead src s) := by
  unfold execRawRead
  iterate 8 (all_goals try first
      | with_reducible assumption | with_reducible apply State.rtWrite_sound | with_reducible apply SoundOut.next)

theorem execCheckedRead_sound {was : State} {src : Src} {s : State} (hs : Sound was s) :
    SoundOut was (execCheckedRead src s) := by
  unfold execCheckedRead
  iterate 8 (all_goals try first
      | with_reducible assumption | with_reducible apply State.rtWrite_sound | with_reducible apply SoundOut.next)

end Sys2Proof.Machine
end

