-- ==== Sys2Proof/Laws/SoundPower.lean ====
section
/-!
SUPPORT. Sys2Proof/Laws/SoundPower.lean: the operations of Machine/Power.lean keep what Sound says.
-/

namespace Sys2Proof.Machine

theorem State.powerLog_sound {was : State} {s : State} {event sev : Nat} {payload : List Byte} (hs : Sound was s) :
    Sound was (State.powerLog s event sev payload) := by
  unfold State.powerLog
  iterate 8 (all_goals try first
      | with_reducible assumption | with_reducible apply State.logEv_sound)

theorem State.planSteps_sound {was : State} {s : State} {l : List SeqStep} (hs : Sound was s) :
    Sound was (State.planSteps s l) := by
  unfold State.planSteps
  iterate 20 (all_goals try first
      | with_reducible assumption | intro _ | with_reducible apply Sound.ite | with_reducible apply Sound.foldl
      | split | with_reducible refine Sound.mk_ ?_ rfl rfl)

theorem fixLevels_sound {was : State} {x0 : Nat} {s : State} (hs : Sound was s) : Sound was (fixLevels x0 s) := by
  induction x0 generalizing s with
  | zero => exact hs
  | succ n ih =>
    unfold fixLevels
    exact Sound.ite (ih (State.planSteps_sound hs)) (Sound.ite (ih (State.planSteps_sound hs)) hs)

theorem State.fixLevels_sound {was : State} {s : State} (hs : Sound was s) : Sound was (State.fixLevels s) :=
  Machine.fixLevels_sound hs

theorem execSequencerRaiseStart_sound {was : State} {s : State} (hs : Sound was s) :
    SoundOut was (execSequencerRaiseStart s) := by
  unfold execSequencerRaiseStart
  iterate 20 (all_goals try first
      | with_reducible assumption | intro _ | with_reducible apply State.raise_sound
      | with_reducible apply SoundOut.next | with_reducible apply Sound.ite | with_reducible apply SoundOut.ite
      | with_reducible apply Sound.foldl | split | with_reducible refine Sound.mk_ ?_ rfl rfl)

theorem State.switchLevels_sound {was : State} {s : State} {p : SeqStep} (hs : Sound was s) :
    Sound was (State.switchLevels s p) := by
  unfold State.switchLevels
  iterate 20 (all_goals try first
      | with_reducible assumption | intro _ | with_reducible apply State.put_sound | with_reducible apply Sound.ite
      | with_reducible apply Sound.foldl)

theorem execSequencerFrequencySwitch_sound {was : State} {s : State} (hs : Sound was s) :
    SoundOut was (execSequencerFrequencySwitch s) := by
  unfold execSequencerFrequencySwitch
  iterate 20 (all_goals try first
      | with_reducible assumption | intro _ | with_reducible apply State.switchLevels_sound
      | with_reducible apply State.put_sound | with_reducible apply State.raise_sound
      | with_reducible apply SoundOut.next | with_reducible apply Sound.ite | with_reducible apply SoundOut.ite
      | with_reducible apply Sound.foldl | split | with_reducible refine Sound.mk_ ?_ rfl rfl)

theorem execSequencerStepComplete_sound {was : State} {s : State} (hs : Sound was s) :
    SoundOut was (execSequencerStepComplete s) := by
  unfold execSequencerStepComplete
  iterate 20 (all_goals try first
      | with_reducible assumption | intro _ | with_reducible apply State.put_sound
      | with_reducible apply SoundOut.next | with_reducible apply Sound.ite | with_reducible apply SoundOut.ite
      | with_reducible apply Sound.foldl | split | with_reducible refine Sound.mk_ ?_ rfl rfl)

theorem State.trip_sound {was : State} {s : State} {therm : Bool} (hs : Sound was s) :
    Sound was (State.trip s therm) := by
  unfold State.trip
  exact Sound.mk_ (State.cutPours_sound (State.forceSafe_sound (State.put_sound (State.raise_sound hs)))) rfl rfl

theorem State.tripWrite_sound {was : State} {s : State} {q : Src} {w : Word32} (hs : Sound was s) :
    Sound was (State.tripWrite s q w) := by
  unfold State.tripWrite
  iterate 20 (all_goals try first
      | with_reducible assumption | intro _ | with_reducible apply State.writeReg_sound
      | with_reducible apply State.raise_sound | with_reducible apply State.put_sound
      | with_reducible apply State.powerLog_sound | with_reducible apply State.lanesRestart_sound
      | with_reducible apply Sound.ite | with_reducible apply Sound.foldl | split
      | with_reducible refine Sound.mk_ ?_ rfl rfl)

theorem execTripRelease_sound {was : State} {src : Src} {w : Word32} {s : State} (hs : Sound was s) :
    SoundOut was (execTripRelease src w s) := by
  unfold execTripRelease
  iterate 20 (all_goals try first
      | with_reducible assumption | intro _ | with_reducible apply State.command_sound
      | with_reducible apply State.tripWrite_sound | with_reducible apply SoundOut.next)

theorem execSensorSample_sound {was : State} {n : Fin 12} {temps : List (BitVec 12)} {s : State} (hs : Sound was s) :
    SoundOut was (execSensorSample n temps s) := by
  unfold execSensorSample
  iterate 50 (all_goals try first
      | with_reducible assumption | intro _ | with_reducible refine Sound2.of (by assumption) ?_
      | with_reducible apply State.put_sound | with_reducible apply State.trip_sound
      | with_reducible apply State.powerLog_sound | with_reducible apply State.draw_sound
      | with_reducible apply State.interrupt_sound | with_reducible apply SoundOut.next
      | with_reducible apply Sound.ite | with_reducible apply SoundOut.ite | with_reducible apply Sound2.ite
      | with_reducible apply Sound.foldl
      | (extract_lets +onlyGivenNames s1; first | (refine Sound.cut (was := was) (u := s1) ?_ ?_; rotate_left; (intro hs1; clear_value s1); rotate_left; subst s1) | skip)
      | with_reducible refine Sound2.snd ?_ | split | with_reducible refine Sound.mk_ ?_ rfl rfl)

theorem planLowering_sound {was : State} {avg : Nat} {doms : List Nat} {cap x0 : Nat} {s : State} (hs : Sound was s) :
    Sound was (planLowering avg doms cap x0 s) := by
  induction x0 generalizing s with
  | zero => exact hs
  | succ n ih =>
    unfold planLowering
    split
    · exact hs
    · split
      · exact hs
      · have h := fun g => State.planSteps_sound (l := [⟨false, g, true⟩]) hs
        exact ih (Sound.mk_ (h _) rfl rfl)

theorem execGovernorWindowEnd_sound {was : State} {avg : BitVec 32} {doms : List Nat} {s : State} (hs : Sound was s) :
    SoundOut was (execGovernorWindowEnd avg doms s) := by
  unfold execGovernorWindowEnd
  iterate 50 (all_goals try first
      | with_reducible assumption | intro _ | with_reducible apply State.setReg_sound
      | with_reducible apply State.trip_sound | with_reducible apply State.powerLog_sound
      | with_reducible apply planLowering_sound | with_reducible apply State.raise_sound
      | with_reducible apply State.planSteps_sound | with_reducible apply SoundOut.next
      | with_reducible apply Sound.ite | with_reducible apply SoundOut.ite | with_reducible apply Sound.foldl
      | (extract_lets +onlyGivenNames s1; first | (refine Sound.cut (was := was) (u := s1) ?_ ?_; rotate_left; (intro hs1; clear_value s1); rotate_left; subst s1) | skip)
      | split | with_reducible refine Sound.mk_ ?_ rfl rfl)

theorem State.capWrite_sound {was : State} {s : State} {w : Word32} (hs : Sound was s) :
    Sound was (State.capWrite s w) := by
  unfold State.capWrite
  iterate 8 (all_goals try first
      | with_reducible assumption | with_reducible apply State.put_sound)

theorem execCapWrite_sound {was : State} {src : Src} {w : Word32} {s : State} (hs : Sound was s) :
    SoundOut was (execCapWrite src w s) := by
  unfold execCapWrite
  iterate 20 (all_goals try first
      | with_reducible assumption | intro _ | with_reducible apply State.command_sound
      | with_reducible apply State.capWrite_sound | with_reducible apply SoundOut.next)

theorem State.levelWrite_sound {was : State} {s : State} {k : Nat} {w : Word32} (hs : Sound was s) :
    Sound was (State.levelWrite s k w) := by
  unfold State.levelWrite
  iterate 20 (all_goals try first
      | with_reducible assumption | intro _ | with_reducible apply State.writeReg_sound
      | with_reducible apply State.put_sound | with_reducible apply fixLevels_sound
      | with_reducible apply State.fixLevels_sound | with_reducible apply Sound.ite)

theorem State.modeEntryTick_sound {was : State} {s : State} (hs : Sound was s) :
    Sound was (State.modeEntryTick s) := by
  unfold State.modeEntryTick
  iterate 20 (all_goals try first
      | with_reducible assumption | intro _ | with_reducible apply Sound.ite | with_reducible apply Sound.foldl
      | split | with_reducible refine Sound.mk_ ?_ rfl rfl)

theorem State.wakeNow_sound {was : State} {s : State} {cause : Nat} (hs : Sound was s) :
    Sound was (State.wakeNow s cause) := by
  unfold State.wakeNow
  iterate 20 (all_goals try first
      | with_reducible assumption | intro _ | with_reducible apply State.put_sound
      | with_reducible apply State.powerLog_sound | with_reducible apply State.startLane_sound
      | with_reducible apply Sound.ite | with_reducible apply Sound.foldl | split
      | with_reducible refine Sound.mk_ ?_ rfl rfl)

theorem State.wake_sound {was : State} {s : State} {cause : Nat} (hs : Sound was s) :
    Sound was (State.wake s cause) := by
  unfold State.wake
  iterate 20 (all_goals try first
      | with_reducible assumption | intro _ | with_reducible apply State.wakeNow_sound
      | with_reducible apply Sound.ite | with_reducible apply Sound.foldl | split
      | with_reducible refine Sound.mk_ ?_ rfl rfl)

theorem State.requestMode_sound {was : State} {s : State} {m : Nat} (hs : Sound was s) :
    Sound was (State.requestMode s m) := by
  unfold State.requestMode
  iterate 20 (all_goals try first
      | with_reducible assumption | intro _ | with_reducible apply State.raise_sound | with_reducible apply Sound.ite
      | with_reducible apply Sound.foldl | split | with_reducible refine Sound.mk_ ?_ rfl rfl)

theorem State.modeWrite_sound {was : State} {s : State} {w : Word32} (hs : Sound was s) :
    Sound was (State.modeWrite s w) := by
  unfold State.modeWrite
  iterate 20 (all_goals try first
      | with_reducible assumption | intro _ | with_reducible apply State.writeReg_sound
      | with_reducible apply State.requestMode_sound | with_reducible apply State.wake_sound
      | with_reducible apply Sound.ite | with_reducible apply Sound.foldl | split)

theorem State.modeCommand_sound {was : State} {s : State} {q : Src} {w : Word32} (hs : Sound was s) :
    Sound was (State.modeCommand s q w) := by
  unfold State.modeCommand
  iterate 20 (all_goals try first
      | with_reducible assumption | intro _ | with_reducible apply State.answer_sound
      | with_reducible apply State.command_sound | with_reducible apply State.modeWrite_sound
      | with_reducible apply Sound.ite)

theorem execSleepRequest_sound {was : State} {src : Src} {s : State} (hs : Sound was s) :
    SoundOut was (execSleepRequest src s) := by
  unfold execSleepRequest
  iterate 8 (all_goals try first
      | with_reducible assumption | with_reducible apply State.modeCommand_sound | with_reducible apply SoundOut.next)

theorem execDeepSleepRequest_sound {was : State} {src : Src} {s : State} (hs : Sound was s) :
    SoundOut was (execDeepSleepRequest src s) := by
  unfold execDeepSleepRequest
  iterate 8 (all_goals try first
      | with_reducible assumption | with_reducible apply State.modeCommand_sound | with_reducible apply SoundOut.next)

theorem execRunRequest_sound {was : State} {src : Src} {s : State} (hs : Sound was s) :
    SoundOut was (execRunRequest src s) := by
  unfold execRunRequest
  iterate 8 (all_goals try first
      | with_reducible assumption | with_reducible apply State.modeCommand_sound | with_reducible apply SoundOut.next)

theorem execTagDrainComplete_sound {was : State} {s : State} (hs : Sound was s) :
    SoundOut was (execTagDrainComplete s) := by
  unfold execTagDrainComplete
  iterate 20 (all_goals try first
      | with_reducible assumption | intro _ | with_reducible apply State.put_sound
      | with_reducible apply State.cutPours_sound | with_reducible apply State.setReg_sound
      | with_reducible apply State.setStage_sound | with_reducible apply State.wakeNow_sound
      | with_reducible apply SoundOut.next | with_reducible apply Sound.ite | with_reducible apply SoundOut.ite
      | with_reducible apply Sound.foldl | split | with_reducible refine Sound.mk_ ?_ rfl rfl)

theorem execSmbusReadTemperature_sound {was : State} {s : State} (hs : Sound was s) :
    SoundOut was (execSmbusReadTemperature s) := by
  unfold execSmbusReadTemperature
  iterate 20 (all_goals try first
      | with_reducible assumption | intro _ | with_reducible apply State.emit_sound
      | with_reducible apply SoundOut.next | with_reducible apply Sound.ite | with_reducible apply SoundOut.ite)

theorem execSmbusReadPower_sound {was : State} {s : State} (hs : Sound was s) :
    SoundOut was (execSmbusReadPower s) := by
  unfold execSmbusReadPower
  iterate 20 (all_goals try first
      | with_reducible assumption | intro _ | with_reducible apply State.emit_sound
      | with_reducible apply SoundOut.next | with_reducible apply Sound.ite | with_reducible apply SoundOut.ite)

theorem execSmbusReadStatus_sound {was : State} {s : State} (hs : Sound was s) :
    SoundOut was (execSmbusReadStatus s) := by
  unfold execSmbusReadStatus
  iterate 20 (all_goals try first
      | with_reducible assumption | intro _ | with_reducible apply State.emit_sound
      | with_reducible apply SoundOut.next | with_reducible apply Sound.ite | with_reducible apply SoundOut.ite)

theorem execSmbusWake_sound {was : State} {s : State} (hs : Sound was s) :
    SoundOut was (execSmbusWake s) := by
  unfold execSmbusWake
  iterate 20 (all_goals try first
      | with_reducible assumption | intro _ | with_reducible apply State.wake_sound
      | with_reducible apply SoundOut.next | with_reducible apply Sound.ite | with_reducible apply SoundOut.ite)

theorem execSmbusFirmwareCommand_sound {was : State} {code : BitVec 8} {reply : Option (List Byte)} {s : State} (hs : Sound was s) :
    SoundOut was (execSmbusFirmwareCommand code reply s) := by
  unfold execSmbusFirmwareCommand
  iterate 20 (all_goals try first
      | with_reducible assumption | intro _ | with_reducible apply State.emit_sound
      | with_reducible apply SoundOut.next | with_reducible apply Sound.ite | with_reducible apply SoundOut.ite
      | with_reducible apply Sound.foldl | split)

theorem State.raiseMargin_sound {was : State} {s : State} {k ppm t : Nat} (hs : Sound was s) :
    Sound was (State.raiseMargin s k ppm t) := by
  unfold State.raiseMargin
  iterate 20 (all_goals try first
      | with_reducible assumption | intro _ | with_reducible apply State.setReg_sound
      | with_reducible apply State.powerLog_sound | with_reducible apply State.planSteps_sound
      | with_reducible apply State.put_sound | with_reducible apply Sound.ite)

theorem execAgeingMeasurement_sound {was : State} {n : Fin 12} {ppm : Nat} {s : State} (hs : Sound was s) :
    SoundOut was (execAgeingMeasurement n ppm s) := by
  unfold execAgeingMeasurement
  iterate 20 (all_goals try first
      | with_reducible assumption | intro _ | with_reducible apply State.put_sound
      | with_reducible apply State.raiseMargin_sound | with_reducible apply fixLevels_sound
      | with_reducible apply State.fixLevels_sound | with_reducible apply SoundOut.next
      | with_reducible apply Sound.ite | with_reducible apply SoundOut.ite | with_reducible apply Sound.foldl)

end Sys2Proof.Machine
end

