-- ==== Sys2Proof/Laws/SoundMailbox.lean ====
section
/-!
SUPPORT. Sys2Proof/Laws/SoundMailbox.lean: the operations of Machine/Mailbox.lean keep what Sound says.
-/

namespace Sys2Proof.Machine

theorem State.setMbx_sound {was : State} {s : State} {c : Nat} {x : MbxSt} (hs : Sound was s) :
    Sound was (State.setMbx s c x) := by
  unfold State.setMbx
  iterate 8 (all_goals try first
      | with_reducible assumption | with_reducible refine Sound.mk_ ?_ rfl rfl)

theorem State.mbxVector_sound {was : State} {s : State} {c : Nat} (hs : Sound was s) :
    Sound was (State.mbxVector s c) := by
  unfold State.mbxVector
  iterate 20 (all_goals try first
      | with_reducible assumption | intro _ | with_reducible apply State.sendMsix_sound
      | with_reducible apply State.setMbx_sound | with_reducible apply Sound.ite)

theorem State.mbxToRcv_sound {was : State} {s : State} {c : Nat} (hs : Sound was s) :
    Sound was (State.mbxToRcv s c) := by
  unfold State.mbxToRcv
  iterate 20 (all_goals try first
      | with_reducible assumption | intro _ | with_reducible apply State.mbxVector_sound
      | with_reducible apply Sound.ite)

theorem State.mbxToOwner_sound {was : State} {s : State} {c n : Nat} (hs : Sound was s) :
    Sound was (State.mbxToOwner s c n) := by
  unfold State.mbxToOwner
  iterate 20 (all_goals try first
      | with_reducible assumption | intro _ | with_reducible apply State.mbxVector_sound
      | with_reducible apply Sound.ite)

theorem State.mbxLog_sound {was : State} {s : State} {event c a b : Nat} (hs : Sound was s) :
    Sound was (State.mbxLog s event c a b) := by
  unfold State.mbxLog
  iterate 8 (all_goals try first
      | with_reducible assumption | with_reducible apply State.logEv_sound)

theorem State.mbxEnter_sound {was : State} {s : State} {c st : Nat} (hs : Sound was s) :
    Sound was (State.mbxEnter s c st) := by
  unfold State.mbxEnter
  iterate 20 (all_goals try first
      | with_reducible assumption | intro _ | with_reducible apply State.put_sound
      | with_reducible apply State.setMbx_sound | with_reducible apply Sound.ite)

theorem State.mbxFree_sound {was : State} {s : State} {c : Nat} (hs : Sound was s) :
    Sound was (State.mbxFree s c) := by
  unfold State.mbxFree
  iterate 8 (all_goals try first
      | with_reducible assumption | with_reducible apply State.mbxEnter_sound | with_reducible apply State.put_sound
      | with_reducible apply State.setMbx_sound)

theorem State.lockRead_sound {was : State} {s : State} {n c : Nat} {peek : Bool} (hs : Sound was s) :
    Sound2 was (State.lockRead s n c peek) := by
  unfold State.lockRead
  iterate 20 (all_goals try first
      | with_reducible assumption | intro _ | with_reducible apply State.mbxEnter_sound
      | with_reducible apply State.put_sound | with_reducible apply Sound.ite | with_reducible apply Sound2.ite
      | with_reducible apply Sound.foldl | split | with_reducible apply Sound2.pair)

theorem execLockRead_sound {was : State} {src : Src} {c : Fin 32} {s : State} (hs : Sound was s) :
    SoundOut was (execLockRead src c s) := by
  unfold execLockRead
  iterate 50 (all_goals try first
      | with_reducible assumption | intro _ | with_reducible refine Sound2.of (by assumption) ?_
      | with_reducible apply State.answer_sound | with_reducible apply State.lockRead_sound
      | with_reducible apply State.answerWord_sound | with_reducible apply SoundOut.next
      | with_reducible apply Sound.ite | with_reducible apply SoundOut.ite | with_reducible apply Sound2.ite
      | with_reducible apply Sound.foldl
      | (extract_lets +onlyGivenNames s1; first | (refine Sound.cut (was := was) (u := s1) ?_ ?_; rotate_left; (intro hs1; clear_value s1); rotate_left; subst s1) | skip)
      | with_reducible refine Sound2.snd ?_)

theorem State.lockWrite_sound {was : State} {s : State} {n c : Nat} (hs : Sound was s) :
    Sound was (State.lockWrite s n c) := by
  unfold State.lockWrite
  iterate 20 (all_goals try first
      | with_reducible assumption | intro _ | with_reducible apply State.mbxFree_sound
      | with_reducible apply Sound.ite)

theorem execLockRelease_sound {was : State} {src : Src} {c : Fin 32} {s : State} (hs : Sound was s) :
    SoundOut was (execLockRelease src c s) := by
  unfold execLockRelease
  iterate 60 (all_goals try first
      | with_reducible assumption | intro _ | with_reducible refine Sound2.of (by assumption) ?_
      | with_reducible refine Sound3.of (by assumption) ?_ | with_reducible refine Sound4.of (by assumption) ?_
      | with_reducible refine SoundO.of (by assumption) ?_ | with_reducible refine SoundO2.of (by assumption) ?_
      | with_reducible refine SoundO4.of (by assumption) ?_ | with_reducible refine SoundOut.of (by assumption) ?_
      | with_reducible apply State.regAct_sound | with_reducible apply State.lockWrite_sound
      | with_reducible apply State.answer_sound | with_reducible apply SoundOut.next
      | with_reducible apply SoundO.none_ | with_reducible apply SoundO.some_ | with_reducible apply SoundO2.none_
      | with_reducible apply SoundO2.some_ | with_reducible apply SoundO4.none_ | with_reducible apply SoundO4.some_
      | with_reducible apply Sound.ite | with_reducible apply SoundOut.ite
      | (extract_lets +onlyGivenNames s1; first | (refine Sound.cut (was := was) (u := s1) ?_ ?_; rotate_left; (intro hs1; clear_value s1); rotate_left; subst s1) | skip))

theorem State.setLen_sound {was : State} {s : State} {c v : Nat} (hs : Sound was s) :
    Sound was (State.setLen s c v) := by
  unfold State.setLen
  iterate 8 (all_goals try first
      | with_reducible assumption | with_reducible apply State.put_sound)

theorem State.stamp_sound {was : State} {s : State} {lo hi : RegName} {c : Nat} (hs : Sound was s) :
    Sound was (State.stamp s lo hi c) := by
  unfold State.stamp
  iterate 8 (all_goals try first
      | with_reducible assumption | with_reducible apply State.setReg_sound)

theorem State.mbxGo_sound {was : State} {s : State} {c len : Nat} (hs : Sound was s) :
    Sound was (State.mbxGo s c len) := by
  unfold State.mbxGo
  iterate 20 (all_goals try first
      | with_reducible assumption | intro _ | with_reducible apply State.setLen_sound
      | with_reducible apply State.mbxEnter_sound | with_reducible apply State.stamp_sound
      | with_reducible apply State.setMbx_sound | with_reducible apply State.wake_sound
      | with_reducible apply State.mbxToRcv_sound | with_reducible apply Sound.ite)

theorem State.mbxDone_sound {was : State} {s : State} {c len : Nat} (hs : Sound was s) :
    Sound was (State.mbxDone s c len) := by
  unfold State.mbxDone
  iterate 20 (all_goals try first
      | with_reducible assumption | intro _ | with_reducible apply State.setLen_sound
      | with_reducible apply State.stamp_sound | with_reducible apply State.mbxLog_sound
      | with_reducible apply State.raise_sound | with_reducible apply State.mbxFree_sound
      | with_reducible apply State.mbxToOwner_sound | with_reducible apply State.mbxEnter_sound
      | with_reducible apply Sound.ite)

theorem State.ctrlWrite_sound {was : State} {s : State} {n c : Nat} {w : Word32} (hs : Sound was s) :
    SoundO was (State.ctrlWrite s n c w) := by
  unfold State.ctrlWrite
  iterate 20 (all_goals try first
      | with_reducible assumption | intro _ | with_reducible apply State.mbxGo_sound
      | with_reducible apply State.mbxEnter_sound | with_reducible apply State.mbxDone_sound
      | with_reducible exact SoundO.none_ | with_reducible apply SoundO.some_ | with_reducible apply Sound.ite
      | with_reducible apply SoundO.ite | with_reducible apply Sound.foldl | split)

theorem State.ctrlCommand_sound {was : State} {s : State} {q : Src} {c : Nat} {w : Word32} (hs : Sound was s) :
    Sound was (State.ctrlCommand s q c w) := by
  unfold State.ctrlCommand
  iterate 60 (all_goals try first
      | with_reducible assumption | intro _ | with_reducible refine Sound2.of (by assumption) ?_
      | with_reducible refine Sound3.of (by assumption) ?_ | with_reducible refine Sound4.of (by assumption) ?_
      | with_reducible refine SoundO.of (by assumption) ?_ | with_reducible refine SoundO2.of (by assumption) ?_
      | with_reducible refine SoundO4.of (by assumption) ?_ | with_reducible refine SoundOut.of (by assumption) ?_
      | with_reducible apply State.ctrlWrite_sound | with_reducible apply State.regAct_sound
      | with_reducible apply State.answer_sound | with_reducible apply SoundOut.next
      | with_reducible apply SoundO.none_ | with_reducible apply SoundO.some_ | with_reducible apply SoundO2.none_
      | with_reducible apply SoundO2.some_ | with_reducible apply SoundO4.none_ | with_reducible apply SoundO4.some_
      | with_reducible apply Sound.ite | with_reducible apply SoundOut.ite | with_reducible apply Sound2.ite
      | with_reducible apply Sound3.ite | with_reducible apply SoundO.ite | with_reducible apply Sound.foldl
      | with_reducible apply Sound2.foldl
      | (extract_lets +onlyGivenNames s1; first | (refine Sound.cut (was := was) (u := s1) ?_ ?_; rotate_left; (intro hs1; clear_value s1); rotate_left; subst s1) | skip)
      | with_reducible refine Sound4.last ?_ | with_reducible refine Sound3.last ?_
      | with_reducible refine Sound2.snd ?_ | split)

theorem execGo_sound {was : State} {src : Src} {c : Fin 32} {len : BitVec 5} {s : State} (hs : Sound was s) :
    SoundOut was (execGo src c len s) := by
  unfold execGo
  iterate 8 (all_goals try first
      | with_reducible assumption | with_reducible apply State.ctrlCommand_sound | with_reducible apply SoundOut.next)

theorem execTake_sound {was : State} {src : Src} {c : Fin 32} {s : State} (hs : Sound was s) :
    SoundOut was (execTake src c s) := by
  unfold execTake
  iterate 8 (all_goals try first
      | with_reducible assumption | with_reducible apply State.ctrlCommand_sound | with_reducible apply SoundOut.next)

theorem execDone_sound {was : State} {src : Src} {c : Fin 32} {len : BitVec 5} {s : State} (hs : Sound was s) :
    SoundOut was (execDone src c len s) := by
  unfold execDone
  iterate 8 (all_goals try first
      | with_reducible assumption | with_reducible apply State.ctrlCommand_sound | with_reducible apply SoundOut.next)

theorem execWithdraw_sound {was : State} {src : Src} {c : Fin 32} {s : State} (hs : Sound was s) :
    SoundOut was (execWithdraw src c s) := by
  unfold execWithdraw
  iterate 8 (all_goals try first
      | with_reducible assumption | with_reducible apply State.ctrlCommand_sound | with_reducible apply SoundOut.next)

theorem State.statWrite_sound {was : State} {s : State} {n c : Nat} {w : Word32} (hs : Sound was s) :
    SoundO was (State.statWrite s n c w) := by
  unfold State.statWrite
  iterate 20 (all_goals try first
      | with_reducible assumption | intro _ | with_reducible apply State.writeReg_sound
      | with_reducible exact SoundO.none_ | with_reducible apply SoundO.some_ | with_reducible apply Sound.ite
      | with_reducible apply SoundO.ite)

theorem State.dataWrite_sound {was : State} {s : State} {n c k : Nat} {w : Word32} (hs : Sound was s) :
    SoundO was (State.dataWrite s n c k w) := by
  unfold State.dataWrite
  iterate 20 (all_goals try first
      | with_reducible assumption | intro _ | with_reducible apply State.setReg_sound
      | with_reducible exact SoundO.none_ | with_reducible apply SoundO.some_ | with_reducible apply Sound.ite
      | with_reducible apply SoundO.ite)

theorem State.mbxForce_sound {was : State} {s : State} {c : Nat} (hs : Sound was s) :
    Sound was (State.mbxForce s c) := by
  unfold State.mbxForce
  iterate 20 (all_goals try first
      | with_reducible assumption | intro _ | with_reducible apply State.mbxLog_sound
      | with_reducible apply State.mbxFree_sound | with_reducible apply Sound.ite)

theorem State.mbxCfgWrite_sound {was : State} {s : State} {c : Nat} {w : Word32} (hs : Sound was s) :
    Sound was (State.mbxCfgWrite s c w) := by
  unfold State.mbxCfgWrite
  iterate 20 (all_goals try first
      | with_reducible assumption | intro _ | with_reducible apply State.mbxForce_sound
      | with_reducible apply State.put_sound | with_reducible apply Sound.ite)

theorem execForce_sound {was : State} {src : Src} {c : Fin 32} {s : State} (hs : Sound was s) :
    SoundOut was (execForce src c s) := by
  unfold execForce
  iterate 20 (all_goals try first
      | with_reducible assumption | intro _ | with_reducible apply State.command_sound
      | with_reducible apply State.mbxCfgWrite_sound | with_reducible apply State.answer_sound
      | with_reducible apply SoundOut.next | with_reducible apply Sound.ite | with_reducible apply SoundOut.ite)

theorem execMailboxTimeout_sound {was : State} {c : Fin 32} {s : State} (hs : Sound was s) :
    SoundOut was (execMailboxTimeout c s) := by
  unfold execMailboxTimeout
  iterate 20 (all_goals try first
      | with_reducible assumption | intro _ | with_reducible apply State.mbxEnter_sound
      | with_reducible apply State.raise_sound | with_reducible apply State.mbxLog_sound
      | with_reducible apply State.mbxToOwner_sound | with_reducible apply SoundOut.next
      | with_reducible apply Sound.ite | with_reducible apply SoundOut.ite)

theorem State.mbxResetOne_sound {was : State} {n : Nat} {s : State} {c : Nat} (hs : Sound was s) :
    Sound was (State.mbxResetOne n s c) := by
  unfold State.mbxResetOne
  iterate 20 (all_goals try first
      | with_reducible assumption | intro _ | with_reducible apply State.mbxLog_sound
      | with_reducible apply State.raise_sound | with_reducible apply State.mbxFree_sound
      | with_reducible apply State.mbxToOwner_sound | with_reducible apply State.mbxEnter_sound
      | with_reducible apply State.setMbx_sound | with_reducible apply Sound.ite)

theorem State.mbxReset_sound {was : State} {s : State} {n : Nat} (hs : Sound was s) :
    Sound was (State.mbxReset s n) := by
  unfold State.mbxReset
  iterate 20 (all_goals try first
      | with_reducible assumption | intro _ | with_reducible apply State.mbxResetOne_sound
      | with_reducible apply Sound.ite | with_reducible apply Sound.foldl)

theorem State.mbxReply_sound {was : State} {s : State} {c len : Nat} {words : List Nat} (hs : Sound was s) :
    Sound was (State.mbxReply s c len words) := by
  unfold State.mbxReply
  iterate 20 (all_goals try first
      | with_reducible assumption | intro _ | with_reducible apply State.mbxEnter_sound
      | with_reducible apply State.setReg_sound | with_reducible apply State.mbxDone_sound
      | with_reducible apply Sound.ite | with_reducible apply Sound.foldl)

theorem execLogService_sound {was : State} {c : Fin 9} {busy : Bool} {s : State} (hs : Sound was s) :
    SoundOut was (execLogService c busy s) := by
  unfold execLogService
  iterate 20 (all_goals try first
      | with_reducible assumption | intro _ | with_reducible apply State.mbxReply_sound
      | with_reducible apply SoundOut.next | with_reducible apply Sound.ite | with_reducible apply SoundOut.ite
      | with_reducible apply Sound.foldl | split)

end Sys2Proof.Machine
end

