-- ==== Sys2Proof/Laws/SoundLoader.lean ====
section
/-!
SUPPORT. Sys2Proof/Laws/SoundLoader.lean: the operations of Machine/Loader.lean keep what Sound says.
-/

namespace Sys2Proof.Machine

theorem State.storeDigests_sound {was : State} {s : State} {img : Nat} {ds : List (BitVec 256)} (hs : Sound was s) :
    SoundO was (State.storeDigests s img ds) := by
  unfold State.storeDigests
  iterate 20 (all_goals try first
      | with_reducible assumption | intro _ | with_reducible apply State.setDigestCw_sound
      | with_reducible exact SoundO.none_ | with_reducible apply SoundO.some_ | with_reducible apply Sound.ite
      | with_reducible apply SoundO.ite | with_reducible apply Sound.foldl | split
      | with_reducible refine Sound.mk_ ?_ rfl rfl)

theorem State.digestOf_sound {was : State} {s : State} {img chunk : Nat} (hs : Sound was s) :
    Sound2 was (State.digestOf s img chunk) := by
  unfold State.digestOf
  split
  · exact ⟨hs⟩
  · rename_i e _
    have h := Sound3.foldl (was := was) (l := List.range 4) (p := (0, false, s)) (f := fun (x : Nat × Bool × State) k =>
      match x with
      | (v, bad, t) =>
        match t.digestRead (4 * e.1 + k) with
        | (x, _, ue, t) => (v + x * 2 ^ (64 * k), bad || ue, t)) (fun p k h => ⟨(State.digestRead_sound h).last⟩) hs
    exact ⟨h.last⟩

theorem State.otpRegs_sound {was : State} {s : State} (hs : Sound was s) :
    Sound was (State.otpRegs s) := by
  unfold State.otpRegs
  iterate 20 (all_goals try first
      | with_reducible assumption | intro _ | with_reducible apply State.put_sound)

theorem State.dropWaiting_sound {was : State} {s : State} (hs : Sound was s) :
    Sound was (State.dropWaiting s) := by
  unfold State.dropWaiting
  iterate 20 (all_goals try first
      | with_reducible assumption | intro _ | with_reducible apply State.respond_sound
      | with_reducible apply Sound.ite | with_reducible apply Sound.foldl)

theorem State.dropCapture_sound {was : State} {s : State} {which : Nat → Bool} (hs : Sound was s) :
    Sound was (State.dropCapture s which) := by
  unfold State.dropCapture
  iterate 60 (all_goals try first
      | with_reducible assumption | intro _ | with_reducible refine Sound2.of (by assumption) ?_
      | with_reducible refine Sound3.of (by assumption) ?_ | with_reducible refine Sound4.of (by assumption) ?_
      | with_reducible refine SoundO.of (by assumption) ?_ | with_reducible refine SoundO2.of (by assumption) ?_
      | with_reducible refine SoundO4.of (by assumption) ?_ | with_reducible refine SoundOut.of (by assumption) ?_
      | with_reducible apply State.put_sound | with_reducible apply SoundOut.next | with_reducible apply SoundO.none_
      | with_reducible apply SoundO.some_ | with_reducible apply SoundO2.none_ | with_reducible apply SoundO2.some_
      | with_reducible apply SoundO4.none_ | with_reducible apply SoundO4.some_ | with_reducible apply Sound.ite
      | with_reducible apply SoundOut.ite | with_reducible apply Sound2.ite | with_reducible apply Sound3.ite
      | with_reducible apply SoundO.ite | with_reducible apply Sound.foldl | with_reducible apply Sound2.foldl
      | (extract_lets +onlyGivenNames s1; first | (refine Sound.cut (was := was) (u := s1) ?_ ?_; rotate_left; (intro hs1; clear_value s1); rotate_left; subst s1) | skip)
      | with_reducible refine Sound4.last ?_ | with_reducible refine Sound3.last ?_
      | with_reducible refine Sound2.snd ?_ | split | with_reducible apply Sound2.pair
      | with_reducible apply Sound3.pair | with_reducible apply Sound4.pair
      | with_reducible refine Sound.mk_ ?_ rfl rfl)

theorem State.keepHostLink_sound {was : State} {s old : State} (hs : Sound was s) : Sound was (State.keepHostLink s old) :=
  Sound.ite hs (Sound.foldl (fun _ _ h => State.setReg_sound (State.put_sound (State.put_sound h))) hs)

theorem State.clearDevice_sound {was : State} {s : State} (hs : Sound was s) : Sound was (State.clearDevice s) := by
  unfold State.clearDevice
  extract_lets s1 s2 s3 s4 lanes wa
  have h1 : Sound was s1 := State.dropCapture_sound (State.dropWaiting_sound hs)
  clear_value s1
  have h2 : Sound was s2 := State.keepHostLink_sound (State.otpRegs_sound (State.resetDomains_sound h1))
  clear_value s2
  have h3 : Sound was s3 := State.put_sound (State.put_sound (State.put_sound h2))
  clear_value s3
  have h4 : Sound was s4 := Sound.foldl (fun _ _ h => State.put_sound h) h3
  clear_value s4 lanes wa
  exact ⟨h4.regs, h4.mem, h4.units, Nat.zero_le _, h4.queue, h4.out, h4.free⟩

theorem State.setPhase_sound {was : State} {s : State} {p : Nat} (hs : Sound was s) :
    Sound was (State.setPhase s p) := by
  unfold State.setPhase
  iterate 8 (all_goals try first
      | with_reducible assumption | with_reducible apply State.put_sound)

theorem State.beginLoad_sound {was : State} {s : State} {src pattern base : Nat} (hs : Sound was s) :
    Sound was (State.beginLoad s src pattern base) := by
  unfold State.beginLoad
  iterate 20 (all_goals try first
      | with_reducible assumption | intro _ | with_reducible apply State.raise_sound
      | with_reducible apply State.fallBack_sound | with_reducible apply State.setPhase_sound
      | with_reducible apply State.put_sound | with_reducible apply Sound.ite | with_reducible apply Sound.foldl
      | split | with_reducible refine Sound.mk_ ?_ rfl rfl)

theorem State.endLoad_sound {was : State} {s : State} {phase source : Nat} (hs : Sound was s) :
    Sound was (State.endLoad s phase source) := by
  unfold State.endLoad
  iterate 8 (all_goals try first
      | with_reducible assumption | with_reducible apply State.put_sound | with_reducible apply State.setPhase_sound
      | with_reducible refine Sound.mk_ ?_ rfl rfl)

theorem State.recordError_sound {was : State} {s : State} {code src die chunk : Nat} (hs : Sound was s) :
    Sound was (State.recordError s code src die chunk) := by
  unfold State.recordError
  iterate 8 (all_goals try first
      | with_reducible assumption | with_reducible apply State.put_sound | with_reducible apply State.logEv_sound)

theorem State.allFailed_sound {was : State} {s : State} (hs : Sound was s) :
    Sound was (State.allFailed s) := by
  unfold State.allFailed
  iterate 8 (all_goals try first
      | with_reducible assumption | with_reducible apply State.endLoad_sound | with_reducible apply State.raise_sound
      | with_reducible refine Sound.mk_ ?_ rfl rfl)

theorem State.clearFlask_sound {was : State} {s : State} {f : Nat} (hs : Sound was s) :
    Sound was (State.clearFlask s f) := by
  unfold State.clearFlask
  iterate 8 (all_goals try first
      | with_reducible assumption | with_reducible refine Sound.mk_ ?_ rfl rfl)

theorem State.startMaster_sound {was : State} {s : State} (hs : Sound was s) :
    Sound was (State.startMaster s) := by
  unfold State.startMaster
  iterate 20 (all_goals try first
      | with_reducible assumption | intro _ | with_reducible apply State.beginLoad_sound
      | with_reducible apply State.recordError_sound | with_reducible apply State.allFailed_sound
      | with_reducible apply State.endLoad_sound | with_reducible apply Sound.ite)

theorem State.failLoad_sound {was : State} {s : State} {code die chunk : Nat} {abort : Bool} (hs : Sound was s) :
    Sound was (State.failLoad s code die chunk abort) := by
  unfold State.failLoad
  iterate 20 (all_goals try first
      | with_reducible assumption | intro _ | with_reducible apply State.recordError_sound
      | with_reducible apply State.clearFlask_sound | with_reducible apply State.put_sound
      | with_reducible apply State.endLoad_sound | with_reducible apply State.setPhase_sound
      | with_reducible apply State.clearDevice_sound | with_reducible apply State.fallBack_sound
      | with_reducible apply State.startMaster_sound | with_reducible apply State.allFailed_sound
      | with_reducible apply Sound.ite | with_reducible apply Sound.foldl | split
      | with_reducible refine Sound.mk_ ?_ rfl rfl)

theorem execLoadClearDone_sound {was : State} {s : State} (hs : Sound was s) :
    SoundOut was (execLoadClearDone s) := by
  unfold execLoadClearDone
  iterate 20 (all_goals try first
      | with_reducible assumption | intro _ | with_reducible apply State.fallBack_sound
      | with_reducible apply State.setPhase_sound | with_reducible apply State.startMaster_sound
      | with_reducible apply State.endLoad_sound | with_reducible apply State.allFailed_sound
      | with_reducible apply SoundOut.next | with_reducible apply Sound.ite | with_reducible apply SoundOut.ite)

theorem State.startPattern_sound {was : State} {s : State} {p : Nat} (hs : Sound was s) :
    Sound was (State.startPattern s p) := by
  unfold State.startPattern
  iterate 20 (all_goals try first
      | with_reducible assumption | intro _ | with_reducible apply State.beginLoad_sound
      | with_reducible apply State.failLoad_sound | with_reducible apply State.raise_sound
      | with_reducible apply Sound.ite | with_reducible apply Sound.foldl | split
      | with_reducible refine Sound.mk_ ?_ rfl rfl)

theorem State.abortOrUnload_sound {was : State} {s : State} (hs : Sound was s) :
    Sound was (State.abortOrUnload s) := by
  unfold State.abortOrUnload
  iterate 20 (all_goals try first
      | with_reducible assumption | intro _ | with_reducible apply State.recordError_sound
      | with_reducible apply State.fallBack_sound | with_reducible apply State.failLoad_sound
      | with_reducible apply State.raise_sound | with_reducible apply State.clearDevice_sound
      | with_reducible apply State.endLoad_sound | with_reducible apply Sound.ite | with_reducible apply Sound.foldl
      | split | with_reducible refine Sound.mk_ ?_ rfl rfl)

theorem State.cfgCommand_sound {was : State} {s : State} {op pattern : Nat} (hs : Sound was s) :
    Sound was (State.cfgCommand s op pattern) := by
  unfold State.cfgCommand
  iterate 20 (all_goals try first
      | with_reducible assumption | intro _ | with_reducible apply State.abortOrUnload_sound
      | with_reducible apply State.raise_sound | with_reducible apply State.wake_sound
      | with_reducible apply State.startPattern_sound | with_reducible apply State.startMaster_sound
      | with_reducible apply State.beginLoad_sound | with_reducible apply State.put_sound
      | with_reducible apply Sound.ite | with_reducible apply Sound.foldl | split
      | with_reducible refine Sound.mk_ ?_ rfl rfl)

theorem execLoadPattern_sound {was : State} {src : Src} {p : Fin 4} {s : State} (hs : Sound was s) :
    SoundOut was (execLoadPattern src p s) := by
  unfold execLoadPattern
  iterate 20 (all_goals try first
      | with_reducible assumption | intro _ | with_reducible apply State.command_sound
      | with_reducible apply State.cfgCommand_sound | with_reducible apply SoundOut.next)

theorem execLoadMaster_sound {was : State} {src : Src} {s : State} (hs : Sound was s) :
    SoundOut was (execLoadMaster src s) := by
  unfold execLoadMaster
  iterate 20 (all_goals try first
      | with_reducible assumption | intro _ | with_reducible apply State.command_sound
      | with_reducible apply State.cfgCommand_sound | with_reducible apply SoundOut.next)

theorem execHostStart_sound {was : State} {src : Src} {s : State} (hs : Sound was s) :
    SoundOut was (execHostStart src s) := by
  unfold execHostStart
  iterate 20 (all_goals try first
      | with_reducible assumption | intro _ | with_reducible apply State.command_sound
      | with_reducible apply State.cfgCommand_sound | with_reducible apply SoundOut.next)

theorem execAbortLoad_sound {was : State} {src : Src} {s : State} (hs : Sound was s) :
    SoundOut was (execAbortLoad src s) := by
  unfold execAbortLoad
  iterate 20 (all_goals try first
      | with_reducible assumption | intro _ | with_reducible apply State.command_sound
      | with_reducible apply State.cfgCommand_sound | with_reducible apply SoundOut.next)

theorem execUnload_sound {was : State} {src : Src} {s : State} (hs : Sound was s) :
    SoundOut was (execUnload src s) := by
  unfold execUnload
  iterate 20 (all_goals try first
      | with_reducible assumption | intro _ | with_reducible apply State.command_sound
      | with_reducible apply State.cfgCommand_sound | with_reducible apply SoundOut.next)

theorem execLoadFlaskFromMemory_sound {was : State} {src : Src} {s : State} (hs : Sound was s) :
    SoundOut was (execLoadFlaskFromMemory src s) := by
  unfold execLoadFlaskFromMemory
  iterate 20 (all_goals try first
      | with_reducible assumption | intro _ | with_reducible apply State.command_sound
      | with_reducible apply State.cfgCommand_sound | with_reducible apply SoundOut.next)

theorem State.bar4Take_sound {was : State} {s : State} {off : Nat} {data : List Byte} (hs : Sound was s) :
    Sound was (State.bar4Take s off data) := by
  unfold State.bar4Take
  iterate 60 (all_goals try first
      | with_reducible assumption | intro _ | with_reducible refine Sound2.of (by assumption) ?_
      | with_reducible refine Sound3.of (by assumption) ?_ | with_reducible refine Sound4.of (by assumption) ?_
      | with_reducible refine SoundO.of (by assumption) ?_ | with_reducible refine SoundO2.of (by assumption) ?_
      | with_reducible refine SoundO4.of (by assumption) ?_ | with_reducible refine SoundOut.of (by assumption) ?_
      | with_reducible apply State.raise_sound | with_reducible apply State.failLoad_sound
      | with_reducible apply State.put_sound | with_reducible apply SoundOut.next | with_reducible apply SoundO.none_
      | with_reducible apply SoundO.some_ | with_reducible apply SoundO2.none_ | with_reducible apply SoundO2.some_
      | with_reducible apply SoundO4.none_ | with_reducible apply SoundO4.some_ | with_reducible apply Sound.ite
      | with_reducible apply SoundOut.ite | with_reducible apply Sound2.ite | with_reducible apply Sound3.ite
      | with_reducible apply SoundO.ite | with_reducible apply Sound.foldl | with_reducible apply Sound2.foldl
      | (extract_lets +onlyGivenNames s1; first | (refine Sound.cut (was := was) (u := s1) ?_ ?_; rotate_left; (intro hs1; clear_value s1); rotate_left; subst s1) | skip)
      | with_reducible refine Sound4.last ?_ | with_reducible refine Sound3.last ?_
      | with_reducible refine Sound2.snd ?_ | split | with_reducible apply Sound2.pair
      | with_reducible apply Sound3.pair | with_reducible apply Sound4.pair
      | with_reducible refine Sound.mk_ ?_ rfl rfl)

theorem State.bar4Write_sound {was : State} {s : State} {off : Nat} {data : List Byte} (hs : Sound was s) :
    Sound was (State.bar4Write s off data) := by
  unfold State.bar4Write
  iterate 60 (all_goals try first
      | with_reducible assumption | intro _ | with_reducible refine Sound2.of (by assumption) ?_
      | with_reducible refine Sound3.of (by assumption) ?_ | with_reducible refine Sound4.of (by assumption) ?_
      | with_reducible refine SoundO.of (by assumption) ?_ | with_reducible refine SoundO2.of (by assumption) ?_
      | with_reducible refine SoundO4.of (by assumption) ?_ | with_reducible refine SoundOut.of (by assumption) ?_
      | with_reducible apply State.bar4Take_sound | with_reducible apply SoundOut.next
      | with_reducible apply SoundO.none_ | with_reducible apply SoundO.some_ | with_reducible apply SoundO2.none_
      | with_reducible apply SoundO2.some_ | with_reducible apply SoundO4.none_ | with_reducible apply SoundO4.some_
      | with_reducible apply Sound.ite | with_reducible apply SoundOut.ite | with_reducible apply Sound2.ite
      | with_reducible apply Sound3.ite | with_reducible apply SoundO.ite | with_reducible apply Sound.foldl
      | with_reducible apply Sound2.foldl
      | (extract_lets +onlyGivenNames s1; first | (refine Sound.cut (was := was) (u := s1) ?_ ?_; rotate_left; (intro hs1; clear_value s1); rotate_left; subst s1) | skip)
      | with_reducible refine Sound4.last ?_ | with_reducible refine Sound3.last ?_
      | with_reducible refine Sound2.snd ?_ | split | with_reducible apply Sound2.pair
      | with_reducible apply Sound3.pair | with_reducible apply Sound4.pair
      | with_reducible refine Sound.mk_ ?_ rfl rfl)

theorem bar4Resume_sound {was : State} {x0 : List (Nat × List Byte)} {x1 : State} (hs : Sound was x1) :
    Sound was (bar4Resume x0 x1) := by
  induction x0 generalizing x1 with
  | nil => exact hs
  | cons a t ih =>
    unfold bar4Resume
    exact Sound.ite hs (ih (State.bar4Take_sound (Sound.mk_ hs rfl rfl)))

theorem execBar4Write_sound {was : State} {off : BitVec 28} {data : List Byte} {s : State} (hs : Sound was s) :
    SoundOut was (execBar4Write off data s) := by
  unfold execBar4Write
  iterate 8 (all_goals try first
      | with_reducible assumption | with_reducible apply State.bar4Write_sound | with_reducible apply SoundOut.next)

theorem memRead_sound {was : State} {x0 x1 : Nat} {s : State} (hs : Sound was s) : Sound2 was (memRead x0 x1 s) := by
  induction x0 generalizing x1 s with
  | zero => exact ⟨hs⟩
  | succ n ih =>
    unfold memRead
    iterate 50 (all_goals try first
        | with_reducible assumption | intro _ | with_reducible refine Sound2.of (by assumption) ?_
        | with_reducible refine Sound3.of (by assumption) ?_ | with_reducible refine SoundO.of (by assumption) ?_
        | with_reducible apply State.engineAccess_sound | apply ih | with_reducible apply Sound.ite
        | with_reducible apply Sound2.ite | with_reducible apply Sound3.ite | with_reducible apply Sound.foldl
        | (extract_lets +onlyGivenNames s1; first | (refine Sound.cut (was := was) (u := s1) ?_ ?_; rotate_left; (intro hs1; clear_value s1); rotate_left; subst s1) | skip)
        | with_reducible refine Sound4.last ?_ | with_reducible refine Sound3.last ?_
        | with_reducible refine Sound2.snd ?_ | split | with_reducible apply Sound2.pair)

theorem State.consume_sound {was : State} {s : State} {n : Nat} (hs : Sound was s) :
    Sound was (State.consume s n) := by
  unfold State.consume
  iterate 20 (all_goals try first
      | with_reducible assumption | intro _ | with_reducible apply Sound.ite | with_reducible apply Sound.foldl
      | split | with_reducible refine Sound.mk_ ?_ rfl rfl)

theorem State.acceptHeader_sound {was : State} {s : State} {h : List Byte} {places : List Nat} (hs : Sound was s) :
    Sound was (State.acceptHeader s h places) := by
  unfold State.acceptHeader
  iterate 60 (all_goals try first
      | with_reducible assumption | intro _ | with_reducible refine Sound2.of (by assumption) ?_
      | with_reducible refine Sound3.of (by assumption) ?_ | with_reducible refine Sound4.of (by assumption) ?_
      | with_reducible refine SoundO.of (by assumption) ?_ | with_reducible refine SoundO2.of (by assumption) ?_
      | with_reducible refine SoundO4.of (by assumption) ?_ | with_reducible refine SoundOut.of (by assumption) ?_
      | with_reducible apply SoundOut.next | with_reducible apply SoundO.none_ | with_reducible apply SoundO.some_
      | with_reducible apply SoundO2.none_ | with_reducible apply SoundO2.some_ | with_reducible apply SoundO4.none_
      | with_reducible apply SoundO4.some_ | with_reducible apply Sound.ite | with_reducible apply SoundOut.ite
      | with_reducible apply Sound2.ite | with_reducible apply Sound3.ite | with_reducible apply SoundO.ite
      | with_reducible apply Sound.foldl | with_reducible apply Sound2.foldl
      | (extract_lets +onlyGivenNames s1; first | (refine Sound.cut (was := was) (u := s1) ?_ ?_; rotate_left; (intro hs1; clear_value s1); rotate_left; subst s1) | skip)
      | with_reducible refine Sound4.last ?_ | with_reducible refine Sound3.last ?_
      | with_reducible refine Sound2.snd ?_ | split | with_reducible apply Sound2.pair
      | with_reducible apply Sound3.pair | with_reducible apply Sound4.pair
      | with_reducible refine Sound.mk_ ?_ rfl rfl)

theorem State.acceptFull_sound {was : State} {s : State} {h : List Byte} {ds : List (BitVec 256)} (hs : Sound was s) :
    Sound was (State.acceptFull s h ds) := by
  have h1 := Sound.foldl (l := hMask h ++ (if hFollower h = 0 then [] else [hFollower h]))
    (f := fun s d => s.mbxReset (6 + d)) (fun _ _ h => State.mbxReset_sound h) hs
  have h2 := State.setPhase_sound (p := 2) (State.clearDevice_sound h1)
  unfold State.acceptFull
  refine Sound.mk_ (State.acceptHeader_sound ?_) rfl rfl
  have h3 := State.storeDigests_sound (img := 0) (ds := ds) h2
  generalize State.storeDigests _ _ _ = o at *
  cases o
  · exact h2
  · exact h3.all _ rfl

theorem State.acceptFlask_sound {was : State} {s : State} {h : List Byte} {ds : List (BitVec 256)} (hs : Sound was s) :
    Sound was (State.acceptFlask s h ds) := by
  unfold State.acceptFlask
  iterate 60 (all_goals try first
      | with_reducible assumption | intro _ | with_reducible refine Sound2.of (by assumption) ?_
      | with_reducible refine Sound3.of (by assumption) ?_ | with_reducible refine Sound4.of (by assumption) ?_
      | with_reducible refine SoundO.of (by assumption) ?_ | with_reducible refine SoundO2.of (by assumption) ?_
      | with_reducible refine SoundO4.of (by assumption) ?_ | with_reducible refine SoundOut.of (by assumption) ?_
      | with_reducible apply State.acceptHeader_sound | with_reducible apply State.dropCapture_sound
      | with_reducible apply State.sqMarkBad_sound | with_reducible apply State.keepPins_sound
      | with_reducible apply State.clearFlask_sound | with_reducible apply State.setPhase_sound
      | with_reducible apply State.put_sound | with_reducible apply State.raise_sound
      | with_reducible apply State.setReg_sound | with_reducible apply SoundOut.next
      | with_reducible apply SoundO.none_ | with_reducible apply SoundO.some_ | with_reducible apply SoundO2.none_
      | with_reducible apply SoundO2.some_ | with_reducible apply SoundO4.none_ | with_reducible apply SoundO4.some_
      | with_reducible apply Sound.ite | with_reducible apply SoundOut.ite | with_reducible apply Sound2.ite
      | with_reducible apply Sound3.ite | with_reducible apply SoundO.ite | with_reducible apply Sound.foldl
      | with_reducible apply Sound2.foldl
      | (extract_lets +onlyGivenNames s1; first | (refine Sound.cut (was := was) (u := s1) ?_ ?_; rotate_left; (intro hs1; clear_value s1); rotate_left; subst s1) | skip)
      | with_reducible refine Sound4.last ?_ | with_reducible refine Sound3.last ?_
      | with_reducible refine Sound2.snd ?_ | split | with_reducible apply Sound2.pair
      | with_reducible apply Sound3.pair | with_reducible apply Sound4.pair
      | with_reducible refine Sound.mk_ ?_ rfl rfl)

theorem State.acceptFollower_sound {was : State} {s : State} {h : List Byte} {ds : List (BitVec 256)} (hs : Sound was s) :
    Sound was (State.acceptFollower s h ds) := by
  unfold State.acceptFollower
  iterate 60 (all_goals try first
      | with_reducible assumption | intro _ | with_reducible refine Sound2.of (by assumption) ?_
      | with_reducible refine Sound3.of (by assumption) ?_ | with_reducible refine Sound4.of (by assumption) ?_
      | with_reducible refine SoundO.of (by assumption) ?_ | with_reducible refine SoundO2.of (by assumption) ?_
      | with_reducible refine SoundO4.of (by assumption) ?_ | with_reducible refine SoundOut.of (by assumption) ?_
      | with_reducible apply State.acceptHeader_sound | with_reducible apply SoundOut.next
      | with_reducible apply SoundO.none_ | with_reducible apply SoundO.some_ | with_reducible apply SoundO2.none_
      | with_reducible apply SoundO2.some_ | with_reducible apply SoundO4.none_ | with_reducible apply SoundO4.some_
      | with_reducible apply Sound.ite | with_reducible apply SoundOut.ite | with_reducible apply Sound2.ite
      | with_reducible apply Sound3.ite | with_reducible apply SoundO.ite | with_reducible apply Sound.foldl
      | with_reducible apply Sound2.foldl
      | (extract_lets +onlyGivenNames s1; first | (refine Sound.cut (was := was) (u := s1) ?_ ?_; rotate_left; (intro hs1; clear_value s1); rotate_left; subst s1) | skip)
      | with_reducible refine Sound4.last ?_ | with_reducible refine Sound3.last ?_
      | with_reducible refine Sound2.snd ?_ | split | with_reducible apply Sound2.pair
      | with_reducible apply Sound3.pair | with_reducible apply Sound4.pair
      | with_reducible refine Sound.mk_ ?_ rfl rfl)

theorem State.fetchImage_sound {was s : State} {off n : Nat} {flash : Option FlashRead} (hs : Sound was s) :
    (∀ t, s.fetchImage off n flash = .bad t → Sound was t) ∧ (∀ b t, s.fetchImage off n flash = .got b t → Sound was t) := by
  unfold State.fetchImage
  split
  · split <;> simp_all
  · split
    · rename_i h
      have := Sound2.of h (memRead_sound hs)
      simp_all
    · rename_i h
      have := Sound2.of h (memRead_sound hs)
      split <;> simp_all
  · repeat' split
    all_goals simp_all

theorem execHeaderReceived_sound {was : State} {flash : Option FlashRead} {s : State} (hs : Sound was s) :
    SoundOut was (execHeaderReceived flash s) := by
  unfold execHeaderReceived
  extract_lets +onlyGivenNames follower
  clear_value follower
  split
  · exact SoundOut.next hs
  extract_lets +onlyGivenNames refuse
  subst refuse
  have href : ∀ (t : State) (c d e : Nat), Sound was t → SoundOut was (.next (t.failLoad c d e)) :=
    fun _ _ _ _ h => SoundOut.next (State.failLoad_sound h)
  split
  · exact SoundOut.next hs
  · exact href _ _ _ _ ((State.fetchImage_sound hs).1 _ (by assumption))
  · rename_i h s1 e1
    have h1 := (State.fetchImage_sound hs).2 _ _ e1
    split
    · exact href _ _ _ _ h1
    split
    · exact SoundOut.next hs
    · exact href _ _ _ _ ((State.fetchImage_sound h1).1 _ (by assumption))
    · rename_i b s2 e2
      have h2 := (State.fetchImage_sound h1).2 _ _ e2
      have h3 := State.consume_sound (n := tableEnd h) h2
      extract_lets -merge table code ds s3
      clear_value table code ds
      repeat' split
      all_goals first
        | exact href _ _ _ _ h2
        | exact href _ _ _ _ h3
        | exact SoundOut.next (State.acceptFull_sound h3)
        | (rename_i e; exact SoundOut.next (State.acceptFollower_sound (SoundO.of e (State.storeDigests_sound h3))))
        | (rename_i e; exact SoundOut.next (State.acceptFlask_sound (SoundO.of e (State.storeDigests_sound h3))))

theorem State.failBody_sound {was : State} {s : State} {code : Nat} {die : Nat} (hs : Sound was s) :
    Sound was (State.failBody s code die) := by
  unfold State.failBody
  iterate 8 (all_goals try first
      | with_reducible assumption | with_reducible apply State.failLoad_sound)

end Sys2Proof.Machine
end

