-- ==== Sys2Proof/Laws/SoundRecords.lean ====
section
/-!
SUPPORT. Sys2Proof/Laws/SoundRecords.lean: the operations of Machine/Records.lean keep what Sound says.
-/

namespace Sys2Proof.Machine

theorem State.toTraining_sound {was : State} {s : State} (hs : Sound was s) :
    Sound was (State.toTraining s) := by
  unfold State.toTraining
  iterate 8 (all_goals try first
      | with_reducible assumption | with_reducible apply State.setPhase_sound
      | with_reducible refine Sound.mk_ ?_ rfl rfl)

theorem State.bodyEnds_sound {was : State} {s : State} (hs : Sound was s) :
    Sound was (State.bodyEnds s) := by
  unfold State.bodyEnds
  iterate 20 (all_goals try first
      | with_reducible assumption | intro _ | with_reducible apply State.failBody_sound
      | with_reducible apply State.toTraining_sound | with_reducible apply Sound.ite
      | with_reducible apply Sound.foldl | split | with_reducible refine Sound.mk_ ?_ rfl rfl)

theorem State.chunkEnds_sound {was : State} {s : State} (hs : Sound was s) :
    Sound was (State.chunkEnds s) := by
  unfold State.chunkEnds
  iterate 20 (all_goals try first
      | with_reducible assumption | intro _ | with_reducible apply State.bodyEnds_sound
      | with_reducible apply Sound.ite | with_reducible apply Sound.foldl | split
      | with_reducible refine Sound.mk_ ?_ rfl rfl)

theorem State.settle_sound {was : State} {s : State} (hs : Sound was s) :
    Sound was (State.settle s) := by
  unfold State.settle
  iterate 20 (all_goals try first
      | with_reducible assumption | intro _ | with_reducible apply State.chunkEnds_sound
      | with_reducible apply State.failBody_sound | with_reducible apply Sound.ite | with_reducible apply Sound.foldl
      | split)

theorem execChunkReceived_sound {was : State} {flash : Option FlashRead} {s : State} (hs : Sound was s) :
    SoundOut was (execChunkReceived flash s) := by
  unfold execChunkReceived
  extract_lets +onlyGivenNames h i
  clear_value h i
  split
  · exact SoundOut.next hs
  split
  · exact SoundOut.next (State.failBody_sound hs)
  extract_lets +onlyGivenNames n
  clear_value n
  split
  · exact SoundOut.next hs
  · exact SoundOut.next (State.failLoad_sound ((State.fetchImage_sound hs).1 _ (by assumption)))
  · rename_i e
    have h1 := (State.fetchImage_sound hs).2 _ _ e
    extract_lets +onlyGivenNames s2 src s3
    have h2 : Sound was s2 := State.consume_sound h1
    have h3 : Sound was s3 := Sound.mk_ h2 rfl rfl
    clear_value s3
    split
    · exact SoundOut.next (State.failBody_sound h3)
    · split
      · exact SoundOut.next (State.failBody_sound h3)
      · exact SoundOut.next (State.settle_sound (Sound.mk_ h3 rfl rfl))

theorem State.onRecord_sound {was : State} {s : State} {k : Nat} {act : Rec → State → State} (hs : Sound was s) (hact : ∀ a0 a1, Sound was a1 → Sound was (act a0 a1)) :
    Sound was (State.onRecord s k act) := by
  unfold State.onRecord
  iterate 20 (all_goals try first
      | with_reducible assumption | intro _ | with_reducible apply State.settle_sound | with_reducible apply hact
      | with_reducible apply Sound.ite | with_reducible apply Sound.foldl | split
      | with_reducible refine Sound.mk_ ?_ rfl rfl)

theorem State.noteWrite_sound {was : State} {s : State} {d : Nat} (hs : Sound was s) :
    Sound was (State.noteWrite s d) := by
  unfold State.noteWrite
  iterate 8 (all_goals try first
      | with_reducible assumption | with_reducible refine Sound.mk_ ?_ rfl rfl)

theorem State.putFrames_sound {was : State} {r : Rec} {s : State} (hs : Sound was s) :
    Sound was (State.putFrames r s) := by
  unfold State.putFrames
  iterate 20 (all_goals try first
      | with_reducible assumption | intro _ | with_reducible apply State.failBody_sound
      | with_reducible apply State.setFrame_sound | with_reducible apply State.setSig_sound
      | with_reducible apply State.noteWrite_sound | with_reducible apply Sound.ite | with_reducible apply Sound.foldl
      | split | with_reducible refine Sound.mk_ ?_ rfl rfl)

theorem execFramesRecord_sound {was : State} {s : State} (hs : Sound was s) :
    SoundOut was (execFramesRecord s) := by
  unfold execFramesRecord
  iterate 8 (all_goals try first
      | with_reducible assumption | with_reducible apply State.onRecord_sound
      | with_reducible apply State.putFrames_sound | with_reducible apply SoundOut.next)

theorem State.tileUnit_sound {was : State} {s : State} {d t o : Nat} {w : List Byte} (hs : Sound was s) :
    Sound was (State.tileUnit s d t o w) := by
  unfold State.tileUnit
  iterate 50 (all_goals try first
      | with_reducible assumption | intro _ | with_reducible refine Sound2.of (by assumption) ?_
      | with_reducible apply State.setDie_sound | with_reducible apply State.mouldStore_sound
      | with_reducible apply State.writeCw_sound | with_reducible apply Sound.ite | with_reducible apply Sound2.ite
      | with_reducible apply Sound.foldl
      | (extract_lets +onlyGivenNames s1; first | (refine Sound.cut (was := was) (u := s1) ?_ ?_; rotate_left; (intro hs1; clear_value s1); rotate_left; subst s1) | skip)
      | with_reducible refine Sound2.snd ?_)

theorem State.putTileData_sound {was : State} {r : Rec} {s : State} (hs : Sound was s) :
    Sound was (State.putTileData r s) := by
  unfold State.putTileData
  iterate 20 (all_goals try first
      | with_reducible assumption | intro _ | with_reducible apply State.tileUnit_sound
      | with_reducible apply State.noteWrite_sound | with_reducible apply Sound.ite | with_reducible apply Sound.foldl)

theorem execTileDataRecord_sound {was : State} {s : State} (hs : Sound was s) :
    SoundOut was (execTileDataRecord s) := by
  unfold execTileDataRecord
  iterate 8 (all_goals try first
      | with_reducible assumption | with_reducible apply State.onRecord_sound
      | with_reducible apply State.putTileData_sound | with_reducible apply SoundOut.next)

theorem State.imageSetting_sound {was : State} {s : State} {d off : Nat} {w : Word32} (hs : Sound was s) :
    Sound was (State.imageSetting s d off w) := by
  unfold State.imageSetting
  iterate 20 (all_goals try first
      | with_reducible assumption | intro _ | with_reducible apply State.put_sound
      | with_reducible apply State.setReg_sound | with_reducible apply State.dmaControl_sound
      | with_reducible apply State.writeReg_sound | with_reducible apply Sound.ite | with_reducible apply Sound.foldl
      | split | with_reducible refine Sound.mk_ ?_ rfl rfl)

theorem State.putSettings_sound {was : State} {r : Rec} {s : State} (hs : Sound was s) :
    Sound was (State.putSettings r s) := by
  unfold State.putSettings
  iterate 20 (all_goals try first
      | with_reducible assumption | intro _ | with_reducible apply State.imageSetting_sound
      | with_reducible apply State.noteWrite_sound | with_reducible apply Sound.ite | with_reducible apply Sound.foldl)

theorem execRegisterSettingsRecord_sound {was : State} {s : State} (hs : Sound was s) :
    SoundOut was (execRegisterSettingsRecord s) := by
  unfold execRegisterSettingsRecord
  iterate 8 (all_goals try first
      | with_reducible assumption | with_reducible apply State.onRecord_sound
      | with_reducible apply State.putSettings_sound | with_reducible apply SoundOut.next)

theorem State.giveRole_sound {was : State} {s : State} {g dir role : Nat} {lanes : List LaneCfg} (hs : Sound was s) :
    Sound was (State.giveRole s g dir role lanes) := by
  unfold State.giveRole
  iterate 8 (all_goals try first
      | with_reducible assumption | with_reducible apply State.setXg_sound | with_reducible apply State.put_sound
      | with_reducible refine Sound.mk_ ?_ rfl rfl)

theorem State.giveRoles_sound {was : State} {s : State} {k : Nat} {t : List Byte} {working : List Nat} (hs : Sound was s) :
    Sound was (State.giveRoles s k t working) := by
  unfold State.giveRoles
  iterate 20 (all_goals try first
      | with_reducible assumption | intro _ | with_reducible apply State.giveRole_sound
      | with_reducible apply Sound.ite | with_reducible apply Sound.foldl | split)

theorem State.setLane_sound {was : State} {s : State} {g dir b : Nat} {c : LaneCfg} (hs : Sound was s) :
    Sound was (State.setLane s g dir b c) := by
  unfold State.setLane
  iterate 8 (all_goals try first
      | with_reducible assumption | with_reducible apply State.setXg_sound)

theorem State.moveCrossing_sound {was : State} {s : State} {k : Nat} {dir : Nat} {g : Nat} {i : Nat} (hs : Sound was s) :
    SoundO was (State.moveCrossing s k dir g i) := by
  unfold State.moveCrossing
  iterate 60 (all_goals try first
      | with_reducible assumption | intro _ | with_reducible refine Sound2.of (by assumption) ?_
      | with_reducible refine Sound3.of (by assumption) ?_ | with_reducible refine Sound4.of (by assumption) ?_
      | with_reducible refine SoundO.of (by assumption) ?_ | with_reducible refine SoundO2.of (by assumption) ?_
      | with_reducible refine SoundO4.of (by assumption) ?_ | with_reducible refine SoundOut.of (by assumption) ?_
      | with_reducible apply State.put_sound | with_reducible apply State.setLane_sound
      | with_reducible apply SoundOut.next | with_reducible apply SoundO.none_ | with_reducible apply SoundO.some_
      | with_reducible apply SoundO2.none_ | with_reducible apply SoundO2.some_ | with_reducible apply SoundO4.none_
      | with_reducible apply SoundO4.some_ | with_reducible apply Sound.ite | with_reducible apply SoundOut.ite
      | with_reducible apply Sound2.ite | with_reducible apply Sound3.ite | with_reducible apply SoundO.ite
      | with_reducible apply Sound.foldl | with_reducible apply Sound2.foldl
      | (extract_lets +onlyGivenNames s1; first | (refine Sound.cut (was := was) (u := s1) ?_ ?_; rotate_left; (intro hs1; clear_value s1); rotate_left; subst s1) | skip)
      | with_reducible refine Sound4.last ?_ | with_reducible refine Sound3.last ?_
      | with_reducible refine Sound2.snd ?_ | split | with_reducible apply Sound2.pair
      | with_reducible apply Sound3.pair | with_reducible apply Sound4.pair
      | with_reducible refine Sound.mk_ ?_ rfl rfl)

theorem State.relocate_sound {was : State} {s : State} {k dir : Nat} (hs : Sound was s) :
    SoundO was (State.relocate s k dir) := by
  unfold State.relocate
  extract_lets lost
  have h := SoundO.foldlM (l := s.lostCrossings k dir) (f := fun s p => s.moveCrossing k dir p.1 p.2)
    (fun _ _ h => State.moveCrossing_sound h) hs
  generalize (List.foldlM _ s (s.lostCrossings k dir) : Option State) = o at h ⊢
  cases o
  · exact SoundO.none_
  · exact SoundO.some_ (Sound.foldl (fun _ _ h => State.setLane_sound h) (h.all _ rfl))

theorem State.putTable_sound {was : State} {r : Rec} {s : State} (hs : Sound was s) :
    Sound was (State.putTable r s) := by
  unfold State.putTable
  iterate 60 (all_goals try first
      | with_reducible assumption | intro _ | with_reducible refine Sound2.of (by assumption) ?_
      | with_reducible refine Sound3.of (by assumption) ?_ | with_reducible refine Sound4.of (by assumption) ?_
      | with_reducible refine SoundO.of (by assumption) ?_ | with_reducible refine SoundO2.of (by assumption) ?_
      | with_reducible refine SoundO4.of (by assumption) ?_ | with_reducible refine SoundOut.of (by assumption) ?_
      | with_reducible apply State.failBody_sound | with_reducible apply State.giveRoles_sound
      | with_reducible apply State.put_sound | with_reducible apply State.relocate_sound
      | with_reducible apply State.freshRoutes_sound | with_reducible apply SoundOut.next
      | with_reducible apply SoundO.none_ | with_reducible apply SoundO.some_ | with_reducible apply SoundO2.none_
      | with_reducible apply SoundO2.some_ | with_reducible apply SoundO4.none_ | with_reducible apply SoundO4.some_
      | with_reducible apply Sound.ite | with_reducible apply SoundOut.ite | with_reducible apply Sound2.ite
      | with_reducible apply Sound3.ite | with_reducible apply SoundO.ite | with_reducible apply Sound.foldl
      | with_reducible apply Sound2.foldl
      | (extract_lets +onlyGivenNames s1; first | (refine Sound.cut (was := was) (u := s1) ?_ ?_; rotate_left; (intro hs1; clear_value s1); rotate_left; subst s1) | skip)
      | with_reducible refine Sound4.last ?_ | with_reducible refine Sound3.last ?_
      | with_reducible refine Sound2.snd ?_ | split | with_reducible apply Sound2.pair
      | with_reducible apply Sound3.pair | with_reducible apply Sound4.pair
      | with_reducible refine Sound.mk_ ?_ rfl rfl)

theorem execCrossingTableRecord_sound {was : State} {s : State} (hs : Sound was s) :
    SoundOut was (execCrossingTableRecord s) := by
  unfold execCrossingTableRecord
  iterate 8 (all_goals try first
      | with_reducible assumption | with_reducible apply State.onRecord_sound
      | with_reducible apply State.putTable_sound | with_reducible apply SoundOut.next)

theorem State.putPins_sound {was : State} {r : Rec} {s : State} (hs : Sound was s) :
    Sound was (State.putPins r s) := by
  unfold State.putPins
  iterate 20 (all_goals try first
      | with_reducible assumption | intro _ | with_reducible apply State.failBody_sound
      | with_reducible apply Sound.ite | with_reducible apply Sound.foldl | split
      | with_reducible refine Sound.mk_ ?_ rfl rfl)

theorem execPinTableRecord_sound {was : State} {s : State} (hs : Sound was s) :
    SoundOut was (execPinTableRecord s) := by
  unfold execPinTableRecord
  iterate 8 (all_goals try first
      | with_reducible assumption | with_reducible apply State.onRecord_sound
      | with_reducible apply State.putPins_sound | with_reducible apply SoundOut.next)

theorem execDieEndRecord_sound {was : State} {s : State} (hs : Sound was s) :
    SoundOut was (execDieEndRecord s) := by
  unfold execDieEndRecord
  iterate 20 (all_goals try first
      | with_reducible assumption | intro _ | with_reducible apply State.onRecord_sound
      | with_reducible apply SoundOut.next | with_reducible apply Sound.ite | with_reducible apply SoundOut.ite
      | with_reducible apply Sound.foldl | split | with_reducible refine Sound.mk_ ?_ rfl rfl)

theorem execEndOfChunkRecord_sound {was : State} {s : State} (hs : Sound was s) :
    SoundOut was (execEndOfChunkRecord s) := by
  unfold execEndOfChunkRecord
  iterate 20 (all_goals try first
      | with_reducible assumption | intro _ | with_reducible apply State.onRecord_sound
      | with_reducible apply State.chunkEnds_sound | with_reducible apply SoundOut.next)

end Sys2Proof.Machine
end

