-- ==== Sys2Proof/Laws/SoundStartup.lean ====
section
/-!
SUPPORT. Sys2Proof/Laws/SoundStartup.lean: the operations of Machine/Startup.lean keep what Sound says.
-/

namespace Sys2Proof.Machine

theorem State.trainGroup_sound {was : State} {s : State} {g dir : Nat} (hs : Sound was s) :
    Sound was (State.trainGroup s g dir) := by
  unfold State.trainGroup
  iterate 20 (all_goals try first
      | with_reducible assumption | intro _ | with_reducible apply State.setXg_sound
      | with_reducible apply State.syncSpares_sound | with_reducible apply State.put_sound
      | with_reducible apply Sound.ite)

theorem execCrossingTrainingDone_sound {was : State} {s : State} (hs : Sound was s) :
    SoundOut was (execCrossingTrainingDone s) := by
  unfold execCrossingTrainingDone
  iterate 20 (all_goals try first
      | with_reducible assumption | intro _ | with_reducible apply State.trainGroup_sound
      | with_reducible apply SoundOut.next | with_reducible apply Sound.ite | with_reducible apply SoundOut.ite
      | with_reducible apply Sound.foldl | split | with_reducible refine Sound.mk_ ?_ rfl rfl)

theorem execStartUpSequence_sound {was : State} {s : State} (hs : Sound was s) :
    SoundOut was (execStartUpSequence s) := by
  unfold execStartUpSequence
  iterate 20 (all_goals try first
      | with_reducible assumption | intro _ | with_reducible apply State.setPhase_sound
      | with_reducible apply State.put_sound | with_reducible apply fixLevels_sound
      | with_reducible apply State.fixLevels_sound | with_reducible apply SoundOut.next
      | with_reducible apply Sound.ite | with_reducible apply SoundOut.ite | with_reducible apply Sound.foldl | split
      | with_reducible refine Sound.mk_ ?_ rfl rfl)

theorem State.eventActs_sound {was : State} {s : State} {e : Nat} (hs : Sound was s) :
    Sound was (State.eventActs s e) := by
  unfold State.eventActs
  iterate 8 (all_goals try first
      | with_reducible assumption | with_reducible refine Sound.mk_ ?_ rfl rfl)

theorem execStartupGsr_sound {was : State} {s : State} (hs : Sound was s) :
    SoundOut was (execStartupGsr s) := by
  unfold execStartupGsr
  iterate 60 (all_goals try first
      | with_reducible assumption | intro _ | with_reducible refine Sound2.of (by assumption) ?_
      | with_reducible refine Sound3.of (by assumption) ?_ | with_reducible refine Sound4.of (by assumption) ?_
      | with_reducible refine SoundO.of (by assumption) ?_ | with_reducible refine SoundO2.of (by assumption) ?_
      | with_reducible refine SoundO4.of (by assumption) ?_ | with_reducible refine SoundOut.of (by assumption) ?_
      | with_reducible apply State.eventActs_sound | with_reducible apply State.initFfs_sound
      | with_reducible apply State.applySrs_sound | with_reducible apply SoundOut.next
      | with_reducible apply SoundO.none_ | with_reducible apply SoundO.some_ | with_reducible apply SoundO2.none_
      | with_reducible apply SoundO2.some_ | with_reducible apply SoundO4.none_ | with_reducible apply SoundO4.some_
      | with_reducible apply Sound.ite | with_reducible apply SoundOut.ite | with_reducible apply Sound2.ite
      | with_reducible apply Sound3.ite | with_reducible apply SoundO.ite | with_reducible apply Sound.foldl
      | with_reducible apply Sound2.foldl
      | (extract_lets +onlyGivenNames s1; first | (refine Sound.cut (was := was) (u := s1) ?_ ?_; rotate_left; (intro hs1; clear_value s1); rotate_left; subst s1) | skip)
      | with_reducible refine Sound4.last ?_ | with_reducible refine Sound3.last ?_
      | with_reducible refine Sound2.snd ?_ | split | with_reducible apply Sound2.pair
      | with_reducible apply Sound3.pair | with_reducible apply Sound4.pair
      | with_reducible refine Sound.mk_ ?_ rfl rfl)

theorem State.imageLanes_sound {was : State} {s : State} {tarod : Bool} (hs : Sound was s) :
    Sound was (State.imageLanes s tarod) := by
  unfold State.imageLanes
  iterate 60 (all_goals try first
      | with_reducible assumption | intro _ | with_reducible refine Sound2.of (by assumption) ?_
      | with_reducible refine Sound3.of (by assumption) ?_ | with_reducible refine Sound4.of (by assumption) ?_
      | with_reducible refine SoundO.of (by assumption) ?_ | with_reducible refine SoundO2.of (by assumption) ?_
      | with_reducible refine SoundO4.of (by assumption) ?_ | with_reducible refine SoundOut.of (by assumption) ?_
      | with_reducible apply State.writeReg_sound | with_reducible apply State.startLane_sound
      | with_reducible apply SoundOut.next | with_reducible apply SoundO.none_ | with_reducible apply SoundO.some_
      | with_reducible apply SoundO2.none_ | with_reducible apply SoundO2.some_ | with_reducible apply SoundO4.none_
      | with_reducible apply SoundO4.some_ | with_reducible apply Sound.ite | with_reducible apply SoundOut.ite
      | with_reducible apply Sound2.ite | with_reducible apply Sound3.ite | with_reducible apply SoundO.ite
      | with_reducible apply Sound.foldl
      | (extract_lets +onlyGivenNames s1; first | (refine Sound.cut (was := was) (u := s1) ?_ ?_; rotate_left; (intro hs1; clear_value s1); rotate_left; subst s1) | skip))

theorem State.lanesOfFlask_sound {was : State} {s : State} {d : Nat} {k : Nat} (hs : Sound was s) :
    Sound was (State.lanesOfFlask s d k) := by
  unfold State.lanesOfFlask
  iterate 60 (all_goals try first
      | with_reducible assumption | intro _ | with_reducible refine Sound2.of (by assumption) ?_
      | with_reducible refine Sound3.of (by assumption) ?_ | with_reducible refine Sound4.of (by assumption) ?_
      | with_reducible refine SoundO.of (by assumption) ?_ | with_reducible refine SoundO2.of (by assumption) ?_
      | with_reducible refine SoundO4.of (by assumption) ?_ | with_reducible refine SoundOut.of (by assumption) ?_
      | with_reducible apply State.adaptLane_sound | with_reducible apply SoundOut.next
      | with_reducible apply SoundO.none_ | with_reducible apply SoundO.some_ | with_reducible apply SoundO2.none_
      | with_reducible apply SoundO2.some_ | with_reducible apply SoundO4.none_ | with_reducible apply SoundO4.some_
      | with_reducible apply Sound.ite | with_reducible apply SoundOut.ite | with_reducible apply Sound2.ite
      | with_reducible apply Sound3.ite | with_reducible apply SoundO.ite | with_reducible apply Sound.foldl
      | (extract_lets +onlyGivenNames s1; first | (refine Sound.cut (was := was) (u := s1) ?_ ?_; rotate_left; (intro hs1; clear_value s1); rotate_left; subst s1) | skip))

theorem execStartupIoen_sound {was : State} {s : State} (hs : Sound was s) :
    SoundOut was (execStartupIoen s) := by
  unfold execStartupIoen
  iterate 60 (all_goals try first
      | with_reducible assumption | intro _ | with_reducible refine Sound2.of (by assumption) ?_
      | with_reducible refine Sound3.of (by assumption) ?_ | with_reducible refine Sound4.of (by assumption) ?_
      | with_reducible refine SoundO.of (by assumption) ?_ | with_reducible refine SoundO2.of (by assumption) ?_
      | with_reducible refine SoundO4.of (by assumption) ?_ | with_reducible refine SoundOut.of (by assumption) ?_
      | with_reducible apply State.eventActs_sound | with_reducible apply State.put_sound
      | with_reducible apply State.lanesOfFlask_sound | with_reducible apply State.imageLanes_sound
      | with_reducible apply SoundOut.next | with_reducible apply SoundO.none_ | with_reducible apply SoundO.some_
      | with_reducible apply SoundO2.none_ | with_reducible apply SoundO2.some_ | with_reducible apply SoundO4.none_
      | with_reducible apply SoundO4.some_ | with_reducible apply Sound.ite | with_reducible apply SoundOut.ite
      | with_reducible apply Sound2.ite | with_reducible apply Sound3.ite | with_reducible apply SoundO.ite
      | with_reducible apply Sound.foldl | with_reducible apply Sound2.foldl
      | (extract_lets +onlyGivenNames s1; first | (refine Sound.cut (was := was) (u := s1) ?_ ?_; rotate_left; (intro hs1; clear_value s1); rotate_left; subst s1) | skip)
      | with_reducible refine Sound4.last ?_ | with_reducible refine Sound3.last ?_
      | with_reducible refine Sound2.snd ?_ | split | with_reducible apply Sound2.pair
      | with_reducible apply Sound3.pair | with_reducible apply Sound4.pair
      | with_reducible refine Sound.mk_ ?_ rfl rfl)

theorem State.releaseArray_sound {was : State} {s : State} {d : Nat} (hs : Sound was s) :
    Sound was (State.releaseArray s d) := by
  unfold State.releaseArray
  iterate 20 (all_goals try first
      | with_reducible assumption | intro _ | with_reducible apply State.latchLead_sound
      | with_reducible apply State.put_sound | with_reducible apply Sound.ite | with_reducible apply Sound.foldl)

theorem State.enableQueues_sound {was : State} {s : State} (hs : Sound was s) :
    Sound was (State.enableQueues s) := by
  unfold State.enableQueues
  iterate 20 (all_goals try first
      | with_reducible assumption | intro _ | with_reducible apply State.sqConfig_sound
      | with_reducible apply State.put_sound | with_reducible apply Sound.ite | with_reducible apply Sound.foldl
      | split | with_reducible refine Sound.mk_ ?_ rfl rfl)

theorem execStartupGwe_sound {was : State} {s : State} (hs : Sound was s) :
    SoundOut was (execStartupGwe s) := by
  unfold execStartupGwe
  iterate 20 (all_goals try first
      | with_reducible assumption | intro _ | with_reducible apply State.eventActs_sound
      | with_reducible apply State.applySrs_sound | with_reducible apply State.releaseArray_sound
      | with_reducible apply State.enableQueues_sound | with_reducible apply SoundOut.next
      | with_reducible apply Sound.ite | with_reducible apply SoundOut.ite | with_reducible apply Sound.foldl | split
      | with_reducible refine Sound.mk_ ?_ rfl rfl)

theorem State.startFettlers_sound {was : State} {s : State} {ds : List Nat} (hs : Sound was s) :
    Sound was (State.startFettlers s ds) := by
  unfold State.startFettlers
  iterate 20 (all_goals try first
      | with_reducible assumption | intro _ | with_reducible apply State.raise_sound | with_reducible apply Sound.ite
      | with_reducible apply Sound.foldl | split | with_reducible refine Sound.mk_ ?_ rfl rfl)

theorem State.setSource_sound {was : State} {s : State} {region addr : Nat} (hs : Sound was s) :
    Sound was (State.setSource s region addr) := by
  unfold State.setSource
  iterate 8 (all_goals try first
      | with_reducible assumption | with_reducible apply State.setReg_sound)

theorem State.dieRuns_sound {was : State} {s : State} {d : Nat} {h : List Byte} {addr : Nat} (hs : Sound was s) :
    Sound was (State.dieRuns s d h addr) := by
  unfold State.dieRuns
  iterate 20 (all_goals try first
      | with_reducible assumption | intro _ | with_reducible apply State.put_sound
      | with_reducible apply State.setSource_sound | with_reducible apply Sound.ite | with_reducible apply Sound.foldl
      | split | with_reducible refine Sound.mk_ ?_ rfl rfl)

theorem State.debugDomain_sound {was : State} {s : State} {h : List Byte} (hs : Sound was s) :
    Sound was (State.debugDomain s h) := by
  unfold State.debugDomain
  iterate 8 (all_goals try first
      | with_reducible assumption | with_reducible apply State.put_sound)

theorem State.boundaryEnds_sound {was : State} {s : State} (hs : Sound was s) :
    Sound was (State.boundaryEnds s) := by
  unfold State.boundaryEnds
  iterate 20 (all_goals try first
      | with_reducible assumption | intro _ | with_reducible apply State.raise_sound | with_reducible apply Sound.ite
      | with_reducible apply Sound.foldl | split | with_reducible refine Sound.mk_ ?_ rfl rfl)

theorem execStartupDone_sound {was : State} {s : State} (hs : Sound was s) :
    SoundOut was (execStartupDone s) := by
  unfold execStartupDone
  iterate 50 (all_goals try first
      | with_reducible assumption | intro _ | with_reducible apply State.eventActs_sound
      | with_reducible apply State.put_sound | with_reducible apply State.countUp_sound
      | with_reducible apply State.logEv_sound | with_reducible apply State.endLoad_sound
      | with_reducible apply State.dieRuns_sound | with_reducible apply State.raise_sound
      | with_reducible apply State.startFettlers_sound | with_reducible apply State.debugDomain_sound
      | with_reducible apply State.boundaryEnds_sound | with_reducible apply fixLevels_sound
      | with_reducible apply State.fixLevels_sound | with_reducible apply SoundOut.next
      | with_reducible apply Sound.ite | with_reducible apply SoundOut.ite | with_reducible apply Sound.foldl
      | (extract_lets +onlyGivenNames s1; first | (refine Sound.cut (was := was) (u := s1) ?_ ?_; rotate_left; (intro hs1; clear_value s1); rotate_left; subst s1) | skip)
      | split | with_reducible refine Sound.mk_ ?_ rfl rfl)

theorem execLegacyStartupEvent_sound {was : State} {e : Fin 3} {s : State} (hs : Sound was s) :
    SoundOut was (execLegacyStartupEvent e s) := by
  unfold execLegacyStartupEvent
  iterate 60 (all_goals try first
      | with_reducible assumption | intro _ | with_reducible refine Sound2.of (by assumption) ?_
      | with_reducible refine Sound3.of (by assumption) ?_ | with_reducible refine Sound4.of (by assumption) ?_
      | with_reducible refine SoundO.of (by assumption) ?_ | with_reducible refine SoundO2.of (by assumption) ?_
      | with_reducible refine SoundO4.of (by assumption) ?_ | with_reducible refine SoundOut.of (by assumption) ?_
      | with_reducible apply State.applySrs_sound | with_reducible apply State.imageLanes_sound
      | with_reducible apply State.raise_sound | with_reducible apply SoundOut.next
      | with_reducible apply SoundO.none_ | with_reducible apply SoundO.some_ | with_reducible apply SoundO2.none_
      | with_reducible apply SoundO2.some_ | with_reducible apply SoundO4.none_ | with_reducible apply SoundO4.some_
      | with_reducible apply Sound.ite | with_reducible apply SoundOut.ite | with_reducible apply Sound2.ite
      | with_reducible apply Sound3.ite | with_reducible apply SoundO.ite | with_reducible apply Sound.foldl
      | with_reducible apply Sound2.foldl
      | (extract_lets +onlyGivenNames s1; first | (refine Sound.cut (was := was) (u := s1) ?_ ?_; rotate_left; (intro hs1; clear_value s1); rotate_left; subst s1) | skip)
      | with_reducible refine Sound4.last ?_ | with_reducible refine Sound3.last ?_
      | with_reducible refine Sound2.snd ?_ | split | with_reducible apply Sound2.pair
      | with_reducible apply Sound3.pair | with_reducible apply Sound4.pair
      | with_reducible refine Sound.mk_ ?_ rfl rfl)

theorem execHostDeadlineExpiry_sound {was : State} {s : State} (hs : Sound was s) :
    SoundOut was (execHostDeadlineExpiry s) := by
  unfold execHostDeadlineExpiry
  iterate 20 (all_goals try first
      | with_reducible assumption | intro _ | with_reducible apply State.failLoad_sound
      | with_reducible apply SoundOut.next | with_reducible apply Sound.ite | with_reducible apply SoundOut.ite)

theorem State.newSpare_sound {was : State} {s : State} {g : Nat} {dir : Nat} {w : Nat} (hs : Sound was s) :
    Sound was (State.newSpare s g dir w) := by
  unfold State.newSpare
  iterate 60 (all_goals try first
      | with_reducible assumption | intro _ | with_reducible refine Sound2.of (by assumption) ?_
      | with_reducible refine Sound3.of (by assumption) ?_ | with_reducible refine Sound4.of (by assumption) ?_
      | with_reducible refine SoundO.of (by assumption) ?_ | with_reducible refine SoundO2.of (by assumption) ?_
      | with_reducible refine SoundO4.of (by assumption) ?_ | with_reducible refine SoundOut.of (by assumption) ?_
      | with_reducible apply State.setXg_sound | with_reducible apply State.markSpare_sound
      | with_reducible apply State.put_sound | with_reducible apply State.logEv_sound
      | with_reducible apply SoundOut.next | with_reducible apply SoundO.none_ | with_reducible apply SoundO.some_
      | with_reducible apply SoundO2.none_ | with_reducible apply SoundO2.some_ | with_reducible apply SoundO4.none_
      | with_reducible apply SoundO4.some_ | with_reducible apply Sound.ite
      | (extract_lets +onlyGivenNames s1; first | (refine Sound.cut (was := was) (u := s1) ?_ ?_; rotate_left; (intro hs1; clear_value s1); rotate_left; subst s1) | skip))

theorem State.checkGroup_sound {was : State} {s : State} {g : Nat} {dir : Nat} {wires : List Nat} (hs : Sound was s) :
    Sound was (State.checkGroup s g dir wires) := by
  unfold State.checkGroup
  iterate 60 (all_goals try first
      | with_reducible assumption | intro _ | with_reducible refine Sound2.of (by assumption) ?_
      | with_reducible refine Sound3.of (by assumption) ?_ | with_reducible refine Sound4.of (by assumption) ?_
      | with_reducible refine SoundO.of (by assumption) ?_ | with_reducible refine SoundO2.of (by assumption) ?_
      | with_reducible refine SoundO4.of (by assumption) ?_ | with_reducible refine SoundOut.of (by assumption) ?_
      | with_reducible apply State.markSpare_sound | with_reducible apply State.raise_sound
      | with_reducible apply State.put_sound | with_reducible apply State.logEv_sound
      | with_reducible apply State.newSpare_sound | with_reducible apply State.syncSpares_sound
      | with_reducible apply SoundOut.next | with_reducible apply SoundO.none_ | with_reducible apply SoundO.some_
      | with_reducible apply SoundO2.none_ | with_reducible apply SoundO2.some_ | with_reducible apply SoundO4.none_
      | with_reducible apply SoundO4.some_ | with_reducible apply Sound.ite | with_reducible apply SoundOut.ite
      | with_reducible apply Sound2.ite | with_reducible apply Sound3.ite | with_reducible apply SoundO.ite
      | with_reducible apply Sound.foldl
      | (extract_lets +onlyGivenNames s1; first | (refine Sound.cut (was := was) (u := s1) ?_ ?_; rotate_left; (intro hs1; clear_value s1); rotate_left; subst s1) | skip))

theorem execWireCheckDone_sound {was : State} {fails : List (Nat × Nat × List Nat)} {flash : FlashDir} {s : State} (hs : Sound was s) :
    SoundOut was (execWireCheckDone fails flash s) := by
  unfold execWireCheckDone
  iterate 60 (all_goals try first
      | with_reducible assumption | intro _ | with_reducible refine Sound2.of (by assumption) ?_
      | with_reducible refine Sound3.of (by assumption) ?_ | with_reducible refine Sound4.of (by assumption) ?_
      | with_reducible refine SoundO.of (by assumption) ?_ | with_reducible refine SoundO2.of (by assumption) ?_
      | with_reducible refine SoundO4.of (by assumption) ?_ | with_reducible refine SoundOut.of (by assumption) ?_
      | with_reducible apply State.syncSpares_sound | with_reducible apply State.checkGroup_sound
      | with_reducible apply State.raise_sound | with_reducible apply State.freshRoutes_sound
      | with_reducible apply State.startPattern_sound | with_reducible apply SoundOut.next
      | with_reducible apply SoundO.none_ | with_reducible apply SoundO.some_ | with_reducible apply SoundO2.none_
      | with_reducible apply SoundO2.some_ | with_reducible apply SoundO4.none_ | with_reducible apply SoundO4.some_
      | with_reducible apply Sound.ite | with_reducible apply SoundOut.ite | with_reducible apply Sound2.ite
      | with_reducible apply Sound3.ite | with_reducible apply SoundO.ite | with_reducible apply Sound.foldl
      | with_reducible apply Sound2.foldl
      | (extract_lets +onlyGivenNames s1; first | (refine Sound.cut (was := was) (u := s1) ?_ ?_; rotate_left; (intro hs1; clear_value s1); rotate_left; subst s1) | skip)
      | with_reducible refine Sound4.last ?_ | with_reducible refine Sound3.last ?_
      | with_reducible refine Sound2.snd ?_ | split | with_reducible apply Sound2.pair
      | with_reducible apply Sound3.pair | with_reducible apply Sound4.pair
      | with_reducible refine Sound.mk_ ?_ rfl rfl)

theorem execPerstNAssert_sound {was : State} {s : State} (hs : Sound was s) :
    SoundOut was (execPerstNAssert s) := by
  unfold execPerstNAssert
  iterate 20 (all_goals try first
      | with_reducible assumption | intro _ | with_reducible apply State.failLoad_sound
      | with_reducible apply State.resetDomains_sound | with_reducible apply State.otpRegs_sound
      | with_reducible apply State.mbxReset_sound | with_reducible apply State.wake_sound
      | with_reducible apply SoundOut.next | with_reducible apply Sound.ite | with_reducible apply SoundOut.ite
      | with_reducible apply Sound.foldl | split | with_reducible refine Sound.mk_ ?_ rfl rfl)

theorem execPerstNRelease_sound {was : State} {s : State} (hs : Sound was s) : SoundOut was (execPerstNRelease s) :=
  SoundOut.next (Sound.ite (Sound.mk_ hs rfl rfl) (Sound.foldl (fun _ _ h => State.startLane_sound h) (Sound.mk_ hs rfl rfl)))

end Sys2Proof.Machine
end

