-- ==== Sys2Proof/Laws/SoundFlasks.lean ====
section
/-!
SUPPORT. Sys2Proof/Laws/SoundFlasks.lean: the operations of Machine/Flasks.lean keep what Sound says.
-/

namespace Sys2Proof.Machine

theorem State.rbLockRead_sound {was : State} {s : State} {src : Src} (hs : Sound was s) :
    Sound2 was (State.rbLockRead s src) := by
  unfold State.rbLockRead
  iterate 20 (all_goals try first
      | with_reducible assumption | intro _ | with_reducible apply State.put_sound | with_reducible apply Sound.ite
      | with_reducible apply Sound2.ite | with_reducible apply Sound.foldl | split | with_reducible apply Sound2.pair)

theorem State.rbLockWrite_sound {was : State} {s : State} {n : Nat} (hs : Sound was s) :
    Sound was (State.rbLockWrite s n) := by
  unfold State.rbLockWrite
  iterate 20 (all_goals try first
      | with_reducible assumption | intro _ | with_reducible apply State.put_sound | with_reducible apply Sound.ite)

theorem execReadbackLockRead_sound {was : State} {src : Src} {s : State} (hs : Sound was s) :
    SoundOut was (execReadbackLockRead src s) := by
  unfold execReadbackLockRead
  iterate 50 (all_goals try first
      | with_reducible assumption | intro _ | with_reducible refine Sound2.of (by assumption) ?_
      | with_reducible apply State.rbLockRead_sound | with_reducible apply State.answerWord_sound
      | with_reducible apply SoundOut.next | with_reducible apply Sound.ite | with_reducible apply SoundOut.ite
      | with_reducible apply Sound2.ite | with_reducible apply Sound.foldl
      | (extract_lets +onlyGivenNames s1; first | (refine Sound.cut (was := was) (u := s1) ?_ ?_; rotate_left; (intro hs1; clear_value s1); rotate_left; subst s1) | skip)
      | with_reducible refine Sound2.snd ?_)

theorem execReadbackLockRelease_sound {was : State} {src : Src} {s : State} (hs : Sound was s) :
    SoundOut was (execReadbackLockRelease src s) := by
  unfold execReadbackLockRelease
  iterate 60 (all_goals try first
      | with_reducible assumption | intro _ | with_reducible refine Sound2.of (by assumption) ?_
      | with_reducible refine Sound3.of (by assumption) ?_ | with_reducible refine Sound4.of (by assumption) ?_
      | with_reducible refine SoundO.of (by assumption) ?_ | with_reducible refine SoundO2.of (by assumption) ?_
      | with_reducible refine SoundO4.of (by assumption) ?_ | with_reducible refine SoundOut.of (by assumption) ?_
      | with_reducible apply State.regAct_sound | with_reducible apply State.rbLockWrite_sound
      | with_reducible apply SoundOut.next
      | (extract_lets +onlyGivenNames s1; first | (refine Sound.cut (was := was) (u := s1) ?_ ?_; rotate_left; (intro hs1; clear_value s1); rotate_left; subst s1) | skip))

theorem State.captureFlask_sound {was : State} {s : State} {f : Nat} {near : List Nat} (hs : Sound was s) :
    Sound was (State.captureFlask s f near) := by
  unfold State.captureFlask
  exact State.raise_sound
    ⟨hs.regs, hs.mem, hs.units, hs.held, hs.queue, hs.out, Nat.le_trans hs.free (Nat.le_add_right ..)⟩

theorem State.rbDone_sound {was : State} {s : State} {res : Nat} (hs : Sound was s) :
    Sound was (State.rbDone s res) := by
  unfold State.rbDone
  iterate 8 (all_goals try first
      | with_reducible assumption | with_reducible apply State.put_sound)

theorem State.fillWin_sound {was : State} {s : State} {n : RegName} {bytes : List Byte} (hs : Sound was s) :
    Sound was (State.fillWin s n bytes) := by
  unfold State.fillWin
  iterate 20 (all_goals try first
      | with_reducible assumption | intro _ | with_reducible apply State.setReg_sound | with_reducible apply Sound.ite
      | with_reducible apply Sound.foldl)

theorem State.rbCommand_sound {was : State} {s : State} {src : Src} {op die flask arg : Nat} (hs : Sound was s) :
    Sound was (State.rbCommand s src op die flask arg) := by
  unfold State.rbCommand
  iterate 20 (all_goals try first
      | with_reducible assumption | intro _ | with_reducible apply State.rbDone_sound
      | with_reducible apply State.raise_sound | with_reducible apply State.put_sound
      | with_reducible apply State.fillWin_sound | with_reducible apply Sound.ite | with_reducible apply Sound.foldl
      | split | with_reducible refine Sound.mk_ ?_ rfl rfl)

theorem State.rbWrite_sound {was : State} {s : State} {src : Src} {w : Word32} (hs : Sound was s) :
    Sound was (State.rbWrite s src w) := by
  unfold State.rbWrite
  iterate 60 (all_goals try first
      | with_reducible assumption | intro _ | with_reducible refine Sound2.of (by assumption) ?_
      | with_reducible refine Sound3.of (by assumption) ?_ | with_reducible refine Sound4.of (by assumption) ?_
      | with_reducible refine SoundO.of (by assumption) ?_ | with_reducible refine SoundO2.of (by assumption) ?_
      | with_reducible refine SoundO4.of (by assumption) ?_ | with_reducible refine SoundOut.of (by assumption) ?_
      | with_reducible apply State.regAct_sound | with_reducible apply State.rbCommand_sound
      | with_reducible apply State.answer_sound | with_reducible apply SoundOut.next
      | with_reducible apply SoundO.none_ | with_reducible apply SoundO.some_ | with_reducible apply SoundO2.none_
      | with_reducible apply SoundO2.some_ | with_reducible apply SoundO4.none_ | with_reducible apply SoundO4.some_
      | with_reducible apply Sound.ite
      | (extract_lets +onlyGivenNames s1; first | (refine Sound.cut (was := was) (u := s1) ?_ ?_; rotate_left; (intro hs1; clear_value s1); rotate_left; subst s1) | skip))

theorem execCapture_sound {was : State} {src : Src} {flask : Fin 64} {net : Fin 32} {s : State} (hs : Sound was s) :
    SoundOut was (execCapture src flask net s) := by
  unfold execCapture
  iterate 8 (all_goals try first
      | with_reducible assumption | with_reducible apply State.rbWrite_sound | with_reducible apply SoundOut.next)

theorem execReadCaptureFrame_sound {was : State} {src : Src} {flask : Fin 64} {k : BitVec 16} {s : State} (hs : Sound was s) :
    SoundOut was (execReadCaptureFrame src flask k s) := by
  unfold execReadCaptureFrame
  iterate 8 (all_goals try first
      | with_reducible assumption | with_reducible apply State.rbWrite_sound | with_reducible apply SoundOut.next)

theorem execReadConfigurationFrame_sound {was : State} {src : Src} {die : Fin 4} {frame : BitVec 16} {s : State} (hs : Sound was s) :
    SoundOut was (execReadConfigurationFrame src die frame s) := by
  unfold execReadConfigurationFrame
  iterate 8 (all_goals try first
      | with_reducible assumption | with_reducible apply State.rbWrite_sound | with_reducible apply SoundOut.next)

theorem execCancelCapture_sound {was : State} {src : Src} {flask : Fin 64} {s : State} (hs : Sound was s) :
    SoundOut was (execCancelCapture src flask s) := by
  unfold execCancelCapture
  iterate 8 (all_goals try first
      | with_reducible assumption | with_reducible apply State.rbWrite_sound | with_reducible apply SoundOut.next)

theorem execCaptureTaken_sound {was : State} {near : List Nat} {s : State} (hs : Sound was s) :
    SoundOut was (execCaptureTaken near s) := by
  unfold execCaptureTaken
  iterate 20 (all_goals try first
      | with_reducible assumption | intro _ | with_reducible apply State.captureFlask_sound
      | with_reducible apply State.put_sound | with_reducible apply SoundOut.next | with_reducible apply Sound.ite
      | with_reducible apply SoundOut.ite | with_reducible apply Sound.foldl | split
      | with_reducible refine Sound.mk_ ?_ rfl rfl)

theorem State.ftlQueue_sound {was : State} {s : State} {d : Nat} {r : FtlReq} (hs : Sound was s) :
    Sound was (State.ftlQueue s d r) := by
  unfold State.ftlQueue
  iterate 20 (all_goals try first
      | with_reducible assumption | intro _ | with_reducible apply State.raise_sound
      | with_reducible apply State.put_sound | with_reducible apply Sound.ite | with_reducible apply Sound.foldl
      | split | with_reducible refine Sound.mk_ ?_ rfl rfl)

theorem State.ftlSkip_sound {was : State} {s : State} {d f : Nat} (hs : Sound was s) :
    Sound was (State.ftlSkip s d f) := by
  unfold State.ftlSkip
  iterate 20 (all_goals try first
      | with_reducible assumption | intro _ | with_reducible apply Sound.ite | with_reducible apply Sound.foldl
      | split | with_reducible refine Sound.mk_ ?_ rfl rfl)

theorem State.noteFailing_sound {was : State} {s : State} {d : Nat} {f : Nat} (hs : Sound was s) :
    Sound was (State.noteFailing s d f) := by
  unfold State.noteFailing
  iterate 60 (all_goals try first
      | with_reducible assumption | intro _ | with_reducible refine Sound2.of (by assumption) ?_
      | with_reducible refine Sound3.of (by assumption) ?_ | with_reducible refine Sound4.of (by assumption) ?_
      | with_reducible refine SoundO.of (by assumption) ?_ | with_reducible refine SoundO2.of (by assumption) ?_
      | with_reducible refine SoundO4.of (by assumption) ?_ | with_reducible refine SoundOut.of (by assumption) ?_
      | with_reducible apply SoundOut.next | with_reducible apply SoundO.none_ | with_reducible apply SoundO.some_
      | with_reducible apply SoundO2.none_ | with_reducible apply SoundO2.some_ | with_reducible apply SoundO4.none_
      | with_reducible apply SoundO4.some_ | with_reducible apply Sound.ite | with_reducible apply SoundOut.ite
      | with_reducible apply Sound2.ite | with_reducible apply Sound3.ite | with_reducible apply SoundO.ite
      | with_reducible apply Sound.foldl | with_reducible apply Sound2.foldl
      | (extract_lets +onlyGivenNames s1; first | (refine Sound.cut (was := was) (u := s1) ?_ ?_; rotate_left; (intro hs1; clear_value s1); rotate_left; subst s1) | skip)
      | with_reducible refine Sound4.last ?_ | with_reducible refine Sound3.last ?_
      | with_reducible refine Sound2.snd ?_ | split | with_reducible apply Sound2.pair
      | with_reducible apply Sound3.pair | with_reducible apply Sound4.pair
      | with_reducible refine Sound.mk_ ?_ rfl rfl)

theorem State.checkFrame_sound {was : State} {s : State} {d : Nat} {f : Nat} {misread : Bool} (hs : Sound was s) :
    Sound was (State.checkFrame s d f misread) := by
  unfold State.checkFrame
  iterate 60 (all_goals try first
      | with_reducible assumption | intro _ | with_reducible refine Sound2.of (by assumption) ?_
      | with_reducible refine Sound3.of (by assumption) ?_ | with_reducible refine Sound4.of (by assumption) ?_
      | with_reducible refine SoundO.of (by assumption) ?_ | with_reducible refine SoundO2.of (by assumption) ?_
      | with_reducible refine SoundO4.of (by assumption) ?_ | with_reducible refine SoundOut.of (by assumption) ?_
      | with_reducible apply State.bucket_sound | with_reducible apply State.raise_sound
      | with_reducible apply State.noteFailing_sound | with_reducible apply State.ftlQueue_sound
      | with_reducible apply State.interrupt_sound | with_reducible apply State.setSig_sound
      | with_reducible apply State.ftlSkip_sound | with_reducible apply SoundOut.next
      | with_reducible apply SoundO.none_ | with_reducible apply SoundO.some_ | with_reducible apply SoundO2.none_
      | with_reducible apply SoundO2.some_ | with_reducible apply SoundO4.none_ | with_reducible apply SoundO4.some_
      | with_reducible apply Sound.ite | with_reducible apply SoundOut.ite | with_reducible apply Sound2.ite
      | with_reducible apply Sound3.ite | with_reducible apply SoundO.ite | with_reducible apply Sound.foldl
      | with_reducible apply Sound2.foldl
      | (extract_lets +onlyGivenNames s1; first | (refine Sound.cut (was := was) (u := s1) ?_ ?_; rotate_left; (intro hs1; clear_value s1); rotate_left; subst s1) | skip)
      | with_reducible refine Sound4.last ?_ | with_reducible refine Sound3.last ?_
      | with_reducible refine Sound2.snd ?_ | split)

theorem State.scanOn_sound {was : State} {s : State} {d f : Nat} (hs : Sound was s) :
    Sound was (State.scanOn s d f) := by
  unfold State.scanOn
  iterate 20 (all_goals try first
      | with_reducible assumption | intro _ | with_reducible apply State.put_sound | with_reducible apply Sound.ite
      | with_reducible apply Sound.foldl | split | with_reducible refine Sound.mk_ ?_ rfl rfl)

theorem execFettlerFrameCheck_sound {was : State} {d : Fin 4} {upset : Option (List Byte)} {misread : Bool} {vote : Option Byte} {s : State} (hs : Sound was s) :
    SoundOut was (execFettlerFrameCheck d upset misread vote s) := by
  unfold execFettlerFrameCheck
  iterate 20 (all_goals try first
      | with_reducible assumption | intro _ | with_reducible apply State.setFrame_sound
      | with_reducible apply State.raise_sound | with_reducible apply State.logEv_sound
      | with_reducible apply State.checkFrame_sound | with_reducible apply State.scanOn_sound
      | with_reducible apply SoundOut.next | with_reducible apply Sound.ite | with_reducible apply SoundOut.ite
      | with_reducible apply Sound.foldl | split)

theorem State.abandon_sound {was : State} {s : State} {d : Nat} {r : FtlReq} (hs : Sound was s) :
    Sound was (State.abandon s d r) := by
  unfold State.abandon
  iterate 8 (all_goals try first
      | with_reducible assumption | with_reducible apply State.raise_sound | with_reducible apply State.logEv_sound
      | with_reducible apply State.ftlSkip_sound)

theorem State.fetchRepair_sound {was : State} {s : State} {d : Nat} {r : FtlReq} {flash : Option (FlashRead × FlashRead)} (hs : Sound was s) :
    Sound2 was (State.fetchRepair s d r flash) := by
  unfold State.fetchRepair
  iterate 60 (all_goals try first
      | with_reducible assumption | intro _ | with_reducible refine Sound2.of (by assumption) ?_
      | with_reducible refine Sound3.of (by assumption) ?_ | with_reducible refine Sound4.of (by assumption) ?_
      | with_reducible refine SoundO.of (by assumption) ?_ | with_reducible refine SoundO2.of (by assumption) ?_
      | with_reducible refine SoundO4.of (by assumption) ?_ | with_reducible refine SoundOut.of (by assumption) ?_
      | with_reducible apply memRead_sound | with_reducible apply SoundOut.next | with_reducible apply SoundO.none_
      | with_reducible apply SoundO.some_ | with_reducible apply SoundO2.none_ | with_reducible apply SoundO2.some_
      | with_reducible apply SoundO4.none_ | with_reducible apply SoundO4.some_ | with_reducible apply Sound.ite
      | with_reducible apply SoundOut.ite | with_reducible apply Sound2.ite | with_reducible apply Sound3.ite
      | with_reducible apply SoundO.ite | with_reducible apply Sound.foldl | with_reducible apply Sound2.foldl
      | (extract_lets +onlyGivenNames s1; first | (refine Sound.cut (was := was) (u := s1) ?_ ?_; rotate_left; (intro hs1; clear_value s1); rotate_left; subst s1) | skip)
      | with_reducible refine Sound4.last ?_ | with_reducible refine Sound3.last ?_
      | with_reducible refine Sound2.snd ?_ | split | with_reducible apply Sound2.pair)

theorem State.prepareRepair_sound {was : State} {s : State} {d : Nat} {r : FtlReq} {flash : Option (FlashRead × FlashRead)} (hs : Sound was s) :
    Sound was (State.prepareRepair s d r flash) := by
  unfold State.prepareRepair
  iterate 60 (all_goals try first
      | with_reducible assumption | intro _ | with_reducible refine Sound2.of (by assumption) ?_
      | with_reducible refine Sound3.of (by assumption) ?_ | with_reducible refine Sound4.of (by assumption) ?_
      | with_reducible refine SoundO.of (by assumption) ?_ | with_reducible refine SoundO2.of (by assumption) ?_
      | with_reducible refine SoundO4.of (by assumption) ?_ | with_reducible refine SoundOut.of (by assumption) ?_
      | with_reducible apply State.fetchRepair_sound | with_reducible apply State.abandon_sound
      | with_reducible apply State.digestOf_sound | with_reducible apply State.fillWin_sound
      | with_reducible apply SoundOut.next | with_reducible apply SoundO.none_ | with_reducible apply SoundO.some_
      | with_reducible apply SoundO2.none_ | with_reducible apply SoundO2.some_ | with_reducible apply SoundO4.none_
      | with_reducible apply SoundO4.some_ | with_reducible apply Sound.ite | with_reducible apply SoundOut.ite
      | with_reducible apply Sound2.ite | with_reducible apply Sound3.ite | with_reducible apply SoundO.ite
      | with_reducible apply Sound.foldl | with_reducible apply Sound2.foldl
      | (extract_lets +onlyGivenNames s1; first | (refine Sound.cut (was := was) (u := s1) ?_ ?_; rotate_left; (intro hs1; clear_value s1); rotate_left; subst s1) | skip)
      | with_reducible refine Sound4.last ?_ | with_reducible refine Sound3.last ?_
      | with_reducible refine Sound2.snd ?_ | split)

theorem State.ftlPop_sound {was : State} {s : State} {src : Src} {d : Nat} {flash : Option (FlashRead × FlashRead)} (hs : Sound was s) :
    Sound2 was (State.ftlPop s src d flash) := by
  unfold State.ftlPop
  iterate 60 (all_goals try first
      | with_reducible assumption | intro _ | with_reducible refine Sound2.of (by assumption) ?_
      | with_reducible refine Sound3.of (by assumption) ?_ | with_reducible refine Sound4.of (by assumption) ?_
      | with_reducible refine SoundO.of (by assumption) ?_ | with_reducible refine SoundO2.of (by assumption) ?_
      | with_reducible refine SoundO4.of (by assumption) ?_ | with_reducible refine SoundOut.of (by assumption) ?_
      | with_reducible apply State.put_sound | with_reducible apply State.prepareRepair_sound
      | with_reducible apply SoundOut.next | with_reducible apply SoundO.none_ | with_reducible apply SoundO.some_
      | with_reducible apply SoundO2.none_ | with_reducible apply SoundO2.some_ | with_reducible apply SoundO4.none_
      | with_reducible apply SoundO4.some_ | with_reducible apply Sound.ite | with_reducible apply SoundOut.ite
      | with_reducible apply Sound2.ite | with_reducible apply Sound3.ite | with_reducible apply SoundO.ite
      | with_reducible apply Sound.foldl | with_reducible apply Sound2.foldl
      | (extract_lets +onlyGivenNames s1; first | (refine Sound.cut (was := was) (u := s1) ?_ ?_; rotate_left; (intro hs1; clear_value s1); rotate_left; subst s1) | skip)
      | with_reducible refine Sound4.last ?_ | with_reducible refine Sound3.last ?_
      | with_reducible refine Sound2.snd ?_ | split | with_reducible apply Sound2.pair
      | with_reducible apply Sound3.pair | with_reducible apply Sound4.pair
      | with_reducible refine Sound.mk_ ?_ rfl rfl)

theorem execFettlerRequestPop_sound {was : State} {src : Src} {d : Fin 4} {flash : Option (FlashRead × FlashRead)} {s : State} (hs : Sound was s) :
    SoundOut was (execFettlerRequestPop src d flash s) := by
  unfold execFettlerRequestPop
  iterate 60 (all_goals try first
      | with_reducible assumption | intro _ | with_reducible refine Sound2.of (by assumption) ?_
      | with_reducible refine Sound3.of (by assumption) ?_ | with_reducible refine Sound4.of (by assumption) ?_
      | with_reducible refine SoundO.of (by assumption) ?_ | with_reducible refine SoundO2.of (by assumption) ?_
      | with_reducible refine SoundO4.of (by assumption) ?_ | with_reducible refine SoundOut.of (by assumption) ?_
      | with_reducible apply State.ftlPop_sound | with_reducible apply State.answerWord_sound
      | with_reducible apply SoundOut.next | with_reducible apply SoundO.none_ | with_reducible apply SoundO.some_
      | with_reducible apply SoundO2.none_ | with_reducible apply SoundO2.some_ | with_reducible apply SoundO4.none_
      | with_reducible apply SoundO4.some_ | with_reducible apply Sound.ite | with_reducible apply SoundOut.ite
      | with_reducible apply Sound2.ite | with_reducible apply Sound3.ite | with_reducible apply SoundO.ite
      | with_reducible apply Sound.foldl | with_reducible apply Sound2.foldl
      | (extract_lets +onlyGivenNames s1; first | (refine Sound.cut (was := was) (u := s1) ?_ ?_; rotate_left; (intro hs1; clear_value s1); rotate_left; subst s1) | skip)
      | with_reducible refine Sound4.last ?_ | with_reducible refine Sound3.last ?_
      | with_reducible refine Sound2.snd ?_)

theorem State.rcmd_sound {was : State} {s : State} {op die frame : Nat} (hs : Sound was s) :
    Sound was (State.rcmd s op die frame) := by
  unfold State.rcmd
  iterate 20 (all_goals try first
      | with_reducible assumption | intro _ | with_reducible apply State.put_sound
      | with_reducible apply State.raise_sound | with_reducible apply State.setFrame_sound
      | with_reducible apply Sound.ite)

theorem State.rcmdWrite_sound {was : State} {s : State} {src : Src} {w : Word32} (hs : Sound was s) :
    Sound was (State.rcmdWrite s src w) := by
  unfold State.rcmdWrite
  iterate 60 (all_goals try first
      | with_reducible assumption | intro _ | with_reducible refine Sound2.of (by assumption) ?_
      | with_reducible refine Sound3.of (by assumption) ?_ | with_reducible refine Sound4.of (by assumption) ?_
      | with_reducible refine SoundO.of (by assumption) ?_ | with_reducible refine SoundO2.of (by assumption) ?_
      | with_reducible refine SoundO4.of (by assumption) ?_ | with_reducible refine SoundOut.of (by assumption) ?_
      | with_reducible apply State.regAct_sound | with_reducible apply State.rcmd_sound
      | with_reducible apply State.answer_sound | with_reducible apply SoundOut.next
      | with_reducible apply SoundO.none_ | with_reducible apply SoundO.some_ | with_reducible apply SoundO2.none_
      | with_reducible apply SoundO2.some_ | with_reducible apply SoundO4.none_ | with_reducible apply SoundO4.some_
      | with_reducible apply Sound.ite
      | (extract_lets +onlyGivenNames s1; first | (refine Sound.cut (was := was) (u := s1) ?_ ?_; rotate_left; (intro hs1; clear_value s1); rotate_left; subst s1) | skip))

theorem execWriteFrame_sound {was : State} {src : Src} {die : Fin 4} {frame : BitVec 16} {s : State} (hs : Sound was s) :
    SoundOut was (execWriteFrame src die frame s) := by
  unfold execWriteFrame
  iterate 8 (all_goals try first
      | with_reducible assumption | with_reducible apply State.rcmdWrite_sound | with_reducible apply SoundOut.next)

theorem execWriteFrameRebuildSignature_sound {was : State} {src : Src} {die : Fin 4} {frame : BitVec 16} {s : State} (hs : Sound was s) :
    SoundOut was (execWriteFrameRebuildSignature src die frame s) := by
  unfold execWriteFrameRebuildSignature
  iterate 8 (all_goals try first
      | with_reducible assumption | with_reducible apply State.rcmdWrite_sound | with_reducible apply SoundOut.next)

theorem execFrameRewriteDone_sound {was : State} {back : Option (List Byte)} {s : State} (hs : Sound was s) :
    SoundOut was (execFrameRewriteDone back s) := by
  unfold execFrameRewriteDone
  iterate 60 (all_goals try first
      | with_reducible assumption | intro _ | with_reducible refine Sound2.of (by assumption) ?_
      | with_reducible refine Sound3.of (by assumption) ?_ | with_reducible refine Sound4.of (by assumption) ?_
      | with_reducible refine SoundO.of (by assumption) ?_ | with_reducible refine SoundO2.of (by assumption) ?_
      | with_reducible refine SoundO4.of (by assumption) ?_ | with_reducible refine SoundOut.of (by assumption) ?_
      | with_reducible apply State.setFrame_sound | with_reducible apply State.put_sound
      | with_reducible apply State.setSig_sound | with_reducible apply State.logEv_sound
      | with_reducible apply State.raise_sound | with_reducible apply State.noteFailing_sound
      | with_reducible apply State.ftlSkip_sound | with_reducible apply SoundOut.next
      | with_reducible apply SoundO.none_ | with_reducible apply SoundO.some_ | with_reducible apply SoundO2.none_
      | with_reducible apply SoundO2.some_ | with_reducible apply SoundO4.none_ | with_reducible apply SoundO4.some_
      | with_reducible apply Sound.ite | with_reducible apply SoundOut.ite | with_reducible apply Sound2.ite
      | with_reducible apply Sound3.ite | with_reducible apply SoundO.ite | with_reducible apply Sound.foldl
      | with_reducible apply Sound2.foldl
      | (extract_lets +onlyGivenNames s1; first | (refine Sound.cut (was := was) (u := s1) ?_ ?_; rotate_left; (intro hs1; clear_value s1); rotate_left; subst s1) | skip)
      | with_reducible refine Sound4.last ?_ | with_reducible refine Sound3.last ?_
      | with_reducible refine Sound2.snd ?_ | split | with_reducible apply Sound2.pair
      | with_reducible apply Sound3.pair | with_reducible apply Sound4.pair
      | with_reducible refine Sound.mk_ ?_ rfl rfl)

end Sys2Proof.Machine
end

