-- ==== Sys2Proof/Laws/SoundTarod.lean ====
section
/-!
SUPPORT. Sys2Proof/Laws/SoundTarod.lean: the operations of Machine/Tarod.lean keep what Sound says.
-/

namespace Sys2Proof.Machine

theorem State.trbCommand_sound {was : State} {s : State} {src : Src} {op frame : Nat} (hs : Sound was s) :
    Sound was (State.trbCommand s src op frame) := by
  unfold State.trbCommand
  iterate 20 (all_goals try first
      | with_reducible assumption | intro _ | with_reducible apply State.put_sound
      | with_reducible apply State.fillWin_sound | with_reducible apply Sound.ite | with_reducible apply Sound.foldl
      | split)

theorem State.trbWrite_sound {was : State} {s : State} {src : Src} {w : Word32} (hs : Sound was s) :
    Sound was (State.trbWrite s src w) := by
  unfold State.trbWrite
  iterate 60 (all_goals try first
      | with_reducible assumption | intro _ | with_reducible refine Sound2.of (by assumption) ?_
      | with_reducible refine Sound3.of (by assumption) ?_ | with_reducible refine Sound4.of (by assumption) ?_
      | with_reducible refine SoundO.of (by assumption) ?_ | with_reducible refine SoundO2.of (by assumption) ?_
      | with_reducible refine SoundO4.of (by assumption) ?_ | with_reducible refine SoundOut.of (by assumption) ?_
      | with_reducible apply State.regAct_sound | with_reducible apply State.trbCommand_sound
      | with_reducible apply State.answer_sound | with_reducible apply SoundOut.next
      | with_reducible apply SoundO.none_ | with_reducible apply SoundO.some_ | with_reducible apply SoundO2.none_
      | with_reducible apply SoundO2.some_ | with_reducible apply SoundO4.none_ | with_reducible apply SoundO4.some_
      | with_reducible apply Sound.ite
      | (extract_lets +onlyGivenNames s1; first | (refine Sound.cut (was := was) (u := s1) ?_ ?_; rotate_left; (intro hs1; clear_value s1); rotate_left; subst s1) | skip))

theorem execReadLegacyFrame_sound {was : State} {src : Src} {frame : BitVec 24} {s : State} (hs : Sound was s) :
    SoundOut was (execReadLegacyFrame src frame s) := by
  unfold execReadLegacyFrame
  iterate 8 (all_goals try first
      | with_reducible assumption | with_reducible apply State.trbWrite_sound | with_reducible apply SoundOut.next)

theorem execLegacyCaptureTrigger_sound {was : State} {near : List Nat} {s : State} (hs : Sound was s) :
    SoundOut was (execLegacyCaptureTrigger near s) := by
  unfold execLegacyCaptureTrigger
  iterate 20 (all_goals try first
      | with_reducible assumption | intro _ | with_reducible apply State.captureFlask_sound
      | with_reducible apply SoundOut.next | with_reducible apply Sound.ite | with_reducible apply SoundOut.ite
      | with_reducible apply Sound.foldl | split)

theorem execLegacyGlobalSetReset_sound {was : State} {level : Bool} {s : State} (hs : Sound was s) :
    SoundOut was (execLegacyGlobalSetReset level s) := by
  unfold execLegacyGlobalSetReset
  iterate 60 (all_goals try first
      | with_reducible assumption | intro _ | with_reducible refine Sound2.of (by assumption) ?_
      | with_reducible refine Sound3.of (by assumption) ?_ | with_reducible refine Sound4.of (by assumption) ?_
      | with_reducible refine SoundO.of (by assumption) ?_ | with_reducible refine SoundO2.of (by assumption) ?_
      | with_reducible refine SoundO4.of (by assumption) ?_ | with_reducible refine SoundOut.of (by assumption) ?_
      | with_reducible apply State.put_sound | with_reducible apply State.applySrs_sound
      | with_reducible apply State.initFfs_sound | with_reducible apply State.setBramPort_sound
      | with_reducible apply SoundOut.next | with_reducible apply SoundO.none_ | with_reducible apply SoundO.some_
      | with_reducible apply SoundO2.none_ | with_reducible apply SoundO2.some_ | with_reducible apply SoundO4.none_
      | with_reducible apply SoundO4.some_ | with_reducible apply Sound.ite | with_reducible apply SoundOut.ite
      | with_reducible apply Sound2.ite | with_reducible apply Sound3.ite | with_reducible apply SoundO.ite
      | with_reducible apply Sound.foldl | with_reducible apply Sound2.foldl
      | (extract_lets +onlyGivenNames s1; first | (refine Sound.cut (was := was) (u := s1) ?_ ?_; rotate_left; (intro hs1; clear_value s1); rotate_left; subst s1) | skip)
      | with_reducible refine Sound4.last ?_ | with_reducible refine Sound3.last ?_
      | with_reducible refine Sound2.snd ?_ | split)

theorem execLegacyPinClockLost_sound {was : State} {f : Fin 8} {s : State} (hs : Sound was s) :
    SoundOut was (execLegacyPinClockLost f s) := by
  unfold execLegacyPinClockLost
  iterate 20 (all_goals try first
      | with_reducible assumption | intro _ | with_reducible apply State.put_sound
      | with_reducible apply SoundOut.next | with_reducible apply Sound.ite | with_reducible apply SoundOut.ite
      | with_reducible apply Sound.foldl | split | with_reducible refine Sound.mk_ ?_ rfl rfl)

theorem execLegacyPllRelock_sound {was : State} {f : Fin 8} {s : State} (hs : Sound was s) :
    SoundOut was (execLegacyPllRelock f s) := by
  unfold execLegacyPllRelock
  iterate 20 (all_goals try first
      | with_reducible assumption | intro _ | with_reducible apply State.put_sound
      | with_reducible apply SoundOut.next | with_reducible apply Sound.ite | with_reducible apply SoundOut.ite
      | with_reducible apply Sound.foldl | split | with_reducible refine Sound.mk_ ?_ rfl rfl)

end Sys2Proof.Machine
end

