-- ==== Sys2Proof/Laws/SoundUpdate.lean ====
section
/-!
SUPPORT. Sys2Proof/Laws/SoundUpdate.lean: the operations of Machine/Update.lean keep what Sound says.
-/

namespace Sys2Proof.Machine

theorem memWrite_sound {was : State} {x0 x1 : Nat} {x2 : List Byte} {s : State} (hs : Sound was s) :
    Sound2 was (memWrite x0 x1 x2 s) := by
  induction x0 generalizing x1 x2 s with
  | zero => exact ⟨hs⟩
  | succ n ih =>
    unfold memWrite
    iterate 50 (all_goals try first
        | with_reducible assumption | intro _ | with_reducible refine Sound2.of (by assumption) ?_
        | with_reducible refine Sound3.of (by assumption) ?_ | with_reducible refine SoundO.of (by assumption) ?_
        | with_reducible apply State.engineAccess_sound | apply ih | with_reducible apply Sound.ite
        | with_reducible apply Sound2.ite | with_reducible apply Sound3.ite | with_reducible apply Sound.foldl
        | (extract_lets +onlyGivenNames s1; first | (refine Sound.cut (was := was) (u := s1) ?_ ?_; rotate_left; (intro hs1; clear_value s1); rotate_left; subst s1) | skip)
        | with_reducible refine Sound4.last ?_ | with_reducible refine Sound3.last ?_
        | with_reducible refine Sound2.snd ?_ | split | with_reducible apply Sound2.pair)

theorem State.updLog_sound {was : State} {s : State} {event sev : Nat} {payload : List Byte} (hs : Sound was s) :
    Sound was (State.updLog s event sev payload) := by
  unfold State.updLog
  iterate 8 (all_goals try first
      | with_reducible assumption | with_reducible apply State.logEv_sound)

theorem readComps_sound {was : State} {m : List Byte} {x0 : List Nat} {x1 : Nat} {s : State} (hs : Sound was s) :
    Sound2 was (readComps m x0 x1 s) := by
  induction x0 generalizing x1 s with
  | nil => exact ⟨hs⟩
  | cons e es ih =>
    unfold readComps
    iterate 50 (all_goals try first
        | with_reducible assumption | intro _ | with_reducible refine Sound2.of (by assumption) ?_
        | with_reducible refine SoundO.of (by assumption) ?_ | with_reducible apply memRead_sound | apply ih
        | with_reducible apply Sound.ite | with_reducible apply Sound2.ite | with_reducible apply Sound.foldl
        | (extract_lets +onlyGivenNames s1; first | (refine Sound.cut (was := was) (u := s1) ?_ ?_; rotate_left; (intro hs1; clear_value s1); rotate_left; subst s1) | skip)
        | with_reducible refine Sound4.last ?_ | with_reducible refine Sound3.last ?_
        | with_reducible refine Sound2.snd ?_ | split | with_reducible apply Sound2.pair)

theorem State.updFail_sound {was : State} {s : State} {err : Nat} (hs : Sound was s) :
    Sound was (State.updFail s err) := by
  unfold State.updFail
  iterate 8 (all_goals try first
      | with_reducible assumption | with_reducible apply State.put_sound)

theorem State.updRefuse_sound {was : State} {s : State} {m : List Byte} {err entry : Nat} (hs : Sound was s) :
    Sound was (State.updRefuse s m err entry) := by
  unfold State.updRefuse
  iterate 8 (all_goals try first
      | with_reducible assumption | with_reducible apply State.updFail_sound | with_reducible apply State.updLog_sound)

theorem State.checkAndStage_sound {was : State} {s : State} (hs : Sound was s) :
    Sound was (State.checkAndStage s) := by
  unfold State.checkAndStage
  iterate 50 (all_goals try first
      | with_reducible assumption | intro _ | with_reducible refine Sound2.of (by assumption) ?_
      | with_reducible apply State.raise_sound | with_reducible apply memRead_sound
      | with_reducible apply State.updRefuse_sound | with_reducible apply readComps_sound
      | with_reducible apply State.updFail_sound | with_reducible apply State.put_sound
      | with_reducible apply Sound.ite | with_reducible apply Sound2.ite | with_reducible apply Sound.foldl
      | (extract_lets +onlyGivenNames s1; first | (refine Sound.cut (was := was) (u := s1) ?_ ?_; rotate_left; (intro hs1; clear_value s1); rotate_left; subst s1) | skip)
      | with_reducible refine Sound2.snd ?_ | split | with_reducible refine Sound.mk_ ?_ rfl rfl)

theorem execStagingComplete_sound {was : State} {ok : Bool} {s : State} (hs : Sound was s) :
    SoundOut was (execStagingComplete ok s) := by
  unfold execStagingComplete
  iterate 20 (all_goals try first
      | with_reducible assumption | intro _ | with_reducible apply State.put_sound
      | with_reducible apply State.updFail_sound | with_reducible apply SoundOut.next | with_reducible apply Sound.ite
      | with_reducible apply SoundOut.ite)

theorem State.writeDirectory_sound {was : State} {s : State} {dir : List Byte} (hs : Sound was s) :
    Sound was (State.writeDirectory s dir) := by
  unfold State.writeDirectory
  iterate 60 (all_goals try first
      | with_reducible assumption | intro _ | with_reducible refine Sound2.of (by assumption) ?_
      | with_reducible refine Sound3.of (by assumption) ?_ | with_reducible refine Sound4.of (by assumption) ?_
      | with_reducible refine SoundO.of (by assumption) ?_ | with_reducible refine SoundO2.of (by assumption) ?_
      | with_reducible refine SoundO4.of (by assumption) ?_ | with_reducible refine SoundOut.of (by assumption) ?_
      | with_reducible apply SoundOut.next | with_reducible apply SoundO.none_ | with_reducible apply SoundO.some_
      | with_reducible apply SoundO2.none_ | with_reducible apply SoundO2.some_ | with_reducible apply SoundO4.none_
      | with_reducible apply SoundO4.some_ | with_reducible apply Sound.ite | with_reducible apply SoundOut.ite
      | with_reducible apply Sound2.ite | with_reducible apply Sound3.ite | with_reducible apply SoundO.ite
      | with_reducible apply Sound.foldl | with_reducible apply Sound2.foldl
      | (extract_lets +onlyGivenNames s1; first | (refine Sound.cut (was := was) (u := s1) ?_ ?_; rotate_left; (intro hs1; clear_value s1); rotate_left; subst s1) | skip)
      | with_reducible refine Sound4.last ?_ | with_reducible refine Sound3.last ?_
      | with_reducible refine Sound2.snd ?_ | split | with_reducible apply Sound2.pair
      | with_reducible apply Sound3.pair | with_reducible apply Sound4.pair
      | with_reducible refine Sound.mk_ ?_ rfl rfl)

theorem State.writeCommit_sound {was : State} {s : State} {c : Commit} (hs : Sound was s) :
    Sound was (State.writeCommit s c) := by
  unfold State.writeCommit
  iterate 60 (all_goals try first
      | with_reducible assumption | intro _ | with_reducible refine Sound2.of (by assumption) ?_
      | with_reducible refine Sound3.of (by assumption) ?_ | with_reducible refine Sound4.of (by assumption) ?_
      | with_reducible refine SoundO.of (by assumption) ?_ | with_reducible refine SoundO2.of (by assumption) ?_
      | with_reducible refine SoundO4.of (by assumption) ?_ | with_reducible refine SoundOut.of (by assumption) ?_
      | with_reducible apply SoundOut.next | with_reducible apply SoundO.none_ | with_reducible apply SoundO.some_
      | with_reducible apply SoundO2.none_ | with_reducible apply SoundO2.some_ | with_reducible apply SoundO4.none_
      | with_reducible apply SoundO4.some_ | with_reducible apply Sound.ite | with_reducible apply SoundOut.ite
      | with_reducible apply Sound2.ite | with_reducible apply Sound3.ite | with_reducible apply SoundO.ite
      | with_reducible apply Sound.foldl | with_reducible apply Sound2.foldl
      | (extract_lets +onlyGivenNames s1; first | (refine Sound.cut (was := was) (u := s1) ?_ ?_; rotate_left; (intro hs1; clear_value s1); rotate_left; subst s1) | skip)
      | with_reducible refine Sound4.last ?_ | with_reducible refine Sound3.last ?_
      | with_reducible refine Sound2.snd ?_ | split | with_reducible apply Sound2.pair
      | with_reducible apply Sound3.pair | with_reducible apply Sound4.pair
      | with_reducible refine Sound.mk_ ?_ rfl rfl)

theorem State.bootMc_sound {was : State} {s : State} (hs : Sound was s) :
    Sound was (State.bootMc s) := by
  unfold State.bootMc
  iterate 8 (all_goals try first
      | with_reducible assumption | with_reducible refine Sound.mk_ ?_ rfl rfl)

theorem State.activate_sound {was : State} {s : State} (hs : Sound was s) :
    Sound was (State.activate s) := by
  unfold State.activate
  iterate 20 (all_goals try first
      | with_reducible assumption | intro _ | with_reducible apply State.raise_sound
      | with_reducible apply State.writeCommit_sound | with_reducible apply State.writeDirectory_sound
      | with_reducible apply State.put_sound | with_reducible apply State.updLog_sound
      | with_reducible apply State.bootMc_sound | with_reducible apply Sound.ite | with_reducible apply Sound.foldl
      | split | with_reducible refine Sound.mk_ ?_ rfl rfl)

theorem State.fuseLog_sound {was : State} {s : State} {op index : Nat} (hs : Sound was s) :
    Sound was (State.fuseLog s op index) := by
  unfold State.fuseLog
  iterate 8 (all_goals try first
      | with_reducible assumption | with_reducible apply State.updLog_sound)

theorem State.blowSvn_sound {was : State} {s : State} {m : List Byte} {fuse : Nat} (hs : Sound was s) :
    Sound was (State.blowSvn s m fuse) := by
  unfold State.blowSvn
  iterate 20 (all_goals try first
      | with_reducible assumption | intro _ | with_reducible apply State.fuseLog_sound
      | with_reducible apply Sound.ite | with_reducible apply Sound.foldl | split
      | with_reducible refine Sound.mk_ ?_ rfl rfl)

theorem State.confirm_sound {was : State} {s : State} {healthy : Bool} (hs : Sound was s) :
    Sound was (State.confirm s healthy) := by
  unfold State.confirm
  iterate 50 (all_goals try first
      | with_reducible assumption | intro _ | with_reducible refine Sound2.of (by assumption) ?_
      | with_reducible apply State.raise_sound | with_reducible apply State.writeCommit_sound
      | with_reducible apply State.put_sound | with_reducible apply State.draw_sound
      | with_reducible apply State.blowSvn_sound | with_reducible apply State.fuseLog_sound
      | with_reducible apply State.otpRegs_sound | with_reducible apply State.updLog_sound
      | with_reducible apply Sound.ite | with_reducible apply Sound2.ite | with_reducible apply Sound.foldl
      | (extract_lets +onlyGivenNames s1; first | (refine Sound.cut (was := was) (u := s1) ?_ ?_; rotate_left; (intro hs1; clear_value s1); rotate_left; subst s1) | skip)
      | with_reducible refine Sound2.snd ?_ | split | with_reducible refine Sound.mk_ ?_ rfl rfl)

theorem State.revertSet_sound {was : State} {s : State} {cause : Nat} (hs : Sound was s) :
    Sound was (State.revertSet s cause) := by
  unfold State.revertSet
  iterate 20 (all_goals try first
      | with_reducible assumption | intro _ | with_reducible apply State.writeCommit_sound
      | with_reducible apply State.writeDirectory_sound | with_reducible apply State.put_sound
      | with_reducible apply State.bootMc_sound | with_reducible apply State.updLog_sound
      | with_reducible apply Sound.ite | with_reducible apply Sound.foldl | split
      | with_reducible refine Sound.mk_ ?_ rfl rfl)

theorem State.discard_sound {was : State} {s : State} (hs : Sound was s) :
    Sound was (State.discard s) := by
  unfold State.discard
  iterate 20 (all_goals try first
      | with_reducible assumption | intro _ | with_reducible apply State.put_sound
      | with_reducible apply State.raise_sound | with_reducible apply Sound.ite | with_reducible apply Sound.foldl
      | split | with_reducible refine Sound.mk_ ?_ rfl rfl)

theorem State.updWrite_sound {was : State} {s : State} {src : Src} {w : Word32} {healthy : Bool} (hs : Sound was s) :
    Sound was (State.updWrite s src w healthy) := by
  unfold State.updWrite
  split
  · exact State.command_sound hs (fun _ h => State.checkAndStage_sound h)
  · exact State.command_sound hs (fun _ h => State.activate_sound h)
  · exact Sound.ite (State.regAct_sound hs (fun _ h => State.confirm_sound h)) (State.answer_sound hs)
  · exact State.command_sound hs (fun _ h => State.discard_sound h)
  · exact State.command_sound hs (fun _ h => h)

theorem execCheckAndStage_sound {was : State} {src : Src} {s : State} (hs : Sound was s) :
    SoundOut was (execCheckAndStage src s) := by
  unfold execCheckAndStage
  iterate 8 (all_goals try first
      | with_reducible assumption | with_reducible apply State.updWrite_sound | with_reducible apply SoundOut.next)

theorem execActivate_sound {was : State} {src : Src} {s : State} (hs : Sound was s) :
    SoundOut was (execActivate src s) := by
  unfold execActivate
  iterate 8 (all_goals try first
      | with_reducible assumption | with_reducible apply State.updWrite_sound | with_reducible apply SoundOut.next)

theorem execConfirm_sound {was : State} {src : Src} {healthy : Bool} {s : State} (hs : Sound was s) :
    SoundOut was (execConfirm src healthy s) := by
  unfold execConfirm
  iterate 8 (all_goals try first
      | with_reducible assumption | with_reducible apply State.updWrite_sound | with_reducible apply SoundOut.next)

theorem execDiscardStagedSet_sound {was : State} {src : Src} {s : State} (hs : Sound was s) :
    SoundOut was (execDiscardStagedSet src s) := by
  unfold execDiscardStagedSet
  iterate 8 (all_goals try first
      | with_reducible assumption | with_reducible apply State.updWrite_sound | with_reducible apply SoundOut.next)

theorem execTrialTimerExpiry_sound {was : State} {s : State} (hs : Sound was s) :
    SoundOut was (execTrialTimerExpiry s) := by
  unfold execTrialTimerExpiry
  iterate 20 (all_goals try first
      | with_reducible assumption | intro _ | with_reducible apply State.revertSet_sound
      | with_reducible apply SoundOut.next | with_reducible apply Sound.ite | with_reducible apply SoundOut.ite)

theorem execMcRestart_sound {was : State} {watchdog : Bool} {s : State} (hs : Sound was s) :
    SoundOut was (execMcRestart watchdog s) := by
  unfold execMcRestart
  iterate 20 (all_goals try first
      | with_reducible assumption | intro _ | with_reducible apply State.raise_sound
      | with_reducible apply State.powerLog_sound | with_reducible apply State.bootMc_sound
      | with_reducible apply State.revertSet_sound | with_reducible apply SoundOut.next
      | with_reducible apply Sound.ite | with_reducible apply SoundOut.ite)

theorem execAdaptationEpoch_sound {was : State} {l : Fin 40} {s : State} (hs : Sound was s) :
    SoundOut was (execAdaptationEpoch l s) := by
  unfold execAdaptationEpoch
  iterate 20 (all_goals try first
      | with_reducible assumption | intro _ | with_reducible apply State.logEv_sound
      | with_reducible apply SoundOut.next | with_reducible apply Sound.ite | with_reducible apply SoundOut.ite
      | with_reducible apply Sound.foldl | split | with_reducible refine Sound.mk_ ?_ rfl rfl)

theorem State.ownerApply_sound {was : State} {s : State} {op i k : Nat} {digest : BitVec 256} (hs : Sound was s) :
    SoundO was (State.ownerApply s op i k digest) := by
  unfold State.ownerApply
  iterate 20 (all_goals try first
      | with_reducible assumption | intro _ | with_reducible apply State.put_sound | with_reducible exact SoundO.none_
      | with_reducible apply SoundO.some_ | with_reducible apply Sound.ite | with_reducible apply SoundO.ite
      | with_reducible apply Sound.foldl | split | with_reducible refine Sound.mk_ ?_ rfl rfl)

theorem State.ownerRequest_sound {was : State} {s : State} {b : List Byte} (hs : Sound was s) :
    Sound2 was (State.ownerRequest s b) := by
  unfold State.ownerRequest
  iterate 60 (all_goals try first
      | with_reducible assumption | intro _ | with_reducible refine Sound2.of (by assumption) ?_
      | with_reducible refine Sound3.of (by assumption) ?_ | with_reducible refine Sound4.of (by assumption) ?_
      | with_reducible refine SoundO.of (by assumption) ?_ | with_reducible refine SoundO2.of (by assumption) ?_
      | with_reducible refine SoundO4.of (by assumption) ?_ | with_reducible refine SoundOut.of (by assumption) ?_
      | with_reducible apply State.ownerApply_sound | with_reducible apply State.otpRegs_sound
      | with_reducible apply State.fuseLog_sound | with_reducible apply SoundOut.next
      | with_reducible apply SoundO.none_ | with_reducible apply SoundO.some_ | with_reducible apply SoundO2.none_
      | with_reducible apply SoundO2.some_ | with_reducible apply SoundO4.none_ | with_reducible apply SoundO4.some_
      | with_reducible apply Sound.ite | with_reducible apply SoundOut.ite | with_reducible apply Sound2.ite
      | with_reducible apply Sound3.ite | with_reducible apply SoundO.ite | with_reducible apply Sound.foldl
      | with_reducible apply Sound2.foldl
      | (extract_lets +onlyGivenNames s1; first | (refine Sound.cut (was := was) (u := s1) ?_ ?_; rotate_left; (intro hs1; clear_value s1); rotate_left; subst s1) | skip)
      | with_reducible refine Sound4.last ?_ | with_reducible refine Sound3.last ?_
      | with_reducible refine Sound2.snd ?_ | split | with_reducible apply Sound2.pair
      | with_reducible apply Sound3.pair | with_reducible apply Sound4.pair
      | with_reducible refine Sound.mk_ ?_ rfl rfl)

theorem State.serveOwner_sound {was : State} {s : State} {c : Nat} {p : Nat → Bool} (hs : Sound was s) :
    Sound was (State.serveOwner s c p) := by
  unfold State.serveOwner
  iterate 50 (all_goals try first
      | with_reducible assumption | intro _ | with_reducible refine Sound2.of (by assumption) ?_
      | with_reducible apply memRead_sound | with_reducible apply State.mbxReply_sound
      | with_reducible apply State.ownerRequest_sound | with_reducible apply Sound.ite
      | with_reducible apply Sound2.ite | with_reducible apply Sound.foldl
      | (extract_lets +onlyGivenNames s1; first | (refine Sound.cut (was := was) (u := s1) ?_ ?_; rotate_left; (intro hs1; clear_value s1); rotate_left; subst s1) | skip)
      | with_reducible refine Sound2.snd ?_ | split)

theorem execProgramOwnerKey_sound {was : State} {c : Fin 9} {s : State} (hs : Sound was s) :
    SoundOut was (execProgramOwnerKey c s) := by
  unfold execProgramOwnerKey
  iterate 8 (all_goals try first
      | with_reducible assumption | with_reducible apply State.serveOwner_sound | with_reducible apply SoundOut.next)

theorem execRevokeOwnerKey_sound {was : State} {c : Fin 9} {s : State} (hs : Sound was s) :
    SoundOut was (execRevokeOwnerKey c s) := by
  unfold execRevokeOwnerKey
  iterate 8 (all_goals try first
      | with_reducible assumption | with_reducible apply State.serveOwner_sound | with_reducible apply SoundOut.next)

theorem execBlowHlDis_sound {was : State} {c : Fin 9} {s : State} (hs : Sound was s) :
    SoundOut was (execBlowHlDis c s) := by
  unfold execBlowHlDis
  iterate 8 (all_goals try first
      | with_reducible assumption | with_reducible apply State.serveOwner_sound | with_reducible apply SoundOut.next)

theorem execRevokeImageKey_sound {was : State} {c : Fin 9} {s : State} (hs : Sound was s) :
    SoundOut was (execRevokeImageKey c s) := by
  unfold execRevokeImageKey
  iterate 8 (all_goals try first
      | with_reducible assumption | with_reducible apply State.serveOwner_sound | with_reducible apply SoundOut.next)

theorem execRevokeLegacyKey_sound {was : State} {c : Fin 9} {s : State} (hs : Sound was s) :
    SoundOut was (execRevokeLegacyKey c s) := by
  unfold execRevokeLegacyKey
  iterate 8 (all_goals try first
      | with_reducible assumption | with_reducible apply State.serveOwner_sound | with_reducible apply SoundOut.next)

theorem execKeyWrite_sound {was : State} {c : Fin 9} {s : State} (hs : Sound was s) :
    SoundOut was (execKeyWrite c s) := by
  unfold execKeyWrite
  iterate 50 (all_goals try first
      | with_reducible assumption | intro _ | with_reducible refine Sound2.of (by assumption) ?_
      | with_reducible apply State.draw_sound | with_reducible apply State.otpRegs_sound
      | with_reducible apply State.fuseLog_sound | with_reducible apply State.mbxReply_sound
      | with_reducible apply SoundOut.next | with_reducible apply Sound.ite | with_reducible apply SoundOut.ite
      | with_reducible apply Sound2.ite | with_reducible apply Sound.foldl
      | (extract_lets +onlyGivenNames s1; first | (refine Sound.cut (was := was) (u := s1) ?_ ?_; rotate_left; (intro hs1; clear_value s1); rotate_left; subst s1) | skip)
      | with_reducible refine Sound2.snd ?_ | split | with_reducible refine Sound.mk_ ?_ rfl rfl)

theorem State.deliver_sound {was : State} {s : State} {c : Nat} {busy : Bool} {doc : List Byte} {addr size : Nat} (hs : Sound was s) :
    Sound was (State.deliver s c busy doc addr size) := by
  unfold State.deliver
  iterate 50 (all_goals try first
      | with_reducible assumption | intro _ | with_reducible refine Sound2.of (by assumption) ?_
      | with_reducible apply State.mbxReply_sound | with_reducible apply memWrite_sound
      | with_reducible apply Sound.ite | with_reducible apply Sound2.ite | with_reducible apply Sound.foldl
      | (extract_lets +onlyGivenNames s1; first | (refine Sound.cut (was := was) (u := s1) ?_ ?_; rotate_left; (intro hs1; clear_value s1); rotate_left; subst s1) | skip)
      | with_reducible refine Sound2.snd ?_)

theorem execAttestation_sound {was : State} {c : Fin 9} {busy : Bool} {s : State} (hs : Sound was s) :
    SoundOut was (execAttestation c busy s) := by
  unfold execAttestation
  iterate 50 (all_goals try first
      | with_reducible assumption | intro _ | with_reducible refine Sound2.of (by assumption) ?_
      | with_reducible apply State.draw_sound | with_reducible apply State.deliver_sound
      | with_reducible apply SoundOut.next | with_reducible apply Sound.ite | with_reducible apply SoundOut.ite
      | with_reducible apply Sound2.ite | with_reducible apply Sound.foldl
      | (extract_lets +onlyGivenNames s1; first | (refine Sound.cut (was := was) (u := s1) ?_ ?_; rotate_left; (intro hs1; clear_value s1); rotate_left; subst s1) | skip)
      | with_reducible refine Sound2.snd ?_)

theorem execCertificateChain_sound {was : State} {c : Fin 9} {busy : Bool} {s : State} (hs : Sound was s) :
    SoundOut was (execCertificateChain c busy s) := by
  unfold execCertificateChain
  iterate 20 (all_goals try first
      | with_reducible assumption | intro _ | with_reducible apply State.deliver_sound
      | with_reducible apply SoundOut.next | with_reducible apply Sound.ite | with_reducible apply SoundOut.ite)

theorem execDeviceNonce_sound {was : State} {c : Fin 9} {s : State} (hs : Sound was s) :
    SoundOut was (execDeviceNonce c s) := by
  unfold execDeviceNonce
  iterate 50 (all_goals try first
      | with_reducible assumption | intro _ | with_reducible refine Sound2.of (by assumption) ?_
      | with_reducible apply State.draw_sound | with_reducible apply State.mbxReply_sound
      | with_reducible apply SoundOut.next | with_reducible apply Sound.ite | with_reducible apply SoundOut.ite
      | with_reducible apply Sound2.ite | with_reducible apply Sound.foldl
      | (extract_lets +onlyGivenNames s1; first | (refine Sound.cut (was := was) (u := s1) ?_ ?_; rotate_left; (intro hs1; clear_value s1); rotate_left; subst s1) | skip)
      | with_reducible refine Sound2.snd ?_ | split | with_reducible refine Sound.mk_ ?_ rfl rfl)

end Sys2Proof.Machine
end

