-- ==== Sys2Proof/Laws/SoundCores.lean ====
section
/-!
SUPPORT. Sys2Proof/Laws/SoundCores.lean: the operations of Machine/Cores.lean keep what Sound says.
-/

namespace Sys2Proof.Machine

theorem State.setHreg_sound {was : State} {s : State} {h n : Nat} {v : BitVec 64} (hs : Sound was s) :
    Sound was (State.setHreg s h n v) := by
  unfold State.setHreg
  iterate 8 (all_goals try first
      | with_reducible assumption | with_reducible refine Sound.mk_ ?_ rfl rfl)

theorem State.mergeHregs_sound {was : State} {s : State} {h : Nat} {l : List (BitVec 16 × BitVec 64)} (hs : Sound was s) :
    Sound was (State.mergeHregs s h l) := by
  unfold State.mergeHregs
  iterate 20 (all_goals try first
      | with_reducible assumption | intro _ | with_reducible apply State.setHreg_sound
      | with_reducible apply Sound.ite | with_reducible apply Sound.foldl)

theorem State.hartTrap_sound {was : State} {s : State} {h cause : Nat} {tval pc : BitVec 64} {prv : Nat} (hs : Sound was s) :
    Sound was (State.hartTrap s h cause tval pc prv) := by
  unfold State.hartTrap
  iterate 8 (all_goals try first
      | with_reducible assumption | with_reducible apply State.setHreg_sound)

theorem State.enterDebug_sound {was : State} {s : State} {h cause : Nat} {pc : BitVec 64} (hs : Sound was s) :
    Sound was (State.enterDebug s h cause pc) := by
  unfold State.enterDebug
  iterate 20 (all_goals try first
      | with_reducible assumption | intro _ | with_reducible apply State.setCore_sound
      | with_reducible apply State.setHreg_sound | with_reducible apply State.raise_sound
      | with_reducible apply Sound.ite | with_reducible apply Sound.foldl | split
      | with_reducible refine Sound.mk_ ?_ rfl rfl)

theorem State.coreReset_sound {was : State} {s : State} {i : Nat} (hs : Sound was s) :
    Sound was (State.coreReset s i) := by
  unfold State.coreReset
  iterate 20 (all_goals try first
      | with_reducible assumption | intro _ | with_reducible apply State.put_sound
      | with_reducible apply State.setCore_sound | with_reducible apply State.mbxReset_sound
      | with_reducible apply Sound.ite | with_reducible apply Sound.foldl | split
      | with_reducible refine Sound.mk_ ?_ rfl rfl)

theorem State.startCore_sound {was : State} {s : State} {i : Nat} (hs : Sound was s) :
    Sound was (State.startCore s i) := by
  unfold State.startCore
  iterate 20 (all_goals try first
      | with_reducible assumption | intro _ | with_reducible apply State.raise_sound
      | with_reducible apply State.setHreg_sound | with_reducible apply State.setCore_sound
      | with_reducible apply State.enterDebug_sound | with_reducible apply Sound.ite)

theorem State.releaseHeld_sound {was : State} {s : State} (hs : Sound was s) :
    Sound was (State.releaseHeld s) := by
  unfold State.releaseHeld
  iterate 20 (all_goals try first
      | with_reducible assumption | intro _ | with_reducible apply State.startCore_sound
      | with_reducible apply Sound.ite | with_reducible apply Sound.foldl)

theorem State.bootFails_sound {was : State} {s : State} {i chunk : Nat} (hs : Sound was s) :
    Sound was (State.bootFails s i chunk) := by
  unfold State.bootFails
  iterate 8 (all_goals try first
      | with_reducible assumption | with_reducible apply State.raise_sound | with_reducible apply State.setCore_sound
      | with_reducible apply State.logEv_sound)

theorem bootChunks_sound {was : State} {h table : List Byte} {a x0 x1 : Nat} {x2 : List Byte} {s : State} (hs : Sound was s) :
    Sound2 was (bootChunks h table a x0 x1 x2 s) := by
  induction x0 generalizing x1 x2 s with
  | zero => exact ⟨hs⟩
  | succ n ih =>
    unfold bootChunks
    iterate 50 (all_goals try first
        | with_reducible assumption | intro _ | with_reducible refine Sound2.of (by assumption) ?_
        | with_reducible refine SoundO.of (by assumption) ?_ | with_reducible apply memWrite_sound | apply ih
        | with_reducible apply Sound.ite | with_reducible apply Sound2.ite | with_reducible apply Sound.foldl
        | (extract_lets +onlyGivenNames s1; first | (refine Sound.cut (was := was) (u := s1) ?_ ?_; rotate_left; (intro hs1; clear_value s1); rotate_left; subst s1) | skip)
        | with_reducible refine Sound4.last ?_ | with_reducible refine Sound3.last ?_
        | with_reducible refine Sound2.snd ?_ | split | with_reducible apply Sound2.pair)

theorem execCoreBoot_sound {was : State} {i : Fin 4} {img : List Byte} {s : State} (hs : Sound was s) :
    SoundOut was (execCoreBoot i img s) := by
  unfold execCoreBoot
  iterate 50 (all_goals try first
      | with_reducible assumption | intro _ | with_reducible refine Sound2.of (by assumption) ?_
      | with_reducible apply State.draw_sound | with_reducible apply State.bootFails_sound
      | with_reducible apply bootChunks_sound | with_reducible apply State.logEv_sound
      | with_reducible apply State.setCore_sound | with_reducible apply State.startCore_sound
      | with_reducible apply SoundOut.next | with_reducible apply Sound.ite | with_reducible apply SoundOut.ite
      | with_reducible apply Sound2.ite | with_reducible apply Sound.foldl
      | (extract_lets +onlyGivenNames s1; first | (refine Sound.cut (was := was) (u := s1) ?_ ?_; rotate_left; (intro hs1; clear_value s1); rotate_left; subst s1) | skip)
      | with_reducible refine Sound2.snd ?_ | split)

theorem State.secDrop_sound {was : State} {s : State} {i : Nat} (hs : Sound was s) :
    Sound was (State.secDrop s i) := by
  unfold State.secDrop
  iterate 8 (all_goals try first
      | with_reducible assumption | with_reducible apply State.put_sound)

theorem State.coreCtrlWrite_sound {was : State} {s : State} {q : Src} {i : Nat} {w : Word32} (hs : Sound was s) :
    Sound was (State.coreCtrlWrite s q i w) := by
  unfold State.coreCtrlWrite
  iterate 60 (all_goals try first
      | with_reducible assumption | intro _ | with_reducible refine Sound2.of (by assumption) ?_
      | with_reducible refine Sound3.of (by assumption) ?_ | with_reducible refine Sound4.of (by assumption) ?_
      | with_reducible refine SoundO.of (by assumption) ?_ | with_reducible refine SoundO2.of (by assumption) ?_
      | with_reducible refine SoundO4.of (by assumption) ?_ | with_reducible refine SoundOut.of (by assumption) ?_
      | with_reducible apply State.regAct_sound | with_reducible apply State.writeReg_sound
      | with_reducible apply State.coreReset_sound | with_reducible apply State.setCore_sound
      | with_reducible apply State.secDrop_sound | with_reducible apply State.answer_sound
      | with_reducible apply SoundOut.next | with_reducible apply SoundO.none_ | with_reducible apply SoundO.some_
      | with_reducible apply SoundO2.none_ | with_reducible apply SoundO2.some_ | with_reducible apply SoundO4.none_
      | with_reducible apply SoundO4.some_ | with_reducible apply Sound.ite
      | (extract_lets +onlyGivenNames s1; first | (refine Sound.cut (was := was) (u := s1) ?_ ?_; rotate_left; (intro hs1; clear_value s1); rotate_left; subst s1) | skip))

theorem execCoreReset_sound {was : State} {src : Src} {i : Fin 4} {s : State} (hs : Sound was s) :
    SoundOut was (execCoreReset src i s) := by
  unfold execCoreReset
  iterate 8 (all_goals try first
      | with_reducible assumption | with_reducible apply State.coreCtrlWrite_sound
      | with_reducible apply SoundOut.next)

theorem execSecDrop_sound {was : State} {src : Src} {i : Fin 4} {s : State} (hs : Sound was s) :
    SoundOut was (execSecDrop src i s) := by
  unfold execSecDrop
  iterate 8 (all_goals try first
      | with_reducible assumption | with_reducible apply State.coreCtrlWrite_sound
      | with_reducible apply SoundOut.next)

theorem State.wdtReload_sound {was : State} {s : State} {i : Nat} (hs : Sound was s) :
    Sound was (State.wdtReload s i) := by
  unfold State.wdtReload
  iterate 8 (all_goals try first
      | with_reducible assumption | with_reducible apply State.setCore_sound)

theorem State.wdtWrite_sound {was : State} {s : State} {q : Src} {i : Nat} {w : Word32} (hs : Sound was s) :
    Sound was (State.wdtWrite s q i w) := by
  unfold State.wdtWrite
  iterate 60 (all_goals try first
      | with_reducible assumption | intro _ | with_reducible refine Sound2.of (by assumption) ?_
      | with_reducible refine Sound3.of (by assumption) ?_ | with_reducible refine Sound4.of (by assumption) ?_
      | with_reducible refine SoundO.of (by assumption) ?_ | with_reducible refine SoundO2.of (by assumption) ?_
      | with_reducible refine SoundO4.of (by assumption) ?_ | with_reducible refine SoundOut.of (by assumption) ?_
      | with_reducible apply State.regAct_sound | with_reducible apply State.writeReg_sound
      | with_reducible apply State.wdtReload_sound | with_reducible apply State.answer_sound
      | with_reducible apply SoundOut.next | with_reducible apply SoundO.none_ | with_reducible apply SoundO.some_
      | with_reducible apply SoundO2.none_ | with_reducible apply SoundO2.some_ | with_reducible apply SoundO4.none_
      | with_reducible apply SoundO4.some_ | with_reducible apply Sound.ite
      | (extract_lets +onlyGivenNames s1; first | (refine Sound.cut (was := was) (u := s1) ?_ ?_; rotate_left; (intro hs1; clear_value s1); rotate_left; subst s1) | skip))

theorem execWatchdogKick_sound {was : State} {src : Src} {i : Fin 4} {s : State} (hs : Sound was s) :
    SoundOut was (execWatchdogKick src i s) := by
  unfold execWatchdogKick
  iterate 8 (all_goals try first
      | with_reducible assumption | with_reducible apply State.wdtWrite_sound | with_reducible apply SoundOut.next)

theorem execWatchdogExpiry_sound {was : State} {k : Fin 4} {s : State} (hs : Sound was s) :
    SoundOut was (execWatchdogExpiry k s) := by
  unfold execWatchdogExpiry
  iterate 20 (all_goals try first
      | with_reducible assumption | intro _ | with_reducible apply State.coreReset_sound
      | with_reducible apply State.raise_sound | with_reducible apply State.logEv_sound
      | with_reducible apply State.interrupt_sound | with_reducible apply State.wdtReload_sound
      | with_reducible apply SoundOut.next | with_reducible apply Sound.ite | with_reducible apply SoundOut.ite)

theorem State.pageOp_sound {was : State} {s : State} {op page : Nat} (hs : Sound was s) :
    Sound was (State.pageOp s op page) := by
  unfold State.pageOp
  iterate 50 (all_goals try first
      | with_reducible assumption | intro _ | with_reducible apply State.cleanL2_sound
      | with_reducible apply State.dropL2_sound | with_reducible apply Sound.ite | with_reducible apply Sound.foldl
      | (extract_lets +onlyGivenNames s1; first | (refine Sound.cut (was := was) (u := s1) ?_ ?_; rotate_left; (intro hs1; clear_value s1); rotate_left; subst s1) | skip)
      | split)

theorem State.cmoWrite_sound {was : State} {s : State} {w : Word32} (hs : Sound was s) :
    Sound was (State.cmoWrite s w) := by
  unfold State.cmoWrite
  iterate 8 (all_goals try first
      | with_reducible assumption | with_reducible apply State.writeReg_sound
      | with_reducible apply State.pageOp_sound)

theorem execClean_sound {was : State} {src : Src} {hi : BitVec 16} {s : State} (hs : Sound was s) :
    SoundOut was (execClean src hi s) := by
  unfold execClean
  iterate 60 (all_goals try first
      | with_reducible assumption | intro _ | with_reducible refine Sound2.of (by assumption) ?_
      | with_reducible refine Sound3.of (by assumption) ?_ | with_reducible refine Sound4.of (by assumption) ?_
      | with_reducible refine SoundO.of (by assumption) ?_ | with_reducible refine SoundO2.of (by assumption) ?_
      | with_reducible refine SoundO4.of (by assumption) ?_ | with_reducible refine SoundOut.of (by assumption) ?_
      | with_reducible apply State.command_sound | with_reducible apply State.cmoWrite_sound
      | with_reducible apply SoundOut.next
      | (extract_lets +onlyGivenNames s1; first | (refine Sound.cut (was := was) (u := s1) ?_ ?_; rotate_left; (intro hs1; clear_value s1); rotate_left; subst s1) | skip))

theorem execInvalidate_sound {was : State} {src : Src} {hi : BitVec 16} {s : State} (hs : Sound was s) :
    SoundOut was (execInvalidate src hi s) := by
  unfold execInvalidate
  iterate 60 (all_goals try first
      | with_reducible assumption | intro _ | with_reducible refine Sound2.of (by assumption) ?_
      | with_reducible refine Sound3.of (by assumption) ?_ | with_reducible refine Sound4.of (by assumption) ?_
      | with_reducible refine SoundO.of (by assumption) ?_ | with_reducible refine SoundO2.of (by assumption) ?_
      | with_reducible refine SoundO4.of (by assumption) ?_ | with_reducible refine SoundOut.of (by assumption) ?_
      | with_reducible apply State.command_sound | with_reducible apply State.cmoWrite_sound
      | with_reducible apply SoundOut.next
      | (extract_lets +onlyGivenNames s1; first | (refine Sound.cut (was := was) (u := s1) ?_ ?_; rotate_left; (intro hs1; clear_value s1); rotate_left; subst s1) | skip))

theorem execCleanAndInvalidate_sound {was : State} {src : Src} {hi : BitVec 16} {s : State} (hs : Sound was s) :
    SoundOut was (execCleanAndInvalidate src hi s) := by
  unfold execCleanAndInvalidate
  iterate 60 (all_goals try first
      | with_reducible assumption | intro _ | with_reducible refine Sound2.of (by assumption) ?_
      | with_reducible refine Sound3.of (by assumption) ?_ | with_reducible refine Sound4.of (by assumption) ?_
      | with_reducible refine SoundO.of (by assumption) ?_ | with_reducible refine SoundO2.of (by assumption) ?_
      | with_reducible refine SoundO4.of (by assumption) ?_ | with_reducible refine SoundOut.of (by assumption) ?_
      | with_reducible apply State.command_sound | with_reducible apply State.cmoWrite_sound
      | with_reducible apply SoundOut.next
      | (extract_lets +onlyGivenNames s1; first | (refine Sound.cut (was := was) (u := s1) ?_ ?_; rotate_left; (intro hs1; clear_value s1); rotate_left; subst s1) | skip))

theorem execCoreIoAccess_sound {was : State} {r : Req} {kind : CoreAccess} {pc : BitVec 64} {prv : Fin 4} {s : State} (hs : Sound was s) :
    SoundOut was (execCoreIoAccess r kind pc prv s) := by
  unfold execCoreIoAccess
  iterate 20 (all_goals try first
      | with_reducible assumption | intro _ | with_reducible apply State.hartTrap_sound
      | with_reducible apply execNocRequestInject_sound | with_reducible apply SoundOut.next
      | with_reducible apply Sound.ite | with_reducible apply SoundOut.ite | with_reducible apply Sound.foldl | split)

theorem execTriggerHit_sound {was : State} {i : Fin 4} {t : Fin 8} {kind : Fin 3} {addr val : BitVec 64} {prv : Fin 4} {pc : BitVec 64} {regs : List (BitVec 16 × BitVec 64)} {s : State} (hs : Sound was s) :
    SoundOut was (execTriggerHit i t kind addr val prv pc regs s) := by
  unfold execTriggerHit
  iterate 20 (all_goals try first
      | with_reducible assumption | intro _ | with_reducible apply State.mergeHregs_sound
      | with_reducible apply State.hartTrap_sound | with_reducible apply State.setHreg_sound
      | with_reducible apply State.enterDebug_sound | with_reducible apply SoundOut.next
      | with_reducible apply Sound.ite | with_reducible apply SoundOut.ite | with_reducible apply Sound.foldl | split)

theorem State.newNonce_sound {was : State} {s : State} (hs : Sound was s) :
    Sound was (State.newNonce s) := by
  unfold State.newNonce
  iterate 50 (all_goals try first
      | with_reducible assumption | intro _ | with_reducible refine Sound2.of (by assumption) ?_
      | with_reducible apply State.draw_sound | with_reducible apply State.setReg_sound
      | with_reducible apply Sound.ite | with_reducible apply Sound2.ite | with_reducible apply Sound.foldl
      | (extract_lets +onlyGivenNames s1; first | (refine Sound.cut (was := was) (u := s1) ?_ ?_; rotate_left; (intro hs1; clear_value s1); rotate_left; subst s1) | skip)
      | with_reducible refine Sound2.snd ?_)

theorem State.relock_sound {was : State} {s : State} (hs : Sound was s) :
    Sound was (State.relock s) := by
  unfold State.relock
  iterate 8 (all_goals try first
      | with_reducible assumption | with_reducible apply State.put_sound)

theorem State.unlkCommand_sound {was : State} {s : State} {op : Nat} (hs : Sound was s) :
    Sound was (State.unlkCommand s op) := by
  unfold State.unlkCommand
  iterate 20 (all_goals try first
      | with_reducible assumption | intro _ | with_reducible apply State.raise_sound
      | with_reducible apply State.relock_sound | with_reducible apply Sound.ite | with_reducible apply Sound.foldl
      | split | with_reducible refine Sound.mk_ ?_ rfl rfl)

theorem State.unlkWrite_sound {was : State} {s : State} {q : Src} {w : Word32} (hs : Sound was s) :
    Sound was (State.unlkWrite s q w) := by
  unfold State.unlkWrite
  iterate 60 (all_goals try first
      | with_reducible assumption | intro _ | with_reducible refine Sound2.of (by assumption) ?_
      | with_reducible refine Sound3.of (by assumption) ?_ | with_reducible refine Sound4.of (by assumption) ?_
      | with_reducible refine SoundO.of (by assumption) ?_ | with_reducible refine SoundO2.of (by assumption) ?_
      | with_reducible refine SoundO4.of (by assumption) ?_ | with_reducible refine SoundOut.of (by assumption) ?_
      | with_reducible apply State.regAct_sound | with_reducible apply State.unlkCommand_sound
      | with_reducible apply State.answer_sound | with_reducible apply SoundOut.next
      | with_reducible apply SoundO.none_ | with_reducible apply SoundO.some_ | with_reducible apply SoundO2.none_
      | with_reducible apply SoundO2.some_ | with_reducible apply SoundO4.none_ | with_reducible apply SoundO4.some_
      | with_reducible apply Sound.ite
      | (extract_lets +onlyGivenNames s1; first | (refine Sound.cut (was := was) (u := s1) ?_ ?_; rotate_left; (intro hs1; clear_value s1); rotate_left; subst s1) | skip))

theorem execUnlock_sound {was : State} {src : Src} {s : State} (hs : Sound was s) :
    SoundOut was (execUnlock src s) := by
  unfold execUnlock
  iterate 8 (all_goals try first
      | with_reducible assumption | with_reducible apply State.unlkWrite_sound | with_reducible apply SoundOut.next)

theorem execRelock_sound {was : State} {src : Src} {s : State} (hs : Sound was s) :
    SoundOut was (execRelock src s) := by
  unfold execRelock
  iterate 8 (all_goals try first
      | with_reducible assumption | with_reducible apply State.unlkWrite_sound | with_reducible apply SoundOut.next)

theorem execUnlockCheckDone_sound {was : State} {s : State} (hs : Sound was s) :
    SoundOut was (execUnlockCheckDone s) := by
  unfold execUnlockCheckDone
  iterate 20 (all_goals try first
      | with_reducible assumption | intro _ | with_reducible apply State.put_sound
      | with_reducible apply State.raise_sound | with_reducible apply State.logEv_sound
      | with_reducible apply State.newNonce_sound | with_reducible apply SoundOut.next
      | with_reducible apply Sound.ite | with_reducible apply SoundOut.ite | with_reducible apply Sound.foldl | split
      | with_reducible refine Sound.mk_ ?_ rfl rfl)

end Sys2Proof.Machine
end

