-- ==== Sys2Proof/Laws/SoundAccess.lean ====
section
/-!
SUPPORT. Sys2Proof/Laws/SoundAccess.lean: the operations of Machine/Access.lean keep what Sound says.
-/

namespace Sys2Proof.Machine

theorem State.plicClaimRead_sound {was : State} {s : State} {q : Src} {k : Nat} (hs : Sound was s) :
    Sound2 was (State.plicClaimRead s q k) := by
  unfold State.plicClaimRead
  iterate 20 (all_goals try first
      | with_reducible assumption | intro _ | with_reducible apply Sound.ite | with_reducible apply Sound2.ite
      | with_reducible apply Sound.foldl | split | with_reducible apply Sound2.pair
      | with_reducible refine Sound.mk_ ?_ rfl rfl)

theorem State.plicComplete_sound {was : State} {s : State} {k i : Nat} (hs : Sound was s) :
    Sound was (State.plicComplete s k i) := by
  unfold State.plicComplete
  iterate 20 (all_goals try first
      | with_reducible assumption | intro _ | with_reducible apply Sound.ite | with_reducible apply Sound.foldl
      | split | with_reducible refine Sound.mk_ ?_ rfl rfl)

theorem State.msixWrite_sound {was : State} {s : State} {i : Nat} {w : Word32} (hs : Sound was s) :
    Sound was (State.msixWrite s i w) := by
  unfold State.msixWrite
  iterate 20 (all_goals try first
      | with_reducible assumption | intro _ | with_reducible apply State.writeReg_sound
      | with_reducible apply State.setReg_sound | with_reducible apply State.emit_sound
      | with_reducible apply Sound.ite)

theorem State.wtCtrlWrite_sound {was : State} {s : State} {d t : Nat} {w : Word32} (hs : Sound was s) :
    Sound was (State.wtCtrlWrite s d t w) := by
  unfold State.wtCtrlWrite
  iterate 20 (all_goals try first
      | with_reducible assumption | intro _ | with_reducible apply State.put_sound
      | with_reducible apply State.latchLead_sound | with_reducible apply State.setTile_sound
      | with_reducible apply Sound.ite)

theorem State.wtStatWrite_sound {was : State} {s : State} {d t : Nat} {w : Word32} (hs : Sound was s) :
    Sound was (State.wtStatWrite s d t w) := by
  unfold State.wtStatWrite
  iterate 20 (all_goals try first
      | with_reducible assumption | intro _ | with_reducible apply State.writeReg_sound
      | with_reducible apply State.put_sound | with_reducible apply Sound.ite)

theorem State.pinfltWrite_sound {was : State} {s : State} {k : Nat} {w : Word32} (hs : Sound was s) :
    Sound was (State.pinfltWrite s k w) := by
  unfold State.pinfltWrite
  iterate 8 (all_goals try first
      | with_reducible assumption | with_reducible apply State.writeReg_sound
      | with_reducible refine Sound.mk_ ?_ rfl rfl)

theorem State.trCheck_sound {was : State} {s : State} {n : Nat} (hs : Sound was s) :
    Sound was (State.trCheck s n) := by
  unfold State.trCheck
  iterate 20 (all_goals try first
      | with_reducible assumption | intro _ | with_reducible apply State.put_sound
      | with_reducible apply State.raise_sound | with_reducible apply Sound.ite)

theorem State.trWrite_sound {was : State} {s : State} {r : RegName} {n : Nat} {w : Word32} (hs : Sound was s) :
    Sound was (State.trWrite s r n w) := by
  unfold State.trWrite
  iterate 8 (all_goals try first
      | with_reducible assumption | with_reducible apply State.writeReg_sound
      | with_reducible apply State.trCheck_sound)

theorem State.qvecWrite_sound {was : State} {s : State} {q : Nat} {w : Word32} (hs : Sound was s) :
    Sound was (State.qvecWrite s q w) := by
  unfold State.qvecWrite
  iterate 8 (all_goals try first
      | with_reducible assumption | with_reducible apply State.put_sound)

theorem State.ptrWrite_sound {was : State} {s : State} {head : Bool} {d q : Nat} {w : Word32} (hs : Sound was s) :
    Sound was (State.ptrWrite s head d q w) := by
  unfold State.ptrWrite
  iterate 20 (all_goals try first
      | with_reducible assumption | intro _ | with_reducible apply State.writeReg_sound
      | with_reducible apply Sound.ite)

theorem State.riserWrite_sound {was : State} {s : State} {n : RegName} {d : Nat} {i : Nat} {w : Word32} (hs : Sound was s) :
    Sound was (State.riserWrite s n d i w) := by
  unfold State.riserWrite
  iterate 60 (all_goals try first
      | with_reducible assumption | intro _ | with_reducible refine Sound2.of (by assumption) ?_
      | with_reducible refine Sound3.of (by assumption) ?_ | with_reducible refine Sound4.of (by assumption) ?_
      | with_reducible refine SoundO.of (by assumption) ?_ | with_reducible refine SoundO2.of (by assumption) ?_
      | with_reducible refine SoundO4.of (by assumption) ?_ | with_reducible refine SoundOut.of (by assumption) ?_
      | with_reducible apply State.writeReg_sound | with_reducible apply SoundOut.next
      | with_reducible apply SoundO.none_ | with_reducible apply SoundO.some_ | with_reducible apply SoundO2.none_
      | with_reducible apply SoundO2.some_ | with_reducible apply SoundO4.none_ | with_reducible apply SoundO4.some_
      | with_reducible apply Sound.ite
      | (extract_lets +onlyGivenNames s1; first | (refine Sound.cut (was := was) (u := s1) ?_ ?_; rotate_left; (intro hs1; clear_value s1); rotate_left; subst s1) | skip))

theorem State.dbgCfgWrite_sound {was : State} {s : State} {w : Word32} (hs : Sound was s) :
    Sound was (State.dbgCfgWrite s w) := by
  unfold State.dbgCfgWrite
  iterate 8 (all_goals try first
      | with_reducible assumption | with_reducible apply State.writeReg_sound
      | with_reducible apply State.releaseHeld_sound)

theorem State.answered_sound {was : State} {s : State} {q : Src} {f : State → State} (hs : Sound was s)
    (hf : ∀ s, Sound was s → Sound was (f s)) : Sound2 was (State.answered s q f) :=
  ⟨(hf s hs).outbox_ (hs.out.trans (List.prefix_append ..))⟩

theorem State.regRead_sound {was : State} {s : State} {q : Src} {n : RegName} {idx : List Nat} (hs : Sound was s) :
    Sound2 was (State.regRead s q n idx) := by
  unfold State.regRead
  iterate 60 (all_goals try first
      | with_reducible assumption | intro _ | with_reducible refine Sound2.of (by assumption) ?_
      | with_reducible refine Sound3.of (by assumption) ?_ | with_reducible refine Sound4.of (by assumption) ?_
      | with_reducible refine SoundO.of (by assumption) ?_ | with_reducible refine SoundO2.of (by assumption) ?_
      | with_reducible refine SoundO4.of (by assumption) ?_ | with_reducible refine SoundOut.of (by assumption) ?_
      | with_reducible apply State.timeLoRead_sound | with_reducible apply State.xgcntRead_sound
      | with_reducible apply State.setReg_sound | with_reducible apply State.put_sound
      | with_reducible apply State.sqPop_sound | with_reducible apply State.ftlPop_sound
      | with_reducible apply State.rbLockRead_sound | with_reducible apply State.mstatRead_sound
      | with_reducible apply State.probeCountRead_sound | with_reducible apply State.cecntRead_sound
      | with_reducible apply State.fecRead_sound | with_reducible apply State.lockRead_sound
      | with_reducible apply State.plicClaimRead_sound | with_reducible apply SoundOut.next
      | with_reducible apply SoundO.none_ | with_reducible apply SoundO.some_ | with_reducible apply SoundO2.none_
      | with_reducible apply SoundO2.some_ | with_reducible apply SoundO4.none_ | with_reducible apply SoundO4.some_
      | with_reducible apply Sound.ite | with_reducible apply SoundOut.ite | with_reducible apply Sound2.ite
      | with_reducible apply Sound3.ite | with_reducible apply SoundO.ite | with_reducible apply Sound.foldl
      | with_reducible apply Sound2.foldl
      | (extract_lets +onlyGivenNames s1; first | (refine Sound.cut (was := was) (u := s1) ?_ ?_; rotate_left; (intro hs1; clear_value s1); rotate_left; subst s1) | skip)
      | with_reducible refine Sound4.last ?_ | with_reducible refine Sound3.last ?_
      | with_reducible refine Sound2.snd ?_ | split | with_reducible apply Sound2.pair)

theorem State.regWrite_sound {was : State} {s : State} {q : Src} {n : RegName} {idx : List Nat} {w : Word32}
    (hs : Sound was s) : Sound2 was (State.regWrite s q n idx w) := by
  unfold State.regWrite
  extract_lets i j ok
  have hok : ∀ t, Sound was t → Sound2 was (ok t) := fun _ h => ⟨h⟩
  have hget : ∀ o : Option State, SoundO was o → Sound was (o.getD s) := fun o h => by
    cases o
    · exact hs
    · exact h.all _ rfl
  clear_value i j ok
  split
  all_goals
    iterate 50 (all_goals try first
        | with_reducible assumption | intro _ | with_reducible refine Sound2.of (by assumption) ?_
        | with_reducible refine SoundO.of (by assumption) ?_ | with_reducible apply State.clkGateWrite_sound
        | with_reducible apply State.clkMonWrite_sound | with_reducible apply State.refControl_sound
        | with_reducible apply State.tickControl_sound | with_reducible apply State.tickPeriod_sound
        | with_reducible apply State.tickStart_sound | with_reducible apply State.pinfltWrite_sound
        | with_reducible apply State.wtStatWrite_sound | with_reducible apply State.wtCtrlWrite_sound
        | with_reducible apply State.portConfig_sound | with_reducible apply State.sqConfig_sound
        | with_reducible apply State.sqPush_sound | with_reducible apply State.setReg_sound
        | with_reducible apply State.ptrWrite_sound | with_reducible apply State.dmaControl_sound
        | with_reducible apply State.riserWrite_sound | with_reducible apply State.slotPolicy_sound
        | with_reducible apply State.brCommand_sound | with_reducible apply State.rtCommand_sound
        | with_reducible apply State.logCopy_sound | with_reducible apply State.cfgCommand_sound
        | with_reducible apply State.rbLockWrite_sound | with_reducible apply State.rbCommand_sound
        | with_reducible apply State.trbCommand_sound | with_reducible apply State.rcmd_sound
        | with_reducible apply State.mcfgWrite_sound | with_reducible apply State.traceClear_sound
        | with_reducible apply State.histConfig_sound | with_reducible apply State.writeReg_sound
        | with_reducible apply State.rgnConfig_sound | with_reducible apply State.rgnRange_sound
        | with_reducible apply State.poisonCommand_sound | with_reducible apply State.repairCommand_sound
        | with_reducible apply State.keyCommand_sound | with_reducible apply State.sectorCommand_sound
        | with_reducible apply State.encCtrl_sound | with_reducible apply State.laneConfig_sound
        | with_reducible apply State.laneRate_sound | with_reducible apply State.laneGroup_sound | with_reducible apply State.laneStatus_sound
        | with_reducible apply State.trWrite_sound | with_reducible apply State.qvecWrite_sound
        | with_reducible apply State.modeWrite_sound | with_reducible apply State.capWrite_sound
        | with_reducible apply State.tripWrite_sound | with_reducible apply State.levelWrite_sound
        | with_reducible apply State.lockWrite_sound | with_reducible apply State.ctrlWrite_sound
        | with_reducible apply State.statWrite_sound | with_reducible apply State.dataWrite_sound
        | with_reducible apply State.mbxCfgWrite_sound | with_reducible apply State.answered_sound
        | with_reducible apply State.updWrite_sound | with_reducible apply State.coreCtrlWrite_sound
        | with_reducible apply State.wdtWrite_sound | with_reducible apply State.cmoWrite_sound
        | with_reducible apply State.dbgCfgWrite_sound | with_reducible apply State.unlkCommand_sound
        | with_reducible apply State.plicComplete_sound | with_reducible apply State.msixWrite_sound | apply hok
        | apply hget | exact ⟨hs⟩ | apply State.answered_sound hs | with_reducible apply Sound.ite
        | with_reducible apply Sound2.ite
        | (extract_lets +onlyGivenNames s1; first | (refine Sound.cut (was := was) (u := s1) ?_ ?_; rotate_left; (intro hs1; clear_value s1); rotate_left; subst s1) | skip))

theorem State.applyDeferred_sound {was : State} {s : State} (hs : Sound was s) :
    Sound was (State.applyDeferred s) := by
  unfold State.applyDeferred
  iterate 60 (all_goals try first
      | with_reducible assumption | intro _ | with_reducible refine Sound2.of (by assumption) ?_
      | with_reducible refine Sound3.of (by assumption) ?_ | with_reducible refine Sound4.of (by assumption) ?_
      | with_reducible refine SoundO.of (by assumption) ?_ | with_reducible refine SoundO2.of (by assumption) ?_
      | with_reducible refine SoundO4.of (by assumption) ?_ | with_reducible refine SoundOut.of (by assumption) ?_
      | with_reducible apply State.regWrite_sound | with_reducible apply SoundOut.next
      | with_reducible apply SoundO.none_ | with_reducible apply SoundO.some_ | with_reducible apply SoundO2.none_
      | with_reducible apply SoundO2.some_ | with_reducible apply SoundO4.none_ | with_reducible apply SoundO4.some_
      | with_reducible apply Sound.ite | with_reducible apply SoundOut.ite | with_reducible apply Sound2.ite
      | with_reducible apply Sound3.ite | with_reducible apply SoundO.ite | with_reducible apply Sound.foldl
      | with_reducible apply Sound2.foldl
      | (extract_lets +onlyGivenNames s1; first | (refine Sound.cut (was := was) (u := s1) ?_ ?_; rotate_left; (intro hs1; clear_value s1); rotate_left; subst s1) | skip)
      | with_reducible refine Sound4.last ?_ | with_reducible refine Sound3.last ?_
      | with_reducible refine Sound2.snd ?_ | split | with_reducible apply Sound2.pair
      | with_reducible apply Sound3.pair | with_reducible apply Sound4.pair
      | with_reducible refine Sound.mk_ ?_ rfl rfl)

theorem State.wordRead_sound {was : State} {s : State} {q : Src} {a : Nat} (hs : Sound was s) :
    Sound2 was (State.wordRead s q a) := by
  unfold State.wordRead
  iterate 60 (all_goals try first
      | with_reducible assumption | intro _ | with_reducible refine Sound2.of (by assumption) ?_
      | with_reducible refine Sound3.of (by assumption) ?_ | with_reducible refine Sound4.of (by assumption) ?_
      | with_reducible refine SoundO.of (by assumption) ?_ | with_reducible refine SoundO2.of (by assumption) ?_
      | with_reducible refine SoundO4.of (by assumption) ?_ | with_reducible refine SoundOut.of (by assumption) ?_
      | with_reducible apply State.regRead_sound | with_reducible apply State.parityFail_sound
      | with_reducible apply SoundOut.next | with_reducible apply SoundO.none_ | with_reducible apply SoundO.some_
      | with_reducible apply SoundO2.none_ | with_reducible apply SoundO2.some_ | with_reducible apply SoundO4.none_
      | with_reducible apply SoundO4.some_ | with_reducible apply Sound.ite | with_reducible apply SoundOut.ite
      | with_reducible apply Sound2.ite | with_reducible apply Sound3.ite | with_reducible apply SoundO.ite
      | with_reducible apply Sound.foldl | with_reducible apply Sound2.foldl
      | (extract_lets +onlyGivenNames s1; first | (refine Sound.cut (was := was) (u := s1) ?_ ?_; rotate_left; (intro hs1; clear_value s1); rotate_left; subst s1) | skip)
      | with_reducible refine Sound4.last ?_ | with_reducible refine Sound3.last ?_
      | with_reducible refine Sound2.snd ?_ | split | with_reducible apply Sound2.pair)

theorem State.wordWrite_sound {was : State} {s : State} {q : Src} {a : Nat} {w : Word32} (hs : Sound was s) :
    Sound2 was (State.wordWrite s q a w) := by
  unfold State.wordWrite
  iterate 60 (all_goals try first
      | with_reducible assumption | intro _ | with_reducible refine Sound2.of (by assumption) ?_
      | with_reducible refine Sound3.of (by assumption) ?_ | with_reducible refine Sound4.of (by assumption) ?_
      | with_reducible refine SoundO.of (by assumption) ?_ | with_reducible refine SoundO2.of (by assumption) ?_
      | with_reducible refine SoundO4.of (by assumption) ?_ | with_reducible refine SoundOut.of (by assumption) ?_
      | with_reducible apply State.defer_sound | with_reducible apply State.regWrite_sound
      | with_reducible apply State.setDie_sound | with_reducible apply SoundOut.next
      | with_reducible apply SoundO.none_ | with_reducible apply SoundO.some_ | with_reducible apply SoundO2.none_
      | with_reducible apply SoundO2.some_ | with_reducible apply SoundO4.none_ | with_reducible apply SoundO4.some_
      | with_reducible apply Sound.ite | with_reducible apply SoundOut.ite | with_reducible apply Sound2.ite
      | with_reducible apply Sound3.ite | with_reducible apply SoundO.ite | with_reducible apply Sound.foldl
      | with_reducible apply Sound2.foldl
      | (extract_lets +onlyGivenNames s1; first | (refine Sound.cut (was := was) (u := s1) ?_ ?_; rotate_left; (intro hs1; clear_value s1); rotate_left; subst s1) | skip)
      | with_reducible refine Sound4.last ?_ | with_reducible refine Sound3.last ?_
      | with_reducible refine Sound2.snd ?_ | split | with_reducible apply Sound2.pair)

theorem State.blockRead_sound {was : State} {s : State} {r : Req} (hs : Sound was s) :
    Sound2 was (State.blockRead s r) := by
  unfold State.blockRead
  iterate 60 (all_goals try first
      | with_reducible assumption | intro _ | with_reducible refine Sound2.of (by assumption) ?_
      | with_reducible refine Sound3.of (by assumption) ?_ | with_reducible refine Sound4.of (by assumption) ?_
      | with_reducible refine SoundO.of (by assumption) ?_ | with_reducible refine SoundO2.of (by assumption) ?_
      | with_reducible refine SoundO4.of (by assumption) ?_ | with_reducible refine SoundOut.of (by assumption) ?_
      | with_reducible apply State.wordRead_sound | with_reducible apply SoundOut.next
      | with_reducible apply SoundO.none_ | with_reducible apply SoundO.some_ | with_reducible apply SoundO2.none_
      | with_reducible apply SoundO2.some_ | with_reducible apply SoundO4.none_ | with_reducible apply SoundO4.some_
      | with_reducible apply Sound.ite | with_reducible apply SoundOut.ite | with_reducible apply Sound2.ite
      | with_reducible apply Sound3.ite | with_reducible apply SoundO.ite | with_reducible apply Sound.foldl
      | with_reducible apply Sound2.foldl
      | (extract_lets +onlyGivenNames s1; first | (refine Sound.cut (was := was) (u := s1) ?_ ?_; rotate_left; (intro hs1; clear_value s1); rotate_left; subst s1) | skip)
      | with_reducible refine Sound4.last ?_ | with_reducible refine Sound3.last ?_
      | with_reducible refine Sound2.snd ?_ | split | with_reducible apply Sound2.pair)

theorem State.blockWriteGood_sound {was : State} {s : State} {r : Req} (hs : Sound was s) :
    Sound2 was (State.blockWriteGood s r) := by
  unfold State.blockWriteGood
  iterate 50 (all_goals try first
      | with_reducible assumption | intro _ | with_reducible refine Sound2.of (by assumption) ?_
      | with_reducible apply State.wordWrite_sound | with_reducible apply Sound.ite | with_reducible apply Sound2.ite
      | with_reducible apply Sound.foldl
      | (extract_lets +onlyGivenNames s1; first | (refine Sound.cut (was := was) (u := s1) ?_ ?_; rotate_left; (intro hs1; clear_value s1); rotate_left; subst s1) | skip)
      | with_reducible refine Sound2.snd ?_ | split | with_reducible apply Sound2.pair)

theorem State.blockWrite_sound {was : State} {s : State} {r : Req} (hs : Sound was s) :
    Sound2 was (State.blockWrite s r) := by
  unfold State.blockWrite
  iterate 20 (all_goals try first
      | with_reducible assumption | intro _ | with_reducible apply State.blockWriteGood_sound
      | with_reducible apply Sound.ite | with_reducible apply Sound2.ite | with_reducible apply Sound.foldl | split
      | with_reducible apply Sound2.pair)

theorem State.wordsRequest_sound {was : State} {s : State} {r : Req} (hs : Sound was s) :
    Sound was (State.wordsRequest s r) := by
  unfold State.wordsRequest
  iterate 60 (all_goals try first
      | with_reducible assumption | intro _ | with_reducible refine Sound2.of (by assumption) ?_
      | with_reducible refine Sound3.of (by assumption) ?_ | with_reducible refine Sound4.of (by assumption) ?_
      | with_reducible refine SoundO.of (by assumption) ?_ | with_reducible refine SoundO2.of (by assumption) ?_
      | with_reducible refine SoundO4.of (by assumption) ?_ | with_reducible refine SoundOut.of (by assumption) ?_
      | with_reducible apply State.blockWrite_sound | with_reducible apply State.respond_sound
      | with_reducible apply State.blockRead_sound | with_reducible apply SoundOut.next
      | with_reducible apply SoundO.none_ | with_reducible apply SoundO.some_ | with_reducible apply SoundO2.none_
      | with_reducible apply SoundO2.some_ | with_reducible apply SoundO4.none_ | with_reducible apply SoundO4.some_
      | with_reducible apply Sound.ite | with_reducible apply SoundOut.ite | with_reducible apply Sound2.ite
      | with_reducible apply Sound3.ite | with_reducible apply SoundO.ite | with_reducible apply Sound.foldl
      | with_reducible apply Sound2.foldl
      | (extract_lets +onlyGivenNames s1; first | (refine Sound.cut (was := was) (u := s1) ?_ ?_; rotate_left; (intro hs1; clear_value s1); rotate_left; subst s1) | skip)
      | with_reducible refine Sound4.last ?_ | with_reducible refine Sound3.last ?_
      | with_reducible refine Sound2.snd ?_)

theorem State.secureLog_sound {was : State} {s : State} {q : Src} {a : Nat} (hs : Sound was s) :
    Sound was (State.secureLog s q a) := by
  unfold State.secureLog
  iterate 60 (all_goals try first
      | with_reducible assumption | intro _ | with_reducible refine Sound2.of (by assumption) ?_
      | with_reducible refine Sound3.of (by assumption) ?_ | with_reducible refine Sound4.of (by assumption) ?_
      | with_reducible refine SoundO.of (by assumption) ?_ | with_reducible refine SoundO2.of (by assumption) ?_
      | with_reducible refine SoundO4.of (by assumption) ?_ | with_reducible refine SoundOut.of (by assumption) ?_
      | with_reducible apply State.logEv_sound
      | (extract_lets +onlyGivenNames s1; first | (refine Sound.cut (was := was) (u := s1) ?_ ?_; rotate_left; (intro hs1; clear_value s1); rotate_left; subst s1) | skip))

theorem State.target_sound {was : State} {s : State} {r : Req} (hs : Sound was s) :
    Sound was (State.target s r) := by
  unfold State.target
  iterate 60 (all_goals try first
      | with_reducible assumption | intro _ | with_reducible refine Sound2.of (by assumption) ?_
      | with_reducible refine Sound3.of (by assumption) ?_ | with_reducible refine Sound4.of (by assumption) ?_
      | with_reducible refine SoundO.of (by assumption) ?_ | with_reducible refine SoundO2.of (by assumption) ?_
      | with_reducible refine SoundO4.of (by assumption) ?_ | with_reducible refine SoundOut.of (by assumption) ?_
      | with_reducible apply State.respond_sound | with_reducible apply State.memRequest_sound
      | with_reducible apply State.emit_sound | with_reducible apply State.storeArrive_sound
      | with_reducible apply State.mouldWrite_sound | with_reducible apply State.mouldRead_sound
      | with_reducible apply State.entryWrite_sound | with_reducible apply State.entryRead_sound
      | with_reducible apply State.wordsRequest_sound | with_reducible apply State.slotWrite_sound
      | with_reducible apply State.slotRead_sound | with_reducible apply State.secureLog_sound
      | with_reducible apply SoundOut.next | with_reducible apply SoundO.none_ | with_reducible apply SoundO.some_
      | with_reducible apply SoundO2.none_ | with_reducible apply SoundO2.some_ | with_reducible apply SoundO4.none_
      | with_reducible apply SoundO4.some_ | with_reducible apply Sound.ite | with_reducible apply SoundOut.ite
      | with_reducible apply Sound2.ite | with_reducible apply Sound3.ite | with_reducible apply SoundO.ite
      | with_reducible apply Sound.foldl | with_reducible apply Sound2.foldl
      | (extract_lets +onlyGivenNames s1; first | (refine Sound.cut (was := was) (u := s1) ?_ ?_; rotate_left; (intro hs1; clear_value s1); rotate_left; subst s1) | skip)
      | with_reducible refine Sound4.last ?_ | with_reducible refine Sound3.last ?_
      | with_reducible refine Sound2.snd ?_ | split)

theorem execTargetRequest_sound {was : State} {r : Req} {s : State} (hs : Sound was s) :
    SoundOut was (execTargetRequest r s) := by
  unfold execTargetRequest
  iterate 8 (all_goals try first
      | with_reducible assumption | with_reducible apply State.target_sound | with_reducible apply SoundOut.next)

theorem execRegisterWrite_sound {was : State} {src : Src} {addr : BitVec 48} {w : Word32} {s : State} (hs : Sound was s) :
    SoundOut was (execRegisterWrite src addr w s) := by
  unfold execRegisterWrite
  iterate 60 (all_goals try first
      | with_reducible assumption | intro _ | with_reducible refine Sound2.of (by assumption) ?_
      | with_reducible refine Sound3.of (by assumption) ?_ | with_reducible refine Sound4.of (by assumption) ?_
      | with_reducible refine SoundO.of (by assumption) ?_ | with_reducible refine SoundO2.of (by assumption) ?_
      | with_reducible refine SoundO4.of (by assumption) ?_ | with_reducible refine SoundOut.of (by assumption) ?_
      | with_reducible apply State.answer_sound | with_reducible apply State.secureLog_sound
      | with_reducible apply State.wordWrite_sound | with_reducible apply SoundOut.next
      | with_reducible apply SoundO.none_ | with_reducible apply SoundO.some_ | with_reducible apply SoundO2.none_
      | with_reducible apply SoundO2.some_ | with_reducible apply SoundO4.none_ | with_reducible apply SoundO4.some_
      | with_reducible apply Sound.ite | with_reducible apply SoundOut.ite | with_reducible apply Sound2.ite
      | with_reducible apply Sound3.ite | with_reducible apply SoundO.ite | with_reducible apply Sound.foldl
      | with_reducible apply Sound2.foldl
      | (extract_lets +onlyGivenNames s1; first | (refine Sound.cut (was := was) (u := s1) ?_ ?_; rotate_left; (intro hs1; clear_value s1); rotate_left; subst s1) | skip)
      | with_reducible refine Sound4.last ?_ | with_reducible refine Sound3.last ?_
      | with_reducible refine Sound2.snd ?_ | split)

end Sys2Proof.Machine
end

