-- ==== Sys2Proof/Laws/SoundDebug.lean ====
section
/-!
SUPPORT. Sys2Proof/Laws/SoundDebug.lean: the operations of Machine/Debug.lean keep what Sound says.
-/

namespace Sys2Proof.Machine

theorem State.tapIr_sound {was : State} {s : State} {code mode : Nat} (hs : Sound was s) :
    Sound was (State.tapIr s code mode) := by
  unfold State.tapIr
  iterate 8 (all_goals try first
      | with_reducible assumption | with_reducible refine Sound.mk_ ?_ rfl rfl)

theorem State.tapIdle_sound {was : State} {s : State} (hs : Sound was s) :
    Sound was (State.tapIdle s) := by
  unfold State.tapIdle
  iterate 8 (all_goals try first
      | with_reducible assumption | with_reducible apply State.tapIr_sound)

theorem execTapReset_sound {was : State} {s : State} (hs : Sound was s) :
    SoundOut was (execTapReset s) := by
  unfold execTapReset
  iterate 8 (all_goals try first
      | with_reducible assumption | with_reducible apply State.tapIdle_sound | with_reducible apply SoundOut.next)

theorem execIdcode_sound {was : State} {s : State} (hs : Sound was s) :
    SoundOut was (execIdcode s) := by
  unfold execIdcode
  iterate 8 (all_goals try first
      | with_reducible assumption | with_reducible apply State.tapIr_sound | with_reducible apply State.emit_sound
      | with_reducible apply SoundOut.next)

theorem State.boundaryScan_sound {was : State} {s : State} {cells load : List Bool} (hs : Sound was s) :
    Sound was (State.boundaryScan s cells load) := by
  unfold State.boundaryScan
  iterate 8 (all_goals try first
      | with_reducible assumption | with_reducible apply State.emit_sound | with_reducible refine Sound.mk_ ?_ rfl rfl)

theorem execSamplePreload_sound {was : State} {cells load : List Bool} {s : State} (hs : Sound was s) :
    SoundOut was (execSamplePreload cells load s) := by
  unfold execSamplePreload
  iterate 8 (all_goals try first
      | with_reducible assumption | with_reducible apply State.tapIr_sound
      | with_reducible apply State.boundaryScan_sound | with_reducible apply SoundOut.next)

theorem State.boundaryInstr_sound {was : State} {s : State} {code mode : Nat} {f : State → State} (hs : Sound was s) (hf : ∀ a0, Sound was a0 → Sound was (f a0)) :
    Sound was (State.boundaryInstr s code mode f) := by
  unfold State.boundaryInstr
  iterate 20 (all_goals try first
      | with_reducible assumption | intro _ | with_reducible apply State.tapIr_sound
      | with_reducible apply State.raise_sound | with_reducible apply hf | with_reducible apply Sound.ite)

theorem execExtest_sound {was : State} {cells load : List Bool} {s : State} (hs : Sound was s) :
    SoundOut was (execExtest cells load s) := by
  unfold execExtest
  iterate 20 (all_goals try first
      | with_reducible assumption | intro _ | with_reducible apply State.boundaryInstr_sound
      | with_reducible apply State.boundaryScan_sound | with_reducible apply SoundOut.next)

theorem execExtestPulse_sound {was : State} {cells load : List Bool} {s : State} (hs : Sound was s) :
    SoundOut was (execExtestPulse cells load s) := by
  unfold execExtestPulse
  iterate 20 (all_goals try first
      | with_reducible assumption | intro _ | with_reducible apply State.boundaryInstr_sound
      | with_reducible apply State.boundaryScan_sound | with_reducible apply SoundOut.next)

theorem execExtestTrain_sound {was : State} {cells load : List Bool} {s : State} (hs : Sound was s) :
    SoundOut was (execExtestTrain cells load s) := by
  unfold execExtestTrain
  iterate 20 (all_goals try first
      | with_reducible assumption | intro _ | with_reducible apply State.boundaryInstr_sound
      | with_reducible apply State.boundaryScan_sound | with_reducible apply SoundOut.next)

theorem execClamp_sound {was : State} {s : State} (hs : Sound was s) : SoundOut was (execClamp s) :=
  SoundOut.next (State.boundaryInstr_sound hs (fun _ h => h))

theorem execHighz_sound {was : State} {s : State} (hs : Sound was s) : SoundOut was (execHighz s) :=
  SoundOut.next (State.boundaryInstr_sound hs (fun _ h => h))

theorem execBypass_sound {was : State} {code : BitVec 8} {s : State} (hs : Sound was s) :
    SoundOut was (execBypass code s) := by
  unfold execBypass
  iterate 20 (all_goals try first
      | with_reducible assumption | intro _ | with_reducible apply State.tapIr_sound
      | with_reducible apply SoundOut.next | with_reducible apply Sound.ite | with_reducible apply SoundOut.ite)

theorem State.hartWrite_sound {was : State} {s : State} {h n : Nat} {v : BitVec 64} (hs : Sound was s) :
    SoundO was (State.hartWrite s h n v) := by
  unfold State.hartWrite
  iterate 20 (all_goals try first
      | with_reducible assumption | intro _ | with_reducible apply State.setHreg_sound
      | with_reducible exact SoundO.none_ | with_reducible apply SoundO.some_ | with_reducible apply Sound.ite
      | with_reducible apply SoundO.ite)

theorem State.setDm_sound {was : State} {s : State} {a : Nat} {v : Word32} (hs : Sound was s) :
    Sound was (State.setDm s a v) := by
  unfold State.setDm
  iterate 8 (all_goals try first
      | with_reducible assumption | with_reducible refine Sound.mk_ ?_ rfl rfl)

theorem State.setDmArg_sound {was : State} {s : State} {k : Nat} {v : BitVec 64} (hs : Sound was s) :
    Sound was (State.setDmArg s k v) := by
  unfold State.setDmArg
  iterate 8 (all_goals try first
      | with_reducible assumption | with_reducible apply State.setDm_sound)

theorem State.setCmdErr_sound {was : State} {s : State} {e : Nat} (hs : Sound was s) :
    Sound was (State.setCmdErr s e) := by
  unfold State.setCmdErr
  iterate 8 (all_goals try first
      | with_reducible assumption | with_reducible apply State.setDm_sound)

theorem State.haltHart_sound {was : State} {s : State} {h : Nat} {pc : BitVec 64} {prv : Nat} {regs : List (BitVec 16 × BitVec 64)} (hs : Sound was s) :
    Sound was (State.haltHart s h pc prv regs) := by
  unfold State.haltHart
  iterate 20 (all_goals try first
      | with_reducible assumption | intro _ | with_reducible apply State.mergeHregs_sound
      | with_reducible apply State.setHreg_sound | with_reducible apply State.enterDebug_sound
      | with_reducible apply State.setCore_sound | with_reducible apply Sound.ite)

theorem State.resumeHart_sound {was : State} {s : State} {h : Nat} {pc : BitVec 64} {regs : List (BitVec 16 × BitVec 64)} (hs : Sound was s) :
    Sound was (State.resumeHart s h pc regs) := by
  unfold State.resumeHart
  iterate 20 (all_goals try first
      | with_reducible assumption | intro _ | with_reducible apply State.wdtReload_sound
      | with_reducible apply State.setDm_sound | with_reducible apply State.mergeHregs_sound
      | with_reducible apply State.enterDebug_sound | with_reducible apply State.put_sound
      | with_reducible apply Sound.ite | with_reducible apply Sound.foldl | split
      | with_reducible refine Sound.mk_ ?_ rfl rfl)

theorem execDebugHalt_sound {was : State} {h : Fin 5} {pc : BitVec 64} {prv : Fin 4} {regs : List (BitVec 16 × BitVec 64)} {s : State} (hs : Sound was s) :
    SoundOut was (execDebugHalt h pc prv regs s) := by
  unfold execDebugHalt
  iterate 20 (all_goals try first
      | with_reducible assumption | intro _ | with_reducible apply State.haltHart_sound
      | with_reducible apply SoundOut.next | with_reducible apply Sound.ite | with_reducible apply SoundOut.ite)

theorem execDebugResume_sound {was : State} {h : Fin 5} {pc : BitVec 64} {regs : List (BitVec 16 × BitVec 64)} {s : State} (hs : Sound was s) :
    SoundOut was (execDebugResume h pc regs s) := by
  unfold execDebugResume
  iterate 20 (all_goals try first
      | with_reducible assumption | intro _ | with_reducible apply State.resumeHart_sound
      | with_reducible apply SoundOut.next | with_reducible apply Sound.ite | with_reducible apply SoundOut.ite)

theorem State.pendingHalts_sound {was : State} {s : State} (hs : Sound was s) :
    Sound was (State.pendingHalts s) := by
  unfold State.pendingHalts
  iterate 20 (all_goals try first
      | with_reducible assumption | intro _ | with_reducible apply State.enterDebug_sound
      | with_reducible apply Sound.ite | with_reducible apply Sound.foldl)

theorem State.abstractReg_sound {was : State} {s : State} {h : Nat} {write : Bool} {n : Nat} {v : BitVec 64} (hs : Sound was s) :
    Sound was (State.abstractReg s h write n v) := by
  unfold State.abstractReg
  iterate 50 (all_goals try first
      | with_reducible assumption | intro _ | with_reducible refine SoundO.of (by assumption) ?_
      | with_reducible apply State.setCmdErr_sound | with_reducible apply State.hartWrite_sound
      | with_reducible apply State.setDmArg_sound | with_reducible apply Sound.ite | with_reducible apply SoundO.ite
      | with_reducible apply Sound.foldl
      | (extract_lets +onlyGivenNames s1; first | (refine Sound.cut (was := was) (u := s1) ?_ ?_; rotate_left; (intro hs1; clear_value s1); rotate_left; subst s1) | skip)
      | split)

theorem execAbstractRegisterAccess_sound {was : State} {h : Fin 5} {write : Bool} {n : BitVec 16} {v : BitVec 64} {s : State} (hs : Sound was s) :
    SoundOut was (execAbstractRegisterAccess h write n v s) := by
  unfold execAbstractRegisterAccess
  iterate 20 (all_goals try first
      | with_reducible assumption | intro _ | with_reducible apply State.abstractReg_sound
      | with_reducible apply SoundOut.next | with_reducible apply Sound.ite | with_reducible apply SoundOut.ite)

theorem State.requestNow_sound {was : State} {s : State} {r : Req} (hs : Sound was s) : Sound2 was (State.requestNow s r) := by
  unfold State.requestNow
  refine Sound2.ite ⟨hs⟩ ?_
  have hp := (State.pinj_sound (r := r) hs).last
  generalize s.pinj r = p at hp
  obtain ⟨lost, r1, s1⟩ := p
  refine Sound2.ite ⟨State.headerLost_sound hp⟩ ?_
  have h := State.target_sound (r := r1) hp
  dsimp only
  split
  · exact ⟨h.outbox_ (hp.out.trans (List.prefix_append ..))⟩
  · exact ⟨h⟩

theorem State.roomL2_sound {was : State} {s : State} {b : Nat} (hs : Sound was s) :
    Sound was (State.roomL2 s b) := by
  unfold State.roomL2
  iterate 60 (all_goals try first
      | with_reducible assumption | intro _ | with_reducible refine Sound2.of (by assumption) ?_
      | with_reducible refine Sound3.of (by assumption) ?_ | with_reducible refine Sound4.of (by assumption) ?_
      | with_reducible refine SoundO.of (by assumption) ?_ | with_reducible refine SoundO2.of (by assumption) ?_
      | with_reducible refine SoundO4.of (by assumption) ?_ | with_reducible refine SoundOut.of (by assumption) ?_
      | with_reducible apply State.draw_sound | with_reducible apply State.cleanL2_sound
      | with_reducible apply State.dropL2_sound | with_reducible apply SoundOut.next
      | with_reducible apply SoundO.none_ | with_reducible apply SoundO.some_ | with_reducible apply SoundO2.none_
      | with_reducible apply SoundO2.some_ | with_reducible apply SoundO4.none_ | with_reducible apply SoundO4.some_
      | with_reducible apply Sound.ite | with_reducible apply SoundOut.ite | with_reducible apply Sound2.ite
      | with_reducible apply Sound3.ite | with_reducible apply SoundO.ite | with_reducible apply Sound.foldl
      | with_reducible apply Sound2.foldl
      | (extract_lets +onlyGivenNames s1; first | (refine Sound.cut (was := was) (u := s1) ?_ ?_; rotate_left; (intro hs1; clear_value s1); rotate_left; subst s1) | skip)
      | with_reducible refine Sound4.last ?_ | with_reducible refine Sound3.last ?_
      | with_reducible refine Sound2.snd ?_ | split)

theorem State.fillL2_sound {was : State} {s : State} {core : Fin 4} {b : Nat} (hs : Sound was s) :
    Sound2 was (State.fillL2 s core b) := by
  unfold State.fillL2
  iterate 60 (all_goals try first
      | with_reducible assumption | intro _ | with_reducible refine Sound2.of (by assumption) ?_
      | with_reducible refine Sound3.of (by assumption) ?_ | with_reducible refine Sound4.of (by assumption) ?_
      | with_reducible refine SoundO.of (by assumption) ?_ | with_reducible refine SoundO2.of (by assumption) ?_
      | with_reducible refine SoundO4.of (by assumption) ?_ | with_reducible refine SoundOut.of (by assumption) ?_
      | with_reducible apply State.requestNow_sound | with_reducible apply State.roomL2_sound
      | with_reducible apply State.setL2_sound | with_reducible apply State.unhold_sound
      | with_reducible apply SoundOut.next | with_reducible apply SoundO.none_ | with_reducible apply SoundO.some_
      | with_reducible apply SoundO2.none_ | with_reducible apply SoundO2.some_ | with_reducible apply SoundO4.none_
      | with_reducible apply SoundO4.some_ | with_reducible apply Sound.ite | with_reducible apply SoundOut.ite
      | with_reducible apply Sound2.ite | with_reducible apply Sound3.ite | with_reducible apply SoundO.ite
      | with_reducible apply Sound.foldl | with_reducible apply Sound2.foldl
      | (extract_lets +onlyGivenNames s1; first | (refine Sound.cut (was := was) (u := s1) ?_ ?_; rotate_left; (intro hs1; clear_value s1); rotate_left; subst s1) | skip)
      | with_reducible refine Sound4.last ?_ | with_reducible refine Sound3.last ?_
      | with_reducible refine Sound2.snd ?_ | split | with_reducible apply Sound2.pair)

theorem State.coreMem_sound {was : State} {s : State} {i : Fin 4} {write : Bool} {a n : Nat} {v : BitVec 64} (hs : Sound was s) :
    Sound2 was (State.coreMem s i write a n v) := by
  unfold State.coreMem
  iterate 50 (all_goals try first
      | with_reducible assumption | intro _ | with_reducible refine Sound2.of (by assumption) ?_
      | with_reducible apply State.fillL2_sound | with_reducible apply State.setL2_sound
      | with_reducible apply State.clearResv_sound | with_reducible apply Sound.ite | with_reducible apply Sound2.ite
      | with_reducible apply Sound.foldl
      | (extract_lets +onlyGivenNames s1; first | (refine Sound.cut (was := was) (u := s1) ?_ ?_; rotate_left; (intro hs1; clear_value s1); rotate_left; subst s1) | skip)
      | with_reducible refine Sound2.snd ?_ | split | with_reducible apply Sound2.pair)

theorem State.hartMem_sound {was : State} {s : State} {h : Nat} {write : Bool} {a n : Nat} {v : BitVec 64} (hs : Sound was s) :
    Sound2 was (State.hartMem s h write a n v) := by
  unfold State.hartMem
  iterate 50 (all_goals try first
      | with_reducible assumption | intro _ | with_reducible refine Sound2.of (by assumption) ?_
      | with_reducible apply State.coreMem_sound | with_reducible apply State.requestNow_sound
      | with_reducible apply State.unhold_sound | with_reducible apply Sound.ite | with_reducible apply Sound2.ite
      | with_reducible apply Sound.foldl
      | (extract_lets +onlyGivenNames s1; first | (refine Sound.cut (was := was) (u := s1) ?_ ?_; rotate_left; (intro hs1; clear_value s1); rotate_left; subst s1) | skip)
      | with_reducible refine Sound2.snd ?_ | split | with_reducible apply Sound2.pair)

theorem State.abstractMem_sound {was : State} {s : State} {h : Nat} {write : Bool} {size a : Nat} {v : BitVec 64} (hs : Sound was s) :
    Sound was (State.abstractMem s h write size a v) := by
  unfold State.abstractMem
  iterate 50 (all_goals try first
      | with_reducible assumption | intro _ | with_reducible refine Sound2.of (by assumption) ?_
      | with_reducible apply State.setCmdErr_sound | with_reducible apply State.hartMem_sound
      | with_reducible apply State.setDmArg_sound | with_reducible apply Sound.ite | with_reducible apply Sound2.ite
      | with_reducible apply Sound.foldl
      | (extract_lets +onlyGivenNames s1; first | (refine Sound.cut (was := was) (u := s1) ?_ ?_; rotate_left; (intro hs1; clear_value s1); rotate_left; subst s1) | skip)
      | with_reducible refine Sound2.snd ?_ | split)

theorem execAbstractMemoryAccess_sound {was : State} {h : Fin 5} {write : Bool} {size : Fin 4} {addr v : BitVec 64} {s : State} (hs : Sound was s) :
    SoundOut was (execAbstractMemoryAccess h write size addr v s) := by
  unfold execAbstractMemoryAccess
  iterate 20 (all_goals try first
      | with_reducible assumption | intro _ | with_reducible apply State.abstractMem_sound
      | with_reducible apply SoundOut.next | with_reducible apply Sound.ite | with_reducible apply SoundOut.ite)

theorem State.setSbAddr_sound {was : State} {s : State} {a : Nat} (hs : Sound was s) :
    Sound was (State.setSbAddr s a) := by
  unfold State.setSbAddr
  iterate 8 (all_goals try first
      | with_reducible assumption | with_reducible apply State.setDm_sound)

theorem State.sbDone_sound {was : State} {s : State} {write : Bool} {size : Nat} {c : Resp} {d : List Byte} (hs : Sound was s) :
    Sound was (State.sbDone s write size c d) := by
  unfold State.sbDone
  iterate 20 (all_goals try first
      | with_reducible assumption | intro _ | with_reducible apply State.setDm_sound
      | with_reducible apply State.setSbAddr_sound | with_reducible apply Sound.ite | with_reducible apply Sound.foldl
      | split | with_reducible refine Sound.mk_ ?_ rfl rfl)

theorem State.sbAccess_sound {was : State} {s : State} {write : Bool} {size a : Nat} {v : BitVec 64} (hs : Sound was s) :
    Sound was (State.sbAccess s write size a v) := by
  unfold State.sbAccess
  iterate 50 (all_goals try first
      | with_reducible assumption | intro _ | with_reducible refine Sound2.of (by assumption) ?_
      | with_reducible apply State.sbDone_sound | with_reducible apply State.requestNow_sound
      | with_reducible apply State.setDm_sound | with_reducible apply State.setTag_sound
      | with_reducible apply State.inject_sound
      | with_reducible apply Sound.ite | with_reducible apply Sound2.ite | with_reducible apply Sound.foldl
      | (extract_lets +onlyGivenNames s1; first | (refine Sound.cut (was := was) (u := s1) ?_ ?_; rotate_left; (intro hs1; clear_value s1); rotate_left; subst s1) | skip)
      | with_reducible refine Sound2.snd ?_ | split | with_reducible refine Sound.mk_ ?_ rfl rfl)

theorem execSystemBusAccess_sound {was : State} {write : Bool} {size : Fin 4} {addr v : BitVec 64} {s : State} (hs : Sound was s) :
    SoundOut was (execSystemBusAccess write size addr v s) := by
  unfold execSystemBusAccess
  iterate 20 (all_goals try first
      | with_reducible assumption | intro _ | with_reducible apply State.sbAccess_sound
      | with_reducible apply SoundOut.next | with_reducible apply Sound.ite | with_reducible apply SoundOut.ite)

theorem execDtmcs_sound {was : State} {w : Word32} {s : State} (hs : Sound was s) :
    SoundOut was (execDtmcs w s) := by
  unfold execDtmcs
  iterate 20 (all_goals try first
      | with_reducible assumption | intro _ | with_reducible apply State.tapIr_sound
      | with_reducible apply State.emit_sound | with_reducible apply State.setDm_sound
      | with_reducible apply SoundOut.next | with_reducible apply Sound.ite)

theorem State.dmRead_sound {was : State} {s : State} {a : Nat} (hs : Sound was s) :
    Sound2 was (State.dmRead s a) := by
  unfold State.dmRead
  iterate 20 (all_goals try first
      | with_reducible assumption | intro _ | with_reducible apply State.sbAccess_sound
      | with_reducible apply Sound.ite | with_reducible apply Sound2.ite | with_reducible apply Sound.foldl | split
      | with_reducible apply Sound2.pair)

theorem State.dmControl_sound {was : State} {s : State} {w : Word32} {pc : BitVec 64} {prv : Nat} {regs : List (BitVec 16 × BitVec 64)} (hs : Sound was s) :
    Sound was (State.dmControl s w pc prv regs) := by
  unfold State.dmControl
  iterate 20 (all_goals try first
      | with_reducible assumption | intro _ | with_reducible apply State.setCore_sound
      | with_reducible apply State.setDm_sound | with_reducible apply State.haltHart_sound
      | with_reducible apply State.resumeHart_sound | with_reducible apply Sound.ite
      | with_reducible apply Sound.foldl | split | with_reducible refine Sound.mk_ ?_ rfl rfl)

theorem State.dmCommand_sound {was : State} {s : State} {w : Word32} {regs : List (BitVec 16 × BitVec 64)} {exc : Bool} (hs : Sound was s) :
    Sound was (State.dmCommand s w regs exc) := by
  unfold State.dmCommand
  iterate 20 (all_goals try first
      | with_reducible assumption | intro _ | with_reducible apply State.setCmdErr_sound
      | with_reducible apply State.abstractReg_sound | with_reducible apply State.mergeHregs_sound
      | with_reducible apply State.abstractMem_sound | with_reducible apply State.setDmArg_sound
      | with_reducible apply Sound.ite | with_reducible apply Sound.foldl | split)

theorem State.dmWrite_sound {was : State} {s : State} {a : Nat} {w : Word32} {pc : BitVec 64} {prv : Nat} {regs : List (BitVec 16 × BitVec 64)} {exc : Bool} (hs : Sound was s) :
    Sound was (State.dmWrite s a w pc prv regs exc) := by
  unfold State.dmWrite
  iterate 20 (all_goals try first
      | with_reducible assumption | intro _ | with_reducible apply State.dmControl_sound
      | with_reducible apply State.setCmdErr_sound | with_reducible apply State.dmCommand_sound
      | with_reducible apply State.setDm_sound | with_reducible apply State.sbAccess_sound
      | with_reducible apply Sound.ite | with_reducible apply Sound.foldl | split
      | with_reducible refine Sound.mk_ ?_ rfl rfl)

theorem execDmi_sound {was : State} {op : Fin 3} {addr : BitVec 7} {w : Word32} {pc : BitVec 64} {prv : Fin 4} {regs : List (BitVec 16 × BitVec 64)} {exc : Bool} {s : State} (hs : Sound was s) :
    SoundOut was (execDmi op addr w pc prv regs exc s) := by
  unfold execDmi
  iterate 50 (all_goals try first
      | with_reducible assumption | intro _ | with_reducible refine Sound2.of (by assumption) ?_
      | with_reducible apply State.tapIr_sound | with_reducible apply State.emit_sound
      | with_reducible apply State.setDm_sound | with_reducible apply State.dmRead_sound
      | with_reducible apply State.dmWrite_sound | with_reducible apply SoundOut.next | with_reducible apply Sound.ite
      | with_reducible apply SoundOut.ite | with_reducible apply Sound2.ite | with_reducible apply Sound.foldl
      | (extract_lets +onlyGivenNames s1; first | (refine Sound.cut (was := was) (u := s1) ?_ ?_; rotate_left; (intro hs1; clear_value s1); rotate_left; subst s1) | skip)
      | with_reducible refine Sound2.snd ?_ | split)

end Sys2Proof.Machine
end

