-- ==== Sys2Proof/Laws/SoundPins.lean ====
section
/-!
SUPPORT. Sys2Proof/Laws/SoundPins.lean: the operations of Machine/Pins.lean keep what Sound says.
-/

namespace Sys2Proof.Machine

theorem State.flashLines_sound {was : State} {s : State} {n : Nat} {x : Option (BitVec 24 × Bool)} (hs : Sound was s) :
    Sound was (State.flashLines s n x) := by
  unfold State.flashLines
  iterate 20 (all_goals try first
      | with_reducible assumption | intro _ | with_reducible apply State.raise_sound
      | with_reducible apply State.put_sound | with_reducible apply State.logEv_sound | with_reducible apply Sound.ite
      | with_reducible apply Sound.foldl | split)

theorem State.flashFound_sound {was : State} {s : State} {f : FlashFound} (hs : Sound was s) :
    Sound was (State.flashFound s f) := by
  unfold State.flashFound
  iterate 60 (all_goals try first
      | with_reducible assumption | intro _ | with_reducible refine Sound2.of (by assumption) ?_
      | with_reducible refine Sound3.of (by assumption) ?_ | with_reducible refine Sound4.of (by assumption) ?_
      | with_reducible refine SoundO.of (by assumption) ?_ | with_reducible refine SoundO2.of (by assumption) ?_
      | with_reducible refine SoundO4.of (by assumption) ?_ | with_reducible refine SoundOut.of (by assumption) ?_
      | with_reducible apply State.emit_sound | with_reducible apply State.flashLines_sound
      | with_reducible apply State.put_sound
      | (extract_lets +onlyGivenNames s1; first | (refine Sound.cut (was := was) (u := s1) ?_ ?_; rotate_left; (intro hs1; clear_value s1); rotate_left; subst s1) | skip))

theorem State.sampled_sound {was : State} {s : State} (hs : Sound was s) :
    Sound was (State.sampled s) := by
  unfold State.sampled
  iterate 8 (all_goals try first
      | with_reducible assumption | with_reducible apply State.put_sound | with_reducible apply State.otpRegs_sound)

theorem State.bootRom_sound {was : State} {s : State} {mcOk : Bool} (hs : Sound was s) :
    Sound was (State.bootRom s mcOk) := by
  unfold State.bootRom
  iterate 50 (all_goals try first
      | with_reducible assumption | intro _ | with_reducible refine Sound2.of (by assumption) ?_
      | with_reducible apply State.revertSet_sound | with_reducible apply State.draw_sound
      | with_reducible apply State.blowSvn_sound | with_reducible apply State.otpRegs_sound
      | with_reducible apply State.bootMc_sound | with_reducible apply Sound.ite | with_reducible apply Sound2.ite
      | with_reducible apply Sound.foldl
      | (extract_lets +onlyGivenNames s1; first | (refine Sound.cut (was := was) (u := s1) ?_ ?_; rotate_left; (intro hs1; clear_value s1); rotate_left; subst s1) | skip)
      | with_reducible refine Sound2.snd ?_ | split | with_reducible refine Sound.mk_ ?_ rfl rfl)

theorem State.showIds_sound {was : State} {s : State} (hs : Sound was s) :
    Sound was (State.showIds s) := by
  unfold State.showIds
  iterate 60 (all_goals try first
      | with_reducible assumption | intro _ | with_reducible refine Sound2.of (by assumption) ?_
      | with_reducible refine Sound3.of (by assumption) ?_ | with_reducible refine Sound4.of (by assumption) ?_
      | with_reducible refine SoundO.of (by assumption) ?_ | with_reducible refine SoundO2.of (by assumption) ?_
      | with_reducible refine SoundO4.of (by assumption) ?_ | with_reducible refine SoundOut.of (by assumption) ?_
      | with_reducible apply State.setReg_sound | with_reducible apply SoundOut.next
      | with_reducible apply SoundO.none_ | with_reducible apply SoundO.some_ | with_reducible apply SoundO2.none_
      | with_reducible apply SoundO2.some_ | with_reducible apply SoundO4.none_ | with_reducible apply SoundO4.some_
      | with_reducible apply Sound.ite | with_reducible apply SoundOut.ite | with_reducible apply Sound2.ite
      | with_reducible apply Sound3.ite | with_reducible apply SoundO.ite | with_reducible apply Sound.foldl
      | (extract_lets +onlyGivenNames s1; first | (refine Sound.cut (was := was) (u := s1) ?_ ?_; rotate_left; (intro hs1; clear_value s1); rotate_left; subst s1) | skip))

theorem State.features_sound {was : State} {s : State} (hs : Sound was s) :
    Sound was (State.features s) := by
  unfold State.features
  iterate 8 (all_goals try first
      | with_reducible assumption | with_reducible apply State.put_sound)

theorem State.repairEntry_sound {was : State} {s : State} {e : Nat} (hs : Sound was s) :
    Sound was (State.repairEntry s e) := by
  unfold State.repairEntry
  iterate 20 (all_goals try first
      | with_reducible assumption | intro _ | with_reducible apply State.setXg_sound | with_reducible apply Sound.ite)

theorem State.assembly_sound {was : State} {s : State} {r : List Byte} (hs : Sound was s) :
    Sound was (State.assembly s r) := by
  unfold State.assembly
  iterate 20 (all_goals try first
      | with_reducible assumption | intro _ | with_reducible apply State.setReg_sound
      | with_reducible apply State.repairEntry_sound | with_reducible apply State.raise_sound
      | with_reducible apply State.logEv_sound | with_reducible apply Sound.ite | with_reducible apply Sound.foldl)

theorem execPowerOn_sound {was : State} {p : PowerOn} {s : State} (hs : Sound was s) :
    SoundOut was (execPowerOn p s) := by
  unfold execPowerOn
  refine SoundOut.ite (SoundOut.next hs) (SoundOut.next (State.tapIdle_sound (State.bootRom_sound (State.newNonce_sound
    (State.flashFound_sound (State.put_sound (State.put_sound (State.put_sound (State.put_sound ?_)))))))))
  exact State.sampled_sound (State.assembly_sound (State.features_sound (State.showIds_sound (Sound.mk_ hs rfl rfl))))

theorem execPowerOff_sound {was : State} {s : State} (hs : Sound was s) : SoundOut was (execPowerOff s) := by
  unfold execPowerOff
  split
  · exact SoundOut.next hs
  · have h : Sound State.reset State.reset := ⟨rfl, rfl, fun _ => Nat.zero_le _, Nat.zero_le _, rfl, List.prefix_rfl, Nat.le_refl _⟩
    have h := Sound.foldl (l := List.range 10) (f := fun t k => t.setReg .pwrMargin [k] (s.reg .pwrMargin [k]))
      (fun _ _ h => State.setReg_sound h) h
    exact SoundOut.next ⟨h.regs, h.mem, fun _ => Nat.zero_le _, h.held, hs.queue, hs.out, hs.free⟩

theorem execBankVccoChange_sound {was : State} {hv : Bool} {bank : Fin 24} {good : Bool} {s : State} (hs : Sound was s) :
    SoundOut was (execBankVccoChange hv bank good s) := by
  unfold execBankVccoChange
  iterate 20 (all_goals try first
      | with_reducible assumption | intro _ | with_reducible apply State.put_sound
      | with_reducible apply State.logEv_sound | with_reducible apply SoundOut.next | with_reducible apply Sound.ite
      | with_reducible apply SoundOut.ite)

theorem execPinFault_sound {was : State} {q : Fin 1216} {pad : Bool} {s : State} (hs : Sound was s) :
    SoundOut was (execPinFault q pad s) := by
  unfold execPinFault
  iterate 60 (all_goals try first
      | with_reducible assumption | intro _ | with_reducible refine Sound2.of (by assumption) ?_
      | with_reducible refine Sound3.of (by assumption) ?_ | with_reducible refine Sound4.of (by assumption) ?_
      | with_reducible refine SoundO.of (by assumption) ?_ | with_reducible refine SoundO2.of (by assumption) ?_
      | with_reducible refine SoundO4.of (by assumption) ?_ | with_reducible refine SoundOut.of (by assumption) ?_
      | with_reducible apply State.put_sound | with_reducible apply State.logEv_sound
      | with_reducible apply SoundOut.next | with_reducible apply SoundO.none_ | with_reducible apply SoundO.some_
      | with_reducible apply SoundO2.none_ | with_reducible apply SoundO2.some_ | with_reducible apply SoundO4.none_
      | with_reducible apply SoundO4.some_ | with_reducible apply Sound.ite | with_reducible apply SoundOut.ite
      | with_reducible apply Sound2.ite | with_reducible apply Sound3.ite | with_reducible apply SoundO.ite
      | with_reducible apply Sound.foldl | with_reducible apply Sound2.foldl
      | (extract_lets +onlyGivenNames s1; first | (refine Sound.cut (was := was) (u := s1) ?_ ?_; rotate_left; (intro hs1; clear_value s1); rotate_left; subst s1) | skip)
      | with_reducible refine Sound4.last ?_ | with_reducible refine Sound3.last ?_
      | with_reducible refine Sound2.snd ?_ | split | with_reducible apply Sound2.pair
      | with_reducible apply Sound3.pair | with_reducible apply Sound4.pair
      | with_reducible refine Sound.mk_ ?_ rfl rfl)

end Sys2Proof.Machine
end

