-- ==== Sys2Proof/Laws/SoundReferences.lean ====
section
/-!
SUPPORT. Sys2Proof/Laws/SoundReferences.lean: the operations of Machine/References.lean keep what Sound says.
-/

namespace Sys2Proof.Machine

theorem State.setClk_sound {was : State} {s : State} {p : ClkPhase} (hs : Sound was s) :
    Sound was (State.setClk s p) := by
  unfold State.setClk
  iterate 8 (all_goals try first
      | with_reducible assumption | with_reducible refine Sound.mk_ ?_ rfl rfl)

theorem State.dropVolatile_sound {was : State} {s : State} (hs : Sound was s) : Sound was (State.dropVolatile s) :=
  ⟨hs.regs, rfl, hs.units, hs.held, hs.queue, hs.out, hs.free⟩

theorem State.warmRestart_sound {was : State} {s : State} {r : Restart} (hs : Sound was s) :
    Sound was (State.warmRestart s r) := by
  unfold State.warmRestart
  iterate 20 (all_goals try first
      | with_reducible assumption | intro _ | with_reducible apply State.resetDomains_sound
      | with_reducible apply State.clearDevice_sound | with_reducible apply State.dropVolatile_sound
      | with_reducible apply State.coreReset_sound | with_reducible apply State.put_sound
      | with_reducible apply State.relock_sound | with_reducible apply State.raise_sound
      | with_reducible apply State.sampled_sound | with_reducible apply State.flashFound_sound
      | with_reducible apply State.bootRom_sound | with_reducible apply Sound.ite | with_reducible apply Sound.foldl
      | split | with_reducible refine Sound.mk_ ?_ rfl rfl)

theorem State.activate1_sound {was : State} {s : State} {refB : Bool} (hs : Sound was s) :
    Sound was (State.activate1 s refB) := by
  unfold State.activate1
  iterate 8 (all_goals try first
      | with_reducible assumption | with_reducible apply State.put_sound)

theorem execReferenceQualified_sound {was : State} {refB : Bool} {start : Restart} {s : State} (hs : Sound was s) :
    SoundOut was (execReferenceQualified refB start s) := by
  unfold execReferenceQualified
  iterate 20 (all_goals try first
      | with_reducible assumption | intro _ | with_reducible apply State.setQualified_sound
      | with_reducible apply State.activate1_sound | with_reducible apply State.setClk_sound
      | with_reducible apply State.warmRestart_sound | with_reducible apply State.switchTo_sound
      | with_reducible apply SoundOut.next | with_reducible apply Sound.ite | with_reducible apply SoundOut.ite
      | with_reducible apply Sound.foldl | split | with_reducible refine Sound.mk_ ?_ rfl rfl)

theorem execPllsLocked_sound {was : State} {s : State} (hs : Sound was s) :
    SoundOut was (execPllsLocked s) := by
  unfold execPllsLocked
  iterate 20 (all_goals try first
      | with_reducible assumption | intro _ | with_reducible apply State.raise_sound
      | with_reducible apply State.setClk_sound | with_reducible apply SoundOut.next | with_reducible apply Sound.ite
      | with_reducible apply SoundOut.ite | with_reducible apply Sound.foldl | split)

theorem State.startTimebase_sound {was : State} {s : State} {c : Nat} (hs : Sound was s) :
    Sound was (State.startTimebase s c) := by
  unfold State.startTimebase
  iterate 60 (all_goals try first
      | with_reducible assumption | intro _ | with_reducible refine Sound2.of (by assumption) ?_
      | with_reducible refine Sound3.of (by assumption) ?_ | with_reducible refine Sound4.of (by assumption) ?_
      | with_reducible refine SoundO.of (by assumption) ?_ | with_reducible refine SoundO2.of (by assumption) ?_
      | with_reducible refine SoundO4.of (by assumption) ?_ | with_reducible refine SoundOut.of (by assumption) ?_
      | with_reducible apply State.put_sound | with_reducible apply SoundOut.next | with_reducible apply SoundO.none_
      | with_reducible apply SoundO.some_ | with_reducible apply SoundO2.none_ | with_reducible apply SoundO2.some_
      | with_reducible apply SoundO4.none_ | with_reducible apply SoundO4.some_ | with_reducible apply Sound.ite
      | with_reducible apply SoundOut.ite | with_reducible apply Sound2.ite | with_reducible apply Sound3.ite
      | with_reducible apply SoundO.ite | with_reducible apply Sound.foldl | with_reducible apply Sound2.foldl
      | (extract_lets +onlyGivenNames s1; first | (refine Sound.cut (was := was) (u := s1) ?_ ?_; rotate_left; (intro hs1; clear_value s1); rotate_left; subst s1) | skip)
      | with_reducible refine Sound4.last ?_ | with_reducible refine Sound3.last ?_
      | with_reducible refine Sound2.snd ?_ | split | with_reducible apply Sound2.pair
      | with_reducible apply Sound3.pair | with_reducible apply Sound4.pair
      | with_reducible refine Sound.mk_ ?_ rfl rfl)

theorem execTimebaseStart_sound {was : State} {s : State} (hs : Sound was s) :
    SoundOut was (execTimebaseStart s) := by
  unfold execTimebaseStart
  iterate 20 (all_goals try first
      | with_reducible assumption | intro _ | with_reducible apply State.startTimebase_sound
      | with_reducible apply State.setClk_sound | with_reducible apply State.lanesRestart_sound
      | with_reducible apply State.xgResume_sound | with_reducible apply SoundOut.next
      | with_reducible apply Sound.ite | with_reducible apply SoundOut.ite | with_reducible apply Sound.foldl | split
      | with_reducible refine Sound.mk_ ?_ rfl rfl)

theorem execHotResumeComplete_sound {was : State} {s : State} (hs : Sound was s) :
    SoundOut was (execHotResumeComplete s) := by
  unfold execHotResumeComplete
  iterate 60 (all_goals try first
      | with_reducible assumption | intro _ | with_reducible refine Sound2.of (by assumption) ?_
      | with_reducible refine Sound3.of (by assumption) ?_ | with_reducible refine Sound4.of (by assumption) ?_
      | with_reducible refine SoundO.of (by assumption) ?_ | with_reducible refine SoundO2.of (by assumption) ?_
      | with_reducible refine SoundO4.of (by assumption) ?_ | with_reducible refine SoundOut.of (by assumption) ?_
      | with_reducible apply State.raise_sound | with_reducible apply State.logEv_sound
      | with_reducible apply SoundOut.next | with_reducible apply SoundO.none_ | with_reducible apply SoundO.some_
      | with_reducible apply SoundO2.none_ | with_reducible apply SoundO2.some_ | with_reducible apply SoundO4.none_
      | with_reducible apply SoundO4.some_ | with_reducible apply Sound.ite | with_reducible apply SoundOut.ite
      | with_reducible apply Sound2.ite | with_reducible apply Sound3.ite | with_reducible apply SoundO.ite
      | with_reducible apply Sound.foldl | with_reducible apply Sound2.foldl
      | (extract_lets +onlyGivenNames s1; first | (refine Sound.cut (was := was) (u := s1) ?_ ?_; rotate_left; (intro hs1; clear_value s1); rotate_left; subst s1) | skip)
      | with_reducible refine Sound4.last ?_ | with_reducible refine Sound3.last ?_
      | with_reducible refine Sound2.snd ?_ | split | with_reducible apply Sound2.pair
      | with_reducible apply Sound3.pair | with_reducible apply Sound4.pair
      | with_reducible refine Sound.mk_ ?_ rfl rfl)

theorem State.totalLoss_sound {was : State} {s : State} (hs : Sound was s) :
    Sound was (State.totalLoss s) := by
  unfold State.totalLoss
  exact Sound.mk_ (State.put_sound (State.put_sound (State.put_sound (State.put_sound (State.cutPours_sound
    (State.forceSafe_sound hs)))))) rfl rfl

theorem State.startOver_sound {was : State} {s : State} (hs : Sound was s) :
    Sound was (State.startOver s) := by
  unfold State.startOver
  iterate 60 (all_goals try first
      | with_reducible assumption | intro _ | with_reducible refine Sound2.of (by assumption) ?_
      | with_reducible refine Sound3.of (by assumption) ?_ | with_reducible refine Sound4.of (by assumption) ?_
      | with_reducible refine SoundO.of (by assumption) ?_ | with_reducible refine SoundO2.of (by assumption) ?_
      | with_reducible refine SoundO4.of (by assumption) ?_ | with_reducible refine SoundOut.of (by assumption) ?_
      | with_reducible apply State.setQualified_sound | with_reducible apply State.put_sound
      | with_reducible apply State.setClk_sound | with_reducible apply SoundOut.next
      | with_reducible apply SoundO.none_ | with_reducible apply SoundO.some_ | with_reducible apply SoundO2.none_
      | with_reducible apply SoundO2.some_ | with_reducible apply SoundO4.none_ | with_reducible apply SoundO4.some_
      | with_reducible apply Sound.ite | with_reducible apply SoundOut.ite | with_reducible apply Sound2.ite
      | with_reducible apply Sound3.ite | with_reducible apply SoundO.ite | with_reducible apply Sound.foldl
      | with_reducible apply Sound2.foldl
      | (extract_lets +onlyGivenNames s1; first | (refine Sound.cut (was := was) (u := s1) ?_ ?_; rotate_left; (intro hs1; clear_value s1); rotate_left; subst s1) | skip)
      | with_reducible refine Sound4.last ?_ | with_reducible refine Sound3.last ?_
      | with_reducible refine Sound2.snd ?_ | split | with_reducible apply Sound2.pair
      | with_reducible apply Sound3.pair | with_reducible apply Sound4.pair
      | with_reducible refine Sound.mk_ ?_ rfl rfl)

theorem execReferenceLost_sound {was : State} {refB : Bool} {s : State} (hs : Sound was s) :
    SoundOut was (execReferenceLost refB s) := by
  unfold execReferenceLost
  iterate 60 (all_goals try first
      | with_reducible assumption | intro _ | with_reducible refine Sound2.of (by assumption) ?_
      | with_reducible refine Sound3.of (by assumption) ?_ | with_reducible refine Sound4.of (by assumption) ?_
      | with_reducible refine SoundO.of (by assumption) ?_ | with_reducible refine SoundO2.of (by assumption) ?_
      | with_reducible refine SoundO4.of (by assumption) ?_ | with_reducible refine SoundOut.of (by assumption) ?_
      | with_reducible apply State.countUp_sound | with_reducible apply State.setQualified_sound
      | with_reducible apply State.switchTo_sound | with_reducible apply State.startOver_sound
      | with_reducible apply State.put_sound | with_reducible apply State.setClk_sound
      | with_reducible apply State.totalLoss_sound | with_reducible apply SoundOut.next
      | with_reducible apply SoundO.none_ | with_reducible apply SoundO.some_ | with_reducible apply SoundO2.none_
      | with_reducible apply SoundO2.some_ | with_reducible apply SoundO4.none_ | with_reducible apply SoundO4.some_
      | with_reducible apply Sound.ite | with_reducible apply SoundOut.ite | with_reducible apply Sound2.ite
      | with_reducible apply Sound3.ite | with_reducible apply SoundO.ite | with_reducible apply Sound.foldl
      | with_reducible apply Sound2.foldl
      | (extract_lets +onlyGivenNames s1; first | (refine Sound.cut (was := was) (u := s1) ?_ ?_; rotate_left; (intro hs1; clear_value s1); rotate_left; subst s1) | skip)
      | with_reducible refine Sound4.last ?_ | with_reducible refine Sound3.last ?_
      | with_reducible refine Sound2.snd ?_ | split | with_reducible apply Sound2.pair
      | with_reducible apply Sound3.pair | with_reducible apply Sound4.pair
      | with_reducible refine Sound.mk_ ?_ rfl rfl)

end Sys2Proof.Machine
end

