-- ==== Sys2Proof/Laws/SoundPcie.lean ====
section
/-!
SUPPORT. Sys2Proof/Laws/SoundPcie.lean: the operations of Machine/Pcie.lean keep what Sound says.
-/

namespace Sys2Proof.Machine

theorem State.msixStore_sound {was : State} {s : State} {off : Nat} {data : List Byte} (hs : Sound was s) :
    Sound was (State.msixStore s off data) := by
  unfold State.msixStore
  iterate 20 (all_goals try first
      | with_reducible assumption | intro _ | with_reducible apply State.msixWrite_sound
      | with_reducible apply Sound.ite | with_reducible apply Sound.foldl)

theorem State.writeFailed_sound {was : State} {s : State} {r : Req} {c : Resp} (hs : Sound was s) :
    Sound was (State.writeFailed s r c) := by
  unfold State.writeFailed
  iterate 20 (all_goals try first
      | with_reducible assumption | intro _ | with_reducible apply State.logEv_sound
      | with_reducible apply State.emit_sound | with_reducible apply State.raise_sound
      | with_reducible apply State.put_sound | with_reducible apply State.setReg_sound
      | with_reducible apply State.interrupt_sound | with_reducible apply Sound.ite)

theorem issuePieces_sound {was : State} {earlier : List HostTlp} {t : HostTlp} {x0 : List HostPiece} {x1 : Bool} {s : State}
    (hs : Sound was s) : Sound2 was (issuePieces earlier t x0 x1 s) := by
  induction x0 generalizing x1 s with
  | nil => exact ⟨hs⟩
  | cons p ps ih =>
    unfold issuePieces
    iterate 50 (all_goals try first
        | with_reducible assumption | intro _ | with_reducible refine Sound2.of (by assumption) ?_
        | with_reducible refine SoundO.of (by assumption) ?_ | with_reducible apply State.inject_sound | apply ih
        | with_reducible apply Sound.ite | with_reducible apply Sound2.ite | with_reducible apply Sound.foldl
        | (extract_lets +onlyGivenNames s1; first | (refine Sound.cut (was := was) (u := s1) ?_ ?_; rotate_left; (intro hs1; clear_value s1); rotate_left; subst s1) | skip)
        | with_reducible refine Sound4.last ?_ | with_reducible refine Sound3.last ?_
        | with_reducible refine Sound2.snd ?_ | split | with_reducible apply Sound2.pair)

theorem walkTlps_sound {was : State} {x0 x1 : List HostTlp} {s : State} (hs : Sound was s) :
    Sound was (walkTlps x0 x1 s) := by
  induction x0 generalizing x1 s with
  | nil => exact Sound.mk_ hs rfl rfl
  | cons t ts ih =>
    have h := (issuePieces_sound (earlier := x1) (t := t) (x0 := t.pieces) (x1 := false) hs).snd
    unfold walkTlps
    dsimp only
    split
    · exact ih (Sound.ite h (State.emit_sound h))
    · exact ih h

theorem State.pumpTlps_sound {was : State} {s : State} (hs : Sound was s) :
    Sound was (State.pumpTlps s) := by
  unfold State.pumpTlps
  iterate 8 (all_goals try first
      | with_reducible assumption | with_reducible apply walkTlps_sound)

theorem State.acceptTlp_sound {was : State} {s : State} {t : HostTlp} (hs : Sound was s) :
    Sound was (State.acceptTlp s t) := by
  unfold State.acceptTlp
  iterate 8 (all_goals try first
      | with_reducible assumption | with_reducible apply State.pumpTlps_sound
      | with_reducible refine Sound.mk_ ?_ rfl rfl)

theorem execTlpRead_sound {was : State} {bar : Fin 3} {off : BitVec 36} {len : Fin 4097} {s : State} (hs : Sound was s) :
    SoundOut was (execTlpRead bar off len s) := by
  unfold execTlpRead
  iterate 20 (all_goals try first
      | with_reducible assumption | intro _ | with_reducible apply State.acceptTlp_sound
      | with_reducible apply SoundOut.next | with_reducible apply Sound.ite | with_reducible apply SoundOut.ite)

theorem execTlpWrite_sound {was : State} {bar : Fin 3} {off : BitVec 36} {data : List Byte} {s : State} (hs : Sound was s) :
    SoundOut was (execTlpWrite bar off data s) := by
  unfold execTlpWrite
  iterate 20 (all_goals try first
      | with_reducible assumption | intro _ | with_reducible apply State.bar4Write_sound
      | with_reducible apply State.msixStore_sound | with_reducible apply State.writeFailed_sound
      | with_reducible apply State.acceptTlp_sound | with_reducible apply SoundOut.next
      | with_reducible apply Sound.ite | with_reducible apply SoundOut.ite | with_reducible apply Sound.foldl)

theorem execTranslationEnable_sound {was : State} {src : Src} {n : Fin 16} {w : Word32} {s : State} (hs : Sound was s) :
    SoundOut was (execTranslationEnable src n w s) := by
  unfold execTranslationEnable
  iterate 60 (all_goals try first
      | with_reducible assumption | intro _ | with_reducible refine Sound2.of (by assumption) ?_
      | with_reducible refine Sound3.of (by assumption) ?_ | with_reducible refine Sound4.of (by assumption) ?_
      | with_reducible refine SoundO.of (by assumption) ?_ | with_reducible refine SoundO2.of (by assumption) ?_
      | with_reducible refine SoundO4.of (by assumption) ?_ | with_reducible refine SoundOut.of (by assumption) ?_
      | with_reducible apply State.command_sound | with_reducible apply State.trWrite_sound
      | with_reducible apply SoundOut.next
      | (extract_lets +onlyGivenNames s1; first | (refine Sound.cut (was := was) (u := s1) ?_ ?_; rotate_left; (intro hs1; clear_value s1); rotate_left; subst s1) | skip))

theorem State.hostAnswer_sound {was : State} {s : State} {m : Nat} {t : Fin 1024} {c : Resp} {d : List Byte} (hs : Sound was s) :
    Sound was (State.hostAnswer s m t c d) := by
  unfold State.hostAnswer
  iterate 20 (all_goals try first
      | with_reducible assumption | intro _ | with_reducible apply State.writeFailed_sound
      | with_reducible apply State.pumpTlps_sound | with_reducible apply Sound.ite | with_reducible apply Sound.foldl
      | split | with_reducible refine Sound.mk_ ?_ rfl rfl)

theorem State.deliverResp_sound {was : State} {s : State} {r : Req} {c : Resp} {d : List Byte} {bad : List Nat} (hs : Sound was s) :
    Sound was (State.deliverResp s r c d bad) := by
  unfold State.deliverResp
  iterate 20 (all_goals try first
      | with_reducible assumption | intro _ | with_reducible apply State.hostAnswer_sound
      | with_reducible apply State.sbDone_sound | with_reducible apply State.emit_sound
      | with_reducible apply Sound.ite)

theorem execResponseArrival_sound {was : State} {r : Req} {code : Fin 8} {stamp : BitVec 16} {data : List Byte} {bad : List Nat} {s : State} (hs : Sound was s) :
    SoundOut was (execResponseArrival r code stamp data bad s) := by
  unfold execResponseArrival
  iterate 50 (all_goals try first
      | with_reducible assumption | intro _ | with_reducible apply State.countUp_sound
      | with_reducible apply State.stamp_sound | with_reducible apply State.send_sound
      | with_reducible apply State.tagDone_sound | with_reducible apply State.deliverResp_sound
      | with_reducible apply SoundOut.next | with_reducible apply Sound.ite | with_reducible apply SoundOut.ite
      | with_reducible apply Sound.foldl
      | (extract_lets +onlyGivenNames s1; first | (refine Sound.cut (was := was) (u := s1) ?_ ?_; rotate_left; (intro hs1; clear_value s1); rotate_left; subst s1) | skip)
      | split)

theorem State.giveUp_sound {was : State} {s : State} {m : Fin 64} {t : Fin 1024} (hs : Sound was s) :
    Sound was (State.giveUp s m t) := Sound.mk_ hs rfl rfl

theorem execMasterTimeout_sound {was : State} {m : Fin 64} {core : Fin 4} {t : Fin 1024} {s : State} (hs : Sound was s) :
    SoundOut was (execMasterTimeout m core t s) := by
  unfold execMasterTimeout
  iterate 20 (all_goals try first
      | with_reducible assumption | intro _ | with_reducible apply State.setTag_sound
      | with_reducible apply State.giveUp_sound
      | with_reducible apply State.countUp_sound | with_reducible apply State.deliverResp_sound
      | with_reducible apply SoundOut.next | with_reducible apply Sound.ite | with_reducible apply SoundOut.ite
      | with_reducible apply Sound.foldl | split)

end Sys2Proof.Machine
end

