-- ==== Sys2Proof/Laws/SoundClock.lean ====
section
/-!
SUPPORT. Sys2Proof/Laws/SoundClock.lean: the operations of Machine/Clock.lean keep what Sound says.
-/

namespace Sys2Proof.Machine

theorem State.moveBytes_sound {was : State} {s : State} {d : Nat} (hs : Sound was s) :
    Sound was (State.moveBytes s d) := by
  unfold State.moveBytes
  iterate 60 (all_goals try first
      | with_reducible assumption | intro _ | with_reducible refine Sound2.of (by assumption) ?_
      | with_reducible refine Sound3.of (by assumption) ?_ | with_reducible refine Sound4.of (by assumption) ?_
      | with_reducible refine SoundO.of (by assumption) ?_ | with_reducible refine SoundO2.of (by assumption) ?_
      | with_reducible refine SoundO4.of (by assumption) ?_ | with_reducible refine SoundOut.of (by assumption) ?_
      | with_reducible apply State.settle_sound | with_reducible apply State.put_sound
      | with_reducible apply State.setDie_sound | with_reducible apply State.parityFail_sound
      | with_reducible apply SoundOut.next | with_reducible apply SoundO.none_ | with_reducible apply SoundO.some_
      | with_reducible apply SoundO2.none_ | with_reducible apply SoundO2.some_ | with_reducible apply SoundO4.none_
      | with_reducible apply SoundO4.some_ | with_reducible apply Sound.ite | with_reducible apply SoundOut.ite
      | with_reducible apply Sound2.ite | with_reducible apply Sound3.ite | with_reducible apply SoundO.ite
      | with_reducible apply Sound.foldl
      | (extract_lets +onlyGivenNames s1; first | (refine Sound.cut (was := was) (u := s1) ?_ ?_; rotate_left; (intro hs1; clear_value s1); rotate_left; subst s1) | skip))

theorem State.advance_sound {was : State} {s : State} {d t : Nat} (hs : Sound was s) :
    Sound was (State.advance s d t) := by
  unfold State.advance
  iterate 50 (all_goals try first
      | with_reducible assumption | intro _ | with_reducible refine Sound2.of (by assumption) ?_
      | with_reducible apply State.setTile_sound | with_reducible apply State.seek_sound
      | with_reducible apply State.loadMould_sound | with_reducible apply Sound.ite | with_reducible apply Sound2.ite
      | with_reducible apply Sound.foldl
      | (extract_lets +onlyGivenNames s1; first | (refine Sound.cut (was := was) (u := s1) ?_ ?_; rotate_left; (intro hs1; clear_value s1); rotate_left; subst s1) | skip)
      | with_reducible refine Sound2.snd ?_ | split)

theorem State.tileEdge_sound {was : State} {s : State} {d : Nat} {t : Nat} (hs : Sound was s) :
    Sound was (State.tileEdge s d t) := by
  unfold State.tileEdge
  iterate 60 (all_goals try first
      | with_reducible assumption | intro _ | with_reducible refine Sound2.of (by assumption) ?_
      | with_reducible refine Sound3.of (by assumption) ?_ | with_reducible refine Sound4.of (by assumption) ?_
      | with_reducible refine SoundO.of (by assumption) ?_ | with_reducible refine SoundO2.of (by assumption) ?_
      | with_reducible refine SoundO4.of (by assumption) ?_ | with_reducible refine SoundOut.of (by assumption) ?_
      | with_reducible apply State.setTile_sound | with_reducible apply State.advance_sound
      | with_reducible apply State.noteCurrent_sound | with_reducible apply SoundOut.next
      | with_reducible apply SoundO.none_ | with_reducible apply SoundO.some_ | with_reducible apply SoundO2.none_
      | with_reducible apply SoundO2.some_ | with_reducible apply SoundO4.none_ | with_reducible apply SoundO4.some_
      | with_reducible apply Sound.ite
      | (extract_lets +onlyGivenNames s1; first | (refine Sound.cut (was := was) (u := s1) ?_ ?_; rotate_left; (intro hs1; clear_value s1); rotate_left; subst s1) | skip))

theorem State.injectOut_sound {was : State} {s : State} {d : Nat} (hs : Sound was s) : Sound was (State.injectOut s d) :=
  Sound.ite (State.put_sound (State.setDie_sound hs)) hs

theorem State.dieEdge_sound {was : State} {s : State} {d : Nat} (hs : Sound was s) :
    Sound was (State.dieEdge s d) := by
  unfold State.dieEdge
  iterate 20 (all_goals try first
      | with_reducible assumption | intro _ | with_reducible apply State.moveBytes_sound
      | with_reducible apply State.injectOut_sound | with_reducible apply State.tileEdge_sound | with_reducible apply State.setDie_sound
      | with_reducible apply Sound.ite | with_reducible apply Sound.foldl)

theorem State.fbEdge_sound {was : State} {s : State} (hs : SoundQ was s) : SoundQ was (State.fbEdge s) := by
  unfold State.fbEdge
  obtain ⟨_, h⟩ := hs
  exact ⟨_, h.regs, h.mem, h.units, h.held, rfl, h.out, h.free⟩

theorem State.monitor_sound {was : State} {s : State} (hs : Sound was s) :
    Sound was (State.monitor s) := by
  have hr : ∀ n (t : State), Sound was t → Sound was (Nat.repeat State.monCycle n t) := by
    intro n
    induction n with
    | zero => exact fun _ h => h
    | succ n ih => exact fun t h => State.monCycle_sound (ih t h)
  unfold State.monitor
  extract_lets src f t
  split
  · exact Sound.ite hs (Sound.mk_ hs rfl rfl)
  · exact hr _ _ (Sound.mk_ hs rfl rfl)

theorem State.timers_sound {was : State} {s : State} (hs : Sound was s) :
    Sound was (State.timers s) := by
  unfold State.timers
  iterate 60 (all_goals try first
      | with_reducible assumption | intro _ | with_reducible refine Sound2.of (by assumption) ?_
      | with_reducible refine Sound3.of (by assumption) ?_ | with_reducible refine Sound4.of (by assumption) ?_
      | with_reducible refine SoundO.of (by assumption) ?_ | with_reducible refine SoundO2.of (by assumption) ?_
      | with_reducible refine SoundO4.of (by assumption) ?_ | with_reducible refine SoundOut.of (by assumption) ?_
      | with_reducible apply State.setCore_sound | with_reducible apply SoundOut.next
      | with_reducible apply SoundO.none_ | with_reducible apply SoundO.some_ | with_reducible apply SoundO2.none_
      | with_reducible apply SoundO2.some_ | with_reducible apply SoundO4.none_ | with_reducible apply SoundO4.some_
      | with_reducible apply Sound.ite | with_reducible apply SoundOut.ite | with_reducible apply Sound2.ite
      | with_reducible apply Sound3.ite | with_reducible apply SoundO.ite | with_reducible apply Sound.foldl
      | with_reducible apply Sound2.foldl
      | (extract_lets +onlyGivenNames s1; first | (refine Sound.cut (was := was) (u := s1) ?_ ?_; rotate_left; (intro hs1; clear_value s1); rotate_left; subst s1) | skip)
      | with_reducible refine Sound4.last ?_ | with_reducible refine Sound3.last ?_
      | with_reducible refine Sound2.snd ?_ | split | with_reducible apply Sound2.pair
      | with_reducible apply Sound3.pair | with_reducible apply Sound4.pair
      | with_reducible refine Sound.mk_ ?_ rfl rfl)

theorem State.queueViews_sound {was : State} {s : State} (hs : Sound was s) :
    Sound was (State.queueViews s) := by
  unfold State.queueViews
  iterate 8 (all_goals try first
      | with_reducible assumption | with_reducible refine Sound.mk_ ?_ rfl rfl)

theorem State.count1_sound {was : State} {s : State} (hs : Sound was s) :
    Sound was (State.count1 s) := by
  unfold State.count1
  iterate 60 (all_goals try first
      | with_reducible assumption | intro _ | with_reducible refine Sound2.of (by assumption) ?_
      | with_reducible refine Sound3.of (by assumption) ?_ | with_reducible refine Sound4.of (by assumption) ?_
      | with_reducible refine SoundO.of (by assumption) ?_ | with_reducible refine SoundO2.of (by assumption) ?_
      | with_reducible refine SoundO4.of (by assumption) ?_ | with_reducible refine SoundOut.of (by assumption) ?_
      | with_reducible apply State.copiesCount_sound | with_reducible apply SoundOut.next
      | with_reducible apply SoundO.none_ | with_reducible apply SoundO.some_ | with_reducible apply SoundO2.none_
      | with_reducible apply SoundO2.some_ | with_reducible apply SoundO4.none_ | with_reducible apply SoundO4.some_
      | with_reducible apply Sound.ite | with_reducible apply SoundOut.ite | with_reducible apply Sound2.ite
      | with_reducible apply Sound3.ite | with_reducible apply SoundO.ite | with_reducible apply Sound.foldl
      | with_reducible apply Sound2.foldl
      | (extract_lets +onlyGivenNames s1; first | (refine Sound.cut (was := was) (u := s1) ?_ ?_; rotate_left; (intro hs1; clear_value s1); rotate_left; subst s1) | skip)
      | with_reducible refine Sound4.last ?_ | with_reducible refine Sound3.last ?_
      | with_reducible refine Sound2.snd ?_ | split | with_reducible apply Sound2.pair
      | with_reducible apply Sound3.pair | with_reducible apply Sound4.pair
      | with_reducible refine Sound.mk_ ?_ rfl rfl)

theorem State.lateTicks_sound {was : State} {s : State} (hs : Sound was s) :
    Sound was (State.lateTicks s) := by
  unfold State.lateTicks
  iterate 60 (all_goals try first
      | with_reducible assumption | intro _ | with_reducible refine Sound2.of (by assumption) ?_
      | with_reducible refine Sound3.of (by assumption) ?_ | with_reducible refine Sound4.of (by assumption) ?_
      | with_reducible refine SoundO.of (by assumption) ?_ | with_reducible refine SoundO2.of (by assumption) ?_
      | with_reducible refine SoundO4.of (by assumption) ?_ | with_reducible refine SoundOut.of (by assumption) ?_
      | with_reducible apply State.fireTick_sound | with_reducible apply SoundOut.next
      | with_reducible apply SoundO.none_ | with_reducible apply SoundO.some_ | with_reducible apply SoundO2.none_
      | with_reducible apply SoundO2.some_ | with_reducible apply SoundO4.none_ | with_reducible apply SoundO4.some_
      | with_reducible apply Sound.ite | with_reducible apply SoundOut.ite | with_reducible apply Sound2.ite
      | with_reducible apply Sound3.ite | with_reducible apply SoundO.ite | with_reducible apply Sound.foldl
      | (extract_lets +onlyGivenNames s1; first | (refine Sound.cut (was := was) (u := s1) ?_ ?_; rotate_left; (intro hs1; clear_value s1); rotate_left; subst s1) | skip))

theorem State.arrayClocks_sound {was : State} {s : State} (hs : Sound was s) :
    Sound was (State.arrayClocks s) := by
  unfold State.arrayClocks
  iterate 60 (all_goals try first
      | with_reducible assumption | intro _ | with_reducible refine Sound2.of (by assumption) ?_
      | with_reducible refine Sound3.of (by assumption) ?_ | with_reducible refine Sound4.of (by assumption) ?_
      | with_reducible refine SoundO.of (by assumption) ?_ | with_reducible refine SoundO2.of (by assumption) ?_
      | with_reducible refine SoundO4.of (by assumption) ?_ | with_reducible refine SoundOut.of (by assumption) ?_
      | with_reducible apply SoundOut.next | with_reducible apply SoundO.none_ | with_reducible apply SoundO.some_
      | with_reducible apply SoundO2.none_ | with_reducible apply SoundO2.some_ | with_reducible apply SoundO4.none_
      | with_reducible apply SoundO4.some_ | with_reducible apply Sound.ite | with_reducible apply SoundOut.ite
      | with_reducible apply Sound2.ite | with_reducible apply Sound3.ite | with_reducible apply SoundO.ite
      | with_reducible apply Sound.foldl | with_reducible apply Sound2.foldl
      | (extract_lets +onlyGivenNames s1; first | (refine Sound.cut (was := was) (u := s1) ?_ ?_; rotate_left; (intro hs1; clear_value s1); rotate_left; subst s1) | skip)
      | with_reducible refine Sound4.last ?_ | with_reducible refine Sound3.last ?_
      | with_reducible refine Sound2.snd ?_ | split | with_reducible apply Sound2.pair
      | with_reducible apply Sound3.pair | with_reducible apply Sound4.pair
      | with_reducible refine Sound.mk_ ?_ rfl rfl)

theorem State.edge_sound {was : State} {s : State} (hs : Sound was s) : SoundQ was (State.edge s) := by
  unfold State.edge
  extract_lets s1 s2 s3 s4 s5
  have h1 : Sound was s1 := State.arrayClocks_sound (State.lateTicks_sound hs)
  clear_value s1
  have h2 : Sound was s2 := Sound.foldl (fun _ _ h => State.dieEdge_sound h) h1
  clear_value s2
  have h3 : Sound was s3 := State.settleNets_sound (State.applyDeferred_sound (State.monitor_sound (State.timers_sound
    (State.queueViews_sound (State.windowTime_sound (State.count1_sound h2))))))
  clear_value s3
  have h4 : Sound was s4 := State.commandSlots_sound (State.sectorResume_sound (State.poisonResume_sound (State.pumpTlps_sound
    (State.pendingHalts_sound (State.nocResume_sound h3)))))
  clear_value s4
  have h5 : Sound was s5 := State.rtResume_sound (State.copyRow_sound (State.copyRow_sound h4))
  clear_value s5
  exact SoundQ.requeue (State.fbEdge_sound (SoundQ.of (bar4Resume_sound h5))) _

theorem State.tileIssue_sound {was : State} {s0 : State} {d t : Nat} (hs : SoundQ was s0) :
    SoundQ was (State.tileIssue s0 d t) := by
  unfold State.tileIssue
  extract_lets s1 x s2 e s3 y s4
  have h1 : SoundQ was s1 := SoundQ.ite (hs.after fun _ h => State.recognise_sound h) hs
  clear_value s1
  have h2 : SoundQ was s2 := SoundQ.ite (h1.after fun _ h => State.setTile_sound h) h1
  refine SoundQ.ite h2 (SoundQ.requeue ?_ _)
  exact h2.after fun _ h => State.setTile_sound (State.put_sound h)

theorem State.dieIssue_sound {was : State} {s : State} {d : Nat} (hs : SoundQ was s) :
    SoundQ was (State.dieIssue s d) := by
  unfold State.dieIssue
  refine SoundQ.requeue ?_ _
  exact SoundQ.ite (hs.requeue _) (SoundQ.foldl (fun _ _ h => State.tileIssue_sound h) (hs.requeue _))

theorem State.issue_sound {was : State} {s : State} (hs : SoundQ was s) : SoundQ was (State.issue s) := by
  unfold State.issue
  exact SoundQ.requeue (SoundQ.foldl (fun _ _ h => State.dieIssue_sound h) hs) _

theorem idle_sound {was : State} {s : State} (hs : Sound was s) : SoundQ was (idle s) := by
  unfold idle
  have h : Sound was { s with tb := { s.tb with half := !s.tb.half } } := Sound.mk_ hs rfl rfl
  exact SoundQ.ite (SoundQ.of (State.applyDeferred_sound hs))
    (SoundQ.ite (State.issue_sound (SoundQ.of h)) (State.edge_sound h))

end Sys2Proof.Machine
end

