-- ==== Sys2Proof/Laws/SoundDispatch.lean ====
section
/-!
SUPPORT. Sys2Proof/Laws/SoundDispatch.lean: the operations of Machine/Dispatch.lean keep what Sound says.
-/

namespace Sys2Proof.Machine

theorem exec_sound {was : State} {i : Instr} {s : State} (hs : Sound was s) : SoundOut was (exec i s) := by
  cases i
  case powerOn => exact execPowerOn_sound hs
  case powerOff => exact execPowerOff_sound hs
  case referenceQualified => exact execReferenceQualified_sound hs
  case pllsLocked => exact execPllsLocked_sound hs
  case timebaseStart => exact execTimebaseStart_sound hs
  case hotResumeComplete => exact execHotResumeComplete_sound hs
  case referenceLost => exact execReferenceLost_sound hs
  case retentionMonitorExpiry => exact execRetentionMonitorExpiry_sound hs
  case referenceDriftFailed => exact execReferenceDriftFailed_sound hs
  case referenceSwitchCommand => exact execReferenceSwitchCommand_sound hs
  case clockGateWrite => exact execClockGateWrite_sound hs
  case clkmonSelect => exact execClkmonSelect_sound hs
  case timebaseSyncMessage => exact execTimebaseSyncMessage_sound hs
  case timebaseFreeRun => exact execTimebaseFreeRun_sound hs
  case tbTimeLoRead => exact execTbTimeLoRead_sound hs
  case tick => exact execTick_sound hs
  case tickEnable => exact execTickEnable_sound hs
  case tickPeriodWrite => exact execTickPeriodWrite_sound hs
  case watchdogExpiry => exact execWatchdogExpiry_sound hs
  case nop => exact execNop_sound hs
  case add => exact execAdd_sound hs
  case sub => exact execSub_sound hs
  case and => exact execAnd_sound hs
  case or => exact execOr_sound hs
  case xor => exact execXor_sound hs
  case min => exact execMin_sound hs
  case max => exact execMax_sound hs
  case absd => exact execAbsd_sound hs
  case shl => exact execShl_sound hs
  case shr => exact execShr_sound hs
  case asr => exact execAsr_sound hs
  case mov => exact execMov_sound hs
  case sel => exact execSel_sound hs
  case cmp => exact execCmp_sound hs
  case mul => exact execMul_sound hs
  case mac => exact execMac_sound hs
  case msu => exact execMsu_sound hs
  case clracc => exact execClracc_sound hs
  case cmac => exact execCmac_sound hs
  case cadd => exact execCadd_sound hs
  case cld => exact execCld_sound hs
  case tap => exact execTap_sound hs
  case illegalInstruction => exact execIllegalInstruction_sound hs
  case pourEnd => exact execPourEnd_sound hs
  case mouldScrubRead => exact execMouldScrubRead_sound hs
  case mouldWriteback => exact execMouldWriteback_sound hs
  case halt => exact execHalt_sound hs
  case haltRelease => exact execHaltRelease_sound hs
  case doorbell => exact execDoorbell_sound hs
  case preemptionEvent => exact execPreemptionEvent_sound hs
  case preemptionTaken => exact execPreemptionTaken_sound hs
  case urgentReturn => exact execUrgentReturn_sound hs
  case mouldWrite => exact execMouldWrite_sound hs
  case scheduleWrite => exact execScheduleWrite_sound hs
  case stagingWrite => exact execStagingWrite_sound hs
  case fenceArm => exact execFenceArm_sound hs
  case fenceCancel => exact execFenceCancel_sound hs
  case cellStoreAccess => exact execCellStoreAccess_sound hs
  case cellStoreAccessDone => exact execCellStoreAccessDone_sound hs
  case cellStateWrite => exact execCellStateWrite_sound hs
  case ingressBeat => exact execIngressBeat_sound hs
  case egressBeat => exact execEgressBeat_sound hs
  case portConfigWrite => exact execPortConfigWrite_sound hs
  case portCountRead => exact execPortCountRead_sound hs
  case wtPcntRead => exact execWtPcntRead_sound hs
  case queueWrite => exact execQueueWrite_sound hs
  case queueRead => exact execQueueRead_sound hs
  case queueFlush => exact execQueueFlush_sound hs
  case queueFlushRelease => exact execQueueFlushRelease_sound hs
  case queueConfigWrite => exact execQueueConfigWrite_sound hs
  case queueRegisterPop => exact execQueueRegisterPop_sound hs
  case queueRegisterPush => exact execQueueRegisterPush_sound hs
  case dmaRun => exact execDmaRun_sound hs
  case dmaTransfer => exact execDmaTransfer_sound hs
  case dmaPartialFlit => exact execDmaPartialFlit_sound hs
  case dmaResponse => exact execDmaResponse_sound hs
  case riserSpillWrite => exact execRiserSpillWrite_sound hs
  case riserRefillRead => exact execRiserRefillRead_sound hs
  case riserResponse => exact execRiserResponse_sound hs
  case publish => exact execPublish_sound hs
  case acknowledge => exact execAcknowledge_sound hs
  case heldPublishRelease => exact execHeldPublishRelease_sound hs
  case resultPolicyWrite => exact execResultPolicyWrite_sound hs
  case globalClockSwitch => exact execGlobalClockSwitch_sound hs
  case bramWrite => exact execBramWrite_sound hs
  case bramRead => exact execBramRead_sound hs
  case bramScrubStep => exact execBramScrubStep_sound hs
  case bramRawWrite => exact execBramRawWrite_sound hs
  case bramRawRead => exact execBramRawRead_sound hs
  case bramCheckedRead => exact execBramCheckedRead_sound hs
  case mac24Operation => exact execMac24Operation_sound hs
  case crossingReceive => exact execCrossingReceive_sound hs
  case probeRotation => exact execProbeRotation_sound hs
  case spareTestDone => exact execSpareTestDone_sound hs
  case transientParityFailure => exact execTransientParityFailure_sound hs
  case holdRequest => exact execHoldRequest_sound hs
  case probeSubstitute => exact execProbeSubstitute_sound hs
  case liveShift => exact execLiveShift_sound hs
  case crossingInject => exact execCrossingInject_sound hs
  case flitReceive => exact execFlitReceive_sound hs
  case flitReplay => exact execFlitReplay_sound hs
  case packetShift => exact execPacketShift_sound hs
  case routeDrainStart => exact execRouteDrainStart_sound hs
  case routeSwitch => exact execRouteSwitch_sound hs
  case wireCheckDone => exact execWireCheckDone_sound hs
  case loadPattern => exact execLoadPattern_sound hs
  case loadMaster => exact execLoadMaster_sound hs
  case hostStart => exact execHostStart_sound hs
  case abortLoad => exact execAbortLoad_sound hs
  case unload => exact execUnload_sound hs
  case loadFlaskFromMemory => exact execLoadFlaskFromMemory_sound hs
  case bar4Write => exact execBar4Write_sound hs
  case headerReceived => exact execHeaderReceived_sound hs
  case chunkReceived => exact execChunkReceived_sound hs
  case framesRecord => exact execFramesRecord_sound hs
  case tileDataRecord => exact execTileDataRecord_sound hs
  case registerSettingsRecord => exact execRegisterSettingsRecord_sound hs
  case crossingTableRecord => exact execCrossingTableRecord_sound hs
  case pinTableRecord => exact execPinTableRecord_sound hs
  case dieEndRecord => exact execDieEndRecord_sound hs
  case endOfChunkRecord => exact execEndOfChunkRecord_sound hs
  case loadClearDone => exact execLoadClearDone_sound hs
  case hostDeadlineExpiry => exact execHostDeadlineExpiry_sound hs
  case crossingTrainingDone => exact execCrossingTrainingDone_sound hs
  case startUpSequence => exact execStartUpSequence_sound hs
  case startupGsr => exact execStartupGsr_sound hs
  case startupIoen => exact execStartupIoen_sound hs
  case startupGwe => exact execStartupGwe_sound hs
  case startupDone => exact execStartupDone_sound hs
  case legacyStartupEvent => exact execLegacyStartupEvent_sound hs
  case perstNAssert => exact execPerstNAssert_sound hs
  case perstNRelease => exact execPerstNRelease_sound hs
  case capture => exact execCapture_sound hs
  case captureTaken => exact execCaptureTaken_sound hs
  case readCaptureFrame => exact execReadCaptureFrame_sound hs
  case readConfigurationFrame => exact execReadConfigurationFrame_sound hs
  case cancelCapture => exact execCancelCapture_sound hs
  case readbackLockRead => exact execReadbackLockRead_sound hs
  case readbackLockRelease => exact execReadbackLockRelease_sound hs
  case fettlerFrameCheck => exact execFettlerFrameCheck_sound hs
  case fettlerRequestPop => exact execFettlerRequestPop_sound hs
  case writeFrame => exact execWriteFrame_sound hs
  case writeFrameRebuildSignature => exact execWriteFrameRebuildSignature_sound hs
  case frameRewriteDone => exact execFrameRewriteDone_sound hs
  case readLegacyFrame => exact execReadLegacyFrame_sound hs
  case legacyCaptureTrigger => exact execLegacyCaptureTrigger_sound hs
  case legacyGlobalSetReset => exact execLegacyGlobalSetReset_sound hs
  case legacyPinClockLost => exact execLegacyPinClockLost_sound hs
  case legacyPllRelock => exact execLegacyPllRelock_sound hs
  case nocRequestInject => exact execNocRequestInject_sound hs
  case routerForward => exact execRouterForward_sound hs
  case targetRequest => exact execTargetRequest_sound hs
  case responseArrival => exact execResponseArrival_sound hs
  case masterTimeout => exact execMasterTimeout_sound hs
  case tagRelease => exact execTagRelease_sound hs
  case targetTimeout => exact execTargetTimeout_sound hs
  case histogramLevelSample => exact execHistogramLevelSample_sound hs
  case histogramClear => exact execHistogramClear_sound hs
  case traceClear => exact execTraceClear_sound hs
  case nocMstatRead => exact execNocMstatRead_sound hs
  case probeCountRead => exact execProbeCountRead_sound hs
  case xgcntRead => exact execXgcntRead_sound hs
  case dramRead => exact execDramRead_sound hs
  case dramWrite => exact execDramWrite_sound hs
  case correctionWriteback => exact execCorrectionWriteback_sound hs
  case patrolScrub => exact execPatrolScrub_sound hs
  case refresh => exact execRefresh_sound hs
  case pageTimeout => exact execPageTimeout_sound hs
  case powerDownEntry => exact execPowerDownEntry_sound hs
  case dramTemperatureRead => exact execDramTemperatureRead_sound hs
  case tracking => exact SoundOut.next hs
  case periodicRetrain => exact execPeriodicRetrain_sound hs
  case commandParityError => exact execCommandParityError_sound hs
  case softRepair => exact execSoftRepair_sound hs
  case hardRepair => exact execHardRepair_sound hs
  case repairComplete => exact execRepairComplete_sound hs
  case poisonBlock => exact execPoisonBlock_sound hs
  case clearBlock => exact execClearBlock_sound hs
  case regionEnable => exact execRegionEnable_sound hs
  case regionInitDone => exact execRegionInitDone_sound hs
  case regionDisable => exact execRegionDisable_sound hs
  case encryptedRead => exact execEncryptedRead_sound hs
  case encryptedWrite => exact execEncryptedWrite_sound hs
  case sectorEviction => exact execSectorEviction_sound hs
  case loadNewKey => exact execLoadNewKey_sound hs
  case loadCurrentKey => exact execLoadCurrentKey_sound hs
  case zeroKeyBuffer => exact execZeroKeyBuffer_sound hs
  case clearSector => exact execClearSector_sound hs
  case poisonSector => exact execPoisonSector_sound hs
  case rebuildLostNode => exact execRebuildLostNode_sound hs
  case rekey => exact execRekey_sound hs
  case rekeyWalkStep => exact execRekeyWalkStep_sound hs
  case rotationComplete => exact execRotationComplete_sound hs
  case bucketLeak => exact execBucketLeak_sound hs
  case rawWrite => exact execRawWrite_sound hs
  case rawRead => exact execRawRead_sound hs
  case checkedRead => exact execCheckedRead_sound hs
  case parityInject => exact execParityInject_sound hs
  case logEntryAccept => exact execLogEntryAccept_sound hs
  case logReadCopy => exact execLogReadCopy_sound hs
  case logPersist => exact execLogPersist_sound hs
  case laneEnable => exact execLaneEnable_sound hs
  case lanePinCheckDone => exact execLanePinCheckDone_sound hs
  case rxLock => exact execRxLock_sound hs
  case lockLossTimeout => exact execLockLossTimeout_sound hs
  case fallBackRequest => exact execFallBackRequest_sound hs
  case fallBackDetect => exact execFallBackDetect_sound hs
  case fallBackEnd => exact execFallBackEnd_sound hs
  case adaptationEpoch => exact execAdaptationEpoch_sound hs
  case fecCodewordReceive => exact execFecCodewordReceive_sound hs
  case laneWordRelease => exact execLaneWordRelease_sound hs
  case loopbackSelect => exact execLoopbackSelect_sound hs
  case laneSettingWrite => exact execLaneSettingWrite_sound hs
  case fecCountRead => exact execFecCountRead_sound hs
  case cecntRead => exact execCecntRead_sound hs
  case tlpRead => exact execTlpRead_sound hs
  case tlpWrite => exact execTlpWrite_sound hs
  case translationEnable => exact execTranslationEnable_sound hs
  case governorWindowEnd => exact execGovernorWindowEnd_sound hs
  case sequencerRaiseStart => exact execSequencerRaiseStart_sound hs
  case sequencerFrequencySwitch => exact execSequencerFrequencySwitch_sound hs
  case sequencerStepComplete => exact execSequencerStepComplete_sound hs
  case capWrite => exact execCapWrite_sound hs
  case sleepRequest => exact execSleepRequest_sound hs
  case deepSleepRequest => exact execDeepSleepRequest_sound hs
  case runRequest => exact execRunRequest_sound hs
  case tagDrainComplete => exact execTagDrainComplete_sound hs
  case smbusReadTemperature => exact execSmbusReadTemperature_sound hs
  case smbusReadPower => exact execSmbusReadPower_sound hs
  case smbusReadStatus => exact execSmbusReadStatus_sound hs
  case smbusWake => exact execSmbusWake_sound hs
  case smbusFirmwareCommand => exact execSmbusFirmwareCommand_sound hs
  case sensorSample => exact execSensorSample_sound hs
  case tripRelease => exact execTripRelease_sound hs
  case ageingMeasurement => exact execAgeingMeasurement_sound hs
  case mcRestart => exact execMcRestart_sound hs
  case lockRead => exact execLockRead_sound hs
  case lockRelease => exact execLockRelease_sound hs
  case go => exact execGo_sound hs
  case take => exact execTake_sound hs
  case done => exact execDone_sound hs
  case withdraw => exact execWithdraw_sound hs
  case mailboxTimeout => exact execMailboxTimeout_sound hs
  case force => exact execForce_sound hs
  case logService => exact execLogService_sound hs
  case attestation => exact execAttestation_sound hs
  case certificateChain => exact execCertificateChain_sound hs
  case deviceNonce => exact execDeviceNonce_sound hs
  case programOwnerKey => exact execProgramOwnerKey_sound hs
  case revokeOwnerKey => exact execRevokeOwnerKey_sound hs
  case blowHlDis => exact execBlowHlDis_sound hs
  case revokeImageKey => exact execRevokeImageKey_sound hs
  case revokeLegacyKey => exact execRevokeLegacyKey_sound hs
  case keyWrite => exact execKeyWrite_sound hs
  case checkAndStage => exact execCheckAndStage_sound hs
  case stagingComplete => exact execStagingComplete_sound hs
  case activate => exact execActivate_sound hs
  case confirm => exact execConfirm_sound hs
  case discardStagedSet => exact execDiscardStagedSet_sound hs
  case trialTimerExpiry => exact execTrialTimerExpiry_sound hs
  case coreReset => exact execCoreReset_sound hs
  case coreBoot => exact execCoreBoot_sound hs
  case secDrop => exact execSecDrop_sound hs
  case watchdogKick => exact execWatchdogKick_sound hs
  case clean => exact execClean_sound hs
  case invalidate => exact execInvalidate_sound hs
  case cleanAndInvalidate => exact execCleanAndInvalidate_sound hs
  case coreIoAccess => exact execCoreIoAccess_sound hs
  case triggerHit => exact execTriggerHit_sound hs
  case tapReset => exact execTapReset_sound hs
  case idcode => exact execIdcode_sound hs
  case samplePreload => exact execSamplePreload_sound hs
  case extest => exact execExtest_sound hs
  case extestPulse => exact execExtestPulse_sound hs
  case extestTrain => exact execExtestTrain_sound hs
  case clamp => exact execClamp_sound hs
  case highz => exact execHighz_sound hs
  case dtmcs => exact execDtmcs_sound hs
  case dmi => exact execDmi_sound hs
  case bypass => exact execBypass_sound hs
  case debugHalt => exact execDebugHalt_sound hs
  case debugResume => exact execDebugResume_sound hs
  case abstractRegisterAccess => exact execAbstractRegisterAccess_sound hs
  case abstractMemoryAccess => exact execAbstractMemoryAccess_sound hs
  case systemBusAccess => exact execSystemBusAccess_sound hs
  case unlock => exact execUnlock_sound hs
  case unlockCheckDone => exact execUnlockCheckDone_sound hs
  case relock => exact execRelock_sound hs
  case bankVccoChange => exact execBankVccoChange_sound hs
  case pinFault => exact execPinFault_sound hs
  case registerWrite => exact execRegisterWrite_sound hs
  case lossOfLock => exact execLossOfLock_sound hs
  case hostLinkStateChange => exact execHostLinkStateChange_sound hs
  case trainingComplete => exact execTrainingComplete_sound hs
  case flipFlopClockEdge => exact execFlipFlopClockEdge_sound hs
  case asynchronousSetReset => exact execAsynchronousSetReset_sound hs

end Sys2Proof.Machine
end

