-- ==== Sys2Proof/Laws/State.lean ====
section
/-!
SUPPORT. Sys2Proof/Laws/State.lean: the small lemmas of State. First what a read returns after a write of the same or of another
register, field or unit; then, for each update, that every other field of the state is as it was.
-/

namespace Sys2Proof.Machine

variable (s : State)

/-! ## Registers and their fields -/

@[simp] theorem State.reg_setReg_same (n : RegName) (i : List Nat) (v : Word32) : (s.setReg n i v).reg n i = v :=
  SMap.get_set_same _ _ _ _

theorem State.reg_setReg_ne {n m : RegName} {i j : List Nat} (v : Word32) (h : regAddr m j ≠ regAddr n i) :
    (s.setReg n i v).reg m j = s.reg m j := by
  have e : ∀ d : Word32, SMap.find? (SMap.set d s.regs (regAddr n i) v) (regAddr m j) = SMap.find? s.regs (regAddr m j) := by
    intro d
    unfold SMap.set
    split
    · exact SMap.find?_erase_ne _ h
    · exact SMap.find?_insert_ne _ _ h
  simp [State.reg, State.setReg, SMap.get, e]

@[simp] theorem State.reg_put_same (f : Fld) (i : List Nat) (v : Nat) : (s.put f i v).reg f.reg i = f.put (s.reg f.reg i) v :=
  State.reg_setReg_same s _ _ _

theorem State.reg_put_ne {f : Fld} {m : RegName} {i j : List Nat} (v : Nat) (h : regAddr m j ≠ regAddr f.reg i) :
    (s.put f i v).reg m j = s.reg m j := State.reg_setReg_ne s _ h

theorem State.get_put_ne {f g : Fld} {i j : List Nat} (v : Nat) (h : regAddr g.reg j ≠ regAddr f.reg i) :
    (s.put f i v).get g j = s.get g j := by
  rw [State.get, State.get, State.reg_put_ne s v h]

/-- A field inside its word reads as what was put into it, cut to its width. -/
theorem Fld.of_put (f : Fld) (w : Word32) (v : Nat) (h : f.hi < 32) (l : f.lo ≤ f.hi) : f.of (f.put w v) = v % 2 ^ f.width := by
  simp only [Fld.of, Fld.put, wordField, setWordField, bitsOf, Fld.width]
  apply Nat.eq_of_testBit_eq
  intro i
  by_cases hi : i < f.hi + 1 - f.lo
  · have hb : f.lo + i < 32 := by omega
    have t : ∀ n : Nat, (n <<< f.lo).testBit (f.lo + i) = n.testBit i := by simp [Nat.testBit_shiftLeft]
    have o : ∀ n : Nat, (BitVec.ofNat 32 (n <<< f.lo)).getLsbD (f.lo + i) = n.testBit i := by
      intro n
      rw [BitVec.getLsbD_ofNat, t]
      simp [hb]
    have m : (fieldMask f.hi f.lo).getLsbD (f.lo + i) = true := by
      rw [fieldMask, o, Nat.testBit_two_pow_sub_one]
      simpa using hi
    rw [Nat.testBit_mod_two_pow, Nat.testBit_shiftRight, BitVec.testBit_toNat, BitVec.getLsbD_or, BitVec.getLsbD_and, BitVec.getLsbD_and,
      BitVec.getLsbD_not, m, o, Nat.testBit_mod_two_pow]
    simp [hi]
  · simp [Nat.testBit_mod_two_pow, hi]

theorem State.get_put_same (f : Fld) (i : List Nat) (v : Nat) (h : f.hi < 32) (l : f.lo ≤ f.hi) :
    (s.put f i v).get f i = v % 2 ^ f.width := by
  rw [State.get, State.reg_put_same, Fld.of_put f _ v h l]

/-! ## Units -/

@[simp] theorem State.die_setDie (d : Nat) (x : WaDie) : (s.setDie d x).die d = x := SMap.get_set_same _ _ _ _
@[simp] theorem State.queue_setQueue (d q : Nat) (x : QueueSt) : (s.setQueue d q x).queue d q = x := SMap.get_set_same _ _ _ _
@[simp] theorem State.dmaCh_setDma (d q : Nat) (x : DmaSt) : (s.setDma d q x).dmaCh d q = x := SMap.get_set_same _ _ _ _
@[simp] theorem State.riser_setRiser (d k : Nat) (x : RiserSt) : (s.setRiser d k x).riser d k = x := SMap.get_set_same _ _ _ _
@[simp] theorem State.xgroup_setXg (g k : Nat) (x : XGroup) : (s.setXg g k x).xgroup g k = x := SMap.get_set_same _ _ _ _
@[simp] theorem State.link_setLink (l : Nat) (x : LinkSt) : (s.setLink l x).link l = x := SMap.get_set_same _ _ _ _
@[simp] theorem State.eng_setEng (e : Nat) (x : EncEngine) : (s.setEng e x).eng e = x := SMap.get_set_same _ _ _ _
@[simp] theorem State.encRgn_setEncRgn (r : Nat) (x : EncRegion) : (s.setEncRgn r x).encRgn r = x := SMap.get_set_same _ _ _ _
@[simp] theorem State.stage_setStage (l : Nat) (x : LaneStage) : (s.setStage l x).stage l = x := SMap.get_set_same _ _ _ _
@[simp] theorem State.mbxOf_setMbx (c : Nat) (x : MbxSt) : (s.setMbx c x).mbxOf c = x := SMap.get_set_same _ _ _ _
@[simp] theorem State.offset_setOffset (c : Nat) (x : Int) : (s.setOffset c x).offset c = x := SMap.get_set_same _ _ _ _
@[simp] theorem State.coreOf_setCore (i : Nat) (x : CoreSt) : (s.setCore i x).coreOf i = x := SMap.get_set_same _ _ _ _
@[simp] theorem State.hreg_setHreg (h n : Nat) (x : BitVec 64) : (s.setHreg h n x).hreg h n = x := SMap.get_set_same _ _ _ _
@[simp] theorem State.dmReg_setDm (a : Nat) (x : Word32) : (s.setDm a x).dmReg a = x := SMap.get_set_same _ _ _ _
@[simp] theorem State.arbiter_setArbiter (r k : Nat) (x : ArbSt) : (s.setArbiter r k x).arbiter r k = x := SMap.get_set_same _ _ _ _
@[simp] theorem State.waitingAt_setWaiting (r k : Nat) (x : List WaitFlit) : (s.setWaiting r k x).waitingAt r k = x := SMap.get_set_same _ _ _ _
@[simp] theorem State.slot_setSlot (i : Nat) (x : Slot) : (s.setSlot i x).slot i = x := SMap.get_set_same _ _ _ _
@[simp] theorem State.tag_setTag (m t : Nat) (x : TagSt) : (s.setTag m t x).tag m t = some x := SMap.find?_insert_same _ _ _
@[simp] theorem State.tag_freeTag (m t : Nat) : (s.freeTag m t).tag m t = none := SMap.find?_erase_same _ _
@[simp] theorem WaDie.tile_setTile (w : WaDie) (t : Nat) (x : TileSt) : (w.setTile t x).tile t = x := SMap.get_set_same _ _ _ _
@[simp] theorem State.tile_setTile (d t : Nat) (x : TileSt) : (s.setTile d t x).tile d t = x := by
  simp [State.tile, State.setTile]

theorem State.die_setDie_ne {d e : Nat} (w : WaDie) (h : e ≠ d) : (s.setDie d w).die e = s.die e := SMap.get_set_ne _ _ _ h
theorem State.die_setTile_ne {d e t : Nat} (x : TileSt) (h : e ≠ d) : (s.setTile d t x).die e = s.die e := SMap.get_set_ne _ _ _ h

/-! ## setReg -/

@[simp] theorem State.setReg_clk (n : RegName) (i : List Nat) (v : Word32) : (s.setReg n i v).clk = s.clk := rfl
@[simp] theorem State.setReg_pins (n : RegName) (i : List Nat) (v : Word32) : (s.setReg n i v).pins = s.pins := rfl
@[simp] theorem State.setReg_tb (n : RegName) (i : List Nat) (v : Word32) : (s.setReg n i v).tb = s.tb := rfl
@[simp] theorem State.setReg_wa (n : RegName) (i : List Nat) (v : Word32) : (s.setReg n i v).wa = s.wa := rfl
@[simp] theorem State.setReg_queues (n : RegName) (i : List Nat) (v : Word32) : (s.setReg n i v).queues = s.queues := rfl
@[simp] theorem State.setReg_dma (n : RegName) (i : List Nat) (v : Word32) : (s.setReg n i v).dma = s.dma := rfl
@[simp] theorem State.setReg_risers (n : RegName) (i : List Nat) (v : Word32) : (s.setReg n i v).risers = s.risers := rfl
@[simp] theorem State.setReg_riserLast (n : RegName) (i : List Nat) (v : Word32) : (s.setReg n i v).riserLast = s.riserLast := rfl
@[simp] theorem State.setReg_slots (n : RegName) (i : List Nat) (v : Word32) : (s.setReg n i v).slots = s.slots := rfl
@[simp] theorem State.setReg_heldPubs (n : RegName) (i : List Nat) (v : Word32) : (s.setReg n i v).heldPubs = s.heldPubs := rfl
@[simp] theorem State.setReg_dram (n : RegName) (i : List Nat) (v : Word32) : (s.setReg n i v).dram = s.dram := rfl
@[simp] theorem State.setReg_noc (n : RegName) (i : List Nat) (v : Word32) : (s.setReg n i v).noc = s.noc := rfl
@[simp] theorem State.setReg_xg (n : RegName) (i : List Nat) (v : Word32) : (s.setReg n i v).xg = s.xg := rfl
@[simp] theorem State.setReg_links (n : RegName) (i : List Nat) (v : Word32) : (s.setReg n i v).links = s.links := rfl
@[simp] theorem State.setReg_lanes (n : RegName) (i : List Nat) (v : Word32) : (s.setReg n i v).lanes = s.lanes := rfl
@[simp] theorem State.setReg_encR (n : RegName) (i : List Nat) (v : Word32) : (s.setReg n i v).encR = s.encR := rfl
@[simp] theorem State.setReg_encE (n : RegName) (i : List Nat) (v : Word32) : (s.setReg n i v).encE = s.encE := rfl
@[simp] theorem State.setReg_log (n : RegName) (i : List Nat) (v : Word32) : (s.setReg n i v).log = s.log := rfl
@[simp] theorem State.setReg_fab (n : RegName) (i : List Nat) (v : Word32) : (s.setReg n i v).fab = s.fab := rfl
@[simp] theorem State.setReg_load (n : RegName) (i : List Nat) (v : Word32) : (s.setReg n i v).load = s.load := rfl
@[simp] theorem State.setReg_otp (n : RegName) (i : List Nat) (v : Word32) : (s.setReg n i v).otp = s.otp := rfl
@[simp] theorem State.setReg_pwr (n : RegName) (i : List Nat) (v : Word32) : (s.setReg n i v).pwr = s.pwr := rfl
@[simp] theorem State.setReg_mbx (n : RegName) (i : List Nat) (v : Word32) : (s.setReg n i v).mbx = s.mbx := rfl
@[simp] theorem State.setReg_upd (n : RegName) (i : List Nat) (v : Word32) : (s.setReg n i v).upd = s.upd := rfl
@[simp] theorem State.setReg_cores (n : RegName) (i : List Nat) (v : Word32) : (s.setReg n i v).cores = s.cores := rfl
@[simp] theorem State.setReg_l2 (n : RegName) (i : List Nat) (v : Word32) : (s.setReg n i v).l2 = s.l2 := rfl
@[simp] theorem State.setReg_dbg (n : RegName) (i : List Nat) (v : Word32) : (s.setReg n i v).dbg = s.dbg := rfl
@[simp] theorem State.setReg_plic (n : RegName) (i : List Nat) (v : Word32) : (s.setReg n i v).plic = s.plic := rfl
@[simp] theorem State.setReg_plicBusy (n : RegName) (i : List Nat) (v : Word32) : (s.setReg n i v).plicBusy = s.plicBusy := rfl
@[simp] theorem State.setReg_deferred (n : RegName) (i : List Nat) (v : Word32) : (s.setReg n i v).deferred = s.deferred := rfl
@[simp] theorem State.setReg_free (n : RegName) (i : List Nat) (v : Word32) : (s.setReg n i v).free = s.free := rfl
@[simp] theorem State.setReg_outbox (n : RegName) (i : List Nat) (v : Word32) : (s.setReg n i v).outbox = s.outbox := rfl
@[simp] theorem State.setReg_pending (n : RegName) (i : List Nat) (v : Word32) : (s.setReg n i v).pending = s.pending := rfl

/-! ## writeReg -/

@[simp] theorem State.writeReg_clk (n : RegName) (i : List Nat) (v : Word32) : (s.writeReg n i v).clk = s.clk := rfl
@[simp] theorem State.writeReg_pins (n : RegName) (i : List Nat) (v : Word32) : (s.writeReg n i v).pins = s.pins := rfl
@[simp] theorem State.writeReg_tb (n : RegName) (i : List Nat) (v : Word32) : (s.writeReg n i v).tb = s.tb := rfl
@[simp] theorem State.writeReg_wa (n : RegName) (i : List Nat) (v : Word32) : (s.writeReg n i v).wa = s.wa := rfl
@[simp] theorem State.writeReg_queues (n : RegName) (i : List Nat) (v : Word32) : (s.writeReg n i v).queues = s.queues := rfl
@[simp] theorem State.writeReg_dma (n : RegName) (i : List Nat) (v : Word32) : (s.writeReg n i v).dma = s.dma := rfl
@[simp] theorem State.writeReg_risers (n : RegName) (i : List Nat) (v : Word32) : (s.writeReg n i v).risers = s.risers := rfl
@[simp] theorem State.writeReg_riserLast (n : RegName) (i : List Nat) (v : Word32) : (s.writeReg n i v).riserLast = s.riserLast := rfl
@[simp] theorem State.writeReg_slots (n : RegName) (i : List Nat) (v : Word32) : (s.writeReg n i v).slots = s.slots := rfl
@[simp] theorem State.writeReg_heldPubs (n : RegName) (i : List Nat) (v : Word32) : (s.writeReg n i v).heldPubs = s.heldPubs := rfl
@[simp] theorem State.writeReg_dram (n : RegName) (i : List Nat) (v : Word32) : (s.writeReg n i v).dram = s.dram := rfl
@[simp] theorem State.writeReg_noc (n : RegName) (i : List Nat) (v : Word32) : (s.writeReg n i v).noc = s.noc := rfl
@[simp] theorem State.writeReg_xg (n : RegName) (i : List Nat) (v : Word32) : (s.writeReg n i v).xg = s.xg := rfl
@[simp] theorem State.writeReg_links (n : RegName) (i : List Nat) (v : Word32) : (s.writeReg n i v).links = s.links := rfl
@[simp] theorem State.writeReg_lanes (n : RegName) (i : List Nat) (v : Word32) : (s.writeReg n i v).lanes = s.lanes := rfl
@[simp] theorem State.writeReg_encR (n : RegName) (i : List Nat) (v : Word32) : (s.writeReg n i v).encR = s.encR := rfl
@[simp] theorem State.writeReg_encE (n : RegName) (i : List Nat) (v : Word32) : (s.writeReg n i v).encE = s.encE := rfl
@[simp] theorem State.writeReg_log (n : RegName) (i : List Nat) (v : Word32) : (s.writeReg n i v).log = s.log := rfl
@[simp] theorem State.writeReg_fab (n : RegName) (i : List Nat) (v : Word32) : (s.writeReg n i v).fab = s.fab := rfl
@[simp] theorem State.writeReg_load (n : RegName) (i : List Nat) (v : Word32) : (s.writeReg n i v).load = s.load := rfl
@[simp] theorem State.writeReg_otp (n : RegName) (i : List Nat) (v : Word32) : (s.writeReg n i v).otp = s.otp := rfl
@[simp] theorem State.writeReg_pwr (n : RegName) (i : List Nat) (v : Word32) : (s.writeReg n i v).pwr = s.pwr := rfl
@[simp] theorem State.writeReg_mbx (n : RegName) (i : List Nat) (v : Word32) : (s.writeReg n i v).mbx = s.mbx := rfl
@[simp] theorem State.writeReg_upd (n : RegName) (i : List Nat) (v : Word32) : (s.writeReg n i v).upd = s.upd := rfl
@[simp] theorem State.writeReg_cores (n : RegName) (i : List Nat) (v : Word32) : (s.writeReg n i v).cores = s.cores := rfl
@[simp] theorem State.writeReg_l2 (n : RegName) (i : List Nat) (v : Word32) : (s.writeReg n i v).l2 = s.l2 := rfl
@[simp] theorem State.writeReg_dbg (n : RegName) (i : List Nat) (v : Word32) : (s.writeReg n i v).dbg = s.dbg := rfl
@[simp] theorem State.writeReg_plic (n : RegName) (i : List Nat) (v : Word32) : (s.writeReg n i v).plic = s.plic := rfl
@[simp] theorem State.writeReg_plicBusy (n : RegName) (i : List Nat) (v : Word32) : (s.writeReg n i v).plicBusy = s.plicBusy := rfl
@[simp] theorem State.writeReg_deferred (n : RegName) (i : List Nat) (v : Word32) : (s.writeReg n i v).deferred = s.deferred := rfl
@[simp] theorem State.writeReg_free (n : RegName) (i : List Nat) (v : Word32) : (s.writeReg n i v).free = s.free := rfl
@[simp] theorem State.writeReg_outbox (n : RegName) (i : List Nat) (v : Word32) : (s.writeReg n i v).outbox = s.outbox := rfl
@[simp] theorem State.writeReg_pending (n : RegName) (i : List Nat) (v : Word32) : (s.writeReg n i v).pending = s.pending := rfl

/-! ## put -/

@[simp] theorem State.put_clk (f : Fld) (i : List Nat) (v : Nat) : (s.put f i v).clk = s.clk := rfl
@[simp] theorem State.put_pins (f : Fld) (i : List Nat) (v : Nat) : (s.put f i v).pins = s.pins := rfl
@[simp] theorem State.put_tb (f : Fld) (i : List Nat) (v : Nat) : (s.put f i v).tb = s.tb := rfl
@[simp] theorem State.put_wa (f : Fld) (i : List Nat) (v : Nat) : (s.put f i v).wa = s.wa := rfl
@[simp] theorem State.put_queues (f : Fld) (i : List Nat) (v : Nat) : (s.put f i v).queues = s.queues := rfl
@[simp] theorem State.put_dma (f : Fld) (i : List Nat) (v : Nat) : (s.put f i v).dma = s.dma := rfl
@[simp] theorem State.put_risers (f : Fld) (i : List Nat) (v : Nat) : (s.put f i v).risers = s.risers := rfl
@[simp] theorem State.put_riserLast (f : Fld) (i : List Nat) (v : Nat) : (s.put f i v).riserLast = s.riserLast := rfl
@[simp] theorem State.put_slots (f : Fld) (i : List Nat) (v : Nat) : (s.put f i v).slots = s.slots := rfl
@[simp] theorem State.put_heldPubs (f : Fld) (i : List Nat) (v : Nat) : (s.put f i v).heldPubs = s.heldPubs := rfl
@[simp] theorem State.put_dram (f : Fld) (i : List Nat) (v : Nat) : (s.put f i v).dram = s.dram := rfl
@[simp] theorem State.put_noc (f : Fld) (i : List Nat) (v : Nat) : (s.put f i v).noc = s.noc := rfl
@[simp] theorem State.put_xg (f : Fld) (i : List Nat) (v : Nat) : (s.put f i v).xg = s.xg := rfl
@[simp] theorem State.put_links (f : Fld) (i : List Nat) (v : Nat) : (s.put f i v).links = s.links := rfl
@[simp] theorem State.put_lanes (f : Fld) (i : List Nat) (v : Nat) : (s.put f i v).lanes = s.lanes := rfl
@[simp] theorem State.put_encR (f : Fld) (i : List Nat) (v : Nat) : (s.put f i v).encR = s.encR := rfl
@[simp] theorem State.put_encE (f : Fld) (i : List Nat) (v : Nat) : (s.put f i v).encE = s.encE := rfl
@[simp] theorem State.put_log (f : Fld) (i : List Nat) (v : Nat) : (s.put f i v).log = s.log := rfl
@[simp] theorem State.put_fab (f : Fld) (i : List Nat) (v : Nat) : (s.put f i v).fab = s.fab := rfl
@[simp] theorem State.put_load (f : Fld) (i : List Nat) (v : Nat) : (s.put f i v).load = s.load := rfl
@[simp] theorem State.put_otp (f : Fld) (i : List Nat) (v : Nat) : (s.put f i v).otp = s.otp := rfl
@[simp] theorem State.put_pwr (f : Fld) (i : List Nat) (v : Nat) : (s.put f i v).pwr = s.pwr := rfl
@[simp] theorem State.put_mbx (f : Fld) (i : List Nat) (v : Nat) : (s.put f i v).mbx = s.mbx := rfl
@[simp] theorem State.put_upd (f : Fld) (i : List Nat) (v : Nat) : (s.put f i v).upd = s.upd := rfl
@[simp] theorem State.put_cores (f : Fld) (i : List Nat) (v : Nat) : (s.put f i v).cores = s.cores := rfl
@[simp] theorem State.put_l2 (f : Fld) (i : List Nat) (v : Nat) : (s.put f i v).l2 = s.l2 := rfl
@[simp] theorem State.put_dbg (f : Fld) (i : List Nat) (v : Nat) : (s.put f i v).dbg = s.dbg := rfl
@[simp] theorem State.put_plic (f : Fld) (i : List Nat) (v : Nat) : (s.put f i v).plic = s.plic := rfl
@[simp] theorem State.put_plicBusy (f : Fld) (i : List Nat) (v : Nat) : (s.put f i v).plicBusy = s.plicBusy := rfl
@[simp] theorem State.put_deferred (f : Fld) (i : List Nat) (v : Nat) : (s.put f i v).deferred = s.deferred := rfl
@[simp] theorem State.put_free (f : Fld) (i : List Nat) (v : Nat) : (s.put f i v).free = s.free := rfl
@[simp] theorem State.put_outbox (f : Fld) (i : List Nat) (v : Nat) : (s.put f i v).outbox = s.outbox := rfl
@[simp] theorem State.put_pending (f : Fld) (i : List Nat) (v : Nat) : (s.put f i v).pending = s.pending := rfl

/-! ## raise -/

@[simp] theorem State.raise_clk (f : Fld) (i : List Nat) : (s.raise f i).clk = s.clk := rfl
@[simp] theorem State.raise_pins (f : Fld) (i : List Nat) : (s.raise f i).pins = s.pins := rfl
@[simp] theorem State.raise_tb (f : Fld) (i : List Nat) : (s.raise f i).tb = s.tb := rfl
@[simp] theorem State.raise_wa (f : Fld) (i : List Nat) : (s.raise f i).wa = s.wa := rfl
@[simp] theorem State.raise_queues (f : Fld) (i : List Nat) : (s.raise f i).queues = s.queues := rfl
@[simp] theorem State.raise_dma (f : Fld) (i : List Nat) : (s.raise f i).dma = s.dma := rfl
@[simp] theorem State.raise_risers (f : Fld) (i : List Nat) : (s.raise f i).risers = s.risers := rfl
@[simp] theorem State.raise_riserLast (f : Fld) (i : List Nat) : (s.raise f i).riserLast = s.riserLast := rfl
@[simp] theorem State.raise_slots (f : Fld) (i : List Nat) : (s.raise f i).slots = s.slots := rfl
@[simp] theorem State.raise_heldPubs (f : Fld) (i : List Nat) : (s.raise f i).heldPubs = s.heldPubs := rfl
@[simp] theorem State.raise_dram (f : Fld) (i : List Nat) : (s.raise f i).dram = s.dram := rfl
@[simp] theorem State.raise_noc (f : Fld) (i : List Nat) : (s.raise f i).noc = s.noc := rfl
@[simp] theorem State.raise_xg (f : Fld) (i : List Nat) : (s.raise f i).xg = s.xg := rfl
@[simp] theorem State.raise_links (f : Fld) (i : List Nat) : (s.raise f i).links = s.links := rfl
@[simp] theorem State.raise_lanes (f : Fld) (i : List Nat) : (s.raise f i).lanes = s.lanes := rfl
@[simp] theorem State.raise_encR (f : Fld) (i : List Nat) : (s.raise f i).encR = s.encR := rfl
@[simp] theorem State.raise_encE (f : Fld) (i : List Nat) : (s.raise f i).encE = s.encE := rfl
@[simp] theorem State.raise_log (f : Fld) (i : List Nat) : (s.raise f i).log = s.log := rfl
@[simp] theorem State.raise_fab (f : Fld) (i : List Nat) : (s.raise f i).fab = s.fab := rfl
@[simp] theorem State.raise_load (f : Fld) (i : List Nat) : (s.raise f i).load = s.load := rfl
@[simp] theorem State.raise_otp (f : Fld) (i : List Nat) : (s.raise f i).otp = s.otp := rfl
@[simp] theorem State.raise_pwr (f : Fld) (i : List Nat) : (s.raise f i).pwr = s.pwr := rfl
@[simp] theorem State.raise_mbx (f : Fld) (i : List Nat) : (s.raise f i).mbx = s.mbx := rfl
@[simp] theorem State.raise_upd (f : Fld) (i : List Nat) : (s.raise f i).upd = s.upd := rfl
@[simp] theorem State.raise_cores (f : Fld) (i : List Nat) : (s.raise f i).cores = s.cores := rfl
@[simp] theorem State.raise_l2 (f : Fld) (i : List Nat) : (s.raise f i).l2 = s.l2 := rfl
@[simp] theorem State.raise_dbg (f : Fld) (i : List Nat) : (s.raise f i).dbg = s.dbg := rfl
@[simp] theorem State.raise_plic (f : Fld) (i : List Nat) : (s.raise f i).plic = s.plic := rfl
@[simp] theorem State.raise_plicBusy (f : Fld) (i : List Nat) : (s.raise f i).plicBusy = s.plicBusy := rfl
@[simp] theorem State.raise_deferred (f : Fld) (i : List Nat) : (s.raise f i).deferred = s.deferred := rfl
@[simp] theorem State.raise_free (f : Fld) (i : List Nat) : (s.raise f i).free = s.free := rfl
@[simp] theorem State.raise_outbox (f : Fld) (i : List Nat) : (s.raise f i).outbox = s.outbox := rfl
@[simp] theorem State.raise_pending (f : Fld) (i : List Nat) : (s.raise f i).pending = s.pending := rfl

/-! ## countUp -/

@[simp] theorem State.countUp_clk (f : Fld) (i : List Nat) : (s.countUp f i).clk = s.clk := rfl
@[simp] theorem State.countUp_pins (f : Fld) (i : List Nat) : (s.countUp f i).pins = s.pins := rfl
@[simp] theorem State.countUp_tb (f : Fld) (i : List Nat) : (s.countUp f i).tb = s.tb := rfl
@[simp] theorem State.countUp_wa (f : Fld) (i : List Nat) : (s.countUp f i).wa = s.wa := rfl
@[simp] theorem State.countUp_queues (f : Fld) (i : List Nat) : (s.countUp f i).queues = s.queues := rfl
@[simp] theorem State.countUp_dma (f : Fld) (i : List Nat) : (s.countUp f i).dma = s.dma := rfl
@[simp] theorem State.countUp_risers (f : Fld) (i : List Nat) : (s.countUp f i).risers = s.risers := rfl
@[simp] theorem State.countUp_riserLast (f : Fld) (i : List Nat) : (s.countUp f i).riserLast = s.riserLast := rfl
@[simp] theorem State.countUp_slots (f : Fld) (i : List Nat) : (s.countUp f i).slots = s.slots := rfl
@[simp] theorem State.countUp_heldPubs (f : Fld) (i : List Nat) : (s.countUp f i).heldPubs = s.heldPubs := rfl
@[simp] theorem State.countUp_dram (f : Fld) (i : List Nat) : (s.countUp f i).dram = s.dram := rfl
@[simp] theorem State.countUp_noc (f : Fld) (i : List Nat) : (s.countUp f i).noc = s.noc := rfl
@[simp] theorem State.countUp_xg (f : Fld) (i : List Nat) : (s.countUp f i).xg = s.xg := rfl
@[simp] theorem State.countUp_links (f : Fld) (i : List Nat) : (s.countUp f i).links = s.links := rfl
@[simp] theorem State.countUp_lanes (f : Fld) (i : List Nat) : (s.countUp f i).lanes = s.lanes := rfl
@[simp] theorem State.countUp_encR (f : Fld) (i : List Nat) : (s.countUp f i).encR = s.encR := rfl
@[simp] theorem State.countUp_encE (f : Fld) (i : List Nat) : (s.countUp f i).encE = s.encE := rfl
@[simp] theorem State.countUp_log (f : Fld) (i : List Nat) : (s.countUp f i).log = s.log := rfl
@[simp] theorem State.countUp_fab (f : Fld) (i : List Nat) : (s.countUp f i).fab = s.fab := rfl
@[simp] theorem State.countUp_load (f : Fld) (i : List Nat) : (s.countUp f i).load = s.load := rfl
@[simp] theorem State.countUp_otp (f : Fld) (i : List Nat) : (s.countUp f i).otp = s.otp := rfl
@[simp] theorem State.countUp_pwr (f : Fld) (i : List Nat) : (s.countUp f i).pwr = s.pwr := rfl
@[simp] theorem State.countUp_mbx (f : Fld) (i : List Nat) : (s.countUp f i).mbx = s.mbx := rfl
@[simp] theorem State.countUp_upd (f : Fld) (i : List Nat) : (s.countUp f i).upd = s.upd := rfl
@[simp] theorem State.countUp_cores (f : Fld) (i : List Nat) : (s.countUp f i).cores = s.cores := rfl
@[simp] theorem State.countUp_l2 (f : Fld) (i : List Nat) : (s.countUp f i).l2 = s.l2 := rfl
@[simp] theorem State.countUp_dbg (f : Fld) (i : List Nat) : (s.countUp f i).dbg = s.dbg := rfl
@[simp] theorem State.countUp_plic (f : Fld) (i : List Nat) : (s.countUp f i).plic = s.plic := rfl
@[simp] theorem State.countUp_plicBusy (f : Fld) (i : List Nat) : (s.countUp f i).plicBusy = s.plicBusy := rfl
@[simp] theorem State.countUp_deferred (f : Fld) (i : List Nat) : (s.countUp f i).deferred = s.deferred := rfl
@[simp] theorem State.countUp_free (f : Fld) (i : List Nat) : (s.countUp f i).free = s.free := rfl
@[simp] theorem State.countUp_outbox (f : Fld) (i : List Nat) : (s.countUp f i).outbox = s.outbox := rfl
@[simp] theorem State.countUp_pending (f : Fld) (i : List Nat) : (s.countUp f i).pending = s.pending := rfl

/-! ## setQualified -/

@[simp] theorem State.setQualified_clk (b q : Bool) : (s.setQualified b q).clk = s.clk := rfl
@[simp] theorem State.setQualified_pins (b q : Bool) : (s.setQualified b q).pins = s.pins := rfl
@[simp] theorem State.setQualified_tb (b q : Bool) : (s.setQualified b q).tb = s.tb := rfl
@[simp] theorem State.setQualified_wa (b q : Bool) : (s.setQualified b q).wa = s.wa := rfl
@[simp] theorem State.setQualified_queues (b q : Bool) : (s.setQualified b q).queues = s.queues := rfl
@[simp] theorem State.setQualified_dma (b q : Bool) : (s.setQualified b q).dma = s.dma := rfl
@[simp] theorem State.setQualified_risers (b q : Bool) : (s.setQualified b q).risers = s.risers := rfl
@[simp] theorem State.setQualified_riserLast (b q : Bool) : (s.setQualified b q).riserLast = s.riserLast := rfl
@[simp] theorem State.setQualified_slots (b q : Bool) : (s.setQualified b q).slots = s.slots := rfl
@[simp] theorem State.setQualified_heldPubs (b q : Bool) : (s.setQualified b q).heldPubs = s.heldPubs := rfl
@[simp] theorem State.setQualified_dram (b q : Bool) : (s.setQualified b q).dram = s.dram := rfl
@[simp] theorem State.setQualified_noc (b q : Bool) : (s.setQualified b q).noc = s.noc := rfl
@[simp] theorem State.setQualified_xg (b q : Bool) : (s.setQualified b q).xg = s.xg := rfl
@[simp] theorem State.setQualified_links (b q : Bool) : (s.setQualified b q).links = s.links := rfl
@[simp] theorem State.setQualified_lanes (b q : Bool) : (s.setQualified b q).lanes = s.lanes := rfl
@[simp] theorem State.setQualified_encR (b q : Bool) : (s.setQualified b q).encR = s.encR := rfl
@[simp] theorem State.setQualified_encE (b q : Bool) : (s.setQualified b q).encE = s.encE := rfl
@[simp] theorem State.setQualified_log (b q : Bool) : (s.setQualified b q).log = s.log := rfl
@[simp] theorem State.setQualified_fab (b q : Bool) : (s.setQualified b q).fab = s.fab := rfl
@[simp] theorem State.setQualified_load (b q : Bool) : (s.setQualified b q).load = s.load := rfl
@[simp] theorem State.setQualified_otp (b q : Bool) : (s.setQualified b q).otp = s.otp := rfl
@[simp] theorem State.setQualified_pwr (b q : Bool) : (s.setQualified b q).pwr = s.pwr := rfl
@[simp] theorem State.setQualified_mbx (b q : Bool) : (s.setQualified b q).mbx = s.mbx := rfl
@[simp] theorem State.setQualified_upd (b q : Bool) : (s.setQualified b q).upd = s.upd := rfl
@[simp] theorem State.setQualified_cores (b q : Bool) : (s.setQualified b q).cores = s.cores := rfl
@[simp] theorem State.setQualified_l2 (b q : Bool) : (s.setQualified b q).l2 = s.l2 := rfl
@[simp] theorem State.setQualified_dbg (b q : Bool) : (s.setQualified b q).dbg = s.dbg := rfl
@[simp] theorem State.setQualified_plic (b q : Bool) : (s.setQualified b q).plic = s.plic := rfl
@[simp] theorem State.setQualified_plicBusy (b q : Bool) : (s.setQualified b q).plicBusy = s.plicBusy := rfl
@[simp] theorem State.setQualified_deferred (b q : Bool) : (s.setQualified b q).deferred = s.deferred := rfl
@[simp] theorem State.setQualified_free (b q : Bool) : (s.setQualified b q).free = s.free := rfl
@[simp] theorem State.setQualified_outbox (b q : Bool) : (s.setQualified b q).outbox = s.outbox := rfl
@[simp] theorem State.setQualified_pending (b q : Bool) : (s.setQualified b q).pending = s.pending := rfl

/-! ## putDieBit -/

@[simp] theorem State.putDieBit_clk (f : Fld) (c : Nat) (b : Bool) : (s.putDieBit f c b).clk = s.clk := rfl
@[simp] theorem State.putDieBit_pins (f : Fld) (c : Nat) (b : Bool) : (s.putDieBit f c b).pins = s.pins := rfl
@[simp] theorem State.putDieBit_tb (f : Fld) (c : Nat) (b : Bool) : (s.putDieBit f c b).tb = s.tb := rfl
@[simp] theorem State.putDieBit_wa (f : Fld) (c : Nat) (b : Bool) : (s.putDieBit f c b).wa = s.wa := rfl
@[simp] theorem State.putDieBit_queues (f : Fld) (c : Nat) (b : Bool) : (s.putDieBit f c b).queues = s.queues := rfl
@[simp] theorem State.putDieBit_dma (f : Fld) (c : Nat) (b : Bool) : (s.putDieBit f c b).dma = s.dma := rfl
@[simp] theorem State.putDieBit_risers (f : Fld) (c : Nat) (b : Bool) : (s.putDieBit f c b).risers = s.risers := rfl
@[simp] theorem State.putDieBit_riserLast (f : Fld) (c : Nat) (b : Bool) : (s.putDieBit f c b).riserLast = s.riserLast := rfl
@[simp] theorem State.putDieBit_slots (f : Fld) (c : Nat) (b : Bool) : (s.putDieBit f c b).slots = s.slots := rfl
@[simp] theorem State.putDieBit_heldPubs (f : Fld) (c : Nat) (b : Bool) : (s.putDieBit f c b).heldPubs = s.heldPubs := rfl
@[simp] theorem State.putDieBit_dram (f : Fld) (c : Nat) (b : Bool) : (s.putDieBit f c b).dram = s.dram := rfl
@[simp] theorem State.putDieBit_noc (f : Fld) (c : Nat) (b : Bool) : (s.putDieBit f c b).noc = s.noc := rfl
@[simp] theorem State.putDieBit_xg (f : Fld) (c : Nat) (b : Bool) : (s.putDieBit f c b).xg = s.xg := rfl
@[simp] theorem State.putDieBit_links (f : Fld) (c : Nat) (b : Bool) : (s.putDieBit f c b).links = s.links := rfl
@[simp] theorem State.putDieBit_lanes (f : Fld) (c : Nat) (b : Bool) : (s.putDieBit f c b).lanes = s.lanes := rfl
@[simp] theorem State.putDieBit_encR (f : Fld) (c : Nat) (b : Bool) : (s.putDieBit f c b).encR = s.encR := rfl
@[simp] theorem State.putDieBit_encE (f : Fld) (c : Nat) (b : Bool) : (s.putDieBit f c b).encE = s.encE := rfl
@[simp] theorem State.putDieBit_log (f : Fld) (c : Nat) (b : Bool) : (s.putDieBit f c b).log = s.log := rfl
@[simp] theorem State.putDieBit_fab (f : Fld) (c : Nat) (b : Bool) : (s.putDieBit f c b).fab = s.fab := rfl
@[simp] theorem State.putDieBit_load (f : Fld) (c : Nat) (b : Bool) : (s.putDieBit f c b).load = s.load := rfl
@[simp] theorem State.putDieBit_otp (f : Fld) (c : Nat) (b : Bool) : (s.putDieBit f c b).otp = s.otp := rfl
@[simp] theorem State.putDieBit_pwr (f : Fld) (c : Nat) (b : Bool) : (s.putDieBit f c b).pwr = s.pwr := rfl
@[simp] theorem State.putDieBit_mbx (f : Fld) (c : Nat) (b : Bool) : (s.putDieBit f c b).mbx = s.mbx := rfl
@[simp] theorem State.putDieBit_upd (f : Fld) (c : Nat) (b : Bool) : (s.putDieBit f c b).upd = s.upd := rfl
@[simp] theorem State.putDieBit_cores (f : Fld) (c : Nat) (b : Bool) : (s.putDieBit f c b).cores = s.cores := rfl
@[simp] theorem State.putDieBit_l2 (f : Fld) (c : Nat) (b : Bool) : (s.putDieBit f c b).l2 = s.l2 := rfl
@[simp] theorem State.putDieBit_dbg (f : Fld) (c : Nat) (b : Bool) : (s.putDieBit f c b).dbg = s.dbg := rfl
@[simp] theorem State.putDieBit_plic (f : Fld) (c : Nat) (b : Bool) : (s.putDieBit f c b).plic = s.plic := rfl
@[simp] theorem State.putDieBit_plicBusy (f : Fld) (c : Nat) (b : Bool) : (s.putDieBit f c b).plicBusy = s.plicBusy := rfl
@[simp] theorem State.putDieBit_deferred (f : Fld) (c : Nat) (b : Bool) : (s.putDieBit f c b).deferred = s.deferred := rfl
@[simp] theorem State.putDieBit_free (f : Fld) (c : Nat) (b : Bool) : (s.putDieBit f c b).free = s.free := rfl
@[simp] theorem State.putDieBit_outbox (f : Fld) (c : Nat) (b : Bool) : (s.putDieBit f c b).outbox = s.outbox := rfl
@[simp] theorem State.putDieBit_pending (f : Fld) (c : Nat) (b : Bool) : (s.putDieBit f c b).pending = s.pending := rfl

/-! ## setBound -/

@[simp] theorem State.setBound_clk (r b : Nat) : (s.setBound r b).clk = s.clk := rfl
@[simp] theorem State.setBound_pins (r b : Nat) : (s.setBound r b).pins = s.pins := rfl
@[simp] theorem State.setBound_tb (r b : Nat) : (s.setBound r b).tb = s.tb := rfl
@[simp] theorem State.setBound_wa (r b : Nat) : (s.setBound r b).wa = s.wa := rfl
@[simp] theorem State.setBound_queues (r b : Nat) : (s.setBound r b).queues = s.queues := rfl
@[simp] theorem State.setBound_dma (r b : Nat) : (s.setBound r b).dma = s.dma := rfl
@[simp] theorem State.setBound_risers (r b : Nat) : (s.setBound r b).risers = s.risers := rfl
@[simp] theorem State.setBound_riserLast (r b : Nat) : (s.setBound r b).riserLast = s.riserLast := rfl
@[simp] theorem State.setBound_slots (r b : Nat) : (s.setBound r b).slots = s.slots := rfl
@[simp] theorem State.setBound_heldPubs (r b : Nat) : (s.setBound r b).heldPubs = s.heldPubs := rfl
@[simp] theorem State.setBound_dram (r b : Nat) : (s.setBound r b).dram = s.dram := rfl
@[simp] theorem State.setBound_noc (r b : Nat) : (s.setBound r b).noc = s.noc := rfl
@[simp] theorem State.setBound_xg (r b : Nat) : (s.setBound r b).xg = s.xg := rfl
@[simp] theorem State.setBound_links (r b : Nat) : (s.setBound r b).links = s.links := rfl
@[simp] theorem State.setBound_lanes (r b : Nat) : (s.setBound r b).lanes = s.lanes := rfl
@[simp] theorem State.setBound_encR (r b : Nat) : (s.setBound r b).encR = s.encR := rfl
@[simp] theorem State.setBound_encE (r b : Nat) : (s.setBound r b).encE = s.encE := rfl
@[simp] theorem State.setBound_log (r b : Nat) : (s.setBound r b).log = s.log := rfl
@[simp] theorem State.setBound_fab (r b : Nat) : (s.setBound r b).fab = s.fab := rfl
@[simp] theorem State.setBound_load (r b : Nat) : (s.setBound r b).load = s.load := rfl
@[simp] theorem State.setBound_otp (r b : Nat) : (s.setBound r b).otp = s.otp := rfl
@[simp] theorem State.setBound_pwr (r b : Nat) : (s.setBound r b).pwr = s.pwr := rfl
@[simp] theorem State.setBound_mbx (r b : Nat) : (s.setBound r b).mbx = s.mbx := rfl
@[simp] theorem State.setBound_upd (r b : Nat) : (s.setBound r b).upd = s.upd := rfl
@[simp] theorem State.setBound_cores (r b : Nat) : (s.setBound r b).cores = s.cores := rfl
@[simp] theorem State.setBound_l2 (r b : Nat) : (s.setBound r b).l2 = s.l2 := rfl
@[simp] theorem State.setBound_dbg (r b : Nat) : (s.setBound r b).dbg = s.dbg := rfl
@[simp] theorem State.setBound_plic (r b : Nat) : (s.setBound r b).plic = s.plic := rfl
@[simp] theorem State.setBound_plicBusy (r b : Nat) : (s.setBound r b).plicBusy = s.plicBusy := rfl
@[simp] theorem State.setBound_deferred (r b : Nat) : (s.setBound r b).deferred = s.deferred := rfl
@[simp] theorem State.setBound_free (r b : Nat) : (s.setBound r b).free = s.free := rfl
@[simp] theorem State.setBound_outbox (r b : Nat) : (s.setBound r b).outbox = s.outbox := rfl
@[simp] theorem State.setBound_pending (r b : Nat) : (s.setBound r b).pending = s.pending := rfl

/-! ## emit -/

@[simp] theorem State.emit_regs (o : Output) : (s.emit o).regs = s.regs := rfl
@[simp] theorem State.emit_clk (o : Output) : (s.emit o).clk = s.clk := rfl
@[simp] theorem State.emit_pins (o : Output) : (s.emit o).pins = s.pins := rfl
@[simp] theorem State.emit_tb (o : Output) : (s.emit o).tb = s.tb := rfl
@[simp] theorem State.emit_wa (o : Output) : (s.emit o).wa = s.wa := rfl
@[simp] theorem State.emit_queues (o : Output) : (s.emit o).queues = s.queues := rfl
@[simp] theorem State.emit_dma (o : Output) : (s.emit o).dma = s.dma := rfl
@[simp] theorem State.emit_risers (o : Output) : (s.emit o).risers = s.risers := rfl
@[simp] theorem State.emit_riserLast (o : Output) : (s.emit o).riserLast = s.riserLast := rfl
@[simp] theorem State.emit_slots (o : Output) : (s.emit o).slots = s.slots := rfl
@[simp] theorem State.emit_heldPubs (o : Output) : (s.emit o).heldPubs = s.heldPubs := rfl
@[simp] theorem State.emit_dram (o : Output) : (s.emit o).dram = s.dram := rfl
@[simp] theorem State.emit_noc (o : Output) : (s.emit o).noc = s.noc := rfl
@[simp] theorem State.emit_xg (o : Output) : (s.emit o).xg = s.xg := rfl
@[simp] theorem State.emit_links (o : Output) : (s.emit o).links = s.links := rfl
@[simp] theorem State.emit_lanes (o : Output) : (s.emit o).lanes = s.lanes := rfl
@[simp] theorem State.emit_encR (o : Output) : (s.emit o).encR = s.encR := rfl
@[simp] theorem State.emit_encE (o : Output) : (s.emit o).encE = s.encE := rfl
@[simp] theorem State.emit_log (o : Output) : (s.emit o).log = s.log := rfl
@[simp] theorem State.emit_fab (o : Output) : (s.emit o).fab = s.fab := rfl
@[simp] theorem State.emit_load (o : Output) : (s.emit o).load = s.load := rfl
@[simp] theorem State.emit_otp (o : Output) : (s.emit o).otp = s.otp := rfl
@[simp] theorem State.emit_pwr (o : Output) : (s.emit o).pwr = s.pwr := rfl
@[simp] theorem State.emit_mbx (o : Output) : (s.emit o).mbx = s.mbx := rfl
@[simp] theorem State.emit_upd (o : Output) : (s.emit o).upd = s.upd := rfl
@[simp] theorem State.emit_cores (o : Output) : (s.emit o).cores = s.cores := rfl
@[simp] theorem State.emit_l2 (o : Output) : (s.emit o).l2 = s.l2 := rfl
@[simp] theorem State.emit_dbg (o : Output) : (s.emit o).dbg = s.dbg := rfl
@[simp] theorem State.emit_plic (o : Output) : (s.emit o).plic = s.plic := rfl
@[simp] theorem State.emit_plicBusy (o : Output) : (s.emit o).plicBusy = s.plicBusy := rfl
@[simp] theorem State.emit_deferred (o : Output) : (s.emit o).deferred = s.deferred := rfl
@[simp] theorem State.emit_free (o : Output) : (s.emit o).free = s.free := rfl
@[simp] theorem State.emit_pending (o : Output) : (s.emit o).pending = s.pending := rfl

/-! ## answer -/

@[simp] theorem State.answer_regs (q : Src) (c : Resp) : (s.answer q c).regs = s.regs := rfl
@[simp] theorem State.answer_clk (q : Src) (c : Resp) : (s.answer q c).clk = s.clk := rfl
@[simp] theorem State.answer_pins (q : Src) (c : Resp) : (s.answer q c).pins = s.pins := rfl
@[simp] theorem State.answer_tb (q : Src) (c : Resp) : (s.answer q c).tb = s.tb := rfl
@[simp] theorem State.answer_wa (q : Src) (c : Resp) : (s.answer q c).wa = s.wa := rfl
@[simp] theorem State.answer_queues (q : Src) (c : Resp) : (s.answer q c).queues = s.queues := rfl
@[simp] theorem State.answer_dma (q : Src) (c : Resp) : (s.answer q c).dma = s.dma := rfl
@[simp] theorem State.answer_risers (q : Src) (c : Resp) : (s.answer q c).risers = s.risers := rfl
@[simp] theorem State.answer_riserLast (q : Src) (c : Resp) : (s.answer q c).riserLast = s.riserLast := rfl
@[simp] theorem State.answer_slots (q : Src) (c : Resp) : (s.answer q c).slots = s.slots := rfl
@[simp] theorem State.answer_heldPubs (q : Src) (c : Resp) : (s.answer q c).heldPubs = s.heldPubs := rfl
@[simp] theorem State.answer_dram (q : Src) (c : Resp) : (s.answer q c).dram = s.dram := rfl
@[simp] theorem State.answer_noc (q : Src) (c : Resp) : (s.answer q c).noc = s.noc := rfl
@[simp] theorem State.answer_xg (q : Src) (c : Resp) : (s.answer q c).xg = s.xg := rfl
@[simp] theorem State.answer_links (q : Src) (c : Resp) : (s.answer q c).links = s.links := rfl
@[simp] theorem State.answer_lanes (q : Src) (c : Resp) : (s.answer q c).lanes = s.lanes := rfl
@[simp] theorem State.answer_encR (q : Src) (c : Resp) : (s.answer q c).encR = s.encR := rfl
@[simp] theorem State.answer_encE (q : Src) (c : Resp) : (s.answer q c).encE = s.encE := rfl
@[simp] theorem State.answer_log (q : Src) (c : Resp) : (s.answer q c).log = s.log := rfl
@[simp] theorem State.answer_fab (q : Src) (c : Resp) : (s.answer q c).fab = s.fab := rfl
@[simp] theorem State.answer_load (q : Src) (c : Resp) : (s.answer q c).load = s.load := rfl
@[simp] theorem State.answer_otp (q : Src) (c : Resp) : (s.answer q c).otp = s.otp := rfl
@[simp] theorem State.answer_pwr (q : Src) (c : Resp) : (s.answer q c).pwr = s.pwr := rfl
@[simp] theorem State.answer_mbx (q : Src) (c : Resp) : (s.answer q c).mbx = s.mbx := rfl
@[simp] theorem State.answer_upd (q : Src) (c : Resp) : (s.answer q c).upd = s.upd := rfl
@[simp] theorem State.answer_cores (q : Src) (c : Resp) : (s.answer q c).cores = s.cores := rfl
@[simp] theorem State.answer_l2 (q : Src) (c : Resp) : (s.answer q c).l2 = s.l2 := rfl
@[simp] theorem State.answer_dbg (q : Src) (c : Resp) : (s.answer q c).dbg = s.dbg := rfl
@[simp] theorem State.answer_plic (q : Src) (c : Resp) : (s.answer q c).plic = s.plic := rfl
@[simp] theorem State.answer_plicBusy (q : Src) (c : Resp) : (s.answer q c).plicBusy = s.plicBusy := rfl
@[simp] theorem State.answer_deferred (q : Src) (c : Resp) : (s.answer q c).deferred = s.deferred := rfl
@[simp] theorem State.answer_free (q : Src) (c : Resp) : (s.answer q c).free = s.free := rfl
@[simp] theorem State.answer_pending (q : Src) (c : Resp) : (s.answer q c).pending = s.pending := rfl

/-! ## answerWord -/

@[simp] theorem State.answerWord_regs (q : Src) (w : Word32) : (s.answerWord q w).regs = s.regs := rfl
@[simp] theorem State.answerWord_clk (q : Src) (w : Word32) : (s.answerWord q w).clk = s.clk := rfl
@[simp] theorem State.answerWord_pins (q : Src) (w : Word32) : (s.answerWord q w).pins = s.pins := rfl
@[simp] theorem State.answerWord_tb (q : Src) (w : Word32) : (s.answerWord q w).tb = s.tb := rfl
@[simp] theorem State.answerWord_wa (q : Src) (w : Word32) : (s.answerWord q w).wa = s.wa := rfl
@[simp] theorem State.answerWord_queues (q : Src) (w : Word32) : (s.answerWord q w).queues = s.queues := rfl
@[simp] theorem State.answerWord_dma (q : Src) (w : Word32) : (s.answerWord q w).dma = s.dma := rfl
@[simp] theorem State.answerWord_risers (q : Src) (w : Word32) : (s.answerWord q w).risers = s.risers := rfl
@[simp] theorem State.answerWord_riserLast (q : Src) (w : Word32) : (s.answerWord q w).riserLast = s.riserLast := rfl
@[simp] theorem State.answerWord_slots (q : Src) (w : Word32) : (s.answerWord q w).slots = s.slots := rfl
@[simp] theorem State.answerWord_heldPubs (q : Src) (w : Word32) : (s.answerWord q w).heldPubs = s.heldPubs := rfl
@[simp] theorem State.answerWord_dram (q : Src) (w : Word32) : (s.answerWord q w).dram = s.dram := rfl
@[simp] theorem State.answerWord_noc (q : Src) (w : Word32) : (s.answerWord q w).noc = s.noc := rfl
@[simp] theorem State.answerWord_xg (q : Src) (w : Word32) : (s.answerWord q w).xg = s.xg := rfl
@[simp] theorem State.answerWord_links (q : Src) (w : Word32) : (s.answerWord q w).links = s.links := rfl
@[simp] theorem State.answerWord_lanes (q : Src) (w : Word32) : (s.answerWord q w).lanes = s.lanes := rfl
@[simp] theorem State.answerWord_encR (q : Src) (w : Word32) : (s.answerWord q w).encR = s.encR := rfl
@[simp] theorem State.answerWord_encE (q : Src) (w : Word32) : (s.answerWord q w).encE = s.encE := rfl
@[simp] theorem State.answerWord_log (q : Src) (w : Word32) : (s.answerWord q w).log = s.log := rfl
@[simp] theorem State.answerWord_fab (q : Src) (w : Word32) : (s.answerWord q w).fab = s.fab := rfl
@[simp] theorem State.answerWord_load (q : Src) (w : Word32) : (s.answerWord q w).load = s.load := rfl
@[simp] theorem State.answerWord_otp (q : Src) (w : Word32) : (s.answerWord q w).otp = s.otp := rfl
@[simp] theorem State.answerWord_pwr (q : Src) (w : Word32) : (s.answerWord q w).pwr = s.pwr := rfl
@[simp] theorem State.answerWord_mbx (q : Src) (w : Word32) : (s.answerWord q w).mbx = s.mbx := rfl
@[simp] theorem State.answerWord_upd (q : Src) (w : Word32) : (s.answerWord q w).upd = s.upd := rfl
@[simp] theorem State.answerWord_cores (q : Src) (w : Word32) : (s.answerWord q w).cores = s.cores := rfl
@[simp] theorem State.answerWord_l2 (q : Src) (w : Word32) : (s.answerWord q w).l2 = s.l2 := rfl
@[simp] theorem State.answerWord_dbg (q : Src) (w : Word32) : (s.answerWord q w).dbg = s.dbg := rfl
@[simp] theorem State.answerWord_plic (q : Src) (w : Word32) : (s.answerWord q w).plic = s.plic := rfl
@[simp] theorem State.answerWord_plicBusy (q : Src) (w : Word32) : (s.answerWord q w).plicBusy = s.plicBusy := rfl
@[simp] theorem State.answerWord_deferred (q : Src) (w : Word32) : (s.answerWord q w).deferred = s.deferred := rfl
@[simp] theorem State.answerWord_free (q : Src) (w : Word32) : (s.answerWord q w).free = s.free := rfl
@[simp] theorem State.answerWord_pending (q : Src) (w : Word32) : (s.answerWord q w).pending = s.pending := rfl

/-! ## respond -/

@[simp] theorem State.respond_regs (r : Req) (c : Resp) (l : List Byte) (b : List Nat) : (s.respond r c l b).regs = s.regs := rfl
@[simp] theorem State.respond_clk (r : Req) (c : Resp) (l : List Byte) (b : List Nat) : (s.respond r c l b).clk = s.clk := rfl
@[simp] theorem State.respond_pins (r : Req) (c : Resp) (l : List Byte) (b : List Nat) : (s.respond r c l b).pins = s.pins := rfl
@[simp] theorem State.respond_tb (r : Req) (c : Resp) (l : List Byte) (b : List Nat) : (s.respond r c l b).tb = s.tb := rfl
@[simp] theorem State.respond_wa (r : Req) (c : Resp) (l : List Byte) (b : List Nat) : (s.respond r c l b).wa = s.wa := rfl
@[simp] theorem State.respond_queues (r : Req) (c : Resp) (l : List Byte) (b : List Nat) : (s.respond r c l b).queues = s.queues := rfl
@[simp] theorem State.respond_dma (r : Req) (c : Resp) (l : List Byte) (b : List Nat) : (s.respond r c l b).dma = s.dma := rfl
@[simp] theorem State.respond_risers (r : Req) (c : Resp) (l : List Byte) (b : List Nat) : (s.respond r c l b).risers = s.risers := rfl
@[simp] theorem State.respond_riserLast (r : Req) (c : Resp) (l : List Byte) (b : List Nat) : (s.respond r c l b).riserLast = s.riserLast := rfl
@[simp] theorem State.respond_slots (r : Req) (c : Resp) (l : List Byte) (b : List Nat) : (s.respond r c l b).slots = s.slots := rfl
@[simp] theorem State.respond_heldPubs (r : Req) (c : Resp) (l : List Byte) (b : List Nat) : (s.respond r c l b).heldPubs = s.heldPubs := rfl
@[simp] theorem State.respond_dram (r : Req) (c : Resp) (l : List Byte) (b : List Nat) : (s.respond r c l b).dram = s.dram := rfl
@[simp] theorem State.respond_noc (r : Req) (c : Resp) (l : List Byte) (b : List Nat) : (s.respond r c l b).noc = s.noc := rfl
@[simp] theorem State.respond_xg (r : Req) (c : Resp) (l : List Byte) (b : List Nat) : (s.respond r c l b).xg = s.xg := rfl
@[simp] theorem State.respond_links (r : Req) (c : Resp) (l : List Byte) (b : List Nat) : (s.respond r c l b).links = s.links := rfl
@[simp] theorem State.respond_lanes (r : Req) (c : Resp) (l : List Byte) (b : List Nat) : (s.respond r c l b).lanes = s.lanes := rfl
@[simp] theorem State.respond_encR (r : Req) (c : Resp) (l : List Byte) (b : List Nat) : (s.respond r c l b).encR = s.encR := rfl
@[simp] theorem State.respond_encE (r : Req) (c : Resp) (l : List Byte) (b : List Nat) : (s.respond r c l b).encE = s.encE := rfl
@[simp] theorem State.respond_log (r : Req) (c : Resp) (l : List Byte) (b : List Nat) : (s.respond r c l b).log = s.log := rfl
@[simp] theorem State.respond_fab (r : Req) (c : Resp) (l : List Byte) (b : List Nat) : (s.respond r c l b).fab = s.fab := rfl
@[simp] theorem State.respond_load (r : Req) (c : Resp) (l : List Byte) (b : List Nat) : (s.respond r c l b).load = s.load := rfl
@[simp] theorem State.respond_otp (r : Req) (c : Resp) (l : List Byte) (b : List Nat) : (s.respond r c l b).otp = s.otp := rfl
@[simp] theorem State.respond_pwr (r : Req) (c : Resp) (l : List Byte) (b : List Nat) : (s.respond r c l b).pwr = s.pwr := rfl
@[simp] theorem State.respond_mbx (r : Req) (c : Resp) (l : List Byte) (b : List Nat) : (s.respond r c l b).mbx = s.mbx := rfl
@[simp] theorem State.respond_upd (r : Req) (c : Resp) (l : List Byte) (b : List Nat) : (s.respond r c l b).upd = s.upd := rfl
@[simp] theorem State.respond_cores (r : Req) (c : Resp) (l : List Byte) (b : List Nat) : (s.respond r c l b).cores = s.cores := rfl
@[simp] theorem State.respond_l2 (r : Req) (c : Resp) (l : List Byte) (b : List Nat) : (s.respond r c l b).l2 = s.l2 := rfl
@[simp] theorem State.respond_dbg (r : Req) (c : Resp) (l : List Byte) (b : List Nat) : (s.respond r c l b).dbg = s.dbg := rfl
@[simp] theorem State.respond_plic (r : Req) (c : Resp) (l : List Byte) (b : List Nat) : (s.respond r c l b).plic = s.plic := rfl
@[simp] theorem State.respond_plicBusy (r : Req) (c : Resp) (l : List Byte) (b : List Nat) : (s.respond r c l b).plicBusy = s.plicBusy := rfl
@[simp] theorem State.respond_deferred (r : Req) (c : Resp) (l : List Byte) (b : List Nat) : (s.respond r c l b).deferred = s.deferred := rfl
@[simp] theorem State.respond_free (r : Req) (c : Resp) (l : List Byte) (b : List Nat) : (s.respond r c l b).free = s.free := rfl
@[simp] theorem State.respond_pending (r : Req) (c : Resp) (l : List Byte) (b : List Nat) : (s.respond r c l b).pending = s.pending := rfl

/-! ## draw -/

@[simp] theorem State.draw_regs : (s.draw.2).regs = s.regs := rfl
@[simp] theorem State.draw_clk : (s.draw.2).clk = s.clk := rfl
@[simp] theorem State.draw_pins : (s.draw.2).pins = s.pins := rfl
@[simp] theorem State.draw_tb : (s.draw.2).tb = s.tb := rfl
@[simp] theorem State.draw_wa : (s.draw.2).wa = s.wa := rfl
@[simp] theorem State.draw_queues : (s.draw.2).queues = s.queues := rfl
@[simp] theorem State.draw_dma : (s.draw.2).dma = s.dma := rfl
@[simp] theorem State.draw_risers : (s.draw.2).risers = s.risers := rfl
@[simp] theorem State.draw_riserLast : (s.draw.2).riserLast = s.riserLast := rfl
@[simp] theorem State.draw_slots : (s.draw.2).slots = s.slots := rfl
@[simp] theorem State.draw_heldPubs : (s.draw.2).heldPubs = s.heldPubs := rfl
@[simp] theorem State.draw_dram : (s.draw.2).dram = s.dram := rfl
@[simp] theorem State.draw_noc : (s.draw.2).noc = s.noc := rfl
@[simp] theorem State.draw_xg : (s.draw.2).xg = s.xg := rfl
@[simp] theorem State.draw_links : (s.draw.2).links = s.links := rfl
@[simp] theorem State.draw_lanes : (s.draw.2).lanes = s.lanes := rfl
@[simp] theorem State.draw_encR : (s.draw.2).encR = s.encR := rfl
@[simp] theorem State.draw_encE : (s.draw.2).encE = s.encE := rfl
@[simp] theorem State.draw_log : (s.draw.2).log = s.log := rfl
@[simp] theorem State.draw_fab : (s.draw.2).fab = s.fab := rfl
@[simp] theorem State.draw_load : (s.draw.2).load = s.load := rfl
@[simp] theorem State.draw_otp : (s.draw.2).otp = s.otp := rfl
@[simp] theorem State.draw_pwr : (s.draw.2).pwr = s.pwr := rfl
@[simp] theorem State.draw_mbx : (s.draw.2).mbx = s.mbx := rfl
@[simp] theorem State.draw_upd : (s.draw.2).upd = s.upd := rfl
@[simp] theorem State.draw_cores : (s.draw.2).cores = s.cores := rfl
@[simp] theorem State.draw_l2 : (s.draw.2).l2 = s.l2 := rfl
@[simp] theorem State.draw_dbg : (s.draw.2).dbg = s.dbg := rfl
@[simp] theorem State.draw_plic : (s.draw.2).plic = s.plic := rfl
@[simp] theorem State.draw_plicBusy : (s.draw.2).plicBusy = s.plicBusy := rfl
@[simp] theorem State.draw_deferred : (s.draw.2).deferred = s.deferred := rfl
@[simp] theorem State.draw_outbox : (s.draw.2).outbox = s.outbox := rfl
@[simp] theorem State.draw_pending : (s.draw.2).pending = s.pending := rfl

/-! ## setDie -/

@[simp] theorem State.setDie_regs (d : Nat) (w : WaDie) : (s.setDie d w).regs = s.regs := rfl
@[simp] theorem State.setDie_clk (d : Nat) (w : WaDie) : (s.setDie d w).clk = s.clk := rfl
@[simp] theorem State.setDie_pins (d : Nat) (w : WaDie) : (s.setDie d w).pins = s.pins := rfl
@[simp] theorem State.setDie_tb (d : Nat) (w : WaDie) : (s.setDie d w).tb = s.tb := rfl
@[simp] theorem State.setDie_queues (d : Nat) (w : WaDie) : (s.setDie d w).queues = s.queues := rfl
@[simp] theorem State.setDie_dma (d : Nat) (w : WaDie) : (s.setDie d w).dma = s.dma := rfl
@[simp] theorem State.setDie_risers (d : Nat) (w : WaDie) : (s.setDie d w).risers = s.risers := rfl
@[simp] theorem State.setDie_riserLast (d : Nat) (w : WaDie) : (s.setDie d w).riserLast = s.riserLast := rfl
@[simp] theorem State.setDie_slots (d : Nat) (w : WaDie) : (s.setDie d w).slots = s.slots := rfl
@[simp] theorem State.setDie_heldPubs (d : Nat) (w : WaDie) : (s.setDie d w).heldPubs = s.heldPubs := rfl
@[simp] theorem State.setDie_dram (d : Nat) (w : WaDie) : (s.setDie d w).dram = s.dram := rfl
@[simp] theorem State.setDie_noc (d : Nat) (w : WaDie) : (s.setDie d w).noc = s.noc := rfl
@[simp] theorem State.setDie_xg (d : Nat) (w : WaDie) : (s.setDie d w).xg = s.xg := rfl
@[simp] theorem State.setDie_links (d : Nat) (w : WaDie) : (s.setDie d w).links = s.links := rfl
@[simp] theorem State.setDie_lanes (d : Nat) (w : WaDie) : (s.setDie d w).lanes = s.lanes := rfl
@[simp] theorem State.setDie_encR (d : Nat) (w : WaDie) : (s.setDie d w).encR = s.encR := rfl
@[simp] theorem State.setDie_encE (d : Nat) (w : WaDie) : (s.setDie d w).encE = s.encE := rfl
@[simp] theorem State.setDie_log (d : Nat) (w : WaDie) : (s.setDie d w).log = s.log := rfl
@[simp] theorem State.setDie_fab (d : Nat) (w : WaDie) : (s.setDie d w).fab = s.fab := rfl
@[simp] theorem State.setDie_load (d : Nat) (w : WaDie) : (s.setDie d w).load = s.load := rfl
@[simp] theorem State.setDie_otp (d : Nat) (w : WaDie) : (s.setDie d w).otp = s.otp := rfl
@[simp] theorem State.setDie_pwr (d : Nat) (w : WaDie) : (s.setDie d w).pwr = s.pwr := rfl
@[simp] theorem State.setDie_mbx (d : Nat) (w : WaDie) : (s.setDie d w).mbx = s.mbx := rfl
@[simp] theorem State.setDie_upd (d : Nat) (w : WaDie) : (s.setDie d w).upd = s.upd := rfl
@[simp] theorem State.setDie_cores (d : Nat) (w : WaDie) : (s.setDie d w).cores = s.cores := rfl
@[simp] theorem State.setDie_l2 (d : Nat) (w : WaDie) : (s.setDie d w).l2 = s.l2 := rfl
@[simp] theorem State.setDie_dbg (d : Nat) (w : WaDie) : (s.setDie d w).dbg = s.dbg := rfl
@[simp] theorem State.setDie_plic (d : Nat) (w : WaDie) : (s.setDie d w).plic = s.plic := rfl
@[simp] theorem State.setDie_plicBusy (d : Nat) (w : WaDie) : (s.setDie d w).plicBusy = s.plicBusy := rfl
@[simp] theorem State.setDie_deferred (d : Nat) (w : WaDie) : (s.setDie d w).deferred = s.deferred := rfl
@[simp] theorem State.setDie_free (d : Nat) (w : WaDie) : (s.setDie d w).free = s.free := rfl
@[simp] theorem State.setDie_outbox (d : Nat) (w : WaDie) : (s.setDie d w).outbox = s.outbox := rfl
@[simp] theorem State.setDie_pending (d : Nat) (w : WaDie) : (s.setDie d w).pending = s.pending := rfl

/-! ## setTile -/

@[simp] theorem State.setTile_regs (d t : Nat) (x : TileSt) : (s.setTile d t x).regs = s.regs := rfl
@[simp] theorem State.setTile_clk (d t : Nat) (x : TileSt) : (s.setTile d t x).clk = s.clk := rfl
@[simp] theorem State.setTile_pins (d t : Nat) (x : TileSt) : (s.setTile d t x).pins = s.pins := rfl
@[simp] theorem State.setTile_tb (d t : Nat) (x : TileSt) : (s.setTile d t x).tb = s.tb := rfl
@[simp] theorem State.setTile_queues (d t : Nat) (x : TileSt) : (s.setTile d t x).queues = s.queues := rfl
@[simp] theorem State.setTile_dma (d t : Nat) (x : TileSt) : (s.setTile d t x).dma = s.dma := rfl
@[simp] theorem State.setTile_risers (d t : Nat) (x : TileSt) : (s.setTile d t x).risers = s.risers := rfl
@[simp] theorem State.setTile_riserLast (d t : Nat) (x : TileSt) : (s.setTile d t x).riserLast = s.riserLast := rfl
@[simp] theorem State.setTile_slots (d t : Nat) (x : TileSt) : (s.setTile d t x).slots = s.slots := rfl
@[simp] theorem State.setTile_heldPubs (d t : Nat) (x : TileSt) : (s.setTile d t x).heldPubs = s.heldPubs := rfl
@[simp] theorem State.setTile_dram (d t : Nat) (x : TileSt) : (s.setTile d t x).dram = s.dram := rfl
@[simp] theorem State.setTile_noc (d t : Nat) (x : TileSt) : (s.setTile d t x).noc = s.noc := rfl
@[simp] theorem State.setTile_xg (d t : Nat) (x : TileSt) : (s.setTile d t x).xg = s.xg := rfl
@[simp] theorem State.setTile_links (d t : Nat) (x : TileSt) : (s.setTile d t x).links = s.links := rfl
@[simp] theorem State.setTile_lanes (d t : Nat) (x : TileSt) : (s.setTile d t x).lanes = s.lanes := rfl
@[simp] theorem State.setTile_encR (d t : Nat) (x : TileSt) : (s.setTile d t x).encR = s.encR := rfl
@[simp] theorem State.setTile_encE (d t : Nat) (x : TileSt) : (s.setTile d t x).encE = s.encE := rfl
@[simp] theorem State.setTile_log (d t : Nat) (x : TileSt) : (s.setTile d t x).log = s.log := rfl
@[simp] theorem State.setTile_fab (d t : Nat) (x : TileSt) : (s.setTile d t x).fab = s.fab := rfl
@[simp] theorem State.setTile_load (d t : Nat) (x : TileSt) : (s.setTile d t x).load = s.load := rfl
@[simp] theorem State.setTile_otp (d t : Nat) (x : TileSt) : (s.setTile d t x).otp = s.otp := rfl
@[simp] theorem State.setTile_pwr (d t : Nat) (x : TileSt) : (s.setTile d t x).pwr = s.pwr := rfl
@[simp] theorem State.setTile_mbx (d t : Nat) (x : TileSt) : (s.setTile d t x).mbx = s.mbx := rfl
@[simp] theorem State.setTile_upd (d t : Nat) (x : TileSt) : (s.setTile d t x).upd = s.upd := rfl
@[simp] theorem State.setTile_cores (d t : Nat) (x : TileSt) : (s.setTile d t x).cores = s.cores := rfl
@[simp] theorem State.setTile_l2 (d t : Nat) (x : TileSt) : (s.setTile d t x).l2 = s.l2 := rfl
@[simp] theorem State.setTile_dbg (d t : Nat) (x : TileSt) : (s.setTile d t x).dbg = s.dbg := rfl
@[simp] theorem State.setTile_plic (d t : Nat) (x : TileSt) : (s.setTile d t x).plic = s.plic := rfl
@[simp] theorem State.setTile_plicBusy (d t : Nat) (x : TileSt) : (s.setTile d t x).plicBusy = s.plicBusy := rfl
@[simp] theorem State.setTile_deferred (d t : Nat) (x : TileSt) : (s.setTile d t x).deferred = s.deferred := rfl
@[simp] theorem State.setTile_free (d t : Nat) (x : TileSt) : (s.setTile d t x).free = s.free := rfl
@[simp] theorem State.setTile_outbox (d t : Nat) (x : TileSt) : (s.setTile d t x).outbox = s.outbox := rfl
@[simp] theorem State.setTile_pending (d t : Nat) (x : TileSt) : (s.setTile d t x).pending = s.pending := rfl

/-! ## setPort -/

@[simp] theorem State.setPort_regs (d p : Nat) (x : PortSt) : (s.setPort d p x).regs = s.regs := rfl
@[simp] theorem State.setPort_clk (d p : Nat) (x : PortSt) : (s.setPort d p x).clk = s.clk := rfl
@[simp] theorem State.setPort_pins (d p : Nat) (x : PortSt) : (s.setPort d p x).pins = s.pins := rfl
@[simp] theorem State.setPort_tb (d p : Nat) (x : PortSt) : (s.setPort d p x).tb = s.tb := rfl
@[simp] theorem State.setPort_queues (d p : Nat) (x : PortSt) : (s.setPort d p x).queues = s.queues := rfl
@[simp] theorem State.setPort_dma (d p : Nat) (x : PortSt) : (s.setPort d p x).dma = s.dma := rfl
@[simp] theorem State.setPort_risers (d p : Nat) (x : PortSt) : (s.setPort d p x).risers = s.risers := rfl
@[simp] theorem State.setPort_riserLast (d p : Nat) (x : PortSt) : (s.setPort d p x).riserLast = s.riserLast := rfl
@[simp] theorem State.setPort_slots (d p : Nat) (x : PortSt) : (s.setPort d p x).slots = s.slots := rfl
@[simp] theorem State.setPort_heldPubs (d p : Nat) (x : PortSt) : (s.setPort d p x).heldPubs = s.heldPubs := rfl
@[simp] theorem State.setPort_dram (d p : Nat) (x : PortSt) : (s.setPort d p x).dram = s.dram := rfl
@[simp] theorem State.setPort_noc (d p : Nat) (x : PortSt) : (s.setPort d p x).noc = s.noc := rfl
@[simp] theorem State.setPort_xg (d p : Nat) (x : PortSt) : (s.setPort d p x).xg = s.xg := rfl
@[simp] theorem State.setPort_links (d p : Nat) (x : PortSt) : (s.setPort d p x).links = s.links := rfl
@[simp] theorem State.setPort_lanes (d p : Nat) (x : PortSt) : (s.setPort d p x).lanes = s.lanes := rfl
@[simp] theorem State.setPort_encR (d p : Nat) (x : PortSt) : (s.setPort d p x).encR = s.encR := rfl
@[simp] theorem State.setPort_encE (d p : Nat) (x : PortSt) : (s.setPort d p x).encE = s.encE := rfl
@[simp] theorem State.setPort_log (d p : Nat) (x : PortSt) : (s.setPort d p x).log = s.log := rfl
@[simp] theorem State.setPort_fab (d p : Nat) (x : PortSt) : (s.setPort d p x).fab = s.fab := rfl
@[simp] theorem State.setPort_load (d p : Nat) (x : PortSt) : (s.setPort d p x).load = s.load := rfl
@[simp] theorem State.setPort_otp (d p : Nat) (x : PortSt) : (s.setPort d p x).otp = s.otp := rfl
@[simp] theorem State.setPort_pwr (d p : Nat) (x : PortSt) : (s.setPort d p x).pwr = s.pwr := rfl
@[simp] theorem State.setPort_mbx (d p : Nat) (x : PortSt) : (s.setPort d p x).mbx = s.mbx := rfl
@[simp] theorem State.setPort_upd (d p : Nat) (x : PortSt) : (s.setPort d p x).upd = s.upd := rfl
@[simp] theorem State.setPort_cores (d p : Nat) (x : PortSt) : (s.setPort d p x).cores = s.cores := rfl
@[simp] theorem State.setPort_l2 (d p : Nat) (x : PortSt) : (s.setPort d p x).l2 = s.l2 := rfl
@[simp] theorem State.setPort_dbg (d p : Nat) (x : PortSt) : (s.setPort d p x).dbg = s.dbg := rfl
@[simp] theorem State.setPort_plic (d p : Nat) (x : PortSt) : (s.setPort d p x).plic = s.plic := rfl
@[simp] theorem State.setPort_plicBusy (d p : Nat) (x : PortSt) : (s.setPort d p x).plicBusy = s.plicBusy := rfl
@[simp] theorem State.setPort_deferred (d p : Nat) (x : PortSt) : (s.setPort d p x).deferred = s.deferred := rfl
@[simp] theorem State.setPort_free (d p : Nat) (x : PortSt) : (s.setPort d p x).free = s.free := rfl
@[simp] theorem State.setPort_outbox (d p : Nat) (x : PortSt) : (s.setPort d p x).outbox = s.outbox := rfl
@[simp] theorem State.setPort_pending (d p : Nat) (x : PortSt) : (s.setPort d p x).pending = s.pending := rfl

/-! ## later -/

@[simp] theorem State.later_regs (d : Nat) (ps : List Pend) : (s.later d ps).regs = s.regs := rfl
@[simp] theorem State.later_clk (d : Nat) (ps : List Pend) : (s.later d ps).clk = s.clk := rfl
@[simp] theorem State.later_pins (d : Nat) (ps : List Pend) : (s.later d ps).pins = s.pins := rfl
@[simp] theorem State.later_tb (d : Nat) (ps : List Pend) : (s.later d ps).tb = s.tb := rfl
@[simp] theorem State.later_queues (d : Nat) (ps : List Pend) : (s.later d ps).queues = s.queues := rfl
@[simp] theorem State.later_dma (d : Nat) (ps : List Pend) : (s.later d ps).dma = s.dma := rfl
@[simp] theorem State.later_risers (d : Nat) (ps : List Pend) : (s.later d ps).risers = s.risers := rfl
@[simp] theorem State.later_riserLast (d : Nat) (ps : List Pend) : (s.later d ps).riserLast = s.riserLast := rfl
@[simp] theorem State.later_slots (d : Nat) (ps : List Pend) : (s.later d ps).slots = s.slots := rfl
@[simp] theorem State.later_heldPubs (d : Nat) (ps : List Pend) : (s.later d ps).heldPubs = s.heldPubs := rfl
@[simp] theorem State.later_dram (d : Nat) (ps : List Pend) : (s.later d ps).dram = s.dram := rfl
@[simp] theorem State.later_noc (d : Nat) (ps : List Pend) : (s.later d ps).noc = s.noc := rfl
@[simp] theorem State.later_xg (d : Nat) (ps : List Pend) : (s.later d ps).xg = s.xg := rfl
@[simp] theorem State.later_links (d : Nat) (ps : List Pend) : (s.later d ps).links = s.links := rfl
@[simp] theorem State.later_lanes (d : Nat) (ps : List Pend) : (s.later d ps).lanes = s.lanes := rfl
@[simp] theorem State.later_encR (d : Nat) (ps : List Pend) : (s.later d ps).encR = s.encR := rfl
@[simp] theorem State.later_encE (d : Nat) (ps : List Pend) : (s.later d ps).encE = s.encE := rfl
@[simp] theorem State.later_log (d : Nat) (ps : List Pend) : (s.later d ps).log = s.log := rfl
@[simp] theorem State.later_fab (d : Nat) (ps : List Pend) : (s.later d ps).fab = s.fab := rfl
@[simp] theorem State.later_load (d : Nat) (ps : List Pend) : (s.later d ps).load = s.load := rfl
@[simp] theorem State.later_otp (d : Nat) (ps : List Pend) : (s.later d ps).otp = s.otp := rfl
@[simp] theorem State.later_pwr (d : Nat) (ps : List Pend) : (s.later d ps).pwr = s.pwr := rfl
@[simp] theorem State.later_mbx (d : Nat) (ps : List Pend) : (s.later d ps).mbx = s.mbx := rfl
@[simp] theorem State.later_upd (d : Nat) (ps : List Pend) : (s.later d ps).upd = s.upd := rfl
@[simp] theorem State.later_cores (d : Nat) (ps : List Pend) : (s.later d ps).cores = s.cores := rfl
@[simp] theorem State.later_l2 (d : Nat) (ps : List Pend) : (s.later d ps).l2 = s.l2 := rfl
@[simp] theorem State.later_dbg (d : Nat) (ps : List Pend) : (s.later d ps).dbg = s.dbg := rfl
@[simp] theorem State.later_plic (d : Nat) (ps : List Pend) : (s.later d ps).plic = s.plic := rfl
@[simp] theorem State.later_plicBusy (d : Nat) (ps : List Pend) : (s.later d ps).plicBusy = s.plicBusy := rfl
@[simp] theorem State.later_deferred (d : Nat) (ps : List Pend) : (s.later d ps).deferred = s.deferred := rfl
@[simp] theorem State.later_free (d : Nat) (ps : List Pend) : (s.later d ps).free = s.free := rfl
@[simp] theorem State.later_outbox (d : Nat) (ps : List Pend) : (s.later d ps).outbox = s.outbox := rfl
@[simp] theorem State.later_pending (d : Nat) (ps : List Pend) : (s.later d ps).pending = s.pending := rfl

/-! ## setQueue -/

@[simp] theorem State.setQueue_regs (d q : Nat) (x : QueueSt) : (s.setQueue d q x).regs = s.regs := rfl
@[simp] theorem State.setQueue_clk (d q : Nat) (x : QueueSt) : (s.setQueue d q x).clk = s.clk := rfl
@[simp] theorem State.setQueue_pins (d q : Nat) (x : QueueSt) : (s.setQueue d q x).pins = s.pins := rfl
@[simp] theorem State.setQueue_tb (d q : Nat) (x : QueueSt) : (s.setQueue d q x).tb = s.tb := rfl
@[simp] theorem State.setQueue_wa (d q : Nat) (x : QueueSt) : (s.setQueue d q x).wa = s.wa := rfl
@[simp] theorem State.setQueue_dma (d q : Nat) (x : QueueSt) : (s.setQueue d q x).dma = s.dma := rfl
@[simp] theorem State.setQueue_risers (d q : Nat) (x : QueueSt) : (s.setQueue d q x).risers = s.risers := rfl
@[simp] theorem State.setQueue_riserLast (d q : Nat) (x : QueueSt) : (s.setQueue d q x).riserLast = s.riserLast := rfl
@[simp] theorem State.setQueue_slots (d q : Nat) (x : QueueSt) : (s.setQueue d q x).slots = s.slots := rfl
@[simp] theorem State.setQueue_heldPubs (d q : Nat) (x : QueueSt) : (s.setQueue d q x).heldPubs = s.heldPubs := rfl
@[simp] theorem State.setQueue_dram (d q : Nat) (x : QueueSt) : (s.setQueue d q x).dram = s.dram := rfl
@[simp] theorem State.setQueue_noc (d q : Nat) (x : QueueSt) : (s.setQueue d q x).noc = s.noc := rfl
@[simp] theorem State.setQueue_xg (d q : Nat) (x : QueueSt) : (s.setQueue d q x).xg = s.xg := rfl
@[simp] theorem State.setQueue_links (d q : Nat) (x : QueueSt) : (s.setQueue d q x).links = s.links := rfl
@[simp] theorem State.setQueue_lanes (d q : Nat) (x : QueueSt) : (s.setQueue d q x).lanes = s.lanes := rfl
@[simp] theorem State.setQueue_encR (d q : Nat) (x : QueueSt) : (s.setQueue d q x).encR = s.encR := rfl
@[simp] theorem State.setQueue_encE (d q : Nat) (x : QueueSt) : (s.setQueue d q x).encE = s.encE := rfl
@[simp] theorem State.setQueue_log (d q : Nat) (x : QueueSt) : (s.setQueue d q x).log = s.log := rfl
@[simp] theorem State.setQueue_fab (d q : Nat) (x : QueueSt) : (s.setQueue d q x).fab = s.fab := rfl
@[simp] theorem State.setQueue_load (d q : Nat) (x : QueueSt) : (s.setQueue d q x).load = s.load := rfl
@[simp] theorem State.setQueue_otp (d q : Nat) (x : QueueSt) : (s.setQueue d q x).otp = s.otp := rfl
@[simp] theorem State.setQueue_pwr (d q : Nat) (x : QueueSt) : (s.setQueue d q x).pwr = s.pwr := rfl
@[simp] theorem State.setQueue_mbx (d q : Nat) (x : QueueSt) : (s.setQueue d q x).mbx = s.mbx := rfl
@[simp] theorem State.setQueue_upd (d q : Nat) (x : QueueSt) : (s.setQueue d q x).upd = s.upd := rfl
@[simp] theorem State.setQueue_cores (d q : Nat) (x : QueueSt) : (s.setQueue d q x).cores = s.cores := rfl
@[simp] theorem State.setQueue_l2 (d q : Nat) (x : QueueSt) : (s.setQueue d q x).l2 = s.l2 := rfl
@[simp] theorem State.setQueue_dbg (d q : Nat) (x : QueueSt) : (s.setQueue d q x).dbg = s.dbg := rfl
@[simp] theorem State.setQueue_plic (d q : Nat) (x : QueueSt) : (s.setQueue d q x).plic = s.plic := rfl
@[simp] theorem State.setQueue_plicBusy (d q : Nat) (x : QueueSt) : (s.setQueue d q x).plicBusy = s.plicBusy := rfl
@[simp] theorem State.setQueue_deferred (d q : Nat) (x : QueueSt) : (s.setQueue d q x).deferred = s.deferred := rfl
@[simp] theorem State.setQueue_free (d q : Nat) (x : QueueSt) : (s.setQueue d q x).free = s.free := rfl
@[simp] theorem State.setQueue_outbox (d q : Nat) (x : QueueSt) : (s.setQueue d q x).outbox = s.outbox := rfl
@[simp] theorem State.setQueue_pending (d q : Nat) (x : QueueSt) : (s.setQueue d q x).pending = s.pending := rfl

/-! ## setDma -/

@[simp] theorem State.setDma_regs (d q : Nat) (x : DmaSt) : (s.setDma d q x).regs = s.regs := rfl
@[simp] theorem State.setDma_clk (d q : Nat) (x : DmaSt) : (s.setDma d q x).clk = s.clk := rfl
@[simp] theorem State.setDma_pins (d q : Nat) (x : DmaSt) : (s.setDma d q x).pins = s.pins := rfl
@[simp] theorem State.setDma_tb (d q : Nat) (x : DmaSt) : (s.setDma d q x).tb = s.tb := rfl
@[simp] theorem State.setDma_wa (d q : Nat) (x : DmaSt) : (s.setDma d q x).wa = s.wa := rfl
@[simp] theorem State.setDma_queues (d q : Nat) (x : DmaSt) : (s.setDma d q x).queues = s.queues := rfl
@[simp] theorem State.setDma_risers (d q : Nat) (x : DmaSt) : (s.setDma d q x).risers = s.risers := rfl
@[simp] theorem State.setDma_riserLast (d q : Nat) (x : DmaSt) : (s.setDma d q x).riserLast = s.riserLast := rfl
@[simp] theorem State.setDma_slots (d q : Nat) (x : DmaSt) : (s.setDma d q x).slots = s.slots := rfl
@[simp] theorem State.setDma_heldPubs (d q : Nat) (x : DmaSt) : (s.setDma d q x).heldPubs = s.heldPubs := rfl
@[simp] theorem State.setDma_dram (d q : Nat) (x : DmaSt) : (s.setDma d q x).dram = s.dram := rfl
@[simp] theorem State.setDma_noc (d q : Nat) (x : DmaSt) : (s.setDma d q x).noc = s.noc := rfl
@[simp] theorem State.setDma_xg (d q : Nat) (x : DmaSt) : (s.setDma d q x).xg = s.xg := rfl
@[simp] theorem State.setDma_links (d q : Nat) (x : DmaSt) : (s.setDma d q x).links = s.links := rfl
@[simp] theorem State.setDma_lanes (d q : Nat) (x : DmaSt) : (s.setDma d q x).lanes = s.lanes := rfl
@[simp] theorem State.setDma_encR (d q : Nat) (x : DmaSt) : (s.setDma d q x).encR = s.encR := rfl
@[simp] theorem State.setDma_encE (d q : Nat) (x : DmaSt) : (s.setDma d q x).encE = s.encE := rfl
@[simp] theorem State.setDma_log (d q : Nat) (x : DmaSt) : (s.setDma d q x).log = s.log := rfl
@[simp] theorem State.setDma_fab (d q : Nat) (x : DmaSt) : (s.setDma d q x).fab = s.fab := rfl
@[simp] theorem State.setDma_load (d q : Nat) (x : DmaSt) : (s.setDma d q x).load = s.load := rfl
@[simp] theorem State.setDma_otp (d q : Nat) (x : DmaSt) : (s.setDma d q x).otp = s.otp := rfl
@[simp] theorem State.setDma_pwr (d q : Nat) (x : DmaSt) : (s.setDma d q x).pwr = s.pwr := rfl
@[simp] theorem State.setDma_mbx (d q : Nat) (x : DmaSt) : (s.setDma d q x).mbx = s.mbx := rfl
@[simp] theorem State.setDma_upd (d q : Nat) (x : DmaSt) : (s.setDma d q x).upd = s.upd := rfl
@[simp] theorem State.setDma_cores (d q : Nat) (x : DmaSt) : (s.setDma d q x).cores = s.cores := rfl
@[simp] theorem State.setDma_l2 (d q : Nat) (x : DmaSt) : (s.setDma d q x).l2 = s.l2 := rfl
@[simp] theorem State.setDma_dbg (d q : Nat) (x : DmaSt) : (s.setDma d q x).dbg = s.dbg := rfl
@[simp] theorem State.setDma_plic (d q : Nat) (x : DmaSt) : (s.setDma d q x).plic = s.plic := rfl
@[simp] theorem State.setDma_plicBusy (d q : Nat) (x : DmaSt) : (s.setDma d q x).plicBusy = s.plicBusy := rfl
@[simp] theorem State.setDma_deferred (d q : Nat) (x : DmaSt) : (s.setDma d q x).deferred = s.deferred := rfl
@[simp] theorem State.setDma_free (d q : Nat) (x : DmaSt) : (s.setDma d q x).free = s.free := rfl
@[simp] theorem State.setDma_outbox (d q : Nat) (x : DmaSt) : (s.setDma d q x).outbox = s.outbox := rfl
@[simp] theorem State.setDma_pending (d q : Nat) (x : DmaSt) : (s.setDma d q x).pending = s.pending := rfl

/-! ## setRiser -/

@[simp] theorem State.setRiser_regs (d k : Nat) (x : RiserSt) : (s.setRiser d k x).regs = s.regs := rfl
@[simp] theorem State.setRiser_clk (d k : Nat) (x : RiserSt) : (s.setRiser d k x).clk = s.clk := rfl
@[simp] theorem State.setRiser_pins (d k : Nat) (x : RiserSt) : (s.setRiser d k x).pins = s.pins := rfl
@[simp] theorem State.setRiser_tb (d k : Nat) (x : RiserSt) : (s.setRiser d k x).tb = s.tb := rfl
@[simp] theorem State.setRiser_wa (d k : Nat) (x : RiserSt) : (s.setRiser d k x).wa = s.wa := rfl
@[simp] theorem State.setRiser_queues (d k : Nat) (x : RiserSt) : (s.setRiser d k x).queues = s.queues := rfl
@[simp] theorem State.setRiser_dma (d k : Nat) (x : RiserSt) : (s.setRiser d k x).dma = s.dma := rfl
@[simp] theorem State.setRiser_riserLast (d k : Nat) (x : RiserSt) : (s.setRiser d k x).riserLast = s.riserLast := rfl
@[simp] theorem State.setRiser_slots (d k : Nat) (x : RiserSt) : (s.setRiser d k x).slots = s.slots := rfl
@[simp] theorem State.setRiser_heldPubs (d k : Nat) (x : RiserSt) : (s.setRiser d k x).heldPubs = s.heldPubs := rfl
@[simp] theorem State.setRiser_dram (d k : Nat) (x : RiserSt) : (s.setRiser d k x).dram = s.dram := rfl
@[simp] theorem State.setRiser_noc (d k : Nat) (x : RiserSt) : (s.setRiser d k x).noc = s.noc := rfl
@[simp] theorem State.setRiser_xg (d k : Nat) (x : RiserSt) : (s.setRiser d k x).xg = s.xg := rfl
@[simp] theorem State.setRiser_links (d k : Nat) (x : RiserSt) : (s.setRiser d k x).links = s.links := rfl
@[simp] theorem State.setRiser_lanes (d k : Nat) (x : RiserSt) : (s.setRiser d k x).lanes = s.lanes := rfl
@[simp] theorem State.setRiser_encR (d k : Nat) (x : RiserSt) : (s.setRiser d k x).encR = s.encR := rfl
@[simp] theorem State.setRiser_encE (d k : Nat) (x : RiserSt) : (s.setRiser d k x).encE = s.encE := rfl
@[simp] theorem State.setRiser_log (d k : Nat) (x : RiserSt) : (s.setRiser d k x).log = s.log := rfl
@[simp] theorem State.setRiser_fab (d k : Nat) (x : RiserSt) : (s.setRiser d k x).fab = s.fab := rfl
@[simp] theorem State.setRiser_load (d k : Nat) (x : RiserSt) : (s.setRiser d k x).load = s.load := rfl
@[simp] theorem State.setRiser_otp (d k : Nat) (x : RiserSt) : (s.setRiser d k x).otp = s.otp := rfl
@[simp] theorem State.setRiser_pwr (d k : Nat) (x : RiserSt) : (s.setRiser d k x).pwr = s.pwr := rfl
@[simp] theorem State.setRiser_mbx (d k : Nat) (x : RiserSt) : (s.setRiser d k x).mbx = s.mbx := rfl
@[simp] theorem State.setRiser_upd (d k : Nat) (x : RiserSt) : (s.setRiser d k x).upd = s.upd := rfl
@[simp] theorem State.setRiser_cores (d k : Nat) (x : RiserSt) : (s.setRiser d k x).cores = s.cores := rfl
@[simp] theorem State.setRiser_l2 (d k : Nat) (x : RiserSt) : (s.setRiser d k x).l2 = s.l2 := rfl
@[simp] theorem State.setRiser_dbg (d k : Nat) (x : RiserSt) : (s.setRiser d k x).dbg = s.dbg := rfl
@[simp] theorem State.setRiser_plic (d k : Nat) (x : RiserSt) : (s.setRiser d k x).plic = s.plic := rfl
@[simp] theorem State.setRiser_plicBusy (d k : Nat) (x : RiserSt) : (s.setRiser d k x).plicBusy = s.plicBusy := rfl
@[simp] theorem State.setRiser_deferred (d k : Nat) (x : RiserSt) : (s.setRiser d k x).deferred = s.deferred := rfl
@[simp] theorem State.setRiser_free (d k : Nat) (x : RiserSt) : (s.setRiser d k x).free = s.free := rfl
@[simp] theorem State.setRiser_outbox (d k : Nat) (x : RiserSt) : (s.setRiser d k x).outbox = s.outbox := rfl
@[simp] theorem State.setRiser_pending (d k : Nat) (x : RiserSt) : (s.setRiser d k x).pending = s.pending := rfl

/-! ## setXg -/

@[simp] theorem State.setXg_regs (g k : Nat) (x : XGroup) : (s.setXg g k x).regs = s.regs := rfl
@[simp] theorem State.setXg_clk (g k : Nat) (x : XGroup) : (s.setXg g k x).clk = s.clk := rfl
@[simp] theorem State.setXg_pins (g k : Nat) (x : XGroup) : (s.setXg g k x).pins = s.pins := rfl
@[simp] theorem State.setXg_tb (g k : Nat) (x : XGroup) : (s.setXg g k x).tb = s.tb := rfl
@[simp] theorem State.setXg_wa (g k : Nat) (x : XGroup) : (s.setXg g k x).wa = s.wa := rfl
@[simp] theorem State.setXg_queues (g k : Nat) (x : XGroup) : (s.setXg g k x).queues = s.queues := rfl
@[simp] theorem State.setXg_dma (g k : Nat) (x : XGroup) : (s.setXg g k x).dma = s.dma := rfl
@[simp] theorem State.setXg_risers (g k : Nat) (x : XGroup) : (s.setXg g k x).risers = s.risers := rfl
@[simp] theorem State.setXg_riserLast (g k : Nat) (x : XGroup) : (s.setXg g k x).riserLast = s.riserLast := rfl
@[simp] theorem State.setXg_slots (g k : Nat) (x : XGroup) : (s.setXg g k x).slots = s.slots := rfl
@[simp] theorem State.setXg_heldPubs (g k : Nat) (x : XGroup) : (s.setXg g k x).heldPubs = s.heldPubs := rfl
@[simp] theorem State.setXg_dram (g k : Nat) (x : XGroup) : (s.setXg g k x).dram = s.dram := rfl
@[simp] theorem State.setXg_noc (g k : Nat) (x : XGroup) : (s.setXg g k x).noc = s.noc := rfl
@[simp] theorem State.setXg_links (g k : Nat) (x : XGroup) : (s.setXg g k x).links = s.links := rfl
@[simp] theorem State.setXg_lanes (g k : Nat) (x : XGroup) : (s.setXg g k x).lanes = s.lanes := rfl
@[simp] theorem State.setXg_encR (g k : Nat) (x : XGroup) : (s.setXg g k x).encR = s.encR := rfl
@[simp] theorem State.setXg_encE (g k : Nat) (x : XGroup) : (s.setXg g k x).encE = s.encE := rfl
@[simp] theorem State.setXg_log (g k : Nat) (x : XGroup) : (s.setXg g k x).log = s.log := rfl
@[simp] theorem State.setXg_fab (g k : Nat) (x : XGroup) : (s.setXg g k x).fab = s.fab := rfl
@[simp] theorem State.setXg_load (g k : Nat) (x : XGroup) : (s.setXg g k x).load = s.load := rfl
@[simp] theorem State.setXg_otp (g k : Nat) (x : XGroup) : (s.setXg g k x).otp = s.otp := rfl
@[simp] theorem State.setXg_pwr (g k : Nat) (x : XGroup) : (s.setXg g k x).pwr = s.pwr := rfl
@[simp] theorem State.setXg_mbx (g k : Nat) (x : XGroup) : (s.setXg g k x).mbx = s.mbx := rfl
@[simp] theorem State.setXg_upd (g k : Nat) (x : XGroup) : (s.setXg g k x).upd = s.upd := rfl
@[simp] theorem State.setXg_cores (g k : Nat) (x : XGroup) : (s.setXg g k x).cores = s.cores := rfl
@[simp] theorem State.setXg_l2 (g k : Nat) (x : XGroup) : (s.setXg g k x).l2 = s.l2 := rfl
@[simp] theorem State.setXg_dbg (g k : Nat) (x : XGroup) : (s.setXg g k x).dbg = s.dbg := rfl
@[simp] theorem State.setXg_plic (g k : Nat) (x : XGroup) : (s.setXg g k x).plic = s.plic := rfl
@[simp] theorem State.setXg_plicBusy (g k : Nat) (x : XGroup) : (s.setXg g k x).plicBusy = s.plicBusy := rfl
@[simp] theorem State.setXg_deferred (g k : Nat) (x : XGroup) : (s.setXg g k x).deferred = s.deferred := rfl
@[simp] theorem State.setXg_free (g k : Nat) (x : XGroup) : (s.setXg g k x).free = s.free := rfl
@[simp] theorem State.setXg_outbox (g k : Nat) (x : XGroup) : (s.setXg g k x).outbox = s.outbox := rfl
@[simp] theorem State.setXg_pending (g k : Nat) (x : XGroup) : (s.setXg g k x).pending = s.pending := rfl

/-! ## setLink -/

@[simp] theorem State.setLink_regs (l : Nat) (x : LinkSt) : (s.setLink l x).regs = s.regs := rfl
@[simp] theorem State.setLink_clk (l : Nat) (x : LinkSt) : (s.setLink l x).clk = s.clk := rfl
@[simp] theorem State.setLink_pins (l : Nat) (x : LinkSt) : (s.setLink l x).pins = s.pins := rfl
@[simp] theorem State.setLink_tb (l : Nat) (x : LinkSt) : (s.setLink l x).tb = s.tb := rfl
@[simp] theorem State.setLink_wa (l : Nat) (x : LinkSt) : (s.setLink l x).wa = s.wa := rfl
@[simp] theorem State.setLink_queues (l : Nat) (x : LinkSt) : (s.setLink l x).queues = s.queues := rfl
@[simp] theorem State.setLink_dma (l : Nat) (x : LinkSt) : (s.setLink l x).dma = s.dma := rfl
@[simp] theorem State.setLink_risers (l : Nat) (x : LinkSt) : (s.setLink l x).risers = s.risers := rfl
@[simp] theorem State.setLink_riserLast (l : Nat) (x : LinkSt) : (s.setLink l x).riserLast = s.riserLast := rfl
@[simp] theorem State.setLink_slots (l : Nat) (x : LinkSt) : (s.setLink l x).slots = s.slots := rfl
@[simp] theorem State.setLink_heldPubs (l : Nat) (x : LinkSt) : (s.setLink l x).heldPubs = s.heldPubs := rfl
@[simp] theorem State.setLink_dram (l : Nat) (x : LinkSt) : (s.setLink l x).dram = s.dram := rfl
@[simp] theorem State.setLink_noc (l : Nat) (x : LinkSt) : (s.setLink l x).noc = s.noc := rfl
@[simp] theorem State.setLink_xg (l : Nat) (x : LinkSt) : (s.setLink l x).xg = s.xg := rfl
@[simp] theorem State.setLink_lanes (l : Nat) (x : LinkSt) : (s.setLink l x).lanes = s.lanes := rfl
@[simp] theorem State.setLink_encR (l : Nat) (x : LinkSt) : (s.setLink l x).encR = s.encR := rfl
@[simp] theorem State.setLink_encE (l : Nat) (x : LinkSt) : (s.setLink l x).encE = s.encE := rfl
@[simp] theorem State.setLink_log (l : Nat) (x : LinkSt) : (s.setLink l x).log = s.log := rfl
@[simp] theorem State.setLink_fab (l : Nat) (x : LinkSt) : (s.setLink l x).fab = s.fab := rfl
@[simp] theorem State.setLink_load (l : Nat) (x : LinkSt) : (s.setLink l x).load = s.load := rfl
@[simp] theorem State.setLink_otp (l : Nat) (x : LinkSt) : (s.setLink l x).otp = s.otp := rfl
@[simp] theorem State.setLink_pwr (l : Nat) (x : LinkSt) : (s.setLink l x).pwr = s.pwr := rfl
@[simp] theorem State.setLink_mbx (l : Nat) (x : LinkSt) : (s.setLink l x).mbx = s.mbx := rfl
@[simp] theorem State.setLink_upd (l : Nat) (x : LinkSt) : (s.setLink l x).upd = s.upd := rfl
@[simp] theorem State.setLink_cores (l : Nat) (x : LinkSt) : (s.setLink l x).cores = s.cores := rfl
@[simp] theorem State.setLink_l2 (l : Nat) (x : LinkSt) : (s.setLink l x).l2 = s.l2 := rfl
@[simp] theorem State.setLink_dbg (l : Nat) (x : LinkSt) : (s.setLink l x).dbg = s.dbg := rfl
@[simp] theorem State.setLink_plic (l : Nat) (x : LinkSt) : (s.setLink l x).plic = s.plic := rfl
@[simp] theorem State.setLink_plicBusy (l : Nat) (x : LinkSt) : (s.setLink l x).plicBusy = s.plicBusy := rfl
@[simp] theorem State.setLink_deferred (l : Nat) (x : LinkSt) : (s.setLink l x).deferred = s.deferred := rfl
@[simp] theorem State.setLink_free (l : Nat) (x : LinkSt) : (s.setLink l x).free = s.free := rfl
@[simp] theorem State.setLink_outbox (l : Nat) (x : LinkSt) : (s.setLink l x).outbox = s.outbox := rfl
@[simp] theorem State.setLink_pending (l : Nat) (x : LinkSt) : (s.setLink l x).pending = s.pending := rfl

/-! ## setTag -/

@[simp] theorem State.setTag_regs (m t : Nat) (x : TagSt) : (s.setTag m t x).regs = s.regs := rfl
@[simp] theorem State.setTag_clk (m t : Nat) (x : TagSt) : (s.setTag m t x).clk = s.clk := rfl
@[simp] theorem State.setTag_pins (m t : Nat) (x : TagSt) : (s.setTag m t x).pins = s.pins := rfl
@[simp] theorem State.setTag_tb (m t : Nat) (x : TagSt) : (s.setTag m t x).tb = s.tb := rfl
@[simp] theorem State.setTag_wa (m t : Nat) (x : TagSt) : (s.setTag m t x).wa = s.wa := rfl
@[simp] theorem State.setTag_queues (m t : Nat) (x : TagSt) : (s.setTag m t x).queues = s.queues := rfl
@[simp] theorem State.setTag_dma (m t : Nat) (x : TagSt) : (s.setTag m t x).dma = s.dma := rfl
@[simp] theorem State.setTag_risers (m t : Nat) (x : TagSt) : (s.setTag m t x).risers = s.risers := rfl
@[simp] theorem State.setTag_riserLast (m t : Nat) (x : TagSt) : (s.setTag m t x).riserLast = s.riserLast := rfl
@[simp] theorem State.setTag_slots (m t : Nat) (x : TagSt) : (s.setTag m t x).slots = s.slots := rfl
@[simp] theorem State.setTag_heldPubs (m t : Nat) (x : TagSt) : (s.setTag m t x).heldPubs = s.heldPubs := rfl
@[simp] theorem State.setTag_dram (m t : Nat) (x : TagSt) : (s.setTag m t x).dram = s.dram := rfl
@[simp] theorem State.setTag_xg (m t : Nat) (x : TagSt) : (s.setTag m t x).xg = s.xg := rfl
@[simp] theorem State.setTag_links (m t : Nat) (x : TagSt) : (s.setTag m t x).links = s.links := rfl
@[simp] theorem State.setTag_lanes (m t : Nat) (x : TagSt) : (s.setTag m t x).lanes = s.lanes := rfl
@[simp] theorem State.setTag_encR (m t : Nat) (x : TagSt) : (s.setTag m t x).encR = s.encR := rfl
@[simp] theorem State.setTag_encE (m t : Nat) (x : TagSt) : (s.setTag m t x).encE = s.encE := rfl
@[simp] theorem State.setTag_log (m t : Nat) (x : TagSt) : (s.setTag m t x).log = s.log := rfl
@[simp] theorem State.setTag_fab (m t : Nat) (x : TagSt) : (s.setTag m t x).fab = s.fab := rfl
@[simp] theorem State.setTag_load (m t : Nat) (x : TagSt) : (s.setTag m t x).load = s.load := rfl
@[simp] theorem State.setTag_otp (m t : Nat) (x : TagSt) : (s.setTag m t x).otp = s.otp := rfl
@[simp] theorem State.setTag_pwr (m t : Nat) (x : TagSt) : (s.setTag m t x).pwr = s.pwr := rfl
@[simp] theorem State.setTag_mbx (m t : Nat) (x : TagSt) : (s.setTag m t x).mbx = s.mbx := rfl
@[simp] theorem State.setTag_upd (m t : Nat) (x : TagSt) : (s.setTag m t x).upd = s.upd := rfl
@[simp] theorem State.setTag_cores (m t : Nat) (x : TagSt) : (s.setTag m t x).cores = s.cores := rfl
@[simp] theorem State.setTag_l2 (m t : Nat) (x : TagSt) : (s.setTag m t x).l2 = s.l2 := rfl
@[simp] theorem State.setTag_dbg (m t : Nat) (x : TagSt) : (s.setTag m t x).dbg = s.dbg := rfl
@[simp] theorem State.setTag_plic (m t : Nat) (x : TagSt) : (s.setTag m t x).plic = s.plic := rfl
@[simp] theorem State.setTag_plicBusy (m t : Nat) (x : TagSt) : (s.setTag m t x).plicBusy = s.plicBusy := rfl
@[simp] theorem State.setTag_deferred (m t : Nat) (x : TagSt) : (s.setTag m t x).deferred = s.deferred := rfl
@[simp] theorem State.setTag_free (m t : Nat) (x : TagSt) : (s.setTag m t x).free = s.free := rfl
@[simp] theorem State.setTag_outbox (m t : Nat) (x : TagSt) : (s.setTag m t x).outbox = s.outbox := rfl
@[simp] theorem State.setTag_pending (m t : Nat) (x : TagSt) : (s.setTag m t x).pending = s.pending := rfl

/-! ## freeTag -/

@[simp] theorem State.freeTag_regs (m t : Nat) : (s.freeTag m t).regs = s.regs := rfl
@[simp] theorem State.freeTag_clk (m t : Nat) : (s.freeTag m t).clk = s.clk := rfl
@[simp] theorem State.freeTag_pins (m t : Nat) : (s.freeTag m t).pins = s.pins := rfl
@[simp] theorem State.freeTag_tb (m t : Nat) : (s.freeTag m t).tb = s.tb := rfl
@[simp] theorem State.freeTag_wa (m t : Nat) : (s.freeTag m t).wa = s.wa := rfl
@[simp] theorem State.freeTag_queues (m t : Nat) : (s.freeTag m t).queues = s.queues := rfl
@[simp] theorem State.freeTag_dma (m t : Nat) : (s.freeTag m t).dma = s.dma := rfl
@[simp] theorem State.freeTag_risers (m t : Nat) : (s.freeTag m t).risers = s.risers := rfl
@[simp] theorem State.freeTag_riserLast (m t : Nat) : (s.freeTag m t).riserLast = s.riserLast := rfl
@[simp] theorem State.freeTag_slots (m t : Nat) : (s.freeTag m t).slots = s.slots := rfl
@[simp] theorem State.freeTag_heldPubs (m t : Nat) : (s.freeTag m t).heldPubs = s.heldPubs := rfl
@[simp] theorem State.freeTag_dram (m t : Nat) : (s.freeTag m t).dram = s.dram := rfl
@[simp] theorem State.freeTag_xg (m t : Nat) : (s.freeTag m t).xg = s.xg := rfl
@[simp] theorem State.freeTag_links (m t : Nat) : (s.freeTag m t).links = s.links := rfl
@[simp] theorem State.freeTag_lanes (m t : Nat) : (s.freeTag m t).lanes = s.lanes := rfl
@[simp] theorem State.freeTag_encR (m t : Nat) : (s.freeTag m t).encR = s.encR := rfl
@[simp] theorem State.freeTag_encE (m t : Nat) : (s.freeTag m t).encE = s.encE := rfl
@[simp] theorem State.freeTag_log (m t : Nat) : (s.freeTag m t).log = s.log := rfl
@[simp] theorem State.freeTag_fab (m t : Nat) : (s.freeTag m t).fab = s.fab := rfl
@[simp] theorem State.freeTag_load (m t : Nat) : (s.freeTag m t).load = s.load := rfl
@[simp] theorem State.freeTag_otp (m t : Nat) : (s.freeTag m t).otp = s.otp := rfl
@[simp] theorem State.freeTag_pwr (m t : Nat) : (s.freeTag m t).pwr = s.pwr := rfl
@[simp] theorem State.freeTag_mbx (m t : Nat) : (s.freeTag m t).mbx = s.mbx := rfl
@[simp] theorem State.freeTag_upd (m t : Nat) : (s.freeTag m t).upd = s.upd := rfl
@[simp] theorem State.freeTag_cores (m t : Nat) : (s.freeTag m t).cores = s.cores := rfl
@[simp] theorem State.freeTag_l2 (m t : Nat) : (s.freeTag m t).l2 = s.l2 := rfl
@[simp] theorem State.freeTag_dbg (m t : Nat) : (s.freeTag m t).dbg = s.dbg := rfl
@[simp] theorem State.freeTag_plic (m t : Nat) : (s.freeTag m t).plic = s.plic := rfl
@[simp] theorem State.freeTag_plicBusy (m t : Nat) : (s.freeTag m t).plicBusy = s.plicBusy := rfl
@[simp] theorem State.freeTag_deferred (m t : Nat) : (s.freeTag m t).deferred = s.deferred := rfl
@[simp] theorem State.freeTag_free (m t : Nat) : (s.freeTag m t).free = s.free := rfl
@[simp] theorem State.freeTag_outbox (m t : Nat) : (s.freeTag m t).outbox = s.outbox := rfl
@[simp] theorem State.freeTag_pending (m t : Nat) : (s.freeTag m t).pending = s.pending := rfl

/-! ## setTrace -/

@[simp] theorem State.setTrace_clk (r : Nat) (x : List (List Byte)) : (s.setTrace r x).clk = s.clk := rfl
@[simp] theorem State.setTrace_pins (r : Nat) (x : List (List Byte)) : (s.setTrace r x).pins = s.pins := rfl
@[simp] theorem State.setTrace_tb (r : Nat) (x : List (List Byte)) : (s.setTrace r x).tb = s.tb := rfl
@[simp] theorem State.setTrace_wa (r : Nat) (x : List (List Byte)) : (s.setTrace r x).wa = s.wa := rfl
@[simp] theorem State.setTrace_queues (r : Nat) (x : List (List Byte)) : (s.setTrace r x).queues = s.queues := rfl
@[simp] theorem State.setTrace_dma (r : Nat) (x : List (List Byte)) : (s.setTrace r x).dma = s.dma := rfl
@[simp] theorem State.setTrace_risers (r : Nat) (x : List (List Byte)) : (s.setTrace r x).risers = s.risers := rfl
@[simp] theorem State.setTrace_riserLast (r : Nat) (x : List (List Byte)) : (s.setTrace r x).riserLast = s.riserLast := rfl
@[simp] theorem State.setTrace_slots (r : Nat) (x : List (List Byte)) : (s.setTrace r x).slots = s.slots := rfl
@[simp] theorem State.setTrace_heldPubs (r : Nat) (x : List (List Byte)) : (s.setTrace r x).heldPubs = s.heldPubs := rfl
@[simp] theorem State.setTrace_dram (r : Nat) (x : List (List Byte)) : (s.setTrace r x).dram = s.dram := rfl
@[simp] theorem State.setTrace_xg (r : Nat) (x : List (List Byte)) : (s.setTrace r x).xg = s.xg := rfl
@[simp] theorem State.setTrace_links (r : Nat) (x : List (List Byte)) : (s.setTrace r x).links = s.links := rfl
@[simp] theorem State.setTrace_lanes (r : Nat) (x : List (List Byte)) : (s.setTrace r x).lanes = s.lanes := rfl
@[simp] theorem State.setTrace_encR (r : Nat) (x : List (List Byte)) : (s.setTrace r x).encR = s.encR := rfl
@[simp] theorem State.setTrace_encE (r : Nat) (x : List (List Byte)) : (s.setTrace r x).encE = s.encE := rfl
@[simp] theorem State.setTrace_log (r : Nat) (x : List (List Byte)) : (s.setTrace r x).log = s.log := rfl
@[simp] theorem State.setTrace_fab (r : Nat) (x : List (List Byte)) : (s.setTrace r x).fab = s.fab := rfl
@[simp] theorem State.setTrace_load (r : Nat) (x : List (List Byte)) : (s.setTrace r x).load = s.load := rfl
@[simp] theorem State.setTrace_otp (r : Nat) (x : List (List Byte)) : (s.setTrace r x).otp = s.otp := rfl
@[simp] theorem State.setTrace_pwr (r : Nat) (x : List (List Byte)) : (s.setTrace r x).pwr = s.pwr := rfl
@[simp] theorem State.setTrace_mbx (r : Nat) (x : List (List Byte)) : (s.setTrace r x).mbx = s.mbx := rfl
@[simp] theorem State.setTrace_upd (r : Nat) (x : List (List Byte)) : (s.setTrace r x).upd = s.upd := rfl
@[simp] theorem State.setTrace_cores (r : Nat) (x : List (List Byte)) : (s.setTrace r x).cores = s.cores := rfl
@[simp] theorem State.setTrace_l2 (r : Nat) (x : List (List Byte)) : (s.setTrace r x).l2 = s.l2 := rfl
@[simp] theorem State.setTrace_dbg (r : Nat) (x : List (List Byte)) : (s.setTrace r x).dbg = s.dbg := rfl
@[simp] theorem State.setTrace_plic (r : Nat) (x : List (List Byte)) : (s.setTrace r x).plic = s.plic := rfl
@[simp] theorem State.setTrace_plicBusy (r : Nat) (x : List (List Byte)) : (s.setTrace r x).plicBusy = s.plicBusy := rfl
@[simp] theorem State.setTrace_deferred (r : Nat) (x : List (List Byte)) : (s.setTrace r x).deferred = s.deferred := rfl
@[simp] theorem State.setTrace_free (r : Nat) (x : List (List Byte)) : (s.setTrace r x).free = s.free := rfl
@[simp] theorem State.setTrace_outbox (r : Nat) (x : List (List Byte)) : (s.setTrace r x).outbox = s.outbox := rfl
@[simp] theorem State.setTrace_pending (r : Nat) (x : List (List Byte)) : (s.setTrace r x).pending = s.pending := rfl

/-! ## setEng -/

@[simp] theorem State.setEng_regs (e : Nat) (x : EncEngine) : (s.setEng e x).regs = s.regs := rfl
@[simp] theorem State.setEng_clk (e : Nat) (x : EncEngine) : (s.setEng e x).clk = s.clk := rfl
@[simp] theorem State.setEng_pins (e : Nat) (x : EncEngine) : (s.setEng e x).pins = s.pins := rfl
@[simp] theorem State.setEng_tb (e : Nat) (x : EncEngine) : (s.setEng e x).tb = s.tb := rfl
@[simp] theorem State.setEng_wa (e : Nat) (x : EncEngine) : (s.setEng e x).wa = s.wa := rfl
@[simp] theorem State.setEng_queues (e : Nat) (x : EncEngine) : (s.setEng e x).queues = s.queues := rfl
@[simp] theorem State.setEng_dma (e : Nat) (x : EncEngine) : (s.setEng e x).dma = s.dma := rfl
@[simp] theorem State.setEng_risers (e : Nat) (x : EncEngine) : (s.setEng e x).risers = s.risers := rfl
@[simp] theorem State.setEng_riserLast (e : Nat) (x : EncEngine) : (s.setEng e x).riserLast = s.riserLast := rfl
@[simp] theorem State.setEng_slots (e : Nat) (x : EncEngine) : (s.setEng e x).slots = s.slots := rfl
@[simp] theorem State.setEng_heldPubs (e : Nat) (x : EncEngine) : (s.setEng e x).heldPubs = s.heldPubs := rfl
@[simp] theorem State.setEng_dram (e : Nat) (x : EncEngine) : (s.setEng e x).dram = s.dram := rfl
@[simp] theorem State.setEng_noc (e : Nat) (x : EncEngine) : (s.setEng e x).noc = s.noc := rfl
@[simp] theorem State.setEng_xg (e : Nat) (x : EncEngine) : (s.setEng e x).xg = s.xg := rfl
@[simp] theorem State.setEng_links (e : Nat) (x : EncEngine) : (s.setEng e x).links = s.links := rfl
@[simp] theorem State.setEng_lanes (e : Nat) (x : EncEngine) : (s.setEng e x).lanes = s.lanes := rfl
@[simp] theorem State.setEng_encR (e : Nat) (x : EncEngine) : (s.setEng e x).encR = s.encR := rfl
@[simp] theorem State.setEng_log (e : Nat) (x : EncEngine) : (s.setEng e x).log = s.log := rfl
@[simp] theorem State.setEng_fab (e : Nat) (x : EncEngine) : (s.setEng e x).fab = s.fab := rfl
@[simp] theorem State.setEng_load (e : Nat) (x : EncEngine) : (s.setEng e x).load = s.load := rfl
@[simp] theorem State.setEng_otp (e : Nat) (x : EncEngine) : (s.setEng e x).otp = s.otp := rfl
@[simp] theorem State.setEng_pwr (e : Nat) (x : EncEngine) : (s.setEng e x).pwr = s.pwr := rfl
@[simp] theorem State.setEng_mbx (e : Nat) (x : EncEngine) : (s.setEng e x).mbx = s.mbx := rfl
@[simp] theorem State.setEng_upd (e : Nat) (x : EncEngine) : (s.setEng e x).upd = s.upd := rfl
@[simp] theorem State.setEng_cores (e : Nat) (x : EncEngine) : (s.setEng e x).cores = s.cores := rfl
@[simp] theorem State.setEng_l2 (e : Nat) (x : EncEngine) : (s.setEng e x).l2 = s.l2 := rfl
@[simp] theorem State.setEng_dbg (e : Nat) (x : EncEngine) : (s.setEng e x).dbg = s.dbg := rfl
@[simp] theorem State.setEng_plic (e : Nat) (x : EncEngine) : (s.setEng e x).plic = s.plic := rfl
@[simp] theorem State.setEng_plicBusy (e : Nat) (x : EncEngine) : (s.setEng e x).plicBusy = s.plicBusy := rfl
@[simp] theorem State.setEng_deferred (e : Nat) (x : EncEngine) : (s.setEng e x).deferred = s.deferred := rfl
@[simp] theorem State.setEng_free (e : Nat) (x : EncEngine) : (s.setEng e x).free = s.free := rfl
@[simp] theorem State.setEng_outbox (e : Nat) (x : EncEngine) : (s.setEng e x).outbox = s.outbox := rfl
@[simp] theorem State.setEng_pending (e : Nat) (x : EncEngine) : (s.setEng e x).pending = s.pending := rfl

/-! ## setEncRgn -/

@[simp] theorem State.setEncRgn_regs (r : Nat) (x : EncRegion) : (s.setEncRgn r x).regs = s.regs := rfl
@[simp] theorem State.setEncRgn_clk (r : Nat) (x : EncRegion) : (s.setEncRgn r x).clk = s.clk := rfl
@[simp] theorem State.setEncRgn_pins (r : Nat) (x : EncRegion) : (s.setEncRgn r x).pins = s.pins := rfl
@[simp] theorem State.setEncRgn_tb (r : Nat) (x : EncRegion) : (s.setEncRgn r x).tb = s.tb := rfl
@[simp] theorem State.setEncRgn_wa (r : Nat) (x : EncRegion) : (s.setEncRgn r x).wa = s.wa := rfl
@[simp] theorem State.setEncRgn_queues (r : Nat) (x : EncRegion) : (s.setEncRgn r x).queues = s.queues := rfl
@[simp] theorem State.setEncRgn_dma (r : Nat) (x : EncRegion) : (s.setEncRgn r x).dma = s.dma := rfl
@[simp] theorem State.setEncRgn_risers (r : Nat) (x : EncRegion) : (s.setEncRgn r x).risers = s.risers := rfl
@[simp] theorem State.setEncRgn_riserLast (r : Nat) (x : EncRegion) : (s.setEncRgn r x).riserLast = s.riserLast := rfl
@[simp] theorem State.setEncRgn_slots (r : Nat) (x : EncRegion) : (s.setEncRgn r x).slots = s.slots := rfl
@[simp] theorem State.setEncRgn_heldPubs (r : Nat) (x : EncRegion) : (s.setEncRgn r x).heldPubs = s.heldPubs := rfl
@[simp] theorem State.setEncRgn_dram (r : Nat) (x : EncRegion) : (s.setEncRgn r x).dram = s.dram := rfl
@[simp] theorem State.setEncRgn_noc (r : Nat) (x : EncRegion) : (s.setEncRgn r x).noc = s.noc := rfl
@[simp] theorem State.setEncRgn_xg (r : Nat) (x : EncRegion) : (s.setEncRgn r x).xg = s.xg := rfl
@[simp] theorem State.setEncRgn_links (r : Nat) (x : EncRegion) : (s.setEncRgn r x).links = s.links := rfl
@[simp] theorem State.setEncRgn_lanes (r : Nat) (x : EncRegion) : (s.setEncRgn r x).lanes = s.lanes := rfl
@[simp] theorem State.setEncRgn_encE (r : Nat) (x : EncRegion) : (s.setEncRgn r x).encE = s.encE := rfl
@[simp] theorem State.setEncRgn_log (r : Nat) (x : EncRegion) : (s.setEncRgn r x).log = s.log := rfl
@[simp] theorem State.setEncRgn_fab (r : Nat) (x : EncRegion) : (s.setEncRgn r x).fab = s.fab := rfl
@[simp] theorem State.setEncRgn_load (r : Nat) (x : EncRegion) : (s.setEncRgn r x).load = s.load := rfl
@[simp] theorem State.setEncRgn_otp (r : Nat) (x : EncRegion) : (s.setEncRgn r x).otp = s.otp := rfl
@[simp] theorem State.setEncRgn_pwr (r : Nat) (x : EncRegion) : (s.setEncRgn r x).pwr = s.pwr := rfl
@[simp] theorem State.setEncRgn_mbx (r : Nat) (x : EncRegion) : (s.setEncRgn r x).mbx = s.mbx := rfl
@[simp] theorem State.setEncRgn_upd (r : Nat) (x : EncRegion) : (s.setEncRgn r x).upd = s.upd := rfl
@[simp] theorem State.setEncRgn_cores (r : Nat) (x : EncRegion) : (s.setEncRgn r x).cores = s.cores := rfl
@[simp] theorem State.setEncRgn_l2 (r : Nat) (x : EncRegion) : (s.setEncRgn r x).l2 = s.l2 := rfl
@[simp] theorem State.setEncRgn_dbg (r : Nat) (x : EncRegion) : (s.setEncRgn r x).dbg = s.dbg := rfl
@[simp] theorem State.setEncRgn_plic (r : Nat) (x : EncRegion) : (s.setEncRgn r x).plic = s.plic := rfl
@[simp] theorem State.setEncRgn_plicBusy (r : Nat) (x : EncRegion) : (s.setEncRgn r x).plicBusy = s.plicBusy := rfl
@[simp] theorem State.setEncRgn_deferred (r : Nat) (x : EncRegion) : (s.setEncRgn r x).deferred = s.deferred := rfl
@[simp] theorem State.setEncRgn_free (r : Nat) (x : EncRegion) : (s.setEncRgn r x).free = s.free := rfl
@[simp] theorem State.setEncRgn_outbox (r : Nat) (x : EncRegion) : (s.setEncRgn r x).outbox = s.outbox := rfl
@[simp] theorem State.setEncRgn_pending (r : Nat) (x : EncRegion) : (s.setEncRgn r x).pending = s.pending := rfl

/-! ## setStage -/

@[simp] theorem State.setStage_regs (l : Nat) (g : LaneStage) : (s.setStage l g).regs = s.regs := rfl
@[simp] theorem State.setStage_clk (l : Nat) (g : LaneStage) : (s.setStage l g).clk = s.clk := rfl
@[simp] theorem State.setStage_pins (l : Nat) (g : LaneStage) : (s.setStage l g).pins = s.pins := rfl
@[simp] theorem State.setStage_tb (l : Nat) (g : LaneStage) : (s.setStage l g).tb = s.tb := rfl
@[simp] theorem State.setStage_wa (l : Nat) (g : LaneStage) : (s.setStage l g).wa = s.wa := rfl
@[simp] theorem State.setStage_queues (l : Nat) (g : LaneStage) : (s.setStage l g).queues = s.queues := rfl
@[simp] theorem State.setStage_dma (l : Nat) (g : LaneStage) : (s.setStage l g).dma = s.dma := rfl
@[simp] theorem State.setStage_risers (l : Nat) (g : LaneStage) : (s.setStage l g).risers = s.risers := rfl
@[simp] theorem State.setStage_riserLast (l : Nat) (g : LaneStage) : (s.setStage l g).riserLast = s.riserLast := rfl
@[simp] theorem State.setStage_slots (l : Nat) (g : LaneStage) : (s.setStage l g).slots = s.slots := rfl
@[simp] theorem State.setStage_heldPubs (l : Nat) (g : LaneStage) : (s.setStage l g).heldPubs = s.heldPubs := rfl
@[simp] theorem State.setStage_dram (l : Nat) (g : LaneStage) : (s.setStage l g).dram = s.dram := rfl
@[simp] theorem State.setStage_noc (l : Nat) (g : LaneStage) : (s.setStage l g).noc = s.noc := rfl
@[simp] theorem State.setStage_xg (l : Nat) (g : LaneStage) : (s.setStage l g).xg = s.xg := rfl
@[simp] theorem State.setStage_links (l : Nat) (g : LaneStage) : (s.setStage l g).links = s.links := rfl
@[simp] theorem State.setStage_encR (l : Nat) (g : LaneStage) : (s.setStage l g).encR = s.encR := rfl
@[simp] theorem State.setStage_encE (l : Nat) (g : LaneStage) : (s.setStage l g).encE = s.encE := rfl
@[simp] theorem State.setStage_log (l : Nat) (g : LaneStage) : (s.setStage l g).log = s.log := rfl
@[simp] theorem State.setStage_fab (l : Nat) (g : LaneStage) : (s.setStage l g).fab = s.fab := rfl
@[simp] theorem State.setStage_load (l : Nat) (g : LaneStage) : (s.setStage l g).load = s.load := rfl
@[simp] theorem State.setStage_otp (l : Nat) (g : LaneStage) : (s.setStage l g).otp = s.otp := rfl
@[simp] theorem State.setStage_pwr (l : Nat) (g : LaneStage) : (s.setStage l g).pwr = s.pwr := rfl
@[simp] theorem State.setStage_mbx (l : Nat) (g : LaneStage) : (s.setStage l g).mbx = s.mbx := rfl
@[simp] theorem State.setStage_upd (l : Nat) (g : LaneStage) : (s.setStage l g).upd = s.upd := rfl
@[simp] theorem State.setStage_cores (l : Nat) (g : LaneStage) : (s.setStage l g).cores = s.cores := rfl
@[simp] theorem State.setStage_l2 (l : Nat) (g : LaneStage) : (s.setStage l g).l2 = s.l2 := rfl
@[simp] theorem State.setStage_dbg (l : Nat) (g : LaneStage) : (s.setStage l g).dbg = s.dbg := rfl
@[simp] theorem State.setStage_plic (l : Nat) (g : LaneStage) : (s.setStage l g).plic = s.plic := rfl
@[simp] theorem State.setStage_plicBusy (l : Nat) (g : LaneStage) : (s.setStage l g).plicBusy = s.plicBusy := rfl
@[simp] theorem State.setStage_deferred (l : Nat) (g : LaneStage) : (s.setStage l g).deferred = s.deferred := rfl
@[simp] theorem State.setStage_free (l : Nat) (g : LaneStage) : (s.setStage l g).free = s.free := rfl
@[simp] theorem State.setStage_outbox (l : Nat) (g : LaneStage) : (s.setStage l g).outbox = s.outbox := rfl
@[simp] theorem State.setStage_pending (l : Nat) (g : LaneStage) : (s.setStage l g).pending = s.pending := rfl

/-! ## setMbx -/

@[simp] theorem State.setMbx_regs (c : Nat) (x : MbxSt) : (s.setMbx c x).regs = s.regs := rfl
@[simp] theorem State.setMbx_clk (c : Nat) (x : MbxSt) : (s.setMbx c x).clk = s.clk := rfl
@[simp] theorem State.setMbx_pins (c : Nat) (x : MbxSt) : (s.setMbx c x).pins = s.pins := rfl
@[simp] theorem State.setMbx_tb (c : Nat) (x : MbxSt) : (s.setMbx c x).tb = s.tb := rfl
@[simp] theorem State.setMbx_wa (c : Nat) (x : MbxSt) : (s.setMbx c x).wa = s.wa := rfl
@[simp] theorem State.setMbx_queues (c : Nat) (x : MbxSt) : (s.setMbx c x).queues = s.queues := rfl
@[simp] theorem State.setMbx_dma (c : Nat) (x : MbxSt) : (s.setMbx c x).dma = s.dma := rfl
@[simp] theorem State.setMbx_risers (c : Nat) (x : MbxSt) : (s.setMbx c x).risers = s.risers := rfl
@[simp] theorem State.setMbx_riserLast (c : Nat) (x : MbxSt) : (s.setMbx c x).riserLast = s.riserLast := rfl
@[simp] theorem State.setMbx_slots (c : Nat) (x : MbxSt) : (s.setMbx c x).slots = s.slots := rfl
@[simp] theorem State.setMbx_heldPubs (c : Nat) (x : MbxSt) : (s.setMbx c x).heldPubs = s.heldPubs := rfl
@[simp] theorem State.setMbx_dram (c : Nat) (x : MbxSt) : (s.setMbx c x).dram = s.dram := rfl
@[simp] theorem State.setMbx_noc (c : Nat) (x : MbxSt) : (s.setMbx c x).noc = s.noc := rfl
@[simp] theorem State.setMbx_xg (c : Nat) (x : MbxSt) : (s.setMbx c x).xg = s.xg := rfl
@[simp] theorem State.setMbx_links (c : Nat) (x : MbxSt) : (s.setMbx c x).links = s.links := rfl
@[simp] theorem State.setMbx_lanes (c : Nat) (x : MbxSt) : (s.setMbx c x).lanes = s.lanes := rfl
@[simp] theorem State.setMbx_encR (c : Nat) (x : MbxSt) : (s.setMbx c x).encR = s.encR := rfl
@[simp] theorem State.setMbx_encE (c : Nat) (x : MbxSt) : (s.setMbx c x).encE = s.encE := rfl
@[simp] theorem State.setMbx_log (c : Nat) (x : MbxSt) : (s.setMbx c x).log = s.log := rfl
@[simp] theorem State.setMbx_fab (c : Nat) (x : MbxSt) : (s.setMbx c x).fab = s.fab := rfl
@[simp] theorem State.setMbx_load (c : Nat) (x : MbxSt) : (s.setMbx c x).load = s.load := rfl
@[simp] theorem State.setMbx_otp (c : Nat) (x : MbxSt) : (s.setMbx c x).otp = s.otp := rfl
@[simp] theorem State.setMbx_pwr (c : Nat) (x : MbxSt) : (s.setMbx c x).pwr = s.pwr := rfl
@[simp] theorem State.setMbx_upd (c : Nat) (x : MbxSt) : (s.setMbx c x).upd = s.upd := rfl
@[simp] theorem State.setMbx_cores (c : Nat) (x : MbxSt) : (s.setMbx c x).cores = s.cores := rfl
@[simp] theorem State.setMbx_l2 (c : Nat) (x : MbxSt) : (s.setMbx c x).l2 = s.l2 := rfl
@[simp] theorem State.setMbx_dbg (c : Nat) (x : MbxSt) : (s.setMbx c x).dbg = s.dbg := rfl
@[simp] theorem State.setMbx_plic (c : Nat) (x : MbxSt) : (s.setMbx c x).plic = s.plic := rfl
@[simp] theorem State.setMbx_plicBusy (c : Nat) (x : MbxSt) : (s.setMbx c x).plicBusy = s.plicBusy := rfl
@[simp] theorem State.setMbx_deferred (c : Nat) (x : MbxSt) : (s.setMbx c x).deferred = s.deferred := rfl
@[simp] theorem State.setMbx_free (c : Nat) (x : MbxSt) : (s.setMbx c x).free = s.free := rfl
@[simp] theorem State.setMbx_outbox (c : Nat) (x : MbxSt) : (s.setMbx c x).outbox = s.outbox := rfl
@[simp] theorem State.setMbx_pending (c : Nat) (x : MbxSt) : (s.setMbx c x).pending = s.pending := rfl

/-! ## setOffset -/

@[simp] theorem State.setOffset_regs (c : Nat) (o : Int) : (s.setOffset c o).regs = s.regs := rfl
@[simp] theorem State.setOffset_clk (c : Nat) (o : Int) : (s.setOffset c o).clk = s.clk := rfl
@[simp] theorem State.setOffset_pins (c : Nat) (o : Int) : (s.setOffset c o).pins = s.pins := rfl
@[simp] theorem State.setOffset_wa (c : Nat) (o : Int) : (s.setOffset c o).wa = s.wa := rfl
@[simp] theorem State.setOffset_queues (c : Nat) (o : Int) : (s.setOffset c o).queues = s.queues := rfl
@[simp] theorem State.setOffset_dma (c : Nat) (o : Int) : (s.setOffset c o).dma = s.dma := rfl
@[simp] theorem State.setOffset_risers (c : Nat) (o : Int) : (s.setOffset c o).risers = s.risers := rfl
@[simp] theorem State.setOffset_riserLast (c : Nat) (o : Int) : (s.setOffset c o).riserLast = s.riserLast := rfl
@[simp] theorem State.setOffset_slots (c : Nat) (o : Int) : (s.setOffset c o).slots = s.slots := rfl
@[simp] theorem State.setOffset_heldPubs (c : Nat) (o : Int) : (s.setOffset c o).heldPubs = s.heldPubs := rfl
@[simp] theorem State.setOffset_dram (c : Nat) (o : Int) : (s.setOffset c o).dram = s.dram := rfl
@[simp] theorem State.setOffset_noc (c : Nat) (o : Int) : (s.setOffset c o).noc = s.noc := rfl
@[simp] theorem State.setOffset_xg (c : Nat) (o : Int) : (s.setOffset c o).xg = s.xg := rfl
@[simp] theorem State.setOffset_links (c : Nat) (o : Int) : (s.setOffset c o).links = s.links := rfl
@[simp] theorem State.setOffset_lanes (c : Nat) (o : Int) : (s.setOffset c o).lanes = s.lanes := rfl
@[simp] theorem State.setOffset_encR (c : Nat) (o : Int) : (s.setOffset c o).encR = s.encR := rfl
@[simp] theorem State.setOffset_encE (c : Nat) (o : Int) : (s.setOffset c o).encE = s.encE := rfl
@[simp] theorem State.setOffset_log (c : Nat) (o : Int) : (s.setOffset c o).log = s.log := rfl
@[simp] theorem State.setOffset_fab (c : Nat) (o : Int) : (s.setOffset c o).fab = s.fab := rfl
@[simp] theorem State.setOffset_load (c : Nat) (o : Int) : (s.setOffset c o).load = s.load := rfl
@[simp] theorem State.setOffset_otp (c : Nat) (o : Int) : (s.setOffset c o).otp = s.otp := rfl
@[simp] theorem State.setOffset_pwr (c : Nat) (o : Int) : (s.setOffset c o).pwr = s.pwr := rfl
@[simp] theorem State.setOffset_mbx (c : Nat) (o : Int) : (s.setOffset c o).mbx = s.mbx := rfl
@[simp] theorem State.setOffset_upd (c : Nat) (o : Int) : (s.setOffset c o).upd = s.upd := rfl
@[simp] theorem State.setOffset_cores (c : Nat) (o : Int) : (s.setOffset c o).cores = s.cores := rfl
@[simp] theorem State.setOffset_l2 (c : Nat) (o : Int) : (s.setOffset c o).l2 = s.l2 := rfl
@[simp] theorem State.setOffset_dbg (c : Nat) (o : Int) : (s.setOffset c o).dbg = s.dbg := rfl
@[simp] theorem State.setOffset_plic (c : Nat) (o : Int) : (s.setOffset c o).plic = s.plic := rfl
@[simp] theorem State.setOffset_plicBusy (c : Nat) (o : Int) : (s.setOffset c o).plicBusy = s.plicBusy := rfl
@[simp] theorem State.setOffset_deferred (c : Nat) (o : Int) : (s.setOffset c o).deferred = s.deferred := rfl
@[simp] theorem State.setOffset_free (c : Nat) (o : Int) : (s.setOffset c o).free = s.free := rfl
@[simp] theorem State.setOffset_outbox (c : Nat) (o : Int) : (s.setOffset c o).outbox = s.outbox := rfl
@[simp] theorem State.setOffset_pending (c : Nat) (o : Int) : (s.setOffset c o).pending = s.pending := rfl

/-! ## setCore -/

@[simp] theorem State.setCore_regs (i : Nat) (x : CoreSt) : (s.setCore i x).regs = s.regs := rfl
@[simp] theorem State.setCore_clk (i : Nat) (x : CoreSt) : (s.setCore i x).clk = s.clk := rfl
@[simp] theorem State.setCore_pins (i : Nat) (x : CoreSt) : (s.setCore i x).pins = s.pins := rfl
@[simp] theorem State.setCore_tb (i : Nat) (x : CoreSt) : (s.setCore i x).tb = s.tb := rfl
@[simp] theorem State.setCore_wa (i : Nat) (x : CoreSt) : (s.setCore i x).wa = s.wa := rfl
@[simp] theorem State.setCore_queues (i : Nat) (x : CoreSt) : (s.setCore i x).queues = s.queues := rfl
@[simp] theorem State.setCore_dma (i : Nat) (x : CoreSt) : (s.setCore i x).dma = s.dma := rfl
@[simp] theorem State.setCore_risers (i : Nat) (x : CoreSt) : (s.setCore i x).risers = s.risers := rfl
@[simp] theorem State.setCore_riserLast (i : Nat) (x : CoreSt) : (s.setCore i x).riserLast = s.riserLast := rfl
@[simp] theorem State.setCore_slots (i : Nat) (x : CoreSt) : (s.setCore i x).slots = s.slots := rfl
@[simp] theorem State.setCore_heldPubs (i : Nat) (x : CoreSt) : (s.setCore i x).heldPubs = s.heldPubs := rfl
@[simp] theorem State.setCore_dram (i : Nat) (x : CoreSt) : (s.setCore i x).dram = s.dram := rfl
@[simp] theorem State.setCore_noc (i : Nat) (x : CoreSt) : (s.setCore i x).noc = s.noc := rfl
@[simp] theorem State.setCore_xg (i : Nat) (x : CoreSt) : (s.setCore i x).xg = s.xg := rfl
@[simp] theorem State.setCore_links (i : Nat) (x : CoreSt) : (s.setCore i x).links = s.links := rfl
@[simp] theorem State.setCore_lanes (i : Nat) (x : CoreSt) : (s.setCore i x).lanes = s.lanes := rfl
@[simp] theorem State.setCore_encR (i : Nat) (x : CoreSt) : (s.setCore i x).encR = s.encR := rfl
@[simp] theorem State.setCore_encE (i : Nat) (x : CoreSt) : (s.setCore i x).encE = s.encE := rfl
@[simp] theorem State.setCore_log (i : Nat) (x : CoreSt) : (s.setCore i x).log = s.log := rfl
@[simp] theorem State.setCore_fab (i : Nat) (x : CoreSt) : (s.setCore i x).fab = s.fab := rfl
@[simp] theorem State.setCore_load (i : Nat) (x : CoreSt) : (s.setCore i x).load = s.load := rfl
@[simp] theorem State.setCore_otp (i : Nat) (x : CoreSt) : (s.setCore i x).otp = s.otp := rfl
@[simp] theorem State.setCore_pwr (i : Nat) (x : CoreSt) : (s.setCore i x).pwr = s.pwr := rfl
@[simp] theorem State.setCore_mbx (i : Nat) (x : CoreSt) : (s.setCore i x).mbx = s.mbx := rfl
@[simp] theorem State.setCore_upd (i : Nat) (x : CoreSt) : (s.setCore i x).upd = s.upd := rfl
@[simp] theorem State.setCore_l2 (i : Nat) (x : CoreSt) : (s.setCore i x).l2 = s.l2 := rfl
@[simp] theorem State.setCore_dbg (i : Nat) (x : CoreSt) : (s.setCore i x).dbg = s.dbg := rfl
@[simp] theorem State.setCore_plic (i : Nat) (x : CoreSt) : (s.setCore i x).plic = s.plic := rfl
@[simp] theorem State.setCore_plicBusy (i : Nat) (x : CoreSt) : (s.setCore i x).plicBusy = s.plicBusy := rfl
@[simp] theorem State.setCore_deferred (i : Nat) (x : CoreSt) : (s.setCore i x).deferred = s.deferred := rfl
@[simp] theorem State.setCore_free (i : Nat) (x : CoreSt) : (s.setCore i x).free = s.free := rfl
@[simp] theorem State.setCore_outbox (i : Nat) (x : CoreSt) : (s.setCore i x).outbox = s.outbox := rfl
@[simp] theorem State.setCore_pending (i : Nat) (x : CoreSt) : (s.setCore i x).pending = s.pending := rfl

/-! ## setHreg -/

@[simp] theorem State.setHreg_regs (h n : Nat) (v : BitVec 64) : (s.setHreg h n v).regs = s.regs := rfl
@[simp] theorem State.setHreg_clk (h n : Nat) (v : BitVec 64) : (s.setHreg h n v).clk = s.clk := rfl
@[simp] theorem State.setHreg_pins (h n : Nat) (v : BitVec 64) : (s.setHreg h n v).pins = s.pins := rfl
@[simp] theorem State.setHreg_tb (h n : Nat) (v : BitVec 64) : (s.setHreg h n v).tb = s.tb := rfl
@[simp] theorem State.setHreg_wa (h n : Nat) (v : BitVec 64) : (s.setHreg h n v).wa = s.wa := rfl
@[simp] theorem State.setHreg_queues (h n : Nat) (v : BitVec 64) : (s.setHreg h n v).queues = s.queues := rfl
@[simp] theorem State.setHreg_dma (h n : Nat) (v : BitVec 64) : (s.setHreg h n v).dma = s.dma := rfl
@[simp] theorem State.setHreg_risers (h n : Nat) (v : BitVec 64) : (s.setHreg h n v).risers = s.risers := rfl
@[simp] theorem State.setHreg_riserLast (h n : Nat) (v : BitVec 64) : (s.setHreg h n v).riserLast = s.riserLast := rfl
@[simp] theorem State.setHreg_slots (h n : Nat) (v : BitVec 64) : (s.setHreg h n v).slots = s.slots := rfl
@[simp] theorem State.setHreg_heldPubs (h n : Nat) (v : BitVec 64) : (s.setHreg h n v).heldPubs = s.heldPubs := rfl
@[simp] theorem State.setHreg_dram (h n : Nat) (v : BitVec 64) : (s.setHreg h n v).dram = s.dram := rfl
@[simp] theorem State.setHreg_noc (h n : Nat) (v : BitVec 64) : (s.setHreg h n v).noc = s.noc := rfl
@[simp] theorem State.setHreg_xg (h n : Nat) (v : BitVec 64) : (s.setHreg h n v).xg = s.xg := rfl
@[simp] theorem State.setHreg_links (h n : Nat) (v : BitVec 64) : (s.setHreg h n v).links = s.links := rfl
@[simp] theorem State.setHreg_lanes (h n : Nat) (v : BitVec 64) : (s.setHreg h n v).lanes = s.lanes := rfl
@[simp] theorem State.setHreg_encR (h n : Nat) (v : BitVec 64) : (s.setHreg h n v).encR = s.encR := rfl
@[simp] theorem State.setHreg_encE (h n : Nat) (v : BitVec 64) : (s.setHreg h n v).encE = s.encE := rfl
@[simp] theorem State.setHreg_log (h n : Nat) (v : BitVec 64) : (s.setHreg h n v).log = s.log := rfl
@[simp] theorem State.setHreg_fab (h n : Nat) (v : BitVec 64) : (s.setHreg h n v).fab = s.fab := rfl
@[simp] theorem State.setHreg_load (h n : Nat) (v : BitVec 64) : (s.setHreg h n v).load = s.load := rfl
@[simp] theorem State.setHreg_otp (h n : Nat) (v : BitVec 64) : (s.setHreg h n v).otp = s.otp := rfl
@[simp] theorem State.setHreg_pwr (h n : Nat) (v : BitVec 64) : (s.setHreg h n v).pwr = s.pwr := rfl
@[simp] theorem State.setHreg_mbx (h n : Nat) (v : BitVec 64) : (s.setHreg h n v).mbx = s.mbx := rfl
@[simp] theorem State.setHreg_upd (h n : Nat) (v : BitVec 64) : (s.setHreg h n v).upd = s.upd := rfl
@[simp] theorem State.setHreg_cores (h n : Nat) (v : BitVec 64) : (s.setHreg h n v).cores = s.cores := rfl
@[simp] theorem State.setHreg_l2 (h n : Nat) (v : BitVec 64) : (s.setHreg h n v).l2 = s.l2 := rfl
@[simp] theorem State.setHreg_plic (h n : Nat) (v : BitVec 64) : (s.setHreg h n v).plic = s.plic := rfl
@[simp] theorem State.setHreg_plicBusy (h n : Nat) (v : BitVec 64) : (s.setHreg h n v).plicBusy = s.plicBusy := rfl
@[simp] theorem State.setHreg_deferred (h n : Nat) (v : BitVec 64) : (s.setHreg h n v).deferred = s.deferred := rfl
@[simp] theorem State.setHreg_free (h n : Nat) (v : BitVec 64) : (s.setHreg h n v).free = s.free := rfl
@[simp] theorem State.setHreg_outbox (h n : Nat) (v : BitVec 64) : (s.setHreg h n v).outbox = s.outbox := rfl
@[simp] theorem State.setHreg_pending (h n : Nat) (v : BitVec 64) : (s.setHreg h n v).pending = s.pending := rfl

/-! ## setDm -/

@[simp] theorem State.setDm_regs (a : Nat) (v : Word32) : (s.setDm a v).regs = s.regs := rfl
@[simp] theorem State.setDm_clk (a : Nat) (v : Word32) : (s.setDm a v).clk = s.clk := rfl
@[simp] theorem State.setDm_pins (a : Nat) (v : Word32) : (s.setDm a v).pins = s.pins := rfl
@[simp] theorem State.setDm_tb (a : Nat) (v : Word32) : (s.setDm a v).tb = s.tb := rfl
@[simp] theorem State.setDm_wa (a : Nat) (v : Word32) : (s.setDm a v).wa = s.wa := rfl
@[simp] theorem State.setDm_queues (a : Nat) (v : Word32) : (s.setDm a v).queues = s.queues := rfl
@[simp] theorem State.setDm_dma (a : Nat) (v : Word32) : (s.setDm a v).dma = s.dma := rfl
@[simp] theorem State.setDm_risers (a : Nat) (v : Word32) : (s.setDm a v).risers = s.risers := rfl
@[simp] theorem State.setDm_riserLast (a : Nat) (v : Word32) : (s.setDm a v).riserLast = s.riserLast := rfl
@[simp] theorem State.setDm_slots (a : Nat) (v : Word32) : (s.setDm a v).slots = s.slots := rfl
@[simp] theorem State.setDm_heldPubs (a : Nat) (v : Word32) : (s.setDm a v).heldPubs = s.heldPubs := rfl
@[simp] theorem State.setDm_dram (a : Nat) (v : Word32) : (s.setDm a v).dram = s.dram := rfl
@[simp] theorem State.setDm_noc (a : Nat) (v : Word32) : (s.setDm a v).noc = s.noc := rfl
@[simp] theorem State.setDm_xg (a : Nat) (v : Word32) : (s.setDm a v).xg = s.xg := rfl
@[simp] theorem State.setDm_links (a : Nat) (v : Word32) : (s.setDm a v).links = s.links := rfl
@[simp] theorem State.setDm_lanes (a : Nat) (v : Word32) : (s.setDm a v).lanes = s.lanes := rfl
@[simp] theorem State.setDm_encR (a : Nat) (v : Word32) : (s.setDm a v).encR = s.encR := rfl
@[simp] theorem State.setDm_encE (a : Nat) (v : Word32) : (s.setDm a v).encE = s.encE := rfl
@[simp] theorem State.setDm_log (a : Nat) (v : Word32) : (s.setDm a v).log = s.log := rfl
@[simp] theorem State.setDm_fab (a : Nat) (v : Word32) : (s.setDm a v).fab = s.fab := rfl
@[simp] theorem State.setDm_load (a : Nat) (v : Word32) : (s.setDm a v).load = s.load := rfl
@[simp] theorem State.setDm_otp (a : Nat) (v : Word32) : (s.setDm a v).otp = s.otp := rfl
@[simp] theorem State.setDm_pwr (a : Nat) (v : Word32) : (s.setDm a v).pwr = s.pwr := rfl
@[simp] theorem State.setDm_mbx (a : Nat) (v : Word32) : (s.setDm a v).mbx = s.mbx := rfl
@[simp] theorem State.setDm_upd (a : Nat) (v : Word32) : (s.setDm a v).upd = s.upd := rfl
@[simp] theorem State.setDm_cores (a : Nat) (v : Word32) : (s.setDm a v).cores = s.cores := rfl
@[simp] theorem State.setDm_l2 (a : Nat) (v : Word32) : (s.setDm a v).l2 = s.l2 := rfl
@[simp] theorem State.setDm_plic (a : Nat) (v : Word32) : (s.setDm a v).plic = s.plic := rfl
@[simp] theorem State.setDm_plicBusy (a : Nat) (v : Word32) : (s.setDm a v).plicBusy = s.plicBusy := rfl
@[simp] theorem State.setDm_deferred (a : Nat) (v : Word32) : (s.setDm a v).deferred = s.deferred := rfl
@[simp] theorem State.setDm_free (a : Nat) (v : Word32) : (s.setDm a v).free = s.free := rfl
@[simp] theorem State.setDm_outbox (a : Nat) (v : Word32) : (s.setDm a v).outbox = s.outbox := rfl
@[simp] theorem State.setDm_pending (a : Nat) (v : Word32) : (s.setDm a v).pending = s.pending := rfl

/-! ## setArbiter -/

@[simp] theorem State.setArbiter_regs (r k : Nat) (x : ArbSt) : (s.setArbiter r k x).regs = s.regs := rfl
@[simp] theorem State.setArbiter_clk (r k : Nat) (x : ArbSt) : (s.setArbiter r k x).clk = s.clk := rfl
@[simp] theorem State.setArbiter_pins (r k : Nat) (x : ArbSt) : (s.setArbiter r k x).pins = s.pins := rfl
@[simp] theorem State.setArbiter_tb (r k : Nat) (x : ArbSt) : (s.setArbiter r k x).tb = s.tb := rfl
@[simp] theorem State.setArbiter_wa (r k : Nat) (x : ArbSt) : (s.setArbiter r k x).wa = s.wa := rfl
@[simp] theorem State.setArbiter_queues (r k : Nat) (x : ArbSt) : (s.setArbiter r k x).queues = s.queues := rfl
@[simp] theorem State.setArbiter_dma (r k : Nat) (x : ArbSt) : (s.setArbiter r k x).dma = s.dma := rfl
@[simp] theorem State.setArbiter_risers (r k : Nat) (x : ArbSt) : (s.setArbiter r k x).risers = s.risers := rfl
@[simp] theorem State.setArbiter_riserLast (r k : Nat) (x : ArbSt) : (s.setArbiter r k x).riserLast = s.riserLast := rfl
@[simp] theorem State.setArbiter_slots (r k : Nat) (x : ArbSt) : (s.setArbiter r k x).slots = s.slots := rfl
@[simp] theorem State.setArbiter_heldPubs (r k : Nat) (x : ArbSt) : (s.setArbiter r k x).heldPubs = s.heldPubs := rfl
@[simp] theorem State.setArbiter_dram (r k : Nat) (x : ArbSt) : (s.setArbiter r k x).dram = s.dram := rfl
@[simp] theorem State.setArbiter_xg (r k : Nat) (x : ArbSt) : (s.setArbiter r k x).xg = s.xg := rfl
@[simp] theorem State.setArbiter_links (r k : Nat) (x : ArbSt) : (s.setArbiter r k x).links = s.links := rfl
@[simp] theorem State.setArbiter_lanes (r k : Nat) (x : ArbSt) : (s.setArbiter r k x).lanes = s.lanes := rfl
@[simp] theorem State.setArbiter_encR (r k : Nat) (x : ArbSt) : (s.setArbiter r k x).encR = s.encR := rfl
@[simp] theorem State.setArbiter_encE (r k : Nat) (x : ArbSt) : (s.setArbiter r k x).encE = s.encE := rfl
@[simp] theorem State.setArbiter_log (r k : Nat) (x : ArbSt) : (s.setArbiter r k x).log = s.log := rfl
@[simp] theorem State.setArbiter_fab (r k : Nat) (x : ArbSt) : (s.setArbiter r k x).fab = s.fab := rfl
@[simp] theorem State.setArbiter_load (r k : Nat) (x : ArbSt) : (s.setArbiter r k x).load = s.load := rfl
@[simp] theorem State.setArbiter_otp (r k : Nat) (x : ArbSt) : (s.setArbiter r k x).otp = s.otp := rfl
@[simp] theorem State.setArbiter_pwr (r k : Nat) (x : ArbSt) : (s.setArbiter r k x).pwr = s.pwr := rfl
@[simp] theorem State.setArbiter_mbx (r k : Nat) (x : ArbSt) : (s.setArbiter r k x).mbx = s.mbx := rfl
@[simp] theorem State.setArbiter_upd (r k : Nat) (x : ArbSt) : (s.setArbiter r k x).upd = s.upd := rfl
@[simp] theorem State.setArbiter_cores (r k : Nat) (x : ArbSt) : (s.setArbiter r k x).cores = s.cores := rfl
@[simp] theorem State.setArbiter_l2 (r k : Nat) (x : ArbSt) : (s.setArbiter r k x).l2 = s.l2 := rfl
@[simp] theorem State.setArbiter_dbg (r k : Nat) (x : ArbSt) : (s.setArbiter r k x).dbg = s.dbg := rfl
@[simp] theorem State.setArbiter_plic (r k : Nat) (x : ArbSt) : (s.setArbiter r k x).plic = s.plic := rfl
@[simp] theorem State.setArbiter_plicBusy (r k : Nat) (x : ArbSt) : (s.setArbiter r k x).plicBusy = s.plicBusy := rfl
@[simp] theorem State.setArbiter_deferred (r k : Nat) (x : ArbSt) : (s.setArbiter r k x).deferred = s.deferred := rfl
@[simp] theorem State.setArbiter_free (r k : Nat) (x : ArbSt) : (s.setArbiter r k x).free = s.free := rfl
@[simp] theorem State.setArbiter_outbox (r k : Nat) (x : ArbSt) : (s.setArbiter r k x).outbox = s.outbox := rfl
@[simp] theorem State.setArbiter_pending (r k : Nat) (x : ArbSt) : (s.setArbiter r k x).pending = s.pending := rfl

/-! ## setWaiting -/

@[simp] theorem State.setWaiting_regs (r k : Nat) (l : List WaitFlit) : (s.setWaiting r k l).regs = s.regs := rfl
@[simp] theorem State.setWaiting_clk (r k : Nat) (l : List WaitFlit) : (s.setWaiting r k l).clk = s.clk := rfl
@[simp] theorem State.setWaiting_pins (r k : Nat) (l : List WaitFlit) : (s.setWaiting r k l).pins = s.pins := rfl
@[simp] theorem State.setWaiting_tb (r k : Nat) (l : List WaitFlit) : (s.setWaiting r k l).tb = s.tb := rfl
@[simp] theorem State.setWaiting_wa (r k : Nat) (l : List WaitFlit) : (s.setWaiting r k l).wa = s.wa := rfl
@[simp] theorem State.setWaiting_queues (r k : Nat) (l : List WaitFlit) : (s.setWaiting r k l).queues = s.queues := rfl
@[simp] theorem State.setWaiting_dma (r k : Nat) (l : List WaitFlit) : (s.setWaiting r k l).dma = s.dma := rfl
@[simp] theorem State.setWaiting_risers (r k : Nat) (l : List WaitFlit) : (s.setWaiting r k l).risers = s.risers := rfl
@[simp] theorem State.setWaiting_riserLast (r k : Nat) (l : List WaitFlit) : (s.setWaiting r k l).riserLast = s.riserLast := rfl
@[simp] theorem State.setWaiting_slots (r k : Nat) (l : List WaitFlit) : (s.setWaiting r k l).slots = s.slots := rfl
@[simp] theorem State.setWaiting_heldPubs (r k : Nat) (l : List WaitFlit) : (s.setWaiting r k l).heldPubs = s.heldPubs := rfl
@[simp] theorem State.setWaiting_dram (r k : Nat) (l : List WaitFlit) : (s.setWaiting r k l).dram = s.dram := rfl
@[simp] theorem State.setWaiting_xg (r k : Nat) (l : List WaitFlit) : (s.setWaiting r k l).xg = s.xg := rfl
@[simp] theorem State.setWaiting_links (r k : Nat) (l : List WaitFlit) : (s.setWaiting r k l).links = s.links := rfl
@[simp] theorem State.setWaiting_lanes (r k : Nat) (l : List WaitFlit) : (s.setWaiting r k l).lanes = s.lanes := rfl
@[simp] theorem State.setWaiting_encR (r k : Nat) (l : List WaitFlit) : (s.setWaiting r k l).encR = s.encR := rfl
@[simp] theorem State.setWaiting_encE (r k : Nat) (l : List WaitFlit) : (s.setWaiting r k l).encE = s.encE := rfl
@[simp] theorem State.setWaiting_log (r k : Nat) (l : List WaitFlit) : (s.setWaiting r k l).log = s.log := rfl
@[simp] theorem State.setWaiting_fab (r k : Nat) (l : List WaitFlit) : (s.setWaiting r k l).fab = s.fab := rfl
@[simp] theorem State.setWaiting_load (r k : Nat) (l : List WaitFlit) : (s.setWaiting r k l).load = s.load := rfl
@[simp] theorem State.setWaiting_otp (r k : Nat) (l : List WaitFlit) : (s.setWaiting r k l).otp = s.otp := rfl
@[simp] theorem State.setWaiting_pwr (r k : Nat) (l : List WaitFlit) : (s.setWaiting r k l).pwr = s.pwr := rfl
@[simp] theorem State.setWaiting_mbx (r k : Nat) (l : List WaitFlit) : (s.setWaiting r k l).mbx = s.mbx := rfl
@[simp] theorem State.setWaiting_upd (r k : Nat) (l : List WaitFlit) : (s.setWaiting r k l).upd = s.upd := rfl
@[simp] theorem State.setWaiting_cores (r k : Nat) (l : List WaitFlit) : (s.setWaiting r k l).cores = s.cores := rfl
@[simp] theorem State.setWaiting_l2 (r k : Nat) (l : List WaitFlit) : (s.setWaiting r k l).l2 = s.l2 := rfl
@[simp] theorem State.setWaiting_dbg (r k : Nat) (l : List WaitFlit) : (s.setWaiting r k l).dbg = s.dbg := rfl
@[simp] theorem State.setWaiting_plic (r k : Nat) (l : List WaitFlit) : (s.setWaiting r k l).plic = s.plic := rfl
@[simp] theorem State.setWaiting_plicBusy (r k : Nat) (l : List WaitFlit) : (s.setWaiting r k l).plicBusy = s.plicBusy := rfl
@[simp] theorem State.setWaiting_deferred (r k : Nat) (l : List WaitFlit) : (s.setWaiting r k l).deferred = s.deferred := rfl
@[simp] theorem State.setWaiting_free (r k : Nat) (l : List WaitFlit) : (s.setWaiting r k l).free = s.free := rfl
@[simp] theorem State.setWaiting_outbox (r k : Nat) (l : List WaitFlit) : (s.setWaiting r k l).outbox = s.outbox := rfl
@[simp] theorem State.setWaiting_pending (r k : Nat) (l : List WaitFlit) : (s.setWaiting r k l).pending = s.pending := rfl

/-! ## setSlot -/

@[simp] theorem State.setSlot_regs (i : Nat) (x : Slot) : (s.setSlot i x).regs = s.regs := rfl
@[simp] theorem State.setSlot_clk (i : Nat) (x : Slot) : (s.setSlot i x).clk = s.clk := rfl
@[simp] theorem State.setSlot_pins (i : Nat) (x : Slot) : (s.setSlot i x).pins = s.pins := rfl
@[simp] theorem State.setSlot_tb (i : Nat) (x : Slot) : (s.setSlot i x).tb = s.tb := rfl
@[simp] theorem State.setSlot_wa (i : Nat) (x : Slot) : (s.setSlot i x).wa = s.wa := rfl
@[simp] theorem State.setSlot_queues (i : Nat) (x : Slot) : (s.setSlot i x).queues = s.queues := rfl
@[simp] theorem State.setSlot_dma (i : Nat) (x : Slot) : (s.setSlot i x).dma = s.dma := rfl
@[simp] theorem State.setSlot_risers (i : Nat) (x : Slot) : (s.setSlot i x).risers = s.risers := rfl
@[simp] theorem State.setSlot_riserLast (i : Nat) (x : Slot) : (s.setSlot i x).riserLast = s.riserLast := rfl
@[simp] theorem State.setSlot_heldPubs (i : Nat) (x : Slot) : (s.setSlot i x).heldPubs = s.heldPubs := rfl
@[simp] theorem State.setSlot_dram (i : Nat) (x : Slot) : (s.setSlot i x).dram = s.dram := rfl
@[simp] theorem State.setSlot_noc (i : Nat) (x : Slot) : (s.setSlot i x).noc = s.noc := rfl
@[simp] theorem State.setSlot_xg (i : Nat) (x : Slot) : (s.setSlot i x).xg = s.xg := rfl
@[simp] theorem State.setSlot_links (i : Nat) (x : Slot) : (s.setSlot i x).links = s.links := rfl
@[simp] theorem State.setSlot_lanes (i : Nat) (x : Slot) : (s.setSlot i x).lanes = s.lanes := rfl
@[simp] theorem State.setSlot_encR (i : Nat) (x : Slot) : (s.setSlot i x).encR = s.encR := rfl
@[simp] theorem State.setSlot_encE (i : Nat) (x : Slot) : (s.setSlot i x).encE = s.encE := rfl
@[simp] theorem State.setSlot_log (i : Nat) (x : Slot) : (s.setSlot i x).log = s.log := rfl
@[simp] theorem State.setSlot_fab (i : Nat) (x : Slot) : (s.setSlot i x).fab = s.fab := rfl
@[simp] theorem State.setSlot_load (i : Nat) (x : Slot) : (s.setSlot i x).load = s.load := rfl
@[simp] theorem State.setSlot_otp (i : Nat) (x : Slot) : (s.setSlot i x).otp = s.otp := rfl
@[simp] theorem State.setSlot_pwr (i : Nat) (x : Slot) : (s.setSlot i x).pwr = s.pwr := rfl
@[simp] theorem State.setSlot_mbx (i : Nat) (x : Slot) : (s.setSlot i x).mbx = s.mbx := rfl
@[simp] theorem State.setSlot_upd (i : Nat) (x : Slot) : (s.setSlot i x).upd = s.upd := rfl
@[simp] theorem State.setSlot_cores (i : Nat) (x : Slot) : (s.setSlot i x).cores = s.cores := rfl
@[simp] theorem State.setSlot_l2 (i : Nat) (x : Slot) : (s.setSlot i x).l2 = s.l2 := rfl
@[simp] theorem State.setSlot_dbg (i : Nat) (x : Slot) : (s.setSlot i x).dbg = s.dbg := rfl
@[simp] theorem State.setSlot_plic (i : Nat) (x : Slot) : (s.setSlot i x).plic = s.plic := rfl
@[simp] theorem State.setSlot_plicBusy (i : Nat) (x : Slot) : (s.setSlot i x).plicBusy = s.plicBusy := rfl
@[simp] theorem State.setSlot_deferred (i : Nat) (x : Slot) : (s.setSlot i x).deferred = s.deferred := rfl
@[simp] theorem State.setSlot_free (i : Nat) (x : Slot) : (s.setSlot i x).free = s.free := rfl
@[simp] theorem State.setSlot_outbox (i : Nat) (x : Slot) : (s.setSlot i x).outbox = s.outbox := rfl
@[simp] theorem State.setSlot_pending (i : Nat) (x : Slot) : (s.setSlot i x).pending = s.pending := rfl

/-! ## setLane -/

@[simp] theorem State.setLane_regs (g k b : Nat) (c : LaneCfg) : (s.setLane g k b c).regs = s.regs := rfl
@[simp] theorem State.setLane_clk (g k b : Nat) (c : LaneCfg) : (s.setLane g k b c).clk = s.clk := rfl
@[simp] theorem State.setLane_pins (g k b : Nat) (c : LaneCfg) : (s.setLane g k b c).pins = s.pins := rfl
@[simp] theorem State.setLane_tb (g k b : Nat) (c : LaneCfg) : (s.setLane g k b c).tb = s.tb := rfl
@[simp] theorem State.setLane_wa (g k b : Nat) (c : LaneCfg) : (s.setLane g k b c).wa = s.wa := rfl
@[simp] theorem State.setLane_queues (g k b : Nat) (c : LaneCfg) : (s.setLane g k b c).queues = s.queues := rfl
@[simp] theorem State.setLane_dma (g k b : Nat) (c : LaneCfg) : (s.setLane g k b c).dma = s.dma := rfl
@[simp] theorem State.setLane_risers (g k b : Nat) (c : LaneCfg) : (s.setLane g k b c).risers = s.risers := rfl
@[simp] theorem State.setLane_riserLast (g k b : Nat) (c : LaneCfg) : (s.setLane g k b c).riserLast = s.riserLast := rfl
@[simp] theorem State.setLane_slots (g k b : Nat) (c : LaneCfg) : (s.setLane g k b c).slots = s.slots := rfl
@[simp] theorem State.setLane_heldPubs (g k b : Nat) (c : LaneCfg) : (s.setLane g k b c).heldPubs = s.heldPubs := rfl
@[simp] theorem State.setLane_dram (g k b : Nat) (c : LaneCfg) : (s.setLane g k b c).dram = s.dram := rfl
@[simp] theorem State.setLane_noc (g k b : Nat) (c : LaneCfg) : (s.setLane g k b c).noc = s.noc := rfl
@[simp] theorem State.setLane_links (g k b : Nat) (c : LaneCfg) : (s.setLane g k b c).links = s.links := rfl
@[simp] theorem State.setLane_lanes (g k b : Nat) (c : LaneCfg) : (s.setLane g k b c).lanes = s.lanes := rfl
@[simp] theorem State.setLane_encR (g k b : Nat) (c : LaneCfg) : (s.setLane g k b c).encR = s.encR := rfl
@[simp] theorem State.setLane_encE (g k b : Nat) (c : LaneCfg) : (s.setLane g k b c).encE = s.encE := rfl
@[simp] theorem State.setLane_log (g k b : Nat) (c : LaneCfg) : (s.setLane g k b c).log = s.log := rfl
@[simp] theorem State.setLane_fab (g k b : Nat) (c : LaneCfg) : (s.setLane g k b c).fab = s.fab := rfl
@[simp] theorem State.setLane_load (g k b : Nat) (c : LaneCfg) : (s.setLane g k b c).load = s.load := rfl
@[simp] theorem State.setLane_otp (g k b : Nat) (c : LaneCfg) : (s.setLane g k b c).otp = s.otp := rfl
@[simp] theorem State.setLane_pwr (g k b : Nat) (c : LaneCfg) : (s.setLane g k b c).pwr = s.pwr := rfl
@[simp] theorem State.setLane_mbx (g k b : Nat) (c : LaneCfg) : (s.setLane g k b c).mbx = s.mbx := rfl
@[simp] theorem State.setLane_upd (g k b : Nat) (c : LaneCfg) : (s.setLane g k b c).upd = s.upd := rfl
@[simp] theorem State.setLane_cores (g k b : Nat) (c : LaneCfg) : (s.setLane g k b c).cores = s.cores := rfl
@[simp] theorem State.setLane_l2 (g k b : Nat) (c : LaneCfg) : (s.setLane g k b c).l2 = s.l2 := rfl
@[simp] theorem State.setLane_dbg (g k b : Nat) (c : LaneCfg) : (s.setLane g k b c).dbg = s.dbg := rfl
@[simp] theorem State.setLane_plic (g k b : Nat) (c : LaneCfg) : (s.setLane g k b c).plic = s.plic := rfl
@[simp] theorem State.setLane_plicBusy (g k b : Nat) (c : LaneCfg) : (s.setLane g k b c).plicBusy = s.plicBusy := rfl
@[simp] theorem State.setLane_deferred (g k b : Nat) (c : LaneCfg) : (s.setLane g k b c).deferred = s.deferred := rfl
@[simp] theorem State.setLane_free (g k b : Nat) (c : LaneCfg) : (s.setLane g k b c).free = s.free := rfl
@[simp] theorem State.setLane_outbox (g k b : Nat) (c : LaneCfg) : (s.setLane g k b c).outbox = s.outbox := rfl
@[simp] theorem State.setLane_pending (g k b : Nat) (c : LaneCfg) : (s.setLane g k b c).pending = s.pending := rfl

/-! ## setBramPort -/

@[simp] theorem State.setBramPort_regs (d b k : Nat) (x : BramPort) : (s.setBramPort d b k x).regs = s.regs := rfl
@[simp] theorem State.setBramPort_clk (d b k : Nat) (x : BramPort) : (s.setBramPort d b k x).clk = s.clk := rfl
@[simp] theorem State.setBramPort_pins (d b k : Nat) (x : BramPort) : (s.setBramPort d b k x).pins = s.pins := rfl
@[simp] theorem State.setBramPort_tb (d b k : Nat) (x : BramPort) : (s.setBramPort d b k x).tb = s.tb := rfl
@[simp] theorem State.setBramPort_wa (d b k : Nat) (x : BramPort) : (s.setBramPort d b k x).wa = s.wa := rfl
@[simp] theorem State.setBramPort_queues (d b k : Nat) (x : BramPort) : (s.setBramPort d b k x).queues = s.queues := rfl
@[simp] theorem State.setBramPort_dma (d b k : Nat) (x : BramPort) : (s.setBramPort d b k x).dma = s.dma := rfl
@[simp] theorem State.setBramPort_risers (d b k : Nat) (x : BramPort) : (s.setBramPort d b k x).risers = s.risers := rfl
@[simp] theorem State.setBramPort_riserLast (d b k : Nat) (x : BramPort) : (s.setBramPort d b k x).riserLast = s.riserLast := rfl
@[simp] theorem State.setBramPort_slots (d b k : Nat) (x : BramPort) : (s.setBramPort d b k x).slots = s.slots := rfl
@[simp] theorem State.setBramPort_heldPubs (d b k : Nat) (x : BramPort) : (s.setBramPort d b k x).heldPubs = s.heldPubs := rfl
@[simp] theorem State.setBramPort_dram (d b k : Nat) (x : BramPort) : (s.setBramPort d b k x).dram = s.dram := rfl
@[simp] theorem State.setBramPort_noc (d b k : Nat) (x : BramPort) : (s.setBramPort d b k x).noc = s.noc := rfl
@[simp] theorem State.setBramPort_xg (d b k : Nat) (x : BramPort) : (s.setBramPort d b k x).xg = s.xg := rfl
@[simp] theorem State.setBramPort_links (d b k : Nat) (x : BramPort) : (s.setBramPort d b k x).links = s.links := rfl
@[simp] theorem State.setBramPort_lanes (d b k : Nat) (x : BramPort) : (s.setBramPort d b k x).lanes = s.lanes := rfl
@[simp] theorem State.setBramPort_encR (d b k : Nat) (x : BramPort) : (s.setBramPort d b k x).encR = s.encR := rfl
@[simp] theorem State.setBramPort_encE (d b k : Nat) (x : BramPort) : (s.setBramPort d b k x).encE = s.encE := rfl
@[simp] theorem State.setBramPort_log (d b k : Nat) (x : BramPort) : (s.setBramPort d b k x).log = s.log := rfl
@[simp] theorem State.setBramPort_load (d b k : Nat) (x : BramPort) : (s.setBramPort d b k x).load = s.load := rfl
@[simp] theorem State.setBramPort_otp (d b k : Nat) (x : BramPort) : (s.setBramPort d b k x).otp = s.otp := rfl
@[simp] theorem State.setBramPort_pwr (d b k : Nat) (x : BramPort) : (s.setBramPort d b k x).pwr = s.pwr := rfl
@[simp] theorem State.setBramPort_mbx (d b k : Nat) (x : BramPort) : (s.setBramPort d b k x).mbx = s.mbx := rfl
@[simp] theorem State.setBramPort_upd (d b k : Nat) (x : BramPort) : (s.setBramPort d b k x).upd = s.upd := rfl
@[simp] theorem State.setBramPort_cores (d b k : Nat) (x : BramPort) : (s.setBramPort d b k x).cores = s.cores := rfl
@[simp] theorem State.setBramPort_l2 (d b k : Nat) (x : BramPort) : (s.setBramPort d b k x).l2 = s.l2 := rfl
@[simp] theorem State.setBramPort_dbg (d b k : Nat) (x : BramPort) : (s.setBramPort d b k x).dbg = s.dbg := rfl
@[simp] theorem State.setBramPort_plic (d b k : Nat) (x : BramPort) : (s.setBramPort d b k x).plic = s.plic := rfl
@[simp] theorem State.setBramPort_plicBusy (d b k : Nat) (x : BramPort) : (s.setBramPort d b k x).plicBusy = s.plicBusy := rfl
@[simp] theorem State.setBramPort_deferred (d b k : Nat) (x : BramPort) : (s.setBramPort d b k x).deferred = s.deferred := rfl
@[simp] theorem State.setBramPort_free (d b k : Nat) (x : BramPort) : (s.setBramPort d b k x).free = s.free := rfl
@[simp] theorem State.setBramPort_outbox (d b k : Nat) (x : BramPort) : (s.setBramPort d b k x).outbox = s.outbox := rfl
@[simp] theorem State.setBramPort_pending (d b k : Nat) (x : BramPort) : (s.setBramPort d b k x).pending = s.pending := rfl

/-! ## setFrame -/

@[simp] theorem State.setFrame_regs (d f : Nat) (l : List Byte) : (s.setFrame d f l).regs = s.regs := rfl
@[simp] theorem State.setFrame_clk (d f : Nat) (l : List Byte) : (s.setFrame d f l).clk = s.clk := rfl
@[simp] theorem State.setFrame_pins (d f : Nat) (l : List Byte) : (s.setFrame d f l).pins = s.pins := rfl
@[simp] theorem State.setFrame_tb (d f : Nat) (l : List Byte) : (s.setFrame d f l).tb = s.tb := rfl
@[simp] theorem State.setFrame_wa (d f : Nat) (l : List Byte) : (s.setFrame d f l).wa = s.wa := rfl
@[simp] theorem State.setFrame_queues (d f : Nat) (l : List Byte) : (s.setFrame d f l).queues = s.queues := rfl
@[simp] theorem State.setFrame_dma (d f : Nat) (l : List Byte) : (s.setFrame d f l).dma = s.dma := rfl
@[simp] theorem State.setFrame_risers (d f : Nat) (l : List Byte) : (s.setFrame d f l).risers = s.risers := rfl
@[simp] theorem State.setFrame_riserLast (d f : Nat) (l : List Byte) : (s.setFrame d f l).riserLast = s.riserLast := rfl
@[simp] theorem State.setFrame_slots (d f : Nat) (l : List Byte) : (s.setFrame d f l).slots = s.slots := rfl
@[simp] theorem State.setFrame_heldPubs (d f : Nat) (l : List Byte) : (s.setFrame d f l).heldPubs = s.heldPubs := rfl
@[simp] theorem State.setFrame_dram (d f : Nat) (l : List Byte) : (s.setFrame d f l).dram = s.dram := rfl
@[simp] theorem State.setFrame_noc (d f : Nat) (l : List Byte) : (s.setFrame d f l).noc = s.noc := rfl
@[simp] theorem State.setFrame_xg (d f : Nat) (l : List Byte) : (s.setFrame d f l).xg = s.xg := rfl
@[simp] theorem State.setFrame_links (d f : Nat) (l : List Byte) : (s.setFrame d f l).links = s.links := rfl
@[simp] theorem State.setFrame_lanes (d f : Nat) (l : List Byte) : (s.setFrame d f l).lanes = s.lanes := rfl
@[simp] theorem State.setFrame_encR (d f : Nat) (l : List Byte) : (s.setFrame d f l).encR = s.encR := rfl
@[simp] theorem State.setFrame_encE (d f : Nat) (l : List Byte) : (s.setFrame d f l).encE = s.encE := rfl
@[simp] theorem State.setFrame_log (d f : Nat) (l : List Byte) : (s.setFrame d f l).log = s.log := rfl
@[simp] theorem State.setFrame_load (d f : Nat) (l : List Byte) : (s.setFrame d f l).load = s.load := rfl
@[simp] theorem State.setFrame_otp (d f : Nat) (l : List Byte) : (s.setFrame d f l).otp = s.otp := rfl
@[simp] theorem State.setFrame_pwr (d f : Nat) (l : List Byte) : (s.setFrame d f l).pwr = s.pwr := rfl
@[simp] theorem State.setFrame_mbx (d f : Nat) (l : List Byte) : (s.setFrame d f l).mbx = s.mbx := rfl
@[simp] theorem State.setFrame_upd (d f : Nat) (l : List Byte) : (s.setFrame d f l).upd = s.upd := rfl
@[simp] theorem State.setFrame_cores (d f : Nat) (l : List Byte) : (s.setFrame d f l).cores = s.cores := rfl
@[simp] theorem State.setFrame_l2 (d f : Nat) (l : List Byte) : (s.setFrame d f l).l2 = s.l2 := rfl
@[simp] theorem State.setFrame_dbg (d f : Nat) (l : List Byte) : (s.setFrame d f l).dbg = s.dbg := rfl
@[simp] theorem State.setFrame_plic (d f : Nat) (l : List Byte) : (s.setFrame d f l).plic = s.plic := rfl
@[simp] theorem State.setFrame_plicBusy (d f : Nat) (l : List Byte) : (s.setFrame d f l).plicBusy = s.plicBusy := rfl
@[simp] theorem State.setFrame_deferred (d f : Nat) (l : List Byte) : (s.setFrame d f l).deferred = s.deferred := rfl
@[simp] theorem State.setFrame_free (d f : Nat) (l : List Byte) : (s.setFrame d f l).free = s.free := rfl
@[simp] theorem State.setFrame_outbox (d f : Nat) (l : List Byte) : (s.setFrame d f l).outbox = s.outbox := rfl
@[simp] theorem State.setFrame_pending (d f : Nat) (l : List Byte) : (s.setFrame d f l).pending = s.pending := rfl

/-! ## setFf -/

@[simp] theorem State.setFf_regs (d c k b : Nat) (v : Bool) : (s.setFf d c k b v).regs = s.regs := rfl
@[simp] theorem State.setFf_clk (d c k b : Nat) (v : Bool) : (s.setFf d c k b v).clk = s.clk := rfl
@[simp] theorem State.setFf_pins (d c k b : Nat) (v : Bool) : (s.setFf d c k b v).pins = s.pins := rfl
@[simp] theorem State.setFf_tb (d c k b : Nat) (v : Bool) : (s.setFf d c k b v).tb = s.tb := rfl
@[simp] theorem State.setFf_wa (d c k b : Nat) (v : Bool) : (s.setFf d c k b v).wa = s.wa := rfl
@[simp] theorem State.setFf_queues (d c k b : Nat) (v : Bool) : (s.setFf d c k b v).queues = s.queues := rfl
@[simp] theorem State.setFf_dma (d c k b : Nat) (v : Bool) : (s.setFf d c k b v).dma = s.dma := rfl
@[simp] theorem State.setFf_risers (d c k b : Nat) (v : Bool) : (s.setFf d c k b v).risers = s.risers := rfl
@[simp] theorem State.setFf_riserLast (d c k b : Nat) (v : Bool) : (s.setFf d c k b v).riserLast = s.riserLast := rfl
@[simp] theorem State.setFf_slots (d c k b : Nat) (v : Bool) : (s.setFf d c k b v).slots = s.slots := rfl
@[simp] theorem State.setFf_heldPubs (d c k b : Nat) (v : Bool) : (s.setFf d c k b v).heldPubs = s.heldPubs := rfl
@[simp] theorem State.setFf_dram (d c k b : Nat) (v : Bool) : (s.setFf d c k b v).dram = s.dram := rfl
@[simp] theorem State.setFf_noc (d c k b : Nat) (v : Bool) : (s.setFf d c k b v).noc = s.noc := rfl
@[simp] theorem State.setFf_xg (d c k b : Nat) (v : Bool) : (s.setFf d c k b v).xg = s.xg := rfl
@[simp] theorem State.setFf_links (d c k b : Nat) (v : Bool) : (s.setFf d c k b v).links = s.links := rfl
@[simp] theorem State.setFf_lanes (d c k b : Nat) (v : Bool) : (s.setFf d c k b v).lanes = s.lanes := rfl
@[simp] theorem State.setFf_encR (d c k b : Nat) (v : Bool) : (s.setFf d c k b v).encR = s.encR := rfl
@[simp] theorem State.setFf_encE (d c k b : Nat) (v : Bool) : (s.setFf d c k b v).encE = s.encE := rfl
@[simp] theorem State.setFf_log (d c k b : Nat) (v : Bool) : (s.setFf d c k b v).log = s.log := rfl
@[simp] theorem State.setFf_load (d c k b : Nat) (v : Bool) : (s.setFf d c k b v).load = s.load := rfl
@[simp] theorem State.setFf_otp (d c k b : Nat) (v : Bool) : (s.setFf d c k b v).otp = s.otp := rfl
@[simp] theorem State.setFf_pwr (d c k b : Nat) (v : Bool) : (s.setFf d c k b v).pwr = s.pwr := rfl
@[simp] theorem State.setFf_mbx (d c k b : Nat) (v : Bool) : (s.setFf d c k b v).mbx = s.mbx := rfl
@[simp] theorem State.setFf_upd (d c k b : Nat) (v : Bool) : (s.setFf d c k b v).upd = s.upd := rfl
@[simp] theorem State.setFf_cores (d c k b : Nat) (v : Bool) : (s.setFf d c k b v).cores = s.cores := rfl
@[simp] theorem State.setFf_l2 (d c k b : Nat) (v : Bool) : (s.setFf d c k b v).l2 = s.l2 := rfl
@[simp] theorem State.setFf_dbg (d c k b : Nat) (v : Bool) : (s.setFf d c k b v).dbg = s.dbg := rfl
@[simp] theorem State.setFf_plic (d c k b : Nat) (v : Bool) : (s.setFf d c k b v).plic = s.plic := rfl
@[simp] theorem State.setFf_plicBusy (d c k b : Nat) (v : Bool) : (s.setFf d c k b v).plicBusy = s.plicBusy := rfl
@[simp] theorem State.setFf_deferred (d c k b : Nat) (v : Bool) : (s.setFf d c k b v).deferred = s.deferred := rfl
@[simp] theorem State.setFf_free (d c k b : Nat) (v : Bool) : (s.setFf d c k b v).free = s.free := rfl
@[simp] theorem State.setFf_outbox (d c k b : Nat) (v : Bool) : (s.setFf d c k b v).outbox = s.outbox := rfl
@[simp] theorem State.setFf_pending (d c k b : Nat) (v : Bool) : (s.setFf d c k b v).pending = s.pending := rfl

/-! ## setMac -/

@[simp] theorem State.setMac_regs (d b : Nat) (x : MacSt) : (s.setMac d b x).regs = s.regs := rfl
@[simp] theorem State.setMac_clk (d b : Nat) (x : MacSt) : (s.setMac d b x).clk = s.clk := rfl
@[simp] theorem State.setMac_pins (d b : Nat) (x : MacSt) : (s.setMac d b x).pins = s.pins := rfl
@[simp] theorem State.setMac_tb (d b : Nat) (x : MacSt) : (s.setMac d b x).tb = s.tb := rfl
@[simp] theorem State.setMac_wa (d b : Nat) (x : MacSt) : (s.setMac d b x).wa = s.wa := rfl
@[simp] theorem State.setMac_queues (d b : Nat) (x : MacSt) : (s.setMac d b x).queues = s.queues := rfl
@[simp] theorem State.setMac_dma (d b : Nat) (x : MacSt) : (s.setMac d b x).dma = s.dma := rfl
@[simp] theorem State.setMac_risers (d b : Nat) (x : MacSt) : (s.setMac d b x).risers = s.risers := rfl
@[simp] theorem State.setMac_riserLast (d b : Nat) (x : MacSt) : (s.setMac d b x).riserLast = s.riserLast := rfl
@[simp] theorem State.setMac_slots (d b : Nat) (x : MacSt) : (s.setMac d b x).slots = s.slots := rfl
@[simp] theorem State.setMac_heldPubs (d b : Nat) (x : MacSt) : (s.setMac d b x).heldPubs = s.heldPubs := rfl
@[simp] theorem State.setMac_dram (d b : Nat) (x : MacSt) : (s.setMac d b x).dram = s.dram := rfl
@[simp] theorem State.setMac_noc (d b : Nat) (x : MacSt) : (s.setMac d b x).noc = s.noc := rfl
@[simp] theorem State.setMac_xg (d b : Nat) (x : MacSt) : (s.setMac d b x).xg = s.xg := rfl
@[simp] theorem State.setMac_links (d b : Nat) (x : MacSt) : (s.setMac d b x).links = s.links := rfl
@[simp] theorem State.setMac_lanes (d b : Nat) (x : MacSt) : (s.setMac d b x).lanes = s.lanes := rfl
@[simp] theorem State.setMac_encR (d b : Nat) (x : MacSt) : (s.setMac d b x).encR = s.encR := rfl
@[simp] theorem State.setMac_encE (d b : Nat) (x : MacSt) : (s.setMac d b x).encE = s.encE := rfl
@[simp] theorem State.setMac_log (d b : Nat) (x : MacSt) : (s.setMac d b x).log = s.log := rfl
@[simp] theorem State.setMac_load (d b : Nat) (x : MacSt) : (s.setMac d b x).load = s.load := rfl
@[simp] theorem State.setMac_otp (d b : Nat) (x : MacSt) : (s.setMac d b x).otp = s.otp := rfl
@[simp] theorem State.setMac_pwr (d b : Nat) (x : MacSt) : (s.setMac d b x).pwr = s.pwr := rfl
@[simp] theorem State.setMac_mbx (d b : Nat) (x : MacSt) : (s.setMac d b x).mbx = s.mbx := rfl
@[simp] theorem State.setMac_upd (d b : Nat) (x : MacSt) : (s.setMac d b x).upd = s.upd := rfl
@[simp] theorem State.setMac_cores (d b : Nat) (x : MacSt) : (s.setMac d b x).cores = s.cores := rfl
@[simp] theorem State.setMac_l2 (d b : Nat) (x : MacSt) : (s.setMac d b x).l2 = s.l2 := rfl
@[simp] theorem State.setMac_dbg (d b : Nat) (x : MacSt) : (s.setMac d b x).dbg = s.dbg := rfl
@[simp] theorem State.setMac_plic (d b : Nat) (x : MacSt) : (s.setMac d b x).plic = s.plic := rfl
@[simp] theorem State.setMac_plicBusy (d b : Nat) (x : MacSt) : (s.setMac d b x).plicBusy = s.plicBusy := rfl
@[simp] theorem State.setMac_deferred (d b : Nat) (x : MacSt) : (s.setMac d b x).deferred = s.deferred := rfl
@[simp] theorem State.setMac_free (d b : Nat) (x : MacSt) : (s.setMac d b x).free = s.free := rfl
@[simp] theorem State.setMac_outbox (d b : Nat) (x : MacSt) : (s.setMac d b x).outbox = s.outbox := rfl
@[simp] theorem State.setMac_pending (d b : Nat) (x : MacSt) : (s.setMac d b x).pending = s.pending := rfl

/-! ## setClk -/

@[simp] theorem State.setClk_regs (p : ClkPhase) : (s.setClk p).regs = s.regs := rfl
@[simp] theorem State.setClk_pins (p : ClkPhase) : (s.setClk p).pins = s.pins := rfl
@[simp] theorem State.setClk_tb (p : ClkPhase) : (s.setClk p).tb = s.tb := rfl
@[simp] theorem State.setClk_wa (p : ClkPhase) : (s.setClk p).wa = s.wa := rfl
@[simp] theorem State.setClk_queues (p : ClkPhase) : (s.setClk p).queues = s.queues := rfl
@[simp] theorem State.setClk_dma (p : ClkPhase) : (s.setClk p).dma = s.dma := rfl
@[simp] theorem State.setClk_risers (p : ClkPhase) : (s.setClk p).risers = s.risers := rfl
@[simp] theorem State.setClk_riserLast (p : ClkPhase) : (s.setClk p).riserLast = s.riserLast := rfl
@[simp] theorem State.setClk_slots (p : ClkPhase) : (s.setClk p).slots = s.slots := rfl
@[simp] theorem State.setClk_heldPubs (p : ClkPhase) : (s.setClk p).heldPubs = s.heldPubs := rfl
@[simp] theorem State.setClk_dram (p : ClkPhase) : (s.setClk p).dram = s.dram := rfl
@[simp] theorem State.setClk_noc (p : ClkPhase) : (s.setClk p).noc = s.noc := rfl
@[simp] theorem State.setClk_xg (p : ClkPhase) : (s.setClk p).xg = s.xg := rfl
@[simp] theorem State.setClk_links (p : ClkPhase) : (s.setClk p).links = s.links := rfl
@[simp] theorem State.setClk_lanes (p : ClkPhase) : (s.setClk p).lanes = s.lanes := rfl
@[simp] theorem State.setClk_encR (p : ClkPhase) : (s.setClk p).encR = s.encR := rfl
@[simp] theorem State.setClk_encE (p : ClkPhase) : (s.setClk p).encE = s.encE := rfl
@[simp] theorem State.setClk_log (p : ClkPhase) : (s.setClk p).log = s.log := rfl
@[simp] theorem State.setClk_fab (p : ClkPhase) : (s.setClk p).fab = s.fab := rfl
@[simp] theorem State.setClk_load (p : ClkPhase) : (s.setClk p).load = s.load := rfl
@[simp] theorem State.setClk_otp (p : ClkPhase) : (s.setClk p).otp = s.otp := rfl
@[simp] theorem State.setClk_pwr (p : ClkPhase) : (s.setClk p).pwr = s.pwr := rfl
@[simp] theorem State.setClk_mbx (p : ClkPhase) : (s.setClk p).mbx = s.mbx := rfl
@[simp] theorem State.setClk_upd (p : ClkPhase) : (s.setClk p).upd = s.upd := rfl
@[simp] theorem State.setClk_cores (p : ClkPhase) : (s.setClk p).cores = s.cores := rfl
@[simp] theorem State.setClk_l2 (p : ClkPhase) : (s.setClk p).l2 = s.l2 := rfl
@[simp] theorem State.setClk_dbg (p : ClkPhase) : (s.setClk p).dbg = s.dbg := rfl
@[simp] theorem State.setClk_plic (p : ClkPhase) : (s.setClk p).plic = s.plic := rfl
@[simp] theorem State.setClk_plicBusy (p : ClkPhase) : (s.setClk p).plicBusy = s.plicBusy := rfl
@[simp] theorem State.setClk_deferred (p : ClkPhase) : (s.setClk p).deferred = s.deferred := rfl
@[simp] theorem State.setClk_free (p : ClkPhase) : (s.setClk p).free = s.free := rfl
@[simp] theorem State.setClk_outbox (p : ClkPhase) : (s.setClk p).outbox = s.outbox := rfl
@[simp] theorem State.setClk_pending (p : ClkPhase) : (s.setClk p).pending = s.pending := rfl

end Sys2Proof.Machine
end

