-- ==== Sys2Proof/Tests/Slice0.lean ====
section
/-!
SUPPORT. Sys2Proof/Tests/Slice0.lean: small tests of single steps, ill-formed terms that the check refuses, and for every
statement with hypotheses concrete states and operands that meet them.
-/

section

set_option Elab.async false

namespace Sys2Proof.Tests

open Sys2Proof.Machine

/-! ## States and operands for tests -/

/-- The reset state with fields of registers set. -/
def set_ (l : List (Fld × List Nat × Nat)) : State := l.foldl (fun s x => s.put x.1 x.2.1 x.2.2) State.reset

/-- The same, with the clocks locked and the timebase at `t` running. -/
def run_ (l : List (Fld × List Nat × Nat)) (t : Nat := 0) : State :=
  let s := set_ l
  { s with clk := { s.clk with phase := .running }, tb := { s.tb with running := true, count := t } }

/-- Requesters: a host port, the MC, the debug system bus, core 0, the riser engine. -/
def host : Src := ⟨58, 0, false, false⟩
def mc : Src := ⟨60, 0, false, false⟩
def dbgBus : Src := ⟨61, 0, false, false⟩
def core0 : Src := ⟨57, 0, true, false⟩
def none_ : Src := ⟨62, 0, false, false⟩

/-- A read or a write of `n` bytes at an address, by a requester. -/
def rd (q : Src) (a n : Nat) : Req := ⟨q, 0, 0, 0, false, BitVec.ofNat 48 a, n, [], [], 0#16⟩
def wr (q : Src) (a : Nat) (d : List Byte) : Req := ⟨q, 0, 0, 0, true, BitVec.ofNat 48 a, d.length, d, [], 0#16⟩

/-- The first bytes of a casting-image header: kind, die mask, place, chunk count, body length. -/
def hdr (kind mask place chunks body : Nat) : List Byte :=
  List.replicate 9 0#8 ++ leBytes 1 kind ++ [0#8, 0#8, 0#8] ++ leBytes 1 place ++ leBytes 1 mask ++ [0#8] ++ List.replicate 8 0#8
    ++ leBytes 8 body ++ leBytes 4 chunks

/-- A record: its header, data and padding. -/
def record (kind die count addr : Nat) (data : List Byte) : List Byte :=
  leBytes 1 kind ++ leBytes 1 die ++ [0#8, 0#8] ++ leBytes 4 count ++ leBytes 8 addr ++ data
    ++ List.replicate ((16 - data.length % 16) % 16) 0#8

/-- A load under way at a stage, from a source, with a header. -/
def load_ (stage : LoadStage) (src : Nat) (h : List Byte) (s : State := run_ []) : State :=
  { s with load := { s.load with stage := stage, src := src, hdr := h, native := h } }

/-- A load whose chunk has the bytes `b` left to read. -/
def chunk_ (b : List Byte) (h : List Byte := hdr 1 1 0 2 65552) : State :=
  let s := load_ .write 1 h
  { s with load := { s.load with inChunk := true, rest := b, chunk := 1 } }

/-- A commit record. -/
def commit1 : Sys2Proof.Commit := ⟨7, 2, 0, 0, 3, [], [], [], []⟩
/-! ## Word cells, tiles, slots and queues -/

/-- The fields of an instruction word. -/
def flds (sa sb dst sh : Nat) : Fields :=
  { fieldsOf 0#32 with sa := BitVec.ofNat 5 sa, sb := BitVec.ofNat 5 sb, dst := BitVec.ofNat 5 dst, sh := BitVec.ofNat 5 sh }

/-- Cell 15 of the last tile of die 3; a gang of four cells led by cell 12 there. -/
def cellZ : CellId := ⟨3, 2047, 15⟩
def leadZ : CellId := ⟨3, 2047, 12⟩
def ganged : State :=
  let t := State.reset.tile 3 2047
  State.reset.setTile 3 2047 { t with cur := { t.cur with words := List.replicate 16 (some 0#64) ++ [some (BitVec.ofNat 64 (2 * 2 ^ 52))] } }

/-- D registers of the cells of tile 2047 of die 3 hold `v`, and their accumulators 0. -/
def withD (v : Nat) (s : State := State.reset) : State :=
  s.setDie 3 { s.die 3 with dreg := (List.range 16).map (fun k => (dregKey (cellKey 2047 k) 0 0, mkByte v)) }

theorem wit_CellArithmetic :
    CellReady (withD 0x80) cellZ (flds 0 0 0 0) 0x80 0x80 ∧ plainSel (flds 0 0 0 0).dst.toNat = true ∧
    (flds 0 0 0 0).sh.toNat % 4 < (ctxOf (withD 0x80) cellZ).g := by
  refine ⟨⟨by decide, by decide, by decide, by rfl, by rfl, by decide⟩, by decide, by decide⟩

/-- The same in a gang of four, with the byte of B that is the gang's top one. -/
theorem wit_CellArithmetic_gang :
    (ctxOf ganged leadZ).g = 4 ∧ CellReady (withD 0x80 ganged) leadZ (flds 0 0 0 3) 0x80808080 0x80808080 ∧
    (flds 0 0 0 3).sh.toNat % 4 < (ctxOf (withD 0x80 ganged) leadZ).g := by
  refine ⟨by decide, ⟨by decide, by decide, by decide, by rfl, by rfl, by decide⟩, by decide⟩

theorem wit_ShiftResults :
    CellReady (withD 0x80) cellZ (flds 0 0x17 0 31) 0x80 0 ∧ (flds 0 0x17 0 31).sb = 0x17#5 ∧
    valueOf 8 false 0x80 = -128 ∧ plainSel (flds 0 0x17 0 31).dst.toNat = true := by
  refine ⟨⟨by decide, by decide, by decide, by rfl, by rfl, by decide⟩, by decide, by decide, by decide⟩

theorem wit_CellShiftMoveSelectCompare :
    CellReady (withD 1) cellZ (flds 0 0 0 7) 1 1 ∧
    (issues (withD 1) (ctxOf (withD 1) cellZ) = true ∧ scaledSel 0x16 = true ∧ plainSel 0 = true) := by
  refine ⟨⟨by decide, by decide, by decide, by rfl, by rfl, by decide⟩, by decide⟩

/-- A scaled source: the accumulator of a cell reads 0. -/
theorem wit_CellShiftMoveSelectCompare_scaled :
    (readScaled (withD 1) (ctxOf (withD 1) cellZ) 0x1D).value = some 0 ∧ scaledSel 0x1D = true ∧
    ptrFails (withD 1) (ctxOf (withD 1) cellZ) (flds 0x1D 0 0 31) [0x1D] none = [] ∧
    ptrFails (withD 1) (ctxOf (withD 1) cellZ) (flds 0 0 0x14 31) [0] (some 0x14) = [] := by decide

theorem wit_CellAccumulate :
    AccReads State.reset (ctxOf State.reset cellZ) 1 0 ∧ CellReady State.reset cellZ (flds 0 0 0x17 0) 0 0 ∧
    readCinX State.reset (ctxOf State.reset cellZ) = some 0 ∧ (ctxOf State.reset cellZ).g = 1 ∧
    ptrFails State.reset (ctxOf State.reset cellZ) (flds 0 0 2 1) [] none = [] := by
  refine ⟨by rfl, ⟨by decide, by decide, by decide, by rfl, by rfl, by decide⟩, by decide, by decide, by decide⟩

/-- TAP: the pointer, the store byte and the D register it reads. -/
theorem wit_CellAccumulate_tap :
    ptrOk (SMap.get ptr0 (State.reset.die 3).ptr (accKey (cellKey 2047 15) 0 0)) = true ∧
    (State.reset.die 3).readStore (cellKey 2047 15) 0 1 false = .val 0 ∧
    rdByte (SMap.get byte0 (State.reset.die 3).dreg (dregKey (cellKey 2047 15) 0 0)) = .val 0 := by decide

/-- An operand with valid 0: an input of a cell into which nothing flows. -/
theorem wit_CellNulls :
    State.reset.readOperand 3 2047 15 1 0 0x13 false = ⟨none, [], false⟩ ∧ State.reset.readOperand 3 2047 15 1 0 0 false = ⟨some 0, [], false⟩ ∧
    plainSel 0x13 = true ∧ twoStore (flds 0x13 0 0 0) = false ∧
    ptrFails State.reset (ctxOf State.reset cellZ) (flds 0x13 0 0 0) [0x13, 0] none = [] ∧
    issues State.reset (ctxOf State.reset cellZ) = true ∧ opKnown 0x3F = false ∧ opKnown 0 = true ∧
    wordBadSel 0 (fieldsOf 0#32) = false ∧ wordBadForm 0 (fieldsOf 0#32) 1 = false ∧
    issues ganged (ctxOf ganged cellZ) = false := by decide

theorem wit_PointerUpdates :
    issues ganged (ctxOf ganged leadZ) = true ∧ ptrFails ganged (ctxOf ganged leadZ) { flds 0 0 0 0 with p0u := 2#2, p1u := 1#2 } [] none = [] ∧
    ((ganged.die 3).tile 2047).cur.base0 = some 0 := by decide

theorem wit_CellInstructionFrame : ∃ t, exec (.illegalInstruction cellZ 0xFFFFFFFF#32) State.reset = .next t := ⟨_, rfl⟩

theorem wit_TileCommands :
    (run_ []).runs 19 = true ∧ State.reset.runs 19 = false ∧ (run_ []).haltOf 3 2047 = false ∧
    (run_ [(F.wtCtrl_halt, [3, 2047], 1)]).haltOf 3 2047 = true ∧ ((run_ []).tile 3 2047).running = false ∧
    ((run_ []).die 3).readCw 2047 (cwSched 0) = .clean 0 ∧ ((run_ []).die 3).readCw 2047 (cwMould 0 16) = .clean 0 := by decide

/-- A tile as given. -/
def tiled (x : TileSt) (l : List (Fld × List Nat × Nat) := []) : State := (run_ l).setTile 0 0 x

theorem wit_PourScrubAndPreemption :
    (let x := (tiled { (default : TileSt) with running := true }).tile 0 0
     x.running = true ∧ x.pos = none ∧ x.endAt ≤ ((run_ []).die 0).cycle) ∧
    ((run_ []).tile 0 0).memFree = true ∧ (run_ []).runs 16 = true ∧ ((run_ []).die 0).readCw 0 335 = .clean 0 ∧
    (let x := (tiled { (default : TileSt) with wb := [(335, 0#72)] }).tile 0 0
     x.wb = [(335, 0#72)] ∧ x.memFree = true) ∧
    (let s := tiled { (default : TileSt) with lead := { (default : TileSt).lead with preFab := true } } [(F.waStat_held, [0], 0)]
     (s.tile 0 0).lead.preFab = true ∧ s.held 0 = false ∧ s.flag F.ftlFlask_iso [flaskOfTile 0] = false) ∧
    (run_ [(F.ftlFlask_iso, [63], 1)]).flag F.ftlFlask_iso [16 * 3 + flaskOfTile 2047] = true ∧
    (let x := (tiled { (default : TileSt) with evt := true, mayTake := true }).tile 0 0
     x.evt = true ∧ x.mayTake = true ∧ x.slot = false ∧ x.urgent = .off) ∧
    (let x := (tiled { (default : TileSt) with urgent := .run }).tile 0 0
     x.urgent = .run ∧ x.upos = none ∧ x.ticksHeld = [] ∧ x.pos = none) := by decide

/-- Accesses of a tile window: base of tile 2047 of die 3. -/
def tileZ : Nat := 0x033007FF0000

theorem wit_TileWindowAccesses :
    (tileWindow (tileZ + 0x2000) = some (3, 2047, 0x2000) ∧ sizeOk [4, 8, 16, 32, 64] 0x2000 64 256 = true ∧
      (wr host (tileZ + 0x2000) (List.replicate 64 0#8)).data.length = (wr host (tileZ + 0x2000) (List.replicate 64 0#8)).len) ∧
    (run_ []).runs 19 = true ∧ (run_ []).openTile 3 2047 = true ∧ (run_ [(F.waStat_held, [3], 0)]).openTile 3 2047 = false ∧
    slotNamed (((run_ []).writeCw 3 2047 (cwSched 0) 0xFFFFFFFF).die 3) 2047 15 = true ∧ slotNamed ((run_ []).die 3) 2047 15 = false ∧
    (wr host tileZ []).badPar = [] ∧ ({ wr host tileZ [] with badPar := [0] }).badPar ≠ [] ∧ sizeOk [4, 8, 16, 32, 64] 0x307C 4 128 = true ∧ sizeOk [4, 8, 16, 32, 64] 0x3080 64 128 = true ∧
    sizeOk [1, 2, 4, 8, 16, 32, 64] 0x1FFF 1 512 = true := by decide

theorem wit_TileWindowAccesses_done :
    (let x : StoreWait := ⟨rd host (tileZ + 511) 1, 2047, 0, 511⟩
     let s := (run_ []).setDie 3 { (run_ []).die 3 with waits := [x] }
     (s.die 3).waits.find? (fun y => y.tile == 2047 && y.cell == 0) = some x ∧ (s.die 3).phaseBFree (cellKey 2047 0) = true ∧
      ((List.range 1).map (fun i => SMap.get byte0 (s.die 3).store (storeKey (cellKey 2047 0) (511 + i)))).all byteOk = true) := by decide

theorem wit_MouldReadBack : 335 < 336 ∧ ((3, 2047, 335) : Nat × Nat × Nat) ≠ (3, 2047, 334) := by decide

/-- Slot 4,095, where a publish and an acknowledge arrive. -/
def slotZ : Nat := 0x0F0000100000 + 64 * 4095

theorem wit_ResultSlotCommands :
    slotOf slotZ = some (4095, 0) ∧ slotOf (slotZ + 56) = some (4095, 56) ∧ (run_ []).flag F.rslPol_en [4095] = false ∧
    (run_ [(F.rslPol_en, [4095], 1), (F.rslPol_pol, [4095], 1)]).flag F.rslPol_en [4095] = true ∧
    (run_ [(F.rslPol_en, [4095], 1), (F.rslPol_pol, [4095], 1)]).flag F.rslPol_pol [4095] = true ∧
    (let s := (run_ []).setSlot 4095 ⟨[], 1#32, true, true⟩
     (s.slot 4095).valid = true ∧ leNat (leBytes 4 1) = (s.slot 4095).seq.toNat) ∧
    (wr host slotZ (List.replicate 64 1#8)).badPar = [] := by decide

theorem wit_HeldPublishes :
    (let s := (run_ [(F.rslPol_en, [0], 1)]).setSlot 0 ⟨[], 1#32, true, false⟩
     s.flag F.rslPol_en [0] = true ∧ s.flag F.rslPol_pol [0] = false ∧ (s.slot 0).valid = true ∧ s.heldPubs.length < 64) ∧
    64 ≤ (List.replicate 64 (⟨0, wr host 0 []⟩ : HeldPub)).length ∧ ({ State.reset with clk := { State.reset.clk with phase := .outage } } : State).regWaits .rslPol = true ∧ (run_ []).regWaits .rslPol = false ∧
    (let s := ({ run_ [] with heldPubs := [⟨4095, wr host 0 []⟩] } : State)
     (s.slot 4095).valid = false ∧ s.heldPubs = [] ++ ⟨4095, wr host 0 []⟩ :: []) ∧
    ((run_ []).writeReg .rslPol [4095] 0#32).flag F.rslPol_en [4095] = false ∧
    ((run_ []).writeReg .rslPol [4095] 0xFFFFFFFF#32).flag F.rslPol_en [4095] = true ∧
    (run_ [(F.rslPol_pol, [4095], 1)]).flag F.rslPol_pol [4095] = true := by decide

/-- A beat whose bytes have good parity. -/
def beat1 (last : Bool) : Beat := ⟨0#128, 0xFFFF#16, last, false⟩

theorem wit_QueueBeats :
    (let s := run_ [(F.waSqCfg_en, [3, 63], 1), (F.waSqCfg_pkt, [3, 63], 1)]
     s.sqFabric 3 63 = true ∧ s.egress 3 63 = false ∧ s.sqEn 3 63 = true ∧ s.sqRiser 3 63 = false ∧ (s.queue 3 63).commit = 0 ∧
      (s.queue 3 63).beats.length + 1 < s.sqDepth 3 63 + (s.queue 3 63).commit ∧ (s.queue 3 63).flushing = false ∧ (s.queue 3 63).beats.length + (s.queue 3 63).unseenR < s.sqDepth 3 63 ∧
      s.sqPkt 3 63 = true ∧ (s.queue 3 63).dropping = false) ∧
    (beat1 true).parOk = true ∧ (beat1 true).last = true ∧ (beat1 false).last = false ∧ (run_ []).sqEn 0 0 = false ∧ (run_ []).sqPkt 0 0 = false ∧
    (let s := (run_ [(F.waPortCfg_dir, [0, 0], 1), (F.waSqCfg_en, [0, 0], 1)]).setQueue 0 0
        { (default : QueueSt) with beats := [beat1 false] }
     s.sqFabric 0 0 = true ∧ s.egress 0 0 = true ∧ s.sqEn 0 0 = true ∧ s.sqRiser 0 0 = false ∧ 0 < s.sqVisible 0 0 ∧ (run_ []).sqVisible 0 0 = 0 ∧ (s.queue 0 0).beats = [beat1 false] ∧ (s.queue 0 1).beats = []) := by decide

/-! ## Queue registers, ports, stream DMA and risers -/

/-- Queue 63 of die 3 as given, with fields set. -/
def queued (x : QueueSt) (l : List (Fld × List Nat × Nat)) : State := (run_ l).setQueue 3 63 x
def emptyQ : QueueSt := default

theorem wit_QueueRegisterCommands :
    (run_ []).regWaits .waSqCfg = false ∧ ((queued { emptyQ with flushing := true, rslot := some 31 } []).queue 3 63).rslot = some 31 ∧
    (queued { emptyQ with flushing := true } []).sqNamed 3 63 = none ∧ emptyQ.rslot = none ∧
    (run_ [(F.waSqCfg_riser, [3, 63], 1), (F.waSqCfg_rslot, [3, 63], 31)]).sqNamed 3 63 = some 31 ∧
    (run_ [(F.waSqCfg_riser, [3, 63], 1), (F.waSqCfg_rslot, [3, 63], 31)]).riserOk 3 63 31 = false ∧
    ((run_ []).queue 3 63).flushing = false ∧ ((queued { emptyQ with flushing := true } []).queue 3 63).flushing = true ∧
    F.waSqCfg_flush.of (F.waSqCfg_en.put 0#32 1) = 0 ∧ F.waSqCfg_en.of (F.waSqCfg_en.put 0#32 1) = 1 ∧
    (run_ [(F.waSqCfg_en, [3, 63], 1)]).sqEn 3 63 = true ∧ (run_ []).held 3 = true ∧ (run_ [(F.waStat_held, [3], 0)]).held 3 = false ∧
    (let s := queued { emptyQ with beats := [beat1 false] }
        [(F.waSqCfg_attach, [3, 63], 2), (F.waPortCfg_dir, [3, 63], 1), (F.waSqCfg_en, [3, 63], 1)]
     s.get F.waSqCfg_attach [3, 63] = 2 ∧ s.egress 3 63 = true ∧ s.sqEn 3 63 = true ∧ 0 < s.sqVisible 3 63 ∧
      (s.queue 3 63).beats = [beat1 false]) := by decide

theorem wit_QueueRegisterCommands_push :
    (let s := run_ [(F.waSqCfg_attach, [3, 63], 2), (F.waSqCfg_en, [3, 63], 1)]
     s.sqWritable 3 63 = true ∧ s.sqFull 3 63 = false ∧ s.sqPkt 3 63 = false ∧ (s.queue 3 63).dropping = false) ∧ (run_ []).sqWritable 3 63 = false ∧
    (queued { emptyQ with flushing := true } [(F.waSqCfg_attach, [3, 63], 2), (F.waSqCfg_en, [3, 63], 1)]).sqFull 3 63 = true := by decide

/-- Port 63 of die 3 within its window of 4 beats from cycle 2, at cycle `n`. -/
def windowed (n : Nat) (l : List (Fld × List Nat × Nat) := []) : State :=
  (run_ ([(F.waPortCfg_en, [3, 63], 1), (F.waPortWin_start, [3, 63], 2), (F.waPortWin_beats, [3, 63], 4), (F.waStat_held, [3], 0)] ++ l)).setPort
    3 63 { (default : PortSt) with since := n, active := true }

theorem wit_StreamPorts_ingress :
    (let s := windowed 5
     (s.flag F.waPortCfg_en [3, 63] && !s.egress 3 63 && !s.held 3 && (s.port 3 63).active) = true ∧
      s.get F.waPortWin_start [3, 63] ≤ (s.port 3 63).since ∧
      (s.port 3 63).since < s.get F.waPortWin_start [3, 63] + s.get F.waPortWin_beats [3, 63] ∧ (s.port 3 63).closed = false ∧
      (s.sqTake 3 63).1 = none ∧ s.portInjects 3 63 = none) ∧
    (windowed 1).get F.waPortWin_start [3, 63] = 2 ∧ ((windowed 1).port 3 63).since = 1 ∧ ((windowed 6).port 3 63).since = 6 := by decide

theorem wit_StreamPorts_taken :
    (((windowed 2 [(F.waSqCfg_en, [3, 63], 1)]).setQueue 3 63 { emptyQ with beats := [beat1 true] }).sqTake 3 63).1 = some (beat1 true) := by
  decide

/-- Sixteen bytes that reach egress port 63 of die 3 in the present cycle. -/
def landed (l : List (Fld × List Nat × Nat)) : State :=
  let s := run_ ([(F.waPortCfg_en, [3, 63], 1), (F.waPortCfg_dir, [3, 63], 1), (F.waStat_held, [3], 0)] ++ l)
  s.setDie 3 { s.die 3 with spineOut := (List.range 16).map (fun i => ⟨63, 0, i, 0, 0, byte0, false⟩) }

theorem wit_StreamPorts_egress :
    (let s := landed []
     let now := (s.die 3).spineOut.filter (fun b => b.port == 63 && b.cycle == (s.die 3).cycle)
     now ≠ [] ∧ s.flag F.waPortCfg_en [3, 63] = true ∧ s.egress 3 63 = true ∧ s.held 3 = false ∧
      now.all (fun b => byteOk b.v) = true ∧ ((s.egressLanes 3 63 now).1.all Option.isSome) = true ∧
      (s.egressLanes 3 63 now).1.length = 16) ∧
    (run_ []).flag F.waPortCfg_en [3, 63] = false ∧ ((run_ []).die 3).spineOut = [] ∧
    (landed [(F.waPortCfg_lastMode, [3, 63], 1)]).get F.waPortCfg_lastMode [3, 63] = 1 ∧
    (let s := landed []
     let t := s.setDie 3 { s.die 3 with spineOut := [⟨63, 0, 0, 0, 0, 0x101#9, false⟩] }
     ((t.die 3).spineOut.filter (fun b => b.port == 63 && b.cycle == (t.die 3).cycle)) = [⟨63, 0, 0, 0, 0, 0x101#9, false⟩] ∧ byteOk 0x101#9 = false) :=
  by decide

theorem wit_StreamDma_run :
    (run_ []).regWaits .waDmCtrl = false ∧ (run_ []).regWaits .waPortWin = false ∧ (run_ []).regWaits .waPortCfg = false ∧
    (let w := F.waDmCtrl_size.put 0#32 30 ||| 0x80000000#32
     12 ≤ F.waDmCtrl_size.of w ∧ F.waDmCtrl_size.of w ≤ 30 ∧ F.waDmCtrl_run.of w = 1) ∧
    (run_ []).flag F.waDmCtrl_run [3, 63] = false ∧ (run_ []).sqEn 3 63 = false ∧
    (let s := run_ [(F.waSqCfg_en, [3, 63], 1), (F.waSqCfg_attach, [3, 63], 1), (F.waDmCtrl_size, [3, 63], 12)]
     s.sqEn 3 63 = true ∧ s.get F.waSqCfg_attach [3, 63] = 1 ∧ s.ringBase 3 63 % s.ringSize 3 63 = 0 ∧
      (s.setReg .waDmBaseLo [3, 63] 64#32).ringBase 3 63 % s.ringSize 3 63 ≠ 0) := by decide

/-- A DMA channel in action on a ring of 4 KiB whose tail stands at byte 64. -/
def moving (l : List (Fld × List Nat × Nat)) : State :=
  run_ ([(F.waDmCtrl_run, [3, 63], 1), (F.waDmCtrl_size, [3, 63], 12), (F.waDmTail_ptr, [3, 63], 4)] ++ l)

theorem wit_StreamDma_transfer :
    (let s := moving []
     s.nextTag (dmaMaster 3 63) = some 0 ∧ s.dmaActive 3 63 = true ∧ s.egress 3 63 = false ∧ 0 < s.dmaFetch 3 63) ∧ (run_ []).dmaActive 3 63 = false ∧
    (let s := (moving [(F.waPortCfg_dir, [3, 63], 1)]).setQueue 3 63 { emptyQ with beats := List.replicate 4 (beat1 false) }
     s.nextTag (dmaMaster 3 63) = some 0 ∧ s.dmaActive 3 63 = true ∧ s.egress 3 63 = true ∧ s.sqPkt 3 63 = false ∧ (s.dmaCh 3 63).issued % 64 = 0 ∧ 4 ≤ s.dmaReady 3 63 ∧
      4 ≤ s.dmaRoom 3 63 ∧ 0 < min (min (s.dmaReady 3 63) (4 - (s.dmaCh 3 63).issued / 16 % 4)) (s.dmaRoom 3 63)) := by decide +kernel

/-- A request of an engine, without beats. -/
def req_ (write : Bool) (count : Nat) (resp : Resp) : EngReq := ⟨0, 1, 0, write, [], count, resp⟩

/-- A DMA channel with one request in flight. -/
def inFlight (e : EngReq) : State := (moving []).setDma 3 63 ⟨[e], none, 0, 0⟩

theorem wit_StreamDma_response :
    (((inFlight (req_ true 4 .ok)).dmaCh 3 63).flight = [req_ true 4 .ok] ∧ (inFlight (req_ true 4 .ok)).sqPkt 3 63 = false) ∧
    (passBeats 3 63 [] (inFlight (req_ false 1 .ok))).1 = true ∧ (inFlight (req_ false 1 .ok)).dmaTakes 3 63 1 = false ∧
    (run_ [(F.waSqCfg_en, [3, 63], 1)]).dmaTakes 3 63 1 = true ∧
    ((inFlight (req_ true 4 .retry)).dmaCh 3 63).flight = [req_ true 4 .retry] ∧
    ((inFlight (req_ true 4 .derr)).dmaCh 3 63).flight = [req_ true 4 .derr] ∧ ((moving []).dmaCh 3 63).flight = [] := by decide

/-- Riser 0 of die 3 in use by queue 63, with a middle of 64 KiB. -/
def riser_ (r : RiserSt) (l : List (Fld × List Nat × Nat) := []) : State :=
  let s := run_ ([(F.waSqCfg_en, [3, 63], 1), (F.waSqCfg_riser, [3, 63], 1), (F.waRsCfg_size, [3, 0], 16)] ++ l)
  (s.setQueue 3 63 { emptyQ with rslot := some 0 }).setRiser 3 0 r
def emptyR : RiserSt := default

theorem wit_Risers_spill :
    (let s := riser_ { emptyR with tail := List.replicate 4 (beat1 false) } [(F.waRsStat_spilling, [3, 0], 1)]
     s.riserQueue 3 0 = some 63 ∧ s.nextTag 63 = some 0 ∧ s.riserTurn 96 = true ∧ (s.riser 3 0).spilled = false ∧
      s.flag F.waRsStat_degraded [3, 0] = false ∧ s.runs 5 = true ∧ s.noc.drain = false ∧
      (s.riser 3 0).flying true + 4 ≤ (s.riser 3 0).tail.length ∧
      (s.riser 3 0).mid.length + (s.riser 3 0).flying true + 4 ≤ s.midCap 3 0 ∧ s.flag F.waRsStat_spilling [3, 0] = true) ∧
    (riser_ emptyR [(F.waRsStat_degraded, [3, 0], 1)]).flag F.waRsStat_degraded [3, 0] = true := by decide +kernel

theorem wit_Risers_refill :
    (let s := riser_ { emptyR with mid := [false, false] }
     let r := s.riser 3 0
     let x := s.queue 3 63
     0 < min (min (r.mid.length - r.flying false) (r.mid.length - r.flying false))
      (min (4 - r.rptr / 16 % 4) (1024 - x.beats.length - r.flying false)) ∧ s.sqPkt 3 63 = false ∧ s.runs 5 = true ∧
      s.nextTag 63 = some 0 ∧ s.riserTurn 96 = true ∧ s.noc.drain = false ∧ s.spillBeats 3 0 = []) := by decide +kernel

theorem wit_Risers_response :
    (riser_ emptyR).riserQueue 3 0 = some 63 ∧
    ((riser_ { emptyR with flight := [req_ true 4 .ok] }).riser 3 0).flight = [req_ true 4 .ok] ∧
    ((riser_ { emptyR with flight := [req_ false 1 .ok] }).riser 3 0).flight = [req_ false 1 .ok] ∧
    ((riser_ { emptyR with flight := [req_ false 1 .retry] }).riser 3 0).flight = [req_ false 1 .retry] := by decide

/-! ## Memory -/

/-- HBM stack 0 and DDR channel 0 trained, 16 GiB of DDR on that channel. -/
def mem_ (l : List (Fld × List Nat × Nat) := []) : State :=
  run_ ([(F.hbmStkStat_trained, [0], 1), (F.ddrChStat_trained, [0], 1), (F.ddrMap_fitted, [], 16),
    (F.ddrMap_present, [], 1), (F.ddrChStat_cap, [0], 16)] ++ l)

/-- Sixty-four bytes from the bottom of HBM. -/
def hbm0 : Nat := 0x010000000000
def block1 : Req := wr mc hbm0 (List.replicate 64 7#8)

theorem plain_hbm0 (r : Req) (h : r.addr.toNat = hbm0) (hc : r.cls ≠ 3) (hl : inBlock hbm0 r.len = true)
    (hd : r.write = true → r.data.length = r.len) : PlainAt (mem_ []) r ⟨true, 0, 0⟩ := by
  refine ⟨hc, by rw [h]; exact hl, hd, by rw [h]; decide, by rw [h]; decide, ?_, by rw [h]; decide, by rw [h]; decide,
    by rw [State.behind, h]; decide⟩
  intro g hg
  rw [h, show (mem_ []).region hbm0 = none by decide] at hg
  cases hg

theorem wit_DramAccesses :
    PlainAt (mem_ []) (rd mc hbm0 64) ⟨true, 0, 0⟩ ∧ PlainAt (mem_ []) block1 ⟨true, 0, 0⟩ ∧ block1.len = 64 ∧ block1.badPar = [] ∧
    PlainAt (mem_ []) (wr mc hbm0 [1#8]) ⟨true, 0, 0⟩ ∧ (mem_ []).dramHas (2 ^ 39) = false := by
  refine ⟨plain_hbm0 _ (by decide) (by decide) (by decide) (by decide), plain_hbm0 _ (by decide) (by decide) (by decide) (by decide),
    by decide, by decide, plain_hbm0 _ (by decide) (by decide) (by decide) (by decide), by decide⟩

/-- The stored marks of the block at the bottom of HBM. -/
def marked (m : BlockMeta) : State := { mem_ [] with dram := { (mem_ []).dram with bmeta := [(hbm0 / 64, m)] } }
def noMarks : BlockMeta := default

theorem wit_DramAccesses_blocks :
    (mem_ []).decodeBlock (hbm0 / 64) = .clean (List.replicate 64 0#8) ∧
    (marked { noMarks with poison := true }).decodeBlock (hbm0 / 64) = .poison ∧
    ((marked { noMarks with delta := 1#128 }).bmeta (hbm0 / 64)).delta ≠ 0#128 := by decide

/-- HBM stack 0 that is not trained. -/
theorem wit_DramAccesses_wait :
    (let s := run_ [(F.ddrMap_fitted, [], 16)]
     s.dramHas hbm0 = true ∧ s.memRuns hbm0 = true ∧ s.metaRegion hbm0 = none ∧ s.region hbm0 = none ∧ s.dramGate hbm0 = .wait) := by decide

theorem wit_DramBytes :
    isHbm hbm0 = true ∧ block1.write = true ∧ (List.range 64).all (fun g => !(mem_ []).flag F.ddrRgnCfg_en [g]) = true ∧
    inBlock (hbm0 + 63) 1 = true ∧ (hbm0 + 63) / 64 = hbm0 / 64 := by decide

theorem wit_BlockCommands :
    (mem_ []).regWaits .ddrPcmd = false ∧ (mem_ []).regWaits .ddrPprcmd = false ∧ mayWrite .ddrPcmd core0 = false ∧ mayWrite .ddrPcmd mc = true ∧ mayWrite .ddrPprcmd mc = true ∧
    (let s := (mem_ []).setReg .ddrPaddrHi [] 0x100#32
     s.flag F.ddrPcmd_busy [] = false ∧ s.pcmdAddr = hbm0 ∧ s.dramHas s.pcmdAddr = true ∧ s.region s.pcmdAddr = none ∧ s.metaRegion s.pcmdAddr = none ∧
      s.dramGate s.pcmdAddr = .go ⟨true, 0, 0⟩) ∧
    (let s := (run_ [(F.ddrMap_fitted, [], 16)]).setReg .ddrPaddrHi [] 0x100#32
     s.flag F.ddrPcmd_busy [] = false ∧ s.pcmdAddr = hbm0 ∧ s.dramHas s.pcmdAddr = true ∧ s.region s.pcmdAddr = none ∧
      s.metaRegion s.pcmdAddr = none ∧ s.dramGate s.pcmdAddr = .wait) ∧
    (mem_ [(F.ddrPcmd_busy, [], 1)]).flag F.ddrPcmd_busy [] = true ∧
    (let s := ({ mem_ [] with dram := { (mem_ []).dram with wback := [(5, [])] } } : State)
     s.dram.wback.find? (fun e => e.1 == (5#42).toNat) = some (5, [])) ∧
    (mem_ []).scrubOn ⟨true, 0, 0⟩ = (mem_ []).flag F.hbmCfg_scrub [] ∧ (mem_ []).flag F.ddrPprcmd_busy [] = false ∧
    (mem_ [(F.ddrPprcmd_busy, [], 1)]).flag F.ddrPprcmd_busy [] = true ∧ (mem_ []).unitTrained (locUnit 0) = true ∧
    (run_ []).unitTrained (locUnit 0) = false ∧
    (let s := ({ mem_ [] with dram := { (mem_ []).dram with repair := some ⟨false, 0#64, [], true, []⟩ } } : State)
     s.dram.repair = some ⟨false, 0#64, [], true, []⟩) ∧
    (let s := ({ mem_ [] with dram := { (mem_ []).dram with repair := some ⟨true, 0#64, [block1], false, []⟩ } } : State)
     s.dram.repair = some ⟨true, 0#64, [block1], false, []⟩) := by decide

/-- The patrol of HBM stack 0 where the stack runs, where scrubbing is off, and where the stack is not trained. -/
theorem wit_BlockCommands_patrol :
    (let s := mem_ [(F.hbmCfg_scrub, [], 1)]
     s.patrolRuns true 0 = true ∧ s.dramGate (s.patrolAddr true 0 (s.patrolAt true 0)) = .go ⟨true, 0, 0⟩) ∧
    (mem_ [(F.hbmCfg_scrub, [], 0)]).patrolRuns true 0 = false ∧
    (run_ []).dramGate ((run_ []).patrolAddr true 0 ((run_ []).patrolAt true 0)) = .wait := by decide

theorem wit_DramUpkeep :
    (run_ [(F.hbmCfg_pdTmo, [], 1)]).get F.hbmCfg_pdTmo [] ≠ 0 ∧ (run_ [(F.hbmCfg_pdTmo, [], 0)]).get F.hbmCfg_pdTmo [] = 0 ∧
    (5#32).toNat ∉ (run_ []).dram.pdown ∧ SMap.get 0 (run_ [] 16).dram.lastCmd 5 + 16 * 1 ≤ (run_ [] 16).tb.count ∧
    (run_ []).upd.commit = none := by decide

/-- Memory that a manifest or a request can be read from, and memory that is not there. -/
theorem wit_memRead :
    (memRead 8 (hbm0 - 2 ^ 40 + 2 ^ 39) (mem_ [])).1 = none ∧ (memRead 1 hbm0 (mem_ [])).1 = some (List.replicate 64 0#8) := by decide

/-! ## Encryption, ECC and the log -/

/-- Region 0 over MiB 256 of the DDR, encrypted, its metadata from MiB 512, in state `st`; engine 0 as given. -/
def sealed (st : Nat) (x : EncEngine) (l : List (Fld × List Nat × Nat) := []) : State :=
  (mem_ ([(F.ddrRgnCfg_en, [0], 1), (F.ddrRgnCfg_enc, [0], 1), (F.ddrRgnCfg_encCfg, [0], 512), (F.ddrRgnBase_mib, [0], 256),
    (F.ddrRgnLimit_mib, [0], 256), (F.encRgnStat_state, [0], st)] ++ l)).setEng 0 x
def noEng : EncEngine := default
def line0 (dirty : Bool) : CLine := ⟨0, 0, 0#4096, dirty, false⟩
/-- An engine that holds the node above sector 0. -/
def known : EncEngine := { noEng with nodes := [⟨0, 1, 0⟩] }
def sect0 : Nat := 256 * 2 ^ 20

theorem wit_EncryptionSetup_regions :
    (run_ []).regWaits .ddrRgnCfg = false ∧ (run_ []).regWaits .encKeycmd = false ∧ (run_ []).regWaits .encRgnCtrl = false ∧
    mayWrite .ddrRgnCfg core0 = false ∧ mayWrite .ddrRgnCfg mc = true ∧ F.ddrRgnCfg_cfgErr.of (0#32 ||| 0x80000000#32) = 0 ∧
    (run_ []).flag F.ddrRgnCfg_en [0] = false ∧ F.ddrRgnCfg_en.of (0#32 ||| 0x80000000#32) = 1 ∧ (run_ []).rgnOk 0 = false ∧
    (mem_ []).rgnOk 0 = true ∧ (sealed 2 noEng).flag F.ddrRgnCfg_en [0] = true ∧ F.ddrRgnCfg_en.of (0#32 &&& 0x7FFFFFFF#32) = 0 ∧
    (mem_ [(F.ddrRgnCfg_en, [0], 1)]).flag F.ddrRgnCfg_enc [0] = false ∧ (sealed 1 noEng).get F.encRgnStat_state [0] = 1 := by
  decide

/-- Region 0 may be enabled as an encrypted region: inside the DDR, clear of its metadata, with a current key. -/
theorem wit_EncryptionSetup_sealed :
    (((sealed 0 noEng).put F.ddrRgnCfg_en [0] 0).setEncRgn 0 { ((run_ []).encRgn 0) with cur := some ⟨1#256, 2#256, 3#256⟩ }).rgnOk 0
      = true := by decide +kernel

/-- A key buffer whose first byte is 1: key 1 and key 2 differ. -/
def keyed (s : State) : State := s.setReg .encKeybuf [0] 1#32

theorem wit_EncryptionSetup_keys :
    mayWrite .encKeycmd mc = true ∧ (keyed (sealed 2 noEng)).get F.encRgnStat_state [0] = 2 ∧ (run_ []).get F.encRgnStat_state [0] ≠ 2 ∧
    (keyed (sealed 2 noEng)).keyBytes 0 32 ≠ (keyed (sealed 2 noEng)).keyBytes 32 32 ∧
    (run_ []).keyBytes 0 32 = (run_ []).keyBytes 32 32 ∧ (keyed (run_ [])).flag F.ddrRgnCfg_en [0] = false ∧
    mayWrite .encRgnCtrl mc = true ∧ F.encRgnCtrl_rekey.of (0#32 ||| 0x80000000#32) = 1 ∧
    (let s := (sealed 2 noEng).setEncRgn 0 { ((run_ []).encRgn 0) with new := some ⟨1#256, 2#256, 3#256⟩ }
     let s1 := s.writeReg .encRgnCtrl [0] (0#32 ||| 0x80000000#32)
     s1.get F.encRgnStat_state [0] = 2 ∧ (s1.encRgn 0).new.isSome = true) := by decide +kernel

theorem wit_EncryptedAccesses :
    (let s := sealed 2 noEng
     inBlock sect0 64 = true ∧ s.dramHas sect0 = true ∧ s.metaRegion sect0 = none ∧ s.region sect0 = some 0 ∧ s.encrypted 0 = true ∧
      s.memRuns sect0 = true ∧ engineOf sect0 = 0 ∧ (sect0 - s.rgnBase 0) / 512 = 0 ∧ s.encGate 0 = none ∧ s.healOf 0 0 0 = none ∧
      s.sectorWaits 0 0 = false ∧ s.behind (rd mc sect0 64) = false ∧ s.lineOf 0 0 0 = none ∧ s.belowLost 0 0 0 = none ∧ s.runs 9 = true ∧ (s.eng 0).victim = none) ∧
    (sealed 1 noEng).encGate 0 = some .retry ∧ (sealed 2 { noEng with lines := [line0 true] }).lineOf 0 0 0 = some (line0 true) ∧
    ((sealed 2 { noEng with lines := [line0 true] }).eng 0).victim = some (line0 true) ∧
    (sealed 2 { noEng with lost := [⟨0, 1, 0⟩] }).belowLost 0 0 0 = some ⟨0, 1, 0⟩ ∧
    (wr mc sect0 [7#8]).data.length = (wr mc sect0 [7#8]).len ∧ (wr mc sect0 [7#8]).badPar = [] ∧
    ({ wr mc sect0 [7#8] with badPar := [0] }).badPar ≠ [] := by decide +kernel

/-- The same region in an outage's catch-up refresh. -/
theorem wit_EncryptedAccesses_wait :
    (let s := sealed 2 noEng
     let t := ({ s with dram := { s.dram with catchUp := true } } : State)
     t.dramHas sect0 = true ∧ t.metaRegion sect0 = none ∧ t.region sect0 = some 0 ∧ t.encrypted 0 = true ∧ t.memRuns sect0 = true ∧
      t.sectorWaits 0 0 = true ∧ t.encGate 0 = none ∧ t.belowLost 0 0 0 = none ∧ t.healOf 0 0 0 = none ∧ t.lineOf 0 0 0 = none) := by decide +kernel

theorem wit_EncryptedAccesses_fetch :
    ((sealed 2 known).fetchSector 0 0 0 sect0 60).1 = .data 0#4096 ∧ ((sealed 2 known).verifyPath 0 0 0 sect0 10).1 = .used ∧
    (sealed 2 known).healOf 0 0 0 = none ∧
    (let s := (sealed 2 known).setReg .encSaddrLo [] 0x10000000#32
     s.scmdAddr = sect0 ∧ s.regWaits .encScmd = false ∧ s.flag F.encScmd_busy [] = false ∧ s.sectorWaits 0 0 = false ∧ mayWrite .encScmd mc = true) := by decide +kernel

theorem wit_KeyRotation :
    (sealed 2 noEng).rgnState 0 ≠ 3 ∧
    (let s := sealed 3 noEng
     s.rgnState 0 = 3 ∧ 0 < s.get F.encRgnCtrl_rate [0] ∧ s.bound 0 < s.rgnSectors 0 ∧ s.runs 9 = true ∧ s.belowLost 0 0 0 = none ∧
      s.lineOf 0 0 0 = none ∧ s.ctrOf 0 0 = 0 ∧ s.converting 0 = false ∧ (s.setReg .encRgnBoundLo [0] 2048#32).rgnSectors 0 ≤
      (s.setReg .encRgnBoundLo [0] 2048#32).bound 0) ∧
    ((sealed 3 { noEng with lost := [⟨0, 1, 0⟩] }).belowLost 0 0 0).isSome = true ∧
    (sealed 3 { noEng with lines := [line0 true] }).lineOf 0 0 0 = some (line0 true) ∧
    (sealed 3 { noEng with lines := [⟨0, 0, 0#4096, false, true⟩] }).converting 0 = true := by decide +kernel

/-- A sector whose counter is 1 and whose tag decides what a fetch of it finds: it always finds something. -/
theorem wit_KeyRotation_counter :
    (let s := (sealed 3 known).setEncRgn 0 { ((run_ []).encRgn 0) with ctr := [(0, 1)] }
     s.ctrOf 0 0 ≠ 0 ∧ s.sectorWaits 0 0 = false ∧ s.belowLost 0 0 0 = none ∧ s.lineOf 0 0 0 = none) ∧
    (let s := (sealed 3 { noEng with lines := [line0 true] }).setEncRgn 0 { ((run_ []).encRgn 0) with ctr := [(0, 1)] }
     s.ctrOf 0 0 ≠ 0 ∧ s.belowLost 0 0 0 = none ∧ s.lineOf 0 0 0 = some (line0 true)) := by decide +kernel

theorem wit_LogAndTestAccess :
    (run_ []).regWaits .eccPinj = false ∧ (run_ []).regWaits .eccRtcmd = false ∧ (run_ []).regWaits .logRdseq = false ∧
    (run_ []).rtMay core0 = false ∧ (run_ []).rtMay mc = true ∧ (run_ []).rtRefuse 2 = some .aerr ∧
    (let s := ({ run_ [] with log := { (run_ []).log with queue := [⟨0, 0, 0, 0, 0, 0, []⟩] } } : State)
     s.log.queue = [⟨0, 0, 0, 0, 0, 0, []⟩]) ∧
    (run_ []).log.queue = [] ∧ (run_ []).logHolds 0 = false ∧ (run_ [(F.logWseq_seq, [], 1)]).logHolds 0 = true ∧
    (run_ []).pwr.mcRuns = false ∧
    (let s := ({ run_ [(F.logWseq_seq, [], 1)] with pwr := { (run_ []).pwr with mcRuns := true } } : State)
     s.pwr.mcRuns = true ∧ s.pseq ≠ s.wseq ∧ s.logHolds s.pseq = true) := by decide
/-! ## Clocks, timebase, power, crossings -/

/-- A state whose clocks stand at a phase. -/
def atPhase (p : ClkPhase) (l : List (Fld × List Nat × Nat)) : State := { run_ l with clk := { (run_ l).clk with phase := p } }

theorem wit_ClockStartup_phases :
    State.reset.clk.phase = .heldOff ∧ (atPhase .waitRef []).clk.phase = .waitRef ∧ (run_ []).qualified true = false ∧
    (atPhase .outage []).clk.phase = .outage ∧ (run_ []).clk.retExpired = false ∧ (run_ []).activeB = false ∧
    (run_ [(F.clkRefstat_active, [], 1)]).activeB = true ∧
    ({ atPhase .outage [] with clk := { (atPhase .outage []).clk with retExpired := true } } : State).clk.retExpired = true ∧
    (atPhase .locking []).clk.phase = .locking ∧ (atPhase .locked []).clk.phase = .locked ∧
    (let s := ({ atPhase .resuming [(F.clkRefstat_locked, [], 1)] with tb := State.reset.tb } : State)
     s.clk.phase = .resuming ∧ s.flag F.clkRefstat_locked [] = true ∧ s.tb.running = false) ∧
    (let s := atPhase .resuming []
     s.clk.phase = .resuming ∧ s.tb.running = true) := by decide

theorem wit_ClockStartup_references :
    (run_ []).regWaits .clkRefctrl = false ∧ ((run_ []).setQualified true true).flag F.clkRefctrl_prefer [] = false ∧
    (let s := run_ [(F.clkRefctrl_prefer, [], 1), (F.clkRefctrl_revert, [], 1), (F.clkRefstat_aQual, [], 1)]
     s.clk.phase = .running ∧ s.qualified true = false ∧ (s.setQualified true true).activeB ≠ true ∧
      (s.setQualified true true).flag F.clkRefctrl_prefer [] = true ∧ s.clk.lostB = false ∧
      (s.setQualified true true).flag F.clkRefctrl_revert [] = true) ∧
    (let s := run_ [(F.clkRefstat_aQual, [], 1), (F.clkRefstat_bQual, [], 1)]
     s.clk.phase ≠ .heldOff ∧ s.activeB ≠ true ∧ s.qualified true = true ∧ s.qualified false = true ∧
     (let lost := (s.countUp F.clkRefstat_aLosses []).setQualified false false
      s.activeB = false ∧ lost.qualified true = true ∧ lost.activeB = false)) ∧
    (((run_ []).countUp F.clkRefstat_aLosses []).setQualified false false).qualified true = false ∧
    F.clkRefctrl_switch.of 0#32 = 0 ∧ F.clkRefctrl_switch.of 5#32 = 1 ∧
    (let s1 := (run_ []).writeReg .clkRefctrl [] 5#32
     s1.qualified (s1.flag F.clkRefctrl_prefer []) = false) ∧
    (let s1 := (run_ [(F.clkRefstat_bQual, [], 1)]).writeReg .clkRefctrl [] 5#32
     s1.qualified (s1.flag F.clkRefctrl_prefer []) = true ∧ s1.activeB ≠ s1.flag F.clkRefctrl_prefer []) := by decide

theorem wit_TimebaseAndTicks :
    (run_ []).regWaits .clkGate = false ∧ (run_ []).regWaits .clkMon = false ∧ (run_ []).regWaits .tbTickCtrl = false ∧
    (run_ []).regWaits .tbTickPeriod = false ∧ (2 : Fin 24).val ≤ 2 ∧ 3 ≤ (3 : Fin 24).val ∧ (4 : Fin 7).val = 4 ∧ State.reset.tb.running = false ∧ (run_ []).tb.running = true ∧
    ((run_ []).offset 0 + 1).natAbs ≤ 1 ∧ 1 < ((run_ []).offset 0 + 2).natAbs ∧
    (run_ []).flag F.tbTickCtrl_en [3] = ((run_ []).writeReg .tbTickCtrl [3] 0#32).flag F.tbTickCtrl_en [3] ∧
    ((run_ []).writeReg .tbTickCtrl [3] 0x80000000#32).flag F.tbTickCtrl_en [3] = true ∧
    (run_ [(F.tbTickCtrl_en, [3], 1)]).flag F.tbTickCtrl_en [3] = true ∧
    ((run_ [(F.tbTickCtrl_en, [3], 1)]).writeReg .tbTickCtrl [3] 0#32).flag F.tbTickCtrl_en [3] = false ∧
    F.tbTickPeriod_period.of 63#32 < 64 ∧ F.tbTickPeriod_period.of 64#32 = 64 ∧ F.tbTickPeriod_period.of 16777216#32 = 16777216 ∧
    16777216 < F.tbTickPeriod_period.of 16777217#32 ∧ (run_ []).tickDue 3 = false ∧ (run_ []).tickActs 3 = false ∧
    (run_ [(F.tbTickCtrl_en, [3], 1), (F.tbTickPeriod_period, [3], 64), (F.tbTickStartLo_start, [3], 36)] 100).tickDue 3 = true ∧
    (run_ [(F.tbTickCtrl_en, [0], 1), (F.tbTickPeriod_period, [0], 64), (F.tbTickStartLo_start, [0], 36)] 100).tickDue 0 = true ∧
    (run_ [(F.tbTickCtrl_en, [3], 1), (F.tbTickPeriod_period, [3], 64), (F.tbTickStartLo_start, [3], 36)] 100).tickActs 3 = true := by decide

/-- Pin 767, of a powered bank of die 3, is forced to the level `v` by its image. -/
def faulty (v : Nat) : State :=
  let s := run_ [(F.glbBankpwrHp_good, [], 2 ^ 23)]
  { s with pins := { s.pins with user := 2, safe := true }, load := { s.load with pinTable := List.replicate 768 (BitVec.ofNat 8 (v + 1)) } }

theorem wit_PowerAndPins :
    State.reset.clk.phase = .heldOff ∧ (run_ []).clk.phase ≠ .heldOff ∧ ((run_ []).get F.glbBankpwrHv_good []).testBit 13 = false ∧
    ((run_ [(F.glbBankpwrHv_good, [], 2 ^ 13)]).get F.glbBankpwrHv_good []).testBit 13 = true ∧
    (run_ []).padOut 0 1215 ≠ .drive false ∧ (faulty 0).padOut 0 767 = .drive false ∧ (faulty 1).padOut 0 767 = .drive true := by decide +kernel

/-- Group 0 in a role, its direction 0 as given. -/
def grouped (role : Nat) (x : XGroup) (l : List (Fld × List Nat × Nat) := []) : State :=
  (run_ ([(F.glbXgstat_role, [0, 0], role)] ++ l)).setXg 0 0 x
def noGroup : XGroup := default
def useGroup : XGroup := { noGroup with lanes := List.replicate 16 ⟨0, 0, []⟩ }
def held1 (asked : Bool) : XHold := ⟨5, asked, 0, 0, 0⟩
def test5 (bad : Bool) : XTest := ⟨5, 0, bad⟩

theorem wit_CrossingSparing_receive :
    State.reset.groupRuns 0 0 = false ∧
    (let s := grouped 2 noGroup
     let u := (s.enterEdge .alone).draw.2.rotateProbe 0 0
     s.groupRuns 0 0 = true ∧ u.injected 0 0 = none ∧ (u.shiftDue 0 0).isNone = true ∧ u.role 0 = 2 ∧
      (List.range 16).all (fun b => laneParOk (u.arriving 0 0 0#152) b) = true) := by decide +kernel

theorem wit_CrossingSparing_probe :
    (let s := grouped 2 noGroup [(F.glbXgstat_probe, [0, 0], 142)]
     s.hasProbe 0 0 = true ∧ (s.xgroup 0 0).count / 64 = (s.xgroup 0 0).turn ∧ s.get F.glbXgstat_probe [0, 0] ≠ 0xFF) ∧
    (let s := grouped 2 { noGroup with count := 64 } [(F.glbXgstat_probe, [0, 0], 142)]
     s.hasProbe 0 0 = true ∧ (s.xgroup 0 0).test = none ∧ (s.xgroup 0 0).sub = none ∧ (s.xgroup 0 0).count / 64 ≠ (s.xgroup 0 0).turn ∧
      s.visited 0 0 ≠ []) ∧ (run_ []).hasProbe 0 0 = false := by decide +kernel

theorem wit_CrossingSparing_holds :
    (let s := grouped 1 { useGroup with test := some (test5 true), count := 4096 }
     (s.xgroup 0 0).test = some (test5 true) ∧ reached (s.xgroup 0 0).count ((0 + 4096) % 2 ^ 32) = true ∧
      (s.setXg 0 0 { s.xgroup 0 0 with test := none }).probeWire 0 0 = some 151) ∧
    ((grouped 1 { useGroup with test := some (test5 false) }).xgroup 0 0).test = some (test5 false) ∧ reached 0 4096 = false ∧
    ((run_ []).xgroup 0 0).holds = [] ∧ ((run_ []).xgroup 0 0).test.isNone = true ∧ reached 4096 0 = true ∧ reached 0 1 = false ∧
    (let s := grouped 1 { useGroup with holds := [held1 false] }
     (s.xgroup 0 0).holds = [held1 false] ∧ s.role 0 = 1 ∧ (held1 false).asked = false) ∧
    (let s := grouped 1 { useGroup with holds := [held1 true] }
     (s.xgroup 0 0).holds = [held1 true] ∧ (held1 true).asked = true ∧ s.role 0 = 1 ∧ s.hasProbe 0 0 = true ∧ s.freeSpares 0 0 ≠ [] ∧
      (held1 true).tau ≤ s.now (sender (edgeOf 0) 0)) := by decide +kernel

/-- A flit with a good CRC over its lower 736 bits. -/
def flit_ (low : Nat) : BitVec 768 := BitVec.ofNat 768 (low + 2 ^ 736 * (crc32 (leBytes 92 low)).toNat)

theorem wit_PacketLinks :
    (run_ []).packetWorks 0 = false ∧ (grouped 2 noGroup).packetWorks 0 = true ∧ flitCrcOk 0#768 = false ∧
    ((grouped 2 { noGroup with crcRun := 15 }).xgroup 0 0).crcRun = 15 ∧ ((grouped 2 noGroup).xgroup 0 0).crcRun < 15 ∧
    (let s := grouped 2 { noGroup with holds := [held1 true] }
     (s.xgroup 0 0).holds = [held1 true] ∧ s.role 0 = 2 ∧ s.freeSpares 0 0 ≠ []) ∧
    (grouped 2 { noGroup with failedW := List.range 8, holds := [held1 true] }).freeSpares 0 0 = [] ∧ (run_ []).regWaits .glbXinj = false ∧
    ((grouped 2 noGroup).xgroup 0 0).shift.isNone = true ∧ ((grouped 2 { noGroup with shift := some 0 }).xgroup 0 0).shift = some 0 := by
  decide +kernel

theorem wit_PacketLinks_flits :
    (let e := fun n => (((((grouped 2 noGroup).setXg 0 0 { noGroup with crcRun := 0 }).flitReturns 0 (flit_ (2 ^ 672 * n))).link 0).expect)
     flitCrcOk (flit_ 0) = true ∧ flitCrcOk (flit_ (2 ^ 672)) = true ∧ flitCrcOk (flit_ (2 ^ 672 * 4095)) = true ∧
     flitCrcOk (flit_ (2 ^ 712)) = true ∧ e 0 = 0 ∧ e 1 = 0 ∧ e 4095 = 0 ∧ bitsOf (flit_ (2 ^ 672)).toNat 683 672 = 1 ∧
     bitsOf (flit_ (2 ^ 672 * 4095)).toNat 683 672 = 4095 ∧ bitsOf (flit_ (2 ^ 672)).toNat 713 712 = 0 ∧
     bitsOf (flit_ (2 ^ 712)).toNat 713 712 ≠ 0) := by decide +kernel
/-! ## The network, the host link, lanes, the fabric -/

/-- The MC's request of `rd mc hbm0 64` in flight since time 0 under tag 0, or held out of use, at time `t`. -/
def tagged (out : Bool) (t : Nat) : State := (run_ [] t).setTag 60 0 ⟨7, 0, 100, false, 0, out⟩

theorem wit_NocTransactions :
    State.reset.runs 5 = false ∧ (tagged false 0).tag 60 0 = some ⟨7, 0, 100, false, 0, false⟩ ∧
    (let s := run_ []
     s.runs 5 = true ∧ s.noc.drain = false ∧ s.pwr.stopIssue = false ∧ s.tag 60 0 = none ∧ s.tagsUsed 60 < s.tagLimit 60 ∧
      s.flag F.eccPinj_arm [] = false) ∧ 48 ≤ (60 : Fin 64).val ∧ (47 : Fin 64).val < 48 ∧ respOf 6 = .retry ∧
    (tagged true 0).tag 60 0 = some ⟨7, 0, 100, false, 0, true⟩ ∧ (7#16).toNat = 7 ∧ repeats 60 = true ∧
    0 + 1000 * 100 ≤ (tagged false 100000).now (masterDie 60) ∧ ¬ 0 + 1000 * 100 ≤ (tagged false 99999).now (masterDie 60) ∧
    (let s := ({ run_ [] with heldPubs := [⟨0, rd mc hbm0 64⟩] } : State)
     s.heldPubs.any (fun (h : HeldPub) => h.req == rd mc hbm0 64) = true) ∧
    (let s := ({ run_ [] with noc := { (run_ []).noc with drain := true } } : State)
     s.noc.drain = true ∧ s.tag 60 0 = none ∧ s.tagsUsed 60 < s.tagLimit 60) ∧
    hubBlock (rd mc 0x0F0000000000 4).addr.toNat = true ∧ hubBlock (rd mc hbm0 64).addr.toNat = false := by decide

/-- Edge 0 has lost its one packet group. -/
def lost0 : State := grouped 2 noGroup [(F.glbXgstat_retired, [0, 0], 1)]

theorem wit_NocRouting :
    State.reset.runs 5 = false ∧ (run_ []).runs 5 = true ∧ (run_ []).flag F.nocPrbCtrl_en [115] = false ∧ headerPar 0 ≠ 0 ∧
    headerPar 0 = (4095#12).toNat ∧ bitsOf (4 * 2 ^ 93) 95 93 = 4 ∧ bitsOf 0 95 93 < 4 ∧
    (List.range 10).any (fun (j : Nat) => lost0.edgeLost j && !lost0.noc.lostEdges.contains j) = true ∧
    ({ run_ [] with noc := { (run_ []).noc with drain := true } } : State).noc.drain = true ∧ (run_ []).noc.drain = false ∧
    F.nocHistCfg_clear.of (0#32 ||| 0x20000000#32) = 1 ∧ (run_ []).regWaits .nocPrbTstat = false ∧ (run_ []).regWaits .nocHistCfg = false ∧ (run_ []).levelSource 15 5 = none ∧
    (run_ [(F.nocHistCfg_kind, [15], 5)]).levelSource 15 9 = some 9 := by decide

/-- From die 0 to the hub a flit goes by die 2; from the hub to the hub it stays; with no edge left there is no way. -/
theorem wit_NocRouting_ways :
    flitDie 0 = 8 ∧ routerDie 0 = 0 ∧ routerDie 96 = 8 ∧ dieRoute (run_ []).liveEdges 0 8 = some [2, 8] ∧
    dieRoute (run_ []).liveEdges 8 8 = some [] ∧
    dieRoute ({ run_ [] with noc := { (run_ []).noc with lostEdges := List.range 10 } } : State).liveEdges 0 8 = none ∧
    (List.range 10).find? (fun (j : Nat) => edgeDies j == (0, 2) || edgeDies j == (2, 0)) = some 2 := by decide +kernel

/-- Output 4 of router 0 with flits waiting. -/
def waiting_ (l : List WaitFlit) (port : Nat := 4) (r : Nat := 0) : State :=
  let s := run_ []
  { s with noc := { s.noc with waiting := [(8 * r + port, l)] } }
def flitA (cls : Nat) : RouterFlit := ⟨0, BitVec.ofNat 96 (cls * 2 ^ 90), 0#12, 0#512, 0#64⟩

theorem wit_NocRouting_waiting :
    (waiting_ []).waitingAt 0 4 = [] ∧ (waiting_ [⟨flitA 0, 0, none⟩]).waitingAt 0 4 = [⟨flitA 0, 0, none⟩] ∧
    (0xFF#8).getLsbD (flitVc (flitA 3).hdr.toNat) = true ∧ (0#8).getLsbD (flitVc (flitA 3).hdr.toNat) = false ∧
    (let f : WaitFlit := ⟨flitA 2, 0, none⟩
     let g : WaitFlit := ⟨flitA 0, 0, none⟩
     (waiting_ [f, g]).waitingAt 0 4 = [f, g] ∧ f.cls ≠ 0 ∧ g.cls = 0 ∧ (0xFF#8).getLsbD (flitVc f.flit.hdr.toNat) = true ∧
      (0xFF#8).getLsbD (flitVc g.flit.hdr.toNat) = true ∧ (waiting_ [f, g]).flag F.nocPrbCtrl_en [0] = false) ∧
    ((run_ []).outPort 0 0).isSome = true := by decide +kernel

/-- A router that faces the edge to the destination's die, and a packet group on that edge. -/
theorem wit_NocRouting_edge :
    (let s := grouped 2 noGroup
     s.edgeLink 0 0 = some 4 ∧ (run_ []).linkTakes 4 0 = false) := by decide +kernel

/-- The host link is up; window 15 translates. -/
def linked (l : List (Fld × List Nat × Nat) := []) : State := run_ ([(F.pciStat_dlUp, [], 1), (F.pciTrCfg_en, [15], 1)] ++ l)

theorem wit_HostAccesses :
    (run_ []).regWaits .pciTrCfg = false ∧ (run_ []).hostLoading = false ∧ (load_ .header 3 []).hostLoading = true ∧
    (run_ []).stagingFull [1#8] = false ∧ (run_ []).load.bar4 = [] ∧
    (run_ []).hostReach = false ∧ (linked []).hostReach = true ∧ mayWrite .pciTrCfg mc = true ∧ mayWrite .pciTrCfg core0 = false ∧
    (run_ []).flag F.pciStat_hlDis [] = false ∧ (run_ []).pins.perst = false ∧ (run_ []).runs 10 = true ∧
    (let s := linked []
     let o := 15 * 2 ^ 32 + 60
     ((splitTlp 66 o 8).map (fun (p : Nat × Nat) => s.hostPiece 1 true p.1 p.2 (slice (List.replicate 8 1#8) (p.1 - o) p.2))).all
       (fun (p : HostPiece) => p.ans.isNone) = true) := by decide

/-- Lane 39 with fields set, at a stage. -/
def laned (g : LaneStage) (l : List (Fld × List Nat × Nat) := []) : State :=
  (run_ ([(F.lnLaneRate_kbd, [39], 1250000)] ++ l)).setStage 39 g

theorem wit_LaneBringUp :
    (run_ []).regWaits .lnLaneCfg = false ∧ (run_ []).regWaits .lnLaneRate = false ∧ (run_ []).laneHeld 15 = true ∧ laneLegal 0 0 0 = false ∧ (laned .off).laneHeld 39 = false ∧
    laneLegal 0 ((laned .off).get F.lnLaneRate_kbd [39]) 0 = true ∧ F.lnLaneCfg_en.of (0#32 ||| 0x80000000#32) = 1 ∧
    (laned .off).flag F.lnLaneCfg_en [39] = false ∧ F.lnLaneCfg_en.of 0#32 = 0 ∧ (laned .off).stage 39 ≠ .pins ∧
    (let s := laned .data [(F.lnLaneCfg_en, [39], 1)]
     s.flag F.lnLaneCfg_en [39] = true ∧ (s.writeReg .lnLaneCfg [39] 0x83000000#32).flag F.lnLaneStat_retired [39] = false ∧
      F.lnLaneCfg_en.of 0x83000000#32 = 1 ∧ F.lnLaneCfg_lb.of 0x83000000#32 ≠ s.get F.lnLaneCfg_lb [39] ∧
      laneLegal (F.lnLaneCfg_mode.of 0x83000000#32) (s.get F.lnLaneRate_kbd [39]) (F.lnLaneCfg_width.of 0x83000000#32) = true ∧
      laneLegal (s.get F.lnLaneCfg_mode [39]) (F.lnLaneRate_kbd.of 32000000#32) 0 = true ∧
      (s.writeReg .lnLaneRate [39] 32000000#32).reg .lnLaneRate [39] ≠ s.reg .lnLaneRate [39] ∧
      (s.writeReg .lnLaneRate [39] 32000000#32).flag F.lnLaneCfg_en [39] = true ∧ s.stage 39 = .data) ∧
    (laned .pins).stage 39 = .pins ∧ (laned .adapt).stage 39 = .adapt ∧ (laned .lost).stage 39 = .lost ∧
    (laned .lost).flag F.lnLaneStat_fbActive [39] = false ∧ (laned .lost).flag F.lnLaneCfg_fbEn [39] = false ∧
    (laned .lost [(F.lnLaneCfg_fbEn, [39], 1)]).flag F.lnLaneCfg_fbEn [39] = true ∧
    (laned .lost [(F.lnLaneCfg_fbEn, [39], 1)]).flag F.lnLaneStat_fbFail [39] = false := by decide

theorem wit_LaneFallBackAndFec :
    (laned .data [(F.lnLaneCfg_en, [39], 1)]).flag F.lnLaneCfg_en [39] = true ∧ (laned .data).laneHeld 39 = false ∧
    (laned .data).flag F.lnLaneCfg_en [39] = false ∧ (laned .data).flag F.lnLaneStat_fbActive [39] = false ∧
    (laned .data [(F.lnLaneStat_fbActive, [39], 1)]).flag F.lnLaneStat_fbActive [39] = true ∧ (laned .data).linkOf 39 = [39] ∧
    (run_ []).flag F.lnGrpCfg_fec [9] = false ∧ (run_ [(F.lnGrpCfg_fec, [9], 1)]).flag F.lnGrpCfg_fec [9] = true ∧
    ((SMap.get [] (run_ []).lanes.fecBad 9).filter (fun (t : Nat) => (run_ []).now (laneSite (4 * 9)) < t + 1000000000) ++
      [(run_ []).now (laneSite (4 * 9))]).length ≤ 1000 ∧
    (let s := ({ laned .data [(F.lnLaneStat_lock, [39], 1)] with
       upd := { (run_ []).upd with commit := some { commit1 with slots := 4 } } } : State)
     s.upd.commit = some { commit1 with slots := 4 } ∧ s.flag F.lnLaneStat_lock [39] = true ∧
      SMap.get 0 s.upd.laneFw 39 ≠ bitsOf 4 2 2) := by decide

/-- The settings of a half cluster, a MAC24 and a block RAM are their image's (log entry 20): whatever they are, a clock that comes by
a wire comes while the die's fabric runs, and the constant 0 never comes. -/
theorem wit_FabricEdges_clock (n : Nat) (ev : Signal → Bool) (w : Bool) :
    (run_ []).clockComes n ev 3 63 (.wire w) = true ∧ (run_ []).clockComes n ev 3 63 .zero = false ∧
    State.reset.clockComes n ev 3 63 (.wire w) = false := by
  have h : (run_ []).runs 15 = true ∧ State.reset.runs 15 = false := by decide
  simp [State.clockComes, h]

theorem wit_FabricEdges_half (w : Bool) (h : Config.halfClock [] 3 131071 1 = .wire w) :
    let e := ((run_ []).enterEdge .alone).draw
    let old := e.2.seen
    old.clockComes e.1 (old.signals e.1) 3 (flaskOfCluster 131071)
      (Config.halfClock (old.logicFrames 3 (flaskOfCluster 131071)) 3 131071 1) = true := by
  intro e old
  have r : old.runs 15 = true := by decide
  have f : old.logicFrames 3 (flaskOfCluster 131071) = [] := by decide
  simp [State.clockComes, f, h, r]

theorem wit_FabricEdges :
    (run_ []).gweAt 3 131071 = false ∧
    ({ run_ [] with fab := { (run_ []).fab with gsrOff := [3], gwe := [3] } } : State).gsrAt 3 131071 = false ∧
    ({ run_ [] with fab := { (run_ []).fab with gsrOff := [3], gwe := [3] } } : State).gweAt 3 131071 = true ∧
    (run_ []).sourceRuns 3 (.pin 11) true = true ∧ (run_ []).sourceRuns 3 (.pin 11) false = false ∧
    (({ run_ [] with fab := { (run_ []).fab with gclk := [(32 * 3 + 31, ⟨none, false, false, none⟩)] } } : State).gclock 3 31).src = none := by
  decide +kernel

/-- A block whose bits give it SEC-DED words and a scrub; blocks whose ports take edges by a wire. -/
theorem wit_BlockRam (n : Nat) (ev : Signal → Bool) (w : Bool) (h : Config.bramFrameBits [] 3 2559 = 3#64)
    (hc : ∀ p, Config.bramClock [] 3 2559 p = .wire w) :
    ((run_ []).bramCfg 3 2559).secded = true ∧ ((run_ []).bramCfg 3 2559).scrub = true ∧ (run_ []).bramReached n ev 3 2559 0 = true ∧
    (run_ []).bramReached n ev 3 2559 1 = true := by
  have f : (run_ []).logicFrames 3 (flaskOfBram 2559) = [] := by decide
  have r : (run_ []).runs 15 = true := by decide
  have x : (run_ []).rawHolds 3 2559 = false := by decide
  simp [State.bramReached, State.bramCfg, State.clockComes, BramCfg.reserved, f, h, hc, r, x]

theorem wit_BlockRam_stopped (n : Nat) (ev : Signal → Bool) : State.reset.bramReached n ev 3 2559 1 = false := by
  have r : State.reset.runs 15 = false := by decide
  simp [State.bramReached, State.clockComes, r]

theorem wit_BlockRam_words :
    dec72 0#72 = .clean 0 ∧ dec72 1#72 = .fixed 0 ∧ sameClock (.global 0 false) (.global 0 false) = true := by decide

theorem wit_BlockRam_raw :
    (run_ []).regWaits .eccBrcmd = false ∧ (run_ []).brRefuse = some .aerr ∧
    (run_ [(F.eccBrsel_raw, [], 1), (F.eccBrsel_block, [], 2559)]).brRefuse = none ∧
    (run_ [(F.eccBrsel_raw, [], 1), (F.eccBrsel_block, [], 2560)]).brRefuse = some .aerr := by decide
/-! ## Power, mailboxes, loads -/

/-- The MC runs its firmware; a plan of the voltage sequencer and the stage of its first step. -/
def powered (l : List (Fld × List Nat × Nat)) (f : PwrSt → PwrSt := id) (t : Nat := 0) : State :=
  let s := run_ l t
  { s with pwr := f { s.pwr with mcRuns := true } }
def raiseStep : SeqStep := ⟨true, [16], true⟩
def lowerStep : SeqStep := ⟨false, [16], true⟩

theorem wit_PowerSequencing_steps :
    (run_ []).pwr.plan = [] ∧
    (let s := powered [] (fun p => { p with plan := [raiseStep] }) 2000000
     s.pwr.plan = [raiseStep] ∧ s.clocked = true ∧ s.pwr.stage = 0 ∧ s.anchor true ≤ s.tb.count + 20000 ∧
      s.nextMoment s.tb.count = s.tb.count) ∧
    (let s := powered [] (fun p => { p with plan := [raiseStep], stage := 1 }) 2000000
     s.pwr.stage = 1 ∧ s.anchor true ≤ s.tb.count ∧ s.nextMoment s.tb.count = s.tb.count) ∧
    (let s := powered [] (fun p => { p with plan := [lowerStep] }) 2000000
     s.pwr.stage = 0 ∧ s.anchor false ≤ s.tb.count) ∧
    (powered [] (fun p => { p with plan := [lowerStep], stage := 2 })).pwr.stage = 2 := by decide

theorem wit_PowerSequencing_limits :
    (run_ []).regWaits .pwrCap = false ∧ (run_ []).regWaits .pwrTrip = false ∧ mayWrite .pwrCap mc = true ∧ mayWrite .pwrCap core0 = false ∧ (11 : Fin 12).val ∈ sensorSites ∧ mayWrite .pwrTrip mc = true ∧
    F.pwrTrip_release.of (0#32 ||| 0x20000000#32) = 1 ∧ mc.requester = 10 ∧
    1312 ≤ (run_ [(F.pwrSens_temp, [11], 1312)]).hottest ∧ (run_ [(F.pwrSens_temp, [11], 1311)]).hottest < 1312 ∧
    (run_ [(F.pwrTrip_active, [], 1)]).flag F.pwrTrip_active [] = true ∧ (run_ []).get F.pwrTrip_warn [] = 1440 ∧
    (((run_ [(F.pwrTrip_warn, [], 1392)]).put F.pwrSens_temp [11] 1392).trip true).get F.pwrTrip_warn [] = 1392 ∧
    (((run_ []).put F.pwrSens_temp [11] 1392).flag F.pwrTrip_active []) = false ∧
    ([1391#12].map BitVec.toNat).foldl max 0 = 1391 ∧
    (let s := run_ [(F.pwrFuse_ceilW, [], 255), (F.pwrCap_capW, [], 100)]
     s.clocked = true ∧ 100 * 98000 ≤ 105 * (1000 * s.get F.pwrFuse_ceilW []) ∧ 98000 ≤ 1000 * s.get F.pwrCap_capW [] ∧
      95 * (1000 * s.get F.pwrCap_capW []) < 100 * 98000) ∧
    (powered [] (fun p => { p with winOver := true })).pwr.winOver = true ∧ (run_ []).pwr.winOver = false ∧
    (powered []).pwr.mcRuns = true ∧ (run_ []).pwr.mcRuns = false := by decide

theorem wit_PowerModesAndSmbus :
    (run_ []).regWaits .pwrMode = false ∧ mayWrite .pwrMode core0 = false ∧ mayWrite .pwrMode mc = true ∧ (run_ []).mode ≠ 2 ∧ (run_ [(F.pwrStat_mode, [], 2)]).mode = 2 ∧
    host.requester = 1 ∧ ((run_ []).writeReg .pwrMode [] 1#32).mode = 0 ∧ (linked.writeReg .pwrMode [] 2#32).linkL0 = true ∧
    ((run_ []).writeReg .pwrMode [] 2#32).linkL0 = false ∧ ((run_ []).writeReg .pwrMode [] 2#32).mode < 2 ∧ (run_ []).pwr.entry ≠ 2 ∧
    (let s := powered [] (fun p => { p with entry := 2, request := 1 })
     s.pwr.entry = 2 ∧ s.noc.tags.all (fun (e : Nat × TagSt) => e.2.out) = true ∧ s.pwr.plan = [] ∧ s.pwr.request = 1) ∧
    State.reset.clk.phase = .heldOff ∧ (run_ []).clk.phase ≠ .heldOff ∧ (255#8).toNat ∉ [1, 2, 3, 16] ∧ (powered []).pwr.mcRuns = true := by
  decide

/-- Channel `c` in state `st`, owned by `o`, received by `r`. -/
def boxed (c st o r : Nat) : State :=
  powered [(F.mbxStat_state, [c], st), (F.mbxStat_owner, [c], o), (F.mbxStat_rcv, [c], r)]

theorem wit_Mailboxes :
    (run_ []).regWaits .mbxLock = false ∧ (run_ []).regWaits .mbxCtrl = false ∧ (run_ []).regWaits .mbxCfg = false ∧
    (run_ []).mbxReach host 7 = false ∧ (run_ []).mbxReach host 31 = true ∧ host.peeks = false ∧ { dbgBus with peek := true }.peeks = true ∧
    (run_ []).get F.mbxStat_state [31] = 0 ∧ (boxed 31 1 1 10).get F.mbxStat_state [31] = 1 ∧
    (boxed 31 1 1 10).get F.mbxStat_owner [31] = host.requester ∧ (boxed 31 2 1 10).get F.mbxStat_rcv [31] = mc.requester ∧
    mayWrite .mbxCfg mc = true ∧ (run_ []).mbxReach mc 0 = true ∧ (run_ []).mbxExpired 31 = false ∧
    ((boxed 31 2 1 10).setMbx 31 { (run_ []).mbxOf 31 with due := 1 }).mbxExpired 31 = true ∧ (run_ []).mcServes 8 = false ∧
    (boxed 8 2 1 10).mcServes 8 = true ∧ knownService 8 ((boxed 8 2 1 10).mbxWord 8 0) = false ∧
    ((boxed 8 2 1 10).setReg .mbxData [8, 0] 0x10001#32).mbxWord 8 0 = 0x10001 ∧
    ((boxed 8 2 1 10).log.flash.filter (fun (e : Nat × List Byte) => e.1 == 5)).getLast? = none ∧
    (([(5, [])] : List (Nat × List Byte)).filter (fun (e : Nat × List Byte) => e.1 == 5)).getLast? = some (5, []) := by decide

theorem wit_Loads :
    (run_ []).regWaits .cfgCmd = false ∧ mayWrite .cfgCmd core0 = false ∧ mayWrite .cfgCmd mc = true ∧ (load_ .header 3 []).loading = true ∧ (run_ []).loading = false ∧
    (run_ []).flag F.glbWirechk_done [] = false ∧
    (run_ [(F.glbWirechk_done, [], 1)]).flag F.glbWirechk_done [] = true ∧
    ((run_ [(F.cfgHdeadline_us, [], 1)]).get F.cfgHdeadline_us [] ≠ 0) ∧ (run_ []).get F.cfgStat_loaded [] = 0 ∧
    (run_ [(F.cfgStat_loaded, [], 8)]).get F.cfgStat_loaded [] ≠ 0 ∧ (load_ .header 3 []).load.stage ≠ .clearing ∧
    (run_ []).load.stage ≠ .header ∧ (run_ []).load.stage ≠ .follower ∧
    (load_ .clearing 1 []).load.stage = .clearing ∧
    ({ load_ .clearing 1 [] with load := { (load_ .clearing 1 []).load with fallBack := true } } : State).load.fallBack = true ∧
    (load_ .clearing 1 []).load.fallBack = false ∧ (load_ .clearing 1 []).get F.cfgStat_lastErr [] ≠ 0x13 ∧
    (load_ .clearing 1 [] (run_ [(F.cfgStat_lastErr, [], 0x13)])).get F.cfgStat_lastErr [] = 0x13 := by decide

theorem wit_Loads_fetch :
    (let s := load_ .header 1 []
     s.load.stage = .header ∧ s.load.src ≠ 3 ∧ s.load.src ≠ 4 ∧
      ((some ⟨[], []⟩ : Option FlashRead).bind (s.flashBytes (s.load.base + s.imageBase) 512)) = none) := by decide

/-- The first bytes of a flash directory whose entry 3 has an image of 4 KiB at 64 KiB, and the directory with its CRC. -/
def dirHead : List Byte := [0x59#8, 0x50#8, 0x44#8, 0x49#8] ++ List.replicate 52 0#8 ++ leBytes 8 65536 ++ leBytes 8 4096
def dirBody : List Byte := dirHead ++ List.replicate 4020 0#8
def dir3 : List Byte := dirBody ++ leBytes 4 (crc32 dirBody).toNat

theorem dirBody_length : dirBody.length = 0xFFC := by
  rw [dirBody, List.length_append, List.length_replicate]
  decide

theorem leNat_leBytes4 (v : BitVec 32) : leNat (leBytes 4 v.toNat) = v.toNat := by
  simp [leBytes, leNat]
  omega

/-- A device whose one flash device brings the directory, when a load from pattern 3 begins. -/
def withDir : State :=
  let s := run_ [(F.cfgStat_nflash, [], 1)]
  (({ s with load := { s.load with flash := ⟨⟨dir3, []⟩, ⟨[], []⟩, 2 ^ 20, 0⟩ } } : State).wake 1).beginLoad 1 3 0

/-- A good directory that copy A brings is the one a load picks. -/
theorem pickDir_first (s : State) (d : List Byte) (h : dirOk d = true) (a : s.flashBytes 0 4096 s.load.flash.copyA = some d) :
    s.pickDir = some (d, false) := by
  simp [State.pickDir, a, Option.filter, h]

theorem dir3_good : dirOk dir3 = true := by
  have t : dir3.take 0xFFC = dirBody := by rw [dir3, ← dirBody_length, List.take_left']; rfl
  have d : dir3.drop 0xFFC = leBytes 4 (crc32 dirBody).toNat := by rw [dir3, ← dirBody_length, List.drop_left']; rfl
  have m : slice dir3 0 4 = [0x59#8, 0x50#8, 0x44#8, 0x49#8] := rfl
  rw [dirOk, t, m, fieldAt, slice, d, List.take_of_length_le (by simp [leBytes]), leNat_leBytes4]
  simp

theorem wit_Loads_pattern : withDir.pickDir = some (dir3, false) := by
  have n : dir3.length = 4096 := by rw [dir3, List.length_append, dirBody_length]; simp [leBytes]
  have k : withDir.lockStep = false := by decide +kernel
  refine pickDir_first withDir dir3 dir3_good ?_
  rw [show withDir.load.flash.copyA = ⟨dir3, []⟩ from rfl, State.flashBytes, k]
  simp [n]
  all_goals exact List.take_of_length_le (by omega)

theorem wit_Loads_entry :
    (dirEntry dir3 3).1 = 65536 ∧ (dirEntry dir3 3).2 = 4096 ∧ withDir.get F.cfgStat_nflash [] ≠ 0 ∧ 65536 + 4096 ≤ withDir.flashSize := by
  refine ⟨rfl, rfl, by decide +kernel, by decide +kernel⟩

/-- A public key of RFC 6979 (A.2.5). -/
def key1 : List Byte :=
  beBytes 64 0x60fed4ba255a9d31c961eb74c6356d68c049b8923b61fa6ce669622e60f29fb67903fe1008b8bc99a41ae9e95628bc64f2f1b20c2d7e9f5177a3c294d4462299

/-- The header of a full image for die 0 with one chunk of 16 bytes and a table of zeros, signed under that key. -/
def head1 : List Byte :=
  [0x59#8, 0x43#8, 0x53#8, 0x54#8] ++ leBytes 2 1 ++ leBytes 2 0x8640 ++ [0#8, 1#8, 0#8, 0#8, 0#8, 0#8, 1#8, 0#8] ++ leBytes 2 0x3000
    ++ List.replicate 6 0#8 ++ leBytes 8 16 ++ leBytes 4 1 ++ List.replicate 28 0#8
    ++ beBytes 32 0x66687aadf862bd776c8fc18b8e9f8e20089714856ee233b3902a591d0d5f2925 ++ List.replicate 32 0#8 ++ key1
    ++ List.replicate 256 0#8
    ++ beBytes 64 0xefd48b2aacb6a8fd1140dd9cd45e81d69d2c877b56aaf991c34d0ea84eaf371636868edaaa35bace07eb1ea50252f967b8fa0d02138fc6732a9f421dbf5e53ac

/-- The header for flask 0, whose signature does not agree. -/
def head2 : List Byte := head1.take 9 ++ [2#8] ++ head1.drop 10

/-- A host load whose header has arrived with its table; owner key 0 is fused with the digest of the header's key. -/
def fused (h : List Byte) : State :=
  let s := load_ .header 3 []
  { s with otp := { s.otp with ownerKeys := [(0, sha256 key1)] }, load := { s.load with staging := h ++ List.replicate 512 0#8 } }

theorem wit_Loads_header :
    headerForm head1 = true ∧ headerForm (List.replicate 512 0#8) = false ∧ hKind head1 = 1 ∧ head1.length = 512 ∧ tableEnd head1 = 1024 ∧
    (fused head1).load.staging.length = 1024 ∧ (fused head1).load.staging.take 512 = head1 ∧
    slice ((fused head1).load.staging.take 1024) 512 32 = List.replicate 32 0#8 ∧
    headerForm head2 = true ∧ hKind head2 = 2 := by decide +kernel

theorem wit_Loads_codes :
    (fused head1).headerCode 3 head1 (List.replicate 32 0#8) false = 0 ∧ (fused head2).headerCode 3 head2 (List.replicate 32 0#8) false ≠ 0 := by
  decide +kernel
/-! ## Images and start-up -/

theorem wit_ImageRecords_chunk :
    (let h := hdr 1 1 0 1 16
     let s := load_ .write 1 h
     s.load.stage = .write ∧ s.load.inChunk = false ∧ s.load.chunk < hChunks s.load.hdr ∧
      (hDies s.load.hdr).find? (fun d => (dieRoute s.liveEdges 8 d).isNone) = none) ∧ (run_ []).load.stage ≠ .write := by decide

theorem wit_ImageRecords_fetch :
    (let h := hdr 1 1 0 1 16
     let n := chunkLen h 0
     (load_ .write 3 h).fetchImage 1024 n none = .wait ∧
      (load_ .write 1 h).fetchImage 1024 n none = .bad (load_ .write 1 h) ∧ (load_ .write 1 h).load.src ≠ 3 ∧
      (load_ .write 1 h).load.src ≠ 4) := by
  exact ⟨rfl, rfl, by decide, by decide⟩

/-- A host load whose chunk of 16 bytes has arrived, with an entry of its digest table. -/
def arrived (entry : BitVec 256) : State :=
  let s := load_ .write 3 (hdr 1 1 0 1 16)
  { s with load := { s.load with staging := record 15 0 0 0 [], table := [entry] } }

/-- A chunk whose digest stands in the table, and one whose digest does not. -/
theorem wit_ImageRecords_digest :
    (let s := arrived (sha256 (record 15 0 0 0 []))
     s.load.src = 3 ∧ chunkLen s.load.hdr 0 = 16 ∧ s.load.staging.length = 16 ∧
      sha256 (s.load.staging.take 16) = s.load.table.getD 0 0#256) ∧
    (let s := arrived 0#256
     sha256 (s.load.staging.take 16) ≠ s.load.table.getD 0 0#256) ∧
    (load_ .write 3 (hdr 1 1 0 1 16)).load.staging.length < 16 := by decide +kernel

theorem wit_ImageRecords_payload :
    (load_ .write 1 (hdr 1 1 0 1 16)).payload (hdr 1 1 0 1 16) 0 [1#8] = some [1#8] ∧
    (load_ .write 1 (hdr 1 1 0 1 16)).payload (List.replicate 12 0#8 ++ [2#8]) 0 [1#8] = none := by decide

/-- Whether a record of kind `k` stands at the head of the chunk of a state and is legal. -/
def legalRec (s : State) (k : Nat) : Bool :=
  s.load.inChunk && (match parseRec s.load.rest with
    | some (r, _) => r.kind == k && s.recOk r
    | none => false)

theorem wit_ImageRecords_kinds :
    legalRec (chunk_ (record 2 0 4 0x3000 [1#8, 2#8, 3#8, 4#8])) 2 = true ∧
    legalRec (chunk_ (record 3 0 0 0 [])) 3 = true ∧ legalRec (chunk_ (record 4 0 4 0 [2#8, 0#8, 0#8, 0#8])) 4 = true ∧
    legalRec (chunk_ (record 15 0 0 0 [])) 15 = true ∧ legalRec (chunk_ (record 0 0 0 0 [])) 0 = true ∧
    (chunk_ []).load.chunk ≠ hChunks (chunk_ []).load.hdr := by decide

/-- The last frame of a die, and a frame that makes an illegal flask. -/
theorem wit_ImageRecords_frames : legalRec (chunk_ (record 1 0 0 49152 [])) 1 = true := by decide

theorem wit_ImageRecords_illegal (s : State) (h : s.flaskIllegal 0 0 = true) :
    ([0] : List Nat).any (fun f => flaskOfFrame f == some 0 && !contentFrame f) = true ∧ s.flaskIllegal 0 0 = true := ⟨by decide, h⟩

theorem wit_ImageRecords_table :
    (chunk_ []).tableOk 0 [2#8, 0#8, 0#8, 0#8] = true ∧ (chunk_ []).tableOk 0 [1#8, 0#8, 0#8, 0#8] = false ∧
    (chunk_ []).banksOk = true ∧
    (let working := (groupsOf 0).filter (fun (g : Nat) => !((chunk_ []).flag F.glbXgstat_failed [g, 0] || (chunk_ []).flag F.glbXgstat_failed [g, 1]))
     ¬ working.length < fieldAt [2#8, 0#8, 0#8, 0#8] 0 1 + (chunk_ []).hubIo 0 [2#8, 0#8, 0#8, 0#8] + fieldAt [2#8, 0#8, 0#8, 0#8] 2 1) := by
  decide

theorem wit_ImageRecords_pins :
    (slice (List.replicate 1216 0#8 ++ List.replicate 14 3#8) 1216 14).all (fun o => o == 0#8 || o == 2#8 || o == 3#8) = true ∧
    (slice (List.replicate 1216 0#8 ++ List.replicate 14 1#8) 1216 14).all (fun o => o == 0#8 || o == 2#8 || o == 3#8) = false := by
  constructor <;> (rw [slice, List.drop_left' List.length_replicate]; decide)

theorem wit_ImageRecords_settle :
    ((chunk_ (List.replicate 15 0#8)).load.rest.length < 16 ∧ (chunk_ (List.replicate 15 0#8)).load.rest.all (· == 0#8) = true) ∧
    ((chunk_ [1#8]).load.rest.length < 16 ∧ (chunk_ [1#8]).load.rest.all (· == 0#8) = false) := by decide

/-- Start-up of a native image (kind 1) or a flask (kind 2), with the events in `done` past, at step 15 of the sequence. -/
def starting (kind done : Nat) : State :=
  let s := load_ .startup 1 (hdr kind 1 0 1 16) (run_ [] 16000)
  { s with load := { s.load with step0 := 1000, events := BitVec.ofNat 4 done } }

theorem wit_StartUpEvents_sequence :
    (load_ .training 1 (hdr 1 1 0 1 16)).load.stage = .training ∧
    (let s := load_ .trained 1 (hdr 1 1 0 1 16) (run_ [] 1000)
     s.load.stage = .trained ∧ s.now 8 % 1000 = 0 ∧ s.load.step0 ≤ s.now 8 ∧ s.flaskLoad = false ∧ hFollower s.load.native = 0) ∧
    (load_ .trained 1 (hdr 1 1 0 1 16) (run_ [] 1001)).now 8 % 1000 ≠ 0 ∧
    (let s := load_ .trained 1 (hdr 2 0 0 1 16) (run_ [] 1000)
     s.load.stage = .trained ∧ s.now 8 % 1000 = 0 ∧ s.load.step0 ≤ s.now 8 ∧ s.flaskLoad = true) := by decide

theorem wit_StartUpEvents_events :
    ((starting 1 0).eventDue 0 = true ∧ (starting 1 1).eventDue 1 = true ∧ (starting 1 3).eventDue 2 = true ∧
      (starting 1 7).eventDue 3 = true ∧ (starting 1 0).flaskLoad = false ∧ hFollower (starting 1 0).load.native = 0) ∧
    ((starting 2 0).eventDue 0 = true ∧ (starting 2 1).eventDue 1 = true ∧ (starting 2 3).eventDue 2 = true ∧
      (starting 2 7).eventDue 3 = true ∧ (starting 2 0).flaskLoad = true) ∧
    ((starting 1 1).eventDue 0 = false ∧ (starting 1 0).eventDue 1 = false ∧ (starting 1 0).eventDue 2 = false ∧
      (starting 1 0).eventDue 3 = false) := by decide

theorem wit_StartUpEvents_release : (1 : Fin 3) = 1 ∧
    ({ run_ [] 4000 with load := { (run_ []).load with legacySteps := [2000, 4000, 5000], legacy := 5#4 } } : State).load.legacy ||| 2#4 = 7#4 := by
  decide

theorem wit_StartUpEvents_link :
    (run_ [(F.pciStat_hlDis, [], 1)]).flag F.pciStat_hlDis [] = true ∧ (run_ []).flag F.pciStat_hlDis [] = false := by decide

theorem wit_StartUpEvents_legacy :
    (let s := ({ run_ [] 4000 with load := { (run_ []).load with legacySteps := [2000, 4000, 5000] } } : State)
     s.load.legacySteps[1]? = some 4000 ∧ 4000 ≤ s.now 8 ∧ s.load.legacy.getLsbD 1 = false ∧
      s.load.legacySteps[2]? = some 5000 ∧ s.now 8 < 5000) ∧ (run_ []).load.legacySteps[0]? = none := by decide

theorem wit_StartUpEvents_deadline :
    (let s := load_ .write 3 (hdr 1 1 0 1 16) (run_ [] 99)
     let t := ({ s with load := { s.load with deadline := 100 } } : State)
     t.load.deadline ≠ 0 ∧ t.load.deadline ≤ t.now 8 + 1 ∧ t.hostLoading = true ∧ t.load.stage ≠ .startup) ∧
    (run_ []).load.deadline = 0 ∧ (run_ []).hostLoading = false := by decide

theorem wit_StartUpEvents_wires :
    (run_ []).clk.phase = .running ∧ (run_ []).flag F.glbWirechk_done [] = false ∧
    (run_ [(F.glbWirechk_done, [], 1)]).flag F.glbWirechk_done [] = true := by decide

/-! ## Flasks and the fettler -/

theorem wit_FlaskReadback_lock :
    ((run_ []).get F.ftlRblock_owner [] = 0 ∧ host.peeks = false ∧ host.requester ∈ [1, 10, 11]) ∧
    core0.requester ∉ [1, 10, 11] ∧ (run_ []).regWaits .ftlRblock = false ∧ (run_ []).regWaits .ftlRbcmd = false ∧ (run_ [(F.ftlRblock_owner, [], 1)]).rbHolds host = true ∧ (run_ []).rbHolds host = false := by decide

theorem wit_FlaskReadback_commands :
    (let s := run_ [(F.ftlRblock_owner, [], 1)]
     s.rbHolds host = true ∧ s.flag F.ftlRbcmd_busy [] = false ∧ s.reloading 63 = false ∧ s.regionEnc 0 49151 = false ∧
      flaskOfFrame 49151 = none) ∧
    (run_ [(F.ftlRblock_owner, [], 1), (F.ftlRbcmd_busy, [], 1)]).flag F.ftlRbcmd_busy [] = true ∧
    (run_ [(F.ftlFlask_state, [63], 1)]).reloading 63 = true ∧
    (run_ [(F.ftlFlask_enc, [0], 1)]).regionEnc 0 0 = true ∧ host.requester ≠ 10 ∧ mc.requester = 10 := by decide

/-- A capture armed at time `t` on network 0 of flask 0. -/
def armed (t : Nat) : State := { run_ [] 5 with fab := { (run_ []).fab with capture := some ⟨0, 0, t⟩ } }

/-- Where the network chosen runs and is enabled, the clock edge comes. -/
theorem wit_FlaskReadback_comes (h : (armed 5).netComes (armed 5).free ((armed 5).signals (armed 5).free) 0 0 = true) :
    (armed 5).fab.capture = some ⟨0, 0, 5⟩ ∧ 5 ≤ (armed 5).now 0 ∧
      (armed 5).netComes (armed 5).free ((armed 5).signals (armed 5).free) 0 0 = true := ⟨by decide, by decide, h⟩

theorem wit_FlaskReadback_lost (h : (armed 5).netComes (armed 5).free ((armed 5).signals (armed 5).free) 0 0 = false) :
    (armed 5).fab.capture = some ⟨0, 0, 5⟩ ∧ (armed 5).netComes (armed 5).free ((armed 5).signals (armed 5).free) 0 0 = false :=
  ⟨by decide, h⟩

theorem wit_FlaskReadback_taken :
    (armed 5).fab.capture = some ⟨0, 0, 5⟩ ∧ 5 ≤ (armed 5).now 0 ∧ (armed 6).now 0 < 6 ∧ (run_ []).fab.capture = none ∧
    (run_ [(F.ftlRblock_owner, [], 1)]).rbHolds host = true := by decide

/-- A die whose fettler scans frame 0, with a signature entry `sig`. -/
def scanned (sig : BitVec 53) (l : List (Fld × List Nat × Nat) := []) : State :=
  (run_ ([(F.ftlStat_scanning, [0], 1), (F.ftlFlask_state, [0], 2)] ++ l)).setSig 0 0 sig

theorem wit_FettlerRepair_check :
    (scanned 0).flag F.ftlStat_scanning [0] = true ∧ (scanned 0).runs 20 = true ∧ (scanned 0).checked 0 0 = true ∧
    (scanned 0).sig 0 0 = 0#53 ∧ dec53 0#53 = .clean 0 ∧ dec53 1#53 = .fixed 0 ∧ dec53 3#53 = .bad 3 ∧
    (scanned 0).fab.skip.contains (frameKey 0 0) = false ∧ (SMap.get [] (scanned 0).fab.requests 0).length < 16 ∧
    (run_ []).flag F.ftlStat_scanning [0] = false ∧ (run_ []).checked 0 0 = false := by decide

theorem wit_FettlerRepair_full :
    (let s := ({ scanned 0 with fab := { (scanned 0).fab with requests := [(0, List.replicate 16 ⟨false, 0, 0⟩)] } } : State)
     16 ≤ (SMap.get [] s.fab.requests 0).length) ∧
    (let s := ({ scanned 0 with fab := { (scanned 0).fab with skip := [frameKey 0 0] } } : State)
     s.fab.skip.contains (frameKey 0 0) = true) := by decide

theorem wit_FettlerRepair_pop :
    (let s := ({ run_ [] with fab := { (run_ []).fab with requests := [(0, [⟨false, 0, 0⟩])] } } : State)
     SMap.get [] s.fab.requests 0 = [⟨false, 0, 0⟩]) ∧ SMap.get [] (run_ []).fab.requests 0 = [] ∧
    host.peeks = false ∧ host.requester ≠ 10 ∧ mc.requester = 10 := by decide

theorem wit_FettlerRepair_write :
    (run_ []).regWaits .ftlRcmd = false ∧ (run_ []).runs 20 = true ∧ (run_ [(F.clkGate_run, [20], 0)]).runs 20 = false ∧
    (run_ []).flag F.ftlRcmd_busy [] = false ∧ (run_ [(F.ftlRcmd_busy, [], 1)]).flag F.ftlRcmd_busy [] = true ∧
    (run_ [(F.ftlRcmd_busy, [], 1)]).load.inChunk = false ∧ (chunk_ []).load.inChunk = true := by decide

/-! ## Updates, owners and cores -/

theorem wit_SetUpdate :
    (run_ []).regWaits .updCmd = false ∧ (run_ [(F.updStat_state, [], 3)]).pwr.mcRuns = false ∧ (run_ []).pwr.mcRuns = false ∧
    mc.requester = 10 ∧ (run_ [(F.updStat_state, [], 4)]).upd.trialLeft = 0 ∧
    ({ run_ [] with upd := { (run_ []).upd with commit := some commit1 } } : State).upd.commit = some commit1 ∧
    mayWrite .updCmd none_ = false ∧ mayWrite .updCmd host = true ∧ (run_ [(F.updStat_state, [], 4)]).get F.updStat_state [] = 4 ∧
    (run_ []).get F.updStat_state [] = 0 ∧ (run_ [(F.updStat_state, [], 3)]).get F.updStat_state [] = 3 ∧
    (run_ [(F.updStat_state, [], 2)]).get F.updStat_state [] = 2 ∧ (run_ [(F.updStat_state, [], 5)]).get F.updStat_state [] = 5 ∧
    (let s := ({ run_ [] with pwr := { (run_ []).pwr with mcRuns := true } } : State)
     s.pwr.mcRuns = true ∧ s.pwr.mcHalted = false) ∧
    (let s := ({ run_ [] with upd := { (run_ []).upd with commit := some commit1, trialLeft := 0 } } : State)
     s.upd.commit = some commit1 ∧ s.upd.changed.contains 1 = false ∧ s.upd.trialLeft = 0) ∧
    State.reset.clk.phase = .heldOff ∧ (run_ []).clk.phase ≠ .heldOff := by decide

/-- A manifest that reads back, and the checks it fails: none of its bytes is there. -/
theorem wit_SetUpdate_manifest : manifestForm (List.replicate 512 0#8) = false := by decide

/-- A channel of MC firmware that holds a message of 8 words, the first `w`. -/
def served (c w : Nat) : State :=
  let s := run_ [(F.mbxStat_state, [c], 2), (F.mbxStat_rcv, [c], 10)]
  let t := s.setReg .mbxData [c, 0] (BitVec.ofNat 32 w)
  { t with pwr := { t.pwr with mcRuns := true } }

theorem wit_OwnerAndAttestation_served :
    (served 0 0x50001).mcServes 0 = true ∧ (served 0 0x50001).mbxWord 0 0 = 0x50001 ∧ (served 8 0x20001).mcServes 8 = true ∧
    (served 8 0x20001).mbxWord 8 0 = 0x20001 ∧ (served 1 0x30001).mbxWord 1 0 = 0x30001 ∧ (served 1 0x40001).mbxWord 1 0 = 0x40001 ∧
    (served 1 0x40002).mbxWord 1 0 = 0x40002 ∧ (run_ []).mcServes 0 = false := by decide

theorem wit_OwnerAndAttestation_keys :
    (run_ []).upd.nonce = none ∧ SMap.find? (run_ []).otp.ownerKeys 3 = none ∧ SMap.find? (run_ []).otp.imageKeys 4 = none ∧
    (run_ []).otp.imageRev.getLsbD 3 = false ∧ (run_ []).otp.legacyRev.getLsbD 1 = false ∧ SMap.find? (run_ []).otp.legacyKeys 1 = none ∧
    (let s := ({ run_ [] with otp := { (run_ []).otp with hlDis := true } } : State)
     s.otp.hlDis = true) := by decide

theorem wit_CoreControl_boot :
    (let s := run_ []
     s.flag F.ccCoreCtrl_rst [0] = false ∧ s.flag F.ccCoreCtrl_running [0] = false ∧ (s.coreOf 0).boot = 0 ∧ s.clocked = true ∧
      s.pwr.mcRuns = false ∧ s.dramGate s.bootAddr = .absent) ∧
    (let s := mem_ [(F.ccBootHi_addr, [], 256)]
     s.bootAddr = hbm0 ∧ s.dramGate s.bootAddr = .go ⟨true, 0, 0⟩ ∧ s.clocked = true ∧ s.pwr.mcRuns = false ∧ s.flag F.ccCoreCtrl_rst [0] = false ∧
      s.flag F.ccCoreCtrl_running [0] = false ∧ (s.coreOf 0).boot = 0) ∧
    (let s := ({ run_ [] with pwr := { (run_ []).pwr with mcRuns := true, mcHalted := true } } : State)
     s.pwr.mcRuns = true ∧ s.pwr.mcHalted = true) ∧
    (run_ [(F.ccCoreCtrl_running, [3], 1)]).flag F.ccCoreCtrl_running [3] = true ∧
    (run_ [(F.dbgCfg_hold, [], 1)]).flag F.dbgCfg_hold [] = true := by decide

/-- A boot image without chunks passes; one whose chunk does not agree with its table fails. -/
theorem wit_CoreControl_chunks :
    (let s := ({ mem_ [(F.ccBootHi_addr, [], 256)] with pwr := { (run_ []).pwr with mcRuns := true } } : State)
     s.dramGate s.bootAddr = .go ⟨true, 0, 0⟩ ∧ s.pwr.mcRuns = true ∧ s.pwr.mcHalted = false ∧
      (bootChunks [] [] s.bootAddr (hChunks []) 0 [] s).1 = none ∧
      (bootChunks (hdr 1 1 0 1 16) [] s.bootAddr (hChunks (hdr 1 1 0 1 16)) 0 [] s).1.isSome = true) := by decide +kernel

theorem wit_CoreControl_writes :
    (run_ []).regWaits .ccCoreCtrl = false ∧ (run_ []).regWaits .ccWdt = false ∧ (run_ []).regWaits .ccCmoHi = false ∧
    host.requester ≠ 2 ∧ mayWrite .ccCoreCtrl host = true ∧ mayWrite .ccCoreCtrl core0 = false ∧ core0.requester = 2 ∧ mayWrite .ccWdt host = true ∧
    mayWrite .ccWdt core0 = false ∧ (run_ []).flag F.ccCoreCtrl_rst [0] = false ∧
    (run_ [(F.ccCoreCtrl_rst, [0], 1)]).flag F.ccCoreCtrl_rst [0] = true ∧ mayWrite .ccCmoHi host = true ∧
    mayWrite .ccCmoHi core0 = false := by decide

theorem wit_CoreControl_watchdog :
    (run_ [(F.ccWdt_en, [0], 1)]).wdtDue 0 = true ∧ (run_ []).wdtDue 0 = false ∧
    (run_ [(F.ccWdt_en, [0], 1)]).flag F.ccWdt_expired [0] = false ∧
    (run_ [(F.ccWdt_en, [3], 1), (F.ccWdt_expired, [3], 1)]).wdtDue 3 = true ∧
    (run_ [(F.ccWdt_en, [3], 1), (F.ccWdt_expired, [3], 1)]).flag F.ccWdt_expired [3] = true := by decide

theorem wit_CoreEvents_io :
    (let s := run_ [(F.ccCoreCtrl_running, [0], 1)]
     s.hartUp 0 = true ∧ s.hartHalted 0 = false ∧ cacheable 0x0F0000000000 = false ∧ s.ioWaits 0 = false) ∧
    (run_ []).hartUp 0 = false ∧ cacheable 0 = true := by decide

/-- Core 0 runs with trigger 0 set to break in machine mode on execution at address 0, with an action. -/
def triggered (action : Nat) (dmode : Bool) : State :=
  (run_ [(F.ccCoreCtrl_running, [0], 1)]).setHreg 0 0x8001
    (BitVec.ofNat 64 (6 * 2 ^ 60 + 2 ^ 59 * b2n dmode + 4096 * action + 2 ^ 6 + 2 ^ 2))

theorem wit_CoreEvents_trigger :
    (let s := triggered 0 false
     s.hartUp 0 = true ∧ s.hartHalted 0 = false ∧ (s.hreg 0 0x8001).getLsbD 11 = false ∧
      s.chainHits 0 (fun k => s.trigHits 0 k 0 0 0 3) 0 = true ∧ bits64 (s.hreg 0 0x8001) 15 12 = 0) ∧
    (bits64 ((triggered 1 true).hreg 0 0x8001) 15 12 = 1 ∧ ((triggered 1 true).hreg 0 0x8001).getLsbD 59 = true) ∧
    ((triggered 1 false).hreg 0 0x8001).getLsbD 59 = false ∧ 2 ≤ bits64 ((triggered 15 false).hreg 0 0x8001) 15 12 ∧
    (triggered 0 false).chainHits 0 (fun k => (triggered 0 false).trigHits 0 k 1 0 0 3) 0 = false := by decide

theorem wit_CoreEvents_unlock :
    (run_ []).regWaits .dbgUnlkcmd = false ∧ dbgBus.requester = 11 ∧ mc.requester = 10 ∧ host.requester ≠ 11 ∧ (run_ []).flag F.dbgUnlkcmd_busy [] = false ∧
    (run_ [(F.dbgUnlkcmd_busy, [], 1)]).flag F.dbgUnlkcmd_busy [] = true ∧ (run_ []).dbg.unlock = none ∧
    (let s := ({ run_ [] with dbg := { (run_ []).dbg with unlock := some (leBytes 2 0x302) } } : State)
     s.dbg.unlock = some (leBytes 2 0x302) ∧ fieldAt (leBytes 2 0x302) 1 1 % 4 = 3 ∧ s.unlockResult (leBytes 2 0x302) = 1) := by decide

/-! ## Debug and accesses -/

theorem wit_TapAndBoundaryScan :
    (run_ []).get F.cfgStat_loaded [] = 0 ∧ (run_ [(F.cfgStat_loaded, [], 1)]).get F.cfgStat_loaded [] ≠ 0 ∧
    (0x10#8).toNat ∈ [0x01, 0x02, 0x03, 0x04, 0x05, 0x06, 0x07, 0x10, 0x11] ∧ (0xFF#8).toNat ∉ [0x01, 0x02, 0x03, 0x04, 0x05, 0x06, 0x07, 0x10, 0x11] := by decide

/-- Hart 0 runs, and halted. -/
def hart0 (halted : Nat) : State := run_ [(F.ccCoreCtrl_running, [0], 1), (F.ccCoreCtrl_halted, [0], halted)]

theorem wit_DebugModule_harts :
    (hart0 0).dmRuns = true ∧ (hart0 0).selectable 0 = true ∧ (hart0 0).hartHalted 0 = false ∧ (hart0 0).hartUp 0 = true ∧
    (hart0 1).hartHalted 0 = true ∧ (hart0 1).hartUp 0 = true ∧ (hart0 0).cmdErr = 0 ∧ (hart0 0).hartUp 1 = false ∧
    ((hart0 0).setCmdErr 4).cmdErr ≠ 0 ∧ State.reset.dmRuns = false ∧ (run_ []).selectable 4 = false ∧
    (run_ [(F.dbgCfg_mcScope, [], 1)]).selectable 4 = true ∧ ((hart0 1).hreg 0 csrDcsr).getLsbD 2 = false ∧
    (((hart0 1).setHreg 0 csrDcsr 4#64).hreg 0 csrDcsr).getLsbD 2 = true ∧ ((hart0 1).hartWrite 0 0xF14 0#64).isNone = true ∧
    ((hart0 1).hartWrite 0 0x1001 0#64).isSome = true := by decide

theorem wit_DebugModule_bus :
    (run_ []).dbg.sberror = 0 ∧ (run_ []).sbBusy = false ∧ hubBlock 0x0F0000000000 = true ∧ (run_ []).runs 5 = true ∧
    (run_ [(F.clkGate_run, [5], 0)]).runs 5 = false ∧ hubBlock 0 = false ∧
    (let r := dbgReq ⟨61, 0, false, false⟩ 3 false hbm0 8 0#64
     (mem_ []).injects r = true ∧ ((mem_ []).requestNow r).1.isSome = true ∧ (run_ [(F.clkGate_run, [5], 0)]).injects r = false) ∧
    ((run_ []).setDm 0x38 0x00200000#32).sbBusy = true ∧ (run_ []).dmiStat = 0 ∧ ((run_ []).setDm 0x80 3#32).dmiStat ≠ 0 := by decide

theorem wit_AccessesAndTarod_targets :
    (inBlock 0 64 = true ∧ inBlock 60 8 = false) ∧ targetOf 0 = .memory ∧ targetOf 0x020000000000 = .user 0 ∧
    targetOf 0x030000000000 = .tile 0 0 0 ∧ targetOf 0x030000002000 = .tile 0 0 0x2000 ∧ targetOf 0x030000004000 = .tile 0 0 0x4000 ∧
    targetOf 0x0F0000000000 = .words ∧ targetOf 0x0FF000000000 = .secure ∧ targetOf 0xFFFFFFFFFFFC = .nowhere := by decide

theorem wit_AccessesAndTarod_words :
    (run_ []).wordJudge host (regAddr .ccCmoLo []) true 0#32 = none ∧ (run_ []).wordJudge core0 (regAddr .ccCmoLo []) true 0#32 = some .serr ∧
    (run_ []).wordJudge host 0x0F010BFFFFFC true 0#32 = some .aerr ∧ (0x0F0100000002#48).toNat % 4 ≠ 0 ∧
    (0x0FF000000000#48).toNat % 4 = 0 ∧ targetOf (0x0FF000000000#48).toNat = .secure ∧ (run_ []).secure host = false ∧ (run_ []).secure mc = true ∧
    targetOf (regAddr .ccCmoLo []) ≠ .secure := by decide

theorem wit_AccessesAndTarod_tarod :
    (run_ []).tarod = none ∧ (run_ [(F.glbTarod_active, [], 1)]).tarod = some 2 ∧
    (run_ [(F.ftlRblock_owner, [], 1)]).rbHolds host = true ∧ (run_ []).rbHolds host = false ∧ (run_ []).regWaits .ftlTrbcmd = false ∧
    (run_ [(F.ftlTrbcmd_busy, [], 1)]).flag F.ftlTrbcmd_busy [] = true ∧ (run_ [(F.glbTarod_active, [], 1)]).flag F.glbTarod_enc [] = false ∧
    mc.requester = 10 ∧ (run_ [(F.glbTarod_enc, [], 1)]).flag F.glbTarod_enc [] = true ∧ (run_ []).flag F.ftlTrbcmd_busy [] = false := by decide

theorem wit_AccessesAndTarod_frame (good : Config.legacyFrameOk 0 = true) (bad : Config.legacyFrameOk (2 ^ 24 - 1) = false) :
    (let s := run_ [(F.ftlRblock_owner, [], 1), (F.glbTarod_active, [], 1)]
     s.rbHolds host = true ∧ s.tarod = some 2 ∧ s.flag F.glbTarod_enc [] = false ∧ Config.legacyFrameOk (0#24).toNat = true ∧
      Config.legacyFrameOk (0xFFFFFF#24).toNat = false) := ⟨by decide, by decide, by decide, good, bad⟩

/-! ## The machine as a whole -/

theorem wit_CommandAtFront :
    ({ State.reset with pending := [.powerOff] } : State).pending = .powerOff :: [] := by decide

theorem wit_IdleStep :
    State.reset.pending = [] ∧ State.reset.tb.running = false ∧ (run_ []).tb.running = true ∧ (run_ []).tb.half = false ∧
    (run_ []).pending = [] ∧ ({ run_ [] with tb := { (run_ []).tb with half := true } } : State).tb.half = true := by decide

theorem wit_StepKeepsForm : Canonical State.reset := by
  refine ⟨by decide, by decide, ?_, by decide⟩
  intro k
  show ([] : List LogEntry).length ≤ 8
  decide

/-! ## Manifests and requests in memory -/

theorem wit_SetUpdate_zero :
    (memRead 8 hbm0 (mem_ [])).1 = some (List.replicate 512 0#8) ∧
    (memRead 8 hbm0 (mem_ [])).2.manifestError (List.replicate 512 0#8) = 1 := by decide +kernel

/-- A manifest of heat 9 with the four firmware entries, signed by owner key 0 under the key of RFC 6979 (A.2.5). -/
def manifest9 : List Byte :=
  [0x59#8, 0x4D#8, 0x41#8, 0x4E#8] ++ leBytes 2 1 ++ leBytes 2 0x8640 ++ leBytes 4 9 ++ [0x10#8, 4#8] ++ List.replicate 18 0#8
    ++ (leBytes 1 1 ++ List.replicate 39 0#8) ++ (leBytes 1 2 ++ List.replicate 39 0#8) ++ (leBytes 1 3 ++ List.replicate 39 0#8)
    ++ (leBytes 1 4 ++ List.replicate 39 0#8) ++ List.replicate 160 0#8 ++ key1 ++ List.replicate 32 0#8
    ++ beBytes 64 0xefd48b2aacb6a8fd1140dd9cd45e81d69d2c877b56aaf991c34d0ea84eaf3716f0f7aad1721ab14caf5c1468917ff116edf1fdedbf2a4aeae9f19394c4af2aea

/-- The device runs the entries of this manifest under an older heat; the owner's key is fused. -/
def older : State :=
  { run_ [] with
    otp := { (run_ []).otp with ownerKeys := [(0, sha256 key1)] }
    upd := { (run_ []).upd with commit := some { commit1 with manifest := manifest9 } } }

/-- The manifest passes its checks and changes no entry. -/
theorem wit_SetUpdate_accepted : older.manifestError manifest9 = 0 ∧ older.changedEntries manifest9 = [] := by decide +kernel

/-- An abstract access of hart 0 to memory that answers, and one to memory that has not been trained. -/
theorem wit_DebugModule_memory :
    ((mem_ []).hartMem 0 false hbm0 8 0#64).1 = some 0#64 ∧ ((run_ []).hartMem 0 false hbm0 8 0#64).1 = none := by decide +kernel

/-- A request of an owner command is read from memory. -/
theorem wit_OwnerAndAttestation_request : (memRead 3 hbm0 (mem_ [])).1.isSome = true := by decide +kernel
/-! ## Tests: the numbers come from the worked examples of the spec -/

/-- Two timestamps extended ("Worked example: extending two stamps"). -/
theorem test_extend_stamps :
    extendStamp 0x1234567890 0x6702 = 0x1234567020 ∧ extendStamp 0x1234500123 0xFFF0 = 0x12344FFF00 := by decide

/-- The tile of "one tile between two ports": latency 4 from port 20, 7 to port 22. -/
theorem test_spine_latency : spineLat 677 20 = 4 ∧ spineLat 677 22 = 7 ∧ spineLat 384 12 = 2 := by decide

/-- "A package with a newer FD3": the identities of FD0 and FD3, and GLB_FEATURE. -/
theorem test_feature_level :
    State.reset.reg .dieId [0] = 0x10100100#32 ∧
    (State.reset.setReg .dieId [3] 0x13210200#32).features.reg .glbFeature [] = 0x00800201#32 := by decide

/-- "A 16-bit ganged multiply-accumulate": the opcodes and selects of its words. -/
theorem test_gang_words :
    instrOf ⟨1, 0, 8⟩ 0x44010C00#32 = .mac ⟨1, 0, 8⟩ ⟨false, 0, 2, 3, 0, false, 0, 0⟩ ∧
    instrOf ⟨1, 0, 8⟩ 0x324E0180#32 = .mov ⟨1, 0, 8⟩ ⟨true, 4, 0x1C, 0, 12, false, 0, 0⟩ ∧
    instrOf ⟨1, 0, 8⟩ 0x6400000F#32 = .cadd ⟨1, 0, 8⟩ ⟨false, 0, 0, 0, 0, false, 3, 3⟩ := by decide

/-- Cells 8 and 9 of a tile as a pair, D2 and D3 as in the example, ACC0 of the pair as given. -/
def pair_ (lo hi : Nat) : State :=
  let t := State.reset.tile 1 0
  let s := State.reset.setTile 1 0 { t with cur := { t.cur with
    words := List.replicate 16 (some 0#64) ++ [some (BitVec.ofNat 64 (2 ^ 50))] } }
  s.setDie 1 { s.die 1 with
    dreg := [(dregKey (cellKey 0 8) 0 2, mkByte 0x2E), (dregKey (cellKey 0 8) 0 3, mkByte 0xB8), (dregKey (cellKey 0 9) 0 2, mkByte 0xFB),
      (dregKey (cellKey 0 9) 0 3, mkByte 0x0B)]
    acc := [(accKey (cellKey 0 8) 0 0, mkAcc lo), (accKey (cellKey 0 9) 0 0, mkAcc hi)] }

/-- What an instruction at cell 8 leaves pending. -/
def left_ (i : Instr) (s : State) : List Pend :=
  match exec i s with
  | .next t => (t.die 1).pend
  | .fault _ => []
  | .refused _ => []

theorem test_gang_mac_low_byte :
    let p := left_ (.mac ⟨1, 0, 8⟩ (fieldsOf 0x44010C00#32)) (pair_ 0 0)
    p.contains ⟨1, 1, .acc (accKey (cellKey 0 8) 0 0) (mkAcc 0xFFFC8910)⟩ = true ∧
      p.contains ⟨1, 1, .acc (accKey (cellKey 0 9) 0 0) (mkAcc 0xFFFFFFFF)⟩ = true := by decide

theorem test_gang_mac_high_byte :
    let p := left_ (.mac ⟨1, 0, 8⟩ (fieldsOf 0x44010C20#32)) (pair_ 0xFFFC8910 0xFFFFFFFF)
    p.contains ⟨1, 1, .acc (accKey (cellKey 0 8) 0 0) (mkAcc 0xFFC78310)⟩ = true ∧
      p.contains ⟨1, 1, .acc (accKey (cellKey 0 9) 0 0) (mkAcc 0xFFFFFFFF)⟩ = true ∧
      p.contains ⟨1, 1, .flags (flagKey (cellKey 0 9) 0) ⟨false, true, false, false⟩⟩ = true := by decide

theorem test_gang_mov_scaled :
    let p := left_ (.mov ⟨1, 0, 8⟩ (fieldsOf 0x324E0180#32)) (pair_ 0xFFC78310 0xFFFFFFFF)
    p.contains ⟨2, 1, .dreg (dregKey (cellKey 0 8) 0 4) (mkByte 0x78)⟩ = true ∧
      p.contains ⟨2, 1, .dreg (dregKey (cellKey 0 9) 0 4) (mkByte 0xFC)⟩ = true := by decide

/-- "A wire fails under a running design": wire 100 spared at assembly, wire 43 fails. -/
def spared (failed : List Nat) : State := (run_ []).setXg 12 0 { noGroup with repair := [100], failedW := failed }
theorem test_shift_sparing :
    (spared []).wireOf 12 0 99 = 99 ∧ (spared []).wireOf 12 0 100 = 101 ∧ (spared []).wireOf 12 0 143 = 144 ∧
    (spared [43]).wireOf 12 0 43 = 44 ∧ (spared [43]).wireOf 12 0 98 = 99 ∧ (spared [43]).wireOf 12 0 99 = 101 ∧
    (spared [43]).wireOf 12 0 143 = 145 ∧ (spared [43]).freeSpares 12 0 = [146, 147, 148, 149, 150, 151] := by decide

/-- Addresses of "an uncorrectable block and a live repair". -/
theorem test_memory_mapping :
    (run_ [(F.ddrMap_fitted, [], 512), (F.ddrMap_ilvMask, [], 15), (F.ddrMap_present, [], 15), (F.ddrChStat_cap, [0], 128)]).memUnit
      0x1234567A80 = some ⟨false, 2, 0⟩ ∧ hbmPlace 0x010840000100 = (1, 1) := by decide

/-- "Sizing a region and rotating its key": the parts of the metadata area of 2^27 sectors. -/
theorem test_metadata_area :
    treeLevels (2 ^ 27) = 8 ∧ metaN (2 ^ 27) = 0x09249200 ∧ metaT1 (2 ^ 27) = 0x40000000 ∧ metaT2 (2 ^ 27) = 0x80000000 ∧
    metaT3 (2 ^ 27) = 0x89249300 ∧ metaSize (2 ^ 27) = 0x92500000 := by decide +kernel

/-- "Decoding one entry". -/
theorem test_log_entry :
    (⟨0x00000A3B1C2D4E5F#64, 8, 6, 2, 0x0601, 3, leBytes 6 0x1234567A80 ++ locBytes 0x408D00000000A4C3 ++ [9#8, 1#8, 8#8]⟩ : LogEntry).bytes =
    leBytes 8 0x0A3B1C2D4E5F ++ [0x02#8, 0x86#8, 0x01#8, 0x06#8, 3#8, 0x80#8, 0x7A#8, 0x56#8, 0x34#8, 0x12#8, 0x00#8, 0xC3#8, 0xA4#8,
      0x00#8, 0x00#8, 0x00#8, 0x00#8, 0x8D#8, 0x40#8, 9#8, 1#8, 8#8, 0#8, 0#8] := by decide

/-- "A shorted high-voltage pin": pin 300, bit 12 of GLB_PINFLT33 at GLB_ offset 0x0184. -/
def afterFault : State :=
  let s := run_ [(F.glbBankpwrHv_good, [], 2 ^ 9)]
  let low : List Byte := List.replicate 1068 0#8 ++ [1#8]
  match execPinFault 1068 true { s with pins := { s.pins with user := 2, safe := true }, load := { s.load with pinTable := low } } with
  | .next t => t
  | .fault _ => State.reset
  | .refused _ => State.reset
theorem test_pin_fault :
    afterFault.reg .glbPinflt [33] = 0x1000#32 ∧ regAddr .glbPinflt [33] = regAddr .glbPinflt [0] + 0x84 := by decide +kernel

/-- "A host request wakes the control cores": what STAT reads at the end. -/
theorem test_mailbox_stat :
    (run_ [(F.mbxStat_state, [12], 4), (F.mbxStat_owner, [12], 1), (F.mbxStat_rcv, [12], 2), (F.mbxStat_len, [12], 10)]).readReg
      .mbxStat [12] = 0x8012000A#32 := by decide

/-- A lock that is free falls to the host, which reads 0; the MC then reads 1. -/
def locked_ : State :=
  match exec (.lockRead host 12) (run_ []) with
  | .next t => t
  | .fault _ => State.reset
  | .refused _ => State.reset
theorem test_mailbox_lock :
    locked_.outbox = [.resp host .ok [0#8, 0#8, 0#8, 0#8]] ∧
    exec (.lockRead mc 12) locked_ = .next (locked_.answerWord mc 1#32) := ⟨by decide, rfl⟩

/-- SEC-DED: one flipped data bit is put right, two are found. -/
theorem test_secded :
    dec72 (enc72 0x5566778811223344 ^^^ 1#72) = .fixed 0x5566778811223344 ∧
    dec72 (enc72 0x5566778811223344) = .clean 0x5566778811223344 ∧
    (match dec72 (enc72 0x5566778811223344 ^^^ 3#72) with
      | .bad _ => true
      | .fixed _ => false
      | .clean _ => false) = true := by decide

/-! ## The standards that the spec names, by their own examples -/

/-- The digest of "abc" (FIPS 180-4). -/
theorem test_sha256 :
    sha256 [0x61#8, 0x62#8, 0x63#8] = 0xba7816bf8f01cfea414140de5dae2223b00361a396177a9cb410ff61f20015ad#256 := by decide +kernel

/-- FIPS-197, C.3. -/
theorem test_aes256 :
    aes256 0x000102030405060708090a0b0c0d0e0f101112131415161718191a1b1c1d1e1f#256 0x00112233445566778899aabbccddeeff#128 =
      0x8ea2b7ca516745bfeafc49904b496089#128 := by decide +kernel

/-- SP 800-38B, D.3: the first 64 bits for a message of one block. -/
theorem test_cmac :
    cmac64 0x603deb1015ca71be2b73aef0857d77811f352c073b6108d72d9810a30914dff4#256 (beBytes 16 0x6bc1bee22e409f96e93d7e117393172a) =
      0x28a7023f452e8f82#64 := by decide +kernel

/-- RFC 6979, A.2.5: the signature of "sample" agrees, one of another message does not. -/
theorem test_ecdsa :
    let q := BitVec.ofNat 512 (beNat key1)
    let g := 0xefd48b2aacb6a8fd1140dd9cd45e81d69d2c877b56aaf991c34d0ea84eaf3716f7cb1c942d657c41d436c7a1b6e29f65f3e900dbb9aff4064dc4ab2f843acda8#512
    ecdsaVerify q (sha256 [0x73#8, 0x61#8, 0x6D#8, 0x70#8, 0x6C#8, 0x65#8]) g = true ∧ ecdsaVerify q (sha256 []) g = false := by
  decide +kernel

/-- A raw DEFLATE stream of the fixed code with a match, made by another implementation: "Yilpen Yilpen Yilpen!". -/
theorem test_inflate :
    inflate [0x8b#8, 0xcc#8, 0xcc#8, 0x29#8, 0x48#8, 0xcd#8, 0x53#8, 0x88#8, 0x44#8, 0xa6#8, 0x14#8, 0x01#8] =
      some ((beBytes 7 0x59696c70656e20) ++ (beBytes 7 0x59696c70656e20) ++ (beBytes 7 0x59696c70656e21)) := by decide +kernel

/-! ## Ill-formed commands are refused by the check -/

def q64 : Req := wr host hbm0 (List.replicate 64 0#8)
theorem test_wf_request_length : ({ q64 with len := 0, data := [] }).wf = false := by decide
theorem test_wf_request_block : ({ wr host (hbm0 + 63) [1#8, 2#8] with tag := 1 }).wf = false := by decide
theorem test_wf_request_data : ({ q64 with len := 63 }).wf = false ∧ ({ q64 with write := false }).wf = false := by decide
theorem test_wf_request_parity : ({ q64 with badPar := [64] }).wf = false := by decide
theorem test_wf_request_good : q64.wf = true := by decide
theorem test_wf_directions :
    (Instr.mouldWrite (rd host hbm0 64)).wf = false ∧ (Instr.scheduleWrite (rd host hbm0 64)).wf = false ∧
    (Instr.stagingWrite (rd host hbm0 64)).wf = false ∧ (Instr.publish (rd host hbm0 64)).wf = false ∧
    (Instr.acknowledge (rd host hbm0 64)).wf = false ∧ (Instr.dramRead q64).wf = false ∧ (Instr.dramWrite (rd host hbm0 64)).wf = false ∧
    (Instr.encryptedRead q64).wf = false ∧ (Instr.encryptedWrite (rd host hbm0 64)).wf = false := by decide
theorem test_wf_requests :
    (let bad := { q64 with len := 0 }
     (Instr.cellStoreAccess bad).wf = false ∧ (Instr.nocRequestInject bad false).wf = false ∧ (Instr.targetRequest bad).wf = false ∧
      (Instr.targetTimeout bad).wf = false) := by decide
theorem test_wf_response :
    (Instr.responseArrival (rd host hbm0 64) 0 0#16 [1#8] []).wf = false ∧ (Instr.responseArrival q64 0 0#16 [] [64]).wf = false := by decide
theorem test_wf_lengths :
    (Instr.bar4Write 0#28 []).wf = false ∧ (Instr.tlpRead 0 0#36 0).wf = false ∧ (Instr.tlpWrite 0 0#36 []).wf = false ∧
    (Instr.frameRewriteDone (some [])).wf = false ∧ (Instr.sensorSample 8 []).wf = false := by decide
theorem test_wf_power_on :
    (⟨0#2, 0#2, 0#3, { State.reset.otp with dieIds := [0#32] }, ⟨none, none⟩, 0#24, 0#14, false, none, []⟩ : PowerOn).wf = false := by decide

end Sys2Proof.Tests

end
end

section
/-!
PROOFS. A step and the reset state (O51, O52, O53).
-/

namespace Sys2Proof.Machine

/-- Settles O51: `step` is the command's own meaning on the queue's rest (log entry 1). -/
theorem commandAtFront : Obligations.CommandAtFront := by
  intro s c rest h
  simp only [step, h]

theorem step_idle {s : State} (h : s.pending = []) : step s = .next (idle s) := by
  simp only [step, h]

/-- Settles O52, in the three cases of `idle` (log entry 1). -/
theorem idleStep : Obligations.IdleStep := by
  intro s h
  refine ⟨fun hr => ?_, fun hr hh => ?_, fun hr hh => ?_⟩
  · simp [step_idle h, idle, hr]
  · simp [step_idle h, idle, hr, hh]
  · simp [step_idle h, idle, hr, hh, State.issue, given]

theorem canonical_reset : Canonical State.reset :=
  ⟨rfl, rfl, fun _ => Nat.zero_le _, Nat.zero_le _⟩

/-- Settles O53: the register store is empty, so every register reads as its reset word (log entries 2, 11 and 92 for the empty
stores). -/
theorem resetState : Obligations.ResetState := by
  refine ⟨rfl, rfl, rfl, rfl, rfl, rfl, ?_, ?_, ?_, ?_, ?_, ?_, ?_, rfl, canonical_reset⟩
  · decide
  · decide
  · decide
  · decide
  · decide
  · decide
  · intro b
    have cfg : State.reset.reg .eccBktCfg [b.val] = fieldsReset RegName.eccBktCfg.desc.fields := rfl
    have stat : State.reset.reg .eccBktStat [b.val] = fieldsReset RegName.eccBktStat.desc.fields := rfl
    refine ⟨?_, ?_, ?_⟩
    · exact (congrArg F.eccBktCfg_thr.of cfg).trans (by decide)
    · exact (congrArg F.eccBktCfg_leak.of cfg).trans (by decide)
    · exact (congrArg F.eccBktStat_count.of stat).trans (by decide)

end Sys2Proof.Machine
end

section
/-!
PROOFS. The fields of a register word under the common write and read (R16; O57).
-/

namespace Sys2Proof.Machine

/-! ## Fields of a register word, bit by bit -/

/-- Bit `b` of a word belongs to field `f`. -/
def Fld.has (f : Fld) (b : Nat) : Prop := f.lo ≤ b ∧ b ≤ f.hi

/-- No bit of a word belongs to both fields. -/
def Fld.apart (f g : Fld) : Prop := f.hi < g.lo ∨ g.hi < f.lo

theorem Fld.apart.symm {f g : Fld} (h : f.apart g) : g.apart f := Or.symm h

theorem Fld.testBit_of {f : Fld} {i : Nat} (w : Word32) (h : i < f.width) : (f.of w).testBit i = w.getLsbD (f.lo + i) := by
  change i < f.hi + 1 - f.lo at h
  simp [Fld.of, wordField, bitsOf, Nat.testBit_mod_two_pow, Nat.testBit_shiftRight, BitVec.testBit_toNat, h]

theorem Fld.of_lt (f : Fld) (w : Word32) : f.of w < 2 ^ f.width := Nat.mod_lt _ (Nat.two_pow_pos _)

theorem testBit_eq_false_of_lt {x k b : Nat} (hx : x < 2 ^ k) (hb : ¬ b < k) : x.testBit b = false :=
  Nat.testBit_lt_two_pow (Nat.lt_of_lt_of_le hx (Nat.pow_le_pow_right (by decide) (Nat.le_of_not_lt hb)))

theorem Fld.of_zero (f : Fld) : f.of 0#32 = 0 := by
  simp [Fld.of, wordField, bitsOf]

/-- A field depends on its own bits only. -/
theorem Fld.of_congr {f : Fld} {v w : Word32} (h : ∀ b, f.has b → v.getLsbD b = w.getLsbD b) : f.of v = f.of w := by
  refine Nat.eq_of_testBit_eq fun i => ?_
  by_cases hi : i < f.width
  · rw [Fld.testBit_of v hi, Fld.testBit_of w hi]
    exact h (f.lo + i) ⟨Nat.le_add_right .., by unfold Fld.width at hi; omega⟩
  · rw [testBit_eq_false_of_lt (f.of_lt v) hi, testBit_eq_false_of_lt (f.of_lt w) hi]

theorem getLsbD_fieldMask (hi lo b : Nat) :
    (fieldMask hi lo).getLsbD b = (decide (b < 32) && decide (lo ≤ b) && decide (b - lo < hi + 1 - lo)) := by
  simp [fieldMask, BitVec.getLsbD_ofNat, Nat.testBit_shiftLeft, Nat.testBit_two_pow_sub_one, Bool.and_assoc]

/-- Writing a field leaves the bits outside it. -/
theorem Fld.getLsbD_put_of_not_has {f : Fld} {b : Nat} (w : Word32) (v : Nat) (h : ¬ f.has b) :
    (f.put w v).getLsbD b = w.getLsbD b := by
  have m : (fieldMask f.hi f.lo).getLsbD b = false := by
    rw [getLsbD_fieldMask]
    by_cases hl : f.lo ≤ b
    · have : ¬ (b - f.lo < f.hi + 1 - f.lo) := fun hb => h ⟨hl, by omega⟩
      simp [this]
    · simp [hl]
  simp only [Fld.put, setWordField, BitVec.getLsbD_or, BitVec.getLsbD_and, BitVec.getLsbD_not, m]
  by_cases hb : b < 32
  · simp [hb]
  · simp [hb, BitVec.getLsbD_of_ge w b (Nat.le_of_not_lt hb)]

/-! ## What a write or a read makes of a register, field by field -/

/-- The value a write of `v` leaves in a field that holds `x` (R16). -/
def Fld.written (v : Word32) (f : Fld) (x : Nat) : Nat :=
  match f.acc with
  | .rw => f.of v
  | .w1c => Nat.land x (Nat.xor (f.of v) (2 ^ f.width - 1))
  | .w1s => Nat.lor x (f.of v)
  | .ro => x
  | .wo => x

/-- The value a read of `w` shows in a field, where `x` is what the fields before have left there: 0 (R16). -/
def Fld.shown (w : Word32) (f : Fld) (x : Nat) : Nat := if f.acc = .wo then x else f.of w

/-- A step that gives field `f` the value `val f` and leaves every bit outside it. -/
def SetsField (val : Fld → Nat → Nat) (step : Word32 → Fld → Word32) : Prop :=
  ∀ w f, (f.lo ≤ f.hi ∧ f.hi < 32 → f.of (step w f) = val f (f.of w)) ∧ ∀ b, ¬ f.has b → (step w f).getLsbD b = w.getLsbD b

section
variable {val : Fld → Nat → Nat} {step : Word32 → Fld → Word32} (hstep : SetsField val step)
include hstep

theorem SetsField.foldl_bit {fs : List Fld} {b : Nat} (h : ∀ f ∈ fs, ¬ f.has b) (w : Word32) :
    (fs.foldl step w).getLsbD b = w.getLsbD b := by
  induction fs generalizing w with
  | nil => rfl
  | cons f fs ih =>
    rw [List.foldl_cons, ih (fun g hg => h g (List.mem_cons_of_mem _ hg)), (hstep w f).2 b (h f List.mem_cons_self)]

theorem SetsField.of_step_of_apart {f g : Fld} (h : g.apart f) (w : Word32) : f.of (step w g) = f.of w :=
  Fld.of_congr fun b hb => (hstep w g).2 b fun hg => by
    obtain ⟨hl, hh⟩ := hb
    obtain ⟨gl, gh⟩ := hg
    rcases h with h | h <;> omega

theorem SetsField.of_foldl_of_apart {f : Fld} {fs : List Fld} (h : ∀ g ∈ fs, g.apart f) (w : Word32) :
    f.of (fs.foldl step w) = f.of w := by
  induction fs generalizing w with
  | nil => rfl
  | cons g fs ih =>
    rw [List.foldl_cons, ih (fun k hk => h k (List.mem_cons_of_mem _ hk)), hstep.of_step_of_apart (h g List.mem_cons_self)]

/-- Over fields that lie apart, each field gets the value its own step gives it. -/
theorem SetsField.of_foldl {fs : List Fld} (hw : ∀ f ∈ fs, f.lo ≤ f.hi ∧ f.hi < 32) (hp : fs.Pairwise Fld.apart)
    {f : Fld} (hf : f ∈ fs) (w : Word32) : f.of (fs.foldl step w) = val f (f.of w) := by
  induction fs generalizing w with
  | nil => simp at hf
  | cons g fs ih =>
    obtain ⟨hg, hp⟩ := List.pairwise_cons.mp hp
    rw [List.foldl_cons]
    rcases List.mem_cons.mp hf with rfl | hf
    · rw [hstep.of_foldl_of_apart fun k hk => (hg k hk).symm, (hstep w f).1 (hw f List.mem_cons_self)]
    · rw [ih (fun k hk => hw k (List.mem_cons_of_mem _ hk)) hp hf, hstep.of_step_of_apart (hg f hf)]

end

theorem Fld.of_put_of_lt {f : Fld} {v : Nat} (w : Word32) (h : f.lo ≤ f.hi ∧ f.hi < 32) (hv : v < 2 ^ f.width) :
    f.of (f.put w v) = v := by
  rw [Fld.of_put f w v h.2 h.1, Nat.mod_eq_of_lt hv]

theorem Fld.written_lt {v : Word32} {f : Fld} {x : Nat} (h : x < 2 ^ f.width) : f.written v x < 2 ^ f.width := by
  unfold Fld.written
  split
  · exact f.of_lt v
  · exact Nat.lt_of_le_of_lt Nat.and_le_left h
  · exact Nat.or_lt_two_pow h (f.of_lt v)
  · exact h
  · exact h

/-- The step of `writeFields` writes one field. -/
theorem setsField_write (v : Word32) : SetsField (Fld.written v) fun w f =>
    match f.acc with
    | .rw => f.put w (f.of v)
    | .w1c => f.put w (Nat.land (f.of w) (Nat.xor (f.of v) (2 ^ f.width - 1)))
    | .w1s => f.put w (Nat.lor (f.of w) (f.of v))
    | .ro => w
    | .wo => w := by
  intro w f
  have lt := Fld.written_lt (v := v) (f.of_lt w)
  cases hacc : f.acc <;> simp only [Fld.written, hacc] at lt ⊢
  case ro | wo => simp
  case rw | w1c | w1s => exact ⟨fun h => Fld.of_put_of_lt w h lt, fun _ => Fld.getLsbD_put_of_not_has w _⟩

/-- The step of `readFields` shows one field. -/
theorem setsField_read (v : Word32) : SetsField (Fld.shown v) fun w f =>
    match f.acc with
    | .wo => w
    | _ => f.put w (f.of v) := by
  intro w f
  cases hacc : f.acc <;> simp only [Fld.shown, hacc]
  case wo => simp
  all_goals exact ⟨fun h => Fld.of_put_of_lt w h (f.of_lt v), fun _ => Fld.getLsbD_put_of_not_has w _⟩

/-- In every register the fields lie inside the word and apart. -/
theorem RegName.fields_inside_apart (n : RegName) :
    (∀ f ∈ n.desc.fields, f.lo ≤ f.hi ∧ f.hi < 32) ∧ n.desc.fields.Pairwise Fld.apart := by
  unfold Fld.apart
  cases n <;> decide

theorem of_writeFields {n : RegName} {f : Fld} (hf : f ∈ n.desc.fields) (old v : Word32) :
    f.of (writeFields n.desc.fields old v) = f.written v (f.of old) :=
  (setsField_write v).of_foldl n.fields_inside_apart.1 n.fields_inside_apart.2 hf old

theorem of_readFields {n : RegName} {f : Fld} (hf : f ∈ n.desc.fields) (w : Word32) :
    f.of (readFields n.desc.fields w) = if f.acc = .wo then 0 else f.of w := by
  rw [← f.of_zero]
  exact (setsField_read w).of_foldl n.fields_inside_apart.1 n.fields_inside_apart.2 hf 0#32

@[simp] theorem State.reg_writeReg_same (s : State) (n : RegName) (i : List Nat) (v : Word32) :
    (s.writeReg n i v).reg n i = writeFields n.desc.fields (s.reg n i) v := State.reg_setReg_same s n i _

/-- A register write leaves the stored words of all other addresses. -/
theorem State.find?_writeReg_ne (s : State) {n : RegName} {i : List Nat} (v : Word32) {a : Nat} (h : a ≠ regAddr n i) :
    SMap.find? (s.writeReg n i v).regs a = SMap.find? s.regs a := by
  unfold State.writeReg State.setReg SMap.set
  split
  · exact SMap.find?_erase_ne _ h
  · exact SMap.find?_insert_ne _ _ h

/-- A bit survives a clearing write where the written bit is 0. -/
theorem testBit_land_xor_mask {k x y b : Nat} (hx : x < 2 ^ k) :
    (Nat.land x (Nat.xor y (2 ^ k - 1))).testBit b = (x.testBit b && !y.testBit b) := by
  change (x &&& (y ^^^ (2 ^ k - 1))).testBit b = _
  rw [Nat.testBit_and, Nat.testBit_xor, Nat.testBit_two_pow_sub_one]
  by_cases hb : b < k
  · simp [hb]
  · simp [testBit_eq_false_of_lt hx hb]

/-- Settles O57: over fields that lie apart, a write or a read treats each field by its own access type. -/
theorem registerAccessTypes : Obligations.RegisterAccessTypes := by
  intro s n idx v
  refine ⟨fun f hf => ?_, fun b _ hb => ?_, fun a => s.find?_writeReg_ne v⟩
  · simp only [State.reg_writeReg_same, of_writeFields hf]
    refine ⟨fun h => ?_, fun h => ?_, fun h b => ?_, fun h b => ?_, of_readFields hf _⟩
    · simp [Fld.written, h]
    · rcases h with h | h <;> simp [Fld.written, h]
    · simpa [Fld.written, h] using testBit_land_xor_mask (f.of_lt (s.reg n idx))
    · simp [Fld.written, h]
  · have out : ∀ f ∈ n.desc.fields, ¬ f.has b := fun f hf h => by
      obtain ⟨hl, hh⟩ := h
      rcases hb f hf with hb | hb <;> omega
    rw [State.reg_writeReg_same]
    exact ⟨(setsField_write v).foldl_bit out _, ((setsField_read _).foldl_bit out 0#32).trans (by simp)⟩

end Sys2Proof.Machine
end

section
/-!
PROOFS. Clock gating, CLKMON, the timebase copies and the tick generators (R61 to R75; O25).
-/

namespace Sys2Proof.Machine

/-! ## Register writes that act at once -/

/-- A write whose register clock runs acts at once (R19). -/
theorem State.regAct_of_not_waits {s : State} {n : RegName} (h : s.regWaits n = false) (q : Src) (i : List Nat) (w : Word32)
    (f : State → State) : s.regAct q n i w f = (f s).answer q .ok := by
  simp [State.regAct, h]

/-! ## What a clock or tick command does -/

theorem exec_clockGateWrite {s : State} (h : s.regWaits .clkGate = false) (src : Src) (d : Fin 24) (w : Word32) :
    exec (.clockGateWrite src d w) s = .next ((s.clkGateWrite d w).answer src .ok) :=
  congrArg Host.Outcome.next (State.regAct_of_not_waits h ..)

theorem exec_clkmonSelect {s : State} (h : s.regWaits .clkMon = false) (src : Src) (w : Word32) :
    exec (.clkmonSelect src w) s = .next ((s.clkMonWrite w).answer src .ok) :=
  congrArg Host.Outcome.next (State.regAct_of_not_waits h ..)

theorem exec_tickEnable {s : State} (h : s.regWaits .tbTickCtrl = false) (src : Src) (n : Fin 4) (w : Word32) :
    exec (.tickEnable src n w) s = .next ((s.tickControl n w).answer src .ok) :=
  congrArg Host.Outcome.next (State.regAct_of_not_waits h ..)

theorem exec_tickPeriodWrite {s : State} (h : s.regWaits .tbTickPeriod = false) (src : Src) (n : Fin 4) (w : Word32) :
    exec (.tickPeriodWrite src n w) s = .next ((s.tickPeriod n w).answer src .ok) :=
  congrArg Host.Outcome.next (State.regAct_of_not_waits h ..)

theorem exec_tick (s : State) (n : Fin 4) : exec (.tick n) s = .next ((s.fireTick n).takeTicks n) := rfl

/-- The ticks of generator n that the dies have reached: die and count. -/
def State.reachedTicks (s : State) (n : Nat) : List (Nat × Nat) :=
  (List.range 4).filterMap fun d => (s.dieReached d n).map fun c => (d, c)

/-- The dies of a list take note of their ticks of generator n. -/
def State.firedOn (s : State) (n : Nat) (l : List (Nat × Nat)) : State := l.foldl (fun t e => t.dieFires e.1 n e.2) s

theorem State.fireTick_of_not_due {s : State} {n : Nat} (h : s.tickDue n = false) :
    s.fireTick n = s.firedOn n (s.reachedTicks n) := by
  simp only [State.fireTick, h]
  rfl

theorem State.fireTick_of_due {s : State} {n : Nat} (h : s.tickDue n = true) (hn : n ≠ 0) :
    s.fireTick n = ((s.tickFires n).monTick n).firedOn n (s.reachedTicks n) := by
  simp only [State.fireTick, h, hn]
  rfl

theorem State.fireTick_zero_of_due {s : State} (h : s.tickDue 0 = true) :
    s.fireTick 0 = ((s.tickFires 0).monTick 0).snapTick.modeEntryTick.windowTick.firedOn 0 (s.reachedTicks 0) := by
  simp only [State.fireTick, h]
  rfl

theorem State.tickActs_eq_false_iff {s : State} {n : Nat} :
    s.tickActs n = false ↔
      s.tickDue n = false ∧ (∀ d < 4, s.dieReached d n = none) ∧ ∀ o ∈ s.tb.owed, (o.gen == n && s.atEdge o.die) = false := by
  simp only [State.tickActs, Bool.or_eq_false_iff, List.any_eq_false, List.mem_range, and_assoc]
  simp

theorem State.reachedTicks_of_none {s : State} {n : Nat} (h : ∀ d < 4, s.dieReached d n = none) : s.reachedTicks n = [] :=
  List.filterMap_eq_nil_iff.mpr fun d hd => by rw [h d (List.mem_range.mp hd)]; rfl

theorem State.takeTicks_of_none {s : State} {n : Nat} (h : ∀ o ∈ s.tb.owed, (o.gen == n && s.atEdge o.die) = false) :
    s.takeTicks n = s := by
  have taken : s.tb.owed.filter (fun o => o.gen == n && s.atEdge o.die) = [] :=
    List.filter_eq_nil_iff.mpr fun o ho => by simp [h o ho]
  have kept : s.tb.owed.filter (fun o => !(o.gen == n && s.atEdge o.die)) = s.tb.owed :=
    List.filter_eq_self.mpr fun o ho => by simp [h o ho]
  simp only [State.takeTicks, taken, kept, List.foldl_nil]

/-- The tick where nothing is due changes nothing. -/
theorem exec_tick_of_idle {s : State} {n : Fin 4} (h : s.tickActs n = false) : exec (.tick n) s = .next s := by
  obtain ⟨hub, dies, arrays⟩ := State.tickActs_eq_false_iff.mp h
  rw [exec_tick, State.fireTick_of_not_due hub, State.reachedTicks_of_none dies]
  exact congrArg Host.Outcome.next (State.takeTicks_of_none arrays)

theorem siteOfCopy_of_ne_hub {c : Nat} (h : c ≠ 4) : siteOfCopy c = if c < 4 then c else c + 5 := by
  simp [siteOfCopy, h]

/-- A sync message has reached the copy of a die, which has `wander` more to gain or lose and corrects itself (R67, R68). -/
def State.synced (s : State) (c : Nat) (wander : Int) : State :=
  let t := s.putDieBit F.tbStat_free c false
  { t with tb := { t.tb with
    drift := SMap.set 0 t.tb.drift c (SMap.get 0 t.tb.drift c + wander)
    sync := SMap.set 0 t.tb.sync c (t.tb.count + 1)
    slew := c :: t.tb.slew.filter (· != c) } }

theorem State.trueOffset_synced (s : State) (c : Nat) (wander : Int) :
    (s.synced c wander).trueOffset c = s.offset c + (SMap.get 0 s.tb.drift c + wander) :=
  congrArg (s.offset c + ·) (SMap.get_set_same ..)

theorem exec_timebaseSyncMessage {s : State} {die : Fin 7} (hd : die.val ≠ 4) (hr : s.tb.running = true) (wander : Int) :
    exec (.timebaseSyncMessage die wander) s =
      if ((s.synced die wander).trueOffset die).natAbs ≤ 1 then .next (s.synced die wander)
      else .next (if (s.get F.tbStat_misaligned []).testBit die then (s.synced die wander).putDieBit F.tbStat_misaligned die true
        else ((s.synced die wander).putDieBit F.tbStat_misaligned die true).logEv (siteOfCopy die) 9 0 0x0203 1
          (leBytes 1 die.val ++ leBytes 8 (ofSigned 64 ((s.synced die wander).trueOffset die)))) :=
  if_neg (by simp [hd, hr])

/-- Settles O25, each command by what its own operation does (log entries 2, 23 and 48). -/
theorem timebaseAndTicks : Obligations.TimebaseAndTicks := by
  intro s src d w die wander n
  refine ⟨fun hw hd => ?_, fun hw hd => ?_, fun hw => ?_, fun h => ?_, fun hd hr => ?_, fun hd => ?_, ?_, fun hw => ?_, fun hw => ?_,
    exec_tick_of_idle, fun h => ?_, fun h hn => ?_, fun h hn => ?_⟩
  · rw [exec_clockGateWrite hw]
    simp [State.clkGateWrite, hd]
  · rw [exec_clockGateWrite hw]
    simp [State.clkGateWrite, Nat.not_le.mpr (Nat.lt_of_succ_le hd)]
  · exact exec_clkmonSelect hw src w
  · have h' : die.val = 4 ∨ (!s.tb.running) = true := by simpa using h
    exact if_pos h'
  · rw [exec_timebaseSyncMessage hd hr, State.trueOffset_synced, siteOfCopy_of_ne_hub hd]
    exact ⟨fun h => if_pos h, fun h => if_neg (Nat.not_le.mpr h)⟩
  · exact if_neg hd
  · rfl
  · rw [exec_tickEnable hw]
    refine ⟨fun h => ?_, fun h h' => ?_, fun h h' => ?_⟩
    · simp [State.tickControl, h]
    · simp only [State.tickControl, h, h']
      rfl
    · simp only [State.tickControl, h, h']
      rfl
  · rw [exec_tickPeriodWrite hw]
    refine ⟨fun h => ?_, fun lo hi => ?_⟩
    · simp only [State.tickPeriod, h, if_true]
    · have legal : ¬ (F.tbTickPeriod_period.of w < 64 ∨ 16777216 < F.tbTickPeriod_period.of w) := by omega
      refine ⟨fun he => ?_, fun he => ?_⟩ <;> simp [State.tickPeriod, legal, he]
  · rw [exec_tick, State.fireTick_of_not_due h]
    rfl
  · rw [exec_tick, State.fireTick_of_due h fun e => hn (Fin.ext e)]
    rfl
  · subst hn
    exact congrArg (fun t => Host.Outcome.next (State.takeTicks t 0)) (State.fireTick_zero_of_due h)

end Sys2Proof.Machine
end

section
/-!
PROOFS. Requests at a target, register writes at an address, and Tarod mode (R24, R338, R349 to R351, R365; O50).
-/

namespace Sys2Proof.Machine

/-! ## A request at its target -/

theorem exec_targetRequest {s t : State} {r : Req} (h : s.target r = t) : exec (.targetRequest r) s = .next t :=
  congrArg Host.Outcome.next h

section
variable {s : State} {r : Req} {d n m : Nat}

theorem State.target_of_not_inBlock (h : inBlock r.addr.toNat r.len = false) : s.target r = s.respond r .aerr :=
  if_pos (by simp [h])

variable (hb : inBlock r.addr.toNat r.len = true)
include hb

theorem State.target_memory (h : targetOf r.addr.toNat = .memory) : s.target r = s.memRequest r := by
  rw [State.target, if_neg (by simp [hb]), h]

theorem State.target_user (h : targetOf r.addr.toNat = .user d) :
    s.target r = if s.runs (12 + d) = true then s.emit (.user d r) else s.respond r .terr := by
  rw [State.target, if_neg (by simp [hb]), h]

theorem State.target_store (h : targetOf r.addr.toNat = .tile d n m) (hm : m < 0x2000) : s.target r = s.storeArrive r d n m := by
  rw [State.target, if_neg (by simp [hb]), h]
  exact if_pos hm

theorem State.target_mould (h : targetOf r.addr.toNat = .tile d n m) (hl : 0x2000 ≤ m) (hm : m < 0x3000) :
    s.target r = if r.write then (s.mouldWrite r d n m).2.respond r (s.mouldWrite r d n m).1
      else (s.mouldRead r d n m).2.2.respond r (s.mouldRead r d n m).1 (s.mouldRead r d n m).2.1 := by
  rw [State.target, if_neg (by simp [hb]), h]
  exact (if_neg (Nat.not_lt.mpr hl)).trans (if_pos hm)

theorem State.target_entry (h : targetOf r.addr.toNat = .tile d n m) (hl : 0x3000 ≤ m) (hm : m < 0x3100) :
    s.target r = if r.write then (s.entryWrite r d n m).2.respond r (s.entryWrite r d n m).1
      else (s.entryRead r d n m).2.2.respond r (s.entryRead r d n m).1 (s.entryRead r d n m).2.1 := by
  have h2 : ¬ m < 0x2000 := by omega
  rw [State.target, if_neg (by simp [hb]), h]
  exact (if_neg h2).trans ((if_neg (Nat.not_lt.mpr hl)).trans (if_pos hm))

theorem State.target_words (h : targetOf r.addr.toNat = .words ∨ targetOf r.addr.toNat = .tile d n m ∧ 0x3100 ≤ m) :
    s.target r = s.wordsRequest r := by
  rcases h with h | ⟨h, hl⟩
  · rw [State.target, if_neg (by simp [hb]), h]
  · have h2 : ¬ m < 0x2000 := by omega
    have h3 : ¬ m < 0x3000 := by omega
    rw [State.target, if_neg (by simp [hb]), h]
    exact (if_neg h2).trans ((if_neg h3).trans (if_neg (Nat.not_lt.mpr hl)))

theorem State.target_slots (h : targetOf r.addr.toNat = .slots) :
    s.target r = if r.write = true then s.slotWrite r else s.slotRead r := by
  rw [State.target, if_neg (by simp [hb]), h]

theorem State.target_secure (h : targetOf r.addr.toNat = .secure) :
    s.target r = if s.secure r.src = true then s.respond r .aerr else (s.secureLog r.src r.addr.toNat).respond r .serr := by
  rw [State.target, if_neg (by simp [hb]), h]

theorem State.target_nowhere (h : targetOf r.addr.toNat = .nowhere) : s.target r = s.respond r .aerr := by
  rw [State.target, if_neg (by simp [hb]), h]

end

/-! ## A register write at an address -/

section
variable {s t : State} {src : Src} {a : BitVec 48} {code : Resp}

theorem exec_registerWrite_unaligned (h : a.toNat % 4 ≠ 0) (w : Word32) :
    exec (.registerWrite src a w) s = .next (s.answer src .aerr) := if_pos h

theorem exec_registerWrite_secure (h : a.toNat % 4 = 0) (ha : targetOf a.toNat = .secure) (hs : s.secure src = false) (w : Word32) :
    exec (.registerWrite src a w) s = .next ((s.secureLog src a.toNat).answer src .serr) :=
  (if_neg (not_not.mpr h)).trans (if_pos ⟨ha, by simp [hs]⟩)

/-- A word at an aligned address that the requester may reach is judged, then written. -/
theorem exec_registerWrite_open (h : a.toNat % 4 = 0) (ho : targetOf a.toNat ≠ .secure ∨ s.secure src = true) (w : Word32) :
    exec (.registerWrite src a w) s =
      match s.wordJudge src a.toNat true w with
      | some c => .next (s.answer src c)
      | none => .next ((s.wordWrite src a.toNat w).2.answer src (s.wordWrite src a.toNat w).1) := by
  have reachable : ¬ (targetOf a.toNat = .secure ∧ (!s.secure src) = true) := by
    rintro ⟨ha, hs⟩
    rcases ho with ho | ho
    · exact ho ha
    · simp [ho] at hs
  exact (if_neg (not_not.mpr h)).trans (if_neg reachable)

end

/-! ## Tarod mode -/

/-- The word that asks for a legacy frame holds operation 1 and the frame. -/
theorem trbcmd_word (frame : BitVec 24) :
    F.ftlTrbcmd_op.of (BitVec.ofNat 32 (2 ^ 29 + frame.toNat)) = 1 ∧
      F.ftlTrbcmd_frame.of (BitVec.ofNat 32 (2 ^ 29 + frame.toNat)) = frame.toNat := by
  have := frame.isLt
  simp only [Fld.of, wordField, bitsOf, F.ftlTrbcmd_op, F.ftlTrbcmd_frame, BitVec.toNat_ofNat, Nat.shiftRight_eq_div_pow]
  omega

theorem exec_readLegacyFrame_of_not_holds {s : State} {src : Src} (h : s.rbHolds src = false) (frame : BitVec 24) :
    exec (.readLegacyFrame src frame) s = .next (s.answer src .serr) :=
  congrArg Host.Outcome.next (if_neg (by simp [h]))

theorem exec_readLegacyFrame_of_holds {s : State} {src : Src} (h : s.rbHolds src = true) (hw : s.regWaits .ftlTrbcmd = false)
    (frame : BitVec 24) :
    exec (.readLegacyFrame src frame) s = .next ((s.trbCommand src 1 frame.toNat).answer src .ok) := by
  have e : exec (.readLegacyFrame src frame) s =
      .next (s.regAct src .ftlTrbcmd [] (BitVec.ofNat 32 (2 ^ 29 + frame.toNat))
        (·.trbCommand src (F.ftlTrbcmd_op.of (BitVec.ofNat 32 (2 ^ 29 + frame.toNat)))
          (F.ftlTrbcmd_frame.of (BitVec.ofNat 32 (2 ^ 29 + frame.toNat))))) := congrArg Host.Outcome.next (if_pos h)
  rw [e, State.regAct_of_not_waits hw, (trbcmd_word frame).1, (trbcmd_word frame).2]

section
variable {s : State} {src : Src} {frame d : Nat}

theorem State.trbCommand_of_busy (h : s.flag F.ftlTrbcmd_busy [] = true) : s.trbCommand src 1 frame = s := if_pos (.inr h)

variable (h : s.flag F.ftlTrbcmd_busy [] = false)
include h

theorem State.trbCommand_of_none (ht : s.tarod = none) : s.trbCommand src 1 frame = s.put F.ftlTrbcmd_res [] 1 := by
  simp only [State.trbCommand, ht]
  exact if_neg (by simp [h])

/-- A frame out of range, or an encrypted image read by another than requester 10, sets res (R351). -/
theorem State.trbCommand_of_refused (ht : s.tarod = some d)
    (hr : Config.legacyFrameOk frame = false ∨ s.flag F.glbTarod_enc [] = true ∧ src.requester ≠ 10) :
    s.trbCommand src 1 frame = s.put F.ftlTrbcmd_res [] 1 := by
  simp only [State.trbCommand, ht]
  refine (if_neg (by simp [h])).trans (if_pos ?_)
  rcases hr with hr | ⟨he, hq⟩
  · simp [hr]
  · simp [he, hq]

theorem State.trbCommand_of_allowed (ht : s.tarod = some d) (hok : Config.legacyFrameOk frame = true)
    (ha : s.flag F.glbTarod_enc [] = false ∨ src.requester = 10) :
    s.trbCommand src 1 frame =
      (s.fillWin .ftlTrbwin ((((Config.legacyFrame s.fab.frames s.fab.capt s.fab.bram d frame).take 404) ++
        List.replicate 512 0#8).take 512)).put F.ftlTrbcmd_res [] 0 := by
  simp only [State.trbCommand, ht]
  refine (if_neg (by simp [h])).trans (if_neg ?_)
  rcases ha with ha | ha <;> simp [hok, ha]

end

/-- Without a Tarod die a legacy event changes nothing. -/
theorem exec_legacy_of_none {s : State} (h : s.tarod = none) (near : List Nat) (f : Fin 8) :
    exec (.legacyCaptureTrigger near) s = .next s ∧ (∀ level, exec (.legacyGlobalSetReset level) s = .next s) ∧
      exec (.legacyPinClockLost f) s = .next s ∧ exec (.legacyPllRelock f) s = .next s := by
  change execLegacyCaptureTrigger near s = _ ∧ (∀ level, execLegacyGlobalSetReset level s = _) ∧
    execLegacyPinClockLost f s = _ ∧ execLegacyPllRelock f s = _
  simp only [execLegacyCaptureTrigger, execLegacyGlobalSetReset, execLegacyPinClockLost, execLegacyPllRelock, h, implies_true,
    and_self]

section
variable {s : State} {d : Nat} (h : s.tarod = some d)
include h

theorem exec_legacyCaptureTrigger_of_some (near : List Nat) :
    exec (.legacyCaptureTrigger near) s = .next ((List.range 16).foldl (fun u k => u.captureFlask (16 * d + k) near) s) := by
  change execLegacyCaptureTrigger near s = _
  simp only [execLegacyCaptureTrigger, h]

/-- The legacy design releases its global set/reset. -/
theorem exec_legacyGlobalSetReset_false_of_some :
    exec (.legacyGlobalSetReset false) s = .next ((s.put F.glbTarod_gsr [] 0).applySrs fun k _ => k == d) := by
  change execLegacyGlobalSetReset false s = _
  simp only [execLegacyGlobalSetReset, h]
  rfl

/-- The legacy design asserts its global set/reset. -/
theorem exec_legacyGlobalSetReset_true_of_some :
    exec (.legacyGlobalSetReset true) s =
      .next ((List.range 5120).foldl (fun u p =>
        let b := u.bramPort d (p / 2) (p % 2)
        u.setBramPort d (p / 2) (p % 2) { b with out := { b.out with data := Config.legacyGsrOut d p b.out.data } })
        ((s.put F.glbTarod_gsr [] 1).initFfs fun k _ => k == d)) := by
  change execLegacyGlobalSetReset true s = _
  simp only [execLegacyGlobalSetReset, h]
  rfl

theorem exec_legacyPinClockLost_of_some (f : Fin 8) :
    exec (.legacyPinClockLost f) s =
      let u := s.put F.glbTarod_fpllLock [] (Nat.land (s.get F.glbTarod_fpllLock []) (255 - 2 ^ f.val))
      .next { u with fab := { u.fab with pllOff := (8 * d + f.val) :: u.fab.pllOff.filter (· != 8 * d + f.val) } } := by
  change execLegacyPinClockLost f s = _
  simp only [execLegacyPinClockLost, h]

theorem exec_legacyPllRelock_of_some (f : Fin 8) :
    exec (.legacyPllRelock f) s =
      let u := s.put F.glbTarod_fpllLock [] (Nat.lor (s.get F.glbTarod_fpllLock []) (2 ^ f.val))
      .next { u with fab := { u.fab with pllOff := u.fab.pllOff.filter (· != 8 * d + f.val) } } := by
  change execLegacyPllRelock f s = _
  simp only [execLegacyPllRelock, h]

end

/-- Settles O50, by where the address of a request or of a write lands and by whether a Tarod die runs (log entry 23). -/
theorem accessesAndTarod : Obligations.AccessesAndTarod := by
  intro s t r src a w code frame got near f d n m
  refine ⟨?_, ?_, ?_, ?_, ?_, ?_, ?_, ?_, ?_, ?_, ?_, ?_, ?_, ?_, ?_, ?_, ?_, ?_, ?_, ?_⟩
  · exact fun h => exec_targetRequest (State.target_of_not_inBlock h)
  · exact fun hb h => exec_targetRequest (State.target_memory hb h)
  · exact fun hb h => exec_targetRequest (State.target_user hb h)
  · exact fun hb h hm => exec_targetRequest (State.target_store hb h hm)
  · exact fun hb h hl hm hw => exec_targetRequest ((State.target_mould hb h hl hm).trans (if_pos hw))
  · intro hb h hl hm hw hr
    exact exec_targetRequest (by rw [State.target_mould hb h hl hm, if_neg (by simp [hw]), hr])
  · exact fun hb h hl hm =>
      ⟨fun hw he => exec_targetRequest (by rw [State.target_entry hb h hl hm, if_pos hw, he]),
        fun hw he => exec_targetRequest (by rw [State.target_entry hb h hl hm, if_neg (by simp [hw]), he])⟩
  · exact fun hb h => exec_targetRequest (State.target_words hb h)
  · exact fun hb h => exec_targetRequest (State.target_slots hb h)
  · exact fun hb h =>
      ⟨fun hs => exec_targetRequest ((State.target_secure hb h).trans (if_pos hs)),
        fun hs => exec_targetRequest ((State.target_secure hb h).trans (if_neg (by simp [hs])))⟩
  · exact fun hb h => exec_targetRequest (State.target_nowhere hb h)
  · exact fun h => exec_registerWrite_unaligned h w
  · exact fun h ha hs => exec_registerWrite_secure h ha hs w
  · intro h ho hj; rw [exec_registerWrite_open h ho, hj]
  · intro h ho hj hw; rw [exec_registerWrite_open h ho, hj]; simp only [hw]
  · exact fun h => exec_readLegacyFrame_of_not_holds h frame
  · intro h hw hb; rw [exec_readLegacyFrame_of_holds h hw, State.trbCommand_of_busy hb]
  · intro h hw hb
    rw [exec_readLegacyFrame_of_holds h hw]
    refine ⟨fun ht => ?_, fun ht => ⟨fun hf => ?_, fun he hq => ?_, fun hf he => ?_⟩⟩
    · rw [State.trbCommand_of_none hb ht]
    · rw [State.trbCommand_of_refused hb ht (.inl hf)]
    · rw [State.trbCommand_of_refused hb ht (.inr ⟨he, hq⟩)]
    · rw [State.trbCommand_of_allowed hb ht hf he]
  · exact fun h => exec_legacy_of_none h near f
  · intro ht
    exact ⟨exec_legacyCaptureTrigger_of_some ht near, exec_legacyGlobalSetReset_false_of_some ht,
      exec_legacyGlobalSetReset_true_of_some ht, exec_legacyPinClockLost_of_some ht f, exec_legacyPllRelock_of_some ht f⟩

end Sys2Proof.Machine
end

section
/-!
PROOFS. A write of a whole HBM block and the read after it (R357, R383, R384, R397), and what O17 rests on.
-/

namespace Sys2Proof.Machine

/-! ## Accesses a controller serves itself -/

section
variable {s : State} {r : Req} {u : MemUnit}

theorem PlainAt.dramGate (h : PlainAt s r u) : s.dramGate r.addr.toNat = .go u := by
  obtain ⟨_, _, _, _, _, _, _, hg, _⟩ := h
  exact hg

/-- The unit of a plain access serves it now. -/
theorem PlainAt.memWaits (h : PlainAt s r u) : s.memWaits r = false := by
  obtain ⟨_, _, _, _, hm, he, _, hg, _⟩ := h
  have serves : (s.dramGate r.addr.toNat == .wait) = false := by simp [hg]
  cases hr : s.region r.addr.toNat with
  | none => simp only [State.memWaits, hm, hr, serves]
  | some g =>
    simp only [State.memWaits, hm, hr, serves]
    exact if_neg (by simp [he g hr])

/-- A plain access reaches its controller at once (R358, R365, R388). -/
theorem PlainAt.memRequest (h : PlainAt s r u) : s.memRequest r = s.plainAccess r := by
  have hw := h.memWaits
  obtain ⟨hc, hb, hl, hd, hm, he, hr, _, hq⟩ := h
  have judged : ¬ ((!inBlock r.addr.toNat r.len || (r.write && r.data.length != r.len) || !s.dramHas r.addr.toNat) = true) := by
    cases hwr : r.write <;> simp [hb, hd, hwr] at hl ⊢
    exact hl
  have access : s.memAccess r = s.plainAccess r := by
    rw [State.memAccess, if_neg judged, hm]
    simp only [hr, hw, hq, Bool.not_true, Bool.not_false, Bool.and_false, Bool.or_self, Bool.false_eq_true, if_false]
    cases hg : s.region r.addr.toNat with
    | none => rfl
    | some g => exact if_neg (by simp [he g hg])
  rw [State.memRequest, if_pos (.inl hc), access]

end

/-- The DRAM after a command to the row of an address: its row opened instead of its bank's other row, as the page hint asks, and the
rank awake (R390, R391). -/
def State.rowOpened (s : State) (a hint : Nat) : Dram :=
  let others := s.dram.openRows.filter (fun o => o.bank != (s.bankRow a).1)
  { s.dram with
    openRows := if hint = 2 then others else ⟨(s.bankRow a).1, (s.bankRow a).2, hint, s.tb.count⟩ :: others
    pdown := s.dram.pdown.filter (· != s.rankOf a)
    lastCmd := SMap.insert s.dram.lastCmd (s.rankOf a) s.tb.count }

theorem State.touchRow_hbm {s : State} {a : Nat} (h : isHbm a = true) (hint : Nat) :
    s.touchRow a hint = { s with dram := s.rowOpened a hint } := by
  simp only [State.touchRow, h, if_true]
  rfl

/-- The state after a whole block with good parity is stored in HBM: its bytes and a fresh descriptor, and no correction of it waits
any more (R384, R386). -/
def State.hbmStored (s : State) (r : Req) : State :=
  let b := r.addr.toNat / 64
  { s with dram := { s.rowOpened r.addr.toNat r.page with
    bytes := putBytes s.dram.bytes (64 * b) r.data
    bmeta := SMap.set default s.dram.bmeta b (s.freshMeta b)
    wback := s.dram.wback.filter (fun e => e.1 != b) } }

theorem State.ownBytes_of_none {s : State} {b : Nat} (h : s.metaRegion (64 * b) = none) : s.ownBytes b = s := by
  simp only [State.ownBytes, h]

theorem State.putBlock_touchRow_hbm {s : State} {r : Req} (h : isHbm r.addr.toNat = true)
    (hm : s.metaRegion (64 * (r.addr.toNat / 64)) = none) :
    (s.touchRow r.addr.toNat r.page).putBlock (r.addr.toNat / 64) r.data
      ((s.touchRow r.addr.toNat r.page).freshMeta (r.addr.toNat / 64)) = s.hbmStored r := by
  have own : ({ s with dram := s.rowOpened r.addr.toNat r.page } : State).metaRegion (64 * (r.addr.toNat / 64)) = none := hm
  rw [State.touchRow_hbm h, State.putBlock, State.ownBytes_of_none own]
  rfl

/-! ## Stored bytes -/

theorem get_putBytes (m : SMap (BitVec 8)) (a : Nat) (l : List Byte) (x : Nat) :
    SMap.get 0#8 (putBytes m a l) x = if a ≤ x ∧ x < a + l.length then l.getD (x - a) 0#8 else SMap.get 0#8 m x := by
  induction l generalizing m a with
  | nil =>
    rw [if_neg (by simp)]
    rfl
  | cons b l ih =>
    rw [putBytes, ih, List.length_cons]
    rcases Nat.lt_trichotomy x a with hx | rfl | hx
    · rw [if_neg (by omega), if_neg (by omega), SMap.get_set_ne _ _ _ (by omega)]
    · rw [if_neg (by omega), if_pos (by omega), SMap.get_set_same, Nat.sub_self, List.getD_cons_zero]
    · rw [SMap.get_set_ne _ _ _ (by omega)]
      by_cases hl : x < a + 1 + l.length
      · rw [if_pos (by omega), if_pos (by omega), show x - a = x - (a + 1) + 1 by omega, List.getD_cons_succ]
      · rw [if_neg (by omega), if_neg (by omega)]

theorem dramBytes_putBytes {s : State} {a : Nat} {m : SMap (BitVec 8)} {data : List Byte} (h : s.dram.bytes = putBytes m a data) :
    s.dramBytes a data.length = data := by
  refine List.ext_getElem (by simp [State.dramBytes]) fun i hi hd => ?_
  simp only [State.dramBytes, List.getElem_map, List.getElem_range, h, get_putBytes]
  rw [if_pos (by omega), Nat.add_sub_cancel_left, List.getD_eq_getElem _ _ hd]


/-! ## A write of a whole HBM block -/

section
variable {s : State} {r : Req} {u : MemUnit} (h : PlainAt s r u) (hh : isHbm r.addr.toNat = true) (hl : r.len = 64)
include h hl

theorem PlainAt.addr_aligned : 64 * (r.addr.toNat / 64) = r.addr.toNat := by
  obtain ⟨_, hb, _⟩ := h
  simp only [inBlock, hl, Bool.and_eq_true, decide_eq_true_eq] at hb
  omega

theorem PlainAt.metaRegion_block : s.metaRegion (64 * (r.addr.toNat / 64)) = none := by
  rw [h.addr_aligned hl]
  obtain ⟨_, _, _, _, hm, _⟩ := h
  exact hm

theorem PlainAt.data_whole (hw : r.write = true) : r.data.length = 64 := by
  obtain ⟨_, _, hd, _⟩ := h
  exact (hd hw).trans hl

include hh

/-- A whole block with good parity replaces what the block held (R384). -/
theorem PlainAt.exec_dramWrite_hbm (hw : r.write = true) (hp : r.badPar = []) :
    exec (.dramWrite r) s = .next ((s.hbmStored r).respond r .ok) := by
  have same : { r with write := true } = r := by rw [← hw]
  have written : s.ctlWrite r.addr.toNat r.data (!r.badPar.isEmpty) r.src.requester r.page = some (.ok, s.hbmStored r) := by
    simp only [State.ctlWrite, h.dramGate, hp, State.writeBlock, h.data_whole hl hw,
      ← State.putBlock_touchRow_hbm hh (h.metaRegion_block hl)]
    rfl
  change Host.Outcome.next (s.memRequest { r with write := true }) = _
  rw [same, h.memRequest, State.plainAccess, if_pos hw, written]

end

/-! ## A read of the block -/

theorem State.blockBytes_hbmStored {s : State} {r : Req} (hd : r.data.length = 64)
    (hm : s.metaRegion (64 * (r.addr.toNat / 64)) = none) : (s.hbmStored r).blockBytes (r.addr.toNat / 64) = r.data := by
  have region : (s.hbmStored r).metaRegion (64 * (r.addr.toNat / 64)) = none := hm
  have stored := dramBytes_putBytes (s := s.hbmStored r) (a := 64 * (r.addr.toNat / 64)) (data := r.data) rfl
  rw [hd] at stored
  simp only [State.blockBytes, State.treeBytes, region, stored]

/-- The block reads clean under the code it was written under. -/
theorem State.decodeBlock_hbmStored {s : State} {r : Req} (hd : r.data.length = 64)
    (hm : s.metaRegion (64 * (r.addr.toNat / 64)) = none) : (s.hbmStored r).decodeBlock (r.addr.toNat / 64) = .clean r.data := by
  have descr : (s.hbmStored r).bmeta (r.addr.toNat / 64) = s.freshMeta (r.addr.toNat / 64) := SMap.get_set_same ..
  have code : (s.hbmStored r).byParity (64 * (r.addr.toNat / 64)) = s.byParity (64 * (r.addr.toNat / 64)) := rfl
  simp only [State.decodeBlock, State.blockBytes_hbmStored hd hm, descr, code, State.freshMeta]
  cases s.byParity (64 * (r.addr.toNat / 64)) <;> rfl

/-- A plain read of a clean HBM block returns its bytes (R383). -/
theorem PlainAt.exec_dramRead_clean {t : State} {p : Req} {u : MemUnit} {data : List Byte} (h : PlainAt t p u)
    (hh : isHbm p.addr.toNat = true) (hw : p.write = false) (hd : t.decodeBlock (p.addr.toNat / 64) = .clean data) :
    exec (.dramRead p) t =
      .next (({ t with dram := t.rowOpened p.addr.toNat p.page } : State).respond p .ok
        ((data.drop (p.addr.toNat % 64)).take p.len)) := by
  have same : { p with write := false } = p := by rw [← hw]
  have touched : ({ t with dram := t.rowOpened p.addr.toNat p.page } : State).decodeBlock (p.addr.toNat / 64) = .clean data := hd
  have read : t.ctlRead p.addr.toNat p.len p.src.requester p.page = some (.ok, (data.drop (p.addr.toNat % 64)).take p.len, [],
      { t with dram := t.rowOpened p.addr.toNat p.page }) := by
    simp only [State.ctlRead, h.dramGate, State.touchRow_hbm hh, State.readBlock, touched]
    rfl
  change Host.Outcome.next (t.memRequest { p with write := false }) = _
  rw [same, h.memRequest, State.plainAccess, if_neg (by simp [hw]), read]

/-! ## The bytes of one block lie in one unit -/

theorem isHbm_iff {a : Nat} : isHbm a = true ↔ 0x010000000000 ≤ a ∧ a < 0x010C00000000 := by
  rw [isHbm, Bool.and_eq_true, decide_eq_true_eq, decide_eq_true_eq]
  rfl

/-- Stack and pseudo-channel depend on the block of an HBM address alone (R377). -/
theorem hbmPlace_congr {p a : Nat} (offset : (p - hbmBase) / 64 = (a - hbmBase) / 64) : hbmPlace p = hbmPlace a := by
  have lt : ∀ x, (p - hbmBase < 64 * x ↔ a - hbmBase < 64 * x) := by omega
  have row : ∀ x, (p - hbmBase - 64 * x) / 256 = (a - hbmBase - 64 * x) / 256 := by omega
  generalize hi : p - hbmBase = i at *
  generalize hj : a - hbmBase = j at *
  unfold hbmPlace
  rw [hi, hj]
  have lt18 := lt (18 * 2 ^ 24)
  have lt36 := lt (36 * 2 ^ 24)
  have lt42 := lt (42 * 2 ^ 24)
  have at0 := row 0
  have at18 := row (18 * 2 ^ 24)
  have at36 := row (36 * 2 ^ 24)
  have at42 := row (42 * 2 ^ 24)
  simp only [Nat.reducePow, Nat.reduceMul, Nat.sub_zero] at *
  simp only [lt18, lt36, lt42, at0, at18, at36, at42]

theorem State.memUnit_hbm {s : State} {a : Nat} (h : isHbm a = true) : s.memUnit a = some ⟨true, (hbmPlace a).1, (hbmPlace a).2⟩ := by
  delta State.memUnit
  refine (if_pos h).trans ?_
  obtain ⟨stack, channel⟩ := hbmPlace a
  rfl

theorem land_rankMask_add {x k : Nat} (hx : x < 2 ^ 23) : Nat.land (2 ^ 24 * k + x) 0xFF800000 = Nat.land (2 ^ 24 * k) 0xFF800000 := by
  refine Nat.eq_of_testBit_eq fun i => ?_
  change ((2 ^ 24 * k + x) &&& 0xFF800000).testBit i = (2 ^ 24 * k &&& 0xFF800000).testBit i
  rw [Nat.testBit_and, Nat.testBit_and]
  by_cases hi : i < 23
  · have mask : (0xFF800000 : Nat).testBit i = false := by interval_cases i <;> rfl
    rw [mask, Bool.and_false, Bool.and_false]
  · obtain ⟨j, rfl⟩ := Nat.exists_eq_add_of_le (Nat.le_of_not_lt hi)
    have high : (2 ^ 24 * k + x) / 2 ^ 23 = 2 ^ 24 * k / 2 ^ 23 := by omega
    rw [Nat.add_comm 23 j, ← Nat.testBit_div_two_pow (2 ^ 24 * k + x) j, ← Nat.testBit_div_two_pow (2 ^ 24 * k) j, high]

/-- The rank of an HBM address is its pseudo-channel's: the bank bits of its location are none of it (R387, R391). -/
theorem State.rankOf_of_memUnit {s : State} {a : Nat} {u : MemUnit} (hu : s.memUnit a = some u) (hb : u.hbm = true) :
    s.rankOf a = Nat.land (2 ^ 31 + 2 ^ 29 * u.unit + 2 ^ 24 * u.sub) 0xFF800000 := by
  have row := (Config.dramRow (s.reg .ddrMap []).toNat a).isLt
  have bank : Nat.land (Config.dramRankBank (s.reg .ddrMap []).toNat a).toNat 0x003F0000 < 2 ^ 23 :=
    Nat.lt_of_le_of_lt Nat.and_le_right (by decide)
  have split : s.location a / 2 ^ 32 = 2 ^ 24 * (2 ^ 7 + 2 ^ 5 * u.unit + u.sub) +
      Nat.land (Config.dramRankBank (s.reg .ddrMap []).toNat a).toNat 0x003F0000 := by
    simp only [State.location, hu, hb, if_true, b2n]
    omega
  rw [State.rankOf, split, land_rankMask_add bank]
  congr 1
  ring

section
variable {s : State} {a p : Nat} (hp : p / 64 = a / 64)
include hp

theorem isHbm_of_sameBlock : isHbm p = isHbm a := by
  rw [Bool.eq_iff_iff, isHbm_iff, isHbm_iff]
  omega

theorem hbmPlace_of_sameBlock : hbmPlace p = hbmPlace a := by
  have base : hbmBase % 64 = 0 := rfl
  exact hbmPlace_congr (by omega)

theorem State.memUnit_of_sameBlock (hh : isHbm a = true) : s.memUnit p = s.memUnit a := by
  rw [State.memUnit_hbm hh, State.memUnit_hbm ((isHbm_of_sameBlock hp).trans hh), hbmPlace_of_sameBlock hp]

theorem State.rankOf_of_sameBlock (hh : isHbm a = true) : s.rankOf p = s.rankOf a := by
  have unit := State.memUnit_hbm (s := s) hh
  rw [State.rankOf_of_memUnit unit rfl, State.rankOf_of_memUnit ((State.memUnit_of_sameBlock hp hh).trans unit) rfl]

/-- A block of HBM whose first byte a unit serves is served wherever no row repair keeps a byte of it waiting. -/
theorem State.dramGate_of_sameBlock (hh : isHbm a = true) (hr : s.repairBlocks p = s.repairBlocks a) :
    s.dramGate p = s.dramGate a := by
  simp only [State.dramGate, State.dramHas, isHbm_of_sameBlock hp, hh, State.memUnit_of_sameBlock hp hh,
    State.rankOf_of_sameBlock hp hh, hr, Bool.true_or]

end

/-! ## Outside the region descriptors -/

section
variable {s : State} (h : (List.range 64).all (fun g => !s.flag F.ddrRgnCfg_en [g]) = true)
include h

theorem State.region_of_disabled (a : Nat) : s.region a = none := by
  refine List.find?_eq_none.mpr fun g hg => ?_
  have off := List.all_eq_true.mp h g hg
  simp only [Bool.not_eq_true'] at off
  simp [State.covers, off]

theorem State.metaRegion_of_disabled (a : Nat) : s.metaRegion a = none := by
  refine List.find?_eq_none.mpr fun g hg => ?_
  have off := List.all_eq_true.mp h g hg
  simp only [Bool.not_eq_true'] at off
  simp [State.encrypted, off]

theorem State.memRuns_of_sameBlock {a p : Nat} (hp : p / 64 = a / 64) : s.memRuns p = s.memRuns a := by
  simp only [State.memRuns, State.region_of_disabled h, isHbm_of_sameBlock hp, hbmPlace_of_sameBlock hp]

end

/-! ## What depends on the registers alone -/

section
variable {s t : State} (h : t.regs = s.regs)
include h

theorem State.get_congr (f : Fld) (i : List Nat) : t.get f i = s.get f i := by
  rw [State.get, State.get, State.reg, State.reg, h]

theorem State.chanCap_congr (c : Nat) : t.chanCap c = s.chanCap c := by
  rw [State.chanCap, State.chanCap, State.get_congr h]

theorem State.ddrFitted_congr : t.ddrFitted = s.ddrFitted := by
  rw [State.ddrFitted, State.ddrFitted, State.get_congr h]

theorem State.chanAfter_congr (l : List Nat) (a : Nat) : t.chanAfter l a = s.chanAfter l a := by
  induction l generalizing a with
  | nil => rfl
  | cons c l ih => rw [State.chanAfter, State.chanAfter, State.chanCap_congr h, ih]

theorem State.ddrChannel_congr (a : Nat) : t.ddrChannel a = s.ddrChannel a := by
  simp only [State.ddrChannel, State.chanCap_congr h, State.get_congr h, State.chanAfter_congr h]

theorem State.memUnit_congr (a : Nat) : t.memUnit a = s.memUnit a := by
  by_cases hh : isHbm a = true
  · rw [State.memUnit_hbm hh, State.memUnit_hbm hh]
  · delta State.memUnit
    rw [if_neg hh, if_neg hh, State.ddrFitted_congr h, State.ddrChannel_congr h]

theorem State.location_congr (a : Nat) : t.location a = s.location a := by
  rw [State.location, State.location, State.memUnit_congr h, State.reg, State.reg, h]

theorem State.unitFailed_congr (u : MemUnit) : t.unitFailed u = s.unitFailed u := by
  simp only [State.unitFailed, State.flag, State.get_congr h]

theorem State.unitTrained_congr (u : MemUnit) : t.unitTrained u = s.unitTrained u := by
  simp only [State.unitTrained, State.flag, State.get_congr h]

theorem State.bankRow_congr (a : Nat) : t.bankRow a = s.bankRow a := by
  rw [State.bankRow, State.bankRow, State.location_congr h]

theorem State.rankOf_congr (a : Nat) : t.rankOf a = s.rankOf a := by
  rw [State.rankOf, State.rankOf, State.location_congr h]

theorem State.repairBlocks_congr (hrep : t.repairOf = s.repairOf) (a : Nat) : t.repairBlocks a = s.repairBlocks a := by
  simp only [State.repairBlocks, hrep, State.bankRow_congr h]

theorem State.dramHas_congr (a : Nat) : t.dramHas a = s.dramHas a := by
  rw [State.dramHas, State.dramHas, State.ddrFitted_congr h]

theorem State.dramGate_congr (hcatch : t.dram.catchUp = s.dram.catchUp) (hslice : t.dram.slice = s.dram.slice)
    (hrep : t.repairOf = s.repairOf) (a : Nat) : t.dramGate a = s.dramGate a := by
  simp only [State.dramGate, State.dramHas_congr h, State.memUnit_congr h, hcatch, State.unitFailed_congr h,
    State.unitTrained_congr h, hslice, State.rankOf_congr h, State.repairBlocks_congr h hrep]

theorem State.behind_congr (hheld : t.dram.held = s.dram.held) (r : Req) : t.behind r = s.behind r := by
  simp only [State.behind, State.heldAt, State.memUnit_congr h, hheld]

end

/-- A read of the block just written is a plain access, wherever no row repair keeps it waiting. -/
theorem PlainAt.of_sameBlock {s : State} {r p : Req} {u : MemUnit}
    (hr : (List.range 64).all (fun g => !s.flag F.ddrRgnCfg_en [g]) = true) (h : PlainAt s r u) (hh : isHbm r.addr.toNat = true)
    (hc : p.cls ≠ 3) (hb : inBlock p.addr.toNat p.len = true) (hp : p.addr.toNat / 64 = r.addr.toNat / 64) (hw : p.write = false)
    (hrep : s.repairBlocks p.addr.toNat = s.repairBlocks r.addr.toNat) : PlainAt ((s.hbmStored r).respond r .ok) p u := by
  have gate : ((s.hbmStored r).respond r .ok).dramGate p.addr.toNat = .go u := by
    rw [State.dramGate_congr (s := s) (t := (s.hbmStored r).respond r .ok) rfl rfl rfl rfl, State.dramGate_of_sameBlock hp hh hrep,
      h.dramGate]
  obtain ⟨_, _, _, _, _, _, hruns, _, hq⟩ := h
  have runs : s.memRuns p.addr.toNat = true := (State.memRuns_of_sameBlock hr hp).trans hruns
  have free : ((s.hbmStored r).respond r .ok).behind p = false := by
    rw [State.behind_congr (s := s) (t := (s.hbmStored r).respond r .ok) rfl rfl, State.behind, State.memUnit_of_sameBlock hp hh]
    exact hq
  refine ⟨hc, hb, by simp [hw], ?_, State.metaRegion_of_disabled hr _, fun g hg => ?_, runs, gate, free⟩
  · simp [State.dramHas, isHbm_of_sameBlock hp, hh]
  · have none : s.region p.addr.toNat = some g := hg
    rw [State.region_of_disabled hr] at none
    cases none

/-- A write of a whole HBM block outside the regions, byte by byte, and a read of it that no row repair keeps waiting (R384, R397). -/
theorem dramBytes_of_repairBlocks {s : State} {r p : Req} {u : MemUnit} (hh : isHbm r.addr.toNat = true) (hw : r.write = true)
    (hl : r.len = 64) (hpar : r.badPar = []) (hr : (List.range 64).all (fun g => !s.flag F.ddrRgnCfg_en [g]) = true)
    (h : PlainAt s r u) :
    ∃ t, exec (.dramWrite r) s = .next t ∧ t.outbox = s.outbox ++ [.flit r .ok [] []] ∧
      (∀ x, SMap.get 0#8 t.dram.bytes x =
        if r.addr.toNat ≤ x ∧ x < r.addr.toNat + 64 then r.data.getD (x - r.addr.toNat) 0#8 else SMap.get 0#8 s.dram.bytes x) ∧
      { t with dram := s.dram, outbox := s.outbox } = s ∧
      (p.write = false → p.cls ≠ 3 → inBlock p.addr.toNat p.len = true → p.addr.toNat / 64 = r.addr.toNat / 64 →
        s.repairBlocks p.addr.toNat = s.repairBlocks r.addr.toNat →
          ∃ v, exec (.dramRead p) t = .next v ∧
            v.outbox = t.outbox ++ [.flit p .ok ((r.data.drop (p.addr.toNat % 64)).take p.len) []]) := by
  refine ⟨_, h.exec_dramWrite_hbm hh hl hw hpar, rfl, fun x => ?_, rfl, fun hpw hc hb hp hrep => ?_⟩
  · change SMap.get 0#8 (putBytes s.dram.bytes (64 * (r.addr.toNat / 64)) r.data) x = _
    rw [h.addr_aligned hl, get_putBytes, h.data_whole hl hw]
  · have clean := State.decodeBlock_hbmStored (h.data_whole hl hw) (h.metaRegion_block hl)
    rw [← hp] at clean
    exact ⟨_, (h.of_sameBlock hr hh hc hb hp hpw hrep).exec_dramRead_clean ((isHbm_of_sameBlock hp).trans hh) hpw clean, rfl⟩


/-! ## What the read of O17 rests on

The spec gives no map from an HBM address to its bank and row, so `Config.dramRankBank` and `Config.dramRow` have no body. A row
repair keeps the other rows of its bank waiting (R397). So O17 holds if the bytes of a block share their bank and row, and says in
turn that two bytes of one block and one bank share their row: what neither map can be proved or refuted to do. -/

/-- O17, where the bytes of a block share their bank and row. -/
theorem dramBytes_of_sameRow (h : ∀ map a p : Nat, p / 64 = a / 64 →
    Config.dramRankBank map p = Config.dramRankBank map a ∧ Config.dramRow map p = Config.dramRow map a) : Obligations.DramBytes := by
  intro s r p u a hh hw hl hpar hr plain
  have repair : p.addr.toNat / 64 = a / 64 → s.repairBlocks p.addr.toNat = s.repairBlocks a := fun hp => by
    obtain ⟨bank, row⟩ := h (s.reg .ddrMap []).toNat a p.addr.toNat hp
    have location : s.location p.addr.toNat = s.location a := by
      simp only [State.location, State.memUnit_of_sameBlock hp hh, bank, row]
    rw [State.repairBlocks, State.repairBlocks, State.bankRow, State.bankRow, location, isHbm_of_sameBlock hp]
  obtain ⟨t, ht, out, bytes, frame, read⟩ := dramBytes_of_repairBlocks (p := p) hh hw hl hpar hr plain
  exact ⟨t, ht, out, bytes, frame, fun hpw hc hb hp => read hpw hc hb hp (repair hp)⟩

/-- HBM stack 0 trained and running. -/
def State.hbmRunning : State :=
  ({ State.reset with clk := { State.reset.clk with phase := .running } } : State).raise F.hbmStkStat_trained [0]

/-- The same while the row of the HBM's first byte is repaired and has been copied (R397). -/
def State.hbmRepairing : State :=
  { State.hbmRunning with dram := { State.hbmRunning.dram with
      repairHbm := some ⟨false, BitVec.ofNat 64 (State.hbmRunning.location hbmBase), [], true, []⟩ } }

/-- A request of the host's at a byte of the HBM. -/
def hbmRequest (write : Bool) (i : Nat) (data : List Byte) (len : Nat) : Req :=
  { src := ⟨58, 0, false, false⟩, tag := 0, cls := 1, page := 0, write := write, addr := BitVec.ofNat 48 (hbmBase + i), len := len,
    data := data, badPar := [], stamp := 0#16 }

/-- HBM's first byte has a location of 64 bits. -/
theorem location_hbmBase_lt : State.hbmRunning.location hbmBase < 2 ^ 64 := by
  have row := (Config.dramRow (State.hbmRunning.reg .ddrMap []).toNat hbmBase).isLt
  have bank : Nat.land (Config.dramRankBank (State.hbmRunning.reg .ddrMap []).toNat hbmBase).toNat 0x003F0000 < 2 ^ 23 :=
    Nat.lt_of_le_of_lt Nat.and_le_right (by decide)
  have unit : State.hbmRunning.memUnit hbmBase = some ⟨true, 0, 0⟩ := by decide
  simp only [State.location, unit, if_true, b2n]
  omega

theorem repairBlocks_hbmRepairing (p : Nat) (hp : p / 64 = hbmBase / 64) :
    State.hbmRepairing.repairBlocks p = true ↔
      (State.hbmRunning.bankRow p).1 = (State.hbmRunning.bankRow hbmBase).1 ∧
        (State.hbmRunning.bankRow p).2 ≠ (State.hbmRunning.bankRow hbmBase).2 := by
  have hbm : isHbm p = true := (isHbm_of_sameBlock hp).trans (by decide)
  have loc : (BitVec.ofNat 64 (State.hbmRunning.location hbmBase)).toNat = State.hbmRunning.location hbmBase := by
    rw [BitVec.toNat_ofNat, Nat.mod_eq_of_lt location_hbmBase_lt]
  have same : State.hbmRepairing.bankRow p = State.hbmRunning.bankRow p := State.bankRow_congr rfl p
  have rep : State.hbmRepairing.repairOf true =
    some ⟨false, BitVec.ofNat 64 (State.hbmRunning.location hbmBase), [], true, []⟩ := rfl
  simp only [State.repairBlocks, hbm, rep, loc, same, Bool.true_and, Bool.and_eq_true, beq_iff_eq, bne_iff_ne]
  rfl

theorem noRegions_hbmRepairing : (List.range 64).all (fun g => !State.hbmRepairing.flag F.ddrRgnCfg_en [g]) = true := by decide

theorem plainAt_hbmRepairing : PlainAt State.hbmRepairing (hbmRequest true 0 (List.replicate 64 0#8) 64) ⟨true, 0, 0⟩ := by
  have blocks : State.hbmRepairing.repairBlocks hbmBase = false := by
    rw [Bool.eq_false_iff, Ne, repairBlocks_hbmRepairing hbmBase rfl]
    exact fun h => h.2 rfl
  have gate : State.hbmRepairing.dramGate hbmBase = .go ⟨true, 0, 0⟩ := by
    have unit : State.hbmRepairing.memUnit hbmBase = some ⟨true, 0, 0⟩ := by decide
    have has : State.hbmRepairing.dramHas hbmBase = true := by decide
    have works : State.hbmRepairing.unitFailed ⟨true, 0, 0⟩ = false := by decide
    have trained : State.hbmRepairing.unitTrained ⟨true, 0, 0⟩ = true := by decide
    have slice : State.hbmRepairing.dram.slice = [] := rfl
    have catchUp : State.hbmRepairing.dram.catchUp = false := rfl
    simp [State.dramGate, unit, has, works, trained, slice, catchUp, blocks]
  have runs : State.hbmRepairing.memRuns hbmBase = true := by
    have stack : (hbmPlace hbmBase).1 = 0 := by decide
    have clock : State.hbmRepairing.runs 7 = true := by decide
    simp [State.memRuns, State.region_of_disabled noRegions_hbmRepairing, stack, clock, (by decide : isHbm hbmBase = true)]
  refine ⟨by decide, by decide, by decide, by decide, State.metaRegion_of_disabled noRegions_hbmRepairing _, fun g hg => ?_, runs,
    gate, rfl⟩
  rw [State.region_of_disabled noRegions_hbmRepairing] at hg
  cases hg

/-- A plain read at a unit that serves nothing now is held without an answer (R388). -/
theorem exec_dramRead_of_wait {t : State} {p : Req} (hc : p.cls ≠ 3) (hb : inBlock p.addr.toNat p.len = true) (hw : p.write = false)
    (hd : t.dramHas p.addr.toNat = true) (hr : (List.range 64).all (fun g => !t.flag F.ddrRgnCfg_en [g]) = true)
    (hruns : t.memRuns p.addr.toNat = true) (hg : t.dramGate p.addr.toNat = .wait) : exec (.dramRead p) t = .next (t.hold p) := by
  have same : { p with write := false } = p := by rw [← hw]
  have judged : ¬ ((!inBlock p.addr.toNat p.len || (p.write && p.data.length != p.len) || !t.dramHas p.addr.toNat) = true) := by
    simp [hb, hw, hd]
  have waits : t.memWaits p = true := by
    simp only [State.memWaits, State.metaRegion_of_disabled hr, State.region_of_disabled hr, hg]
    rfl
  change Host.Outcome.next (t.memRequest { p with write := false }) = _
  rw [same, State.memRequest, if_pos (.inl hc), State.memAccess, if_neg judged, State.metaRegion_of_disabled hr]
  simp only [hruns, waits]
  rfl

/-- Where a row repair keeps one byte of a served block waiting, that byte's unit serves nothing now. -/
theorem State.dramGate_of_repairBlocks {s : State} {a p : Nat} {u : MemUnit} (hp : p / 64 = a / 64) (hh : isHbm a = true)
    (h : s.dramGate a = .go u) (hrep : s.repairBlocks p = true) : s.dramGate p = .wait := by
  have unit := State.memUnit_hbm (s := s) hh
  have has : s.dramHas a = true := by simp [State.dramHas, hh]
  have has' : s.dramHas p = true := by simp [State.dramHas, (isHbm_of_sameBlock hp).trans hh]
  simp only [State.dramGate, has, has', (State.memUnit_of_sameBlock hp hh).trans unit, unit, hrep, Bool.or_true, if_true] at h ⊢
  split_ifs at h ⊢
  rfl

/-- A read of the block just written waits where a row repair keeps it waiting (R397). -/
theorem PlainAt.exec_dramRead_held {s : State} {r p : Req} {u : MemUnit}
    (hr : (List.range 64).all (fun g => !s.flag F.ddrRgnCfg_en [g]) = true) (h : PlainAt s r u) (hh : isHbm r.addr.toNat = true)
    (hc : p.cls ≠ 3) (hb : inBlock p.addr.toNat p.len = true) (hp : p.addr.toNat / 64 = r.addr.toNat / 64) (hw : p.write = false)
    (hrep : s.repairBlocks p.addr.toNat = true) :
    exec (.dramRead p) ((s.hbmStored r).respond r .ok) = .next (((s.hbmStored r).respond r .ok).hold p) := by
  have gate : ((s.hbmStored r).respond r .ok).dramGate p.addr.toNat = .wait := by
    rw [State.dramGate_congr (s := s) (t := (s.hbmStored r).respond r .ok) rfl rfl rfl rfl]
    exact State.dramGate_of_repairBlocks hp hh h.dramGate hrep
  obtain ⟨_, _, _, _, _, _, hruns, _⟩ := h
  have runs : s.memRuns p.addr.toNat = true := (State.memRuns_of_sameBlock hr hp).trans hruns
  have has : ((s.hbmStored r).respond r .ok).dramHas p.addr.toNat = true := by
    simp [State.dramHas, (isHbm_of_sameBlock hp).trans hh]
  exact exec_dramRead_of_wait hc hb hw has hr runs gate

/-- O17 says that HBM's second byte lies in its first byte's row, where it lies in its bank. -/
theorem sameRow_of_dramBytes (h : Obligations.DramBytes)
    (hb : (State.hbmRunning.bankRow (hbmBase + 1)).1 = (State.hbmRunning.bankRow hbmBase).1) :
    (State.hbmRunning.bankRow (hbmBase + 1)).2 = (State.hbmRunning.bankRow hbmBase).2 := by
  by_contra row
  obtain ⟨t, ht, -, -, -, read⟩ := h State.hbmRepairing (hbmRequest true 0 (List.replicate 64 0#8) 64) (hbmRequest false 1 [] 1)
    ⟨true, 0, 0⟩ (by decide) rfl rfl rfl noRegions_hbmRepairing plainAt_hbmRepairing
  obtain ⟨v, hv, out⟩ := read rfl (by decide) (by decide) (by decide)
  rw [plainAt_hbmRepairing.exec_dramWrite_hbm (by decide) rfl rfl rfl] at ht
  injection ht with ht
  subst ht
  have at1 : (hbmRequest false 1 [] 1).addr.toNat = hbmBase + 1 := by decide
  have blocked : State.hbmRepairing.repairBlocks (hbmRequest false 1 [] 1).addr.toNat = true := by
    rw [at1]
    exact (repairBlocks_hbmRepairing _ (by decide)).mpr ⟨hb, row⟩
  rw [plainAt_hbmRepairing.exec_dramRead_held noRegions_hbmRepairing (by decide) (by decide) (by decide) (by decide) rfl blocked] at hv
  injection hv with hv
  subst hv
  exact absurd (congrArg List.length out) (by simp [State.hold])

end Sys2Proof.Machine
end

section
/-!
PROOFS. Training, the start-up sequence and its events, the host deadline, the wire check and PERST_N (R43, R46, R264, R301, R306,
R307, R310, R318, R348, R457; O41).
-/

namespace Sys2Proof.Machine

/-! ## The start-up sequence -/

section
variable {s : State}

/-- The start-up sequence does not begin outside the trained stage, between multiples of 1,000 and before its first count (R306). -/
theorem exec_startUpSequence_of_early (h : s.load.stage ≠ .trained ∨ s.now 8 % 1000 ≠ 0 ∨ s.now 8 < s.load.step0) :
    exec .startUpSequence s = .next s :=
  if_pos h

/-- A load set starts up by the header of its native image (R306). -/
theorem State.startHeader_of_set (h : s.flaskLoad = false) : s.startHeader = s.load.native :=
  if_neg (ne_true_of_eq_false h)

variable (hs : s.load.stage = .trained) (hm : s.now 8 % 1000 = 0) (hc : s.load.step0 ≤ s.now 8)
include hs hm hc

theorem not_startUpSequence_early : ¬ (s.load.stage ≠ .trained ∨ s.now 8 % 1000 ≠ 0 ∨ s.now 8 < s.load.step0) := by
  simp [hs, hm, hc]

/-- The sequence of a flask touches the load alone (R318). -/
theorem exec_startUpSequence_of_flask (hf : s.flaskLoad = true) :
    exec .startUpSequence s =
      .next { s with load := { s.load with stage := .startup, step0 := s.now 8, events := 0#4, deadline := 0 } } :=
  (if_neg (not_startUpSequence_early hs hm hc)).trans (if_pos hf)

/-- The sequence of a set without a follower brings the floors of its image into force and plans no legacy release (R286, R306). -/
theorem exec_startUpSequence_of_native (hf : s.flaskLoad = false) (hn : hFollower s.load.native = 0) :
    let s1 := ({ s with load := { s.load with stage := .startup, step0 := s.now 8, events := 0#4, deadline := 0 } } : State)
    let s2 := s.nativeDies.foldl (fun (u : State) (d : Nat) =>
      (u.put F.pwrTl_floor [d] (floorOf (bitsOf (fieldAt s.load.native 0x12 1) 3 0))).put F.pwrTl_floor [4 + d]
        (floorOf (bitsOf (fieldAt s.load.native 0x12 1) 7 4))) (s1.setPhase 4)
    exec .startUpSequence s =
      .next ({ s2 with load := { s2.load with legacy := 0#4, legacySteps := [], tarod := 0 } } : State).fixLevels := by
  refine (if_neg (not_startUpSequence_early hs hm hc)).trans ((if_neg (ne_true_of_eq_false hf)).trans ?_)
  simp only [State.startHeader_of_set hf, hn]
  rfl

end

/-! ## What the four events share -/

section
variable {due flask : Bool} {idle ofFlask ofSet : Host.Outcome State Fault Refusal}

/-- An event that is not due does nothing (R307). -/
theorem event_of_not_due (h : due = false) : (if (!due) = true then idle else if flask = true then ofFlask else ofSet) = idle := by
  simp [h]

/-- A due event of a flask's load acts on the flask (R318). -/
theorem event_of_flask (hf : flask = true) (h : due = true) :
    (if (!due) = true then idle else if flask = true then ofFlask else ofSet) = ofFlask := by
  simp [h, hf]

/-- A due event of a load set acts on its dies (R307). -/
theorem event_of_set (hf : flask = false) (h : due = true) :
    (if (!due) = true then idle else if flask = true then ofFlask else ofSet) = ofSet := by
  simp [h, hf]

end

/-! ## A legacy release -/

section
variable {s : State} {e : Fin 3} {n : Nat}

theorem exec_legacyStartupEvent_of_none (h : s.load.legacySteps[e.val]? = none) : exec (.legacyStartupEvent e) s = .next s := by
  change execLegacyStartupEvent e s = _
  simp only [execLegacyStartupEvent, h]

/-- A release does nothing before its count (R348). -/
theorem exec_legacyStartupEvent_of_early (h : s.load.legacySteps[e.val]? = some n) (hn : s.now 8 < n) :
    exec (.legacyStartupEvent e) s = .next s := by
  have early : (s.load.legacy.getLsbD e || decide (s.now 8 < n)) = true := by simp [hn]
  change execLegacyStartupEvent e s = _
  delta execLegacyStartupEvent
  rw [h]
  exact if_pos early

/-- Release 1 gives the lanes of Tarod their settings; the last release of the three sets `up` (R348). -/
theorem exec_legacyStartupEvent_of_io (h : s.load.legacySteps[e.val]? = some n) (hn : n ≤ s.now 8)
    (hl : s.load.legacy.getLsbD e.val = false) (he : e = 1) :
    let done := s.load.legacy ||| 2#4
    let s1 := ({ s with load := { s.load with legacy := done } } : State).imageLanes true
    exec (.legacyStartupEvent e) s = .next (if done = 7#4 then s1.raise F.glbTarod_up [] else s1) := by
  have due : ¬ (s.load.legacy.getLsbD e || decide (s.now 8 < n)) = true := by
    rw [hl, decide_eq_false (Nat.not_lt.mpr hn)]
    decide
  change execLegacyStartupEvent e s = _
  delta execLegacyStartupEvent
  rw [h]
  subst he
  exact if_neg due

end

/-! ## The start-up wire check -/

/-- Every group follows its repair map in both directions. -/
def State.sparesAligned (s : State) : State := (List.range 480).foldl (fun u g => (u.syncSpares g 0).syncSpares g 1) s

/-- The failing wires that a check names go to spares, group by group (R43). -/
def State.wiresJudged (s : State) (fails : List (Nat × Nat × List Nat)) : State :=
  (fails.filter fun f => decide (f.1 < 480 ∧ f.2.1 < 2)).foldl (fun u f => u.checkGroup f.1 f.2.1 f.2.2) s

/-- The check is done and the pattern that PROFILE names starts to load (R46, R299). -/
def State.bootPattern (s : State) (dir : FlashDir) : State :=
  let u := (({ s with load := { s.load with flash := dir } } : State).raise F.glbWirechk_done []).freshRoutes
  u.startPattern (u.get F.cfgStat_profile [])

theorem State.wiresJudged_nil (s : State) : s.wiresJudged [] = s := rfl

/-- The check acts while the timebase runs, and once. -/
theorem exec_wireCheckDone {s : State} (hr : s.clk.phase = .running) (hd : s.flag F.glbWirechk_done [] = false)
    (fails : List (Nat × Nat × List Nat)) (dir : FlashDir) :
    exec (.wireCheckDone fails dir) s = .next ((s.sparesAligned.wiresJudged fails).bootPattern dir) := by
  have acts : ¬ (s.clk.phase != .running || s.flag F.glbWirechk_done []) = true := by simp [hr, hd]
  exact if_neg acts

theorem exec_wireCheckDone_of_done {s : State} (h : s.clk.phase ≠ .running ∨ s.flag F.glbWirechk_done [] = true)
    (fails : List (Nat × Nat × List Nat)) (dir : FlashDir) : exec (.wireCheckDone fails dir) s = .next s := by
  have idle : (s.clk.phase != .running || s.flag F.glbWirechk_done []) = true := by simpa using h
  exact if_pos idle

/-! ## The host deadline -/

/-- The deadline does nothing where none runs, before it, without a host load and once start-up has begun (R301). -/
theorem exec_hostDeadlineExpiry_of_idle {s : State}
    (h : s.load.deadline = 0 ∨ s.now 8 + 1 < s.load.deadline ∨ s.hostLoading = false ∨ s.load.stage = .startup) :
    exec .hostDeadlineExpiry s = .next s := by
  refine if_neg fun ⟨runs, past, host, early⟩ => ?_
  rcases h with h | h | h | h
  · exact runs h
  · exact absurd past (Nat.not_le.mpr h)
  · exact ne_true_of_eq_false h host
  · exact early h

/-- Settles O41, each command by the branch its guard takes (log entries 86 and 120). -/
theorem startUpEvents : Obligations.StartUpEvents := by
  intro s e fails dir m
  refine ⟨fun h => if_pos h, fun h => if_neg (not_not.mpr h), exec_startUpSequence_of_early,
    fun hs hm hc => ⟨exec_startUpSequence_of_flask hs hm hc, exec_startUpSequence_of_native hs hm hc⟩,
    event_of_not_due, event_of_not_due, event_of_not_due, event_of_not_due,
    fun hf => ⟨event_of_flask hf, event_of_flask hf, event_of_flask hf, event_of_flask hf⟩,
    fun hf => ⟨event_of_set hf, event_of_set hf, event_of_set hf, fun h hn => (event_of_set hf h).trans ?alone⟩,
    exec_legacyStartupEvent_of_none, exec_legacyStartupEvent_of_early, exec_legacyStartupEvent_of_io,
    fun runs past host early => if_pos ⟨runs, past, host, early⟩, exec_hostDeadlineExpiry_of_idle,
    fun h => exec_wireCheckDone_of_done h fails dir, fun hr hd => ?wires, rfl,
    fun h => congrArg _ (if_pos h), fun h => congrArg _ (if_neg (ne_true_of_eq_false h))⟩
  case alone =>
    have follower : hFollower (s.eventActs 3).load.native = 0 := hn
    simp only [follower, if_true]
    rfl
  case wires =>
    intro s1
    have boots : exec (.wireCheckDone [] dir) s = .next (s1.bootPattern dir) := by
      rw [exec_wireCheckDone hr hd, State.wiresJudged_nil]
      rfl
    -- The 480 groups stay folded from here: an opaque `s1` keeps the kernel from running through them.
    clear_value s1
    exact boots

end Sys2Proof.Machine
end

section
/-!
PROOFS. Qualification and loss of the references, the PLLs' lock, the timebase's start, the hot resume and the total loss (R51 to
R58, R65, R558; O24).
-/

namespace Sys2Proof.Machine

/-! ## A change of the active reference (R56) -/

/-- The active reference changes, and the change is recorded. -/
def State.switched (s : State) (b : Bool) (cause : Nat) : State :=
  ((s.put F.clkRefstat_active [] (b2n b)).raise F.clkRefstat_switched []).logEv 8 9 0 0x0201 1 (leBytes 1 (b2n b) ++ leBytes 1 cause)

section
variable {s : State} {b : Bool}

theorem State.switchTo_of_active (h : s.activeB = b) (cause : Nat) : s.switchTo b cause = s := if_pos (beq_iff_eq.mpr h)

theorem State.switchTo_of_inactive (h : s.activeB ≠ b) (cause : Nat) : s.switchTo b cause = s.switched b cause :=
  if_neg fun e => h (beq_iff_eq.mp e)

end

/-! ## A reference qualifies (R51, R53, R58) -/

/-- Reference `b` is qualified and no longer declared failed. -/
def State.regained (s : State) (b : Bool) : State :=
  let t := s.setQualified b true
  { t with clk := if b then { t.clk with failedB := false } else { t.clk with failedA := false } }

section
variable {s : State} {b : Bool}

theorem exec_referenceQualified_of_heldOff (h : s.clk.phase = .heldOff) (start : Restart) :
    exec (.referenceQualified b start) s = .next s := if_pos (.inl h)

variable (hq : s.qualified b = false) (start : Restart)
include hq

theorem not_referenceQualified_idle {p : ClkPhase} (hp : s.clk.phase = p) (on : p ≠ .heldOff) :
    ¬ (s.clk.phase = .heldOff ∨ s.qualified b = true) := by
  simp [hp, hq, on]

/-- At start-up the first qualified reference becomes active and the PLLs lock to it. -/
theorem exec_referenceQualified_of_waitRef (hp : s.clk.phase = .waitRef) :
    exec (.referenceQualified b start) s = .next (((s.regained b).activate1 b).setClk .locking) := by
  refine (if_neg (not_referenceQualified_idle hq hp (by decide))).trans ?_
  rw [hp]
  rfl

/-- After the monitor's expiry the qualification is a warm restart. -/
theorem exec_referenceQualified_of_expired (hp : s.clk.phase = .outage) (he : s.clk.retExpired = true) :
    exec (.referenceQualified b start) s = .next ((((s.regained b).warmRestart start).activate1 b).setClk .locking) := by
  refine (if_neg (not_referenceQualified_idle hq hp (by decide))).trans ?_
  rw [hp]
  exact if_pos he

/-- Before the monitor's expiry the qualification is a hot resume. -/
theorem exec_referenceQualified_of_retained {t : State} (hp : s.clk.phase = .outage)
    (he : s.clk.retExpired = false) (ht : (s.regained b).switchTo b 0 = t) :
    exec (.referenceQualified b start) s = .next (t.setClk .resuming) := by
  subst ht
  refine (if_neg (not_referenceQualified_idle hq hp (by decide))).trans ?_
  rw [hp]
  exact if_neg (ne_true_of_eq_false he)

/-- The preferred reference becomes active, where it was not lost before or CLK_REFCTRL reverts to it. -/
theorem exec_referenceQualified_of_preferred (hp : s.clk.phase = .running) (ha : (s.regained b).activeB ≠ b)
    (prefers : (s.regained b).flag F.clkRefctrl_prefer [] = b)
    (hb : (if b then s.clk.lostB else s.clk.lostA) = false ∨ (s.regained b).flag F.clkRefctrl_revert [] = true) :
    exec (.referenceQualified b start) s = .next ((s.regained b).switched b 2) := by
  refine (if_neg (not_referenceQualified_idle hq hp (by decide))).trans ?_
  rw [hp]
  have back : (!(if b then s.clk.lostB else s.clk.lostA) || (s.regained b).flag F.clkRefctrl_revert []) = true := by
    rcases hb with hb | hb
    · rw [hb]
      rfl
    · rw [hb, Bool.or_true]
  exact (if_pos (Bool.and_eq_true_iff.mpr ⟨back, beq_iff_eq.mpr prefers⟩)).trans
    (congrArg _ (State.switchTo_of_inactive ha 2))

end

/-! ## A reference is lost (R54, R57) -/

/-- Reference `b` is lost: the loss is counted, and the reference is neither qualified nor declared failed. -/
def State.bereft (s : State) (b : Bool) : State :=
  let t := (s.countUp (if b then F.clkRefstat_bLosses else F.clkRefstat_aLosses) []).setQualified b false
  { t with clk := if b then { t.clk with failedB := false, lostB := true } else { t.clk with failedA := false, lostA := true } }

section
variable {s : State} {b : Bool}

theorem exec_referenceLost_of_heldOff (h : s.clk.phase = .heldOff) : exec (.referenceLost b) s = .next s := if_pos h

theorem exec_referenceLost_of_inactive (hp : s.clk.phase ≠ .heldOff) (ha : s.activeB ≠ b) :
    exec (.referenceLost b) s = .next (s.bereft b) := (if_neg hp).trans (if_pos ha)

/-- The loss of the active reference of a running device is a switch to the other one where that is qualified, else total. -/
theorem exec_referenceLost_of_active (hp : s.clk.phase = .running) (ha : s.activeB = b) :
    exec (.referenceLost b) s =
      .next (if (s.bereft b).qualified (!b) = true then (s.bereft b).switchTo (!b) 0 else (s.bereft b).totalLoss) := by
  refine (if_neg (by simp [hp])).trans ((if_neg (not_not.mpr ha)).trans ?_)
  rw [hp]
  rfl

theorem exec_referenceLost_of_switch (hp : s.clk.phase = .running) (ha : s.activeB = b)
    (hq : (s.bereft b).qualified (!b) = true) (hl : (s.bereft b).activeB = b) :
    exec (.referenceLost b) s = .next ((s.bereft b).switched (!b) 0) := by
  have other : (s.bereft b).activeB ≠ !b := by simp [hl]
  rw [exec_referenceLost_of_active hp ha, if_pos hq, State.switchTo_of_inactive other]

theorem exec_referenceLost_of_total (hp : s.clk.phase = .running) (ha : s.activeB = b)
    (hq : (s.bereft b).qualified (!b) = false) : exec (.referenceLost b) s = .next (s.bereft b).totalLoss :=
  (exec_referenceLost_of_active hp ha).trans (congrArg _ (if_neg (ne_true_of_eq_false hq)))

end

theorem State.totalLoss_outage (s : State) :
    s.totalLoss.clk.phase = .outage ∧ s.totalLoss.clk.held = s.totalLoss.tb.count ∧ s.totalLoss.tb.running = false ∧
      s.totalLoss.pins.safe = true ∧ s.totalLoss.clk.retRunning = true := ⟨rfl, rfl, rfl, rfl, rfl⟩

/-! ## Start-up and hot resume (R53, R58, R65) -/

section
variable {s : State}

theorem exec_pllsLocked_of_locking (h : s.clk.phase = .locking) :
    exec .pllsLocked s = .next ((s.raise F.clkRefstat_locked []).setClk .locked) := by
  change execPllsLocked s = _
  rw [execPllsLocked, h]

theorem exec_pllsLocked_of_resuming (h : s.clk.phase = .resuming) :
    exec .pllsLocked s = .next (s.raise F.clkRefstat_locked []) := by
  change execPllsLocked s = _
  rw [execPllsLocked, h]

theorem exec_timebaseStart_of_locked (h : s.clk.phase = .locked) :
    exec .timebaseStart s = .next ((s.startTimebase (if s.clk.warm then s.tb.count + 1 else 0)).setClk .running) := by
  change execTimebaseStart s = _
  rw [execTimebaseStart, h]

theorem exec_timebaseStart_of_resuming (h : s.clk.phase = .resuming) (hl : s.flag F.clkRefstat_locked [] = true)
    (hr : s.tb.running = false) :
    let s1 := (s.startTimebase (s.tb.count + 1)).xgResume.lanesRestart
    exec .timebaseStart s = .next { s1 with dram := { s1.dram with catchUp := true } } := by
  change execTimebaseStart s = _
  rw [execTimebaseStart, h]
  exact if_pos (by simp [hl, hr])

end

/-! ## CLK_REFCTRL (R56) -/

theorem exec_referenceSwitchCommand {s : State} (h : s.regWaits .clkRefctrl = false) (src : Src) (w : Word32) :
    exec (.referenceSwitchCommand src w) s = .next ((s.refControl w).answer src .ok) :=
  congrArg Host.Outcome.next (State.regAct_of_not_waits h ..)

section
variable {s t : State} {w : Word32}

theorem State.refControl_of_no_switch (h : F.clkRefctrl_switch.of w = 0) : s.refControl w = s.writeReg .clkRefctrl [] w :=
  if_neg (by simp [h])

variable (h : F.clkRefctrl_switch.of w = 1) (ht : s.writeReg .clkRefctrl [] w = t)
include h ht

theorem State.refControl_of_unqualified (hq : t.qualified (t.flag F.clkRefctrl_prefer []) = false) :
    s.refControl w = t.raise F.clkRefstat_cmdErr [] := by
  subst ht
  exact (if_pos h).trans (if_neg (ne_true_of_eq_false hq))

theorem State.refControl_of_qualified (hq : t.qualified (t.flag F.clkRefctrl_prefer []) = true) :
    s.refControl w = t.switchTo (t.flag F.clkRefctrl_prefer []) 1 := by
  subst ht
  exact (if_pos h).trans (if_pos hq)

end

/-- Settles O24, each command by the phase it meets (log entry 49 for the causes of a switch). -/
theorem clockStartup : Obligations.ClockStartup := by
  intro s b start src w
  refine ⟨fun hp => ⟨exec_referenceQualified_of_heldOff hp start, exec_referenceLost_of_heldOff hp⟩,
    fun hp hq => exec_referenceQualified_of_waitRef hq start hp,
    fun hp hq => ⟨exec_referenceQualified_of_expired hq start hp,
      fun he ha => exec_referenceQualified_of_retained hq start hp he (State.switchTo_of_active ha 0),
      fun he ha => exec_referenceQualified_of_retained hq start hp he (State.switchTo_of_inactive ha 0)⟩,
    fun hp hq => exec_referenceQualified_of_preferred hq start hp, exec_pllsLocked_of_locking, exec_pllsLocked_of_resuming,
    exec_timebaseStart_of_locked, exec_timebaseStart_of_resuming, fun hp hr => if_pos ⟨hp, hr⟩, exec_referenceLost_of_inactive,
    fun hp ha => ⟨exec_referenceLost_of_switch hp ha, fun hq => ⟨exec_referenceLost_of_total hp ha hq, State.totalLoss_outage _⟩⟩,
    (apply_ite Host.Outcome.next _ _ _).symm,
    fun ha hq ho => if_pos (by simp [ha, hq, ho]), fun hw => ?control⟩
  case control =>
    rw [exec_referenceSwitchCommand hw]
    refine ⟨fun h => ?_, fun h hq => ?_, fun h hq ha => ?_⟩
    · rw [State.refControl_of_no_switch h]
    · rw [State.refControl_of_unqualified h rfl hq]
    · rw [State.refControl_of_qualified h rfl hq, State.switchTo_of_inactive ha]
      rfl

end Sys2Proof.Machine
end

section
/-!
PROOFS. The sequencer's steps, the cap, the sensors, the release of a trip, the governor's windows and the ageing measurement (R469
to R484; O36).
-/

namespace Sys2Proof.Machine

/-! ## The sequencer (R474, R475) -/

section
variable {s : State} {p : SeqStep} {rest : List SeqStep}

theorem exec_sequencerRaiseStart_of_nil (h : s.pwr.plan = []) : exec .sequencerRaiseStart s = .next s := by
  change execSequencerRaiseStart s = _
  rw [execSequencerRaiseStart, h]

theorem exec_sequencerFrequencySwitch_of_nil (h : s.pwr.plan = []) : exec .sequencerFrequencySwitch s = .next s := by
  change execSequencerFrequencySwitch s = _
  rw [execSequencerFrequencySwitch, h]

theorem not_sequencerFrequencySwitch_idle (hc : s.clocked = true) (hn : s.nextMoment s.tb.count = s.tb.count) :
    ¬ (!s.clocked || s.nextMoment s.tb.count != s.tb.count) = true := by
  simp [hc, hn]

variable (h : s.pwr.plan = p :: rest) (hc : s.clocked = true)
include h hc

/-- The rails of a raising step start 20 us before its anchor. -/
theorem exec_sequencerRaiseStart_of_due (hr : p.raising = true) (hs : s.pwr.stage = 0) (ha : s.anchor true ≤ s.tb.count + 20000) :
    let s1 := s.raise F.pwrStat_busy []
    exec .sequencerRaiseStart s = .next { s1 with pwr := { s1.pwr with stage := 1, planAt := s.tb.count } } := by
  change execSequencerRaiseStart s = _
  rw [execSequencerRaiseStart, h]
  exact if_pos (by simp [hr, hs, hc, ha])

/-- The end of a falling step drops it from the plan. -/
theorem exec_sequencerStepComplete_of_falling (hs : s.pwr.stage = 2) :
    let s1 := s.put F.pwrStat_busy [] 0
    exec .sequencerStepComplete s = .next { s1 with pwr := { s1.pwr with stage := 0, plan := rest, clearedAt := s.tb.count } } := by
  have dropped : rest = s.pwr.plan.drop 1 := by rw [h, List.drop_one, List.tail_cons]
  subst dropped
  exact if_pos ⟨hs, hc⟩

variable (hn : s.nextMoment s.tb.count = s.tb.count)
include hn

/-- The switch of a raising step, whose rails have risen, ends the step. -/
theorem exec_sequencerFrequencySwitch_of_raising (hr : p.raising = true) (hs : s.pwr.stage = 1) (ha : s.anchor true ≤ s.tb.count) :
    let s1 := (s.switchLevels p).put F.pwrStat_busy [] 0
    exec .sequencerFrequencySwitch s =
      .next { s1 with pwr := { s1.pwr with stage := 0, plan := rest, clearedAt := s.tb.count } } := by
  change execSequencerFrequencySwitch s = _
  rw [execSequencerFrequencySwitch, h]
  exact (if_neg (not_sequencerFrequencySwitch_idle hc hn)).trans ((if_pos hr).trans (if_pos ⟨hs, ha⟩))

/-- The switch of a lowering step lets its rails fall. -/
theorem exec_sequencerFrequencySwitch_of_lowering (hr : p.raising = false) (hs : s.pwr.stage = 0)
    (ha : s.anchor false ≤ s.tb.count) :
    let s1 := (s.switchLevels p).raise F.pwrStat_busy []
    exec .sequencerFrequencySwitch s = .next { s1 with pwr := { s1.pwr with stage := 2, planAt := s.tb.count } } := by
  change execSequencerFrequencySwitch s = _
  rw [execSequencerFrequencySwitch, h]
  exact (if_neg (not_sequencerFrequencySwitch_idle hc hn)).trans
    ((if_neg (ne_true_of_eq_false hr)).trans (if_pos ⟨hs, ha⟩))

end

/-! ## Registers with listed writers (R365, R478, R483) -/

theorem State.command_of_listed {s : State} {n : RegName} {q : Src} (hm : mayWrite n q = true) (h : s.regWaits n = false)
    (i : List Nat) (w : Word32) (f : State → State) : s.command q n i w f = (f s).answer q .ok :=
  (if_pos hm).trans (State.regAct_of_not_waits h ..)

theorem State.command_of_not_listed {n : RegName} {q : Src} (hm : mayWrite n q = false) (s : State) (i : List Nat) (w : Word32)
    (f : State → State) : s.command q n i w f = s.answer q .serr :=
  if_neg (ne_true_of_eq_false hm)

/-! ## Sensors (R469, R482) -/

/-- The greatest reading of a sample. -/
def topOf (temps : List (BitVec 12)) : Nat := (temps.map BitVec.toNat).foldl max 0

/-- A sensor at 110 degrees latches a trip and logs it. -/
def State.tripped (s : State) (n : Nat) (temps : List (BitVec 12)) : State :=
  (s.trip true).powerLog 0x0901 4 (leBytes 1 n ++
    leBytes 1 ((temps.findIdx? (fun t => t.toNat == topOf temps)).getD 0) ++ leBytes 2 (topOf temps))

/-- The sample of a die is stored, and trips where a sensor is hot enough and no trip of a sensor is latched. -/
def State.sensed (s : State) (n : Nat) (temps : List (BitVec 12)) : State :=
  let t := s.put F.pwrSens_temp [n] (topOf temps)
  if tripTemp ≤ topOf temps ∧ !(t.flag F.pwrTrip_active [] && t.flag F.pwrTrip_therm []) then t.tripped n temps else t

/-- The die is below the warning threshold: its next crossing of it warns again. -/
def State.calmed (s : State) (n : Nat) : State := { s with pwr := { s.pwr with warned := s.pwr.warned.filter (· != n) } }

section
variable {s t : State} {n : Fin 12} {temps : List (BitVec 12)}

theorem State.sensed_of_cool (h : topOf temps < 1392) : s.sensed n temps = s.put F.pwrSens_temp [n.val] (topOf temps) :=
  if_neg fun hot => absurd hot.1 (Nat.not_le.mpr h)

theorem State.sensed_of_hot (ht : s.put F.pwrSens_temp [n.val] (topOf temps) = t) (h : 1392 ≤ topOf temps)
    (hl : (t.flag F.pwrTrip_active [] && t.flag F.pwrTrip_therm []) = false) : s.sensed n temps = t.tripped n temps := by
  subst ht
  exact if_pos ⟨h, by rw [hl]; rfl⟩

variable (hn : n.val ∈ sensorSites) (hne : temps ≠ [])
include hn hne

theorem not_sensorSample_idle : ¬ (!sensorSites.contains n.val || temps.isEmpty) = true := by
  simp [hn, hne]

variable (ht : s.sensed n temps = t)
include ht

theorem exec_sensorSample_of_calm (h : topOf temps < t.get F.pwrTrip_warn []) :
    exec (.sensorSample n temps) s = .next (t.calmed n) := by
  subst ht
  exact (if_neg (not_sensorSample_idle hn hne)).trans (if_neg (Nat.not_le.mpr h))

theorem exec_sensorSample_of_warned (h : t.get F.pwrTrip_warn [] ≤ topOf temps) (hw : n.val ∈ t.pwr.warned) :
    exec (.sensorSample n temps) s = .next t := by
  subst ht
  exact (if_neg (not_sensorSample_idle hn hne)).trans ((if_pos h).trans (if_pos (List.contains_iff_mem.mpr hw)))

end

/-! ## The release of a trip (R483) -/

/-- TRIP_RELEASE writes the release bit. -/
theorem pwrTrip_release_or (w : Word32) : F.pwrTrip_release.of (w ||| 0x20000000#32) ≠ 0 := by
  have bit : (F.pwrTrip_release.of (w ||| 0x20000000#32)).testBit 0 = true := by
    rw [Fld.testBit_of _ (by decide)]
    simp [F.pwrTrip_release]
  intro h
  simp [h] at bit

/-- The trip is over: pins and masters leave what it forced on them, and the release is logged with its cause. -/
def State.tripOver (s : State) : State :=
  let t := (s.put F.pwrTrip_active [] 0).put F.pwrTrip_therm [] 0
  let u := ({ t with
    pins := { t.pins with safe := t.clk.phase != ClkPhase.running, txIdle := false, therm := false }
    pwr := { t.pwr with stopIssue := t.pwr.entry == 2 } } : State)
  u.lanesRestart.powerLog 0x0903 0 (leBytes 1 (s.get F.pwrTrip_therm []) ++ leBytes 2 u.hottest)

theorem exec_tripRelease {s : State} {src : Src} (hm : mayWrite .pwrTrip src = true) (h : s.regWaits .pwrTrip = false) (w : Word32) :
    exec (.tripRelease src w) s = .next ((s.tripWrite src (w ||| 0x20000000#32)).answer src .ok) :=
  congrArg Host.Outcome.next (State.command_of_listed hm h ..)

section
variable {s t : State} {q : Src} {w : Word32} (hw : F.pwrTrip_release.of w ≠ 0) (hq : q.requester = 1 ∨ q.requester = 10)
include hw hq

theorem not_tripWrite_idle : ¬ (F.pwrTrip_release.of w = 0 ∨ (!(q.requester == 1 || q.requester == 10)) = true) := by
  rcases hq with hq | hq <;> simp [hw, hq]

variable (ht : s.writeReg .pwrTrip [] w = t)
include ht

theorem State.tripWrite_of_hot (h : 1312 ≤ t.hottest) : s.tripWrite q w = t.raise F.pwrTrip_early [] := by
  subst ht
  exact (if_neg (not_tripWrite_idle hw hq)).trans (if_pos h)

theorem State.tripWrite_of_cool (h : t.hottest < 1312) (ha : t.flag F.pwrTrip_active [] = true) :
    s.tripWrite q w = t.tripOver := by
  subst ht
  have latched : ¬ (!(s.writeReg .pwrTrip [] w).flag F.pwrTrip_active []) = true := by simp [ha]
  exact (if_neg (not_tripWrite_idle hw hq)).trans ((if_neg (Nat.not_le.mpr h)).trans (if_neg latched))

end

/-! ## The governor's windows (R476) -/

/-- A window at or below the ceiling has ended: its average is stored, and the count of windows above the ceiling starts anew. -/
def State.windowEnded (s : State) (avg : Word32) : State :=
  let t := ({ s with pwr := { s.pwr with winOver := false } } : State).setReg .pwrMeas [] avg
  { t with pwr := { t.pwr with above := 0, misses := t.pwr.misses - 1 } }

/-- Set the count of low windows in a row. -/
def State.setBelow (s : State) (k : Nat) : State := { s with pwr := { s.pwr with below := k } }

theorem State.get_setPwr (s : State) (p : PwrSt) (f : Fld) (i : List Nat) : ({ s with pwr := p } : State).get f i = s.get f i := rfl

section
variable {s : State} {avg : Word32}

theorem exec_governorWindowEnd_of_idle (h : s.clocked = false ∨ s.pwr.winOver = false) (doms : List Nat) :
    exec (.governorWindowEnd avg doms) s = .next s :=
  if_pos (by simpa using h)

variable (hc : s.clocked = true) (hw : s.pwr.winOver = true)
include hc hw

theorem not_governorWindowEnd_idle : ¬ (!s.clocked || !s.pwr.winOver) = true := by
  simp [hc, hw]

variable (doms : List Nat) (hceil : 100 * avg.toNat ≤ 105 * (1000 * s.get F.pwrFuse_ceilW []))
include hceil

/-- A window at or below its cap counts towards the ten low ones after which levels rise, or starts that count anew. -/
theorem exec_governorWindowEnd_of_within (hcap : avg.toNat ≤ 1000 * s.get F.pwrCap_capW [])
    (hb : 100 * avg.toNat ≤ 95 * (1000 * s.get F.pwrCap_capW []) → s.pwr.below < 9) :
    exec (.governorWindowEnd avg doms) s =
      .next ((s.windowEnded avg).setBelow (if 100 * avg.toNat ≤ 95 * (1000 * s.get F.pwrCap_capW []) then s.pwr.below + 1 else 0)) := by
  have calm : ¬ 8 ≤ 0 := by decide
  change execGovernorWindowEnd avg doms s = _
  rw [execGovernorWindowEnd, if_neg (not_governorWindowEnd_idle hc hw)]
  simp only [State.get_setPwr, Nat.not_lt.mpr hceil, Nat.not_lt.mpr hcap, calm, if_false, false_and]
  split_ifs with low few
  · rfl
  · exact absurd (Nat.succ_lt_succ (hb low)) few
  · rfl

end

/-! ## The ageing measurement (R484) -/

section
variable {s : State} {n : Fin 12}

theorem exec_ageingMeasurement_of_stopped (h : s.pwr.mcRuns = false) (ppm : Nat) : exec (.ageingMeasurement n ppm) s = .next s :=
  if_pos (by simp [h])

theorem exec_ageingMeasurement_of_running (h : s.pwr.mcRuns = true) (hn : n.val ∈ sensorSites) (ppm : Nat) :
    exec (.ageingMeasurement n ppm) s =
      .next ((dieDomains n).foldl (fun u k => (List.range 8).foldl (fun v t => v.raiseMargin k ppm t) u)
        (s.put F.pwrSens_agePpm [n.val] (min 65535 ppm))).fixLevels :=
  if_neg (by simp [h, hn])

end

/-- The clamp at the fused maximum (R472). -/
theorem State.railMv_le (s : State) (k : Nat) : s.railMv k ≤ s.get F.pwrFuse_vmaxMv [] := Nat.min_le_left ..

/-- Settles O36, each command by the branch its guard takes (log entry 37). -/
theorem powerSequencing : Obligations.PowerSequencing := by
  intro s src w avg p rest n temps doms ppm
  refine ⟨fun h => ⟨exec_sequencerRaiseStart_of_nil h, exec_sequencerFrequencySwitch_of_nil h⟩,
    fun h hc => ⟨exec_sequencerRaiseStart_of_due h hc, fun hn => ⟨exec_sequencerFrequencySwitch_of_raising h hc hn,
      exec_sequencerFrequencySwitch_of_lowering h hc hn⟩, exec_sequencerStepComplete_of_falling h hc⟩,
    fun hm hw => congrArg _ (State.command_of_listed hm hw ..), fun hm => congrArg _ (State.command_of_not_listed hm ..),
    ?sensors, fun hm hw hq => ?release, fun h => exec_governorWindowEnd_of_idle h doms, fun hc hw hceil => ?window,
    s.railMv_le, fun h => exec_ageingMeasurement_of_stopped h ppm, fun h hn => exec_ageingMeasurement_of_running h hn ppm⟩
  case sensors =>
    intro top at_ s1 s2 calm hn hne
    exact ⟨fun h => exec_sensorSample_of_calm hn hne (State.sensed_of_cool h),
      fun h hl => exec_sensorSample_of_calm hn hne (State.sensed_of_hot rfl h hl),
      fun h hl => exec_sensorSample_of_warned hn hne (State.sensed_of_hot rfl h hl)⟩
  case release =>
    rw [exec_tripRelease hm hw]
    have hr := pwrTrip_release_or w
    refine ⟨fun hot => ?_, fun cool ha => ?_⟩
    · rw [State.tripWrite_of_hot hr hq rfl hot]
    · rw [State.tripWrite_of_cool hr hq rfl cool ha]
      rfl
  case window =>
    refine ⟨fun near hcap => ?_, fun low hb => ?_⟩
    · rw [exec_governorWindowEnd_of_within hc hw doms hceil hcap fun low => absurd low (Nat.not_le.mpr near),
        if_neg (Nat.not_le.mpr near)]
      rfl
    · have hcap : avg.toNat ≤ 1000 * s.get F.pwrCap_capW [] := by omega
      rw [exec_governorWindowEnd_of_within hc hw doms hceil hcap fun _ => hb, if_pos low]
      rfl

end Sys2Proof.Machine
end

section
/-!
PROOFS. What the issue of a word-cell instruction leaves as it was (R83, R88, R118, R120, R140; O59).
-/

namespace Sys2Proof.Machine

/-! ## The frame, one operation at a time -/

/-- The registers that the issue of an instruction at a cell may change. -/
def cellRegs (a : CellId) : List Nat :=
  [regAddr .wtStat [a.die.val, a.tile.val], regAddr .wtIstat [a.die.val, a.tile.val], regAddr .eccBktStat [16 * a.die.val],
    regAddr .logStat [], regAddr .msixPba [0]]

theorem wtStat_mem_cellRegs (a : CellId) : regAddr .wtStat [a.die.val, a.tile.val] ∈ cellRegs a := by simp [cellRegs]
theorem wtIstat_mem_cellRegs (a : CellId) : regAddr .wtIstat [a.die.val, a.tile.val] ∈ cellRegs a := by simp [cellRegs]
theorem eccBktStat_mem_cellRegs (a : CellId) : regAddr .eccBktStat [16 * a.die.val] ∈ cellRegs a := by simp [cellRegs]
theorem logStat_mem_cellRegs (a : CellId) : regAddr .logStat [] ∈ cellRegs a := by simp [cellRegs]
theorem msixPba_mem_cellRegs (a : CellId) : regAddr .msixPba [0] ∈ cellRegs a := by simp [cellRegs]

theorem State.find?_setReg_ne (s : State) {n : RegName} {i : List Nat} (v : Word32) {k : Nat} (h : k ≠ regAddr n i) :
    SMap.find? (s.setReg n i v).regs k = SMap.find? s.regs k := by
  unfold State.setReg SMap.set
  split
  · exact SMap.find?_erase_ne _ h
  · exact SMap.find?_insert_ne _ _ h

theorem CellFrame.refl (a : CellId) (s : State) : CellFrame a s s := by simp [CellFrame]

section
variable {a : CellId} {was s : State}

theorem CellFrame.ite {c : Prop} [Decidable c] {t : State} (hs : CellFrame a was s) (ht : CellFrame a was t) :
    CellFrame a was (if c then s else t) := by
  split
  · exact hs
  · exact ht

theorem CellFrame.foldl {α : Type} {f : State → α → State} (hf : ∀ s x, CellFrame a was s → CellFrame a was (f s x))
    (l : List α) (h : CellFrame a was s) : CellFrame a was (l.foldl f s) := by
  induction l generalizing s with
  | nil => exact h
  | cons x l ih => exact ih (hf s x h)

/-- The log, the interrupts, what leaves the block and the registers of `cellRegs` are outside the frame. -/
theorem CellFrame.outside (h : CellFrame a was s) {regs : SMap Word32} (log : LogSt) (plic : BitVec 512) (outbox : List Output)
    (hr : ∀ k, k ∉ cellRegs a → SMap.find? regs k = SMap.find? s.regs k) :
    CellFrame a was { s with regs := regs, log := log, plic := plic, outbox := outbox } := by
  obtain ⟨same, rest⟩ := h
  exact ⟨fun k hk => (hr k hk).trans (same k hk), rest⟩

theorem CellFrame.setReg (h : CellFrame a was s) {n : RegName} {i : List Nat} (hn : regAddr n i ∈ cellRegs a) (v : Word32) :
    CellFrame a was (s.setReg n i v) :=
  h.outside s.log s.plic s.outbox fun _ hk => s.find?_setReg_ne v fun e => hk (e ▸ hn)

theorem CellFrame.put (h : CellFrame a was s) {f : Fld} {i : List Nat} (hf : regAddr f.reg i ∈ cellRegs a) (v : Nat) :
    CellFrame a was (s.put f i v) := h.setReg hf _

theorem CellFrame.raise (h : CellFrame a was s) {f : Fld} {i : List Nat} (hf : regAddr f.reg i ∈ cellRegs a) :
    CellFrame a was (s.raise f i) := h.put hf 1

/-- Of the own die the frame leaves the stores, the accumulators, the flags and the tiles. -/
theorem CellFrame.setDie (h : CellFrame a was s) {w : WaDie} (hstore : w.store = (s.die a.die).store)
    (hacc : w.acc = (s.die a.die).acc) (hflags : w.flags = (s.die a.die).flags) (htiles : w.tiles = (s.die a.die).tiles) :
    CellFrame a was (s.setDie a.die w) := by
  obtain ⟨regs, dies, store, acc, flags, tiles, rest⟩ := h
  refine ⟨regs, fun e he => (s.die_setDie_ne w he).trans (dies e he), ?_, ?_, ?_, ?_, rest⟩ <;> rw [s.die_setDie]
  · exact hstore.trans store
  · exact hacc.trans acc
  · exact hflags.trans flags
  · exact htiles.trans tiles

theorem CellFrame.usePhaseB (h : CellFrame a was s) (k g : Nat) : CellFrame a was (s.usePhaseB a.die a.tile k g) :=
  h.setDie rfl rfl rfl rfl

theorem CellFrame.later (h : CellFrame a was s) (ps : List Pend) : CellFrame a was (s.later a.die ps) := h.setDie rfl rfl rfl rfl

theorem CellFrame.movePtrs (h : CellFrame a was s) (k g bank c0 c1 : Nat) :
    CellFrame a was (s.movePtrs a.die a.tile k g bank c0 c1) := h.setDie rfl rfl rfl rfl

theorem CellFrame.logEv (h : CellFrame a was s) (site kind index event sev : Nat) (payload : List Byte) :
    CellFrame a was (s.logEv site kind index event sev payload) :=
  .ite (h.outside _ s.plic s.outbox fun _ _ => rfl) (h.put (logStat_mem_cellRegs a) _)

/-- The ECC interrupt's vector is 1, whose pending bit stands in the first word. -/
theorem CellFrame.interrupt_ecc (h : CellFrame a was s) : CellFrame a was (s.interrupt .ecc) :=
  have raised : CellFrame a was { s with plic := s.plic ||| BitVec.ofNat 512 (2 ^ Irq.ecc.plic) } :=
    h.outside s.log _ s.outbox fun _ _ => rfl
  .ite (raised.setReg (msixPba_mem_cellRegs a) _) (raised.outside _ _ _ fun _ _ => rfl)

theorem CellFrame.bucket (h : CellFrame a was s) (loc : List Byte) : CellFrame a was (s.bucket (16 * a.die) loc) := by
  have counted := eccBktStat_mem_cellRegs a
  unfold State.bucket
  refine .ite (.ite ?_ (h.put counted _)) h
  have logged := ((h.put (f := F.eccBktStat_count) counted 0).raise (f := F.eccBktStat_ovf) counted).logEv
  exact .ite (logged ..).interrupt_ecc (logged ..)

theorem CellFrame.parityFail (h : CellFrame a was s) (k : Nat) : CellFrame a was (s.parityFail a.die a.tile k) :=
  ((h.raise (wtStat_mem_cellRegs a)).put (wtStat_mem_cellRegs a) _).bucket _

theorem CellFrame.noteOperand (h : CellFrame a was s) (o : Operand) : CellFrame a was (s.noteOperand a.die a.tile o) := by
  have noted := h.foldl (fun _ k hu => hu.parityFail k) o.fails
  exact .ite (noted.raise (wtStat_mem_cellRegs a)) noted

theorem CellFrame.illegal (h : CellFrame a was s) (k g : Nat) (op sel form : Bool) :
    CellFrame a was (illegal s a.die a.tile k g op sel form) :=
  have raised {s : State} {f : Fld} (b : Bool) (hs : CellFrame a was s) (hf : regAddr f.reg [a.die.val, a.tile.val] ∈ cellRegs a) :
    CellFrame a was (if b then s.raise f [a.die.val, a.tile.val] else s) := .ite (hs.raise hf) hs
  have hi := wtIstat_mem_cellRegs a
  (raised form (raised sel (raised op h hi) hi) hi).put hi _

end

/-! ## The frame of every instruction -/

theorem issueAlu_frame (op : AluOp) (a : CellId) (f : Fields) (s : State) : CellFrame a s (issueAlu op a f s) := by
  have unchanged := CellFrame.refl a s
  unfold issueAlu
  refine .ite unchanged (.ite (unchanged.illegal ..) ?_)
  extract_lets two oa ob dstStore pf s1 s2 drop s3
  have read : CellFrame a s s1 := ((unchanged.noteOperand _).noteOperand _).noteOperand _
  have phased : CellFrame a s s2 := .ite (read.usePhaseB ..) read
  split
  · exact .movePtrs (.later (.ite (phased.raise (wtStat_mem_cellRegs a)) phased) _) ..
  · exact phased

theorem issueAcc_frame (op : AccOp) (a : CellId) (f : Fields) (s : State) : CellFrame a s (issueAcc op a f s) := by
  have unchanged := CellFrame.refl a s
  unfold issueAcc
  refine .ite unchanged (.ite (unchanged.illegal ..) ?_)
  extract_lets sa sb two none' oa ob pf ar accFail s1 s2 nullF
  have read : CellFrame a s s1 := ((unchanged.noteOperand _).noteOperand _).noteOperand _
  have phased : CellFrame a s s2 := .ite (read.usePhaseB ..) read
  split
  · have moved := phased.movePtrs
    split
    · exact (moved ..).later _
    · exact moved ..
    · exact (moved ..).parityFail _
  · exact phased

/-- Every next state that an outcome gives keeps to the frame. -/
def FramedOut (a : CellId) (s : State) (o : Out) : Prop := ∀ t, o = .next t → CellFrame a s t

section
variable {a : CellId} {s : State}

theorem FramedOut.next {t : State} (h : CellFrame a s t) : FramedOut a s (.next t) := by
  rintro _ ⟨⟩
  exact h

theorem FramedOut.ite {c : Prop} [Decidable c] {o p : Out} (ho : FramedOut a s o) (hp : FramedOut a s p) :
    FramedOut a s (if c then o else p) := by
  split
  · exact ho
  · exact hp

end

theorem execNop_framed (a : CellId) (f : Fields) (s : State) : FramedOut a s (execNop a f s) := by
  have unchanged := CellFrame.refl a s
  have noted := unchanged.noteOperand
  exact .ite (.next unchanged) (.ite (.next ((noted _).movePtrs ..)) (.next (noted _)))

theorem execClracc_framed (a : CellId) (f : Fields) (s : State) : FramedOut a s (execClracc a f s) := by
  have unchanged := CellFrame.refl a s
  have noted := unchanged.noteOperand
  exact .ite (.next unchanged) (.ite (.next (unchanged.illegal ..)) (.ite (.next (noted _)) (.next (((noted _).later _).movePtrs ..))))

theorem execTap_framed (a : CellId) (f : Fields) (s : State) : FramedOut a s (execTap a f s) := by
  have unchanged := CellFrame.refl a s
  unfold execTap
  refine .ite (.next unchanged) (.ite (.next (unchanged.illegal ..)) ?_)
  extract_lets w ck p0 p1 rx rh ar s1 s2
  have read : CellFrame a s s2 := ((unchanged.noteOperand _).noteOperand _).noteOperand _
  split
  · exact .next ((read.later _).movePtrs ..)
  · exact .next read

theorem execIllegalInstruction_framed (a : CellId) (w : Word32) (s : State) : FramedOut a s (execIllegalInstruction a w s) :=
  have unchanged := CellFrame.refl a s
  .ite (.next (unchanged.illegal ..)) (.next unchanged)

/-- Settles O59: every instruction is made of operations that keep to the frame. -/
theorem cellInstructionFrame : Obligations.CellInstructionFrame := by
  intro s t a f w c hc
  have alu (op : AluOp) : FramedOut a s (.next (issueAlu op a f s)) := .next (issueAlu_frame op a f s)
  have acc (op : AccOp) : FramedOut a s (.next (issueAcc op a f s)) := .next (issueAcc_frame op a f s)
  revert c t
  suffices framed : ∀ c ∈ _, FramedOut a s (exec c s) from fun t c hc => framed c hc t
  simp only [List.forall_mem_cons]
  exact ⟨execNop_framed a f s, alu _, alu _, alu _, alu _, alu _, alu _, alu _, alu _, alu _, alu _, alu _, alu _, alu _, alu _, alu _,
    acc _, acc _, execClracc_framed a f s, acc _, acc _, acc _, execTap_framed a f s, execIllegalInstruction_framed a w s,
    List.forall_mem_nil _⟩

end Sys2Proof.Machine
end

section
/-!
PROOFS. The pointer updates (R98, R130; O60).
-/

namespace Sys2Proof.Machine

/-! ## Parity of a pointer -/

/-- The ones of a number are those of its low and of its high part. -/
theorem ones_add_two_pow_mul (n m a b : Nat) (h : a < 2 ^ n) : ones (n + m) (a + 2 ^ n * b) = ones n a + ones m b := by
  induction n generalizing a with
  | zero =>
    obtain rfl : a = 0 := by omega
    simp [ones]
  | succ n ih =>
    have double : 2 ^ (n + 1) * b = 2 * (2 ^ n * b) := by ring
    have low : (a + 2 ^ (n + 1) * b) % 2 = a % 2 := by omega
    have high : (a + 2 ^ (n + 1) * b) / 2 = a / 2 + 2 ^ n * b := by omega
    rw [Nat.add_right_comm, ones, ones, low, high, ih _ (by omega), Nat.add_assoc]

theorem toNat_mkPtr (v : Nat) : (mkPtr v).toNat = v % 512 + 512 * oddPar 9 (v % 512) := by
  rw [mkPtr, BitVec.toNat_ofNat, oddPar]
  omega

@[simp] theorem mkPtr_mod (v : Nat) : (mkPtr v).toNat % 512 = v % 512 := by
  rw [toNat_mkPtr]
  omega

/-- A pointer that is written has good parity (R87). -/
@[simp] theorem ptrOk_mkPtr (v : Nat) : ptrOk (mkPtr v) = true := by
  have split : ones 10 (v % 512 + 512 * oddPar 9 (v % 512)) = ones 9 (v % 512) + ones 1 (oddPar 9 (v % 512)) :=
    ones_add_two_pow_mul 9 1 _ _ (Nat.mod_lt _ (by decide))
  rw [ptrOk, toNat_mkPtr, split]
  simp only [ones, oddPar, beq_iff_eq]
  omega

/-! ## The update codes -/

@[simp] theorem stepPtr_zero (p : BitVec 10) (base : Option Nat) : stepPtr p 0 base = p := rfl
@[simp] theorem stepPtr_one (p : BitVec 10) (base : Option Nat) : stepPtr p 1 base = mkPtr (p.toNat % 512 + 1) := rfl
@[simp] theorem stepPtr_two (p : BitVec 10) (base : Option Nat) : stepPtr p 2 base = mkPtr (p.toNat % 512 + 511) := rfl
@[simp] theorem stepPtr_reload (p : BitVec 10) (b : Nat) : stepPtr p 3 (some b) = mkPtr b := rfl

theorem TileSt.bankNo_lt (x : TileSt) : x.bankNo < 2 := by
  unfold TileSt.bankNo
  cases x.bank <;> decide

/-- The keys of pointers in one tile lie apart. -/
theorem accKey_cellKey_inj {t k k' b b' p p' : Nat} (hb : b < 2) (hb' : b' < 2) (hp : p < 2) (hp' : p' < 2)
    (h : accKey (cellKey t k) b p = accKey (cellKey t k') b' p') : k = k' ∧ b = b' ∧ p = p' := by
  simp only [accKey, cellKey] at h
  omega

/-- The pointers of a die once those of the first `n` members of a gang have moved. -/
def movedPtrs (m : CurMould) (t k bank c0 c1 : Nat) (ptr : SMap (BitVec 10)) (n : Nat) : SMap (BitVec 10) :=
  (List.range n).foldl (fun ps j =>
    let k0 := accKey (cellKey t (k + j)) bank 0
    let k1 := accKey (cellKey t (k + j)) bank 1
    let ps := SMap.set ptr0 ps k0 (stepPtr (SMap.get ptr0 ps k0) c0 m.base0)
    SMap.set ptr0 ps k1 (stepPtr (SMap.get ptr0 ps k1) c1 m.base1)) ptr

theorem State.ptr_movePtrs (s : State) (d t k g bank c0 c1 : Nat) :
    ((s.movePtrs d t k g bank c0 c1).die d).ptr = movedPtrs ((s.die d).tile t).cur t k bank c0 c1 (s.die d).ptr g := by
  rw [State.movePtrs, State.die_setDie, movedPtrs]

section
variable (m : CurMould) {t k bank : Nat} (c0 c1 : Nat) (ptr : SMap (BitVec 10))

theorem movedPtrs_succ (n : Nat) :
    movedPtrs m t k bank c0 c1 ptr (n + 1) =
      let k0 := accKey (cellKey t (k + n)) bank 0
      let k1 := accKey (cellKey t (k + n)) bank 1
      let ps := movedPtrs m t k bank c0 c1 ptr n
      let ps := SMap.set ptr0 ps k0 (stepPtr (SMap.get ptr0 ps k0) c0 m.base0)
      SMap.set ptr0 ps k1 (stepPtr (SMap.get ptr0 ps k1) c1 m.base1) := by
  simp only [movedPtrs, List.range_succ, List.foldl_append, List.foldl_cons, List.foldl_nil]

variable (hb : bank < 2)
include hb

/-- A pointer of another cell or of the other bank does not move. -/
theorem get_movedPtrs_of_apart {k' b p : Nat} (hb' : b < 2) (hp : p < 2) (n : Nat) (h : k' < k ∨ k + n ≤ k' ∨ b ≠ bank) :
    SMap.get ptr0 (movedPtrs m t k bank c0 c1 ptr n) (accKey (cellKey t k') b p) = SMap.get ptr0 ptr (accKey (cellKey t k') b p) := by
  induction n with
  | zero => rfl
  | succ n ih =>
    have other {q : Nat} (hq : q < 2) : accKey (cellKey t k') b p ≠ accKey (cellKey t (k + n)) bank q := fun e => by
      obtain ⟨rfl, rfl, -⟩ := accKey_cellKey_inj hb' hb hp hq e
      omega
    rw [movedPtrs_succ, SMap.get_set_ne _ _ _ (other (by decide)), SMap.get_set_ne _ _ _ (other (by decide))]
    exact ih (by omega)

/-- The pointers of every member move by the leader's codes (R98, R130). -/
theorem get_movedPtrs_member {n j p : Nat} (hj : j < n) (hp : p < 2) :
    SMap.get ptr0 (movedPtrs m t k bank c0 c1 ptr n) (accKey (cellKey t (k + j)) bank p) =
      stepPtr (SMap.get ptr0 ptr (accKey (cellKey t (k + j)) bank p)) (if p = 0 then c0 else c1) (if p = 0 then m.base0 else m.base1) := by
  induction n with
  | zero => omega
  | succ n ih =>
    have key {i q : Nat} (hq : q < 2) (h : i ≠ n ∨ p ≠ q) : accKey (cellKey t (k + i)) bank p ≠ accKey (cellKey t (k + n)) bank q :=
      fun e => by
        obtain ⟨ek, -, ep⟩ := accKey_cellKey_inj hb hb hp hq e
        omega
    have before {q : Nat} (hq : q < 2) :=
      get_movedPtrs_of_apart m (t := t) (k := k) c0 c1 ptr hb hb hq n (.inr (.inl (Nat.le_refl (k + n))))
    rw [movedPtrs_succ]
    rcases Nat.lt_succ_iff_lt_or_eq.mp hj with hj | rfl
    · rw [SMap.get_set_ne _ _ _ (key (by decide) (.inl (by omega))), SMap.get_set_ne _ _ _ (key (by decide) (.inl (by omega)))]
      exact ih hj
    · match p, hp with
      | 0, _ =>
        rw [SMap.get_set_ne _ _ _ (key (by decide) (.inr (by decide))), SMap.get_set_same, before (by decide)]
        rfl
      | 1, _ =>
        rw [SMap.get_set_same, SMap.get_set_ne _ _ _ (key (by decide) (.inr (by decide))), before (by decide)]
        rfl

end

theorem exec_nop_of_issues {s : State} {a : CellId} {f : Fields} (hi : issues s (ctxOf s a) = true)
    (hp : ptrFails s (ctxOf s a) f [] none = []) :
    exec (.nop a f) s =
      let x := ctxOf s a
      .next (s.movePtrs x.d x.t x.k x.g x.bank f.p0u.toNat f.p1u.toNat) := by
  change execNop a f s = _
  simp only [execNop, hi, hp]
  rfl

/-- Settles O60: the fold over the members writes keys that lie apart. -/
theorem pointerUpdates : Obligations.PointerUpdates := by
  intro s a f x m was hi hp
  have hb : x.bank < 2 := TileSt.bankNo_lt _
  refine ⟨_, exec_nop_of_issues hi hp, ?_⟩
  rw [State.ptr_movePtrs]
  refine ⟨fun j hj p hp2 => ?_, fun k b p _ hb2 hp2 h => get_movedPtrs_of_apart _ _ _ _ hb hb2 hp2 _ h⟩
  extract_lets code base old new
  have moved : new = stepPtr old code base := get_movedPtrs_member _ _ _ _ hb hj hp2
  rw [moved]
  refine ⟨fun h => ?_, fun h => ?_, fun h => ?_, fun h b hbase => ?_⟩
  · rw [h, stepPtr_zero]
  · simp [h]
  · simp [h]
  · simp [h, hbase]

end Sys2Proof.Machine
end

section
/-!
PROOFS. The arithmetic and logic of the word cell (R86, R98, R120, R123, R124, R127, R135, R137; O1).
-/

namespace Sys2Proof.Machine

/-! ## An instruction whose operands read without a fault -/

theorem scaledSel_of_plainSel {sel : Nat} (h : plainSel sel = true) : scaledSel sel = false := by
  simp only [plainSel, Bool.or_eq_true, decide_eq_true_eq, beq_iff_eq] at h
  simp only [scaledSel, Bool.or_eq_false_iff, beq_eq_false_iff_ne]
  omega

/-- An operand read without a fault leaves nothing to record. -/
@[simp] theorem State.noteOperand_clean (s : State) (d t : Nat) (v : Option Nat) : s.noteOperand d t ⟨v, [], false⟩ = s := rfl

@[simp] theorem recordedB_clean (sa sb : Nat) (v : Option Nat) : recordedB sa sb ⟨v, [], false⟩ = ⟨v, [], false⟩ := by
  unfold recordedB
  split <;> rfl

/-- An instruction whose word is legal and whose operands read without a fault schedules what its opcode produces (R120, R137). -/
theorem issueAlu_of_operands {s : State} {a : CellId} {f : Fields} {op : AluOp} {two : Bool} {oa ob : Nat}
    (hissues : issues s (ctxOf s a) = true)
    (hlegal : (!(plainSel f.sa.toNat || (op.scaled && scaledSel f.sa.toNat)) || (op.useB && !plainSel f.sb.toNat) ||
      (op.hasDst && !plainSel f.dst.toNat)) = false) (hform : op.badForm = false)
    (htwo : (op.useB && storeSel f.sa.toNat && storeSel f.sb.toNat && f.sa.toNat != f.sb.toNat) = two)
    (hoa : (let x := ctxOf s a
      if scaledSel f.sa.toNat then readScaled s x f.sa.toNat else s.readOperand x.d x.t x.k x.g x.bank f.sa.toNat false) =
        ⟨some oa, [], false⟩)
    (hob : (let x := ctxOf s a
      if op.useB then s.readOperand x.d x.t x.k x.g x.bank f.sb.toNat two else ⟨some 0, [], false⟩) = ⟨some ob, [], false⟩)
    (hptr : ptrFails s (ctxOf s a) f (namedSels true op.useB f)
      (if op.hasDst && storeSel f.dst.toNat then some f.dst.toNat else none) = []) :
    issueAlu op a f s =
      let x := ctxOf s a
      let o := op.fn ((s.die x.d).flagsX (flagKey (cellKey x.t x.k) x.bank)).c ⟨8 * x.g, f.u, f.s, oa, ob, f.sh.toNat⟩
      cellAfter s a f two op.hasDst op.flags o.raw o.sat o.c := by
  have lost : (two && (if op.hasDst && storeSel f.dst.toNat then some f.dst.toNat else none).isSome) =
      (two && op.hasDst && storeSel f.dst.toNat) := by
    cases op.hasDst <;> cases storeSel f.dst.toNat <;> simp
  simp only [issueAlu, hissues, hlegal, hform, htwo, hoa, hob, hptr, State.noteOperand_clean, recordedB_clean, lost, Bool.not_true,
    Bool.or_self, Bool.false_eq_true, if_false]
  rfl

theorem issueAlu_of_cellReady {s : State} {a : CellId} {f : Fields} {oa ob : Nat} (h : CellReady s a f oa ob)
    (hdst : plainSel f.dst.toNat = true) (op : AluOp) (hb : op.useB = true) (hd : op.hasDst = true) (hform : op.badForm = false) :
    issueAlu op a f s =
      let x := ctxOf s a
      let o := op.fn ((s.die x.d).flagsX (flagKey (cellKey x.t x.k) x.bank)).c ⟨8 * x.g, f.u, f.s, oa, ob, f.sh.toNat⟩
      cellAfter s a f (twoStore f) true op.flags o.raw o.sat o.c := by
  obtain ⟨hissues, hsa, hsb, hoa, hob, hptr⟩ := h
  rw [issueAlu_of_operands (two := twoStore f) (oa := oa) (ob := ob) hissues _ hform _ _ _ _, hd]
  · simp [hsa, hsb, hdst]
  · simp [hb, twoStore]
  · simpa [scaledSel_of_plainSel hsa] using hoa
  · simpa [hb] using hob
  · simpa [hb, hd, namedSels] using hptr

/-! ## The nine opcodes -/

section
variable {s : State} {a : CellId} {f : Fields} {oa ob : Nat} (h : CellReady s a f oa ob) (hdst : plainSel f.dst.toNat = true)
include h hdst

/-- A two-operand opcode that writes its flags. -/
theorem next_issueAlu_alu2 (fn : AluIn → AluOut) :
    Host.Outcome.next (issueAlu (alu2 fn) a f s) =
      let o := fn ⟨8 * (ctxOf s a).g, f.u, f.s, oa, ob, f.sh.toNat⟩
      (.next (cellAfter s a f (twoStore f) true true o.raw o.sat o.c) : Out) :=
  congrArg Host.Outcome.next (issueAlu_of_cellReady h hdst (alu2 fn) rfl rfl rfl)

/-- MUL, whose byte of B lies in the gang (R135). -/
theorem exec_mul_of_cellReady (hsel : f.sh.toNat % 4 < (ctxOf s a).g) :
    exec (.mul a f) s =
      let o := aluMul ⟨8 * (ctxOf s a).g, f.u, f.s, oa, ob, f.sh.toNat⟩
      .next (cellAfter s a f (twoStore f) true true o.raw o.sat o.c) :=
  congrArg Host.Outcome.next (issueAlu_of_cellReady h hdst _ rfl rfl (decide_eq_false (Nat.not_le.mpr hsel)))

end

theorem aluMin_eq (i : AluIn) :
    aluMin i = ⟨(if i.av ≤ i.bv then i.a else i.b) % 2 ^ i.n, false, some (decide (i.av ≤ i.bv))⟩ := by
  unfold aluMin
  split <;> simp [*]

theorem aluMax_eq (i : AluIn) :
    aluMax i = ⟨(if i.bv ≤ i.av then i.a else i.b) % 2 ^ i.n, false, some (decide (i.bv ≤ i.av))⟩ := by
  unfold aluMax
  split <;> simp [*]

/-- Settles O1: each opcode is its own function of the operands, issued as every opcode of two operands is. -/
theorem cellArithmetic : Obligations.CellArithmetic := by
  intro s a f oa ob h hdst
  have alu := next_issueAlu_alu2 h hdst
  refine ⟨alu aluAdd, alu aluSub, alu aluAnd, alu aluOr, alu aluXor, ?_, ?_, alu aluAbsd, exec_mul_of_cellReady h hdst⟩
  · have min_ := alu aluMin
    rwa [aluMin_eq] at min_
  · have max_ := alu aluMax
    rwa [aluMax_eq] at max_

end Sys2Proof.Machine
end

section
/-!
PROOFS. The register commands of a tile (R80, R115, R145, R156, R159, R161, R163, R164; O5).
-/

namespace Sys2Proof.Machine

theorem TileSt.not_idle (x : TileSt) : (!x.idle) = (x.running || x.urgent != .off) := by
  simp [TileSt.idle, bne]

/-! ## The lead header (R145) -/

theorem State.fetchCw_of_clean {s : State} {d t cw v : Nat} (h : (s.die d).readCw t cw = .clean v) :
    s.fetchCw d t cw = (some v, s) := by
  simp only [State.fetchCw, h]

/-- The sequencer of a tile is no part of its mould and schedule memory. -/
@[simp] theorem WaDie.readCw_setTile (w : WaDie) (t' : Nat) (x : TileSt) (t cw : Nat) : (w.setTile t' x).readCw t cw = w.readCw t cw :=
  rfl

@[simp] theorem State.readCw_setBusy (s : State) (d t t' cw : Nat) :
    ((s.setBusy d t).die d).readCw t' cw = (s.die d).readCw t' cw := by
  simp [State.setBusy, State.setTile]

/-- A lead header whose two codewords are clean is latched. -/
theorem State.latchLead_of_clean {s : State} {d t e h : Nat} (he : (s.die d).readCw t (cwSched 0) = .clean e)
    (hh : (s.die d).readCw t (cwMould (entryMould e) 16) = .clean h) :
    s.latchLead d t = (s.setBusy d t).setTile d t { (s.setBusy d t).tile d t with lead := leadOf h } := by
  have entry := State.fetchCw_of_clean ((s.readCw_setBusy d t t _).trans he)
  have header := State.fetchCw_of_clean ((s.readCw_setBusy d t t _).trans hh)
  simp only [State.latchLead, entry, header]

/-! ## HALT_RELEASE and CELL_STATE_WRITE -/

section
variable {s : State} {d : Fin 4} {t : Fin 2048} (src : Src)

theorem exec_haltRelease_of_running (hserved : s.tileServed d = true) (hhalt : s.haltOf d t = false) :
    exec (.haltRelease src d t) s = .next (s.answer src .ok) :=
  (if_neg (by simp [hserved])).trans (if_neg (by simp [hhalt]))

theorem exec_haltRelease_of_halted (hserved : s.tileServed d = true) (hhalt : s.haltOf d t = true) :
    exec (.haltRelease src d t) s = .next (((s.put F.wtCtrl_halt [d, t] 0).latchLead d t).answer src .ok) :=
  (if_neg (by simp [hserved])).trans (if_pos hhalt)

end

theorem exec_cellStateWrite_of_served {s : State} (src : Src) {a : CellId} (hserved : s.tileServed a.die = true) (off : Fin 64)
    (w : Word32) :
    exec (.cellStateWrite src a off w) s =
      if !(s.tile a.die a.tile).idle then .next (s.answer src .aerr)
      else .next ((s.setDie a.die (putCellState (s.die a.die) (cellKey a.tile a.cell) (4 * off.val) w)).answer src .ok) :=
  if_neg (by simp [hserved])

/-- Settles O5, with the die's word-array clock stopped and running (R80). -/
theorem tileCommands : Obligations.TileCommands := by
  intro s src d t a off w
  refine ⟨fun stopped => ?_, fun served => ?_, fun served => ?_⟩
  · change s.tileServed d = false at stopped
    refine ⟨if_neg ?_, if_pos ?_, if_neg ?_, if_neg ?_, if_pos ?_, if_pos ?_⟩ <;> simp [stopped]
  · change s.tileServed d = true at served
    refine ⟨if_pos served, if_pos served, if_pos served, exec_haltRelease_of_running src served, fun e v hhalt he hv => ?_,
      if_neg (by simp [served]), if_neg (by simp [served])⟩
    rw [exec_haltRelease_of_halted src served hhalt, State.latchLead_of_clean (s := s.put F.wtCtrl_halt [d, t] 0) he hv]
    rfl
  · rw [exec_cellStateWrite_of_served src served, TileSt.not_idle]

end Sys2Proof.Machine
end

section
/-!
PROOFS. Accesses of the tile windows (R113, R114, R143, R147, R150, R160, R367; O7).
-/

namespace Sys2Proof.Machine

/-! ## The command for each region of a tile window (R113) -/

section
variable {s : State} {r : Req} {d t off : Nat} (hw : tileWindow r.addr.toNat = some (d, t, off))
include hw

theorem exec_mouldWrite_at (hl : 0x2000 ≤ off) (hh : off < 0x3000) :
    exec (.mouldWrite r) s = .next ((s.mouldWrite r d t off).2.respond r (s.mouldWrite r d t off).1) := by
  change execMouldWrite r s = _
  simp only [execMouldWrite, hw, hl, hh, and_self, if_true]

theorem exec_scheduleWrite_at (hl : 0x3000 ≤ off) (hh : off < 0x3080) :
    exec (.scheduleWrite r) s = .next ((s.entryWrite r d t off).2.respond r (s.entryWrite r d t off).1) := by
  change execScheduleWrite r s = _
  simp only [execScheduleWrite, hw, hl, hh, and_self, if_true]

theorem exec_stagingWrite_at (hl : 0x3080 ≤ off) (hh : off < 0x3100) :
    exec (.stagingWrite r) s = .next ((s.entryWrite r d t off).2.respond r (s.entryWrite r d t off).1) := by
  change execStagingWrite r s = _
  simp only [execStagingWrite, hw, hl, hh, and_self, if_true]

theorem exec_cellStoreAccess_at (hh : off < 0x2000) : exec (.cellStoreAccess r) s = .next (s.storeArrive r d t off) := by
  change execCellStoreAccess r s = _
  simp only [execCellStoreAccess, hw, hh, if_true]

end

/-! ## What a write to the moulds comes to (R143, R160, R367) -/

/-- A write of whole codewords below the end of a slot stores them one after another. -/
theorem State.mouldStore_of_codewords (s : State) (d t : Nat) {off : Nat} {data : List Byte} (ho : off % 256 < 0x88)
    (hn : data.length ≠ 4) :
    s.mouldStore d t off data =
      (.ok, (List.range (data.length / 8)).foldl (fun u i =>
        if off % 256 / 8 + i < 17 then u.writeCw d t (cwMould (off / 256) (off % 256 / 8 + i)) (leNat (slice data (8 * i) 8))
        else u) s) := by
  simp only [State.mouldStore, ho, hn, if_true, if_false]

section
variable {s : State} {r : Req} {d t off : Nat} (hlen : r.data.length = r.len)
include hlen

section
variable (hsize : sizeOk mouldSizes off r.len 256 = true)
include hsize

theorem State.mouldWrite_of_stopped (h : s.tileServed d = false) : s.mouldWrite r d t off = (.terr, s) := by
  simp [State.mouldWrite, hlen, hsize, h]

variable (h : s.tileServed d = true)
include h

theorem State.mouldWrite_of_named (hopen : s.openTile d t = false) (hnamed : slotNamed (s.die d) t ((off - 0x2000) / 256) = true) :
    s.mouldWrite r d t off = (.aerr, s) := by
  simp [State.mouldWrite, hlen, hsize, h, hopen, hnamed]

variable (hfree : s.openTile d t = true ∨ slotNamed (s.die d) t ((off - 0x2000) / 256) = false)
include hfree

theorem State.mouldWrite_of_free :
    s.mouldWrite r d t off = if r.badPar = [] then s.mouldStore d t (off - 0x2000) r.data else (.perr, s) := by
  have accepted : (!s.openTile d t && slotNamed (s.die d) t ((off - 0x2000) / 256)) = false := by
    rcases hfree with hf | hf <;> simp [hf]
  by_cases hp : r.badPar = [] <;> simp [State.mouldWrite, hlen, hsize, h, accepted, hp]

end

/-! ## What a write to the schedule or the staging area comes to (R150, R160) -/

section
variable (hsize : sizeOk mouldSizes off r.len 128 = true) (h : s.tileServed d = true)
include hsize h

theorem State.entryWrite_of_closed (hoff : off < 0x3080) (hopen : s.openTile d t = false) :
    s.entryWrite r d t off = (.aerr, s) := by
  simp [State.entryWrite, hlen, hsize, h, hoff, hopen]

theorem State.entryWrite_of_accepted (hfree : 0x3080 ≤ off ∨ s.openTile d t = true) (hp : r.badPar = []) :
    s.entryWrite r d t off =
      (.ok, (List.range (r.len / 4)).foldl (fun u i =>
        u.writeCw d t (272 + ((off - 0x3000) / 4 + i)) (leNat (slice r.data (4 * i) 4))) s) := by
  have accepted : (decide (off < 0x3080) && !s.openTile d t) = false := by
    rcases hfree with hf | hf <;> simp [hf]
  simp [State.entryWrite, hlen, hsize, h, accepted, hp]

end

/-! ## The arrival of a cell-store access (R114) -/

theorem State.storeArrive_of_legal (hsize : sizeOk [1, 2, 4, 8, 16, 32, 64] off r.len 512 = true) :
    s.storeArrive r d t off =
      if s.tileServed d then s.setDie d { s.die d with waits := (s.die d).waits ++ [⟨r, t, off / 512, off % 512⟩] }
      else s.respond r .terr := by
  cases h : s.tileServed d <;> simp [State.storeArrive, hlen, hsize, h]

end

/-! ## An access performed in phase B (R114) -/

/-- Where every byte that is read passes its check, none is reported. -/
theorem filter_not_byteOk_eq_nil {bs : List (BitVec 9)} {n : Nat} (hn : bs.length = n) (hok : bs.all byteOk = true) :
    (List.range n).filter (fun i => !byteOk (bs.getD i byte0)) = [] := by
  refine List.filter_eq_nil_iff.mpr fun i hi => ?_
  have inside : i < bs.length := hn ▸ List.mem_range.mp hi
  rw [List.getD_eq_getElem _ _ inside, List.all_eq_true.mp hok _ (List.getElem_mem inside)]
  decide

/-- The word array once an access of cell `ck` has left the waiting ones and used the cell's phase B. -/
def WaDie.accessTaken (w : WaDie) (ck : Nat) (x : StoreWait) : WaDie := { w with waits := w.waits.erase x, phB := ck :: w.phB }

/-- The bytes a store access reads. -/
def WaDie.storeBytes (w : WaDie) (ck : Nat) (x : StoreWait) : List (BitVec 9) :=
  (List.range x.req.len).map fun i => SMap.get byte0 w.store (storeKey ck (x.addr + i))

section
variable {s : State} {a : CellId} {x : StoreWait}
  (hx : (s.die a.die).waits.find? (fun y => y.tile == a.tile.val && y.cell == a.cell.val) = some x)
  (hfree : (s.die a.die).phaseBFree (cellKey a.tile a.cell) = true)
include hx hfree

theorem exec_cellStoreAccessDone_write (hw : x.req.write = true) (hp : x.req.badPar = []) :
    exec (.cellStoreAccessDone a) s =
      let w := s.die a.die
      let ck := cellKey a.tile a.cell
      .next ((s.setDie a.die { w.accessTaken ck x with store := (List.range x.req.len).foldl (fun m i =>
        SMap.set byte0 m (storeKey ck (x.addr + i)) (mkByte (x.req.data.getD i 0#8).toNat)) w.store }).respond x.req .ok) := by
  change execCellStoreAccessDone a s = _
  simp only [execCellStoreAccessDone, hx, hfree, hw, hp]
  rfl

theorem exec_cellStoreAccessDone_write_badPar (hw : x.req.write = true) (hp : x.req.badPar ≠ []) :
    exec (.cellStoreAccessDone a) s =
      .next ((s.setDie a.die ((s.die a.die).accessTaken (cellKey a.tile a.cell) x)).respond x.req .perr) := by
  change execCellStoreAccessDone a s = _
  have bad : (!x.req.badPar.isEmpty) = true := by simpa using hp
  simp only [execCellStoreAccessDone, hx, hfree, hw, bad]
  rfl

theorem exec_cellStoreAccessDone_read (hw : x.req.write = false)
    (hok : ((s.die a.die).storeBytes (cellKey a.tile a.cell) x).all byteOk = true) :
    exec (.cellStoreAccessDone a) s =
      let w := s.die a.die
      let ck := cellKey a.tile a.cell
      .next ((s.setDie a.die (w.accessTaken ck x)).respond x.req .ok ((w.storeBytes ck x).map fun b => b.setWidth 8)) := by
  have none_bad := filter_not_byteOk_eq_nil (n := x.req.len) (by simp [WaDie.storeBytes]) hok
  rw [WaDie.storeBytes] at none_bad
  change execCellStoreAccessDone a s = _
  simp only [execCellStoreAccessDone, hx, hfree, hw, none_bad]
  rfl

end

/-! ## The statement -/

/-- Settles O7, region by region of the tile window. -/
theorem tileWindowAccesses : Obligations.TileWindowAccesses := by
  intro s r d t off hw hlen
  refine ⟨fun hl hh hsize =>
      ⟨fun stopped => ?_, fun served hopen hnamed => ?_, fun served hfree => ⟨fun hp => ?_, fun hp ho hn => ?_⟩⟩,
    fun hl hh hsize served => ⟨fun hoff hopen => ?_, fun hoff hopen hp => ?_, fun hoff hp => ?_⟩,
    fun hh hsize => ⟨fun stopped => ?_, fun served => ?_⟩,
    fun a x => ?_⟩
  · rw [exec_mouldWrite_at hw hl hh, State.mouldWrite_of_stopped hlen hsize stopped]
  · rw [exec_mouldWrite_at hw hl hh, State.mouldWrite_of_named hlen hsize served hopen hnamed]
  · rw [exec_mouldWrite_at hw hl hh, State.mouldWrite_of_free hlen hsize served hfree, if_neg hp]
  · have place : (off - 0x2000) % 256 = off % 256 := by omega
    rw [exec_mouldWrite_at hw hl hh, State.mouldWrite_of_free hlen hsize served hfree, if_pos hp,
      State.mouldStore_of_codewords s d t (by rwa [place]) (by rwa [hlen]), place, hlen]
  · rw [exec_scheduleWrite_at hw hl hoff, State.entryWrite_of_closed hlen hsize served hoff hopen]
  · rw [exec_scheduleWrite_at hw hl hoff, State.entryWrite_of_accepted hlen hsize served (.inr hopen) hp]
  · rw [exec_stagingWrite_at hw hoff hh, State.entryWrite_of_accepted hlen hsize served (.inl hoff) hp]
  · rw [exec_cellStoreAccess_at hw hh, State.storeArrive_of_legal hlen hsize, if_neg (by simp [State.tileServed, stopped])]
  · rw [exec_cellStoreAccess_at hw hh, State.storeArrive_of_legal hlen hsize, if_pos (by simp [State.tileServed, served])]
  · intro w ck hx hfree
    exact ⟨exec_cellStoreAccessDone_write hx hfree, exec_cellStoreAccessDone_write_badPar hx hfree,
      exec_cellStoreAccessDone_read hx hfree⟩

end Sys2Proof.Machine
end

section
/-!
PROOFS. The commands of a stream port (R88, R102 to R110, R113; O13).
-/

namespace Sys2Proof.Machine

/-! ## INGRESS_BEAT (R103 to R105) -/

/-- A cycle in the ingress window of a port. -/
def State.windowOpen (s : State) (d p : Nat) : Bool :=
  s.flag F.waPortCfg_en [d, p] && !s.egress d p && !s.held d && (s.port d p).active &&
    decide (s.get F.waPortWin_start [d, p] ≤ (s.port d p).since ∧
      (s.port d p).since < s.get F.waPortWin_start [d, p] + s.get F.waPortWin_beats [d, p])

theorem State.injectBeat_of_none {s : State} {d p : Nat} (h : s.portInjects d p = none) (b : Beat) : s.injectBeat d p b = (b, s) := by
  simp only [State.injectBeat, h]

section
variable {s : State} {d : Fin 4} {p : Fin 64}

theorem exec_ingressBeat_of_shut (h : s.windowOpen d p = false) : exec (.ingressBeat d p) s = .next s :=
  if_neg (Bool.eq_false_iff.mp h)

section
variable (hopen : s.windowOpen d p = true) (hclosed : (s.port d p).closed = false)
include hopen hclosed

theorem exec_ingressBeat_of_bubble (htake : (s.sqTake d p).1 = none) :
    exec (.ingressBeat d p) s = .next (((s.sqTake d p).2.countUp F.waPortCnt_bubbles [d, p]).raise F.waPortStat_underrun [d, p]) := by
  refine (if_pos hopen).trans ((if_neg (by simp [hclosed])).trans ?_)
  generalize s.sqTake d p = taken at htake ⊢
  obtain ⟨_, s1⟩ := taken
  subst htake
  rfl

theorem exec_ingressBeat_of_beat {b : Beat} (htake : (s.sqTake d p).1 = some b) (hinj : (s.sqTake d p).2.portInjects d p = none) :
    exec (.ingressBeat d p) s =
      let s2 := (s.sqTake d p).2.onSpine d p b
      .next (if b.last = true ∧ s.get F.waPortCfg_lastMode [d, p] = 1 then s2.setPort d p { s2.port d p with closed := true }
        else s2) := by
  refine (if_pos hopen).trans ((if_neg (by simp [hclosed])).trans ?_)
  generalize s.sqTake d p = taken at htake hinj ⊢
  obtain ⟨_, s1⟩ := taken
  subst htake
  simp only [State.injectBeat_of_none hinj, Bool.and_eq_true, beq_iff_eq]
  split <;> rfl

end

end

/-! ## EGRESS_BEAT (R88, R106 to R109) -/

/-- The bytes that enter a port in the present cycle. -/
def State.entering (s : State) (d p : Nat) : List SpineByte :=
  (s.die d).spineOut.filter fun b => b.port == p && b.cycle == (s.die d).cycle

/-- The state without the bytes that enter a port in the present cycle. -/
def State.entered (s : State) (d p : Nat) : State :=
  s.setDie d { s.die d with spineOut := (s.die d).spineOut.filter fun b => !(b.port == p && b.cycle == (s.die d).cycle) }

/-- An egress port offers the beat that it holds to its queue (R108). -/
def State.offerHeld (s : State) (d p : Nat) : State :=
  match (s.port d p).held with
  | some h => s.egressOffer d p h
  | none => s

@[simp] theorem State.egressLanes_nil (s : State) (d p : Nat) : s.egressLanes d p [] = (List.replicate 16 none, s) := by
  simp only [State.egressLanes, List.filter_nil, nearest, List.foldl_nil]
  rfl

theorem State.filter_entering_of_ok {s : State} {d p : Nat} (h : (s.entering d p).all (fun b => byteOk b.v) = true) :
    (s.entering d p).filter (fun b => !byteOk b.v) = [] := List.filter_eq_nil_iff.mpr (by simpa using h)

section
variable {s : State} {d : Fin 4} {p : Fin 64}

theorem exec_egressBeat_of_none (h : s.entering d p = []) : exec (.egressBeat d p) s = .next s :=
  if_pos (List.isEmpty_iff.mpr h)

section
variable (hne : s.entering d p ≠ []) (hok : (s.entering d p).all (fun b => byteOk b.v) = true)
include hne hok

/-- Bytes that all pass their checks enter as they are; a port that takes none counts one drop. -/
theorem exec_egressBeat_of_disabled (hen : s.flag F.waPortCfg_en [d, p] = false) :
    exec (.egressBeat d p) s = .next ((s.entered d p).countUp F.waPortCnt_drops [d, p]) := by
  have bad := State.filter_entering_of_ok hok
  refine (if_neg (mt List.isEmpty_iff.mp hne)).trans ((if_pos (by simp [hen])).trans ?_)
  rw [State.entering] at bad
  simp only [bad]
  rfl

variable (hen : s.flag F.waPortCfg_en [d, p] = true) (heg : s.egress d p = true) (hheld : s.held d = false)
include hen heg hheld

/-- A beat of all 16 lanes is offered to the queue, or under last_mode 1 held, and the beat held before is offered (R108). -/
theorem exec_egressBeat_of_full {b0 : SpineByte} {bs : List SpineByte}
    (hlanes : ((s.entered d p).egressLanes d p (s.entering d p)).1 = some b0 :: bs.map some) :
    exec (.egressBeat d p) s =
      let s2 := ((s.entered d p).egressLanes d p (s.entering d p)).2
      let data := BitVec.ofNat 128 (leNat ((b0 :: bs).map fun b => b.v.setWidth 8))
      let beat : Beat := ⟨data, parOf16 data, s.get F.waPortCfg_lastMode [d, p] == 2 && b0.c, false⟩
      if s.get F.waPortCfg_lastMode [d, p] = 1 then
        let s3 := s2.offerHeld d p
        .next (s3.setPort d p { s3.port d p with held := some beat })
      else .next (s2.egressOffer d p beat) := by
  have bad := State.filter_entering_of_ok hok
  have good : (s.entering d p).filter (fun b => byteOk b.v) = s.entering d p := List.filter_eq_self.mpr (by simpa using hok)
  refine (if_neg (mt List.isEmpty_iff.mp hne)).trans ((if_neg (by simp [hen, heg, hheld])).trans ?_)
  rw [State.entering] at bad good hlanes
  rw [State.entered] at hlanes
  simp only [bad, good, List.isEmpty_nil, if_true, List.foldl_nil]
  rw [State.entering, State.entered]
  generalize State.egressLanes _ d p _ = e at hlanes ⊢
  obtain ⟨lanes, s2⟩ := e
  subst hlanes
  have whole : (some b0 :: bs.map some).all Option.isSome = true := by simp
  simp only [List.head?_cons, whole, if_true, List.map_cons, List.map_map, Function.comp_def]
  rfl

end

theorem exec_egressBeat_of_bad {b : SpineByte} (h : s.entering d p = [b]) (hb : byteOk b.v = false)
    (hen : s.flag F.waPortCfg_en [d, p] = true) (heg : s.egress d p = true) (hheld : s.held d = false) :
    exec (.egressBeat d p) s = .next (((s.entered d p).raise F.waPortStat_parErr [d, p]).bucket (16 * d.val)) := by
  have hne : s.entering d p ≠ [] := by simp [h]
  refine (if_neg (mt List.isEmpty_iff.mp hne)).trans ((if_neg (by simp [hen, heg, hheld])).trans ?_)
  rw [State.entering] at h
  simp [h, hb, State.entered]

end

/-! ## The statement -/

/-- Settles O13, command by command (log entry 97). -/
theorem streamPorts : Obligations.StreamPorts := by
  intro s src d p w win x st on wa now s0
  refine ⟨fun h => exec_ingressBeat_of_shut ?_, fun hon hlo hhi hclosed => ?_, exec_egressBeat_of_none, exec_egressBeat_of_disabled,
    fun b => exec_egressBeat_of_bad, fun b0 bs hne hen heg hheld hok hlanes => ?_, fun hw => ?_, rfl⟩
  · change (on && decide (st ≤ x.since ∧ x.since < st + s.get F.waPortWin_beats [d, p])) = false
    rcases h with h | h | h
    · rw [h, Bool.false_and]
    · simp [Nat.not_le.mpr h]
    · simp [Nat.not_lt.mpr h]
  · have hopen : s.windowOpen d p = true := by
      change (on && decide (st ≤ x.since ∧ x.since < st + s.get F.waPortWin_beats [d, p])) = true
      simp [hon, hlo, hhi]
    exact ⟨exec_ingressBeat_of_bubble hopen hclosed, fun b => exec_ingressBeat_of_beat hopen hclosed⟩
  · have full := exec_egressBeat_of_full hne hok hen heg hheld hlanes
    exact ⟨fun h => full.trans (if_neg h), fun h => full.trans (if_pos h)⟩
  · refine (congrArg Host.Outcome.next (State.regAct_of_not_waits hw src [d, p] w (·.portConfig d p win w))).trans ?_
    cases win <;> rfl

end Sys2Proof.Machine
end

section
/-!
PROOFS. The shifts, moves, selection and comparison of the word cell (R117, R119, R122, R126 to R128; O2).
-/

namespace Sys2Proof.Machine

/-! ## CMP and MOV, which read both operands without a destination, and one operand -/

section
variable {s : State} {a : CellId} {f : Fields} {oa ob : Nat}

/-- CMP ignores its dst field, so it is ready where the same word without a destination is (R122). -/
theorem exec_cmp_of_cellReady (h : CellReady s a { f with dst := 0x17#5 } oa ob) :
    exec (.cmp a f) s =
      let o := aluCmp ⟨8 * (ctxOf s a).g, f.u, f.s, oa, ob, f.sh.toNat⟩
      .next (cellAfter s a f (twoStore f) false true o.raw o.sat o.c) := by
  obtain ⟨hissues, hsa, hsb, hoa, hob, hptr⟩ := h
  refine congrArg Host.Outcome.next
    (issueAlu_of_operands (two := twoStore f) (oa := oa) (ob := ob) hissues ?_ rfl rfl ?_ hob hptr)
  · simp [hsa, hsb]
  · simpa [scaledSel_of_plainSel hsa] using hoa

section
variable (hissues : issues s (ctxOf s a) = true) (hdst : plainSel f.dst.toNat = true)
  (hptr : ptrFails s (ctxOf s a) f [f.sa.toNat] (if storeSel f.dst.toNat then some f.dst.toNat else none) = [])
include hissues hdst hptr

theorem exec_mov_of_plain (hsa : plainSel f.sa.toNat = true)
    (hoa : (let x := ctxOf s a
      s.readOperand x.d x.t x.k x.g x.bank f.sa.toNat false) = ⟨some oa, [], false⟩) :
    exec (.mov a f) s =
      let o := aluMov ⟨8 * (ctxOf s a).g, f.u, f.s, oa, 0, f.sh.toNat⟩
      .next (cellAfter s a f false true true o.raw o.sat o.c) := by
  have notScaled := scaledSel_of_plainSel hsa
  refine (congrArg Host.Outcome.next
    (issueAlu_of_operands (two := false) (oa := oa) (ob := 0) hissues ?_ rfl rfl ?_ rfl hptr)).trans ?_
  · simp [hsa, hdst]
  · simpa [notScaled] using hoa
  · simp only [notScaled, Bool.false_eq_true, if_false]

/-- The scaled CIN is 32 bits wide, a scaled accumulator 32 bits for each member (R119). -/
theorem exec_mov_of_scaled (hsa : scaledSel f.sa.toNat = true)
    (hoa : readScaled s (ctxOf s a) f.sa.toNat = ⟨some oa, [], false⟩) :
    exec (.mov a f) s =
      let g := (ctxOf s a).g
      let o := aluScaled (8 * g) f.u f.s (valueOf (if f.sa.toNat = 0x16 then 32 else 32 * g) f.u oa) f.sh.toNat
      .next (cellAfter s a f false true true o.raw o.sat o.c) := by
  have wide : 4 * (8 * (ctxOf s a).g) = 32 * (ctxOf s a).g := by omega
  refine (congrArg Host.Outcome.next
    (issueAlu_of_operands (two := false) (oa := oa) (ob := 0) hissues ?_ rfl rfl ?_ rfl hptr)).trans ?_
  · simp [hsa, hdst]
  · simpa [hsa] using hoa
  · simp only [hsa, if_true, wide]

end

end

/-- Settles O2: the shifts and SEL issue as every opcode of two operands does, CMP without a destination, MOV with one operand. -/
theorem cellShiftMoveSelectCompare : Obligations.CellShiftMoveSelectCompare := by
  intro s a f oa ob x n av bv k dstStore after
  refine ⟨fun h hdst => ?_, exec_cmp_of_cellReady, fun hi hsa hdst hoa hp => exec_mov_of_plain hi hdst hp hsa hoa,
    fun hi hsa hdst hoa hp => exec_mov_of_scaled hi hdst hp hsa hoa⟩
  have shift (fn : Nat → AluIn → AluOut) := next_issueAlu_alu2 h hdst fun i => fn (shiftCount f i) i
  exact ⟨shift aluShl, shift aluShr, shift aluAsr, congrArg Host.Outcome.next (issueAlu_of_cellReady h hdst _ rfl rfl rfl)⟩

end Sys2Proof.Machine
end

section
/-!
PROOFS. The results of SHL, SHR and ASR as values (R97, R123, R124, R126; O58).
-/

namespace Sys2Proof.Machine

/-! ## Values of n bits and their limits (R123, R124) -/

theorem natCast_ofSigned (n : Nat) (x : Int) : ((ofSigned n x : Nat) : Int) = x % (2 ^ n : Nat) :=
  Int.toNat_of_nonneg (Int.emod_nonneg _ (by positivity))

theorem ofSigned_lt (n : Nat) (x : Int) : ofSigned n x < 2 ^ n := by
  have upper := Int.emod_lt_of_pos x (b := ((2 ^ n : Nat) : Int)) (by positivity)
  rw [← natCast_ofSigned] at upper
  exact_mod_cast upper

@[simp] theorem ofSigned_natCast (n m : Nat) : ofSigned n (m : Int) = m % 2 ^ n := by
  rw [ofSigned, ← Int.natCast_emod, Int.toNat_natCast]

@[simp] theorem ofSigned_zero (n : Nat) : ofSigned n 0 = 0 := by simp [ofSigned]

theorem ofSigned_neg_one (n : Nat) : ofSigned n (-1) = 2 ^ n - 1 := by
  have pos := Nat.two_pow_pos n
  have top : (-1 : Int) % (2 ^ n : Nat) = (2 ^ n : Nat) - 1 := by
    rw [← Int.add_emod_right, Int.emod_eq_of_lt] <;> omega
  rw [ofSigned, top]
  omega

theorem valueOf_unsigned (n raw : Nat) : valueOf n true raw = ((raw % 2 ^ n : Nat) : Int) := rfl

theorem loLimit_nonpos (n : Nat) (u : Bool) : loLimit n u ≤ 0 := by
  cases u <;> simp [loLimit]

theorem hiLimit_nonneg (n : Nat) (u : Bool) : 0 ≤ hiLimit n u := by
  have := Nat.two_pow_pos n
  have := Nat.two_pow_pos (n - 1)
  cases u <;> simp only [hiLimit, if_true, Bool.false_eq_true, if_false] <;> omega

section
variable {n : Nat} (hn : 0 < n) (u : Bool)
include hn

/-- No n-bit value is as great as 2 to the n. -/
theorem limits_within_two_pow : -((2 ^ n : Nat) : Int) < loLimit n u ∧ hiLimit n u < (2 ^ n : Nat) := by
  have half := Nat.two_pow_pred_mul_two hn
  have pos := Nat.two_pow_pos (n - 1)
  cases u <;> simp only [loLimit, hiLimit, if_true, Bool.false_eq_true, if_false] <;> omega

/-- Both limits hold of every value. -/
theorem valueOf_mem_limits (raw : Nat) : loLimit n u ≤ valueOf n u raw ∧ valueOf n u raw ≤ hiLimit n u := by
  have half := Nat.two_pow_pred_mul_two hn
  have low := Nat.mod_lt raw (Nat.two_pow_pos n)
  cases u with
  | true => simp only [valueOf, loLimit, hiLimit, if_true]; omega
  | false =>
    simp only [valueOf, loLimit, hiLimit, toSigned, Bool.false_eq_true, if_false]
    split <;> omega

/-- A value within the limits is read back from its bits. -/
theorem valueOf_ofSigned {x : Int} (hlo : loLimit n u ≤ x) (hhi : x ≤ hiLimit n u) : valueOf n u (ofSigned n x) = x := by
  have half := Nat.two_pow_pred_mul_two hn
  have bits := natCast_ofSigned n x
  have whole := Nat.mod_eq_of_lt (ofSigned_lt n x)
  cases u with
  | true =>
    simp only [loLimit, hiLimit, if_true] at hlo hhi
    rw [Int.emod_eq_of_lt hlo (by omega)] at bits
    rw [valueOf_unsigned, whole, bits]
  | false =>
    simp only [loLimit, hiLimit, Bool.false_eq_true, if_false] at hlo hhi
    simp only [valueOf, toSigned, Bool.false_eq_true, if_false, whole]
    rcases Int.lt_or_le x 0 with neg | nonneg
    · rw [← Int.add_emod_right, Int.emod_eq_of_lt (by omega) (by omega)] at bits
      rw [if_neg (by omega)]
      omega
    · rw [Int.emod_eq_of_lt nonneg (by omega)] at bits
      rw [if_pos (by omega), bits]

end

/-! ## The reduction of an exact result (R124) -/

theorem reduce_of_mem {n : Nat} {u : Bool} (s : Bool) {x : Int} (hlo : loLimit n u ≤ x) (hhi : x ≤ hiLimit n u) :
    reduce n u s x = (ofSigned n x, false) := by
  simp only [reduce, Int.not_lt.mpr hlo, Int.not_lt.mpr hhi, if_false]

theorem reduce_of_wrap (n : Nat) (u : Bool) (x : Int) : reduce n u false x = (ofSigned n x, false) := by
  simp [reduce]

theorem reduce_of_below {n : Nat} {u : Bool} {x : Int} (h : x < loLimit n u) :
    reduce n u true x = (ofSigned n (loLimit n u), true) := if_pos h

theorem reduce_of_above {n : Nat} {u : Bool} {x : Int} (h : hiLimit n u < x) :
    reduce n u true x = (ofSigned n (hiLimit n u), true) := by
  have notBelow : ¬ x < loLimit n u := Int.not_lt.mpr ((loLimit_nonpos n u).trans ((hiLimit_nonneg n u).trans h.le))
  simp [reduce, notBelow, h]

theorem reduce_zero (n : Nat) (u s : Bool) : reduce n u s 0 = (0, false) := by
  rw [reduce_of_mem s (loLimit_nonpos n u) (hiLimit_nonneg n u), ofSigned_zero]

theorem reduce_lt (n : Nat) (u s : Bool) (x : Int) : (reduce n u s x).1 < 2 ^ n := by
  simp only [reduce]
  repeat' split
  all_goals exact ofSigned_lt n _

/-! ## A value times 2 to the k (R126) -/

section
variable {n : Nat} (u : Bool) {v : Int} {k : Nat}

/-- Clamping is on the side of the value's sign. -/
theorem reduce_shifted_of_clamp (hn : 0 < n) (h : v * 2 ^ k < loLimit n u ∨ hiLimit n u < v * 2 ^ k) :
    valueOf n u (reduce n u true (v * 2 ^ k)).1 = (if v < 0 then loLimit n u else hiLimit n u) ∧
      (reduce n u true (v * 2 ^ k)).2 = true := by
  have hlo := loLimit_nonpos n u
  have hhi := hiLimit_nonneg n u
  have pos : (0 : Int) < 2 ^ k := by positivity
  rcases h with below | above
  · have neg : v < 0 := neg_of_mul_neg_left (below.trans_le hlo) pos.le
    rw [reduce_of_below below, if_pos neg]
    exact ⟨valueOf_ofSigned hn u le_rfl (hlo.trans hhi), rfl⟩
  · have nonneg : ¬ v < 0 := fun neg => absurd (mul_neg_of_neg_of_pos neg pos) (not_lt.mpr (hhi.trans above.le))
    rw [reduce_of_above above, if_neg nonneg]
    exact ⟨valueOf_ofSigned hn u (hlo.trans hhi) le_rfl, rfl⟩

/-- A nonzero value leaves the range when its count is the width or more. -/
theorem shifted_out_of_limits (hn : 0 < n) (hv : v ≠ 0) (hk : n ≤ k) : v * 2 ^ k < loLimit n u ∨ hiLimit n u < v * 2 ^ k := by
  obtain ⟨hlo, hhi⟩ := limits_within_two_pow hn u
  have wide : ((2 ^ n : Nat) : Int) ≤ 2 ^ k := by exact_mod_cast Nat.pow_le_pow_right (by decide) hk
  rcases Int.lt_or_gt_of_ne hv with neg | pos
  · left
    nlinarith
  · right
    nlinarith

theorem ofSigned_shifted_of_le (hk : n ≤ k) : ofSigned n (v * 2 ^ k) = 0 := by
  have divides : ((2 ^ n : Nat) : Int) ∣ v * 2 ^ k := by
    push_cast
    exact Dvd.dvd.mul_left (pow_dvd_pow 2 hk) v
  rw [ofSigned, Int.emod_eq_zero_of_dvd divides, Int.toNat_zero]

end

/-! ## The floor of a value over 2 to the k (R126) -/

section
variable {v c : Int} (hc : 0 < c)
include hc

theorem ediv_mem_of_mem {lo hi : Int} (hlo0 : lo ≤ 0) (hhi0 : 0 ≤ hi) (hlo : lo ≤ v) (hhi : v ≤ hi) :
    lo ≤ v / c ∧ v / c ≤ hi :=
  ⟨(Int.le_ediv_iff_mul_le hc).mpr (by nlinarith), Int.ediv_le_of_le_mul hc (by nlinarith)⟩

theorem ediv_eq_sign_of_small (hlo : -c ≤ v) (hhi : v < c) : v / c = if v < 0 then -1 else 0 := by
  split
  case isTrue neg =>
    rw [Int.ediv_eq_iff_of_pos hc]
    omega
  case isFalse nonneg => exact Int.ediv_eq_zero_of_lt (Int.not_lt.mp nonneg) hhi

end

/-! ## The width of an operand (R97, R123) -/

/-- A gang has at least one cell (R97). -/
theorem CurMould.gang_pos (m : CurMould) (row : Nat) : 0 < m.gang row := by
  unfold CurMould.gang
  repeat' split
  all_goals decide

/-! ## The statement -/

/-- Settles O58: SHL reduces the exact product, SHR and ASR take floors, which lie in the range. -/
theorem shiftResults : Obligations.ShiftResults := by
  intro s a f oa ob n k av ua lo hi h hdst
  obtain ⟨shl, shr, asr, -⟩ := (cellShiftMoveSelectCompare s a f oa ob).1 h hdst
  have hn : 0 < n := Nat.mul_pos (by decide) (CurMould.gang_pos _ _)
  have unsignedLt : ua < 2 ^ n := Nat.mod_lt oa (Nat.two_pow_pos n)
  have wide (hk : n ≤ k) : 2 ^ n ≤ 2 ^ k := Nat.pow_le_pow_right (by decide) hk
  have power : ((2 ^ k : Nat) : Int) = 2 ^ k := Nat.cast_pow 2 k
  have clamp (out : av * 2 ^ k < lo ∨ hi < av * 2 ^ k) := reduce_shifted_of_clamp f.u hn out
  rw [power] at shl
  refine ⟨⟨_, _, _, shl, reduce_lt .., fun hlo hhi => ?_, fun hs => ?_, fun hs _ out => ?_, fun hs hv hk => ?_, fun h0 => ?_⟩,
    ⟨_, shr, fun hk => Nat.div_eq_of_lt (unsignedLt.trans_le (wide hk))⟩,
    ⟨_, _, asr, ofSigned_lt .., fun hu => ?_, fun hu => ?_⟩⟩
  · rw [reduce_of_mem _ hlo hhi]
    exact ⟨valueOf_ofSigned hn _ hlo hhi, rfl⟩
  · rw [hs, reduce_of_wrap, natCast_ofSigned]
    exact ⟨Int.emod_eq_zero_of_dvd Int.dvd_emod_sub_self, rfl, ofSigned_shifted_of_le⟩
  · rw [hs]
    exact clamp out
  · rw [hs]
    exact clamp (shifted_out_of_limits f.u hn hv hk)
  · change (reduce n f.u f.s (av * 2 ^ k)).1 = 0
    rw [h0, zero_mul, reduce_zero]
  · change ofSigned n (av / _) = _
    have unsigned : av = (ua : Int) := by rw [← valueOf_unsigned, ← hu]
    rw [unsigned, ← Int.natCast_div, ofSigned_natCast, Nat.mod_eq_of_lt ((Nat.div_le_self ..).trans_lt unsignedLt)]
  · have pos : (0 : Int) < (2 ^ k : Nat) := by positivity
    have range := valueOf_mem_limits hn f.u oa
    obtain ⟨hlo, hhi⟩ := ediv_mem_of_mem pos (loLimit_nonpos n f.u) (hiLimit_nonneg n f.u) range.1 range.2
    refine ⟨?_, fun hk => ?_⟩
    · rw [Int.fdiv_eq_ediv_of_nonneg _ pos.le, ← hu]
      exact valueOf_ofSigned hn f.u hlo hhi
    · have bounds := limits_within_two_pow hn f.u
      have := wide hk
      change ofSigned n (av / _) = _
      rw [ediv_eq_sign_of_small pos (by omega) (by omega)]
      split
      · exact ofSigned_neg_one n
      · exact ofSigned_zero n

end Sys2Proof.Machine
end

section
/-!
PROOFS. The accumulators of the word cell (R120, R121, R123, R129 to R136; O3).
-/

namespace Sys2Proof.Machine

/-! ## An accumulator opcode whose operands read without a fault -/

section
variable {s : State} {a : CellId} {f : Fields} {op : AccOp} {acc cin : Nat}
  (hissues : issues s (ctxOf s a) = true) (hdst : f.dst.toNat ≤ 1)
  (hform : ((!op.ganged && decide (1 < (ctxOf s a).g)) || (op.usesBsel && decide ((ctxOf s a).g ≤ f.sh.toNat % 4))) = false)
  (hacc : op.useAcc = true → AccReads s (ctxOf s a) f.dst.toNat acc)
  (hcin : (if op.useCin then readCinX s (ctxOf s a) else some 0) = some cin)
include hissues hdst hform hacc hcin

/-- The exact value is reduced to the gang's accumulator, and the pointers move (R134, R137). -/
theorem issueAcc_of_operands {two : Bool} {oa ob : Nat}
    (hlegal : (op.useAB && (!plainSel f.sa.toNat || !plainSel f.sb.toNat)) = false)
    (htwo : (op.useAB && storeSel f.sa.toNat && storeSel f.sb.toNat && f.sa.toNat != f.sb.toNat) = two)
    (hoa : (let x := ctxOf s a
      if op.useAB then s.readOperand x.d x.t x.k x.g x.bank f.sa.toNat false else ⟨some 0, [], false⟩) = ⟨some oa, [], false⟩)
    (hob : (let x := ctxOf s a
      if op.useAB then s.readOperand x.d x.t x.k x.g x.bank f.sb.toNat two else ⟨some 0, [], false⟩) = ⟨some ob, [], false⟩)
    (hptr : ptrFails s (ctxOf s a) f (namedSels op.useAB op.useAB f) none = []) :
    issueAcc op a f s =
      let g := (ctxOf s a).g
      let before := if op.useAcc then valueOf (32 * g) f.u acc else 0
      let r := reduce (32 * g) f.u f.s (op.fn (8 * g) f before (valueOf 32 f.u cin) oa ob)
      accAfter s a f two r.1 r.2 := by
  have inRange : decide (1 < f.dst.toNat) = false := decide_eq_false (Nat.not_lt.mpr hdst)
  simp only [issueAcc, hissues, hlegal, hform, inRange, htwo, hoa, hob, hptr, hcin, State.noteOperand_clean, recordedB_clean,
    Bool.not_true, Bool.or_self, Bool.false_eq_true, if_false]
  cases hu : op.useAcc with
  | false => rfl
  | true =>
    have read := hacc hu
    rw [AccReads] at read
    simp only [read]
    rfl

/-- An opcode that multiplies A by B. -/
theorem issueAcc_of_cellReady {oa ob : Nat} (h : CellReady s a { f with dst := 0x17#5 } oa ob) (hab : op.useAB = true) :
    issueAcc op a f s =
      let g := (ctxOf s a).g
      let before := if op.useAcc then valueOf (32 * g) f.u acc else 0
      let r := reduce (32 * g) f.u f.s (op.fn (8 * g) f before (valueOf 32 f.u cin) oa ob)
      accAfter s a f (twoStore f) r.1 r.2 := by
  obtain ⟨-, hsa, hsb, hoa, hob, hptr⟩ := h
  refine issueAcc_of_operands hissues hdst hform hacc hcin ?_ ?_ ?_ ?_ ?_
  · simp [hsa, hsb]
  · simp [hab, twoStore]
  · simpa [hab] using hoa
  · rw [hab]
    exact hob
  · rw [hab]
    exact hptr

/-- An opcode without A and B. -/
theorem issueAcc_of_noOperands (hptr : ptrFails s (ctxOf s a) f [] none = []) (hab : op.useAB = false) :
    issueAcc op a f s =
      let g := (ctxOf s a).g
      let before := if op.useAcc then valueOf (32 * g) f.u acc else 0
      let r := reduce (32 * g) f.u f.s (op.fn (8 * g) f before (valueOf 32 f.u cin) 0 0)
      accAfter s a f false r.1 r.2 := by
  refine issueAcc_of_operands hissues hdst hform hacc hcin ?_ ?_ ?_ ?_ ?_ <;> simp [hab, namedSels, hptr]

end

/-! ## MAC, MSU and CMAC -/

section
variable {s : State} {a : CellId} {f : Fields} {oa ob acc cin : Nat}

section
variable (h : CellReady s a { f with dst := 0x17#5 } oa ob) (hdst : f.dst.toNat ≤ 1)
include h hdst

section
variable (hacc : AccReads s (ctxOf s a) f.dst.toNat acc) (hsel : f.sh.toNat % 4 < (ctxOf s a).g)
include hacc hsel

/-- MAC and MSU, whose byte of B lies in the gang (R135). -/
theorem issueAcc_of_bsel (fn : Nat → Fields → Int → Int → Nat → Nat → Int) :
    issueAcc ⟨true, true, false, true, true, fn⟩ a f s =
      let g := (ctxOf s a).g
      let r := reduce (32 * g) f.u f.s (fn (8 * g) f (valueOf (32 * g) f.u acc) (valueOf 32 f.u 0) oa ob)
      accAfter s a f (twoStore f) r.1 r.2 :=
  issueAcc_of_cellReady h.1 hdst (by simpa using hsel) (fun _ => hacc) rfl h rfl

end

theorem exec_cmac_of_cellReady (hg : (ctxOf s a).g = 1) (hcin : readCinX s (ctxOf s a) = some cin) :
    exec (.cmac a f) s =
      let n := 8 * (ctxOf s a).g
      let r := reduce (32 * (ctxOf s a).g) f.u f.s (valueOf 32 f.u cin + valueOf n f.u oa * valueOf n f.u ob)
      .next (accAfter s a f (twoStore f) r.1 r.2) :=
  congrArg Host.Outcome.next
    (issueAcc_of_cellReady (acc := 0) (cin := cin) h.1 hdst (by simp [hg]) (by simp) (by simpa using hcin) h rfl)

end

/-! ## CADD, CLD, CLRACC and TAP -/

section
variable (hissues : issues s (ctxOf s a) = true)
include hissues

section
variable (hptr : ptrFails s (ctxOf s a) f [] none = [])
include hptr

/-- CADD and CLD, which have no ganged form (R136). -/
theorem issueAcc_of_cascade (hdst : f.dst.toNat ≤ 1) (hg : (ctxOf s a).g = 1) (hcin : readCinX s (ctxOf s a) = some cin)
    (useAcc : Bool) (hacc : useAcc = true → AccReads s (ctxOf s a) f.dst.toNat acc)
    (fn : Nat → Fields → Int → Int → Nat → Nat → Int) :
    issueAcc ⟨false, useAcc, true, false, false, fn⟩ a f s =
      let g := (ctxOf s a).g
      let before := if useAcc then valueOf (32 * g) f.u acc else 0
      let r := reduce (32 * g) f.u f.s (fn (8 * g) f before (valueOf 32 f.u cin) 0 0)
      accAfter s a f false r.1 r.2 :=
  issueAcc_of_noOperands hissues hdst (by simp [hg]) hacc hcin hptr rfl

theorem exec_clracc_of_legal (hdst : f.dst.toNat ≤ 2) :
    exec (.clracc a f) s =
      let x := ctxOf s a
      let as := if f.dst.toNat = 2 then accWrites x 0 0 ++ accWrites x 1 0 else accWrites x f.dst.toNat 0
      let fs := if f.sh.getLsbD 0 then flagWrites s x (fun o => { o with sat := false }) else []
      .next ((s.later x.d (as ++ fs)).movePtrs x.d x.t x.k x.g x.bank f.p0u.toNat f.p1u.toNat) := by
  change execClracc a f s = _
  simp only [execClracc, hissues, hptr, Nat.not_lt.mpr hdst, if_false]
  rfl

end

/-- The byte at P1 is stored one past P1, and P1 moves down (R131). -/
theorem exec_tap_of_operands (hg : (ctxOf s a).g = 1) (hdst : f.dst.toNat ≤ 1) (hacc : AccReads s (ctxOf s a) f.dst.toNat acc)
    (hp0 : let x := ctxOf s a
      ptrOk (SMap.get ptr0 (s.die x.d).ptr (accKey (cellKey x.t x.k) x.bank 0)) = true)
    (hx : let x := ctxOf s a
      (s.die x.d).readStore (cellKey x.t x.k) x.bank 1 false = .val oa)
    (hh : let x := ctxOf s a
      rdByte (SMap.get byte0 (s.die x.d).dreg (dregKey (cellKey x.t x.k) x.bank
        ((SMap.get ptr0 (s.die x.d).ptr (accKey (cellKey x.t x.k) x.bank 0)).toNat % 16))) = .val ob) :
    exec (.tap a f) s =
      let x := ctxOf s a
      let ck := cellKey x.t x.k
      let r := reduce 32 f.u f.s (valueOf 32 f.u acc + valueOf 8 f.u oa * valueOf 8 f.u ob)
      let fs := flagWrites s x (fun o => flagsAfter o 32 ⟨r.1, r.2, none⟩)
      let p1 := SMap.get ptr0 (s.die x.d).ptr (accKey ck x.bank 1)
      .next ((s.later x.d (accWrites x f.dst.toNat r.1 ++ fs
        ++ [⟨x.cycle + 2, x.d, .store (storeKey ck (p1.toNat % 512 + 1)) (mkByte oa)⟩])).movePtrs
          x.d x.t x.k 1 x.bank f.p0u.toNat 2) := by
  rw [AccReads, hg] at hacc
  have legal : (decide (1 < f.dst.toNat) || decide (1 < (ctxOf s a).g)) = false := by simp [hg, hdst]
  change execTap a f s = _
  simp only [execTap, hissues, legal, hp0, hx, hh, hacc, if_true]
  rfl

end

end

/-- Settles O3, each opcode by its own operands (R132 for the cascade opcodes, R131 for TAP). -/
theorem cellAccumulate : Obligations.CellAccumulate := by
  intro s a f oa ob acc cin x n av w before c red after ck ptr
  refine ⟨fun h hdst => ⟨fun hacc hsel => ?_, fun hg hcin => exec_cmac_of_cellReady h hdst hg hcin⟩,
    fun hi hp => ⟨fun hdst hg hcin => ⟨fun hacc => ?_, ?_⟩, exec_nop_of_issues hi hp, exec_clracc_of_legal hi hp⟩,
    fun hi hg hdst hacc hp0 hx hh => exec_tap_of_operands hi hg hdst hacc hp0 hx hh⟩
  · have product := issueAcc_of_bsel h hdst hacc hsel
    exact ⟨congrArg Host.Outcome.next (product _), congrArg Host.Outcome.next (product _)⟩
  · exact congrArg Host.Outcome.next (issueAcc_of_cascade hi hp hdst hg hcin true (fun _ => hacc) _)
  · exact congrArg Host.Outcome.next (issueAcc_of_cascade (acc := 0) hi hp hdst hg hcin false nofun _)

end Sys2Proof.Machine
end

section
/-!
PROOFS. Codewords of the mould, schedule and staging memories: what is written reads back (R142, R146, R150, R564; O8).
-/

namespace Sys2Proof

/-! ## A fresh codeword of a SEC-DED code is clean (R564) -/

theorem lt_of_mem_secCols {r n c : Nat} (h : c ∈ secCols r n) : c < 2 ^ r := by
  obtain h | h := List.mem_append.mp (List.mem_of_mem_take h) <;> exact List.mem_range.mp (List.mem_filter.mp h).1

theorem secFold_lt {r : Nat} : ∀ {cols : List Nat}, (∀ c ∈ cols, c < 2 ^ r) → ∀ d, secFold cols d < 2 ^ r
  | [], _, _ => Nat.two_pow_pos r
  | c :: cols, h, d => by
    obtain ⟨hc, hcols⟩ := List.forall_mem_cons.mp h
    have term : (if d % 2 = 1 then c else 0) < 2 ^ r := by
      split
      · exact hc
      · exact Nat.two_pow_pos r
    exact Nat.xor_lt_two_pow term (secFold_lt hcols (d / 2))

theorem secCheck_lt (r n d : Nat) : secCheck r n d < 2 ^ r := secFold_lt (fun _ => lt_of_mem_secCols) d

/-- The data and check fields of a codeword come apart again, so its syndrome is 0. -/
theorem secRead_encoded (r n d : Nat) :
    let w := (BitVec.ofNat (n + r) (d % 2 ^ n + 2 ^ n * secCheck r n (d % 2 ^ n))).toNat
    secRead r n (w % 2 ^ n) (w / 2 ^ n) = .clean (d % 2 ^ n) := by
  intro w
  have hn : 0 < 2 ^ n := Nat.two_pow_pos n
  have hd : d % 2 ^ n < 2 ^ n := Nat.mod_lt _ hn
  have check : (d % 2 ^ n + 2 ^ n * secCheck r n (d % 2 ^ n)) / 2 ^ n = secCheck r n (d % 2 ^ n) := by
    rw [Nat.add_mul_div_left _ _ hn, Nat.div_eq_of_lt hd, Nat.zero_add]
  have fits : d % 2 ^ n + 2 ^ n * secCheck r n (d % 2 ^ n) < 2 ^ (n + r) := by
    rw [Nat.pow_add', ← Nat.div_lt_iff_lt_mul hn, check]
    exact secCheck_lt r n _
  have hw : w = d % 2 ^ n + 2 ^ n * secCheck r n (d % 2 ^ n) := Nat.mod_eq_of_lt fits
  have data : w % 2 ^ n = d % 2 ^ n := by rw [hw, Nat.add_mul_mod_self_left, Nat.mod_mod]
  rw [data, hw, check, secRead, Nat.xor_self]
  rfl

theorem dec72_enc72 (d : Nat) : dec72 (enc72 d) = .clean (d % 2 ^ 64) := secRead_encoded 8 64 d
theorem dec39_enc39 (d : Nat) : dec39 (enc39 d) = .clean (d % 2 ^ 32) := secRead_encoded 7 32 d

namespace Machine

/-! ## The three memories of a tile -/

section
variable (w : WaDie) (t cw : Nat) (v : BitVec 72)

theorem WaDie.putCw_mould :
    (w.putCw t cw v).mould = if cw < 272 then SMap.set 0#72 w.mould (272 * t + cw) v else w.mould := by
  unfold putCw
  split
  · rfl
  · split <;> rfl

theorem WaDie.putCw_sched :
    (w.putCw t cw v).sched =
      if 272 ≤ cw ∧ cw < 304 then SMap.set 0#39 w.sched (32 * t + (cw - 272)) (v.setWidth 39) else w.sched := by
  unfold putCw
  split
  · rw [if_neg (by omega)]
    rfl
  · split
    · rw [if_pos (by omega)]
      rfl
    · rw [if_neg (by omega)]
      rfl

theorem WaDie.putCw_stage :
    (w.putCw t cw v).stage = if 304 ≤ cw then SMap.set 0#39 w.stage (32 * t + (cw - 304)) (v.setWidth 39) else w.stage := by
  unfold putCw
  split
  · rw [if_neg (by omega)]
    rfl
  · split
    · rw [if_neg (by omega)]
      rfl
    · rw [if_pos (by omega)]
      rfl

theorem WaDie.readCw_putCw_same : (w.putCw t cw v).readCw t cw = if cw < 272 then dec72 v else dec39 (v.setWidth 39) := by
  unfold readCw
  split
  case isTrue mould => rw [putCw_mould, if_pos mould, SMap.get_set_same]
  case isFalse notMould =>
    split
    case isTrue sched => rw [putCw_sched, if_pos (by omega), SMap.get_set_same]
    case isFalse notSched => rw [putCw_stage, if_pos (by omega), SMap.get_set_same]

end

/-- Codewords of one memory lie at keys apart, as a tile has 272, 32 and 32 of them. -/
theorem WaDie.readCw_putCw_ne (w : WaDie) {t cw t' cw' : Nat} (v : BitVec 72) (hcw : cw < 336) (hcw' : cw' < 336)
    (h : (t', cw') ≠ (t, cw)) : (w.putCw t cw v).readCw t' cw' = w.readCw t' cw' := by
  rw [Ne, Prod.mk.injEq] at h
  unfold readCw
  split
  · rw [putCw_mould]
    split
    · rw [SMap.get_set_ne _ _ _ (by omega)]
    · rfl
  · split
    · rw [putCw_sched]
      split
      · rw [SMap.get_set_ne _ _ _ (by omega)]
      · rfl
    · rw [putCw_stage]
      split
      · rw [SMap.get_set_ne _ _ _ (by omega)]
      · rfl

theorem encCw_of_mould {cw : Nat} (h : cw < 272) (d : Nat) : encCw cw d = enc72 d := if_pos h

theorem encCw_setWidth {cw : Nat} (h : ¬ cw < 272) (d : Nat) : (encCw cw d).setWidth 39 = enc39 d := by
  rw [encCw, if_neg h]
  simp

/-- The findings that a rewrite forgets are the sequencer's, and no part of the memories (R146). -/
theorem State.readCw_writeCw (s : State) (d t cw data t' cw' : Nat) :
    ((s.writeCw d t cw data).die d).readCw t' cw' = ((s.die d).putCw t cw (encCw cw data)).readCw t' cw' := by
  simp only [State.writeCw, State.die_setDie, WaDie.readCw_setTile]

theorem State.readCw_writeCw_same (s : State) (d t cw data : Nat) :
    ((s.writeCw d t cw data).die d).readCw t cw = .clean (data % 2 ^ (if cw < 272 then 64 else 32)) := by
  rw [State.readCw_writeCw, WaDie.readCw_putCw_same]
  split
  case isTrue mould => rw [encCw_of_mould mould, dec72_enc72]
  case isFalse notMould => rw [encCw_setWidth notMould, dec39_enc39]

theorem State.readCw_writeCw_ne (s : State) {d t cw d' t' cw' : Nat} (data : Nat) (hcw : cw < 336) (hcw' : cw' < 336)
    (h : (d', t', cw') ≠ (d, t, cw)) : ((s.writeCw d t cw data).die d').readCw t' cw' = (s.die d').readCw t' cw' := by
  by_cases die : d' = d
  · subst die
    rw [State.readCw_writeCw, WaDie.readCw_putCw_ne _ _ hcw hcw' (fun e => h (by rw [e]))]
  · rw [State.writeCw, State.die_setDie_ne _ _ die]

/-- Settles O8: the code gives back the data, and codewords lie at keys apart. -/
theorem mouldReadBack : Obligations.MouldReadBack :=
  fun s d t cw data hcw =>
    ⟨s.readCw_writeCw_same d t cw data, fun _ _ _ hcw' h => s.readCw_writeCw_ne data hcw hcw' h⟩

end Machine
end Sys2Proof
end

section
/-!
PROOFS. The end of a pour, scrub, writeback and preemption (R146, R149, R153, R164, R165, R167, R168; O6).
-/

namespace Sys2Proof.Machine

section
variable {s : State} {d : Fin 4} {t : Fin 2048}

theorem exec_pourEnd_of_ended (running : (s.tile d t).running = true) (issued : (s.tile d t).pos = none)
    (ended : (s.tile d t).endAt ≤ (s.die d).cycle) :
    exec (.pourEnd d t) s = .next (s.setTile d t { s.tile d t with running := false }) :=
  if_pos (by simp [running, issued, ended])

/-! ## Scrub and writeback (R146, R149) -/

/-- A clean codeword is read without a trace. -/
theorem exec_mouldScrubRead_of_clean {v : Nat} (free : (s.tile d t).memFree = true) (runs : s.runs (16 + d.val) = true)
    (clean : (s.die d).readCw t (s.tile d t).scrub = .clean v) :
    exec (.mouldScrubRead d t) s =
      .next (s.setTile d t { s.tile d t with scrub := ((s.tile d t).scrub + 1) % 336, scrubbed := true }) := by
  refine (if_neg (by simp [free, runs])).trans ?_
  simp only [State.fetchCw_of_clean clean]

theorem exec_mouldWriteback_of_free {cw : Nat} {v : BitVec 72} {rest : List (Nat × BitVec 72)}
    (oldest : (s.tile d t).wb = (cw, v) :: rest) (free : (s.tile d t).memFree = true) :
    exec (.mouldWriteback d t) s =
      .next (s.setDie d (((s.die d).putCw t cw v).setTile t
        { ((s.die d).putCw t cw v).tile t with wb := rest, scrubbed := true })) := by
  change execMouldWriteback d t s = _
  simp [execMouldWriteback, oldest, free]

/-! ## Preemption (R164, R165, R167, R168) -/

theorem State.recognise_eq (s : State) (d t : Nat) :
    s.recognise d t =
      if (s.haltOf d t && (s.tile d t).idle) || (s.tile d t).evt then s.raise F.wtPstat_preLost [d, t]
      else s.setTile d t { s.tile d t with evt := true } := by
  cases halted : s.haltOf d t && (s.tile d t).idle <;> simp [State.recognise, halted]

theorem exec_preemptionEvent_of_isolated (isolated : s.flag F.ftlFlask_iso [16 * d.val + flaskOfTile t] = true) :
    exec (.preemptionEvent d t) s = .next s :=
  if_neg (by simp [isolated])

theorem exec_preemptionEvent_of_enabled (enabled : (s.tile d t).lead.preFab = true) (held : s.held d = false)
    (runs : s.runs (16 + d.val) = true) (isolated : s.flag F.ftlFlask_iso [16 * d.val + flaskOfTile t] = false) :
    exec (.preemptionEvent d t) s = .next (s.recognise d t) :=
  if_pos (by simp [State.tileServed, enabled, held, runs, isolated])

/-- The tile after its last urgent slot, before its main schedule is read. -/
def State.returned (s : State) (d t : Nat) : State :=
  s.setTile d t { s.tile d t with urgent := .off, bank := false, ticksHeld := [], guard := true }

theorem State.tile_returned_pos (s : State) (d t : Nat) : ((s.returned d t).tile d t).pos = (s.tile d t).pos := by
  simp [State.returned]

section
variable (run : (s.tile d t).urgent = .run) (done : (s.tile d t).upos = none) (noTick : (s.tile d t).ticksHeld = [])
include run done noTick

theorem exec_urgentReturn_of_noPour (idle : (s.tile d t).pos = none) :
    exec (.urgentReturn d t) s = .next (s.returned d t) := by
  refine (if_pos (by simp [run, done])).trans ?_
  simp only [State.returned, noTick, List.foldl_nil, State.tile_setTile, idle]

/-- The main schedule resumes at the entry at which it stood. -/
theorem exec_urgentReturn_of_clean {p : SeqPos} {e : Nat} (stood : (s.tile d t).pos = some p)
    (clean : ((s.returned d t).die d).readCw t (cwSched p.entry) = .clean e) :
    exec (.urgentReturn d t) s = .next ((s.returned d t).loadMould d t (entryMould e)) := by
  have entry := State.fetchCw_of_clean clean
  refine (if_pos (by simp [run, done])).trans ?_
  simp only [State.returned, stood] at entry ⊢
  simp only [noTick, List.foldl_nil, State.tile_setTile, entry, beq_self_eq_true, if_true]

end

end

/-- Settles O6, each command in the branch that its guard takes. -/
theorem pourScrubAndPreemption : Obligations.PourScrubAndPreemption := by
  intro s d t x w
  refine ⟨exec_pourEnd_of_ended, fun _ => exec_mouldScrubRead_of_clean, fun _ _ _ => exec_mouldWriteback_of_free,
    exec_preemptionEvent_of_isolated, fun enabled held runs isolated => ?_, fun evt may slot off => ?_,
    fun run done noTick => ⟨fun idle => ?_, fun p e _ stood clean => exec_urgentReturn_of_clean run done noTick stood clean⟩⟩
  · rw [exec_preemptionEvent_of_enabled enabled held runs isolated, State.recognise_eq, apply_ite Host.Outcome.next]
  · have due : (x.evt && x.mayTake && !x.slot && x.urgent == .off) = true := by simp [evt, may, slot, off]
    exact if_pos due
  · exact exec_urgentReturn_of_noPour run done noTick ((s.tile_returned_pos d t).symm.trans idle)

end Sys2Proof.Machine
end

section
/-!
PROOFS. Every command goes on, and what no step breaks (R202, R434; O54, O55).
-/

namespace Sys2Proof.Machine

/-! ## Every meaning answers a next state -/

theorem goesOn_iff {o : Out} : goesOn o = true ↔ ∃ t, o = .next t := by
  cases o <;> simp [goesOn]

theorem goesOn_next (t : State) : goesOn (.next t) = true := rfl

theorem goesOn_ite {c : Prop} [Decidable c] {a b : Out} (ha : goesOn a = true) (hb : goesOn b = true) :
    goesOn (if c then a else b) = true := by
  split
  · exact ha
  · exact hb

/-- The walk goes on whatever the fetch of the sector answers (R421). -/
theorem goesOn_execRekeyWalkStep (r : Fin 64) (s : State) : goesOn (execRekeyWalkStep r s) = true := by
  unfold execRekeyWalkStep
  refine goesOn_ite rfl (goesOn_ite rfl ?_)
  split
  · rfl
  · refine goesOn_ite rfl ?_
    rcases s.fetchSector _ r _ _ 0 with ⟨got, u⟩
    cases got <;> rfl

/-- Each meaning is a tree of conditions and matches with a next state at every leaf. -/
theorem exec_goesOn (c : Instr) (s : State) : goesOn (exec c s) = true := by
  cases c with
  | rekeyWalkStep r => exact goesOn_execRekeyWalkStep r s
  | _ =>
    delta exec
    dsimp only
    try delta execCoreIoAccess execPowerOn execPowerOff execReferenceQualified execPllsLocked execTimebaseStart execHotResumeComplete
          execReferenceLost execRetentionMonitorExpiry execReferenceDriftFailed execTimebaseSyncMessage execTimebaseFreeRun
          execWatchdogExpiry execNop execClracc execTap execIllegalInstruction execPourEnd execMouldScrubRead execMouldWriteback
          execHalt execHaltRelease execDoorbell execPreemptionEvent execPreemptionTaken execUrgentReturn execMouldWrite
          execScheduleWrite execStagingWrite execFenceArm execFenceCancel execCellStoreAccess execCellStoreAccessDone
          execCellStateWrite execIngressBeat execEgressBeat execWtPcntRead execQueueWrite execQueueRead execQueueFlushRelease
          execDmaTransfer execDmaPartialFlit execDmaResponse execRiserSpillWrite execRiserRefillRead execRiserResponse execPublish
          execAcknowledge execHeldPublishRelease execBramScrubStep execMac24Operation execCrossingReceive execSpareTestDone
          execTransientParityFailure execHoldRequest execProbeSubstitute execLiveShift execFlitReceive execPacketShift
          execRouteDrainStart execRouteSwitch execWireCheckDone execHeaderReceived execChunkReceived execLoadClearDone
          execHostDeadlineExpiry execCrossingTrainingDone execStartUpSequence execStartupGsr execStartupIoen execStartupGwe
          execStartupDone execLegacyStartupEvent execCaptureTaken execFettlerFrameCheck execFrameRewriteDone execLegacyCaptureTrigger
          execLegacyGlobalSetReset execLegacyPinClockLost execLegacyPllRelock execNocRequestInject execRouterForward
          execResponseArrival execMasterTimeout execTagRelease execTargetTimeout execHistogramLevelSample execCorrectionWriteback
          execPatrolScrub execPowerDownEntry execCommandParityError execRepairComplete execRegionInitDone execSectorEviction
          execRotationComplete execLogEntryAccept execLogPersist execLanePinCheckDone execRxLock execLockLossTimeout
          execFallBackRequest execFallBackDetect execFallBackEnd execAdaptationEpoch execFecCodewordReceive execLaneWordRelease
          execTlpRead execTlpWrite execGovernorWindowEnd execSequencerRaiseStart execSequencerFrequencySwitch
          execSequencerStepComplete execTagDrainComplete execSmbusReadTemperature execSmbusReadPower execSmbusReadStatus execSmbusWake
          execSmbusFirmwareCommand execSensorSample execAgeingMeasurement execMcRestart execLockRead execLockRelease
          execMailboxTimeout execForce execLogService execAttestation execCertificateChain execDeviceNonce execKeyWrite
          execStagingComplete execTrialTimerExpiry execCoreBoot execTriggerHit execDmi execBypass execDebugHalt execDebugResume
          execAbstractRegisterAccess execAbstractMemoryAccess execSystemBusAccess execUnlockCheckDone execBankVccoChange execPinFault
          execRegisterWrite execLossOfLock execHostLinkStateChange execTrainingComplete execFlipFlopClockEdge
    repeat' first | with_reducible exact goesOn_next _ | with_reducible apply goesOn_ite | split | dsimp only | exact goesOn_next _

/-! ## Every step keeps the canonical form -/

theorem Canonical.sound {s : State} (h : Canonical s) : Sound s s := by
  obtain ⟨regs, mem, units, held⟩ := h
  exact ⟨regs, mem, units, held, rfl, List.prefix_refl _, Nat.le_refl _⟩

theorem Sound.canonical {was s : State} (h : Sound was s) : Canonical s := ⟨h.regs, h.mem, h.units, h.held⟩

/-- The canonical form says nothing of the waiting commands. -/
theorem Canonical.requeue {s : State} (h : Canonical s) (l : List Instr) : Canonical { s with pending := l } := h

theorem exec_sound_of_next {c : Instr} {s t : State} (h : Canonical s) (he : exec c s = .next t) : Sound s t :=
  (exec_sound h.sound).of he

/-- An idle step may queue commands; what it keeps otherwise. -/
theorem idle_sound_of_canonical {s : State} (h : Canonical s) : ∃ l, Sound { s with pending := l } (idle s) := idle_sound h.sound

/-- Settles O54: the branches of each meaning, and `Sound`, which every meaning and the idle step keep. -/
theorem everyCommandGoesOn : Obligations.EveryCommandGoesOn := by
  refine ⟨fun c s => goesOn_iff.mp (exec_goesOn c s), fun c s t h he => ?_, fun s h hp => ?_⟩
  · have sound := exec_sound_of_next h he
    exact ⟨sound.queue, sound.out⟩
  · obtain ⟨l, sound⟩ := idle_sound_of_canonical h
    exact ⟨idle s, step_idle hp, sound.out⟩

/-- Settles O55: by the command at the front of the queue, or the idle step where none waits. -/
theorem stepKeepsForm : Obligations.StepKeepsForm := by
  intro s t h hstep
  cases hp : s.pending with
  | nil =>
    obtain ⟨l, sound⟩ := idle_sound_of_canonical h
    obtain rfl : idle s = t := Host.Outcome.next.inj ((step_idle hp).symm.trans hstep)
    exact sound.canonical
  | cons c rest => exact (exec_sound_of_next (h.requeue rest) ((commandAtFront s c rest hp).symm.trans hstep)).canonical

end Sys2Proof.Machine
end

section
/-!
PROOFS. Result slots: publishes, acknowledges, held publishes and the slot policy (R199 to R205, R367; O9, O10).
-/

namespace Sys2Proof.Machine

/-! ## What a publish comes to (R200, R202, R367) -/

section
variable {s : State} {r : Req} {i : Nat}

theorem exec_publish_at (h : slotOf r.addr.toNat = some (i, 0)) (hlen : r.len = 64) (hdata : r.data.length = 64) :
    exec (.publish r) s = .next (s.publishAt i r) := by
  change execPublish r s = _
  simp [execPublish, h, hlen, hdata]

theorem State.publishAt_of_disabled (h : s.flag F.rslPol_en [i] = false) : s.publishAt i r = s.respond r .aerr :=
  if_pos (by simp [h])

variable (hen : s.flag F.rslPol_en [i] = true)
include hen

theorem State.publishAt_of_overwriting (hpol : s.flag F.rslPol_pol [i] = true) (hpar : r.badPar = []) :
    s.publishAt i r = (s.storePublish i r.data).respond r .ok := by
  simp [State.publishAt, hen, hpol, hpar]

variable (hpol : s.flag F.rslPol_pol [i] = false) (hwait : ((s.slot i).valid || s.hasHeld i) = true)
include hpol hwait

theorem State.publishAt_of_room (hroom : s.heldPubs.length < 64) (hpar : r.badPar = []) :
    s.publishAt i r = { s with heldPubs := s.heldPubs ++ [⟨i, r⟩] } := by
  unfold State.publishAt
  rw [if_neg (by simp [hen]), if_neg (by simp [hpol]), if_pos hwait, if_neg (Nat.not_le.mpr hroom), if_pos (by simp [hpar])]

theorem State.publishAt_of_table_full (hfull : 64 ≤ s.heldPubs.length) :
    s.publishAt i r = (s.raise F.rslStat_pendFull []).respond r .retry := by
  unfold State.publishAt
  rw [if_neg (by simp [hen]), if_neg (by simp [hpol]), if_pos hwait, if_pos hfull]

end

/-! ## What an acknowledge comes to (R201) -/

section
variable {s : State} {r : Req} {i : Nat}

theorem exec_acknowledge_at (h : slotOf r.addr.toNat = some (i, 56)) (hlen : r.len = 4) (hdata : r.data.length = 4) :
    exec (.acknowledge r) s = .next (s.ackAt i r) := by
  change execAcknowledge r s = _
  simp [execAcknowledge, h, hlen, hdata]

variable (hpar : r.badPar = [])
include hpar

theorem State.ackAt_of_current (hvalid : (s.slot i).valid = true) (hseq : leNat r.data = (s.slot i).seq.toNat) :
    s.ackAt i r = (s.setSlot i { s.slot i with valid := false, lost := false }).respond r .ok := by
  simp [State.ackAt, hpar, hvalid, hseq]

theorem State.ackAt_of_stale (h : ¬ ((s.slot i).valid = true ∧ leNat r.data = (s.slot i).seq.toNat)) :
    s.ackAt i r = (s.raise F.rslStat_stale []).respond r .ok := by
  unfold State.ackAt
  rw [if_neg (by simp [hpar])]
  exact if_neg (by simpa using h)

end

/-! ## One slot and its frame -/

theorem State.slot_setSlot_ne (s : State) {i j : Nat} (x : Slot) (h : j ≠ i) : (s.setSlot i x).slot j = s.slot j :=
  SMap.get_set_ne _ _ _ h

/-- A slot's write and its response leave all but the slots and what has left the block. -/
theorem State.setSlot_respond_frame (s : State) (i : Nat) (x : Slot) (r : Req) (c : Resp) :
    ({ (s.setSlot i x).respond r c with slots := s.slots, outbox := s.outbox } : State) = s := rfl

/-- Settles O9. -/
theorem resultSlotCommands : Obligations.ResultSlotCommands := by
  intro s r i hpar
  refine ⟨fun h hlen hdata hen => ?_, fun h hlen hdata hen hpol => ?_, fun h hlen hdata => ⟨fun hvalid hseq => ?_, fun hstale => ?_⟩⟩
  · rw [exec_publish_at h hlen hdata, State.publishAt_of_disabled hen]
  · refine ⟨_, exec_publish_at h hlen hdata, ?_⟩
    rw [State.publishAt_of_overwriting hen hpol hpar, State.storePublish]
    have stored (x : Slot) : ((s.setSlot i x).respond r .ok).slot i = x := s.slot_setSlot i x
    rw [stored]
    exact ⟨rfl, rfl, rfl, rfl, fun j => s.slot_setSlot_ne _, s.setSlot_respond_frame i _ r .ok, rfl⟩
  · refine ⟨_, exec_acknowledge_at h hlen hdata, ?_⟩
    rw [State.ackAt_of_current hpar hvalid hseq]
    exact ⟨s.slot_setSlot i _, fun j => s.slot_setSlot_ne _, s.setSlot_respond_frame i _ r .ok, rfl⟩
  · rw [exec_acknowledge_at h hlen hdata, State.ackAt_of_stale hpar hstale]

/-! ## Held publishes (R202) and the slot policy (R205) -/

/-- The oldest held publish of a slot leaves the table and takes effect. -/
theorem exec_heldPublishRelease_of_held {s : State} {k : Fin 4096} {h : HeldPub} (hvalid : (s.slot k).valid = false)
    (hfind : s.heldPubs.find? (fun p => p.slot == k.val) = some h) :
    exec (.heldPublishRelease k) s =
      .next ((({ s with heldPubs := s.heldPubs.erase h } : State).storePublish k h.req.data).respond h.req .ok) := by
  change execHeldPublishRelease k s = _
  simp [execHeldPublishRelease, hvalid, hfind]

section
variable {pre post : List HeldPub} {h : HeldPub} {k : Nat} (hslot : h.slot = k) (holder : ∀ p ∈ pre, p.slot ≠ k)
include hslot holder

theorem find?_oldest_held : (pre ++ h :: post).find? (fun p => p.slot == k) = some h := by
  have none_before : pre.find? (fun p => p.slot == k) = none := List.find?_eq_none.mpr (by simpa using holder)
  simp [List.find?_append, none_before, hslot]

theorem erase_oldest_held : (pre ++ h :: post).erase h = pre ++ post := by
  rw [List.erase_append_right _ fun hp => holder h hp hslot, List.erase_cons_head]

end

section
variable {s : State} {i : Nat} {w : Word32}

theorem State.slotPolicy_of_disabling (hen : (s.writeReg .rslPol [i] w).flag F.rslPol_en [i] = false) :
    s.slotPolicy i w = (s.writeReg .rslPol [i] w).flushHeld i fun h u => u.respond h.req .aerr :=
  if_pos (by simp [hen])

/-- A slot whose policy was already to overwrite holds no publish to release. -/
theorem State.slotPolicy_of_overwriting (hen : (s.writeReg .rslPol [i] w).flag F.rslPol_en [i] = true)
    (hpol : s.flag F.rslPol_pol [i] = true) : s.slotPolicy i w = s.writeReg .rslPol [i] w :=
  (if_neg (by simp [hen])).trans (if_neg (by simp [hpol]))

end

/-- A write whose register clock stands waits with its requester (R19). -/
theorem State.regAct_of_waits {s : State} {n : RegName} (h : s.regWaits n = true) (q : Src) (i : List Nat) (w : Word32)
    (f : State → State) : s.regAct q n i w f = (s.defer q (regAddr n i) w).answer q .ok := by
  simp [State.regAct, h]

theorem exec_resultPolicyWrite {s : State} (h : s.regWaits .rslPol = false) (src : Src) (k : Fin 4096) (w : Word32) :
    exec (.resultPolicyWrite src k w) s = .next ((s.slotPolicy k w).answer src .ok) :=
  congrArg Host.Outcome.next (State.regAct_of_not_waits h ..)

/-- Settles O10. -/
theorem heldPublishes : Obligations.HeldPublishes := by
  intro s r i k src w
  refine ⟨fun h hlen hdata hen hpol hvalid => ⟨fun hroom hpar => ?_, fun hfull => ?_⟩,
    fun h pre post hvalid hsplit hslot holder => ?_, fun hw => ?_, fun hw hen => ?_, fun hw hen hpol => ?_⟩
  · rw [exec_publish_at h hlen hdata, State.publishAt_of_room hen hpol (by simp [hvalid]) hroom hpar]
  · rw [exec_publish_at h hlen hdata, State.publishAt_of_table_full hen hpol (by simp [hvalid]) hfull]
  · rw [exec_heldPublishRelease_of_held hvalid (hsplit ▸ find?_oldest_held hslot holder), hsplit, erase_oldest_held hslot holder,
      State.storePublish]
    have unlost : ((s.slot k).lost || (s.slot k).valid) = (s.slot k).lost := by simp [hvalid]
    exact congrArg (fun lost => Host.Outcome.next ((({ s with heldPubs := pre ++ post } : State).setSlot k
      ⟨h.req.data.take 56, nextSeq (s.slot k).seq, true, lost⟩).respond h.req .ok)) unlost
  · exact congrArg Host.Outcome.next (State.regAct_of_waits hw ..)
  · rw [exec_resultPolicyWrite hw, State.slotPolicy_of_disabling hen]
    rfl
  · rw [exec_resultPolicyWrite hw, State.slotPolicy_of_overwriting hen hpol]

end Sys2Proof.Machine
end

section
/-!
PROOFS. Stream queues: beats in and out, flush, configuration and the register ports (R172 to R178, R182 to R185, R192; O11, O12).
-/

namespace Sys2Proof.Machine

/-- Two registers with the same copies lie at different addresses in each copy. -/
theorem regAddr_ne_of_base {m n : RegName} (hs : m.desc.strides = n.desc.strides) (hb : m.desc.base ≠ n.desc.base) (i : List Nat) :
    regAddr m i ≠ regAddr n i := by
  simp [regAddr, hs, hb]

/-! ## A queue that keeps its beats in block RAM -/

/-- Of two writes to a queue, each with beats stored, the second stands. -/
theorem State.setQueue_setQueue (s : State) (d q : Nat) {x y : QueueSt} (hx : x.beats ≠ []) (hy : y.beats ≠ []) :
    (s.setQueue d q x).setQueue d q y = s.setQueue d q y := by
  have listed {z : QueueSt} (h : z.beats ≠ []) : z ≠ default := fun e => h (congrArg QueueSt.beats e)
  simp [State.setQueue, SMap.set, listed hx, listed hy, SMap.insert_insert]

section
variable {s : State} {d q : Nat}

@[simp] theorem State.sqRiser_setQueue (x : QueueSt) : (s.setQueue d q x).sqRiser d q = x.rslot.isSome := by
  simp [State.sqRiser]

variable (hram : s.sqRiser d q = false)
include hram

theorem State.rslot_of_ram : (s.queue d q).rslot = none := Option.isSome_eq_false_iff.mp hram |> Option.isNone_iff_eq_none.mp

theorem State.riserPass_of_ram : s.riserPass d q = s := by
  simp [State.riserPass, hram]

theorem State.sqFull_of_ram (hflush : (s.queue d q).flushing = false)
    (hroom : (s.queue d q).beats.length + (s.queue d q).unseenR < s.sqDepth d q) : s.sqFull d q = false := by
  simp [State.sqFull, hram, hflush, hroom]

/-! ## A beat offered (R172, R177, R178) -/

section
variable {b : Beat} (hen : s.sqEn d q = true) (hflush : (s.queue d q).flushing = false)
  (hroom : (s.queue d q).beats.length + (s.queue d q).unseenR < s.sqDepth d q) (hpar : b.parOk = true)
include hen hflush hroom hpar

/-- Outside packet mode a beat goes to the end of the queue. -/
theorem State.sqOffer_of_stream (hpkt : s.sqPkt d q = false) :
    s.sqOffer d q b false =
      (.taken, s.setQueue d q { s.queue d q with beats := (s.queue d q).beats ++ [b], unseenW := (s.queue d q).unseenW + 1 }) := by
  have hfull := State.sqFull_of_ram hram hflush hroom
  have rslot := State.rslot_of_ram hram
  simp [State.sqOffer, hen, hflush, hpkt, hfull, hpar, State.sqStore, hram, rslot, State.setQueue_setQueue, State.riserPass_of_ram]

variable (hpkt : s.sqPkt d q = true) (hdrop : (s.queue d q).dropping = false)
include hpkt hdrop

/-- In packet mode a bad beat drops the open packet (R178). -/
theorem State.sqOffer_of_bad : s.sqOffer d q b true = (.taken, s.sqMarkBad d q b.last) := by
  have hfull := State.sqFull_of_ram hram hflush hroom
  simp [State.sqOffer, hen, hflush, hpkt, hdrop, hfull, hpar]

/-- The last beat of a packet commits all stored beats (R177). -/
theorem State.sqOffer_of_last (hlast : b.last = true) :
    s.sqOffer d q b false =
      let x := s.queue d q
      (.taken, s.setQueue d q { x with
        beats := x.beats ++ [b], commit := x.beats.length + 1, open_ := false
        unseenW := x.unseenW + (x.beats.length + 1 - x.commit) }) := by
  have hfull := State.sqFull_of_ram hram hflush hroom
  have rslot := State.rslot_of_ram hram
  simp [State.sqOffer, hen, hflush, hpkt, hdrop, hfull, hpar, hlast, State.sqStore, State.sqStored, hram, rslot,
    State.setQueue_setQueue, State.riserPass_of_ram]

/-- Another beat opens the packet (R177), while the queue can still hold it (R179). -/
theorem State.sqOffer_of_open (hlast : b.last = false) (hcap : (s.queue d q).beats.length + 1 < s.sqDepth d q + (s.queue d q).commit) :
    s.sqOffer d q b false =
      (.taken, s.setQueue d q { s.queue d q with beats := (s.queue d q).beats ++ [b], open_ := true }) := by
  have hfull := State.sqFull_of_ram hram hflush hroom
  have rslot := State.rslot_of_ram hram
  have fits : ¬ s.sqDepth d q ≤ (s.queue d q).beats.length + 1 - (s.queue d q).commit := by omega
  have depth (x : QueueSt) : (s.setQueue d q x).sqDepth d q = s.sqDepth d q := rfl
  simp [State.sqOffer, hen, hflush, hpkt, hdrop, hfull, hpar, hlast, State.sqStore, State.sqStored, State.sqCap, hram, rslot,
    State.setQueue_setQueue, State.riserPass_of_ram, depth, fits]

end

/-- In packet mode a bad beat returns the write pointer to the commit pointer (R178). -/
theorem State.sqMarkBad_of_ram (last : Bool) :
    s.sqMarkBad d q last =
      let y := (s.queue d q).keep (s.sqDepth d q) (s.queue d q).commit
      ((s.raise F.waSqStat_rewound [d, q]).setQueue d q y).setQueue d q { y with dropping := !last, open_ := !last } := by
  have ram : (s.raise F.waSqStat_rewound [d, q]).sqRiser d q = false := hram
  have depth : (s.raise F.waSqStat_rewound [d, q]).sqDepth d q = s.sqDepth d q :=
    congrArg (1024 * 2 ^ ·) (s.get_put_ne (g := F.waSqCfg_depth) 1
      (regAddr_ne_of_base (m := .waSqCfg) (n := .waSqStat) rfl (by decide) [d, q]))
  simp [State.sqMarkBad, State.sqRewind, ram, depth]

end

/-- A disabled queue takes nothing (R172). -/
theorem State.sqOffer_of_disabled {s : State} {d q : Nat} (h : s.sqEn d q = false) (b : Beat) (bad : Bool) :
    s.sqOffer d q b bad = (.disabled, s) := if_pos (by simp [h])

/-! ## A beat taken (R173, R174) -/

theorem State.sqTake_of_empty {s : State} {d q : Nat} (h : s.sqVisible d q = 0) : s.sqTake d q = (none, s) := if_pos (by simp [h])

section
variable {s : State} {d q : Nat} {b : Beat} {rest : List Beat} (hen : s.sqEn d q = true) (hvis : 0 < s.sqVisible d q)
  (hbeats : (s.queue d q).beats = b :: rest)
include hen hvis hbeats

theorem State.sqTake_of_visible (hram : s.sqRiser d q = false) (hpar : b.parOk = true) :
    s.sqTake d q =
      let x := s.queue d q
      (some b, s.setQueue d q { x.pop (s.sqDepth d q) with commit := x.commit - 1, unseenR := x.unseenR + 1 }) := by
  have rslot := State.rslot_of_ram hram
  have popped : ((s.queue d q).pop (s.sqDepth d q)).rslot = none := by simp [QueueSt.pop, hbeats, rslot]
  simp [State.sqTake, hen, hvis.ne', hbeats, hpar, hram, popped, State.riserPass_of_ram]

theorem State.sqHead_of_visible : s.sqHead d q = some b := by
  simp [State.sqHead, hen, hvis.ne', hbeats]

end

/-! ## QUEUE_WRITE and QUEUE_READ (R182) -/

section
variable {s : State} {d : Fin 4} {q : Fin 64} (hfab : s.sqFabric d q = true)
include hfab

theorem exec_queueWrite_of_offer (hdir : s.egress d q = false) {b : Beat} {bad : Bool} {o : Offer × State}
    (h : s.sqOffer d q { b with err := false } bad = o) : exec (.queueWrite d q b bad) s = .next o.2 :=
  (if_pos (by simp [hfab, hdir])).trans (congrArg (fun o => Host.Outcome.next o.2) h)

variable (hdir : s.egress d q = true)
include hdir

theorem exec_queueRead_of_none {u : State} (h : s.sqTake d q = (none, u)) : exec (.queueRead d q) s = .next u := by
  refine (if_pos (by simp [hfab, hdir])).trans ?_
  rw [h]

theorem exec_queueRead_of_some {b : Beat} {u : State} (h : s.sqTake d q = (some b, u)) :
    exec (.queueRead d q) s = .next (u.emit (.beat d q b (b.err || !b.parOk))) := by
  refine (if_pos (by simp [hfab, hdir])).trans ?_
  rw [h]

end

/-- Settles O11. -/
theorem queueBeats : Obligations.QueueBeats := by
  intro s d q b x c
  refine ⟨fun hfab hdir => ⟨fun hen => ?_, fun hen hram hflush hroom hpar => ⟨fun hpkt => ?_, fun hpkt hdrop => ⟨fun hlast => ?_,
    fun hlast hcap => ?_, ?_⟩⟩⟩, fun hfab hdir => ⟨fun hvis => ?_, fun rest hen hram hvis hbeats hpar => ?_⟩⟩
  · exact exec_queueWrite_of_offer hfab hdir (State.sqOffer_of_disabled hen c false)
  · exact exec_queueWrite_of_offer hfab hdir (State.sqOffer_of_stream hram hen hflush hroom hpar hpkt)
  · exact exec_queueWrite_of_offer hfab hdir (State.sqOffer_of_last hram hen hflush hroom hpar hpkt hdrop hlast)
  · exact exec_queueWrite_of_offer hfab hdir (State.sqOffer_of_open hram hen hflush hroom hpar hpkt hdrop hlast hcap)
  · have offered : s.sqOffer d q c true = (.taken, s.sqMarkBad d q b.last) :=
      State.sqOffer_of_bad hram hen hflush hroom hpar hpkt hdrop
    rw [exec_queueWrite_of_offer hfab hdir offered, State.sqMarkBad_of_ram hram]
  · exact exec_queueRead_of_none hfab hdir (State.sqTake_of_empty hvis)
  · rw [exec_queueRead_of_some hfab hdir (State.sqTake_of_visible hen hvis hbeats hram hpar), hpar, Bool.not_true, Bool.or_false]

/-! ## Flush and its release (R176, R195, R197) -/

section
variable {s : State} {d : Fin 4} {q : Fin 64}

theorem exec_queueFlush (h : s.regWaits .waSqCfg = false) (src : Src) :
    exec (.queueFlush src d q) s = .next ((s.sqFlush d q).answer src .ok) :=
  congrArg Host.Outcome.next (State.regAct_of_not_waits h ..)

theorem exec_queueFlushRelease_of_not_flushing (h : (s.queue d q).flushing = false) : exec (.queueFlushRelease d q) s = .next s :=
  if_neg (by simp [h])

section
variable (h : (s.queue d q).flushing = true)
include h

theorem exec_queueFlushRelease_of_ram (hr : (s.queue d q).rslot = none) :
    exec (.queueFlushRelease d q) s =
      .next (s.setQueue d q { (default : QueueSt) with old := ((s.queue d q).keep (s.sqDepth d q) 0).old }) := by
  refine (if_pos h).trans ?_
  simp only [hr]

theorem exec_queueFlushRelease_of_riser {i : Nat} (hr : (s.queue d q).rslot = some i) :
    exec (.queueFlushRelease d q) s =
      .next ((s.setQueue d q { (default : QueueSt) with old := (s.queue d q).old, rslot := some i }).emptyRiser d i) := by
  refine (if_pos h).trans ?_
  simp only [hr]

end

/-! ## WA_SQn_CFG (R172, R192) -/

theorem exec_queueConfigWrite (h : s.regWaits .waSqCfg = false) (src : Src) (w : Word32) :
    exec (.queueConfigWrite src d q w) s = .next ((s.sqConfig d q w).answer src .ok) :=
  congrArg Host.Outcome.next (State.regAct_of_not_waits h ..)

end

/-- The settings that a write gives a disabled queue. -/
def State.sqSettings (s : State) (d q : Nat) (w : Word32) : State :=
  (((s.put F.waSqCfg_afull [d, q] (F.waSqCfg_afull.of w)).put F.waSqCfg_pkt [d, q] (F.waSqCfg_pkt.of w)).put
    F.waSqCfg_riser [d, q] (F.waSqCfg_riser.of w)).put F.waSqCfg_rslot [d, q] (F.waSqCfg_rslot.of w)

section
variable {s : State} {d q : Nat} {w : Word32} (hflush : F.waSqCfg_flush.of w = 0)
include hflush

/-- At an enabled queue only the almost-full level and the enable change; a change of the other settings sets cfg_err (R172). -/
theorem State.sqConfig_of_enabled (hen : s.sqEn d q = true) :
    s.sqConfig d q w =
      let s1 := s.put F.waSqCfg_afull [d, q] (F.waSqCfg_afull.of w)
      let s2 := if F.waSqCfg_pkt.of w = s.get F.waSqCfg_pkt [d, q] ∧ F.waSqCfg_riser.of w = s.get F.waSqCfg_riser [d, q] ∧
        F.waSqCfg_rslot.of w = s.get F.waSqCfg_rslot [d, q] then s1 else s1.raise F.waSqStat_cfgErr [d, q]
      if F.waSqCfg_en.of w = 0 then s2.put F.waSqCfg_en [d, q] 0 else s2 := by
  by_cases keeps : F.waSqCfg_pkt.of w = s.get F.waSqCfg_pkt [d, q] ∧ F.waSqCfg_riser.of w = s.get F.waSqCfg_riser [d, q] ∧
      F.waSqCfg_rslot.of w = s.get F.waSqCfg_rslot [d, q]
  · simp [State.sqConfig, hen, hflush, keeps]
  · have changes : (F.waSqCfg_pkt.of w != s.get F.waSqCfg_pkt [d, q] || F.waSqCfg_riser.of w != s.get F.waSqCfg_riser [d, q] ||
        F.waSqCfg_rslot.of w != s.get F.waSqCfg_rslot [d, q]) = true := by
      rw [← Bool.not_eq_false]
      simpa [and_assoc] using keeps
    simp only [State.sqConfig, hen, hflush, changes, keeps]
    rfl

variable (hen : s.sqEn d q = false) (hw : F.waSqCfg_en.of w = 1)
include hen hw

/-- A write that enables a queue takes its settings first, then judges whether it may be enabled. -/
theorem State.sqConfig_of_enabling :
    s.sqConfig d q w =
      let s1 := s.sqSettings d q w
      if s1.held d || (s1.sqNamed d q).any (fun i => !s1.riserOk d q i) then s1.raise F.waSqStat_cfgErr [d, q]
      else s1.sqEnable d q := by
  simp only [State.sqConfig, hen, hw, hflush]
  rfl

theorem State.sqConfig_of_refused (h : (s.sqSettings d q w).held d = true ∨
    ∃ i, (s.sqSettings d q w).sqNamed d q = some i ∧ (s.sqSettings d q w).riserOk d q i = false) :
    s.sqConfig d q w = (s.sqSettings d q w).raise F.waSqStat_cfgErr [d, q] := by
  refine (State.sqConfig_of_enabling hflush hen hw).trans (if_pos (Bool.or_eq_true_iff.mpr (h.imp_right ?_)))
  rintro ⟨i, hnamed, hok⟩
  simp [hnamed, hok]

theorem State.sqConfig_of_allowed (hheld : (s.sqSettings d q w).held d = false)
    (hok : ∀ i, (s.sqSettings d q w).sqNamed d q = some i → (s.sqSettings d q w).riserOk d q i = true) :
    s.sqConfig d q w = (s.sqSettings d q w).sqEnable d q := by
  refine (State.sqConfig_of_enabling hflush hen hw).trans (if_neg ?_)
  cases hnamed : (s.sqSettings d q w).sqNamed d q with
  | none => simp [hheld]
  | some i => simp [hheld, hok i hnamed]

end

/-- A queue whose storage stays is enabled with its contents, at the start of a packet (R192). -/
theorem State.sqEnable_of_same {s : State} {d q : Nat} (h : (s.queue d q).rslot = s.sqNamed d q) :
    s.sqEnable d q = (s.put F.waSqCfg_en [d, q] 1).setQueue d q { s.queue d q with dropping := false, open_ := false } := if_pos h

/-- A queue that changes its storage starts empty (log entry 100). -/
theorem State.queue_sqEnable_of_other {s : State} {d q : Nat} (h : (s.queue d q).rslot ≠ s.sqNamed d q) :
    ((s.sqEnable d q).queue d q).beats = [] ∧ ((s.sqEnable d q).queue d q).rslot = s.sqNamed d q := by
  unfold State.sqEnable
  simp only [if_neg h, State.queue_setQueue, and_true]
  rfl

/-! ## The register ports (R184, R185) -/

theorem exec_queueRegisterPop (s : State) (src : Src) (d : Fin 4) (q : Fin 64) :
    exec (.queueRegisterPop src d q) s = .next ((s.sqPop src d q).2.answerWord src (s.sqPop src d q).1) := rfl

theorem State.sqPop_of_egress {s : State} {d q : Nat} (src : Src) (hattach : s.get F.waSqCfg_attach [d, q] = 2)
    (hdir : s.egress d q = true) :
    s.sqPop src d q = (s.sqRdWord d q 3, if src.peeks then s else (s.sqTake d q).2) := by
  cases h : src.peeks <;> simp [State.sqPop, hattach, hdir, h]

theorem exec_queueRegisterPush (s : State) (src : Src) (d : Fin 4) (q : Fin 64) (w : Word32) :
    exec (.queueRegisterPush src d q w) s = .next ((s.sqPush d q w).2.answer src (s.sqPush d q w).1) := rfl

section
variable {s : State} {d q : Nat} {w : Word32}

theorem State.sqPush_of_not_writable (h : s.sqWritable d q = false) : s.sqPush d q w = (.aerr, s) := if_pos (by simp [h])

theorem State.sqPush_of_full (h : s.sqWritable d q = true) (hfull : s.sqFull d q = true)
    (hkeeps : s.sqPkt d q = false ∨ (s.queue d q).dropping = false ∨ (s.queue d q).flushing = true) :
    s.sqPush d q w = (.retry, s) := by
  refine (if_neg (by simp [h])).trans (if_pos ?_)
  rcases hkeeps with hk | hk | hk <;> simp [hfull, hk]

theorem State.sqPush_of_room (h : s.sqWritable d q = true) (hfull : s.sqFull d q = false) :
    s.sqPush d q w =
      let data : BitVec 128 := w ++ s.reg .waSqWr [d, q, 2] ++ s.reg .waSqWr [d, q, 1] ++ s.reg .waSqWr [d, q, 0]
      (.ok, (((s.setReg .waSqWr [d, q, 3] w).setReg .waSqWrctl [d, q] 0#32).sqOffer d q
        ⟨data, parOf16 data, s.flag F.waSqWrctl_last [d, q], false⟩ (s.flag F.waSqWrctl_bad [d, q])).2) :=
  (if_neg (by simp [h])).trans (if_neg (by simp [hfull]))

end

/-- Settles O12, command by command (log entry 100 for what a queue keeps when its storage changes). -/
theorem queueRegisterCommands : Obligations.QueueRegisterCommands := by
  intro s src d q w x
  refine ⟨fun hw => exec_queueFlush hw src, exec_queueFlushRelease_of_not_flushing,
    fun hflush => ⟨exec_queueFlushRelease_of_ram hflush, fun i => exec_queueFlushRelease_of_riser hflush⟩,
    fun hw hflush hen => ?_, fun hw hflush hen henw => ⟨fun hbad => ?_, fun hheld hok => ⟨fun hsame => ?_, fun hother => ?_⟩⟩,
    fun b rest hattach hdir hen hvis hbeats => ?_, fun h => ?_, fun h hfull hkeeps => ?_, fun h hfull => ?_⟩
  · rw [exec_queueConfigWrite hw, State.sqConfig_of_enabled hflush hen]
  · rw [exec_queueConfigWrite hw, State.sqConfig_of_refused hflush hen henw hbad]
    rfl
  · rw [exec_queueConfigWrite hw, State.sqConfig_of_allowed hflush hen henw hheld hok, State.sqEnable_of_same hsame]
    rfl
  · refine ⟨_, exec_queueConfigWrite hw src w, ?_⟩
    rw [State.sqConfig_of_allowed hflush hen henw hheld hok]
    exact State.queue_sqEnable_of_other hother
  · rw [exec_queueRegisterPop, State.sqPop_of_egress src hattach hdir, State.sqRdWord, State.sqHead_of_visible hen hvis hbeats]
  · rw [exec_queueRegisterPush, State.sqPush_of_not_writable h]
  · rw [exec_queueRegisterPush, State.sqPush_of_full h hfull hkeeps]
  · rw [exec_queueRegisterPush, State.sqPush_of_room h hfull]

end Sys2Proof.Machine
end

section
/-!
PROOFS. Stream DMA channels (R186 to R189, R191; O14).
-/

namespace Sys2Proof.Machine

/-! ## DMA_RUN (R186 to R188) -/

theorem exec_dmaRun {s : State} (h : s.regWaits .waDmCtrl = false) (src : Src) (d : Fin 4) (q : Fin 64) (w : Word32) :
    exec (.dmaRun src d q w) s = .next ((s.dmaControl d q (w ||| 0x80000000#32)).answer src .ok) :=
  congrArg Host.Outcome.next (State.regAct_of_not_waits h ..)

/-- The control word of a channel after a write, with run still 0. -/
def State.dmaWord (s : State) (d q : Nat) (w : Word32) : State :=
  s.setReg .waDmCtrl [d, q] (F.waDmCtrl_run.put (writeFields (RegName.desc .waDmCtrl).fields (s.reg .waDmCtrl [d, q]) w) 0)

section
variable {s : State} {d q : Nat} {w : Word32} (hlo : 12 ≤ F.waDmCtrl_size.of w) (hhi : F.waDmCtrl_size.of w ≤ 30)
  (hrun : F.waDmCtrl_run.of w = 1) (hwas : s.flag F.waDmCtrl_run [d, q] = false)
include hlo hhi hrun hwas

/-- A legal write with run 1 at a channel that does not run. -/
theorem State.dmaControl_of_start :
    s.dmaControl d q w =
      let s1 := s.dmaWord d q w
      if !(s1.sqEn d q && s1.get F.waSqCfg_attach [d, q] == 1) then
        (s1.raise F.waSqStat_cfgErr [d, q]).put F.waDmCtrl_run [d, q] 0
      else if s1.ringBase d q % s1.ringSize d q ≠ 0 then
        (s1.raise F.waDmCtrl_err [d, q]).put F.waDmCtrl_resp [d, q] Resp.aerr.code
      else
        let s2 := s1.raise F.waDmCtrl_run [d, q]
        let p := if s2.egress d q then s2.ringTail d q else s2.ringHead d q
        s2.setDma d q ⟨[], if s2.egress d q then none else (s.dmaCh d q).pktLeft, p, p⟩ := by
  have legal : 12 ≤ F.waDmCtrl_size.of w ∧ F.waDmCtrl_size.of w ≤ 30 := ⟨hlo, hhi⟩
  have runs : ¬ F.waDmCtrl_run.of w = 0 := by omega
  simp only [State.dmaControl, if_pos legal, hwas, if_neg runs]
  rfl

theorem State.dmaControl_of_no_queue (h : (s.dmaWord d q w).sqEn d q = false ∨ (s.dmaWord d q w).get F.waSqCfg_attach [d, q] ≠ 1) :
    s.dmaControl d q w = ((s.dmaWord d q w).raise F.waSqStat_cfgErr [d, q]).put F.waDmCtrl_run [d, q] 0 := by
  refine (State.dmaControl_of_start hlo hhi hrun hwas).trans (if_pos ?_)
  rcases h with h | h <;> simp [h]

variable (hen : (s.dmaWord d q w).sqEn d q = true) (hattach : (s.dmaWord d q w).get F.waSqCfg_attach [d, q] = 1)
include hen hattach

theorem State.dmaControl_of_unaligned (h : (s.dmaWord d q w).ringBase d q % (s.dmaWord d q w).ringSize d q ≠ 0) :
    s.dmaControl d q w = ((s.dmaWord d q w).raise F.waDmCtrl_err [d, q]).put F.waDmCtrl_resp [d, q] 4 :=
  (State.dmaControl_of_start hlo hhi hrun hwas).trans ((if_neg (by simp [hen, hattach])).trans (if_pos h))

theorem State.dmaControl_of_aligned (h : (s.dmaWord d q w).ringBase d q % (s.dmaWord d q w).ringSize d q = 0) :
    s.dmaControl d q w =
      let s2 := (s.dmaWord d q w).raise F.waDmCtrl_run [d, q]
      let p := if s2.egress d q then s2.ringTail d q else s2.ringHead d q
      s2.setDma d q ⟨[], if s2.egress d q then none else (s.dmaCh d q).pktLeft, p, p⟩ :=
  (State.dmaControl_of_start hlo hhi hrun hwas).trans ((if_neg (by simp [hen, hattach])).trans (if_neg (not_not.mpr h)))

end

/-! ## DMA_TRANSFER and DMA_PARTIAL_FLIT (R189) -/

section
variable {s : State} {d : Fin 4} {q : Fin 64}

theorem exec_dmaTransfer_of_inactive (h : s.dmaActive d q = false) : exec (.dmaTransfer d q) s = .next s := by
  change execDmaTransfer d q s = _
  unfold execDmaTransfer
  split
  · rfl
  · exact if_pos (by simp [h])

theorem exec_dmaPartialFlit_of_inactive (h : s.dmaActive d q = false) : exec (.dmaPartialFlit d q) s = .next s := by
  change execDmaPartialFlit d q s = _
  simp only [execDmaPartialFlit, h]
  split <;> rfl

/-- Beats a partial flit would carry: those ready, to the end of the flit, that the ring has room for. -/
def State.dmaPartial (s : State) (d q : Nat) : Nat :=
  min (min (s.dmaReady d q) (4 - (s.dmaCh d q).issued / 16 % 4)) (s.dmaRoom d q)

section
variable {tag : Nat} (htag : s.nextTag (dmaMaster d q) = some tag) (hact : s.dmaActive d q = true)
include htag hact

theorem exec_dmaTransfer_of_ingress (hdir : s.egress d q = false) (hn : 0 < s.dmaFetch d q) :
    exec (.dmaTransfer d q) s = .next (s.dmaIngress d q tag (s.dmaFetch d q)) := by
  change execDmaTransfer d q s = _
  simp [execDmaTransfer, htag, hact, hdir, hn.ne']

variable (hdir : s.egress d q = true)
include hdir

theorem exec_dmaTransfer_of_egress (hflit : (s.dmaCh d q).issued % 64 = 0 ∧ 4 ≤ s.dmaReady d q ∧ 4 ≤ s.dmaRoom d q) :
    exec (.dmaTransfer d q) s = .next (s.dmaEgress d q tag 4) := by
  change execDmaTransfer d q s = _
  simp only [execDmaTransfer, htag, hact, hdir, if_pos hflit]
  rfl

theorem exec_dmaPartialFlit_of_egress (hn : 0 < s.dmaPartial d q) :
    exec (.dmaPartialFlit d q) s = .next (s.dmaEgress d q tag (s.dmaPartial d q)) := by
  have some_beats : (s.dmaPartial d q != 0) = true := by simp [hn.ne']
  change execDmaPartialFlit d q s = _
  simp only [execDmaPartialFlit, htag, hact, hdir]
  exact if_pos some_beats

end

end

/-- Outside packet mode an egress channel writes the beats it takes, without a header. -/
theorem State.dmaEgress_of_stream {s : State} {d q : Nat} (hpkt : s.sqPkt d q = false) (tag n : Nat) :
    s.dmaEgress d q tag n =
      let t := takeBeats d q false n s
      let p := t.2.engineIssue (dmaPort d q)
        ⟨tag, t.2.dmaClass d q, t.2.ringBase d q + (s.dmaCh d q).issued, true, t.1, t.1.length, .retry⟩
      p.2.setDma d q { s.dmaCh d q with
        flight := (s.dmaCh d q).flight ++ [p.1], pktLeft := none
        issued := ((s.dmaCh d q).issued + 16 * t.1.length) % p.2.ringSize d q } := by
  unfold State.dmaEgress
  simp only [hpkt]
  rfl

/-! ## DMA_RESPONSE (R191) -/

section
variable {s : State} {d : Fin 4} {q : Fin 64}

theorem exec_dmaResponse_of_none (h : (s.dmaCh d q).flight = []) (lost : Bool) : exec (.dmaResponse d q lost) s = .next s := by
  change execDmaResponse d q lost s = _
  simp only [execDmaResponse, h]

variable {e : EngReq} {rest : List EngReq} (h : (s.dmaCh d q).flight = e :: rest)
include h

theorem exec_dmaResponse_of_lost : exec (.dmaResponse d q true) s = .next (s.dmaStop d q .terr) := by
  change execDmaResponse d q true s = _
  simp only [execDmaResponse, h]
  rfl

theorem exec_dmaResponse_of_retry (hr : e.resp = .retry) :
    exec (.dmaResponse d q false) s =
      let p := s.engineIssue (dmaPort d q) e
      .next (p.2.setDma d q { p.2.dmaCh d q with flight := p.1 :: rest }) := by
  change execDmaResponse d q false s = _
  simp only [execDmaResponse, h, hr]
  rfl

theorem exec_dmaResponse_of_error (hok : e.resp ≠ .ok) (hretry : e.resp ≠ .retry) :
    exec (.dmaResponse d q false) s = .next (s.dmaStop d q e.resp) := by
  change execDmaResponse d q false s = _
  simp only [execDmaResponse, h]
  cases hr : e.resp with
  | ok => exact absurd hr hok
  | retry => exact absurd hr hretry
  | _ => rfl

section
variable (hok : e.resp = .ok)
include hok

theorem exec_dmaResponse_of_written (hw : e.write = true) (hpkt : s.sqPkt d q = false) :
    exec (.dmaResponse d q false) s =
      let acked := ((s.dmaCh d q).acked + 16 * e.count) % s.ringSize d q
      .next ((s.setDma d q { s.dmaCh d q with flight := rest, acked := acked }).dmaAdvance d q acked) := by
  change execDmaResponse d q false s = _
  simp only [execDmaResponse, h, hok, hw, hpkt]
  rfl

variable (hw : e.write = false)
include hw

theorem exec_dmaResponse_of_refused (ht : s.dmaTakes d q e.count = false) : exec (.dmaResponse d q false) s = .next s := by
  change execDmaResponse d q false s = _
  simp only [execDmaResponse, h, hok, hw, ht]
  rfl

theorem exec_dmaResponse_of_taken (ht : s.dmaTakes d q e.count = true) :
    exec (.dmaResponse d q false) s =
      let r := passBeats d q e.beats (s.setDma d q { s.dmaCh d q with flight := rest })
      let s2 := r.2.dmaAdvance d q (r.2.dmaCh d q).acked
      .next (if r.1 then s2 else s2.dmaStop d q .aerr) := by
  change execDmaResponse d q false s = _
  simp only [execDmaResponse, h, hok, hw, ht]
  rfl

end

end

/-- Settles O14, command by command. -/
theorem streamDma : Obligations.StreamDma := by
  intro s src d q w tag x w' s1 issue cls
  refine ⟨fun hw hlo hhi hrun hwas => ⟨fun h => ?_, fun hen hattach h => ?_, fun hen hattach h => ?_⟩,
    fun h => ⟨exec_dmaTransfer_of_inactive h, exec_dmaPartialFlit_of_inactive h⟩, fun htag hact hdir hn => ?_,
    fun htag hact hdir hpkt => ⟨fun hflit hready hroom => ?_, fun hn => ?_⟩, exec_dmaResponse_of_none,
    fun e rest h => ⟨fun hok hwr hpkt => ?_,
      fun hok hwr => ⟨exec_dmaResponse_of_refused h hok hwr, exec_dmaResponse_of_taken h hok hwr⟩,
      exec_dmaResponse_of_retry h, exec_dmaResponse_of_lost h, exec_dmaResponse_of_error h⟩⟩
  · rw [exec_dmaRun hw, State.dmaControl_of_no_queue hlo hhi hrun hwas h]
    rfl
  · rw [exec_dmaRun hw, State.dmaControl_of_unaligned hlo hhi hrun hwas hen hattach h]
    rfl
  · rw [exec_dmaRun hw, State.dmaControl_of_aligned hlo hhi hrun hwas hen hattach h]
    rfl
  · exact exec_dmaTransfer_of_ingress htag hact hdir hn
  · rw [exec_dmaTransfer_of_egress htag hact hdir ⟨hflit, hready, hroom⟩, State.dmaEgress_of_stream hpkt]
  · rw [exec_dmaPartialFlit_of_egress htag hact hdir hn, State.dmaEgress_of_stream hpkt]
    rfl
  · exact exec_dmaResponse_of_written h hok hwr hpkt

end Sys2Proof.Machine
end

section
/-!
PROOFS. Transactions of the network on chip at their masters and targets (R202, R356, R357, R362 to R367, R372; O29).
-/

namespace Sys2Proof.Machine

/-! ## A request leaves its endpoint or waits there (R356, R372) -/

theorem State.injects_iff {s : State} {r : Req} :
    s.injects r = true ↔ (s.runs 5 = true ∧ s.noc.drain = false) ∨
      ((r.src.master = 58 ∨ r.src.master = 60 ∨ r.src.master = 61) ∧ hubBlock r.addr.toNat = true) := by
  simp [State.injects, Fin.ext_iff]

/-- Without an armed injection a request is issued as it is (R429). -/
theorem State.pinj_of_not_armed {s : State} (h : s.flag F.eccPinj_arm [] = false) (r : Req) : s.pinj r = (false, r, s) := by
  simp [State.pinj, h]

theorem State.send_of_injects {s : State} {r : Req} (h : s.injects r = true) (harm : s.flag F.eccPinj_arm [] = false) :
    s.send r = s.emit (.req r false) := by
  simp [State.send, h, State.pinj_of_not_armed harm]

theorem State.send_of_not_injects {s : State} {r : Req} (h : ¬ s.injects r = true) :
    s.send r = { s with noc := { s.noc with held := s.noc.held ++ [r] } } := if_neg h

/-! ## NOC_REQUEST_INJECT (R357, R362, R363, R369) -/

section
variable {s : State} {r : Req}

theorem exec_nocRequestInject_of_refused
    (h : (s.pwr.stopIssue = true ∧ r.src.master.val < 56) ∨ (s.tag r.src.master r.tag).isSome = true ∨
      s.tagLimit r.src.master ≤ s.tagsUsed r.src.master) (panic : Bool) : exec (.nocRequestInject r panic) s = .next s :=
  if_pos (by simpa [or_assoc] using h)

section
variable (hissue : s.pwr.stopIssue = false ∨ 56 ≤ r.src.master.val) (htag : s.tag r.src.master r.tag = none)
  (hlim : s.tagsUsed r.src.master < s.tagLimit r.src.master)
include hissue htag hlim

theorem exec_nocRequestInject_of_admitted (panic : Bool) :
    exec (.nocRequestInject r panic) s =
      .next ((if r.src.master.val < 48 then s.setPanic r.src.master (panic && r.cls.val == 0) else s).inject r) := by
  refine if_neg ?_
  rcases hissue with hi | hi <;> simp [hi, htag, hlim]

theorem exec_nocRequestInject_of_fabric (hm : r.src.master.val < 48) (panic : Bool) :
    exec (.nocRequestInject r panic) s = .next ((s.setPanic r.src.master (panic && r.cls.val == 0)).inject r) := by
  rw [exec_nocRequestInject_of_admitted hissue htag hlim, if_pos hm]

theorem exec_nocRequestInject_of_engine (hm : 48 ≤ r.src.master.val) (panic : Bool) :
    exec (.nocRequestInject r panic) s = .next (s.inject r) := by
  rw [exec_nocRequestInject_of_admitted hissue htag hlim, if_neg (Nat.not_lt.mpr hm)]

end

/-- The tag that the issue of a request takes, with stamp and start at the issue (log entry 119). -/
def State.tagged (s : State) (r : Req) : State :=
  let now := s.now (masterDie r.src.master)
  s.setTag r.src.master r.tag ⟨now / 16 % 65536, now, s.get F.nocMcfg_tmoUs [r.src.master.val], r.write, r.cls, false⟩

/-- A request as issued: stamped, and a peek only where its master peeks. -/
def State.stamped (s : State) (r : Req) : Req :=
  { r with stamp := BitVec.ofNat 16 (s.now (masterDie r.src.master) / 16 % 65536), src := { r.src with peek := r.src.peeks } }

/-- The issue changes nothing on which the leaving of a request depends. -/
theorem State.inject_of_injects (h : s.injects r = true) (harm : s.flag F.eccPinj_arm [] = false) :
    s.inject r = (s.tagged r).emit (.req (s.stamped r) false) :=
  State.send_of_injects (s := s.tagged r) (r := s.stamped r) h harm

theorem State.inject_of_not_injects (h : ¬ s.injects r = true) :
    s.inject r = { s.tagged r with noc := { (s.tagged r).noc with held := (s.tagged r).noc.held ++ [s.stamped r] } } :=
  State.send_of_not_injects (s := s.tagged r) (r := s.stamped r) h

end

/-! ## RESPONSE_ARRIVAL (R363, R366, R367) -/

theorem respOf_eq_retry_iff (code : Fin 8) : respOf code = .retry ↔ code = 6 := by
  revert code
  decide

section
variable {s : State} {r : Req} {stamp : BitVec 16} {data : List Byte}

/-- A response to a tag that is not in use is late (log entry 60). -/
theorem exec_responseArrival_of_no_tag (h : s.tag r.src.master r.tag = none) (code : Fin 8) (bad : List Nat) :
    exec (.responseArrival r code stamp data bad) s = .next (s.countUp F.nocMstat_late [r.src.master.val]) := by
  change execResponseArrival r code stamp data bad s = _
  simp only [execResponseArrival, h]

variable {x : TagSt} (h : s.tag r.src.master r.tag = some x)
include h

/-- A response to a tag out of use, or of another stamp, is late. -/
theorem exec_responseArrival_of_late (hlate : x.out = true ∨ x.stamp ≠ stamp.toNat) (code : Fin 8) (bad : List Nat) :
    exec (.responseArrival r code stamp data bad) s = .next (s.countUp F.nocMstat_late [r.src.master.val]) := by
  change execResponseArrival r code stamp data bad s = _
  simp only [execResponseArrival, h]
  exact if_pos (by simpa using hlate)

variable (hout : x.out = false) (hstamp : x.stamp = stamp.toNat)
include hout hstamp

theorem exec_responseArrival_of_repeat (hrep : repeats r.src.master = true) (bad : List Nat) :
    exec (.responseArrival r 6 stamp data bad) s = .next (s.send { r with stamp := stamp }) := by
  have again : respOf 6 = .retry ∧ repeats r.src.master = true := ⟨rfl, hrep⟩
  change execResponseArrival r 6 stamp data bad s = _
  simp only [execResponseArrival, h]
  exact (if_neg (by simp [hout, hstamp])).trans (if_pos again)

theorem exec_responseArrival_of_done {code : Fin 8} (hcode : code ≠ 6) :
    exec (.responseArrival r code stamp data []) s =
      .next ((s.tagDone r.src.master r.tag x).deliverResp { r with write := x.write } (respOf code) data []) := by
  have final : ¬ (respOf code = .retry ∧ repeats r.src.master = true) := fun e => hcode ((respOf_eq_retry_iff code).mp e.1)
  change execResponseArrival r code stamp data [] s = _
  simp only [execResponseArrival, h]
  refine (if_neg (by simp [hout, hstamp])).trans ((if_neg final).trans ?_)
  simp

end

/-! ## MASTER_TIMEOUT and TAG_RELEASE (R363) -/

section
variable {s : State} {m : Fin 64} {t : Fin 1024}

theorem exec_masterTimeout_of_no_tag (h : s.tag m t = none) (core : Fin 4) : exec (.masterTimeout m core t) s = .next s := by
  change execMasterTimeout m core t s = _
  simp only [execMasterTimeout, h]

theorem exec_tagRelease_of_no_tag (h : s.tag m t = none) : exec (.tagRelease m t) s = .next s := by
  change execTagRelease m t s = _
  simp only [execTagRelease, h]

variable {x : TagSt} (h : s.tag m t = some x)
include h

theorem exec_masterTimeout_of_not_expired (he : s.tagExpired m x = false) (core : Fin 4) :
    exec (.masterTimeout m core t) s = .next s := by
  change execMasterTimeout m core t s = _
  simp only [execMasterTimeout, h]
  exact if_pos (by simp [he])

theorem exec_masterTimeout_of_expired (hout : x.out = false) (he : s.tagExpired m x = true) (core : Fin 4) :
    exec (.masterTimeout m core t) s =
      let s1 := (s.setTag m t { x with out := true, start := s.now (masterDie m) }).countUp F.nocMstat_tmos [m.val]
      .next ((s1.giveUp m t).deliverResp
        { hostReq m 0 0 x.write 0 1 [] with src := ⟨m, core, false, false⟩, tag := t } .terr [] []) := by
  change execMasterTimeout m core t s = _
  simp only [execMasterTimeout, h]
  exact if_neg (by simp [hout, he])

theorem exec_tagRelease_of_not_expired (he : s.tagExpired m x = false) : exec (.tagRelease m t) s = .next s := by
  change execTagRelease m t s = _
  simp only [execTagRelease, h]
  exact if_neg (by simp [he])

theorem exec_tagRelease_of_expired (hout : x.out = true) (he : s.tagExpired m x = true) :
    exec (.tagRelease m t) s = .next (s.freeTag m t) := by
  change execTagRelease m t s = _
  simp only [execTagRelease, h]
  exact if_pos (by simp [hout, he])

end

/-! ## TARGET_TIMEOUT (R364) -/

section
variable {s : State} {r : Req}

theorem State.inTime_of_no_tag (h : s.tag r.src.master r.tag = none) : s.inTime r = false := by
  simp only [State.inTime, h]

variable {x : TagSt} (h : s.tag r.src.master r.tag = some x)
include h

theorem State.inTime_of_running (hout : x.out = false) (hstamp : x.stamp = r.stamp.toNat)
    (he : s.tagExpired r.src.master x = false) : s.inTime r = true := by
  simp [State.inTime, h, hout, hstamp, he]

theorem State.inTime_of_expired (he : s.tagExpired r.src.master x = true) : s.inTime r = false := by
  simp [State.inTime, h, he]

end

theorem exec_targetTimeout_of_inTime {s : State} {r : Req} (h : s.inTime r = true) : exec (.targetTimeout r) s = .next s := if_pos h

/-- The table of held publishes gives a publish up (R202). -/
theorem exec_targetTimeout_of_held {s : State} {r : Req} (h : s.inTime r = false) (hheld : s.heldPubs.any (fun p => p.req == r) = true) :
    exec (.targetTimeout r) s = .next (({ s with heldPubs := s.heldPubs.filter (fun p => p.req != r) } : State).respond r .terr) :=
  (if_neg (by simp [h])).trans (if_pos hheld)

/-- Settles O29, event by event (log entries 60 and 119). -/
theorem nocTransactions : Obligations.NocTransactions := by
  intro s r panic code stamp data core x m now expired leaves sent held tagged stamped
  have injects : s.injects r = true ↔ leaves := State.injects_iff
  have expired_iff : s.tagExpired m x = true ↔ expired := decide_eq_true_iff
  refine ⟨fun h => exec_nocRequestInject_of_refused h panic,
    fun hissue htag hlim => ⟨fun hm hl harm => ?_, fun hm hl => ?_, fun hm => ?_⟩,
    fun h => ⟨?_, exec_masterTimeout_of_no_tag h core, exec_tagRelease_of_no_tag h⟩,
    fun h => ⟨fun hlate => ?_, fun hout hstamp => ⟨fun hcode hrep => ⟨fun hl harm => ?_, fun hl => ?_⟩, fun hcode => ?_⟩,
      fun hout he => ?_, fun hout he => ?_, fun he => ?_, fun hout hstamp he => ?_⟩,
    fun h hheld => ?_⟩
  · rw [exec_nocRequestInject_of_engine hissue htag hlim hm, State.inject_of_injects (injects.mpr hl) harm]
    rfl
  · rw [exec_nocRequestInject_of_engine hissue htag hlim hm, State.inject_of_not_injects (mt injects.mp hl)]
    rfl
  · exact exec_nocRequestInject_of_fabric hissue htag hlim hm panic
  · exact exec_responseArrival_of_no_tag h code []
  · exact exec_responseArrival_of_late h hlate code []
  · subst hcode
    rw [exec_responseArrival_of_repeat h hout hstamp hrep,
      State.send_of_injects (r := { r with stamp := stamp }) (injects.mpr hl) harm]
  · subst hcode
    rw [exec_responseArrival_of_repeat h hout hstamp hrep,
      State.send_of_not_injects (r := { r with stamp := stamp }) (mt injects.mp hl)]
  · exact exec_responseArrival_of_done h hout hstamp hcode
  · exact exec_masterTimeout_of_expired h hout (expired_iff.mpr he) core
  · exact exec_tagRelease_of_expired h hout (expired_iff.mpr he)
  · have running : s.tagExpired m x = false := Bool.eq_false_iff.mpr (mt expired_iff.mp he)
    exact ⟨exec_masterTimeout_of_not_expired h running core, exec_tagRelease_of_not_expired h running⟩
  · have running : s.tagExpired m x = false := Bool.eq_false_iff.mpr (mt expired_iff.mp he)
    exact exec_targetTimeout_of_inTime (State.inTime_of_running h hout hstamp running)
  · refine exec_targetTimeout_of_held ?_ hheld
    rcases h with h | ⟨h, he⟩
    · exact State.inTime_of_no_tag h
    · exact State.inTime_of_expired h (expired_iff.mpr he)

end Sys2Proof.Machine
end

section
/-!
PROOFS. Clock edges of flip-flops and MAC24 blocks, asynchronous set/reset and the switch of a global clock (R206 to R208, R212, R222
to R224, R227, R249, R250, R316; O34).
-/

namespace Sys2Proof

/-- A write leaves the other entries of a store, whatever they read as when unlisted. -/
theorem SMap.find?_set_ne {α : Type} [DecidableEq α] (d : α) (m : SMap α) {k j : Nat} (v : α) (h : j ≠ k) :
    SMap.find? (SMap.set d m k v) j = SMap.find? m j := by
  unfold SMap.set
  split
  · exact SMap.find?_erase_ne m h
  · exact SMap.find?_insert_ne m v h

end Sys2Proof

namespace Sys2Proof.Machine

/-! ## Flip-flops at their keys -/

/-- Two flip-flops of a die share a key only when they are one. -/
theorem ffKey_inj {d cl cl' k k' b b' : Nat} (hk : k < 32) (hb : b < 2) (hk' : k' < 32) (hb' : b' < 2)
    (h : ffKey d cl k b = ffKey d cl' k' b') : cl = cl' ∧ k = k' ∧ b = b' := by
  unfold ffKey clusterKey at h
  omega

theorem State.ff_setFf_same (s : State) (d cl k b : Nat) (v : Bool) : (s.setFf d cl k b v).ff d cl k b = v :=
  SMap.get_set_same _ _ _ _

theorem State.ff_setFf_ne {s : State} {d cl k b cl' k' b' : Nat} (v : Bool) (h : ffKey d cl' k' b' ≠ ffKey d cl k b) :
    (s.setFf d cl k b v).ff d cl' k' b' = s.ff d cl' k' b' :=
  congrArg (·.getD ((s.cellCfg d cl' k').init.getD b' false)) (SMap.find?_set_ne _ _ _ h)

/-! ## A half takes new values

FLIP_FLOP_CLOCK_EDGE and ASYNCHRONOUS_SET_RESET both go through the flip-flops of a half in turn; the second passes those that do
not obey SR. -/

/-- Flip-flop i of a half, 2 a cell, takes the value that `v i` gives it, for each i below n; one that `v` gives none keeps its own. -/
def State.setHalf (s : State) (d cl half : Nat) (v : Nat → Option Bool) (n : Nat) : State :=
  (List.range n).foldl (fun t i =>
    match v i with
    | some q => t.setFf d cl (16 * half + i / 2) (i % 2) q
    | none => t) s

section
variable {s : State} {d cl half n : Nat} {v : Nat → Option Bool}

theorem State.setHalf_succ : s.setHalf d cl half v (n + 1) =
    match v n with
    | some q => (s.setHalf d cl half v n).setFf d cl (16 * half + n / 2) (n % 2) q
    | none => s.setHalf d cl half v n := by
  simp only [State.setHalf, List.range_succ, List.foldl_append, List.foldl_cons, List.foldl_nil]

theorem State.setHalf_free : (s.setHalf d cl half v n).free = s.free := by
  induction n with
  | zero => rfl
  | succ n ih =>
    rw [State.setHalf_succ]
    cases v n with
    | none => exact ih
    | some q => exact ih

/-- Outside the fabric nothing changes. -/
theorem State.setHalf_frame (F : FabSt) (m : Nat) :
    { s.setHalf d cl half v n with fab := F, free := m } = { s with fab := F, free := m } := by
  induction n with
  | zero => rfl
  | succ n ih =>
    rw [State.setHalf_succ]
    cases v n with
    | none => exact ih
    | some q => exact ih

theorem State.ff_setHalf_of_apart {cl' k b : Nat} (h : ∀ i < n, ffKey d cl' k b ≠ ffKey d cl (16 * half + i / 2) (i % 2)) :
    (s.setHalf d cl half v n).ff d cl' k b = s.ff d cl' k b := by
  induction n with
  | zero => rfl
  | succ n ih =>
    have before := ih fun i hi => h i (by omega)
    rw [State.setHalf_succ]
    cases v n with
    | none => exact before
    | some q => exact (State.ff_setFf_ne q (h n (by omega))).trans before

/-- Two indices of a half name different flip-flops. -/
theorem ffKey_half_ne {i j : Nat} (hhalf : half < 2) (hi : i < 32) (hj : j < 32) (h : i ≠ j) :
    ffKey d cl (16 * half + i / 2) (i % 2) ≠ ffKey d cl (16 * half + j / 2) (j % 2) := by
  intro same
  obtain ⟨-, hcell, hb⟩ := ffKey_inj (by omega) (by omega) (by omega) (by omega) same
  omega

theorem State.ff_setHalf {i : Nat} (hhalf : half < 2) (hn : n ≤ 32) (hi : i < n) :
    (s.setHalf d cl half v n).ff d cl (16 * half + i / 2) (i % 2) =
      (v i).getD (s.ff d cl (16 * half + i / 2) (i % 2)) := by
  induction n with
  | zero => omega
  | succ n ih =>
    rw [State.setHalf_succ]
    rcases Nat.lt_succ_iff_lt_or_eq.mp hi with hlt | rfl
    · have before := ih (by omega) hlt
      cases v n with
      | none => exact before
      | some q => exact (State.ff_setFf_ne q (ffKey_half_ne hhalf (by omega) (by omega) (by omega))).trans before
    · cases v i with
      | none => exact State.ff_setHalf_of_apart fun j hj => ffKey_half_ne hhalf (by omega) (by omega) (by omega)
      | some q => exact State.ff_setFf_same ..

/-- A flip-flop of another cluster of the die, or of the other half, keeps its value. -/
theorem State.ff_setHalf_of_outside {cl' k b : Nat} (hhalf : half < 2) (hn : n ≤ 32) (hk : k < 32) (hb : b < 2)
    (h : cl' ≠ cl ∨ k / 16 ≠ half) : (s.setHalf d cl half v n).ff d cl' k b = s.ff d cl' k b := by
  refine State.ff_setHalf_of_apart fun i hi same => ?_
  obtain ⟨hcl, hcell, -⟩ := ffKey_inj hk hb (by omega) (by omega) same
  omega

end

/-! ## FLIP_FLOP_CLOCK_EDGE (R222, R223, R227) -/

/-- The start of an edge changes what the edges of its instant see and the collisions they count, and no more. -/
theorem State.enterEdge_eq (s : State) (rel : EdgeRel) :
    ∃ v t, s.enterEdge rel = { s with fab := { s.fab with view := v, touched := t } } := by
  unfold State.enterEdge
  split
  · exact ⟨_, _, rfl⟩
  · exact ⟨_, _, rfl⟩
  · exact ⟨_, _, rfl⟩

theorem State.halfEdge_eq (s old : State) (n d cl half : Nat) (hit : List (Fin 32)) :
    s.halfEdge old n d cl half hit =
      s.setHalf d cl half (fun i => some (old.ffEdge n (old.signals n) d cl (16 * half + i / 2) (i % 2) hit)) 32 := rfl

/-- The next value of flip-flop i of a half, in the order of R223. -/
theorem State.ffEdge_index (s : State) (n : Nat) (ev : Signal → Bool) (d cl half : Nat) (hit : List (Fin 32)) {i : Nat} (hi : i < 32) :
    let k := 16 * half + i / 2
    let b := i % 2
    let c := s.cellCfg d cl k
    let y := s.cellSig n ev d cl k
    s.ffEdge n ev d cl k b hit =
      if hit.any (fun (h : Fin 32) => h.val == i) && !s.gsrAt d cl && s.gweAt d cl then (Config.freeValue 32 n : BitVec 32).getLsbD i
      else if s.gsrAt d cl then c.init.getD b false
      else if !s.gweAt d cl then s.ff d cl k b
      else if c.srEn.getD b false && ev (.sink d cl (srSink half)) then c.srVal.getD b false
      else if c.ceEn.getD b false && !ev (.sink d cl (ceSink (k / 8))) then s.ff d cl k b
      else if b = 0 then c.dA y else c.dB y := by
  intro k b c y
  have index : 2 * (k % 16) + b = i := by omega
  have halfOf : k / 16 = half := by omega
  simp only [State.ffEdge, State.ffNext, index, halfOf]
  rfl

/-- The flip-flops of the half move as the edge of its clock says. -/
theorem State.ff_halfEdge (s old : State) (n d cl : Nat) {half i : Nat} (hit : List (Fin 32)) (hhalf : half < 2) (hi : i < 32) :
    (s.halfEdge old n d cl half hit).ff d cl (16 * half + i / 2) (i % 2) =
      old.ffEdge n (old.signals n) d cl (16 * half + i / 2) (i % 2) hit := by
  rw [State.halfEdge_eq, State.ff_setHalf hhalf le_rfl hi]
  rfl

theorem State.ff_halfEdge_of_outside (s old : State) (n d : Nat) {cl half cl' k b : Nat} (hit : List (Fin 32)) (hhalf : half < 2)
    (hk : k < 32) (hb : b < 2) (h : cl' ≠ cl ∨ k / 16 ≠ half) : (s.halfEdge old n d cl half hit).ff d cl' k b = s.ff d cl' k b := by
  rw [State.halfEdge_eq, State.ff_setHalf_of_outside hhalf le_rfl hk hb h]

theorem exec_flipFlopClockEdge (s : State) (d : Fin 4) (cl : Fin 131072) (half : Fin 2) (rel : EdgeRel) (hit : List (Fin 32)) :
    exec (.flipFlopClockEdge d cl half rel hit) s =
      let e := (s.enterEdge rel).draw
      if e.2.seen.clockComes e.1 (e.2.seen.signals e.1) d (flaskOfCluster cl)
          (Config.halfClock (s.logicFrames d (flaskOfCluster cl)) d cl half) then
        .next (e.2.halfEdge e.2.seen e.1 d cl half hit)
      else .next s := rfl

/-- Outside the fabric an edge changes the counter of free values, and no more. -/
theorem State.halfEdge_frame (s old : State) (n d cl half : Nat) (rel : EdgeRel) (hit : List (Fin 32)) :
    let t := (s.enterEdge rel).draw.2.halfEdge old n d cl half hit
    t.free = s.free + 1 ∧ { t with fab := s.fab, free := s.free } = s := by
  obtain ⟨v, touched, entered⟩ := s.enterEdge_eq rel
  rw [State.halfEdge_eq, entered]
  exact ⟨State.setHalf_free, State.setHalf_frame s.fab s.free⟩

theorem State.ff_draw_enterEdge (s : State) (rel : EdgeRel) (d cl k b : Nat) :
    (s.enterEdge rel).draw.2.ff d cl k b = s.ff d cl k b := by
  obtain ⟨v, touched, entered⟩ := s.enterEdge_eq rel
  rw [entered]
  rfl

/-! ## MAC24_OPERATION (R249, R250) -/

theorem exec_mac24Operation (s : State) (d : Fin 4) (blk : Fin 6144) (rel : EdgeRel) :
    exec (.mac24Operation d blk rel) s =
      let e := (s.enterEdge rel).draw
      let ev := e.2.seen.signals e.1
      if e.2.seen.clockComes e.1 ev d (flaskOfMac blk) (s.macCfg d blk).clock then
        .next (e.2.setMac d blk ((e.2.seen.macBlock d blk).edge (s.macCfg d blk) (e.2.seen.macIn ev d blk)))
      else .next s := rfl

/-! ## ASYNCHRONOUS_SET_RESET (R223) -/

/-- Whether the flip-flops of a half obey an SR input that is 1: it acts asynchronously, and neither global set/reset nor global
write enable stands above it. -/
def State.obeysSr (s : State) (n d cl half : Nat) : Bool :=
  !s.gsrAt d cl && s.gweAt d cl && (s.clusterCfg d cl).async.getD half false && s.srLevel n d cl half

theorem exec_asynchronousSetReset (s : State) (d : Fin 4) (cl : Fin 131072) (half : Fin 2) :
    exec (.asynchronousSetReset d cl half) s = .next (s.draw.2.applySr s.free d cl half) := rfl

section
variable {s : State} {n d cl half : Nat}

theorem State.applySr_of_ignored (h : s.obeysSr n d cl half = false) : s.applySr n d cl half = s := by
  refine if_pos ?_
  simpa only [State.obeysSr, Bool.not_and, Bool.not_not, Bool.not_false] using congrArg (!·) h

/-- What SR gives flip-flop i of a half: srval where the flip-flop heeds SR. -/
def State.srValue (s : State) (d cl half i : Nat) : Option Bool :=
  let c := s.cellCfg d cl (16 * half + i / 2)
  if c.srEn.getD (i % 2) false then some (c.srVal.getD (i % 2) false) else none

theorem State.applySr_of_obeyed (h : s.obeysSr n d cl half = true) :
    s.applySr n d cl half = s.setHalf d cl half (s.srValue d cl half) 32 := by
  have passes : ¬ (s.gsrAt d cl || !s.gweAt d cl || !(s.clusterCfg d cl).async.getD half false || !s.srLevel n d cl half) = true := by
    simpa [State.obeysSr, and_assoc] using h
  refine (if_neg passes).trans ?_
  unfold State.setHalf
  congr 1
  funext t i
  simp only [State.srValue]
  split <;> rfl

/-- Flip-flop b of cell i of a half after an SR input that it obeys. -/
theorem State.ff_applySr_of_obeyed {i b : Nat} (h : s.obeysSr n d cl half = true) (hhalf : half < 2) (hi : i < 16) (hb : b < 2) :
    let c := s.cellCfg d cl (16 * half + i)
    (s.applySr n d cl half).ff d cl (16 * half + i) b =
      if c.srEn.getD b false then c.srVal.getD b false else s.ff d cl (16 * half + i) b := by
  have cell : (2 * i + b) / 2 = i := by omega
  have which : (2 * i + b) % 2 = b := by omega
  have taken := State.ff_setHalf (s := s) (d := d) (cl := cl) (v := s.srValue d cl half) hhalf (le_refl 32)
    (show 2 * i + b < 32 by omega)
  rw [State.srValue, cell, which] at taken
  rw [State.applySr_of_obeyed h]
  exact taken.trans (apply_ite (Option.getD · _) _ _ _)

end

/-! ## GLOBAL_CLOCK_SWITCH (R224) -/

/-- A global clock network takes a source, an enable and a pending change. -/
def State.setGclock (s : State) (d g : Nat) (x : GclkSt) : State :=
  { s with fab := { s.fab with gclk := SMap.insert s.fab.gclk (32 * d + g) x } }

section
variable (s : State) (d g : Nat) (x : GclkSt)

theorem State.gclock_setGclock : (s.setGclock d g x).gclock d g = x := by
  simp only [State.gclock, State.setGclock, SMap.get, SMap.find?_insert_same, Option.getD_some]

theorem State.sourceRuns_setGclock (src : ClockSource) (ext : Bool) :
    (s.setGclock d g x).sourceRuns d src ext = s.sourceRuns d src ext := by
  cases src <;> rfl

theorem State.setGclock_setGclock (y : GclkSt) : (s.setGclock d g x).setGclock d g y = s.setGclock d g y := by
  simp only [State.setGclock, SMap.insert_insert]

theorem State.setGclock_frame : { s.setGclock d g x with fab := { (s.setGclock d g x).fab with gclk := s.fab.gclk } } = s := rfl

end

/-- The network holds low while a change is pending. -/
theorem State.netRuns_of_pending {s : State} {d g : Nat} (h : (s.gclock d g).want.isSome = true) : s.netRuns d g = false := by
  simp [State.netRuns, Option.isSome_iff_ne_none.mp h]

/-- A pending change completes where both sources run, and waits otherwise. -/
theorem State.settleNet_of_pending {s : State} {d g : Nat} {src : ClockSource} {en ext : Bool}
    (h : (s.gclock d g).want = some (src, en, ext)) :
    s.settleNet d g =
      if (s.gclock d g).src.all (fun o => s.sourceRuns d o (s.gclock d g).ext) && s.sourceRuns d src ext then
        s.setGclock d g ⟨some src, en, ext, none⟩
      else s := by
  simp only [State.settleNet, h]
  cases (s.gclock d g).src <;> rfl

/-- A network after a change is asked for: the change completes at once where the old source and the new one run; otherwise it stays
pending (log entry 26). -/
def State.switchedNet (s : State) (d g : Nat) (src : ClockSource) (en oldRuns newRuns : Bool) : GclkSt :=
  if (s.gclock d g).src.all (fun o => s.sourceRuns d o oldRuns) && s.sourceRuns d src newRuns then ⟨some src, en, newRuns, none⟩
  else { s.gclock d g with ext := oldRuns, want := some (src, en, newRuns) }

theorem exec_globalClockSwitch (s : State) (d : Fin 4) (g : Fin 32) (src : ClockSource) (en oldRuns newRuns : Bool) :
    exec (.globalClockSwitch d g src en oldRuns newRuns) s =
      .next (s.setGclock d g (s.switchedNet d g src en oldRuns newRuns)) := by
  change Host.Outcome.next (State.settleNet (s.setGclock d g
    { s.gclock d g with ext := oldRuns, want := some (src, en, newRuns) }) d g) = _
  rw [State.settleNet_of_pending (by rw [State.gclock_setGclock]), State.gclock_setGclock]
  simp only [State.sourceRuns_setGclock, State.setGclock_setGclock, State.switchedNet]
  exact congrArg Host.Outcome.next (apply_ite (s.setGclock d g) _ _ _).symm

/-! ## The statement -/

/-- Settles O34, command by command (log entry 24 for what edges of one instant see, 26 for a pending clock change). -/
theorem fabricEdges : Obligations.FabricEdges := by
  intro s d cl half rel hit en oldRuns newRuns g clock blk e old ev edge mac comes
  refine ⟨fun h => ?_, fun h => ?_, fun h => ?_, fun h => ?_, ⟨fun h => ?_, fun h => ?_⟩, ?_⟩
  · exact (exec_flipFlopClockEdge s d cl half rel hit).trans (if_neg (Bool.eq_false_iff.mp h))
  · obtain ⟨free, frame⟩ := s.halfEdge_frame old e.1 d cl half rel hit
    refine ⟨e.2.halfEdge old e.1 d cl half hit, (exec_flipFlopClockEdge s d cl half rel hit).trans (if_pos h), free, frame,
      fun i hi => ?_, fun cl' k b hk hb outside => ?_⟩
    · exact (e.2.ff_halfEdge old e.1 d cl hit half.isLt hi).trans (old.ffEdge_index e.1 ev d cl half hit hi)
    · exact (e.2.ff_halfEdge_of_outside old e.1 d hit half.isLt hk hb outside).trans
        (s.ff_draw_enterEdge rel d cl' k b)
  · exact (exec_mac24Operation s d blk rel).trans (if_neg (Bool.eq_false_iff.mp h))
  · exact (exec_mac24Operation s d blk rel).trans (if_pos h)
  · rw [exec_asynchronousSetReset, State.applySr_of_ignored h]
  · exact ⟨_, exec_asynchronousSetReset s d cl half, fun i b hi hb => State.ff_applySr_of_obeyed h half.isLt hi hb⟩
  · intro x ready
    have switched := s.gclock_setGclock d g (s.switchedNet d g clock en oldRuns newRuns)
    refine ⟨_, exec_globalClockSwitch s d g clock en oldRuns newRuns, State.setGclock_frame .., fun h => ?_, fun h => ?_⟩
    · exact switched.trans (if_pos h)
    · have pending := switched.trans (if_neg (Bool.eq_false_iff.mp h))
      exact ⟨pending, State.netRuns_of_pending (by rw [pending]; rfl)⟩

end Sys2Proof.Machine
end

section
/-!
PROOFS. Block RAM: edges of its ports, its scrub and its raw test commands (R232 to R246, R316; O35).
-/

namespace Sys2Proof

/-- Whether a codeword as read has an error, and whether the error can be corrected. -/
def SecRead.hasError : SecRead → Bool
  | .clean _ => false
  | _ => true
def SecRead.correctable : SecRead → Bool
  | .fixed _ => true
  | _ => false

end Sys2Proof

namespace Sys2Proof.Machine

/-! ## An edge of a port's clock

What an edge sees, and the machine it acts on: both follow from the start of the edge, which leaves the settings of a block. -/

/-- The registered signals that an edge sees, with the number of the free value that stands for what nothing determines. -/
def State.edgeSeen (s : State) (rel : EdgeRel) : State := (s.enterEdge rel).draw.2.seen
def State.edgeNumber (s : State) (rel : EdgeRel) : Nat := (s.enterEdge rel).draw.1

/-- The pins of a port at an edge, and whether user logic reaches it there. -/
def State.edgePins (s : State) (rel : EdgeRel) (d blk port : Nat) : BramPins :=
  bramPins ((s.edgeSeen rel).signals (s.edgeNumber rel)) d blk port
def State.edgeReached (s : State) (rel : EdgeRel) (d blk port : Nat) : Bool :=
  (s.edgeSeen rel).bramReached (s.edgeNumber rel) ((s.edgeSeen rel).signals (s.edgeNumber rel)) d blk port

/-- The machine on which an edge of a block RAM port acts: the edge has begun and has its free values. -/
def State.bramEdgeStart (s : State) (rel : EdgeRel) : State :=
  { (s.enterEdge rel).draw.2 with free := (s.enterEdge rel).draw.2.free + 2 }

theorem State.bramCfg_bramEdgeStart (s : State) (rel : EdgeRel) (d blk : Nat) :
    (s.bramEdgeStart rel).bramCfg d blk = s.bramCfg d blk := by
  obtain ⟨v, touched, entered⟩ := s.enterEdge_eq rel
  rw [State.bramEdgeStart, entered]
  rfl

theorem BramPins.writes_eq_true_iff {p : BramPins} : p.writes = true ↔ p.en = true ∧ p.we ≠ 0#8 := by
  simp [BramPins.writes]

theorem BramPins.writes_of_not_en {p : BramPins} (h : p.en = false) : p.writes = false := by
  simp [BramPins.writes, h]

theorem BramPins.writes_of_we_zero {p : BramPins} (h : p.we = 0#8) : p.writes = false := by
  simp [BramPins.writes, h]

/-- Whether the clocks of a block's ports differ, so that their edges can collide (R239). -/
def BramCfg.ownClocks (c : BramCfg) : Bool := !sameClock (c.clock.getD 0 .zero) (c.clock.getD 1 .zero)

section
variable {s : State} {rel : EdgeRel} {d blk port : Nat} {write : Bool}

theorem State.bramStep_eq (s : State) (d blk port : Nat) (rel : EdgeRel) (write : Bool) :
    s.bramStep d blk port rel write =
      if s.edgeReached rel d blk port && (s.edgePins rel d blk port).writes == write then
        (s.bramEdgeStart rel).bramEdge (s.edgeSeen rel) d blk port (s.edgePins rel d blk port) (s.bramCfg d blk).ownClocks
          (s.edgeNumber rel)
      else s := rfl

theorem State.bramStep_of_not_reached (h : s.edgeReached rel d blk port = false) : s.bramStep d blk port rel write = s := by
  simp [State.bramStep_eq, h]

theorem State.bramStep_of_other_kind (h : (s.edgePins rel d blk port).writes = !write) : s.bramStep d blk port rel write = s := by
  simp [State.bramStep_eq, h]

theorem State.bramStep_of_reached (h : s.edgeReached rel d blk port = true) (hw : (s.edgePins rel d blk port).writes = write) :
    s.bramStep d blk port rel write =
      (s.bramEdgeStart rel).bramEdge (s.edgeSeen rel) d blk port (s.edgePins rel d blk port) (s.bramCfg d blk).ownClocks
        (s.edgeNumber rel) := by
  simp [State.bramStep_eq, h, hw]

end

/-! ## Reads and writes (R233 to R241) -/

/-- What the other port of a block did at the present instant to the word that a port addresses. -/
def State.otherAccess (s : State) (c : BramCfg) (d blk port : Nat) (p : BramPins) : Option BramAccess :=
  (s.access d blk (1 - port)).filter (fun a => a.word == (c.place port p.addr).1)

/-- A port delivers a word: it shows it with its checks, and the checks count (R240, R241). -/
def State.showWord (s : State) (c : BramCfg) (d blk port : Nat) (p : BramPins) (x : BramPort) (v : BitVec 72) : State :=
  let r := s.bramDeliver d blk port (c.place port p.addr).1 (c.place port p.addr).2 (c.width port) v
  r.2.setBramPort d blk port { x with rd := r.1 }

/-- The lanes `won` of a port's write reach the array where the flask's global write enable is 1 (R235, R316). -/
def State.storeLanes (s : State) (c : BramCfg) (d blk port : Nat) (p : BramPins) (won : BitVec 8) : State :=
  let w := (c.place port p.addr).1
  (if s.gweIn d (flaskOfBram blk) then s.setBramWord d blk w (c.merged (s.bramWord d blk w) (c.stores port p) won) else s).noteAccess
    d blk port ⟨w, false, c.lanes port p, c.stores port p⟩

/-- The port of a write shows the word after it, before it, or what it showed (R238). -/
def State.showWrite (s old : State) (c : BramCfg) (d blk port : Nat) (p : BramPins) (x : BramPort) : State :=
  let before := old.bramWord d blk (c.place port p.addr).1
  match c.rdw.getD port 0 with
  | 0 => s.showWord c d blk port p x (c.merged before (c.stores port p) (c.lanes port p))
  | 1 => s.showWord c d blk port p x before
  | _ => s.setBramPort d blk port x

section
variable {s old : State} {c : BramCfg} {d blk port : Nat} {p : BramPins} {x : BramPort} {own : Bool} {n : Nat}

theorem State.showWrite_of_writeFirst (h : c.rdw.getD port 0 = 0) : s.showWrite old c d blk port p x =
    s.showWord c d blk port p x
      (c.merged (old.bramWord d blk (c.place port p.addr).1) (c.stores port p) (c.lanes port p)) := by
  simp only [State.showWrite, h]

theorem State.showWrite_of_readFirst (h : c.rdw.getD port 0 = 1) : s.showWrite old c d blk port p x =
    s.showWord c d blk port p x (old.bramWord d blk (c.place port p.addr).1) := by
  simp only [State.showWrite, h]

theorem State.showWrite_of_keeps (h : 2 ≤ c.rdw.getD port 0) :
    s.showWrite old c d blk port p x = s.setBramPort d blk port x := by
  unfold State.showWrite
  split
  · omega
  · omega
  · rfl

/-- An edge without enable only clocks the output register (R236). -/
theorem State.bramEdge_of_not_en (h : p.en = false) :
    s.bramEdge old d blk port p own n = s.setBramPort d blk port ((old.bramPort d blk port).clockOut p.regCe p.regRst) := by
  simp [State.bramEdge, BramPins.writes_of_not_en h, h]

variable (hc : s.bramCfg d blk = c)
include hc

/-- A read of a word that the other port leaves alone delivers it as it stood before the instant. -/
theorem State.bramEdge_of_read_alone (hen : p.en = true) (hwe : p.we = 0#8) (alone : s.otherAccess c d blk port p = none) :
    s.bramEdge old d blk port p own n =
      (s.showWord c d blk port p ((old.bramPort d blk port).clockOut p.regCe p.regRst)
        (old.bramWord d blk (c.place port p.addr).1)).noteAccess d blk port ⟨(c.place port p.addr).1, true, 0#8, 0#72⟩ := by
  subst hc
  unfold State.otherAccess at alone
  simp [State.bramEdge, BramPins.writes_of_we_zero hwe, hen, alone, State.showWord]

/-- A write of a word that the other port leaves alone stores all its lanes. -/
theorem State.bramEdge_of_write_alone (hw : p.writes = true) (alone : s.otherAccess c d blk port p = none) :
    s.bramEdge old d blk port p own n =
      (s.storeLanes c d blk port p (c.lanes port p)).showWrite old c d blk port p
        ((old.bramPort d blk port).clockOut p.regCe p.regRst) := by
  subst hc
  unfold State.otherAccess at alone
  have all (lanes : BitVec 8) : lanes &&& 255#8 = lanes := BitVec.and_allOnes
  simp [State.bramEdge, hw, alone, all, State.storeLanes, State.showWrite, State.showWord] <;> rfl

/-- Of two writes of a word at one edge of one clock, port A's bytes win (R238). -/
theorem State.bramEdge_of_write_oneClock {a : BramAccess} (hw : p.writes = true) (ha : s.otherAccess c d blk port p = some a) :
    s.bramEdge old d blk port p false n =
      (s.storeLanes c d blk port p (if port = 0 then c.lanes port p else c.lanes port p &&& ~~~a.wrote)).showWrite old c d blk port p
        ((old.bramPort d blk port).clockOut p.regCe p.regRst) := by
  subst hc
  unfold State.otherAccess at ha
  simp [State.bramEdge, hw, ha, State.storeLanes, State.showWrite, State.showWord] <;> rfl

end

/-! ## The scrub (R244) -/

/-- Where the scrub of a block stands. -/
def State.scrub (s : State) (d blk : Nat) : ScrubSt := SMap.get default s.fab.scrubs (bramKey d blk)
def State.setScrub (s : State) (d blk : Nat) (z : ScrubSt) : State :=
  { s with fab := { s.fab with scrubs := SMap.set default s.fab.scrubs (bramKey d blk) z } }

theorem exec_bramScrubStep (s : State) (d : Fin 4) (blk : Fin 2560) (bUsed aWrote : Bool) :
    exec (.bramScrubStep d blk bUsed aWrote) s =
      let c := s.bramCfg d blk
      let s0 := s.draw.2
      let y := s.scrub d blk
      let v := s.bramWord d blk y.pos
      let r := dec72 v
      let s1 := if r.hasError && !y.counted then (s0.bramDeliver d blk 1 y.pos 0 8 v).2 else s0
      if !(c.secded && c.scrub) || !s0.bramReached s.free (s0.signals s.free) d blk 1 then .next s
      else if r.correctable && (bUsed || aWrote) then .next (s1.setScrub d blk { y with counted := y.counted || r.hasError })
      else .next ((if r.correctable then s1.setBramWord d blk y.pos (enc72 r.data) else s1).setScrub d blk
        ⟨(y.pos + 1) % 1024, false⟩) := rfl

/-- What a delivery of a correctable word counts (R241). -/
theorem State.bramDeliver_of_fixed {s : State} {d blk : Nat} {v : BitVec 72} {x : Nat} (hs : (s.bramCfg d blk).secded = true)
    (hv : dec72 v = .fixed x) (port w l0 n : Nat) :
    (s.bramDeliver d blk port w l0 n v).2 = s.bucket (16 * d + 4) (bramLoc blk w) := by
  simp [State.bramDeliver, hs, hv]

section
variable {s : State} {d : Fin 4} {blk : Fin 2560}

theorem exec_bramScrubStep_of_off (h : (s.bramCfg d blk).secded = false ∨ (s.bramCfg d blk).scrub = false) (bUsed aWrote : Bool) :
    exec (.bramScrubStep d blk bUsed aWrote) s = .next s := by
  rw [exec_bramScrubStep]
  rcases h with h | h <;> simp [h]

variable (hs : (s.bramCfg d blk).secded = true) (hscrub : (s.bramCfg d blk).scrub = true)
  (hreached : s.draw.2.bramReached s.free (s.draw.2.signals s.free) d blk 1 = true)
include hs hscrub hreached

/-- A correct word is passed. -/
theorem exec_bramScrubStep_of_clean {v : Nat} (hv : dec72 (s.bramWord d blk (s.scrub d blk).pos) = .clean v) (bUsed aWrote : Bool) :
    exec (.bramScrubStep d blk bUsed aWrote) s =
      .next (s.draw.2.setScrub d blk ⟨((s.scrub d blk).pos + 1) % 1024, false⟩) := by
  simp [exec_bramScrubStep, hs, hscrub, hreached, hv, SecRead.hasError, SecRead.correctable]

/-- A correctable word is counted once; it is written back corrected, or, where port B or a write of port A is in the way, left for
another step. -/
theorem exec_bramScrubStep_of_fixed {v : Nat} (hv : dec72 (s.bramWord d blk (s.scrub d blk).pos) = .fixed v)
    (hnew : (s.scrub d blk).counted = false) (bUsed aWrote : Bool) :
    exec (.bramScrubStep d blk bUsed aWrote) s =
      let y := s.scrub d blk
      let s1 := s.draw.2.bucket (16 * d + 4) (bramLoc blk y.pos)
      if bUsed || aWrote then .next (s1.setScrub d blk { y with counted := true })
      else .next ((s1.setBramWord d blk y.pos (enc72 v)).setScrub d blk ⟨(y.pos + 1) % 1024, false⟩) := by
  have counts := State.bramDeliver_of_fixed (s := s.draw.2) (d := d) (blk := blk) hs hv 1 (s.scrub d blk).pos 0 8
  simp [exec_bramScrubStep, hs, hscrub, hreached, hv, hnew, counts, SecRead.hasError, SecRead.correctable, SecRead.data]

end

/-! ## The raw test commands (R245, R246) -/

section
variable {s : State} (h : s.regWaits .eccBrcmd = false) (src : Src)
include h

theorem exec_bramRawWrite : exec (.bramRawWrite src) s = .next ((s.brCommand 1).answer src .ok) :=
  congrArg Host.Outcome.next (State.regAct_of_not_waits h ..)

theorem exec_bramRawRead : exec (.bramRawRead src) s = .next ((s.brCommand 2).answer src .ok) :=
  congrArg Host.Outcome.next (State.regAct_of_not_waits h ..)

theorem exec_bramCheckedRead : exec (.bramCheckedRead src) s = .next ((s.brCommand 3).answer src .ok) :=
  congrArg Host.Outcome.next (State.regAct_of_not_waits h ..)

end

/-- A command that cannot run ends with its code and keeps sbit and dbit. -/
theorem State.brCommand_of_refused {s : State} {k : Resp} (h : s.brRefuse = some k) {op : Nat} (hop : op ≠ 0) :
    s.brCommand op = s.brDone k (s.flag F.eccBrcmd_sbit []) (s.flag F.eccBrcmd_dbit []) := by
  simp [State.brCommand, h, hop]

section
variable {s : State} (h : s.brRefuse = none)
include h

theorem State.brCommand_rawWrite : s.brCommand 1 =
    (s.setBramWord (s.get F.eccBrsel_die []) (s.get F.eccBrsel_block []) (s.get F.eccBraddr_word [])
      (BitVec.ofNat 72 (s.pair .eccBrdataLo .eccBrdataHi [] + 2 ^ 64 * s.get F.eccBrchk_chk []))).brDone .ok
      (s.flag F.eccBrcmd_sbit []) (s.flag F.eccBrcmd_dbit []) := by
  simp only [State.brCommand, h]
  rfl

theorem State.brCommand_rawRead : s.brCommand 2 =
    let v := s.bramWord (s.get F.eccBrsel_die []) (s.get F.eccBrsel_block []) (s.get F.eccBraddr_word [])
    ((s.brData v.toNat).put F.eccBrchk_chk [] (v.toNat / 2 ^ 64)).brDone .ok
      (s.flag F.eccBrcmd_sbit []) (s.flag F.eccBrcmd_dbit []) := by
  simp only [State.brCommand, h]
  rfl

theorem State.brCommand_checkedRead : s.brCommand 3 =
    let d := s.get F.eccBrsel_die []
    let blk := s.get F.eccBrsel_block []
    let w := s.get F.eccBraddr_word []
    let r := s.bramDeliver d blk 0 w 0 8 (s.bramWord d blk w)
    let s2 := r.2.brData r.1.data.toNat
    (if (s.bramCfg d blk).secded then s2 else s2.put F.eccBrchk_chk [] r.1.perr.toNat).brDone .ok r.1.sbit r.1.dbit := by
  simp only [State.brCommand, h]
  rfl

end

/-! ## The statement -/

/-- Settles O35, command by command (log entry 24 for what edges of one instant see, 27 for the reset of the output register, 28 for
the raw commands, which complete at once). -/
theorem blockRam : Obligations.BlockRam := by
  intro s d blk port rel src e u old ev p c w l0 x other lanes new stored shows wr rd y s0 scrub
  have hc : u.bramCfg d blk = c := s.bramCfg_bramEdgeStart rel d blk
  have write_of (hreached : s.edgeReached rel d blk port = true) (hen : p.en = true) (hwe : p.we ≠ 0#8) :
      wr = .next (u.bramEdge old d blk port p c.ownClocks e.1) :=
    congrArg Host.Outcome.next (State.bramStep_of_reached hreached (BramPins.writes_eq_true_iff.mpr ⟨hen, hwe⟩))
  have read_of (hreached : s.edgeReached rel d blk port = true) (hnot : p.writes = false) :
      rd = .next (u.bramEdge old d blk port p c.ownClocks e.1) :=
    congrArg Host.Outcome.next (State.bramStep_of_reached hreached hnot)
  refine ⟨fun h => ⟨?_, ?_⟩, fun hreached => ⟨fun hw => ?_, fun hw => ?_, fun hen => ?_, fun hen hwe alone => ?_,
    fun hen hwe alone => ?_, fun a hen hwe ha one keeps => ?_⟩, fun h => exec_bramScrubStep_of_off h,
    fun hs hscrub hreached => ⟨fun v b a hv => ?_, fun v hv hnew => ⟨?_, ?_⟩⟩, ?_⟩
  · exact congrArg Host.Outcome.next (State.bramStep_of_not_reached h)
  · exact congrArg Host.Outcome.next (State.bramStep_of_not_reached h)
  · exact congrArg Host.Outcome.next (State.bramStep_of_other_kind hw)
  · exact congrArg Host.Outcome.next (State.bramStep_of_other_kind hw)
  · exact (read_of hreached (BramPins.writes_of_not_en hen)).trans (congrArg _ (State.bramEdge_of_not_en hen))
  · exact (read_of hreached (BramPins.writes_of_we_zero hwe)).trans (congrArg _ (State.bramEdge_of_read_alone hc hen hwe alone))
  · have stores := (write_of hreached hen hwe).trans
      (congrArg _ (State.bramEdge_of_write_alone hc (BramPins.writes_eq_true_iff.mpr ⟨hen, hwe⟩) alone))
    exact ⟨fun mode => stores.trans (congrArg _ (State.showWrite_of_writeFirst mode)),
      fun mode => stores.trans (congrArg _ (State.showWrite_of_readFirst mode)),
      fun mode => stores.trans (congrArg _ (State.showWrite_of_keeps mode))⟩
  · have same : c.ownClocks = false := congrArg (!·) one
    have stores := write_of hreached hen hwe
    rw [same, State.bramEdge_of_write_oneClock hc (BramPins.writes_eq_true_iff.mpr ⟨hen, hwe⟩) ha,
      State.showWrite_of_keeps keeps, if_congr Fin.val_eq_zero_iff rfl rfl] at stores
    exact stores
  · exact exec_bramScrubStep_of_clean hs hscrub hreached hv b a
  · exact exec_bramScrubStep_of_fixed hs hscrub hreached hv hnew false false
  · exact exec_bramScrubStep_of_fixed hs hscrub hreached hv hnew true false
  · intro sb db bd bb bw v hw
    rw [exec_bramRawWrite hw, exec_bramRawRead hw, exec_bramCheckedRead hw]
    refine ⟨fun k hk => ?_, fun hk => ?_⟩
    · rw [State.brCommand_of_refused hk (by decide), State.brCommand_of_refused hk (by decide),
        State.brCommand_of_refused hk (by decide)]
      exact ⟨rfl, rfl, rfl⟩
    · rw [State.brCommand_rawWrite hk, State.brCommand_rawRead hk, State.brCommand_checkedRead hk]
      exact ⟨rfl, rfl, rfl⟩

end Sys2Proof.Machine
end

section
/-!
PROOFS. Registered crossings and shift sparing: the cycles of a group, the rotation and the test of its probe, holds and live shifts
(R264, R266, R270 to R275; O27).
-/

namespace Sys2Proof.Machine

section
variable {s : State} {g : Fin 480} {dir : Fin 2}

/-! ## A cycle of a group (R264, R266, R275) -/

/-- The machine on which a cycle of a group acts: the edge has begun, and the probe stands at the present turn. -/
def State.crossingStart (s : State) (g dir : Nat) (rel : EdgeRel) : State := (s.enterEdge rel).draw.2.rotateProbe g dir

/-- Whether a byte lane of a group is checked for parity: one of a packet group, or a registered one. -/
def State.laneChecked (s : State) (g dir b : Nat) : Bool := s.role g == 2 || (s.role g == 1 && (s.xgroup g dir).registered b)

theorem State.laneChecked_iff (s : State) (g dir b : Nat) :
    s.laneChecked g dir b = true ↔ s.role g = 2 ∨ (s.role g = 1 ∧ (s.xgroup g dir).registered b = true) := by
  simp [State.laneChecked]

/-- The group after a cycle without failures: one edge more, the launched and the delivered signals, and the failures of the last
9,216 cycles. -/
def XGroup.cleanCycle (x : XGroup) (tx : BitVec 128) (rx : BitVec 144) : XGroup :=
  { x with
    count := (x.count + 1) % 2 ^ 32, tx := tx, rx := rx, xerr := 0#16
    fails := x.fails.filter (fun e => decide ((x.count + 2 ^ 32 - e.2) % 2 ^ 32 < 9215)) }

theorem bus_false (w : Nat) : bus w (fun _ => false) = 0#w := by
  simp [bus, b2n]

/-- Without a wrong level no spare shows an error. -/
theorem State.shownBad_of_no_error (s : State) (g dir : Nat) : s.shownBad g dir 0#152 = [] := by
  simp [State.shownBad]

theorem exec_crossingReceive_of_stopped (h : s.groupRuns g dir = false) (err : BitVec 152) (rel : EdgeRel) :
    exec (.crossingReceive g dir err rel) s = .next s := if_pos (by simp [h])

/-- A cycle in which no level is wrong, no shift is due and every checked lane has good parity. -/
theorem exec_crossingReceive_of_clean {rel : EdgeRel} (hrun : s.groupRuns g dir = true)
    (hinj : (s.crossingStart g dir rel).injected g dir = none) (hdue : (s.crossingStart g dir rel).shiftDue g dir = none)
    (hpar : ∀ b < 16, (s.crossingStart g dir rel).laneChecked g dir b = true →
      laneParOk ((s.crossingStart g dir rel).arriving g dir 0#152) b = true) :
    exec (.crossingReceive g dir 0#152 rel) s =
      let e := (s.enterEdge rel).draw
      let u := s.crossingStart g dir rel
      .next ((u.setXg g dir ((u.xgroup g dir).cleanCycle (e.2.seen.txNext e.1 g dir)
        (u.delivered g dir (u.arriving g dir 0#152)))).syncSpares g dir) := by
  have none_bad : (List.range 16).filter (fun b => (s.crossingStart g dir rel).laneChecked g dir b &&
      !laneParOk ((s.crossingStart g dir rel).arriving g dir 0#152) b) = [] := by
    refine List.filter_eq_nil_iff.mpr fun b hb => ?_
    simpa using hpar b (List.mem_range.mp hb)
  change execCrossingReceive g dir 0#152 rel s = _
  unfold State.crossingStart State.laneChecked at *
  simp [execCrossingReceive, hrun, hinj, hdue, none_bad, State.shownBad_of_no_error, bus_false, XGroup.cleanCycle]

/-! ## The probe: its rotation and the test of a spare (R271, R272) -/

theorem State.rotateProbe_of_stays
    (h : s.hasProbe g dir = false ∨ (s.xgroup g dir).test.isSome = true ∨ (s.xgroup g dir).sub.isSome = true ∨
      ((s.xgroup g dir).count / 64 = (s.xgroup g dir).turn ∧ (s.get F.glbXgstat_probe [g.val, dir.val] == 0xFF) = false)) :
    s.rotateProbe g dir = s := if_pos (by simpa [or_assoc] using h)

/-- At a new turn, or after a fresh start, the probe takes the signal of the turn. -/
theorem State.rotateProbe_of_moves (hprobe : s.hasProbe g dir = true) (htest : (s.xgroup g dir).test = none)
    (hsub : (s.xgroup g dir).sub = none)
    (hturn : (s.xgroup g dir).count / 64 ≠ (s.xgroup g dir).turn ∨ (s.get F.glbXgstat_probe [g.val, dir.val] == 0xFF) = true) :
    s.rotateProbe g dir =
      let x := s.xgroup g dir
      let vs := s.visited g dir
      (s.setXg g dir { x with
        turn := x.count / 64
        open_ := if s.get F.glbXgstat_probe [g.val, dir.val] == 0xFF then x.open_ else x.open_.map (fun e => (e.1, e.2 + 1)) }).put
        F.glbXgstat_probe [g.val, dir.val] (vs.getD (x.count / 64 % vs.length) 0) := by
  refine if_neg ?_
  simpa [hprobe, htest, hsub, imp_iff_not_or] using hturn

theorem exec_spareTestDone_of_no_test (h : (s.xgroup g dir).test = none) : exec (.spareTestDone g dir) s = .next s := by
  change execSpareTestDone g dir s = _
  simp only [execSpareTestDone, h]

section
variable {k : XTest} (h : (s.xgroup g dir).test = some k)
include h

theorem exec_spareTestDone_of_running (hend : reached (s.xgroup g dir).count ((k.at_ + 4096) % 2 ^ 32) = false) :
    exec (.spareTestDone g dir) s = .next s := by
  change execSpareTestDone g dir s = _
  simp only [execSpareTestDone, h]
  exact if_pos (by simpa using hend)

variable (hend : reached (s.xgroup g dir).count ((k.at_ + 4096) % 2 ^ 32) = true)
include hend

/-- The spare has shown no error, so the wire it stood beside has failed. -/
theorem exec_spareTestDone_of_good (hgood : k.bad = false) :
    exec (.spareTestDone g dir) s = .next ((s.setXg g dir { s.xgroup g dir with test := none }).judgeFailed g dir k.wire) := by
  change execSpareTestDone g dir s = _
  simp only [execSpareTestDone, h]
  exact (if_neg (by simpa using hend)).trans (if_neg (by simp [hgood]))

theorem exec_spareTestDone_of_bad {wire : Nat} (hbad : k.bad = true)
    (hwire : (s.setXg g dir { s.xgroup g dir with test := none }).probeWire g dir = some wire) :
    exec (.spareTestDone g dir) s =
      .next (((s.setXg g dir { s.xgroup g dir with test := none }).markSpare g dir (wire - 144)).syncSpares g dir) := by
  change execSpareTestDone g dir s = _
  simp only [execSpareTestDone, h, hwire]
  exact (if_neg (by simpa using hend)).trans (if_pos hbad)

end

theorem exec_transientParityFailure (s : State) (g : Fin 480) (dir : Fin 2) :
    exec (.transientParityFailure g dir) s =
      let x := s.xgroup g dir
      let s1 := s.setXg g dir { x with open_ := x.open_.filter (fun e => !s.unexplained g dir e.2) }
      .next (if (x.open_.filter (fun e => s.unexplained g dir e.2)).any
          (fun e => !(s.get F.glbXgcnt_lostLanes [g.val, dir.val]).testBit e.1)
        then s1.raise F.glbXgstat_transient [g.val, dir.val] else s1) :=
  (apply_ite Host.Outcome.next ..).symm

/-! ## Holds and live shifts (R273, R274) -/

section
variable (h : (s.xgroup g dir).holds = [])
include h

theorem State.shiftDue_of_no_hold : s.shiftDue g dir = none := by
  simp only [State.shiftDue, h]

theorem exec_holdRequest_of_no_hold : exec (.holdRequest g dir) s = .next s := by
  change execHoldRequest g dir s = _
  simp only [execHoldRequest, h]

theorem exec_probeSubstitute_of_no_hold : exec (.probeSubstitute g dir) s = .next s := by
  change execProbeSubstitute g dir s = _
  simp only [execProbeSubstitute, h]

end

theorem exec_liveShift_of_not_due (h : s.shiftDue g dir = none) : exec (.liveShift g dir) s = .next s := by
  change execLiveShift g dir s = _
  simp only [execLiveShift, h]

/-- Where the edge count has passed K, the shift is noted as late. -/
theorem exec_liveShift_of_due {o : XHold} (h : s.shiftDue g dir = some o) (hspare : s.freeSpares g dir ≠ []) :
    exec (.liveShift g dir) s =
      let s1 := s.shiftGroup g dir o.wire
      .next (if (s.xgroup g dir).count = o.k then s1 else s1.raise F.glbXgstat_late [g.val, dir.val]) := by
  change execLiveShift g dir s = _
  simp only [execLiveShift, h]
  exact if_neg (by simpa using hspare)

section
variable {o : XHold} {rest : List XHold} (h : (s.xgroup g dir).holds = o :: rest) (hrole : s.role g = 1)
include h

theorem State.shiftDue_of_before_k (hk : reached (s.xgroup g dir).count o.k = false) : s.shiftDue g dir = none := by
  simp only [State.shiftDue, h]
  exact if_neg (by simp [hk])

include hrole

theorem State.shiftDue_of_reached (hasked : o.asked = true) (hk : reached (s.xgroup g dir).count o.k = true)
    (htau : o.tau ≤ s.now (sender (edgeOf g) dir)) : s.shiftDue g dir = some o := by
  simp only [State.shiftDue, h]
  exact if_pos (by simp [hasked, hrole, hk, htau])

/-- The edge counts of a hold are those of the edges that its times span, rounded up (log entry 111). -/
theorem exec_holdRequest_of_new (hasked : o.asked = false) :
    exec (.holdRequest g dir) s =
      let x := s.xgroup g dir
      let now := s.now (sender (edgeOf g) dir)
      let tau := s.nextMoment (now + 8000)
      .next ((s.setXg g dir { x with holds := { o with
        asked := true
        k1 := (x.count + s.edgesIn g dir 2000) % 2 ^ 32
        k := (x.count + s.edgesIn g dir (tau - now)) % 2 ^ 32
        tau := tau } :: rest }).raise F.glbXgstat_pending [g.val, dir.val]) := by
  change execHoldRequest g dir s = _
  simp only [execHoldRequest, h]
  exact if_neg (by simp [hasked, hrole])

theorem exec_probeSubstitute_of_reached (hasked : o.asked = true) (hprobe : s.hasProbe g dir = true)
    (hk1 : reached (s.xgroup g dir).count o.k1 = true) :
    exec (.probeSubstitute g dir) s =
      let x := s.xgroup g dir
      let sig := s.signalOn g dir o.wire
      .next ((s.setXg g dir { x with
        sub := some o.wire, test := none, open_ := x.open_.filter (fun e => e.1 != laneOf sig) }).put
        F.glbXgstat_probe [g.val, dir.val] sig) := by
  change execProbeSubstitute g dir s = _
  simp only [execProbeSubstitute, h]
  exact if_pos (by simp [hasked, hrole, hprobe, hk1])

end

end

/-- Settles O27, event by event (log entry 111 for the edge counts of a hold and the pending flag of a request). -/
theorem crossingSparing : Obligations.CrossingSparing := by
  intro s g dir rel err x ix vs
  refine ⟨fun h => exec_crossingReceive_of_stopped h err rel, fun hrun hinj hdue hpar => ?_,
    ⟨fun h => congrArg Host.Outcome.next (State.rotateProbe_of_stays h),
      fun hp ht hs hturn => congrArg Host.Outcome.next (State.rotateProbe_of_moves hp ht hs hturn)⟩,
    exec_spareTestDone_of_no_test, fun k hk => ⟨exec_spareTestDone_of_running hk, fun hend => ⟨exec_spareTestDone_of_good hk hend,
      fun wire hbad hwire => exec_spareTestDone_of_bad hk hend hbad hwire⟩⟩, exec_transientParityFailure s g dir,
    fun h => ⟨exec_holdRequest_of_no_hold h, exec_probeSubstitute_of_no_hold h,
      exec_liveShift_of_not_due (State.shiftDue_of_no_hold h)⟩,
    fun o rest h hrole => ⟨exec_holdRequest_of_new h hrole, fun hasked => ⟨exec_probeSubstitute_of_reached h hrole hasked,
      fun hk => exec_liveShift_of_not_due (State.shiftDue_of_before_k h hk),
      fun hspare hk htau => exec_liveShift_of_due (State.shiftDue_of_reached h hrole hasked hk htau) hspare⟩⟩⟩
  exact exec_crossingReceive_of_clean hrun hinj hdue fun b hb hchecked => hpar b hb ((State.laneChecked_iff _ g dir b).mp hchecked)

end Sys2Proof.Machine
end

section
/-!
PROOFS. Packet links: flits received, resent and acknowledged, the shift of a packet group, and the crossing registers (R272, R278 to
R282, R427; O28).
-/

namespace Sys2Proof.Machine

/-! ## FLIT_RECEIVE (R278 to R281) -/

/-- The link direction that a group and direction belong to. -/
def linkOf (g dir : Nat) : Nat := 2 * edgeOf g + dir

/-- The receiving end of a link direction answers with a NAK flit that gives the number it expects. -/
def State.nak (s : State) (l : Nat) : State := s.launch (backLink l) 0#672 (s.link (backLink l)).next 1 true

/-- The length of the present run of CRC failures of a group. -/
def State.setCrcRun (s : State) (g dir n : Nat) : State := s.setXg g dir { s.xgroup g dir with crcRun := n }

/-- The pending shift of a group `x` is made before a flit at or after its number S (R281). -/
def State.shiftBefore (s : State) (x : XGroup) (g dir seq : Nat) : State :=
  match x.shift, x.holds with
  | some q, h :: _ => if (seq + 4096 - q) % 4096 < 2048 then s.shiftGroup g dir h.wire else s
  | _, _ => s

/-- A data flit is delivered in its turn, with those that had come ahead of it; one ahead of its turn is kept, and one already
received does nothing (R280). -/
def State.takeData (s : State) (l seq : Nat) (bits : BitVec 672) : State :=
  let y := s.link l
  if seq = y.expect then (s.deliverFlit l bits).deliverEarly l 512
  else if 512 ≤ (seq + 4096 - y.expect) % 4096 ∨ y.early.any (fun e => e.1 == seq) then s
  else s.setLink l { y with early := y.early ++ [(seq, bits)] }

section
variable {s : State} {g : Fin 480} {dir : Fin 2} {flit : BitVec 768}

theorem exec_flitReceive_of_down (h : s.packetWorks g = false) (uiBad : BitVec 16) :
    exec (.flitReceive g dir flit uiBad) s = .next s := if_pos (by simp [h])

variable (hworks : s.packetWorks g = true)
include hworks

/-- A flit with a wrong CRC counts and is answered with a NAK; the sixteenth in a row retires the group (R282). -/
theorem exec_flitReceive_of_bad_crc (hcrc : flitCrcOk flit = false) :
    exec (.flitReceive g dir flit 0#16) s =
      let run := (s.xgroup g dir).crcRun + 1
      let u := (s.setCrcRun g dir run).nak (linkOf g dir)
      .next (if 16 ≤ run then u.retireGroup g dir else u) := by
  change execFlitReceive g dir flit 0#16 s = _
  simp [execFlitReceive, hworks, hcrc, State.nak, State.setCrcRun, linkOf]

/-- What a good flit brings back takes effect; then a data flit is taken. -/
theorem exec_flitReceive_of_good_crc (hcrc : flitCrcOk flit = true) :
    exec (.flitReceive g dir flit 0#16) s =
      let n := flit.toNat
      let s1 := ((s.setCrcRun g dir 0).shiftBefore (s.xgroup g dir) g dir (bitsOf n 683 672)).flitReturns (linkOf g dir) flit
      .next (if bitsOf n 713 712 ≠ 0 then s1 else s1.takeData (linkOf g dir) (bitsOf n 683 672) (flit.extractLsb' 0 672)) := by
  change execFlitReceive g dir flit 0#16 s = _
  simp [execFlitReceive, hworks, hcrc, State.setCrcRun, linkOf, State.takeData, apply_ite Host.Outcome.next] <;> rfl

/-- A good flit where no shift is pending. -/
theorem exec_flitReceive_of_no_shift (hcrc : flitCrcOk flit = true) (hshift : (s.xgroup g dir).shift = none) :
    exec (.flitReceive g dir flit 0#16) s =
      let n := flit.toNat
      let s1 := (s.setCrcRun g dir 0).flitReturns (linkOf g dir) flit
      .next (if bitsOf n 713 712 ≠ 0 then s1 else s1.takeData (linkOf g dir) (bitsOf n 683 672) (flit.extractLsb' 0 672)) := by
  rw [exec_flitReceive_of_good_crc hworks hcrc]
  simp only [State.shiftBefore, hshift]

end

section
variable {s : State} {l seq : Nat} {bits : BitVec 672}

theorem State.takeData_of_expected (h : seq = (s.link l).expect) :
    s.takeData l seq bits = (s.deliverFlit l bits).deliverEarly l 512 := if_pos h

variable (h : seq ≠ (s.link l).expect)
include h

theorem State.takeData_of_ahead (hnear : (seq + 4096 - (s.link l).expect) % 4096 < 512)
    (hnew : (s.link l).early.any (fun e => e.1 == seq) = false) :
    s.takeData l seq bits = s.setLink l { s.link l with early := (s.link l).early ++ [(seq, bits)] } :=
  (if_neg h).trans (if_neg (by rw [hnew]; simpa using hnear))

theorem State.takeData_of_received (hpast : 512 ≤ (seq + 4096 - (s.link l).expect) % 4096) : s.takeData l seq bits = s :=
  (if_neg h).trans (if_pos (Or.inl hpast))

end

theorem State.shiftBefore_of_due {s : State} {x : XGroup} {g dir seq a : Nat} {o : XHold} {rest : List XHold}
    (hshift : x.shift = some a) (hholds : x.holds = o :: rest) (hdue : (seq + 4096 - a) % 4096 < 2048) :
    s.shiftBefore x g dir seq = s.shiftGroup g dir o.wire := by
  simp only [State.shiftBefore, hshift, hholds]
  exact if_pos hdue

/-! ## FLIT_REPLAY and PACKET_SHIFT (R280 to R282) -/

theorem exec_flitReplay (s : State) (link : Fin 20) (seq : BitVec 12) :
    exec (.flitReplay link seq) s =
      let y := (s.link link).acked ((seq.toNat + 4095) % 4096)
      .next ((y.replay.filter (fun e => decide ((e.1 + 4096 - seq.toNat) % 4096 < 2048))).foldl
        (fun u e => u.launch link e.2 e.1 0 false) (s.setLink link y)) := by
  change execFlitReplay link seq s = _
  simp [execFlitReplay, State.resend]

section
variable {s : State} {g : Fin 480} {dir : Fin 2} {o : XHold} {rest : List XHold}
  (hholds : (s.xgroup g dir).holds = o :: rest) (hrole : s.role g = 2)
include hholds hrole

theorem exec_packetShift_of_held (seq : BitVec 12) :
    exec (.packetShift g dir seq) s =
      if (s.freeSpares g dir).isEmpty then
        .next (((s.setXg g dir { s.xgroup g dir with holds := [], shift := none }).put F.glbXgstat_pending [g.val, dir.val] 0).retireGroup
          g dir)
      else .next ((s.setXg g dir { s.xgroup g dir with shift := some seq.toNat }).raise F.glbXgstat_pending [g.val, dir.val]) :=
  if_neg (by simp [hholds, hrole])

/-- Without a free spare the group is retired. -/
theorem exec_packetShift_of_no_spare (h : s.freeSpares g dir = []) (seq : BitVec 12) :
    exec (.packetShift g dir seq) s =
      .next (((s.setXg g dir { s.xgroup g dir with holds := [], shift := none }).put F.glbXgstat_pending [g.val, dir.val] 0).retireGroup
        g dir) :=
  (exec_packetShift_of_held hholds hrole seq).trans (if_pos (by simp [h]))

theorem exec_packetShift_of_spare (h : s.freeSpares g dir ≠ []) (seq : BitVec 12) :
    exec (.packetShift g dir seq) s =
      .next ((s.setXg g dir { s.xgroup g dir with shift := some seq.toNat }).raise F.glbXgstat_pending [g.val, dir.val]) :=
  (exec_packetShift_of_held hholds hrole seq).trans (if_neg (by simpa using h))

end

/-! ## The crossing registers (R272, R427) -/

theorem exec_crossingInject {s : State} (h : s.regWaits .glbXinj = false) (src : Src) (w : Word32) :
    exec (.crossingInject src w) s = .next ((s.writeReg .glbXinj [] (w ||| 0x80000000#32)).answer src .ok) :=
  congrArg Host.Outcome.next (State.regAct_of_not_waits h ..)

/-- Settles O28, event by event (log entries 38 for the entry of a shift, 107 for the router that a flit enters, 111 for the pending flag
of a packet group). -/
theorem packetLinks : Obligations.PacketLinks := by
  intro s g dir flit link seq src w x l n nak
  refine ⟨fun h => exec_flitReceive_of_down h 0#16, fun hworks => ⟨fun hcrc hrun => ?_, fun hcrc hrun => ?_, fun hcrc hshift => ?_,
    fun a o rest hcrc hshift hholds hdue hkind => ?_⟩, exec_flitReplay s link seq,
    fun o rest hholds hrole => ⟨fun h => exec_packetShift_of_no_spare hholds hrole h seq,
      fun h => exec_packetShift_of_spare hholds hrole h seq⟩, fun h => exec_crossingInject h src w, rfl⟩
  · exact (exec_flitReceive_of_bad_crc hworks hcrc).trans (congrArg _ (if_neg (Nat.not_le.mpr (Nat.succ_lt_succ hrun))))
  · exact (exec_flitReceive_of_bad_crc hworks hcrc).trans (congrArg _ (if_pos (Nat.succ_le_succ hrun)))
  · have taken := exec_flitReceive_of_no_shift hworks hcrc hshift
    refine ⟨fun hkind => taken.trans (congrArg _ (if_pos hkind)), fun hkind => ?_⟩
    have data := taken.trans (congrArg _ (if_neg (not_not.mpr hkind)))
    exact ⟨fun h => data.trans (congrArg _ (State.takeData_of_expected h)),
      fun h hnear hnew => data.trans (congrArg _ (State.takeData_of_ahead h hnear hnew)),
      fun h hpast => data.trans (congrArg _ (State.takeData_of_received h hpast))⟩
  · have taken := (exec_flitReceive_of_good_crc (dir := dir) hworks hcrc).trans (congrArg _ (if_pos hkind))
    rw [State.shiftBefore_of_due hshift hholds hdue] at taken
    exact taken

end Sys2Proof.Machine
end

section
/-!
PROOFS. Routers of the network on chip: flits that arrive, wait and leave, route changes, traces, probes and histograms (R279, R355 to
R357, R367, R368, R373, R374; O30).
-/

namespace Sys2Proof.Machine

/-! ## What the log and the buckets leave of the network -/

section
variable (s : State)

@[simp] theorem State.sendMsix_noc (v : Nat) : (s.sendMsix v).noc = s.noc := by
  unfold State.sendMsix
  split <;> rfl

@[simp] theorem State.interrupt_ecc_noc : (s.interrupt .ecc).noc = s.noc :=
  State.sendMsix_noc { s with plic := s.plic ||| BitVec.ofNat 512 (2 ^ Irq.ecc.plic) } _

@[simp] theorem State.logEv_noc (site kind index event sev : Nat) (payload : List Byte) :
    (s.logEv site kind index event sev payload).noc = s.noc := by
  simp only [State.logEv]
  split <;> rfl

@[simp] theorem State.bucket_noc (b : Nat) (loc : List Byte) : (s.bucket b loc).noc = s.noc := by
  simp only [State.bucket]
  split
  · split
    · split <;> simp
    · rfl
  · rfl

end

@[simp] theorem State.discardFlit_noc (s : State) (r port : Nat) : (s.discardFlit r port).noc = s.noc := State.logEv_noc ..

@[simp] theorem State.noRoute_noc (s : State) (r m a : Nat) : (s.noRoute r m a).noc = s.noc := State.logEv_noc ..

theorem State.waitingAt_of_noc {s u : State} (h : u.noc = s.noc) (r port : Nat) : u.waitingAt r port = s.waitingAt r port := by
  rw [State.waitingAt, State.waitingAt, h]

theorem State.arbiter_of_noc {s u : State} (h : u.noc = s.noc) (r port : Nat) : u.arbiter r port = s.arbiter r port := by
  rw [State.arbiter, State.arbiter, h]

theorem State.waitingAt_setWaiting_ne (s : State) {r p q : Nat} (l : List WaitFlit) (h : q ≠ p) :
    (s.setWaiting r p l).waitingAt r q = s.waitingAt r q :=
  SMap.get_set_ne _ _ _ (by omega)

/-! ## Which flit an output takes (R368) -/

theorem findSome?_eq_some_of_only {α β : Type} {l : List α} {f : α → Option β} {b : β} (hsome : ∃ a ∈ l, f a = some b)
    (honly : ∀ a ∈ l, ∀ c, f a = some c → c = b) : l.findSome? f = some b := by
  obtain ⟨a, ha, hb⟩ := hsome
  have found : (l.findSome? f).isSome := List.findSome?_isSome_iff.mpr ⟨a, ha, by simp [hb]⟩
  obtain ⟨c, hc⟩ := Option.isSome_iff_exists.mp found
  obtain ⟨i, hi, hic⟩ := List.exists_of_findSome?_eq_some hc
  rw [hc, honly i hi c hic]

theorem find?_and_eq_some {α : Type} {l : List α} {p q : α → Bool} {a : α} (h : l.find? (fun x => p x && q x) = some a) :
    a ∈ l ∧ p a = true := by
  have both := List.find?_some h
  exact ⟨List.mem_of_find?_eq_some h, (Bool.and_eq_true_iff.mp both).1⟩

theorem roundRobin_mem {fs : List WaitFlit} {ok : WaitFlit → Bool} {last : Nat} {f : WaitFlit} (h : roundRobin fs ok last = some f) :
    f ∈ fs ∧ ok f = true := by
  obtain ⟨i, _, hi⟩ := List.exists_of_findSome?_eq_some h
  exact find?_and_eq_some hi

/-- Every input has its turn, so a flit that alone is admitted is taken. -/
theorem roundRobin_of_only {fs : List WaitFlit} {ok : WaitFlit → Bool} {f : WaitFlit} (hf : f ∈ fs) (hok : ok f = true)
    (honly : ∀ g ∈ fs, ok g = true → g = f) (last : Nat) : roundRobin fs ok last = some f := by
  have admitted : ∀ i c, fs.find? (fun g => ok g && g.flit.input.val == (last + 1 + i) % 8) = some c → c = f := fun i c hc =>
    honly c (find?_and_eq_some hc).1 (find?_and_eq_some hc).2
  obtain ⟨i, hi, turn⟩ : ∃ i < 8, f.flit.input.val = (last + 1 + i) % 8 :=
    ⟨(f.flit.input.val + 8 - (last + 1) % 8) % 8, by omega, by omega⟩
  have found : (fs.find? (fun g => ok g && g.flit.input.val == (last + 1 + i) % 8)).isSome :=
    List.find?_isSome.mpr ⟨f, hf, by simp [hok, turn]⟩
  obtain ⟨c, hc⟩ := Option.isSome_iff_exists.mp found
  exact findSome?_eq_some_of_only ⟨i, List.mem_range.mpr hi, by rw [hc, admitted i c hc]⟩ fun i _ => admitted i

theorem pickFlit_of_none {fs : List WaitFlit} {ok : WaitFlit → Bool} (h : ∀ f ∈ fs, ok f = false) (a : ArbSt) :
    pickFlit a fs ok = none := by
  refine List.findSome?_eq_none_iff.mpr fun c _ => Option.eq_none_iff_forall_ne_some.mpr fun f hf => ?_
  obtain ⟨hmem, hok⟩ := roundRobin_mem hf
  simp [h f hmem] at hok

/-- A flit that alone holds credit among the classes that the output looks at is taken. -/
theorem pickFlit_of_only {a : ArbSt} {fs : List WaitFlit} {ok : WaitFlit → Bool} {f : WaitFlit} (hf : f ∈ fs) (hok : ok f = true)
    (hcls : f.cls ∈ classOrder a (fs.any (fun g => g.cls != 0)))
    (honly : ∀ g ∈ fs, g.cls ∈ classOrder a (fs.any (fun g => g.cls != 0)) → ok g = true → g = f) :
    pickFlit a fs ok = some f := by
  refine findSome?_eq_some_of_only ⟨f.cls, hcls, roundRobin_of_only hf (by simp [hok]) (fun g hg h => ?_) _⟩ fun c hc g hg => ?_
  · obtain ⟨hc, hok⟩ := Bool.and_eq_true_iff.mp h
    exact honly g hg (by rwa [beq_iff_eq.mp hc]) hok
  · obtain ⟨hmem, h⟩ := roundRobin_mem hg
    obtain ⟨hgc, hok⟩ := Bool.and_eq_true_iff.mp h
    exact honly g hmem (by rwa [beq_iff_eq.mp hgc]) hok

theorem WaitFlit.cls_lt (f : WaitFlit) : f.cls < 4 := Nat.mod_lt _ (by decide)

/-- How many of the last cycles real-time took while others waited. -/
def ArbSt.served (a : ArbSt) : Nat := (a.hist.take 31).countP (· == true)

theorem classOrder_eq (a : ArbSt) (others : Bool) :
    classOrder a others = (if others && 24 ≤ a.served then [] else [0]) ++ [2] ++ (if a.bulk then [3, 1] else [1, 3]) := rfl

/-- Every class but real-time has its place in the order, and real-time too unless it has had its share while others wait. -/
theorem mem_classOrder {a : ArbSt} {others : Bool} {c : Nat} (hc : c < 4) :
    c ∈ classOrder a others ↔ c ≠ 0 ∨ ¬ (others = true ∧ 24 ≤ a.served) := by
  rw [classOrder_eq]
  interval_cases c <;> cases a.bulk <;> simp

/-- Real-time comes first while it has not had its share. -/
theorem classOrder_of_share {a : ArbSt} (h : a.served < 24) (others : Bool) :
    classOrder a others = 0 :: 2 :: (if a.bulk then [3, 1] else [1, 3]) := by
  simp [classOrder_eq, Nat.not_le.mpr h]

theorem pickFlit_single {ok : WaitFlit → Bool} {f : WaitFlit} (a : ArbSt) (hok : ok f = true) : pickFlit a [f] ok = some f := by
  refine pickFlit_of_only (List.mem_singleton_self f) hok ((mem_classOrder f.cls_lt).mpr ?_) fun g hg _ _ => List.mem_singleton.mp hg
  by_cases h : f.cls = 0 <;> simp [h]

/-- Of a real-time and another flit the real-time one is taken, unless real-time has had its share. -/
theorem pickFlit_realtime {a : ArbSt} {ok : WaitFlit → Bool} {f g : WaitFlit} (hf : f.cls ≠ 0) (hg : g.cls = 0) (hfok : ok f = true)
    (hgok : ok g = true) :
    pickFlit a [f, g] ok = some (if 24 ≤ a.served then f else g) := by
  have others : [f, g].any (fun x => x.cls != 0) = true := by simp [hf]
  split
  next had =>
    refine pickFlit_of_only (by simp) hfok ((mem_classOrder f.cls_lt).mpr (Or.inl hf)) fun x hx hcls _ => ?_
    obtain rfl | rfl : x = f ∨ x = g := by simpa using hx
    · rfl
    · exact absurd ((mem_classOrder x.cls_lt).mp hcls) (by simp [hg, others, had])
  next share =>
    rw [pickFlit, classOrder_of_share (Nat.not_le.mp share)]
    have first := roundRobin_of_only (ok := fun x => x.cls == 0 && ok x) (by simp : g ∈ [f, g]) (by simp [hg, hgok])
      (fun x hx h => by
        obtain rfl | rfl : x = f ∨ x = g := by simpa using hx
        · simp [hf] at h
        · rfl) (SMap.get 7 a.last 0)
    rw [List.findSome?_cons, first]

/-! ## A cycle at an output -/

/-- The arbitration after a cycle in which nothing left. -/
def ArbSt.idleCycle (a : ArbSt) : ArbSt := { a with hist := (false :: a.hist).take 31 }

/-- The output after a cycle in which a flit has been taken; of the others those without credit have waited a cycle. -/
def State.afterTaking (s : State) (r port : Nat) (credit : BitVec 8) (f : WaitFlit) : State :=
  (s.setArbiter r port ((s.arbiter r port).after (s.waitingAt r port) (some f))).setWaiting r port
    (((s.waitingAt r port).erase f).map (fun g => if s.hasCredit r port credit g then g else { g with waited := g.waited + 1 }))

/-- The output after a cycle in which the only flit that waited has left. -/
def State.afterOnly (s : State) (r port : Nat) (f : WaitFlit) : State :=
  let a := s.arbiter r port
  (s.setArbiter r port
    { hist := (false :: a.hist).take 31, last := SMap.set 7 a.last f.cls f.flit.input.val
      bulk := if f.cls = 1 then true else if f.cls = 3 then false else a.bulk }).setWaiting r port []

section
variable {s : State} {r port : Nat} {credit : BitVec 8}

theorem State.outputCycle_of_idle (h : s.waitingAt r port = []) (hport : port ≠ 6) :
    s.outputCycle r port credit = (s.setArbiter r port (s.arbiter r port).idleCycle).setWaiting r port [] := by
  have nothing : ∀ ok, pickFlit (s.arbiter r port) [] ok = none := fun ok => pickFlit_of_none (by simp) _
  simp [State.outputCycle, h, nothing, hport, ArbSt.after, ArbSt.idleCycle]

variable {f : WaitFlit}

theorem State.outputCycle_of_taken (h : pickFlit (s.arbiter r port) (s.waitingAt r port) (s.hasCredit r port credit) = some f) :
    s.outputCycle r port credit = (s.afterTaking r port credit f).moveFlit r port f := by
  simp only [State.outputCycle, h, State.afterTaking]

theorem State.outputCycle_of_credit (h : s.waitingAt r port = [f]) (hcredit : s.hasCredit r port credit f = true) :
    s.outputCycle r port credit = (s.afterTaking r port credit f).moveFlit r port f :=
  State.outputCycle_of_taken (by rw [h, pickFlit_single _ hcredit])

theorem State.afterTaking_of_only (h : s.waitingAt r port = [f]) : s.afterTaking r port credit f = s.afterOnly r port f := by
  have alone : (f.cls == 0 && f.cls != 0) = false := Bool.and_not_self _
  simp [State.afterTaking, State.afterOnly, ArbSt.after, h, alone]

theorem State.flag_afterTaking (fld : Fld) (i : List Nat) : (s.afterTaking r port credit f).flag fld i = s.flag fld i := rfl

theorem State.edgeLink_afterTaking (header : Nat) : (s.afterTaking r port credit f).edgeLink r header = s.edgeLink r header := rfl

theorem State.waitingAt_afterTaking : (s.afterTaking r port credit f).waitingAt r port =
    ((s.waitingAt r port).erase f).map (fun g => if s.hasCredit r port credit g then g else { g with waited := g.waited + 1 }) :=
  State.waitingAt_setWaiting ..

theorem State.outputCycle_of_no_credit (h : s.waitingAt r port = [f]) (hcredit : s.hasCredit r port credit f = false) (hport : port ≠ 6) :
    s.outputCycle r port credit =
      (s.setArbiter r port (s.arbiter r port).idleCycle).setWaiting r port [{ f with waited := f.waited + 1 }] := by
  have nothing := pickFlit_of_none (fs := [f]) (by simpa using hcredit) (s.arbiter r port)
  simp [State.outputCycle, h, nothing, hcredit, hport, ArbSt.after, ArbSt.idleCycle]

theorem State.hasCredit_of_port (hport : port ≠ 6) (f : WaitFlit) :
    s.hasCredit r port credit f = credit.getLsbD (flitVc f.flit.hdr.toNat) := if_neg hport

theorem State.hasCredit_of_edge {l : Nat} (hport : port = 6) (hl : s.edgeLink r f.flit.hdr.toNat = some l) :
    s.hasCredit r port credit f = s.linkTakes l (flitVc f.flit.hdr.toNat) := by
  simp [State.hasCredit, hport, hl]

/-! ## Where a flit goes (R355, R356, R563) -/

theorem State.probe_of_off (h : s.flag F.nocPrbCtrl_en [r] = false) (header : Nat) (parBad : Bool) (waited : Nat) :
    s.probe r port header parBad waited = s := if_pos (by simp [h])

section
variable (hprobe : s.flag F.nocPrbCtrl_en [r] = false) (hlink : f.link = none)
include hprobe hlink

theorem State.moveFlit_of_mesh (hport : port < 4) :
    s.moveFlit r port f = s.arriveFlit (meshNext r port) { f.flit with input := Fin.ofNat 8 ((port + 2) % 4) } none := by
  simp [State.moveFlit, State.probe_of_off hprobe, hlink, State.freeBuffer, hport]

theorem State.moveFlit_of_endpoint (hmesh : 4 ≤ port) (hport : port ≠ 6) :
    s.moveFlit r port f = s.emit (.bytes "flit" (leBytes 1 r ++ leBytes 12 f.flit.hdr.toNat ++ leBytes 2 f.flit.par.toNat ++
      leBytes 64 f.flit.data.toNat ++ leBytes 8 f.flit.dpar.toNat)) := by
  simp [State.moveFlit, State.probe_of_off hprobe, hlink, State.freeBuffer, Nat.not_lt.mpr hmesh, hport]

theorem State.waitingAt_moveFlit_of_endpoint (hmesh : 4 ≤ port) (hport : port ≠ 6) :
    (s.moveFlit r port f).waitingAt r port = s.waitingAt r port := by
  rw [State.moveFlit_of_endpoint hprobe hlink hmesh hport, State.waitingAt_of_noc (State.emit_noc _ _)]

theorem State.moveFlit_of_edge {l : Nat} (hport : port = 6) (hl : s.edgeLink r f.flit.hdr.toNat = some l) :
    s.moveFlit r port f = s.sendFlit l (f.flit.hdr ++ f.flit.dpar ++ f.flit.data) := by
  simp [State.moveFlit, State.probe_of_off hprobe, hlink, State.freeBuffer, hport, hl]

end

/-! ## A flit arrives (R356, R357, R367) -/

/-- A flit that no route leads on is logged, and answered with TERR if it is a request. -/
def State.noRouteAnswer (s : State) (r : Nat) (x : RouterFlit) : State :=
  let n := x.hdr.toNat
  let s1 := s.noRoute r (bitsOf n 89 84) (bitsOf n 73 32 * 64)
  if bitsOf n 95 93 < 2 then s1.respond (reqOf n x.data) .terr else s1

theorem State.noRouteAnswer_noc (s : State) (r : Nat) (x : RouterFlit) : (s.noRouteAnswer r x).noc = s.noc := by
  simp only [State.noRouteAnswer]
  split <;> simp

section
variable {x : RouterFlit}

theorem State.arriveFlit_of_bad_parity (hprobe : s.flag F.nocPrbCtrl_en [r] = false)
    (hpar : headerPar x.hdr.toNat ≠ x.par.toNat) :
    s.arriveFlit r x none = (s.bucket (nocBucket (routerDie r))).discardFlit r ((s.outPort r x.hdr.toNat).getD 4) := by
  simp [State.arriveFlit, hpar, State.badHeader, State.probe_of_off hprobe, State.freeBuffer]

variable (hpar : headerPar x.hdr.toNat = x.par.toNat)
include hpar

theorem State.arriveFlit_of_unused_operation (hop : 4 ≤ bitsOf x.hdr.toNat 95 93) :
    s.arriveFlit r x none = s.discardFlit r ((s.outPort r x.hdr.toNat).getD 4) := by
  simp [State.arriveFlit, hpar, hop, State.freeBuffer]

variable (hop : bitsOf x.hdr.toNat 95 93 < 4)
include hop

theorem State.arriveFlit_of_no_route (hout : s.outPort r x.hdr.toNat = none) : s.arriveFlit r x none = s.noRouteAnswer r x := by
  simp [State.arriveFlit, hpar, Nat.not_le.mpr hop, hout, State.freeBuffer, State.noRouteAnswer]

theorem State.arriveFlit_of_route {p : Nat} (hout : s.outPort r x.hdr.toNat = some p) :
    s.arriveFlit r x none = s.setWaiting r p (s.waitingAt r p ++ [⟨x, 0, none⟩]) := by
  simp [State.arriveFlit, hpar, Nat.not_le.mpr hop, hout]

end

end

/-! ## ROUTER_FORWARD -/

section
variable {s : State} {r : Fin 116} {port : Fin 8} {credit : BitVec 8}

theorem exec_routerForward_of_stopped (h : s.runs 5 = false) (arrive : Option RouterFlit) :
    exec (.routerForward r port arrive credit) s = .next s := if_pos (by simp [h])

section
variable (hrun : s.runs 5 = true)
include hrun

theorem exec_routerForward_of_none : exec (.routerForward r port none credit) s = .next (s.outputCycle r port credit) :=
  if_neg (by simp [hrun])

theorem exec_routerForward_of_leaving {f : WaitFlit} (hwait : s.waitingAt r port = [f])
    (hcredit : s.hasCredit r port credit f = true) :
    exec (.routerForward r port none credit) s = .next ((s.afterTaking r port credit f).moveFlit r port f) := by
  rw [exec_routerForward_of_none hrun, State.outputCycle_of_credit hwait hcredit]

theorem exec_routerForward_of_some (x : RouterFlit) :
    exec (.routerForward r port (some x) credit) s = .next ((s.arriveFlit r x none).outputCycle r port credit) :=
  if_neg (by simp [hrun])

/-- Where the arriving flit does not come to wait at the idle output, that output takes a cycle without a flit. -/
theorem exec_routerForward_of_arrival {x : RouterFlit} {u : State} (harrive : s.arriveFlit r x none = u)
    (hwait : u.waitingAt r port = []) (harb : u.arbiter r port = s.arbiter r port) (hport : port ≠ 6) :
    exec (.routerForward r port (some x) credit) s =
      .next ((u.setArbiter r port (s.arbiter r port).idleCycle).setWaiting r port []) := by
  rw [exec_routerForward_of_some hrun, harrive, State.outputCycle_of_idle hwait (Fin.val_ne_of_ne hport), harb]

/-- The same where the arrival leaves the network as it was. -/
theorem exec_routerForward_of_dropped {x : RouterFlit} {u : State} (harrive : s.arriveFlit r x none = u) (hnoc : u.noc = s.noc)
    (hwait : s.waitingAt r port = []) (hport : port ≠ 6) :
    exec (.routerForward r port (some x) credit) s =
      .next ((u.setArbiter r port (s.arbiter r port).idleCycle).setWaiting r port []) :=
  exec_routerForward_of_arrival hrun harrive ((State.waitingAt_of_noc hnoc r port).trans hwait) (State.arbiter_of_noc hnoc r port) hport

/-! A flit that waits alone, and holds credit, leaves to the next router, to an endpoint or over the link of an edge. -/

section
variable {f : WaitFlit} (hprobe : s.flag F.nocPrbCtrl_en [r.val] = false) (hwait : s.waitingAt r port = [f]) (hlink : f.link = none)
include hprobe hwait hlink

theorem exec_routerForward_of_mesh (hport : port.val < 4) (hcredit : credit.getLsbD (flitVc f.flit.hdr.toNat) = true) :
    exec (.routerForward r port none credit) s =
      .next ((s.afterOnly r port f).arriveFlit (meshNext r port) { f.flit with input := Fin.ofNat 8 ((port.val + 2) % 4) } none) := by
  have port_ne : port.val ≠ 6 := by omega
  rw [exec_routerForward_of_leaving hrun hwait ((State.hasCredit_of_port port_ne f).trans hcredit),
    State.moveFlit_of_mesh ((State.flag_afterTaking ..).trans hprobe) hlink hport, State.afterTaking_of_only hwait]

theorem exec_routerForward_of_endpoint (hmesh : 4 ≤ port.val) (hport : port ≠ 6)
    (hcredit : credit.getLsbD (flitVc f.flit.hdr.toNat) = true) :
    exec (.routerForward r port none credit) s =
      .next ((s.afterOnly r port f).emit (.bytes "flit" (leBytes 1 r ++ leBytes 12 f.flit.hdr.toNat ++ leBytes 2 f.flit.par.toNat ++
        leBytes 64 f.flit.data.toNat ++ leBytes 8 f.flit.dpar.toNat))) := by
  have port_ne : port.val ≠ 6 := Fin.val_ne_of_ne hport
  rw [exec_routerForward_of_leaving hrun hwait ((State.hasCredit_of_port port_ne f).trans hcredit),
    State.moveFlit_of_endpoint ((State.flag_afterTaking ..).trans hprobe) hlink hmesh port_ne, State.afterTaking_of_only hwait]

theorem exec_routerForward_of_edge {l : Nat} (hport : port = 6) (hl : s.edgeLink r f.flit.hdr.toNat = some l)
    (htakes : s.linkTakes l (flitVc f.flit.hdr.toNat) = true) :
    exec (.routerForward r port none credit) s =
      .next ((s.afterOnly r port f).sendFlit l (f.flit.hdr ++ f.flit.dpar ++ f.flit.data)) := by
  have port_eq : port.val = 6 := congrArg Fin.val hport
  rw [exec_routerForward_of_leaving hrun hwait ((State.hasCredit_of_edge port_eq hl).trans htakes),
    State.moveFlit_of_edge ((State.flag_afterTaking ..).trans hprobe) hlink port_eq ((State.edgeLink_afterTaking _).trans hl),
    State.afterTaking_of_only hwait]

end

/-- Without credit it stays and has waited a cycle. -/
theorem exec_routerForward_of_no_credit {f : WaitFlit} (hwait : s.waitingAt r port = [f]) (hport : port ≠ 6)
    (hcredit : credit.getLsbD (flitVc f.flit.hdr.toNat) = false) :
    exec (.routerForward r port none credit) s =
      .next ((s.setArbiter r port (s.arbiter r port).idleCycle).setWaiting r port [{ f with waited := f.waited + 1 }]) := by
  have port_ne : port.val ≠ 6 := Fin.val_ne_of_ne hport
  rw [exec_routerForward_of_none hrun,
    State.outputCycle_of_no_credit hwait ((State.hasCredit_of_port port_ne f).trans hcredit) port_ne]

/-- Which flit still waits after a cycle at an endpoint's port where a real-time and another flit hold credit. -/
theorem exec_routerForward_realtime {f g : WaitFlit} (hprobe : s.flag F.nocPrbCtrl_en [r.val] = false)
    (hwait : s.waitingAt r port = [f, g]) (hmesh : 4 ≤ port.val) (hport : port ≠ 6) (hflink : f.link = none) (hglink : g.link = none)
    (hf : f.cls ≠ 0) (hg : g.cls = 0) (hfcredit : credit.getLsbD (flitVc f.flit.hdr.toNat) = true)
    (hgcredit : credit.getLsbD (flitVc g.flit.hdr.toNat) = true) :
    ∃ t, exec (.routerForward r port none credit) s = .next t ∧
      t.waitingAt r port = if 24 ≤ (s.arbiter r port).served then [g] else [f] := by
  have port_ne : port.val ≠ 6 := Fin.val_ne_of_ne hport
  have credits : ∀ x ∈ [f, g], s.hasCredit r port credit x = true := by
    simp [State.hasCredit_of_port port_ne, hfcredit, hgcredit]
  have hfok := credits f (by simp)
  have hgok := credits g (by simp)
  have apart : f ≠ g := fun e => hf (e ▸ hg)
  have picks : pickFlit (s.arbiter r port) (s.waitingAt r port) (s.hasCredit r port credit) =
      some (if 24 ≤ (s.arbiter r port).served then f else g) := by
    rw [hwait, pickFlit_realtime hf hg hfok hgok]
  refine ⟨_, exec_routerForward_of_none hrun, ?_⟩
  rw [State.outputCycle_of_taken picks]
  split
  · rw [State.waitingAt_moveFlit_of_endpoint ((State.flag_afterTaking ..).trans hprobe) hflink hmesh port_ne,
      State.waitingAt_afterTaking, hwait]
    simp [hgok]
  · rw [State.waitingAt_moveFlit_of_endpoint ((State.flag_afterTaking ..).trans hprobe) hglink hmesh port_ne,
      State.waitingAt_afterTaking, hwait]
    simp [hfok, apart]

end

/-! ## Route changes, traces, probes and histograms (R356, R373, R374) -/

theorem exec_traceClear (h : s.regWaits .nocPrbTstat = false) (src : Src) (r : Fin 116) :
    exec (.traceClear src r) s = .next ((s.setTrace r []).answer src .ok) :=
  congrArg Host.Outcome.next (State.regAct_of_not_waits h ..)

theorem nocHistCfg_clear_of_or (w : Word32) : F.nocHistCfg_clear.of (w ||| 0x20000000#32) = 1 := by
  have same : F.nocHistCfg_clear.of (w ||| 0x20000000#32) = F.nocHistCfg_clear.of 0x20000000#32 := Fld.of_congr fun b hb => by
    obtain rfl : b = 29 := Nat.le_antisymm hb.2 hb.1
    simp
  rw [same]
  decide

theorem exec_histogramClear (h : s.regWaits .nocHistCfg = false) (src : Src) (k : Fin 16) (w : Word32) :
    exec (.histogramClear src k w) s =
      .next (((s.writeReg .nocHistCfg [k.val] (w ||| 0x20000000#32)).histClear k).answer src .ok) := by
  refine (congrArg Host.Outcome.next (State.regAct_of_not_waits h ..)).trans ?_
  rw [State.histConfig, if_pos (nocHistCfg_clear_of_or w)]

theorem exec_histogramLevelSample_of_none {k : Fin 16} {v : Nat} (h : s.levelSource k v = none) :
    exec (.histogramLevelSample k v) s = .next s := by
  change execHistogramLevelSample k v s = _
  simp only [execHistogramLevelSample, h]

theorem exec_histogramLevelSample_of_some {k : Fin 16} {v u : Nat} (h : s.levelSource k v = some u) :
    exec (.histogramLevelSample k v) s = .next (s.histRecord k u) := by
  change execHistogramLevelSample k v s = _
  simp only [execHistogramLevelSample, h]

end

/-- Settles O30, event by event (log entry 107 for the edge port and where a flit leaves and enters a die). -/
theorem nocRouting : Obligations.NocRouting := by
  intro s r port x arr credit f g src k h w m v n site a drop idle go
  refine ⟨fun hrun => exec_routerForward_of_stopped hrun arr,
    fun hrun hprobe hwait hport => ⟨?idle, fun hpar => ?parity, fun hpar => ⟨fun hop => ?operation, fun hop => ⟨fun hout => ?unrouted,
      fun p hout hp => ?routed⟩⟩⟩,
    fun hrun hprobe hwait hlink => ⟨fun hport hcredit =>
      ⟨fun hmesh => exec_routerForward_of_mesh hrun hprobe hwait hlink hmesh hcredit,
        fun hmesh => exec_routerForward_of_endpoint hrun hprobe hwait hlink hmesh hport hcredit⟩,
      exec_routerForward_of_no_credit hrun hwait,
      fun l hport hl htakes => exec_routerForward_of_edge hrun hprobe hwait hlink hport hl htakes⟩,
    fun hrun hprobe hwait hmesh hport hflink hglink => exec_routerForward_realtime hrun hprobe hwait hmesh hport hflink hglink,
    fun hlost => if_pos hlost, fun hdrain => if_pos hdrain, fun hdrain => if_neg (by simp [hdrain]),
    fun hw => exec_traceClear hw src r, rfl, fun hw => exec_histogramClear hw src h w, exec_histogramLevelSample_of_none,
    fun u => exec_histogramLevelSample_of_some, rfl⟩
  case idle => exact (exec_routerForward_of_none hrun).trans (congrArg _ (State.outputCycle_of_idle hwait (Fin.val_ne_of_ne hport)))
  case parity =>
    exact exec_routerForward_of_dropped hrun (State.arriveFlit_of_bad_parity hprobe hpar)
      ((State.discardFlit_noc ..).trans (State.bucket_noc ..)) hwait hport
  case operation =>
    exact exec_routerForward_of_dropped hrun (State.arriveFlit_of_unused_operation hpar hop) (State.discardFlit_noc ..) hwait hport
  case unrouted =>
    exact exec_routerForward_of_dropped hrun (State.arriveFlit_of_no_route hpar hop hout) (State.noRouteAnswer_noc s r x) hwait hport
  case routed =>
    exact exec_routerForward_of_arrival hrun (State.arriveFlit_of_route hpar hop hout)
      ((State.waitingAt_setWaiting_ne s _ (Ne.symm hp)).trans hwait) rfl hport

end Sys2Proof.Machine
end

section
/-!
PROOFS. The commands that start, end and abandon a load, its header, and the clearing after a failure (R294, R295, R298 to R301,
R303, R308, R309, R481; O39).
-/

namespace Sys2Proof.Machine

/-! ## CFG_CMD -/

section
variable {s : State} {src : Src}

/-- A command of a requester that CFG_CMD does not list (R365). -/
theorem cfgCmd_of_not_listed (hm : mayWrite .cfgCmd src = false) (s : State) (w : Word32) (f : State → State) :
    Host.Outcome.next (s.command src .cfgCmd [] w f) = (.next (s.answer src .serr) : Out) :=
  congrArg _ (State.command_of_not_listed hm ..)

/-- A command of a listed requester acts at once where the clock of CFG_CMD runs. -/
theorem cfgCmd_of_listed {f : State → State} {t : State} (hm : mayWrite .cfgCmd src = true) (h : s.regWaits .cfgCmd = false)
    (hf : f s = t) (w : Word32) : Host.Outcome.next (s.command src .cfgCmd [] w f) = (.next (t.answer src .ok) : Out) := by
  rw [State.command_of_listed hm h, hf]

/-- No load starts while one runs, nor before the wire check is done (log entry 34). -/
theorem State.cfgCommand_of_refused {op : Nat} (h4 : op ≠ 4) (hop : ¬ (op = 0 ∨ 5 < op))
    (h : s.loading = true ∨ s.flag F.glbWirechk_done [] = false) (p : Nat) : s.cfgCommand op p = s.raise F.cfgStat_cmdErr [] := by
  have refused : (s.loading || !s.flag F.glbWirechk_done [] || (op == 3 && s.get F.cfgHdeadline_us [] == 0)) = true := by
    rcases h with h | h <;> simp [h]
  exact (if_neg h4).trans ((if_neg hop).trans (if_pos refused))

end

/-! ## Starts (R298 to R301, R481) -/

section
variable {s : State} (hl : s.loading = false) (hw : s.flag F.glbWirechk_done [] = true)
include hl hw

theorem State.not_start_refused {op : Nat} (h : op ≠ 3 ∨ s.get F.cfgHdeadline_us [] ≠ 0) :
    ¬ (s.loading || !s.flag F.glbWirechk_done [] || (op == 3 && s.get F.cfgHdeadline_us [] == 0)) = true := by
  rcases h with h | h <;> simp [hl, hw, h]

theorem State.cfgCommand_pattern (p : Nat) : s.cfgCommand 1 p = (s.wake 1).startPattern p :=
  (if_neg (by decide)).trans ((if_neg (by decide)).trans (if_neg (State.not_start_refused hl hw (.inl (by decide)))))

theorem State.cfgCommand_master (p : Nat) : s.cfgCommand 2 p = (s.wake 1).startMaster :=
  (if_neg (by decide)).trans ((if_neg (by decide)).trans (if_neg (State.not_start_refused hl hw (.inl (by decide)))))

/-- A load from the host gets its deadline as it begins (R300, R301). -/
theorem State.cfgCommand_host (hd : s.get F.cfgHdeadline_us [] ≠ 0) (p : Nat) :
    let t := ((s.wake 1).beginLoad 3 0 0).put F.cfgHpos_pos [] 0
    s.cfgCommand 3 p = { t with load := { t.load with deadline := t.now 8 + 1000 * t.get F.cfgHdeadline_us [] + 1 } } :=
  (if_neg (by decide)).trans ((if_neg (by decide)).trans (if_neg (State.not_start_refused hl hw (.inr hd))))

theorem State.cfgCommand_memory (p : Nat) :
    let t := s.wake 1
    s.cfgCommand 5 p = t.beginLoad 4 0 (t.get F.cfgMaddrLo_addr [] * 512 + 2 ^ 32 * t.get F.cfgMaddrHi_addr []) :=
  (if_neg (by decide)).trans ((if_neg (by decide)).trans (if_neg (State.not_start_refused hl hw (.inl (by decide)))))

end

/-- A pattern that the directory holds inside the flash loads from its base (R298). -/
theorem State.startPattern_of_entry {s : State} {p : Nat} {d : List Byte} {b : Bool} :
    let t := s.beginLoad 1 p 0
    let u := if b then t.raise F.cfgStat_dirB [] else t
    t.get F.cfgStat_nflash [] ≠ 0 → t.pickDir = some (d, b) → (dirEntry d p).2 ≠ 0 →
      (dirEntry d p).1 + (dirEntry d p).2 ≤ u.flashSize →
        s.startPattern p = { u with load := { u.load with base := (dirEntry d p).1 } } := by
  intro t u hn hd hlen hfit
  refine (if_neg hn).trans ?_
  rw [show (s.beginLoad 1 p 0).pickDir = _ from hd]
  exact if_neg (not_or.mpr ⟨hlen, Nat.not_lt.mpr hfit⟩)

/-! ## Aborts and unloads (R308, R309) -/

section
variable {s : State}

theorem State.abortOrUnload_of_blank (hl : s.loading = false) (h : s.get F.cfgStat_loaded [] = 0) :
    s.abortOrUnload = s.raise F.cfgStat_cmdErr [] :=
  (if_neg (ne_true_of_eq_false hl)).trans (if_pos h)

/-- An unload clears every die in one step (log entry 14). -/
theorem State.abortOrUnload_of_loaded (hl : s.loading = false) (h : s.get F.cfgStat_loaded [] ≠ 0) :
    s.abortOrUnload = (s.clearDevice.recordError 0x13 0 0xF 0).endLoad 0 0 :=
  (if_neg (ne_true_of_eq_false hl)).trans (if_neg h)

theorem State.abortOrUnload_of_loading (hl : s.loading = true) (h : s.load.stage ≠ .clearing) :
    s.abortOrUnload = s.failLoad 0x13 0xF 0 true :=
  (if_pos hl).trans (if_neg h)

end

/-! ## Bytes of an image -/

section
variable {s : State}

/-- The host's bytes are read once they have all arrived (R300). -/
theorem State.fetchImage_of_host_arrived {n : Nat} (h : s.load.src = 3) (hn : n ≤ s.load.staging.length) (off : Nat)
    (flash : Option FlashRead) : s.fetchImage off n flash = .got (s.load.staging.take n) s := by
  rw [State.fetchImage, h]
  exact if_pos hn

theorem State.fetchImage_of_host_short {n : Nat} (h : s.load.src = 3) (hn : s.load.staging.length < n) (off : Nat)
    (flash : Option FlashRead) : s.fetchImage off n flash = .wait := by
  rw [State.fetchImage, h]
  exact if_neg (Nat.not_le.mpr hn)

/-- A load from neither the host nor memory reads the flash. -/
theorem State.fetchImage_of_flash_failed {off n : Nat} {flash : Option FlashRead} (h3 : s.load.src ≠ 3) (h4 : s.load.src ≠ 4)
    (h : flash.bind (s.flashBytes (s.load.base + off) n) = none) : s.fetchImage off n flash = .bad s := by
  unfold State.fetchImage
  split
  · exact absurd ‹_› h3
  · exact absurd ‹_› h4
  · rw [h]

end

/-! ## The header (R295) -/

/-- What becomes of a load from `src` whose header `h` and table have arrived as `b`: a failure with the code of the first
check that fails, or the header is accepted. -/
def State.headerJudged (s : State) (src : Nat) (h b : List Byte) : State :=
  let table := slice b 512 (32 * hChunks h)
  let ds := tableDigests table (hChunks h)
  let t := s.consume (tableEnd h)
  if s.headerCode src h table false ≠ 0 then s.failLoad (s.headerCode src h table false) 0xF 0
  else if hKind h = 2 then
    match t.storeDigests (imageNo h) ds with
    | some u => u.acceptFlask h ds
    | none => t.failLoad 0x0A 0xF 0
  else t.acceptFull h ds

section
variable {s : State} {flash : Option FlashRead}

theorem exec_headerReceived_of_other (hh : s.load.stage ≠ .header) (hf : s.load.stage ≠ .follower) :
    exec (.headerReceived flash) s = .next s :=
  if_pos ⟨hh, by simpa using hf⟩

variable (hst : s.load.stage = .header)
include hst

theorem not_headerReceived_idle : ¬ (s.load.stage ≠ .header ∧ (!(s.load.stage == .follower)) = true) :=
  fun idle => idle.1 hst

theorem exec_headerReceived_of_bad {t : State} (h : s.fetchImage s.imageBase 512 flash = .bad t) :
    exec (.headerReceived flash) s = .next (t.failLoad 0x01 0xF 0) := by
  refine (if_neg (not_headerReceived_idle hst)).trans ?_
  rw [h]

theorem exec_headerReceived_of_wait (h : s.fetchImage s.imageBase 512 flash = .wait) :
    exec (.headerReceived flash) s = .next s := by
  refine (if_neg (not_headerReceived_idle hst)).trans ?_
  rw [h]

variable {h : List Byte} (hh : s.fetchImage s.imageBase 512 flash = .got h s)
include hh

theorem exec_headerReceived_of_malformed (hf : headerForm h = false) :
    exec (.headerReceived flash) s = .next (s.failLoad 0x03 0xF 0) := by
  refine (if_neg (not_headerReceived_idle hst)).trans ?_
  rw [hh, hst]
  exact if_pos (by simp [hf])

variable (hf : headerForm h = true)
include hf

theorem exec_headerReceived_of_table_wait (ht : s.fetchImage s.imageBase (tableEnd h) flash = .wait) :
    exec (.headerReceived flash) s = .next s := by
  refine (if_neg (not_headerReceived_idle hst)).trans ?_
  rw [hh]
  refine (if_neg (by simp [hf])).trans ?_
  rw [ht]

theorem exec_headerReceived_of_table {b : List Byte} (ht : s.fetchImage s.imageBase (tableEnd h) flash = .got b s) :
    exec (.headerReceived flash) s = .next (s.headerJudged s.load.src h b) := by
  have first : (s.load.stage == .follower) = false := by rw [hst]; rfl
  refine (if_neg (not_headerReceived_idle hst)).trans ?_
  rw [hh]
  refine (if_neg (by simp [hf])).trans ?_
  rw [ht]
  simp only [first, State.headerJudged, Bool.false_eq_true, if_false, apply_ite Host.Outcome.next]
  cases (s.consume (tableEnd h)).storeDigests (imageNo h) (tableDigests (slice b 512 (32 * hChunks h)) (hChunks h)) <;> rfl

end

section
variable {s : State} {n : Nat} {h b : List Byte}

theorem State.headerJudged_of_failed (hc : s.headerCode n h (slice b 512 (32 * hChunks h)) false ≠ 0) :
    s.headerJudged n h b = s.failLoad (s.headerCode n h (slice b 512 (32 * hChunks h)) false) 0xF 0 := if_pos hc

variable (hc : s.headerCode n h (slice b 512 (32 * hChunks h)) false = 0)
include hc

theorem State.headerJudged_of_full (hk : hKind h ≠ 2) :
    s.headerJudged n h b =
      (s.consume (tableEnd h)).acceptFull h (tableDigests (slice b 512 (32 * hChunks h)) (hChunks h)) :=
  (if_neg (not_not.mpr hc)).trans (if_neg hk)

theorem State.headerJudged_of_flask (hk : hKind h = 2) :
    let t := s.consume (tableEnd h)
    let ds := tableDigests (slice b 512 (32 * hChunks h)) (hChunks h)
    s.headerJudged n h b =
      match t.storeDigests (imageNo h) ds with
      | some u => u.acceptFlask h ds
      | none => t.failLoad 0x0A 0xF 0 :=
  (if_neg (not_not.mpr hc)).trans (if_pos hk)

end

/-! ## LOAD_CLEAR_DONE (R308) -/

section
variable {s : State}

theorem exec_loadClearDone_of_other (h : s.load.stage ≠ .clearing) : exec .loadClearDone s = .next s := if_pos h

variable (h : s.load.stage = .clearing)
include h

theorem exec_loadClearDone_of_fallBack (hb : s.load.fallBack = true) : exec .loadClearDone s = .next (s.setPhase 0).startMaster :=
  (if_neg (not_not.mpr h)).trans (if_pos hb)

variable (hb : s.load.fallBack = false)
include hb

theorem exec_loadClearDone_of_abort (he : s.get F.cfgStat_lastErr [] = 0x13) : exec .loadClearDone s = .next (s.endLoad 0 0) :=
  (if_neg (not_not.mpr h)).trans ((if_neg (ne_true_of_eq_false hb)).trans (if_pos he))

theorem exec_loadClearDone_of_failure (he : s.get F.cfgStat_lastErr [] ≠ 0x13) : exec .loadClearDone s = .next s.allFailed :=
  (if_neg (not_not.mpr h)).trans ((if_neg (ne_true_of_eq_false hb)).trans (if_neg he))

end

/-- Settles O39, command by command, then the header by its source and the first check that fails (log entries 14 and 34). -/
theorem loads : Obligations.Loads := by
  intro s src p flash serr err
  refine ⟨fun hm => ?unlisted,
    fun hm hr => ⟨fun h => ?refused, fun hl hw => ?start, fun hl => ⟨fun h => ?blank, fun h => ?unload⟩,
      fun hl h => cfgCmd_of_listed hm hr (State.abortOrUnload_of_loading hl h) _⟩,
    exec_headerReceived_of_other, fun hst h3 h4 h => exec_headerReceived_of_bad hst (State.fetchImage_of_flash_failed h3 h4 h),
    fun hst h3 => ?header, exec_loadClearDone_of_other,
    fun h => ⟨exec_loadClearDone_of_fallBack h, exec_loadClearDone_of_abort h, exec_loadClearDone_of_failure h⟩⟩
  case unlisted =>
    have refused := cfgCmd_of_not_listed hm s
    exact ⟨refused .., refused .., refused .., refused .., refused .., refused ..⟩
  case refused =>
    have refused {op : Nat} (h4 : op ≠ 4) (hop : ¬ (op = 0 ∨ 5 < op)) (p : Nat) :=
      cfgCmd_of_listed (f := (·.cfgCommand op p)) hm hr (State.cfgCommand_of_refused h4 hop h p)
    exact ⟨refused (by decide) (by decide) .., refused (by decide) (by decide) .., refused (by decide) (by decide) ..,
      refused (by decide) (by decide) ..⟩
  case start =>
    exact ⟨cfgCmd_of_listed hm hr (State.cfgCommand_master hl hw _) _,
      fun hd => cfgCmd_of_listed hm hr (State.cfgCommand_host hl hw hd _) _,
      cfgCmd_of_listed hm hr (State.cfgCommand_memory hl hw _) _,
      fun d b hn hd hlen hfit => cfgCmd_of_listed hm hr
        ((State.cfgCommand_pattern hl hw _).trans (State.startPattern_of_entry hn hd hlen hfit)) _⟩
  case blank =>
    have refused := cfgCmd_of_listed hm hr (State.abortOrUnload_of_blank hl h)
    exact ⟨refused .., refused ..⟩
  case unload => exact cfgCmd_of_listed hm hr (State.abortOrUnload_of_loaded hl h) _
  case header =>
    intro h b table ds s3
    refine ⟨fun hn => exec_headerReceived_of_wait hst (State.fetchImage_of_host_short h3 hn ..),
      fun hn => exec_headerReceived_of_malformed hst (State.fetchImage_of_host_arrived h3 hn ..), fun hn hf => ?_⟩
    have hh := State.fetchImage_of_host_arrived h3 hn s.imageBase flash
    refine ⟨fun ht => exec_headerReceived_of_table_wait hst hh hf (State.fetchImage_of_host_short h3 ht ..), fun ht => ?_⟩
    have judged := exec_headerReceived_of_table hst hh hf (State.fetchImage_of_host_arrived h3 ht s.imageBase flash)
    rw [h3] at judged
    exact ⟨fun hc => judged.trans (congrArg _ (State.headerJudged_of_failed hc)),
      fun hc => ⟨fun hk => judged.trans (congrArg _ (State.headerJudged_of_full hc hk)),
        fun hk => judged.trans (congrArg _ (State.headerJudged_of_flask hc hk))⟩⟩

end Sys2Proof.Machine
end

section
/-!
PROOFS. Chunks of an image body and the records they hold (R44, R45, R276, R287, R290 to R293, R302, R324; O40).
-/

namespace Sys2Proof.Machine

/-! ## A chunk -/

section
variable {s : State} {flash : Option FlashRead}

theorem exec_chunkReceived_of_idle
    (h : s.load.stage ≠ .write ∨ s.load.inChunk = true ∨ hChunks s.load.hdr ≤ s.load.chunk) :
    exec (.chunkReceived flash) s = .next s := if_pos h

variable (h : s.load.stage = .write ∧ s.load.inChunk = false ∧ s.load.chunk < hChunks s.load.hdr)
include h

theorem not_chunkReceived_idle :
    ¬ (s.load.stage ≠ .write ∨ s.load.inChunk = true ∨ hChunks s.load.hdr ≤ s.load.chunk) := by
  obtain ⟨hst, hin, hlt⟩ := h
  simp [hst, hin, hlt]

/-- A chunk for a die that no route reaches ends the load (R45). -/
theorem exec_chunkReceived_of_unreachable {d : Nat}
    (hd : (hDies s.load.hdr).find? (fun d => (dieRoute s.liveEdges 8 d).isNone) = some d) :
    exec (.chunkReceived flash) s = .next (s.failBody 0x10 d) := by
  refine (if_neg (not_chunkReceived_idle h)).trans ?_
  rw [hd]

variable (hd : (hDies s.load.hdr).find? (fun d => (dieRoute s.liveEdges 8 d).isNone) = none)
include hd

theorem exec_chunkReceived_of_wait (hf : s.fetchImage (s.imageBase + tableEnd s.load.hdr + 65536 * s.load.chunk)
      (chunkLen s.load.hdr s.load.chunk) flash = .wait) : exec (.chunkReceived flash) s = .next s := by
  refine (if_neg (not_chunkReceived_idle h)).trans ?_
  simp only [hd, hf]

theorem exec_chunkReceived_of_bad {t : State} (hf : s.fetchImage (s.imageBase + tableEnd s.load.hdr + 65536 * s.load.chunk)
      (chunkLen s.load.hdr s.load.chunk) flash = .bad t) :
    exec (.chunkReceived flash) s = .next (t.failLoad 0x01 0xF 0) := by
  refine (if_neg (not_chunkReceived_idle h)).trans ?_
  simp only [hd, hf]

end

/-- The bytes of the next chunk are used up and the chunk is counted. -/
def State.nextChunk (s : State) : State :=
  let t := s.consume (chunkLen s.load.hdr s.load.chunk)
  { t with load := { t.load with chunk := s.load.chunk + 1 } }

section
variable {s : State} {flash : Option FlashRead} {b : List Byte}
  (h : s.load.stage = .write ∧ s.load.inChunk = false ∧ s.load.chunk < hChunks s.load.hdr)
  (hd : (hDies s.load.hdr).find? (fun d => (dieRoute s.liveEdges 8 d).isNone) = none)
  (hf : s.fetchImage (s.imageBase + tableEnd s.load.hdr + 65536 * s.load.chunk) (chunkLen s.load.hdr s.load.chunk) flash = .got b s)
include h hd hf

/-- A chunk whose digest is not the table's ends the load (R287). -/
theorem exec_chunkReceived_of_digest_wrong (hb : sha256 b ≠ s.load.table.getD s.load.chunk 0#256) :
    exec (.chunkReceived flash) s = .next (s.nextChunk.failBody 0x0B) := by
  refine (if_neg (not_chunkReceived_idle h)).trans ?_
  simp only [hd, hf]
  exact if_pos hb

/-- The payload of a chunk that opens stands ready, else the load ends (R287 to R290). -/
theorem exec_chunkReceived_of_digest_right (hb : sha256 b = s.load.table.getD s.load.chunk 0#256) :
    exec (.chunkReceived flash) s =
      match s.nextChunk.payload s.load.hdr s.load.chunk b with
      | none => .next (s.nextChunk.failBody 0x0D)
      | some p => .next ({ s.nextChunk with load := { s.nextChunk.load with rest := p, inChunk := true } } : State).settle := by
  refine (if_neg (not_chunkReceived_idle h)).trans ?_
  simp only [hd, hf]
  exact if_neg (not_not.mpr hb)

end

/-! ## The record at the head of a chunk (R290) -/

section
variable {s : State}

theorem State.onRecord_of_outside (h : s.load.inChunk = false) (k : Nat) (act : Rec → State → State) : s.onRecord k act = s :=
  if_pos (by simp [h])

theorem State.onRecord_of_head {r : Rec} {rest : List Byte} (hin : s.load.inChunk = true)
    (hp : parseRec s.load.rest = some (r, rest)) (hok : s.recOk r = true) {k : Nat} (hk : r.kind = k)
    (act : Rec → State → State) :
    s.onRecord k act = (act r { s with load := { s.load with rest := rest } }).settle := by
  refine (if_neg (by simp [hin])).trans ?_
  rw [hp]
  exact if_pos ⟨hk, hok⟩

theorem State.settle_of_outside (h : s.load.inChunk = false) : s.settle = s := if_pos (by simp [h])

theorem State.chunkEnds_of_more (h : s.load.chunk ≠ hChunks s.load.hdr) :
    s.chunkEnds = { s with load := { s.load with inChunk := false, rest := [] } } := if_neg h

/-- After the end of a chunk that is not the last there is nothing to settle. -/
theorem State.settle_chunkEnds_of_more (h : s.load.chunk ≠ hChunks s.load.hdr) : s.chunkEnds.settle = s.chunkEnds := by
  rw [State.chunkEnds_of_more h]
  exact State.settle_of_outside rfl

section
variable (hin : s.load.inChunk = true) (hshort : s.load.rest.length < 16)
include hin hshort

/-- Fewer than 16 zero bytes end the chunk. -/
theorem State.settle_of_zeros (hz : s.load.rest.all (fun x => x == 0#8) = true) : s.settle = s.chunkEnds :=
  (if_neg (by simp [hin])).trans ((if_pos hshort).trans (if_pos hz))

theorem State.settle_of_remnant (hz : s.load.rest.all (fun x => x == 0#8) = false) : s.settle = s.failBody 0x0D :=
  (if_neg (by simp [hin])).trans ((if_pos hshort).trans (if_neg (ne_true_of_eq_false hz)))

end

end

/-! ## Frames (R291, R302, R324) -/

/-- The frames of a frames record, each with its address. -/
def Rec.frames (r : Rec) : List (Nat × List Byte) :=
  (List.range r.count).map fun j => (r.addr + j, slice r.data (2048 * j) 2048)

/-- The frames of a record are written with their golden signatures, and counted. -/
def State.framesWritten (s : State) (r : Rec) : State :=
  let u := (r.frames.foldl (fun v e =>
    (v.setFrame r.die e.1 e.2).setSig r.die e.1 (enc53 ((crc32 e.2).toNat + 2 ^ 32 * (v.load.chunk - 1)))) s).noteWrite r.die
  { u with load := { u.load with frames := SMap.insert u.load.frames r.die (SMap.get 0 u.load.frames r.die + r.count) } }

/-- A flask whose logic frames the record writes then holds an illegal field combination (log entry 106). -/
def State.framesIllegal (s : State) (r : Rec) : Bool :=
  (List.range 16).any fun k => r.frames.any (fun e => flaskOfFrame e.1 == some k && !contentFrame e.1) && s.flaskIllegal r.die k

theorem State.putFrames_eq (r : Rec) (s : State) :
    State.putFrames r s =
      if (s.framesWritten r).framesIllegal r = true then (s.framesWritten r).failBody 0x0D r.die else s.framesWritten r := by
  unfold State.framesIllegal
  rw [← List.any_filter]
  rfl

theorem State.putFrames_of_illegal {r : Rec} {s : State} (h : (s.framesWritten r).framesIllegal r = true) :
    State.putFrames r s = (s.framesWritten r).failBody 0x0D r.die :=
  (State.putFrames_eq r s).trans (if_pos h)

theorem State.putFrames_of_legal {r : Rec} {s : State} (h : (s.framesWritten r).framesIllegal r = false) :
    State.putFrames r s = s.framesWritten r :=
  (State.putFrames_eq r s).trans (if_neg (ne_true_of_eq_false h))

/-! ## Crossing tables (R276, R292) -/

/-- The groups of edge `k` that have failed in no direction. -/
def State.workingGroups (s : State) (k : Nat) : List Nat :=
  (groupsOf k).filter fun g => !(s.flag F.glbXgstat_failed [g, 0] || s.flag F.glbXgstat_failed [g, 1])

/-- The groups that the table of a record asks for. -/
def State.groupsNeeded (s : State) (r : Rec) : Nat := fieldAt r.data 0 1 + s.hubIo r.die r.data + fieldAt r.data 2 1

/-- The table of an edge is kept. -/
def State.tableKept (s : State) (r : Rec) : State :=
  { s with load := { s.load with edges := r.die :: s.load.edges, tables := SMap.insert s.load.tables r.die r.data } }

/-- The groups of an edge take their roles, and the edge is no longer lost. -/
def State.rolesGiven (s : State) (r : Rec) (working : List Nat) : State :=
  let t := s.giveRoles r.die r.data working
  let lost := Nat.land (t.get F.glbXstat_edgeLost []) (1023 - 2 ^ r.die)
  (t.put F.glbXstat_edgeLost [] lost).put F.glbXstat_lostAny [] (b2n (lost != 0))

section
variable {s : State} {r : Rec}

theorem State.putTable_of_illegal (h : s.tableOk r.die r.data = false) : State.putTable r s = s.failBody 0x0D :=
  if_pos (by simp [h])

variable (h : s.tableOk r.die r.data = true)
include h

theorem State.putTable_of_too_few (hn : (s.workingGroups r.die).length < s.groupsNeeded r) : State.putTable r s = s.failBody 0x0F :=
  (if_neg (by simp [h])).trans (if_pos hn)

variable (hn : s.groupsNeeded r ≤ (s.workingGroups r.die).length)
include hn

theorem State.putTable_of_banks_bad (hb : (s.tableKept r).banksOk = false) :
    State.putTable r s = (s.tableKept r).failBody 0x0D :=
  (if_neg (by simp [h])).trans ((if_neg (Nat.not_lt.mpr hn)).trans (if_pos (by simpa [State.tableKept] using hb)))

/-- The roles are given, and the crossings of lost lanes move, first those of direction 0 (R276; log entry 39). -/
theorem State.putTable_of_legal (hb : (s.tableKept r).banksOk = true) :
    let t := (s.tableKept r).rolesGiven r (s.workingGroups r.die)
    State.putTable r s =
      match t.relocate r.die 0 with
      | none => t.failBody 0x0F
      | some u =>
        match u.relocate r.die 1 with
        | none => u.failBody 0x0F
        | some v => v.freshRoutes :=
  (if_neg (by simp [h])).trans ((if_neg (Nat.not_lt.mpr hn)).trans (if_neg (by simpa [State.tableKept] using hb)))

end

/-! ## The pin table (R292) -/

section
variable {s : State} {r : Rec}

theorem State.putPins_of_illegal (h : (slice r.data 1216 14).all (fun o => o == 0#8 || o == 2#8 || o == 3#8) = false) :
    State.putPins r s = s.failBody 0x0D := if_pos (by rw [h]; rfl)

theorem State.putPins_of_legal (h : (slice r.data 1216 14).all (fun o => o == 0#8 || o == 2#8 || o == 3#8) = true) :
    let t := ({ s with load := { s.load with gotPins := true, pinTable := r.data } } : State)
    State.putPins r s = if t.banksOk then t else t.failBody 0x0D := if_neg (by rw [h]; decide)

end

/-- Settles O40, the chunk by what its bytes bring, then each record by its kind (log entries 39 and 106). -/
theorem imageRecords : Obligations.ImageRecords := by
  intro s r rest flash h i n settled s1 writing far b t1 t2
  refine ⟨exec_chunkReceived_of_idle, fun d hw hd => exec_chunkReceived_of_unreachable hw hd,
    fun hw hd h3 h4 hf => exec_chunkReceived_of_bad hw hd (State.fetchImage_of_flash_failed h3 h4 hf),
    fun hw hd h3 => ⟨fun hn => exec_chunkReceived_of_wait hw hd (State.fetchImage_of_host_short h3 hn ..), fun hn => ?arrived⟩,
    fun hin => ?outside, fun hin hp hok => ?record,
    fun hin hs hz hi => (State.settle_of_zeros hin hs hz).trans (State.chunkEnds_of_more hi), State.settle_of_remnant⟩
  case arrived =>
    have hf := State.fetchImage_of_host_arrived h3 hn (s.imageBase + tableEnd h + 65536 * i) flash
    exact ⟨exec_chunkReceived_of_digest_wrong hw hd hf, exec_chunkReceived_of_digest_right hw hd hf⟩
  case outside =>
    have idle : ∀ k act, Host.Outcome.next (s.onRecord k act) = (.next s : Out) :=
      fun k act => congrArg _ (State.onRecord_of_outside hin k act)
    exact ⟨idle .., idle .., idle .., idle .., idle .., idle .., idle ..⟩
  case record =>
    have acts : ∀ {k act t}, r.kind = k → act r s1 = t → Host.Outcome.next (s.onRecord k act) = settled t := by
      rintro k act t hk rfl
      exact congrArg _ (State.onRecord_of_head hin hp hok hk act)
    refine ⟨fun hk => ⟨fun hbad => acts hk (State.putFrames_of_illegal hbad),
        fun hbad => acts hk (State.putFrames_of_legal hbad)⟩,
      fun hk => acts hk rfl, fun hk => acts hk rfl,
      fun hk => ⟨fun ht => acts hk (State.putTable_of_illegal ht),
        fun ht => ⟨fun hn => acts hk (State.putTable_of_too_few ht hn),
          fun hn hb => acts hk (State.putTable_of_banks_bad ht hn hb), fun hn hb => acts hk (State.putTable_of_legal ht hn hb)⟩⟩,
      fun hk => ⟨fun hl => acts hk (State.putPins_of_illegal hl), fun hl => acts hk (State.putPins_of_legal hl)⟩,
      fun hk => acts hk rfl, fun hk hi => (acts hk rfl).trans (congrArg Host.Outcome.next ?last)⟩
    case last => exact (State.settle_chunkEnds_of_more hi).trans (State.chunkEnds_of_more hi)

end Sys2Proof.Machine
end

section
/-!
PROOFS. The SEC-DED codes: clean words, single and double errors (R564; O56).
-/

namespace Sys2Proof

/-! ## Weights of numbers of `r` bits -/

/-- The parity of a weight is additive over exclusive OR. -/
theorem ones_xor_mod_two (r : Nat) : ∀ a b : Nat, ones r (a ^^^ b) % 2 = (ones r a + ones r b) % 2 := by
  induction r with
  | zero => exact fun _ _ => rfl
  | succ r ih =>
    intro a b
    have low : (a ^^^ b) % 2 = (a + b) % 2 := Nat.xor_mod_two_eq
    have high := ih (a / 2) (b / 2)
    rw [← Nat.xor_div_two] at high
    simp only [ones]
    omega

theorem ones_zero : ∀ r, ones r 0 = 0
  | 0 => rfl
  | r + 1 => by simp [ones, ones_zero r]

theorem ones_two_pow : ∀ {r k : Nat}, k < r → ones r (2 ^ k) = 1
  | _ + 1, 0, _ => by simp [ones, ones_zero]
  | _ + 1, k + 1, h => by simp [ones, ones_two_pow (Nat.lt_of_succ_lt_succ h), Nat.pow_succ]

/-! ## The columns of a code -/

theorem secCols_weight {r n c : Nat} (h : c ∈ secCols r n) : ones r c = 3 ∨ ones r c = 5 := by
  obtain h | h := List.mem_append.mp (List.mem_of_mem_take h)
  · exact .inl (by simpa using (List.mem_filter.mp h).2)
  · exact .inr (by simpa using (List.mem_filter.mp h).2)

theorem secCols_nodup (r n : Nat) : (secCols r n).Nodup := by
  refine (List.Nodup.append (List.nodup_range.filter _) (List.nodup_range.filter _) ?_).sublist (List.take_sublist n _)
  intro c h3 h5
  have w3 : ones r c = 3 := by simpa using (List.mem_filter.mp h3).2
  have w5 : ones r c = 5 := by simpa using (List.mem_filter.mp h5).2
  omega

/-- The column of bit `i` of a codeword: of a data bit as the code gives it, of a check bit the power of 2 that it is. -/
def secCol (r n i : Nat) : Nat := if i < n then (secCols r n).getD i 0 else 2 ^ (i - n)

section
variable {r n : Nat} (hl : (secCols r n).length = n)
include hl

theorem secCol_data {i : Nat} (h : i < n) : secCol r n i = (secCols r n)[i]'(hl.symm ▸ h) := by
  rw [secCol, if_pos h, List.getD_eq_getElem]

theorem secCol_mem {i : Nat} (h : i < n) : secCol r n i ∈ secCols r n := by
  rw [secCol_data hl h]
  exact List.getElem_mem _

omit hl in
theorem secCol_check {i : Nat} (h : n ≤ i) : secCol r n i = 2 ^ (i - n) := if_neg (Nat.not_lt.mpr h)

omit hl in
theorem ones_secCol_check {i : Nat} (h : n ≤ i) (hi : i < n + r) : ones r (secCol r n i) = 1 := by
  rw [secCol_check h]
  exact ones_two_pow (by omega)

theorem ones_secCol_data {i : Nat} (h : i < n) : ones r (secCol r n i) = 3 ∨ ones r (secCol r n i) = 5 :=
  secCols_weight (secCol_mem hl h)

theorem ones_secCol_odd {i : Nat} (hi : i < n + r) : ones r (secCol r n i) % 2 = 1 := by
  by_cases h : i < n
  · rcases ones_secCol_data hl h with w | w <;> rw [w]
  · rw [ones_secCol_check (Nat.not_lt.mp h) hi]

/-- No two bits of a codeword share a column. -/
theorem secCol_injective {i j : Nat} (hi : i < n + r) (hj : j < n + r) (h : secCol r n i = secCol r n j) : i = j := by
  by_cases hin : i < n <;> by_cases hjn : j < n
  · rw [secCol_data hl hin, secCol_data hl hjn] at h
    exact (secCols_nodup r n).getElem_inj_iff.mp h
  · have w := ones_secCol_check (Nat.not_lt.mp hjn) hj
    have := ones_secCol_data hl hin
    rw [h] at this
    omega
  · have w := ones_secCol_check (Nat.not_lt.mp hin) hi
    have := ones_secCol_data hl hjn
    rw [← h] at this
    omega
  · rw [secCol_check (Nat.not_lt.mp hin), secCol_check (Nat.not_lt.mp hjn)] at h
    have := Nat.pow_right_injective (le_refl 2) h
    omega

end

/-! ## The syndrome of a word, which is linear -/

theorem secFold_xor : ∀ (cols : List Nat) (a b : Nat), secFold cols (a ^^^ b) = secFold cols a ^^^ secFold cols b
  | [], _, _ => by simp [secFold]
  | c :: cols, a, b => by
    have low : (a ^^^ b) % 2 = (a + b) % 2 := Nat.xor_mod_two_eq
    have term : (if (a ^^^ b) % 2 = 1 then c else 0) = (if a % 2 = 1 then c else 0) ^^^ (if b % 2 = 1 then c else 0) := by
      rcases Nat.mod_two_eq_zero_or_one a with ha | ha <;> rcases Nat.mod_two_eq_zero_or_one b with hb | hb <;>
        simp [low, Nat.add_mod, ha, hb]
    simp only [secFold, term, Nat.xor_div_two, secFold_xor cols]
    ac_rfl

theorem secFold_zero : ∀ cols : List Nat, secFold cols 0 = 0
  | [] => rfl
  | c :: cols => by simp [secFold, secFold_zero cols]

theorem secFold_two_pow : ∀ (cols : List Nat) (j : Nat), secFold cols (2 ^ j) = cols.getD j 0
  | [], _ => by simp [secFold]
  | c :: cols, 0 => by simp [secFold, secFold_zero]
  | c :: cols, j + 1 => by simp [secFold, secFold_two_pow cols j, Nat.pow_succ]

/-- The syndrome of a word of `n` data bits under its check bits. -/
def secSyn (r n w : Nat) : Nat := secCheck r n (w % 2 ^ n) ^^^ w / 2 ^ n

/-- A flipped bit adds its column. -/
theorem secSyn_flip (r n w i : Nat) : secSyn r n (w ^^^ 2 ^ i) = secSyn r n w ^^^ secCol r n i := by
  have single : secCheck r n (2 ^ i % 2 ^ n) ^^^ 2 ^ i / 2 ^ n = secCol r n i := by
    by_cases h : i < n
    · have lt : 2 ^ i < 2 ^ n := Nat.pow_lt_pow_right (by decide) h
      rw [Nat.mod_eq_of_lt lt, Nat.div_eq_of_lt lt, Nat.xor_zero, secCheck, secFold_two_pow, secCol, if_pos h]
    · have le : n ≤ i := Nat.not_lt.mp h
      rw [Nat.mod_eq_zero_of_dvd (Nat.pow_dvd_pow 2 le), Nat.pow_div le (by decide), secCheck, secFold_zero, Nat.zero_xor,
        secCol_check le]
  rw [← single, secSyn, secSyn, Nat.xor_mod_two_pow, Nat.xor_div_two_pow, secCheck, secFold_xor]
  simp only [secCheck]
  ac_rfl

/-! ## Reading a word -/

/-- A word as it is read. -/
def secWordRead (r n w : Nat) : SecRead := secRead r n (w % 2 ^ n) (w / 2 ^ n)

section
variable {r n w : Nat}

theorem secWordRead_eq : secWordRead r n w =
    if secSyn r n w = 0 then .clean (w % 2 ^ n)
    else if ones r (secSyn r n w) = 1 then .fixed (w % 2 ^ n)
    else match (secCols r n).findIdx? (· == secSyn r n w) with
      | some j => .fixed (w % 2 ^ n ^^^ 2 ^ j)
      | none => .bad (w % 2 ^ n) := rfl

theorem secWordRead_of_clean (h : secSyn r n w = 0) : secWordRead r n w = .clean (w % 2 ^ n) := if_pos h

variable (hs : secSyn r n w ≠ 0)
include hs

theorem secWordRead_of_check (h : ones r (secSyn r n w) = 1) : secWordRead r n w = .fixed (w % 2 ^ n) :=
  (if_neg hs).trans (if_pos h)

variable (h1 : ones r (secSyn r n w) ≠ 1)
include h1

theorem secWordRead_of_column {j : Nat} (h : (secCols r n).findIdx? (· == secSyn r n w) = some j) :
    secWordRead r n w = .fixed (w % 2 ^ n ^^^ 2 ^ j) := by
  rw [secWordRead_eq, if_neg hs, if_neg h1, h]

theorem secWordRead_of_no_column (h : secSyn r n w ∉ secCols r n) : secWordRead r n w = .bad (w % 2 ^ n) := by
  have absent : (secCols r n).findIdx? (· == secSyn r n w) = none :=
    List.findIdx?_eq_none_iff.mpr fun c hc => beq_eq_false_iff_ne.mpr fun e => h (e ▸ hc)
  rw [secWordRead_eq, if_neg hs, if_neg h1, absent]

end

/-! ## Errors of one and of two bits in a codeword -/

section
variable {r n w : Nat} (hl : (secCols r n).length = n) (hw : secSyn r n w = 0)
include hl hw

theorem secWordRead_single {i : Nat} (hi : i < n + r) : secWordRead r n (w ^^^ 2 ^ i) = .fixed (w % 2 ^ n) := by
  have syn : secSyn r n (w ^^^ 2 ^ i) = secCol r n i := by rw [secSyn_flip, hw, Nat.zero_xor]
  have ne : secCol r n i ≠ 0 := by
    intro e
    have odd := ones_secCol_odd hl hi
    rw [e, ones_zero] at odd
    exact absurd odd (by decide)
  by_cases h : i < n
  · have lt : 2 ^ i < 2 ^ n := Nat.pow_lt_pow_right (by decide) h
    have found : (secCols r n).findIdx? (· == secCol r n i) = some i := by
      rw [List.findIdx?_eq_some_iff_getElem]
      refine ⟨hl.symm ▸ h, by simp [secCol_data hl h], fun j hj => ?_⟩
      simp [secCol_data hl h, (secCols_nodup r n).getElem_inj_iff, Nat.ne_of_lt hj]
    have weight := ones_secCol_data hl h
    rw [secWordRead_of_column (by rwa [syn]) (by rw [syn]; omega) (by rw [syn, found]), Nat.xor_mod_two_pow, Nat.mod_eq_of_lt lt,
      Nat.xor_assoc, Nat.xor_self, Nat.xor_zero]
  · have le : n ≤ i := Nat.not_lt.mp h
    rw [secWordRead_of_check (by rwa [syn]) (by rw [syn]; exact ones_secCol_check le hi), Nat.xor_mod_two_pow,
      Nat.mod_eq_zero_of_dvd (Nat.pow_dvd_pow 2 le), Nat.xor_zero]

/-- The sum of two columns has an even weight and is not 0, so it is neither a column nor a single bit. -/
theorem secWordRead_double {i j : Nat} (hij : i < j) (hj : j < n + r) :
    secWordRead r n (w ^^^ 2 ^ i ^^^ 2 ^ j) = .bad ((w ^^^ 2 ^ i ^^^ 2 ^ j) % 2 ^ n) := by
  have syn : secSyn r n (w ^^^ 2 ^ i ^^^ 2 ^ j) = secCol r n i ^^^ secCol r n j := by
    rw [secSyn_flip, secSyn_flip, hw, Nat.zero_xor]
  have even : ones r (secCol r n i ^^^ secCol r n j) % 2 = 0 := by
    have hi := ones_secCol_odd hl (Nat.lt_trans hij hj)
    have hj := ones_secCol_odd hl hj
    have := ones_xor_mod_two r (secCol r n i) (secCol r n j)
    omega
  refine secWordRead_of_no_column ?_ ?_ ?_ <;> rw [syn]
  · intro h
    exact Nat.ne_of_lt hij (secCol_injective hl (Nat.lt_trans hij hj) hj (Nat.xor_eq_zero_iff.mp h))
  · omega
  · intro h
    have := secCols_weight h
    omega

end

/-! ## Codewords as words -/

section
variable {r n d : Nat} (hd : d < 2 ^ n)
include hd

theorem secCheck_place : (d + 2 ^ n * secCheck r n d) % 2 ^ n = d ∧ (d + 2 ^ n * secCheck r n d) / 2 ^ n = secCheck r n d := by
  rw [Nat.add_mul_mod_self_left, Nat.mod_eq_of_lt hd, Nat.add_mul_div_left _ _ (Nat.two_pow_pos n), Nat.div_eq_of_lt hd, Nat.zero_add]
  exact ⟨rfl, rfl⟩

/-- The bits of a codeword stand as its data and check bits, so its syndrome is 0. -/
theorem secSyn_encoded : secSyn r n (d + 2 ^ n * secCheck r n d) = 0 := by
  obtain ⟨data, check⟩ := secCheck_place (r := r) hd
  rw [secSyn, data, check, Nat.xor_self]

theorem toNat_encoded : (BitVec.ofNat (n + r) (d % 2 ^ n + 2 ^ n * secCheck r n (d % 2 ^ n))).toNat = d + 2 ^ n * secCheck r n d := by
  rw [Nat.mod_eq_of_lt hd]
  refine Nat.mod_eq_of_lt ?_
  rw [Nat.pow_add', ← Nat.div_lt_iff_lt_mul (Nat.two_pow_pos n), (secCheck_place hd).2]
  exact secCheck_lt r n d

end

theorem toNat_xor_bit {m : Nat} (w : BitVec m) {i : Nat} (h : i < m) : (w ^^^ (1#m <<< i)).toNat = w.toNat ^^^ 2 ^ i := by
  rw [BitVec.toNat_xor, ← BitVec.twoPow_eq, BitVec.toNat_twoPow, Nat.mod_eq_of_lt (Nat.pow_lt_pow_right (by decide) h)]

/-- What O56 says of one code, of any size. -/
theorem secRead_corrects {r n : Nat} (hl : (secCols r n).length = n) {d : Nat} (hd : d < 2 ^ n) :
    let enc := BitVec.ofNat (n + r) (d % 2 ^ n + 2 ^ n * secCheck r n (d % 2 ^ n))
    let dec := fun (w : BitVec (n + r)) => secWordRead r n w.toNat
    dec enc = .clean d ∧ (∀ i, i < n + r → dec (enc ^^^ (1#(n + r) <<< i)) = .fixed d) ∧
      ∀ i j, i < j → j < n + r → ∃ x, dec (enc ^^^ (1#(n + r) <<< i) ^^^ (1#(n + r) <<< j)) = .bad x := by
  intro enc dec
  have word : enc.toNat = d + 2 ^ n * secCheck r n d := toNat_encoded hd
  have syn : secSyn r n enc.toNat = 0 := word ▸ secSyn_encoded hd
  have data : enc.toNat % 2 ^ n = d := word ▸ (secCheck_place hd).1
  refine ⟨(secWordRead_of_clean syn).trans (congrArg _ data), fun i hi => ?single, fun i j hij hj => ?double⟩
  case single =>
    have flip := congrArg (secWordRead r n) (toNat_xor_bit enc hi)
    exact flip.trans ((secWordRead_single hl syn hi).trans (congrArg _ data))
  case double =>
    have flips := (toNat_xor_bit (enc ^^^ (1#(n + r) <<< i)) hj).trans
      (congrArg (· ^^^ 2 ^ j) (toNat_xor_bit enc (Nat.lt_trans hij hj)))
    exact ⟨_, (congrArg (secWordRead r n) flips).trans (secWordRead_double hl syn hij hj)⟩

theorem length_secCols_72 : (secCols 8 64).length = 64 := by decide
theorem length_secCols_39 : (secCols 7 32).length = 32 := by decide
theorem length_secCols_53 : (secCols 7 46).length = 46 := by decide

/-- Settles O56: a syndrome is the sum of the columns of the flipped bits, which are apart and of odd weight. -/
theorem secDedCorrects : Obligations.SecDedCorrects :=
  ⟨fun _ => secRead_corrects length_secCols_72, fun _ => secRead_corrects length_secCols_39,
    fun _ => secRead_corrects length_secCols_53⟩

end Sys2Proof
end

section
/-!
PROOFS. Register commands: what a command comes to at a register whose clock runs, by who gives it (R19, R365).
-/

namespace Sys2Proof.Machine

section
variable {s t : State} {n : RegName} {q : Src}

theorem next_regAct {f : State → State} (h : s.regWaits n = false) (ht : f s = t) (i : List Nat) (w : Word32) :
    .next (s.regAct q n i w f) = (.next (t.answer q .ok) : Out) := by
  subst ht
  exact congrArg Host.Outcome.next (State.regAct_of_not_waits h ..)

theorem next_command {f : State → State} (hm : mayWrite n q = true) (h : s.regWaits n = false) (ht : f s = t) (i : List Nat)
    (w : Word32) : .next (s.command q n i w f) = (.next (t.answer q .ok) : Out) := by
  subst ht
  exact congrArg Host.Outcome.next (State.command_of_listed hm h ..)

theorem next_command_of_not_listed (hm : mayWrite n q = false) (i : List Nat) (w : Word32) (f : State → State) :
    .next (s.command q n i w f) = (.next (s.answer q .serr) : Out) :=
  congrArg Host.Outcome.next (State.command_of_not_listed hm ..)

end

end Sys2Proof.Machine
end

section
/-!
PROOFS. Reads and writes of blocks that a controller serves, and requests it holds (R358, R367, R383 to R387, R393; O16).
-/

namespace Sys2Proof.Machine

/-! ## Requests as the memory target receives them (R358, R365) -/

theorem exec_dramRead {r : Req} (hw : r.write = false) (s : State) : exec (.dramRead r) s = .next (s.memRequest r) := by
  have same : { r with write := false } = r := by rw [← hw]
  exact congrArg (fun q => Host.Outcome.next (s.memRequest q)) same

theorem exec_dramWrite {r : Req} (hw : r.write = true) (s : State) : exec (.dramWrite r) s = .next (s.memRequest r) := by
  have same : { r with write := true } = r := by rw [← hw]
  exact congrArg (fun q => Host.Outcome.next (s.memRequest q)) same

section
variable {s : State} {r : Req}

/-- Outside the coherent class the L2 sees nothing of a request (R358). -/
theorem State.memRequest_of_cls (h : r.cls ≠ 3) : s.memRequest r = s.memAccess r := if_pos (.inl h)

theorem State.memAccess_of_absent (h : s.dramHas r.addr.toNat = false) : s.memAccess r = s.respond r .aerr := if_pos (by simp [h])

variable (hb : inBlock r.addr.toNat r.len = true) (hl : r.write = true → r.data.length = r.len) (hd : s.dramHas r.addr.toNat = true)
include hb hl hd

/-- What R365 asks of an access before it is served. -/
theorem memAccess_judged :
    ¬ (!inBlock r.addr.toNat r.len || (r.write && r.data.length != r.len) || !s.dramHas r.addr.toNat) = true := by
  cases hw : r.write
  · simp [hb, hd]
  · simp [hb, hd, hl hw]

variable (hm : s.metaRegion r.addr.toNat = none) (hr : s.memRuns r.addr.toNat = true)
include hm hr

theorem State.memAccess_of_memWaits (hw : s.memWaits r = true) : s.memAccess r = s.hold r := by
  rw [State.memAccess, if_neg (memAccess_judged hb hl hd), hm]
  simp only [hr, hw, Bool.not_true, Bool.true_or, Bool.false_eq_true, if_false, if_true]

/-- A request that a unit without credit keeps waiting outside the regions is held (R393; log entry 21). -/
theorem State.memAccess_of_no_credit (hg : s.region r.addr.toNat = none) (hwait : s.dramGate r.addr.toNat = .wait) :
    s.memAccess r = s.hold r := by
  refine State.memAccess_of_memWaits hb hl hd hm hr ?_
  simp only [State.memWaits, hm, hg, hwait]
  rfl

end

/-! ## A block as it is read (R383, R385, R387) -/

section
variable {s : State} {b : Nat} {d : List Byte} (u : MemUnit) (q : Nat)

theorem State.readBlock_of_clean (h : s.decodeBlock b = .clean d) : s.readBlock u b q = (.ok, d, [], s) := by
  rw [State.readBlock, h]

/-- A corrected block is counted, and waits to be written back (R386). -/
theorem State.readBlock_of_fixed (h : s.decodeBlock b = .fixed d) :
    let t := s.countFix u (64 * b)
    s.readBlock u b q =
      (.ok, d, [], { t with dram := { t.dram with wback := t.dram.wback.filter (fun e => e.1 != b) ++ [(b, d)] } }) := by
  rw [State.readBlock, h]

theorem State.readBlock_of_poison (h : s.decodeBlock b = .poison) : s.readBlock u b q = (.perr, s.blockBytes b, [], s) := by
  rw [State.readBlock, h]

theorem State.readBlock_of_bad {n : Byte} {p : List Nat} (h : s.decodeBlock b = .bad d n p) :
    s.readBlock u b q = (.derr, d, p, s.logBad u (64 * b) q n .derr) := by
  rw [State.readBlock, h]

end

section
variable {s : State} {r : Req} {u : MemUnit} (h : PlainAt s r u) (hw : r.write = false)
include h hw

/-- A read is answered from its block: the code, the bytes asked for, and those of them whose parity fails. -/
theorem PlainAt.exec_dramRead {t : State} {c : Resp} {d : List Byte} {p : List Nat}
    (hread : (s.touchRow r.addr.toNat r.page).readBlock u (r.addr.toNat / 64) r.src.requester = (c, d, p, t)) :
    exec (.dramRead r) s = .next (t.respond r c ((d.drop (r.addr.toNat % 64)).take r.len)
      ((p.filter (fun i => r.addr.toNat % 64 ≤ i && i < r.addr.toNat % 64 + r.len)).map (· - r.addr.toNat % 64))) := by
  rw [Machine.exec_dramRead hw, h.memRequest, State.plainAccess, if_neg (by simp [hw]), State.ctlRead, h.dramGate]
  simp only [hread]

end

/-! ## A block as it is written (R367, R384, R385) -/

section
variable {s : State} {a : Nat} {data : List Byte} (u : MemUnit) (q : Nat)

theorem State.writeBlock_of_whole (hl : data.length = 64) :
    s.writeBlock u a data q = (.ok, s.putBlock (a / 64) data (s.freshMeta (a / 64))) := if_pos hl

variable (hl : data.length ≠ 64)
include hl

theorem State.writeBlock_of_clean {d : List Byte} (h : s.decodeBlock (a / 64) = .clean d) :
    s.writeBlock u a data q = (.ok, s.putBlock (a / 64) (overwrite d (a % 64) data) (s.freshMeta (a / 64))) := by
  refine (if_neg hl).trans ?_
  rw [h]

/-- Part of a poisoned block cannot be replaced, and the block stays poisoned (log entry 12). -/
theorem State.writeBlock_of_poison (h : s.decodeBlock (a / 64) = .poison) : s.writeBlock u a data q = (.perr, s) := by
  refine (if_neg hl).trans ?_
  rw [h]

end

section
variable {s : State} {r : Req} {u : MemUnit} (h : PlainAt s r u) (hw : r.write = true)
include h hw

theorem PlainAt.exec_dramWrite_bad_parity (hp : r.badPar ≠ []) :
    exec (.dramWrite r) s =
      .next (((s.touchRow r.addr.toNat r.page).poisonBlock (r.addr.toNat / 64)).respond r .perr) := by
  rw [exec_dramWrite hw, h.memRequest, State.plainAccess, if_pos hw, State.ctlWrite, h.dramGate]
  simp [hp]

theorem PlainAt.exec_dramWrite {c : Resp} {t : State} (hp : r.badPar = [])
    (hwrite : (s.touchRow r.addr.toNat r.page).writeBlock u r.addr.toNat r.data r.src.requester = (c, t)) :
    exec (.dramWrite r) s = .next (t.respond r c) := by
  rw [Machine.exec_dramWrite hw, h.memRequest, State.plainAccess, if_pos hw, State.ctlWrite, h.dramGate]
  simp [hp, hwrite]

omit hw in
theorem PlainAt.data_length : r.write = true → r.data.length = r.len := by
  obtain ⟨_, _, hl, _⟩ := h
  exact hl

end

/-- Settles O16: a plain access by what its block reads as; a unit without credit holds it (log entries 12 and 21). -/
theorem dramAccesses : Obligations.DramAccesses := by
  intro s r u a b q s1 part
  refine ⟨fun hw h => ⟨fun d hd => h.exec_dramRead hw (State.readBlock_of_clean u q hd),
      fun d hd => h.exec_dramRead hw (State.readBlock_of_fixed u q hd),
      fun hd => h.exec_dramRead hw (State.readBlock_of_poison u q hd),
      fun d n hd => h.exec_dramRead hw (State.readBlock_of_bad u q hd)⟩,
    fun hw h => ?write,
    fun hc hb hl hd hr hm hg hwait => ?held,
    fun hc hd => ⟨fun hw => ?_, fun hw => ?_⟩⟩
  case write =>
    have len : r.data.length = r.len := h.data_length hw
    refine ⟨h.exec_dramWrite_bad_parity hw, fun hp hl => h.exec_dramWrite hw hp (State.writeBlock_of_whole u q (len.trans hl)),
      fun hp hl => ?_⟩
    have short : r.data.length ≠ 64 := len.trans_ne hl
    exact ⟨fun d hd => h.exec_dramWrite hw hp (State.writeBlock_of_clean u q short hd),
      fun hd => h.exec_dramWrite hw hp (State.writeBlock_of_poison u q short hd)⟩
  case held =>
    have holds : s.memRequest r = s.hold r :=
      (State.memRequest_of_cls hc).trans (State.memAccess_of_no_credit hb hl hd hm hr hg hwait)
    exact ⟨fun hw => (exec_dramRead hw s).trans (congrArg _ holds), fun hw => (exec_dramWrite hw s).trans (congrArg _ holds)⟩
  all_goals have absent : s.memRequest r = s.respond r .aerr := (State.memRequest_of_cls hc).trans (State.memAccess_of_absent hd)
  · exact (exec_dramRead hw s).trans (congrArg _ absent)
  · exact (exec_dramWrite hw s).trans (congrArg _ absent)

end Sys2Proof.Machine
end

section
/-!
PROOFS. Region descriptors, key slots and the start of a rotation (R365, R381, R382, R408, R409, R418, R419, R421; O20).
-/

namespace Sys2Proof.Machine

/-! ## DDR_RGNr_CFG (R381, R382, R421) -/

/-- The settings of a descriptor that is not in force, as a write stores them. -/
def State.rgnSettings (s : State) (r : Nat) (w : Word32) : State :=
  ((s.put F.ddrRgnCfg_code [r] (F.ddrRgnCfg_code.of w)).put F.ddrRgnCfg_enc [r] (F.ddrRgnCfg_enc.of w)).put
    F.ddrRgnCfg_encCfg [r] (F.ddrRgnCfg_encCfg.of w)

section
variable {s : State} {r : Nat} {w : Word32} (hc : F.ddrRgnCfg_cfgErr.of w = 0)
include hc

theorem not_cfgErr_cleared : ¬ F.ddrRgnCfg_cfgErr.of w = 1 := by rw [hc]; decide

section
variable (he : s.flag F.ddrRgnCfg_en [r] = false) (hw : F.ddrRgnCfg_en.of w = 1)
include he hw

theorem State.rgnConfig_enable :
    s.rgnConfig r w =
      if (!(s.rgnSettings r w).rgnOk r) = true then (s.rgnSettings r w).raise F.ddrRgnCfg_cfgErr [r]
      else if ((s.rgnSettings r w).raise F.ddrRgnCfg_en [r]).flag F.ddrRgnCfg_enc [r] = true then
        ((s.rgnSettings r w).raise F.ddrRgnCfg_en [r]).initRegion r
      else (s.rgnSettings r w).raise F.ddrRgnCfg_en [r] := by
  have store : ¬ F.ddrRgnCfg_en.of w = 0 := by rw [hw]; decide
  rw [State.rgnConfig, if_neg (not_cfgErr_cleared hc), if_neg (ne_true_of_eq_false he), if_neg store]
  rfl

theorem State.rgnConfig_refused (hok : (s.rgnSettings r w).rgnOk r = false) :
    s.rgnConfig r w = (s.rgnSettings r w).raise F.ddrRgnCfg_cfgErr [r] :=
  (State.rgnConfig_enable hc he hw).trans (if_pos (by simp [hok]))

theorem State.rgnConfig_enabled (hok : (s.rgnSettings r w).rgnOk r = true) :
    s.rgnConfig r w =
      if ((s.rgnSettings r w).raise F.ddrRgnCfg_en [r]).flag F.ddrRgnCfg_enc [r] = true then
        ((s.rgnSettings r w).raise F.ddrRgnCfg_en [r]).initRegion r
      else (s.rgnSettings r w).raise F.ddrRgnCfg_en [r] :=
  (State.rgnConfig_enable hc he hw).trans (if_neg (by simp [hok]))

end

/-- An unencrypted region whose settings the write repeats goes out of force (R382). -/
theorem State.rgnConfig_disabled (he : s.flag F.ddrRgnCfg_en [r] = true) (hn : s.flag F.ddrRgnCfg_enc [r] = false)
    (hw : F.ddrRgnCfg_en.of w = 0)
    (same : F.ddrRgnCfg_code.of w = s.get F.ddrRgnCfg_code [r] ∧ F.ddrRgnCfg_enc.of w = s.get F.ddrRgnCfg_enc [r] ∧
      F.ddrRgnCfg_encCfg.of w = s.get F.ddrRgnCfg_encCfg [r]) :
    s.rgnConfig r w = s.put F.ddrRgnCfg_en [r] 0 := by
  have clear : ¬ F.ddrRgnCfg_en.of w = 1 := by rw [hw]; decide
  rw [State.rgnConfig, if_neg (not_cfgErr_cleared hc), if_pos he]
  dsimp only
  rw [if_pos same, if_neg clear, if_neg (by simp [hn]), State.disableRegion, if_neg (ne_true_of_eq_false hn)]

end

/-! ## ENC_KEYCMD (R418) -/

section
variable (s : State) (r : Nat)

/-- The key set that the buffer holds. -/
def State.keyBuffer (s : State) : KeySet := ⟨s.keyBytes 0 32, s.keyBytes 32 32, s.keyBytes 64 32⟩

theorem State.keyCommand_zero : s.keyCommand 3 r = s.zeroKeybuf.put F.encKeycmd_res [] 0 := rfl

theorem State.keyCommand_new_refused (h : s.rgnState r ≠ 2 ∨ s.keyBuffer.k1 = s.keyBuffer.k2) :
    s.keyCommand 1 r = s.zeroKeybuf.put F.encKeycmd_res [] 1 := if_pos h

theorem State.keyCommand_new (hr : s.rgnState r = 2) (hk : s.keyBuffer.k1 ≠ s.keyBuffer.k2) :
    s.keyCommand 1 r =
      ((s.zeroKeybuf.put F.encKeycmd_res [] 0).setEncRgn r { s.encRgn r with new := some s.keyBuffer }).raise
        F.encRgnStat_newKey [r] := if_neg (not_or.mpr ⟨not_not.mpr hr, hk⟩)

theorem State.keyCommand_current_refused (h : s.flag F.ddrRgnCfg_en [r] = true ∨ s.keyBuffer.k1 = s.keyBuffer.k2) :
    s.keyCommand 2 r = s.zeroKeybuf.put F.encKeycmd_res [] 1 := if_pos h

theorem State.keyCommand_current (he : s.flag F.ddrRgnCfg_en [r] = false) (hk : s.keyBuffer.k1 ≠ s.keyBuffer.k2) :
    s.keyCommand 2 r =
      ((s.zeroKeybuf.put F.encKeycmd_res [] 0).setEncRgn r { s.encRgn r with cur := some s.keyBuffer }).raise
        F.encRgnStat_curKey [r] := if_neg (not_or.mpr ⟨ne_true_of_eq_false he, hk⟩)

end

/-! ## ENC_RGNr_CTRL (R419) -/

theorem State.encCtrl_rekey {s : State} {r : Nat} {w : Word32} (hw : F.encRgnCtrl_rekey.of w = 1) :
    s.encCtrl r w = (s.writeReg .encRgnCtrl [r] w).rekey r := if_pos hw

theorem State.rekey_of_ready {s : State} {r : Nat} (h : s.rgnState r = 2 ∧ (s.encRgn r).new.isSome = true) :
    s.rekey r = (s.put F.encRgnStat_state [r] 3).setBound r 0 := if_pos h

theorem State.rekey_of_not_ready {s : State} {r : Nat} (h : ¬ (s.rgnState r = 2 ∧ (s.encRgn r).new.isSome = true)) :
    s.rekey r = s.raise F.encRgnStat_rkErr [r] := if_neg h

/-- Settles O20, command by command. -/
theorem encryptionSetup : Obligations.EncryptionSetup := by
  intro s src r w
  refine ⟨fun hm => ?unlisted, fun hm hq hc he hw => ?enable, fun hm hq hc he hn hw h1 h2 h3 => ?disable,
    (apply_ite Host.Outcome.next _ _ _).symm, ?keys, fun hm hq hw => ?rekey⟩
  case unlisted => exact ⟨next_command_of_not_listed hm .., next_command_of_not_listed hm ..⟩
  case enable =>
    exact ⟨fun hok => next_command hm hq (State.rgnConfig_refused hc he hw hok) ..,
      fun hok => next_command hm hq (State.rgnConfig_enabled hc he hw hok) ..⟩
  case disable => exact next_command hm hq (State.rgnConfig_disabled hc he hn hw ⟨h1, h2, h3⟩) ..
  case keys =>
    intro ks x z ok refused hm hq
    exact ⟨next_command hm hq (s.keyCommand_zero 0) .., fun h => next_command hm hq (s.keyCommand_new_refused r h) ..,
      fun hr hk => next_command hm hq (s.keyCommand_new r hr hk) .., fun h => next_command hm hq (s.keyCommand_current_refused r h) ..,
      fun he hk => next_command hm hq (s.keyCommand_current r he hk) ..⟩
  case rekey =>
    exact ⟨fun hr hn => next_command hm hq ((State.encCtrl_rekey hw).trans (State.rekey_of_ready ⟨hr, hn⟩)) ..,
      fun h => next_command hm hq ((State.encCtrl_rekey hw).trans (State.rekey_of_not_ready h)) ..⟩

end Sys2Proof.Machine
end

section
/-!
PROOFS. Accesses of encrypted regions, evictions and the sector commands (R365, R393, R404, R409 to R416; O21).
-/

namespace Sys2Proof.Machine

/-! ## Accesses that reach an engine (R409, R410) -/

theorem exec_encryptedRead {r : Req} (hw : r.write = false) (s : State) : exec (.encryptedRead r) s = .next (s.memRequest r) :=
  exec_dramRead hw s

theorem exec_encryptedWrite {r : Req} (hw : r.write = true) (s : State) : exec (.encryptedWrite r) s = .next (s.memRequest r) :=
  exec_dramWrite hw s

/-- The sector of a region at an address. -/
def State.sectorIn (s : State) (g a : Nat) : Nat := (a - s.rgnBase g) / 512

/-- An access of a block of an encrypted region whose clocks run. -/
structure EncAt (s : State) (r : Req) (g : Nat) : Prop where
  cls : r.cls ≠ 3
  block : inBlock r.addr.toNat r.len = true
  length : r.write = true → r.data.length = r.len
  has : s.dramHas r.addr.toNat = true
  data : s.metaRegion r.addr.toNat = none
  region : s.region r.addr.toNat = some g
  encrypted : s.encrypted g = true
  runs : s.memRuns r.addr.toNat = true

section
variable {s : State} {r : Req} {g : Nat} (h : EncAt s r g)
include h

section
variable (hw : s.sectorWaits g (s.sectorIn g r.addr.toNat) = false) (hb : s.behind r = false)
include hw hb

theorem EncAt.not_waits : ¬ (s.memWaits r || (!false && s.behind r)) = true := by
  have wait : s.memWaits r = false := by
    simp only [State.memWaits, h.data, h.region, h.encrypted, if_true]
    exact (congrArg _ hw).trans (Bool.and_false _)
  simp [wait, hb]

theorem EncAt.memRequest_read (hr : r.write = false) {c : Resp} {d : List Byte} {t : State}
    (hread : s.encRead g r.addr.toNat r.len r.src.requester = (c, d, t)) : s.memRequest r = t.respond r c d := by
  rw [State.memRequest_of_cls h.cls, State.memAccess, if_neg (memAccess_judged h.block h.length h.has), h.data]
  dsimp only
  rw [if_neg (by simp [h.runs]), if_neg (h.not_waits hw hb), h.region]
  simp only [h.encrypted, hr, hread, if_true, Bool.false_eq_true, if_false]

theorem EncAt.memRequest_write (hr : r.write = true) : s.memRequest r = s.encWrite g r := by
  rw [State.memRequest_of_cls h.cls, State.memAccess, if_neg (memAccess_judged h.block h.length h.has), h.data]
  dsimp only
  rw [if_neg (by simp [h.runs]), if_neg (h.not_waits hw hb), h.region]
  simp only [h.encrypted, hr, if_true]

end

/-- An access that must fetch its sector waits where a controller of it grants no credit (R393; log entry 21). -/
theorem EncAt.memRequest_held (hw : s.sectorWaits g (s.sectorIn g r.addr.toNat) = true) (hg : s.encGate g = none)
    (hl : s.belowLost (engineOf r.addr.toNat) g (s.sectorIn g r.addr.toNat) = none)
    (hh : s.healOf (engineOf r.addr.toNat) g (s.sectorIn g r.addr.toNat) = none)
    (hn : s.lineOf (engineOf r.addr.toNat) g (s.sectorIn g r.addr.toNat) = none) : s.memRequest r = s.hold r := by
  have wait : s.memWaits r = true := by
    simp only [State.memWaits, h.data, h.region, h.encrypted, if_true]
    unfold State.sectorIn at hw hl hh hn
    simp [hg, hl, hh, hn, hw]
  exact (State.memRequest_of_cls h.cls).trans (State.memAccess_of_memWaits h.block h.length h.has h.data h.runs wait)

end

/-! ## Reads (R409, R411, R415, R416) -/

section
variable {s : State} {g a : Nat} (len q : Nat)

theorem State.encRead_of_gate {c : Resp} (h : s.encGate g = some c) : s.encRead g a len q = (c, [], s) := by
  rw [State.encRead, h]

theorem State.encRead_of_lost (h : s.encGate g = none) (hl : (s.belowLost (engineOf a) g (s.sectorIn g a)).isSome = true) :
    s.encRead g a len q = (.perr, [], s) := by
  rw [State.encRead, h]
  exact if_pos (by rw [Bool.or_eq_true]; exact .inl hl)

variable (h : s.encGate g = none) (hl : s.belowLost (engineOf a) g (s.sectorIn g a) = none)
  (hh : s.healOf (engineOf a) g (s.sectorIn g a) = none)
include h hl hh

omit h in
theorem not_lost_or_healing :
    ¬ ((s.belowLost (engineOf a) g (s.sectorIn g a)).isSome || (s.healOf (engineOf a) g (s.sectorIn g a)).isSome) = true := by
  simp [hl, hh]

theorem State.encRead_of_line {l : CLine} (hn : s.lineOf (engineOf a) g (s.sectorIn g a) = some l) :
    s.encRead g a len q = (.ok, sectorSlice l.data ((a - s.rgnBase g) % 512) len, s.putLine (engineOf a) l) := by
  rw [State.encRead, h]
  refine (if_neg (not_lost_or_healing hl hh)).trans ?_
  unfold State.sectorIn at hn
  simp only [hn]

theorem State.encRead_of_fetched {d : BitVec 4096} {t : State} (hn : s.lineOf (engineOf a) g (s.sectorIn g a) = none)
    (hf : s.fetchSector (engineOf a) g (s.sectorIn g a) a q = (.data d, t)) :
    s.encRead g a len q = (.ok, sectorSlice d ((a - s.rgnBase g) % 512) len,
      t.putLine (engineOf a) ⟨g, s.sectorIn g a, d, false, false⟩) := by
  rw [State.encRead, h]
  refine (if_neg (not_lost_or_healing hl hh)).trans ?_
  unfold State.sectorIn at hn hf ⊢
  simp only [hn, hf]

end

/-! ## Writes (R367, R409, R413, R416) -/

section
variable {s : State} {g : Nat} {r : Req}

theorem State.encWrite_of_gate {c : Resp} (h : s.encGate g = some c) : s.encWrite g r = s.respond r c := by
  rw [State.encWrite, h]

variable (h : s.encGate g = none)
include h

theorem State.encWrite_of_lost (hl : (s.belowLost (engineOf r.addr.toNat) g (s.sectorIn g r.addr.toNat)).isSome = true) :
    s.encWrite g r = s.respond r .perr := by
  rw [State.encWrite, h]
  exact if_pos hl

variable (hl : s.belowLost (engineOf r.addr.toNat) g (s.sectorIn g r.addr.toNat) = none)
  (hh : s.healOf (engineOf r.addr.toNat) g (s.sectorIn g r.addr.toNat) = none)
include hl hh

theorem State.encWrite_of_line {l : CLine} (hn : s.lineOf (engineOf r.addr.toNat) g (s.sectorIn g r.addr.toNat) = some l) :
    s.encWrite g r =
      if r.badPar.isEmpty then
        (s.putLine (engineOf r.addr.toNat)
          { l with data := sectorMerge l.data ((r.addr.toNat - s.rgnBase g) % 512) r.data, dirty := true }).respond r .ok
      else (s.poisonSector (engineOf r.addr.toNat) g (s.sectorIn g r.addr.toNat)).respond r .perr := by
  unfold State.sectorIn at hl hh hn ⊢
  simp only [State.encWrite, State.failWrite, h, hl, hh, hn, Option.isSome_none, Bool.false_eq_true, if_false]

theorem State.encWrite_of_fetched {d : BitVec 4096} {t : State}
    (hn : s.lineOf (engineOf r.addr.toNat) g (s.sectorIn g r.addr.toNat) = none)
    (hf : s.fetchSector (engineOf r.addr.toNat) g (s.sectorIn g r.addr.toNat) r.addr.toNat r.src.requester = (.data d, t)) :
    s.encWrite g r =
      if r.badPar.isEmpty then
        (t.putLine (engineOf r.addr.toNat) ⟨g, s.sectorIn g r.addr.toNat,
          sectorMerge d ((r.addr.toNat - s.rgnBase g) % 512) r.data, true, false⟩).respond r .ok
      else (t.poisonSector (engineOf r.addr.toNat) g (s.sectorIn g r.addr.toNat)).respond r .perr := by
  unfold State.sectorIn at hl hh hn hf ⊢
  simp only [State.encWrite, State.failWrite, h, hl, hh, hn, hf, Option.isSome_none, Bool.false_eq_true, if_false]

end

/-! ## SECTOR_EVICTION (R412) -/

section
variable {s : State} {k : Nat}

theorem State.evict_of_none (h : (s.eng k).victim = none) : s.evict k = s := by
  rw [State.evict, h]

theorem State.evict_of_some {l : CLine} (h : (s.eng k).victim = some l) (hw : s.sectorWaits l.region l.sector = false) :
    s.evict k = (s.dropLine k l.region l.sector).writeBack k l := by
  rw [State.evict, h]
  exact if_neg (ne_true_of_eq_false hw)

end

/-! ## The sector commands (R413, R414, R416) -/

section
variable {s : State} {g a : Nat} (hr : s.region a = some g) (he : s.encrypted g = true) (hg : s.encGate g = none)
  (hw : s.sectorWaits g (s.sectorIn g a) = false)
include hr he hg hw

theorem State.sectorAt_rebuild {n : Node} (hl : s.belowLost (engineOf a) g (s.sectorIn g a) = some n) :
    s.sectorAt 3 a = (s.rebuild (engineOf a) n).put F.encScmd_resp [] 0 := by
  unfold State.sectorIn at hw hl
  simp [State.sectorAt, hr, he, hg, hw, hl, Resp.code]

section
variable {op : Nat} (hop : op ≠ 3)
include hop

theorem State.sectorAt_of_lost (hl : (s.belowLost (engineOf a) g (s.sectorIn g a)).isSome = true) :
    s.sectorAt op a = s.put F.encScmd_resp [] 2 := by
  unfold State.sectorIn at hw hl
  simp [State.sectorAt, hr, he, hg, hw, hl, hop, Resp.code]

end

/-! A sector whose counter verifies, and that no write heals, is zeroed or poisoned. -/

section
variable {t : State} (hl : s.belowLost (engineOf a) g (s.sectorIn g a) = none)
  (hv : s.verifyPath (engineOf a) g (s.sectorIn g a) a 10 = (.used, t)) (hh : t.healOf (engineOf a) g (s.sectorIn g a) = none)
include hl hv hh

theorem State.sectorAt_clear :
    s.sectorAt 1 a =
      (((t.dropHeal (engineOf a) g (s.sectorIn g a)).dropLine (engineOf a) g (s.sectorIn g a)).writeBack (engineOf a)
        ⟨g, s.sectorIn g a, 0#4096, true, false⟩).put F.encScmd_resp [] 0 := by
  unfold State.sectorIn at hw hl hv hh ⊢
  simp [State.sectorAt, hr, he, hg, hw, hl, hv, hh, Resp.code]

theorem State.sectorAt_poison :
    s.sectorAt 2 a =
      ((t.dropHeal (engineOf a) g (s.sectorIn g a)).poisonSector (engineOf a) g (s.sectorIn g a)).put F.encScmd_resp [] 0 := by
  unfold State.sectorIn at hw hl hv hh ⊢
  simp [State.sectorAt, hr, he, hg, hw, hl, hv, hh, Resp.code]

end

end

/-- A command acts on the sector that ENC_SADDR names, where none is in progress. -/
theorem State.sectorCommand_of_idle {s : State} (h : s.flag F.encScmd_busy [] = false) (op : Nat) :
    s.sectorCommand op = s.sectorAt op s.scmdAddr := if_neg (ne_true_of_eq_false h)

/-- Settles O21, access by access, by what the engine finds (log entry 21 for what waits). -/
theorem encryptedAccesses : Obligations.EncryptedAccesses := by
  intro s r g src k a e i o
  refine ⟨fun hc hb hd hm hg he hr hw hq => ⟨fun hread => ?read, fun hwrite hl => ?write⟩,
    fun hc hb hd hm hg he hr hw h0 h1 h2 h3 => ?held, fun hrun => ⟨fun l hv hw => ?_, fun hv => ?_⟩, ?commands⟩
  case read =>
    have at_ : EncAt s r g := ⟨hc, hb, by simp [hread], hd, hm, hg, he, hr⟩
    have acts : ∀ {c d t}, s.encRead g r.addr.toNat r.len r.src.requester = (c, d, t) →
        exec (.encryptedRead r) s = .next (t.respond r c d) :=
      fun h => (exec_encryptedRead hread s).trans (congrArg _ (at_.memRequest_read hw hq hread h))
    exact ⟨fun h => acts (State.encRead_of_gate _ _ h), fun h hl => acts (State.encRead_of_lost _ _ h hl),
      fun h hl hh => ⟨fun l hn => acts (State.encRead_of_line _ _ h hl hh hn),
        fun d hn hf => acts (State.encRead_of_fetched _ _ h hl hh hn (Prod.ext hf rfl))⟩⟩
  case write =>
    have at_ : EncAt s r g := ⟨hc, hb, fun _ => hl, hd, hm, hg, he, hr⟩
    have acts : ∀ {t}, s.encWrite g r = t → exec (.encryptedWrite r) s = .next t :=
      fun h => (exec_encryptedWrite hwrite s).trans (congrArg _ ((at_.memRequest_write hw hq hwrite).trans h))
    have good : r.badPar = [] → r.badPar.isEmpty = true := fun h => List.isEmpty_iff.mpr h
    have bad : r.badPar ≠ [] → ¬ r.badPar.isEmpty = true := fun h e => h (List.isEmpty_iff.mp e)
    refine ⟨fun h => acts (State.encWrite_of_gate h), fun h hl => acts (State.encWrite_of_lost h hl),
      fun h hl hh => ⟨fun l hn => ?_, fun d hn hf => ?_⟩⟩
    · have line := State.encWrite_of_line h hl hh hn
      exact ⟨fun hp => acts (line.trans (if_pos (good hp))), fun hp => acts (line.trans (if_neg (bad hp)))⟩
    · have fetched := State.encWrite_of_fetched h hl hh hn (Prod.ext hf rfl)
      exact ⟨fun hp => acts (fetched.trans (if_pos (good hp))), fun hp => acts (fetched.trans (if_neg (bad hp)))⟩
  case held =>
    refine ⟨fun hread => ?_, fun hwrite hl => ?_⟩
    · have at_ : EncAt s r g := ⟨hc, hb, by simp [hread], hd, hm, hg, he, hr⟩
      exact (exec_encryptedRead hread s).trans (congrArg _ (at_.memRequest_held hw h0 h1 h2 h3))
    · have at_ : EncAt s r g := ⟨hc, hb, fun _ => hl, hd, hm, hg, he, hr⟩
      exact (exec_encryptedWrite hwrite s).trans (congrArg _ (at_.memRequest_held hw h0 h1 h2 h3))
  · exact (if_pos hrun).trans (congrArg _ (State.evict_of_some hv hw))
  · exact (if_pos hrun).trans (congrArg _ (State.evict_of_none hv))
  case commands =>
    intro b f j hm hq hbusy hr he hg hw
    have idle := State.sectorCommand_of_idle hbusy
    refine ⟨fun n hl => ?lost, fun hl hv hh => ?verified⟩
    case lost =>
      have some : (s.belowLost f g j).isSome = true := by rw [hl]; rfl
      exact ⟨next_command hm hq ((idle 3).trans (State.sectorAt_rebuild hr he hg hw hl)) ..,
        next_command hm hq ((idle 1).trans (State.sectorAt_of_lost hr he hg hw (by decide) some)) ..,
        next_command hm hq ((idle 2).trans (State.sectorAt_of_lost hr he hg hw (by decide) some)) ..⟩
    case verified =>
      exact ⟨next_command hm hq ((idle 1).trans (State.sectorAt_clear hr he hg hw hl (Prod.ext hv rfl) hh)) ..,
        next_command hm hq ((idle 2).trans (State.sectorAt_poison hr he hg hw hl (Prod.ext hv rfl) hh)) ..⟩

end Sys2Proof.Machine
end

section
/-!
PROOFS. The walk of a key rotation and its end (R404, R418 to R421; O22).
-/

namespace Sys2Proof.Machine

/-! ## REKEY_WALK_STEP (R419 to R421) -/

section
variable {s : State} {r : Fin 64}

theorem exec_rekeyWalkStep_of_idle (h : s.rgnState r ≠ 3 ∨ s.get F.encRgnCtrl_rate [r.val] = 0) :
    exec (.rekeyWalkStep r) s = .next s := by
  refine if_pos ?_
  rcases h with h | h
  · exact .inl h
  · exact .inr (.inl h)

variable (hs : s.rgnState r = 3) (hr : 0 < s.get F.encRgnCtrl_rate [r.val]) (hb : s.bound r < s.rgnSectors r) (hc : s.runs 9 = true)
include hs hr hb hc

theorem not_rekeyWalkStep_idle :
    ¬ (s.rgnState r ≠ 3 ∨ s.get F.encRgnCtrl_rate [r.val] = 0 ∨ s.rgnSectors r ≤ s.bound r ∨ (!s.runs 9) = true) := by
  simp [hs, hc, Nat.pos_iff_ne_zero.mp hr, hb]

theorem exec_rekeyWalkStep_of_passed
    (h : (s.belowLost (engineOf (s.sectorAddr r (s.bound r))) r (s.bound r)).isSome = true ∨ s.ctrOf r (s.bound r) = 0) :
    exec (.rekeyWalkStep r) s = .next (s.setBound r (s.bound r + 1)) :=
  (if_neg (not_rekeyWalkStep_idle hs hr hb hc)).trans (if_pos h)

variable (hl : s.belowLost (engineOf (s.sectorAddr r (s.bound r))) r (s.bound r) = none) (hn : s.ctrOf r (s.bound r) ≠ 0)
include hl hn

omit hs hr hb hc in
theorem not_rekeyWalkStep_passed :
    ¬ ((s.belowLost (engineOf (s.sectorAddr r (s.bound r))) r (s.bound r)).isSome = true ∨ s.ctrOf r (s.bound r) = 0) := by
  simp [hl, hn]

/-- A cached sector is converted at its next eviction. -/
theorem exec_rekeyWalkStep_of_line {l : CLine}
    (h : s.lineOf (engineOf (s.sectorAddr r (s.bound r))) r (s.bound r) = some l) :
    let e := engineOf (s.sectorAddr r (s.bound r))
    exec (.rekeyWalkStep r) s =
      .next ((s.setEng e { s.eng e with lines := (s.eng e).lines.map (fun m =>
        if m = l then { m with dirty := true, convert := true } else m) }).setBound r (s.bound r + 1)) := by
  refine (if_neg (not_rekeyWalkStep_idle hs hr hb hc)).trans ((if_neg (not_rekeyWalkStep_passed hl hn)).trans ?_)
  rw [h]

theorem exec_rekeyWalkStep_of_fetched {d : BitVec 4096} {t : State}
    (h : s.lineOf (engineOf (s.sectorAddr r (s.bound r))) r (s.bound r) = none) (hw : s.sectorWaits r (s.bound r) = false)
    (hf : s.fetchSector (engineOf (s.sectorAddr r (s.bound r))) r (s.bound r) (s.sectorAddr r (s.bound r)) 0 = (.data d, t)) :
    exec (.rekeyWalkStep r) s =
      .next ((t.setBound r (s.bound r + 1)).putLine (engineOf (s.sectorAddr r (s.bound r))) ⟨r, s.bound r, d, true, true⟩) := by
  refine (if_neg (not_rekeyWalkStep_idle hs hr hb hc)).trans ((if_neg (not_rekeyWalkStep_passed hl hn)).trans ?_)
  rw [h]
  refine (if_neg (ne_true_of_eq_false hw)).trans ?_
  rw [hf]

end

/-! ## ROTATION_COMPLETE (R419) -/

theorem exec_rotationComplete_of_converting {s : State} {r : Fin 64}
    (h : s.rgnState r ≠ 3 ∨ s.bound r < s.rgnSectors r ∨ s.converting r = true) : exec (.rotationComplete r) s = .next s := by
  refine if_neg ?_
  rintro ⟨hs, hb, hc⟩
  rcases h with h | h | h
  · exact h hs
  · exact Nat.not_lt.mpr hb h
  · simp [h] at hc

/-- Settles O22, the walk by what it finds at the boundary. -/
theorem keyRotation : Obligations.KeyRotation := by
  intro s r b a e on
  refine ⟨exec_rekeyWalkStep_of_idle, fun hs hr hb hc => ⟨exec_rekeyWalkStep_of_passed hs hr hb hc,
      fun hl hn => ⟨fun l h => exec_rekeyWalkStep_of_line hs hr hb hc hl hn h,
        fun d h hw hf => exec_rekeyWalkStep_of_fetched hs hr hb hc hl hn h hw (Prod.ext hf rfl)⟩⟩,
    fun hs hb hc => if_pos ⟨hs, hb, by simp [hc]⟩, exec_rotationComplete_of_converting⟩

end Sys2Proof.Machine
end

section
/-!
PROOFS. Block commands of the controllers, the patrol scrub, row repair and the correction counts (R378, R383, R385, R386, R389, R393,
R397 to R399; O18).
-/

namespace Sys2Proof.Machine

/-! ## DDR_PCMD (R385, R393) -/

section
variable {s : State} {op : Nat}

theorem State.poisonCommand_of_busy (h : s.flag F.ddrPcmd_busy [] = true) : s.poisonCommand op = s := if_pos (.inr h)

variable (hop : op = 1 ∨ op = 2) (hb : s.flag F.ddrPcmd_busy [] = false)
include hop hb

theorem State.poisonCommand_of_idle : s.poisonCommand op = s.poisonAt op s.pcmdAddr := by
  refine if_neg ?_
  rcases hop with rfl | rfl <;> simp [hb]

variable (hd : s.dramHas s.pcmdAddr = true) (hr : s.region s.pcmdAddr = none) (hm : s.metaRegion s.pcmdAddr = none)
include hd hr hm

theorem State.poisonCommand_of_go {u : MemUnit} (hg : s.dramGate s.pcmdAddr = .go u) :
    s.poisonCommand op =
      (if op = 1 then s.poisonBlock (s.pcmdAddr / 64)
        else s.putBlock (s.pcmdAddr / 64) (List.replicate 64 0#8) (s.freshMeta (s.pcmdAddr / 64))).put F.ddrPcmd_resp [] 0 := by
  rw [State.poisonCommand_of_idle hop hb, State.poisonAt, if_neg (by simp [hd])]
  simp only [hr, hm, hg, Option.isSome_none, Bool.or_self, Bool.false_eq_true, if_false]
  split <;> rfl

/-- At a unit that grants no credit the command is in progress (log entry 21). -/
theorem State.poisonCommand_of_wait (hg : s.dramGate s.pcmdAddr = .wait) :
    s.poisonCommand op =
      ({ s with dram := { s.dram with pcmd := some (op, s.pcmdAddr) } } : State).raise F.ddrPcmd_busy [] := by
  rw [State.poisonCommand_of_idle hop hb, State.poisonAt, if_neg (by simp [hd])]
  simp only [hr, hm, hg, Option.isSome_none, Bool.or_self, Bool.false_eq_true, if_false]

end

/-! ## Writeback and patrol (R386) -/

theorem exec_correctionWriteback_of_some {s : State} {block : BitVec 42} {b : Nat} {d : List Byte}
    (h : s.dram.wback.find? (fun e => e.1 == block.toNat) = some (b, d)) :
    exec (.correctionWriteback block) s = .next (if s.wbackFree b then s.putBlock b d (s.freshMeta b) else s) := by
  change execCorrectionWriteback block s = _
  rw [execCorrectionWriteback, h]
  exact (apply_ite Host.Outcome.next _ _ _).symm

section
variable {s : State} {hbm : Bool} {i : Fin 4}

/-- The stack or channel of a unit's number. -/
def patrolUnit (hbm : Bool) (i : Fin 4) : Nat := if hbm then i.val % 2 else i.val

theorem exec_patrolScrub_of_off (h : s.patrolRuns hbm (patrolUnit hbm i) = false) : exec (.patrolScrub hbm i) s = .next s :=
  if_pos (by unfold patrolUnit at h; simp [h])

/-- The address that the patrol of a unit reads next. -/
def State.patrolNext (s : State) (hbm : Bool) (k : Nat) : Nat := s.patrolAddr hbm k (s.patrolAt hbm k)

theorem exec_patrolScrub_of_on (h : s.patrolRuns hbm (patrolUnit hbm i) = true) :
    exec (.patrolScrub hbm i) s =
      match s.dramGate (s.patrolNext hbm (patrolUnit hbm i)) with
      | .go u => .next (((s.patrolOn hbm (patrolUnit hbm i)).touchRow (s.patrolNext hbm (patrolUnit hbm i)) 0).readBlock u
          (s.patrolNext hbm (patrolUnit hbm i) / 64) 0).2.2.2
      | .wait => .next s
      | _ => .next (s.patrolOn hbm (patrolUnit hbm i)) :=
  if_neg (by unfold patrolUnit at h; simp [h])

theorem exec_patrolScrub_of_wait (hg : s.dramGate (s.patrolNext hbm (patrolUnit hbm i)) = .wait) :
    exec (.patrolScrub hbm i) s = .next s := by
  cases h : s.patrolRuns hbm (patrolUnit hbm i) with
  | false => exact exec_patrolScrub_of_off h
  | true => rw [exec_patrolScrub_of_on h, hg]

theorem exec_patrolScrub_of_go {u : MemUnit} (h : s.patrolRuns hbm (patrolUnit hbm i) = true)
    (hg : s.dramGate (s.patrolNext hbm (patrolUnit hbm i)) = .go u) :
    exec (.patrolScrub hbm i) s =
      .next (((s.patrolOn hbm (patrolUnit hbm i)).touchRow (s.patrolNext hbm (patrolUnit hbm i)) 0).readBlock u
        (s.patrolNext hbm (patrolUnit hbm i) / 64) 0).2.2.2 := by
  rw [exec_patrolScrub_of_on h, hg]

end

/-! ## Row repair (R397 to R399) -/

/-- The requests that wait for a row. -/
def State.rowQueue (s : State) (loc : Nat) : List Req :=
  (s.dram.held.filter (fun h => s.location h.req.addr.toNat == loc)).map (·.req)

/-- A repair of the DDR5 row that PPRLOC names is in progress. -/
def State.ddrRepairBegun (s : State) (hard : Bool) : State :=
  ({ s with dram := { s.dram with
      repair := some ⟨hard, BitVec.ofNat 64 (s.pprLoc false), s.rowQueue (s.pprLoc false), false, []⟩ } } : State).raise
    F.ddrPprcmd_busy []

/-- The row is in the buffer. -/
def State.ddrRowCopied (s : State) (hard : Bool) : State :=
  let loc := BitVec.ofNat 64 (s.pprLoc false)
  let bs := (s.ddrRepairBegun hard).rowBlocks loc.toNat
  let v := bs.foldl (fun v x => v.putBlock x.block x.data1 x.meta1) (s.ddrRepairBegun hard)
  { v with dram := { v.dram with repair := some ⟨hard, loc, s.rowQueue (s.pprLoc false), true, bs⟩ } }

section
variable (s : State) (loc : Nat)

/-- A request of the row's queue waits, so the copy waits exactly where the queue is not empty. -/
theorem State.any_rowQueue :
    (s.rowQueue loc).any (fun r => s.dram.held.any (fun h => h.req == r)) = !decide (s.rowQueue loc = []) := by
  have waits : ∀ r ∈ s.rowQueue loc, s.dram.held.any (fun h => h.req == r) = true := by
    intro r hr
    obtain ⟨h, hh, rfl⟩ := List.mem_map.mp hr
    exact List.any_eq_true.mpr ⟨h, (List.mem_filter.mp hh).1, beq_self_eq_true _⟩
  cases hq : s.rowQueue loc with
  | nil => rfl
  | cons r rest => simp [waits r (by simp [hq])]

theorem State.startRepair_ddr (hard : Bool) :
    s.startRepair false hard = if s.rowQueue (s.pprLoc false) = [] then s.ddrRowCopied hard else s.ddrRepairBegun hard := by
  have any := s.any_rowQueue (s.pprLoc false)
  by_cases hq : s.rowQueue (s.pprLoc false) = []
  · rw [if_pos hq]
    exact if_neg (by rw [Bool.false_or]; exact ne_true_of_eq_false (any.trans (by simp [hq])))
  · rw [if_neg hq]
    exact if_pos (by rw [Bool.false_or]; exact any.trans (by simp [hq]))

end

section
variable {s : State}

theorem State.repairCommand_of_busy (h : s.flag F.ddrPprcmd_busy [] = true) (op : Nat) : s.repairCommand false op = s := if_pos h

variable (h : s.flag F.ddrPprcmd_busy [] = false)
include h

theorem State.repairCommand_soft : s.repairCommand false 1 = s.startRepair false false := if_neg (ne_true_of_eq_false h)

theorem State.repairCommand_hard_of_trained (ht : s.unitTrained (locUnit (s.pprLoc false)) = true) :
    s.repairCommand false 2 = s.put F.ddrPprcmd_res [] 1 :=
  (if_neg (ne_true_of_eq_false h)).trans (if_pos ht)

theorem State.repairCommand_hard (ht : s.unitTrained (locUnit (s.pprLoc false)) = false) :
    s.repairCommand false 2 = s.startRepair false true :=
  (if_neg (ne_true_of_eq_false h)).trans (if_neg (ne_true_of_eq_false ht))

end

section
variable {s : State} {rep : Repair} (h : s.dram.repair = some rep)
include h

theorem exec_repairComplete_of_not_copied (hc : rep.copied = false) (res : Fin 8) : exec (.repairComplete false res) s = .next s := by
  change execRepairComplete false res s = _
  rw [execRepairComplete, State.repairOf, if_neg Bool.false_ne_true, h]
  exact if_pos (by simp [hc])

/-- The DDR5 repair has ended with a result, and `soft` lists the soft repairs in force. -/
def State.ddrRepairEnded (s : State) (rep : Repair) (soft : List (BitVec 64)) (res : Nat) : State :=
  let v := locUnit rep.loc.toNat
  ((({ s with dram := { s.dram with soft := soft, repair := none } } : State).put F.ddrPprcmd_busy [] 0).put F.ddrPprcmd_res []
    res).logEv v.site v.kind v.unit 0x0605 0 (locBytes rep.loc.toNat ++ leBytes 1 res)

theorem exec_repairComplete_of_copied (hc : rep.copied = true) {res : Fin 8} (hres : res.val ≠ 2) :
    exec (.repairComplete false res) s =
      .next (s.ddrRepairEnded rep (if res.val = 0 && !rep.hard then s.dram.soft ++ [rep.loc] else s.dram.soft) res.val) := by
  change execRepairComplete false res s = _
  rw [execRepairComplete, State.repairOf, if_neg Bool.false_ne_true, h]
  refine (if_neg (by simp [hc])).trans ?_
  rw [if_neg hres]
  rfl

end

/-- Settles O18, command by command (log entry 21 for what waits at a unit without credit, 117 for the order of the patrol). -/
theorem blockCommands : Obligations.BlockCommands := by
  intro s src hbm block u i a
  refine ⟨fun hm => ⟨next_command_of_not_listed hm .., next_command_of_not_listed hm ..⟩,
    fun hm hq hb hd hr hmeta hg => ?go,
    fun hm hq hb => ⟨next_command hm hq (State.poisonCommand_of_busy hb) .., next_command hm hq (State.poisonCommand_of_busy hb) ..⟩,
    fun hm hq hb hd hr hmeta hg => ?wait, fun b d => exec_correctionWriteback_of_some,
    ⟨exec_patrolScrub_of_off, exec_patrolScrub_of_wait, exec_patrolScrub_of_go⟩, fun hm hq => ?repair,
    fun rep h hc => exec_repairComplete_of_not_copied h hc 0, fun rep h hc => ?complete, rfl, rfl⟩
  case go =>
    exact ⟨next_command hm hq (State.poisonCommand_of_go (.inl rfl) hb hd hr hmeta hg) ..,
      next_command hm hq (State.poisonCommand_of_go (.inr rfl) hb hd hr hmeta hg) ..⟩
  case wait =>
    exact ⟨next_command hm hq (State.poisonCommand_of_wait (.inl rfl) hb hd hr hmeta hg) ..,
      next_command hm hq (State.poisonCommand_of_wait (.inr rfl) hb hd hr hmeta hg) ..⟩
  case repair =>
    refine ⟨fun hb => next_command hm hq (State.repairCommand_of_busy hb 1) .., fun hb => ⟨?_, fun ht => ?_, fun ht => ?_⟩⟩
    · exact next_command hm hq ((State.repairCommand_soft hb).trans (s.startRepair_ddr false)) ..
    · exact next_command hm hq (State.repairCommand_hard_of_trained hb ht) ..
    · exact next_command hm hq ((State.repairCommand_hard hb ht).trans (s.startRepair_ddr true)) ..
  case complete =>
    refine ⟨(exec_repairComplete_of_copied h hc (by decide)).trans ?_, exec_repairComplete_of_copied h hc (by decide)⟩
    cases rep.hard <;> rfl

end Sys2Proof.Machine
end

section
/-!
PROOFS. Pages, power-down, retraining, failed commands and the end of training (R379, R390, R391, R393 to R396; O19).
-/

namespace Sys2Proof.Machine

/-! ## Power-down (R391) -/

/-- The time without a command after which a rank of a unit enters power-down, in units of 16 ns; 0 disables it. -/
def State.pdTmo (s : State) (hbm : Bool) (unit : Nat) : Nat := if hbm then s.get F.hbmCfg_pdTmo [] else s.get F.ddrChCfg_pdTmo [unit]

section
variable {s : State} {hbm : Bool} {unit : Fin 4} {rank : BitVec 32}

theorem State.powerDownDue_eq (s : State) (hbm : Bool) (unit rank : Nat) :
    s.powerDownDue hbm unit rank = (s.pdTmo hbm unit != 0 && !s.dram.pdown.contains rank &&
      decide (SMap.get 0 s.dram.lastCmd rank + 16 * s.pdTmo hbm unit ≤ s.tb.count)) := rfl

theorem exec_powerDownEntry_of_disabled (h : s.pdTmo hbm unit.val = 0) : exec (.powerDownEntry hbm unit rank) s = .next s :=
  if_neg (by simp [State.powerDownDue_eq, h])

theorem exec_powerDownEntry_of_due (h : s.pdTmo hbm unit.val ≠ 0) (hn : rank.toNat ∉ s.dram.pdown)
    (ht : SMap.get 0 s.dram.lastCmd rank.toNat + 16 * s.pdTmo hbm unit.val ≤ s.tb.count) :
    exec (.powerDownEntry hbm unit rank) s = .next { s with dram := { s.dram with pdown := s.dram.pdown ++ [rank.toNat] } } :=
  if_pos (by simp [State.powerDownDue_eq, h, hn, ht])

end

/-! ## Temperature and retraining (R392, R394, R395) -/

theorem exec_dramTemperatureRead (s : State) (hbm : Bool) (unit : Fin 4) (temp : Int) :
    exec (.dramTemperatureRead hbm unit temp) s =
      .next (s.put (if hbm then F.hbmStkStat_hot else F.ddrChStat_hot) [if hbm then unit.val % 2 else unit.val]
        (if 85 < temp then 1 else 0)) := by
  by_cases h : 85 < temp
  · rw [if_pos h, show (1 : Nat) = b2n (decide (85 < temp)) by simp [h, b2n]]
    rfl
  · rw [if_neg h, show (0 : Nat) = b2n (decide (85 < temp)) by simp [h, b2n]]
    rfl

/-- A slice of a rank's retrain begins or has ended. -/
def State.retrainSlice (s : State) (rank : Nat) (busy : Bool) : State :=
  let rest := s.dram.slice.filter (· != rank)
  { s with dram := { s.dram with slice := if busy then rest ++ [rank] else rest } }

/-- Without a commit record the training firmware stays the one in use (R507). -/
theorem exec_periodicRetrain {s : State} (h : s.upd.commit = none) (hbm : Bool) (unit : Fin 4) (rank : BitVec 32) (busy fin : Bool) :
    exec (.periodicRetrain hbm unit rank busy fin) s =
      .next ((s.retrainSlice rank.toNat busy).put (if hbm then F.hbmStkStat_tracking else F.ddrChStat_tracking)
        [if hbm then unit.val % 2 else unit.val] (b2n (busy || !fin))) := by
  have same : s.trainFwNow = s.upd.trainFw := by
    rw [State.trainFwNow, h]
  change execPeriodicRetrain hbm unit rank busy fin s = _
  rw [execPeriodicRetrain, same]
  rfl

/-! ## Training of HBM (R393) -/

/-- Where no pseudo-channel of a stack failed, none is marked. -/
theorem foldl_failUnit_of_none (s : State) (k : Nat) (l : List Nat) :
    l.foldl (fun s p => if !true || (0#32).getLsbD p then s.failUnit ⟨true, k, p⟩ else s) s = s := by
  induction l with
  | nil => rfl
  | cons p l ih =>
    rw [List.foldl_cons, if_neg (by simp), ih]

theorem exec_trainingComplete_hbm (s : State) (unit : Fin 4) (pop : BitVec 32) :
    exec (.trainingComplete true unit true 0#32 pop) s =
      .next (((s.raise F.hbmStkStat_found [unit.val % 2]).raise F.hbmStkStat_trained [unit.val % 2]).startTimers
        (unitRanks true (unit.val % 2) 0)) := by
  change execTrainingComplete true unit true 0#32 pop s = _
  rw [execTrainingComplete, if_pos rfl]
  dsimp only
  rw [foldl_failUnit_of_none]
  rfl

/-- Settles O19, command by command (log entry 117 for the write that a failed command leaves in its queue). -/
theorem dramUpkeep : Obligations.DramUpkeep := by
  intro s bank unit sub hbm done temp reqs pcs pop rank k closed u timers fails
  refine ⟨rfl, rfl, ⟨exec_powerDownEntry_of_disabled, exec_powerDownEntry_of_due⟩, exec_dramTemperatureRead s hbm unit temp, rfl,
    fun h => ⟨exec_periodicRetrain h hbm unit rank true done, (exec_periodicRetrain h hbm unit rank false done).trans ?idle⟩, rfl,
    ⟨rfl, rfl⟩, ⟨rfl, rfl⟩, exec_trainingComplete_hbm s unit pop⟩
  case idle => cases done <;> rfl

end Sys2Proof.Machine
end

section
/-!
PROOFS. LOG_PERSIST of an entry with a correctable codeword (R422, R423, R438; O23).
-/

namespace Sys2Proof.Machine

/-- The MC runs, and the ring holds one entry that is not persisted. Bit 0 of its first codeword is flipped. -/
def State.ringFlipped : State :=
  ({ State.reset with
    pwr := { State.reset.pwr with mcRuns := true }
    log := { State.reset.log with ring := [(0, 1#72)] } } : State).put F.logWseq_seq [] 1

theorem ringFlipped_pending : State.ringFlipped.pseq ≠ State.ringFlipped.wseq ∧ State.ringFlipped.logHolds State.ringFlipped.pseq = true := by
  decide

/-- The flipped bit is corrected as the entry is read, and the codeword, now that of 0, is written back. -/
theorem ringFlipped_persistOne : State.ringFlipped.persistOne.log.ring = [] := by
  decide

/-- Refutes O23: an entry whose codeword is corrected leaves LOG_PERSIST with the codeword written back, where the statement keeps the
ring as it was. -/
theorem not_logAndTestAccess : ¬ Obligations.LogAndTestAccess := by
  intro h
  obtain ⟨-, -, -, -, -, -, -, -, -, -, persist⟩ := h State.ringFlipped ⟨60, 0, false, false⟩ 0#32 (.ring 0) 0 0 0
  obtain ⟨pending, holds⟩ := ringFlipped_pending
  have claimed := (persist rfl).2 pending holds
  have persisted : exec (.logPersist 1 0) State.ringFlipped = .next State.ringFlipped.persistOne := rfl
  rw [persisted] at claimed
  injection claimed with claimed
  have ring := congrArg (fun t : State => t.log.ring) claimed
  rw [ringFlipped_persistOne] at ring
  exact absurd ring (by decide)

end Sys2Proof.Machine
end

section
/-!
PROOFS. Mailbox channels: lock, control, force and timeout, and the log service (R438, R487, R489, R490, R492, R495, R498, R565; O38).
-/

namespace Sys2Proof.Machine

/-! ## The lock (R490) -/

section
variable {s : State} {src : Src} {c : Fin 32}

theorem exec_lockRead_of_reach (h : s.mbxReach src c = true) {v : Nat} {t : State}
    (hv : s.lockRead src.requester c src.peeks = (v, t)) :
    exec (.lockRead src c) s = .next (t.answerWord src (BitVec.ofNat 32 v)) := by
  refine (if_neg (by simp [h])).trans ?_
  exact congrArg (fun p : Nat × State => Host.Outcome.next (p.2.answerWord src (BitVec.ofNat 32 p.1))) hv

end

section
variable {s : State} {n c : Nat}

theorem State.lockRead_of_peek : s.lockRead n c true = (s.mbxOwner c, s) := if_pos rfl

theorem State.lockRead_of_free (h : s.mbxState c = 0) :
    s.lockRead n c false = (0, (s.mbxEnter c 1).put F.mbxStat_owner [c] n) := (if_neg Bool.false_ne_true).trans (if_pos h)

theorem State.lockRead_of_held (h : s.mbxState c ≠ 0) :
    s.lockRead n c false = (if s.mbxOwner c = n then 0 else s.mbxOwner c, s) := (if_neg Bool.false_ne_true).trans (if_neg h)

end

/-! ## Control (R489, R491, R492) -/

theorem ctrlWord_go (len : BitVec 5) :
    wordField (0x80000000#32 ||| len.setWidth 32) 31 28 = 8 ∧ F.mbxCtrl_len.of (0x80000000#32 ||| len.setWidth 32) = len.toNat := by
  revert len
  decide

theorem ctrlWord_done (len : BitVec 5) :
    wordField (0x20000000#32 ||| len.setWidth 32) 31 28 = 2 ∧ F.mbxCtrl_len.of (0x20000000#32 ||| len.setWidth 32) = len.toNat := by
  revert len
  decide

section
variable {s : State} {n c : Nat} {w : Word32}

theorem State.ctrlWrite_go (h : wordField w 31 28 = 8) :
    s.ctrlWrite n c w = if s.mbxState c = 1 ∧ s.mbxOwner c = n then some (s.mbxGo c (F.mbxCtrl_len.of w)) else none := by
  simp only [State.ctrlWrite, h, beq_iff_eq]

theorem State.ctrlWrite_take (h : wordField w 31 28 = 4) :
    s.ctrlWrite n c w = if s.mbxState c = 2 ∧ s.mbxRcv c = n then some (s.mbxEnter c 3) else none := by
  simp only [State.ctrlWrite, h, beq_iff_eq]

theorem State.ctrlWrite_done (h : wordField w 31 28 = 2) :
    s.ctrlWrite n c w = if s.mbxState c = 3 ∧ s.mbxRcv c = n then some (s.mbxDone c (F.mbxCtrl_len.of w)) else none := by
  simp only [State.ctrlWrite, h, beq_iff_eq]

theorem State.ctrlWrite_withdraw (h : wordField w 31 28 = 1) :
    s.ctrlWrite n c w = if s.mbxState c = 2 ∧ s.mbxOwner c = n then some (s.mbxEnter c 1) else none := by
  simp only [State.ctrlWrite, h, beq_iff_eq]

end

/-- A control write acts under its condition, and is SERR otherwise (R492). -/
theorem next_ctrlCommand {s t : State} {q : Src} {c : Nat} {w : Word32} {p : Prop} [Decidable p] (hr : s.mbxReach q c = true)
    (hq : s.regWaits .mbxCtrl = false) (h : s.ctrlWrite q.requester c w = if p then some t else none) :
    .next (s.ctrlCommand q c w) = (if p then .next (t.answer q .ok) else .next (s.answer q .serr) : Out) := by
  rw [State.ctrlCommand, if_pos hr, h]
  by_cases hp : p
  · simp only [if_pos hp]
    exact next_regAct hq rfl ..
  · simp only [if_neg hp]

theorem next_ctrlCommand_of_not_reach {s : State} {q : Src} {c : Nat} (hr : s.mbxReach q c = false) (w : Word32) :
    .next (s.ctrlCommand q c w) = (.next (s.answer q .serr) : Out) :=
  congrArg Host.Outcome.next (if_neg (ne_true_of_eq_false hr))

/-! ## The log service (R498) -/

section
variable {s : State} {k : Fin 9}

theorem exec_logService_of_idle (h : s.mcServes k = false) (b : Bool) : exec (.logService k b) s = .next s :=
  if_pos (by simp [h])

variable (h : s.mcServes k = true)
include h

theorem exec_logService_of_unknown (hk : knownService k (s.mbxWord k 0) = false) (b : Bool) :
    exec (.logService k b) s = .next (s.mbxReply k 8 [0xFFFFFFFF]) :=
  (if_neg (by simp [h])).trans (if_pos (by simp [hk]))

variable (hk : k = 8) (hw : s.mbxWord k 0 = 0x10001)
include hk hw

/-- The request for an entry, which MC firmware knows on channel 8. -/
theorem exec_logService_of_entry (b : Bool) :
    exec (.logService k b) s =
      if b then .next (s.mbxReply k 10 ([2, s.mbxWord k 1] ++ List.replicate 8 0))
      else
        match (s.log.flash.filter (fun e => e.1 == s.mbxWord k 1)).getLast? with
        | some e => .next (s.mbxReply k 10 ([0, s.mbxWord k 1] ++ (List.range 8).map (fun j => leNat ((e.2.drop (4 * j)).take 4))))
        | none => .next (s.mbxReply k 10 ([1, s.mbxWord k 1] ++ List.replicate 8 0)) := by
  have known : knownService k (s.mbxWord k 0) = true := by
    rw [hk] at hw ⊢
    rw [hw]
    decide
  exact (if_neg (by simp [h])).trans ((if_neg (by simp [known])).trans (if_neg (not_not.mpr hw)))

theorem exec_logService_of_missing
    (he : (s.log.flash.filter (fun e => e.1 == s.mbxWord k 1)).getLast? = none) :
    exec (.logService k false) s = .next (s.mbxReply k 10 ([1, s.mbxWord k 1] ++ List.replicate 8 0)) := by
  rw [exec_logService_of_entry h hk hw, he]
  rfl

theorem exec_logService_of_persisted {e : Nat × List Byte}
    (he : (s.log.flash.filter (fun e => e.1 == s.mbxWord k 1)).getLast? = some e) :
    exec (.logService k false) s =
      .next (s.mbxReply k 10 ([0, s.mbxWord k 1] ++ (List.range 8).map (fun j => leNat ((e.2.drop (4 * j)).take 4)))) := by
  rw [exec_logService_of_entry h hk hw, he]
  rfl

end

/-- Settles O38, command by command. -/
theorem mailboxes : Obligations.Mailboxes := by
  intro s src c len k n st owner rcv serr
  refine ⟨fun hr => ?unreached, fun hr => ⟨fun hp => ?_, fun hp hst => ?_, fun hp hst => ?_, fun hq => ?_, fun hq => ?control,
      fun hm hq => ?_⟩,
    fun h => if_neg (ne_true_of_eq_false h), fun h => if_pos h, exec_logService_of_idle,
    fun h => ⟨exec_logService_of_unknown h, fun hk hw =>
      ⟨exec_logService_of_entry h hk hw true, exec_logService_of_missing h hk hw, fun e => exec_logService_of_persisted h hk hw⟩⟩⟩
  case unreached =>
    have shut : ¬ s.mbxReach src c = true := ne_true_of_eq_false hr
    exact ⟨if_pos (by simp [hr]), if_neg shut, next_ctrlCommand_of_not_reach hr _, next_ctrlCommand_of_not_reach hr _,
      next_ctrlCommand_of_not_reach hr _, next_ctrlCommand_of_not_reach hr _, if_neg shut⟩
  · exact exec_lockRead_of_reach hr (by rw [hp]; exact State.lockRead_of_peek)
  · exact exec_lockRead_of_reach hr (by rw [hp]; exact State.lockRead_of_free hst)
  · exact exec_lockRead_of_reach hr (by rw [hp]; exact State.lockRead_of_held hst)
  · exact (if_pos hr).trans (next_regAct hq rfl ..)
  case control =>
    refine ⟨next_ctrlCommand hr hq ?go, next_ctrlCommand hr hq ?done, next_ctrlCommand hr hq (State.ctrlWrite_take (by decide)),
      next_ctrlCommand hr hq (State.ctrlWrite_withdraw (by decide))⟩
    case go => exact (State.ctrlWrite_go (ctrlWord_go len).1).trans (by rw [(ctrlWord_go len).2]; rfl)
    case done => exact (State.ctrlWrite_done (ctrlWord_done len).1).trans (by rw [(ctrlWord_done len).2]; rfl)
  · exact (if_pos hr).trans (next_command hm hq rfl ..)

end Sys2Proof.Machine
end

section
/-!
PROOFS. Lane settings, the pin check, lock and its loss (R440, R441, R448 to R450, R453 to R455; O32).
-/

namespace Sys2Proof.Machine

/-! ## LN_LANEl_CFG and LN_LANEl_RATE (R440, R441, R449, R454, R455) -/

section
variable {s : State} {l : Nat} {w : Word32}

/-- Whether the table of R441 and R447 holds the settings of a word, at the lane's rate. -/
def State.settingLegal (s : State) (l : Nat) (w : Word32) : Bool :=
  laneLegal (F.lnLaneCfg_mode.of w) (s.get F.lnLaneRate_kbd [l]) (F.lnLaneCfg_width.of w)

theorem State.laneConfig_refused (h : s.laneHeld l = true ∨ s.settingLegal l w = false) :
    s.laneConfig l w = s.raise F.lnLaneStat_cfgErr [l] := by
  refine if_pos ?_
  unfold State.settingLegal at h
  rcases h with h | h <;> simp [h]

variable (hh : s.laneHeld l = false) (hl : s.settingLegal l w = true)
include hh hl

theorem not_laneConfig_refused :
    ¬ (s.laneHeld l || !laneLegal (F.lnLaneCfg_mode.of w) (s.get F.lnLaneRate_kbd [l]) (F.lnLaneCfg_width.of w)) = true := by
  unfold State.settingLegal at hl
  simp [hh, hl]

theorem State.laneConfig_off (he : F.lnLaneCfg_en.of w = 0) :
    s.laneConfig l w = (((s.writeReg .lnLaneCfg [l] w).put F.lnLaneStat_lock [l] 0).setReg .lnLaneLat [l] 0#32).setStage l .off :=
  (if_neg (not_laneConfig_refused hh hl)).trans (if_pos he)

variable (he : F.lnLaneCfg_en.of w = 1)
include he

omit hh hl in
theorem laneConfig_en_set : ¬ F.lnLaneCfg_en.of w = 0 := by rw [he]; decide

theorem State.laneConfig_start (hwas : s.flag F.lnLaneCfg_en [l] = false) :
    s.laneConfig l w = (s.writeReg .lnLaneCfg [l] w).startLane l :=
  (if_neg (not_laneConfig_refused hh hl)).trans ((if_neg (laneConfig_en_set he)).trans (if_pos (by simp [hwas])))

/-- Another loopback starts a lane in use again, with its pin check (R454). -/
theorem State.laneConfig_loopback (hwas : s.flag F.lnLaneCfg_en [l] = true)
    (hr : (s.writeReg .lnLaneCfg [l] w).flag F.lnLaneStat_retired [l] = false)
    (hlb : F.lnLaneCfg_lb.of w ≠ s.get F.lnLaneCfg_lb [l]) :
    s.laneConfig l w = (s.writeReg .lnLaneCfg [l] w).startLane l :=
  (if_neg (not_laneConfig_refused hh hl)).trans ((if_neg (laneConfig_en_set he)).trans
    ((if_neg (by simp [hwas])).trans ((if_neg (ne_true_of_eq_false hr)).trans (if_pos hlb))))

end

section
variable {s : State} {l : Nat}

/-- The lane is without lock. -/
def State.unlocked (s : State) (l : Nat) : State := (s.put F.lnLaneStat_lock [l] 0).setReg .lnLaneLat [l] 0#32

theorem State.adaptLane_eq : s.adaptLane l = if s.stage l = .pins then s.unlocked l else (s.unlocked l).setStage l .adapt := rfl

theorem State.laneRate_adapt {w : Word32} (hh : s.laneHeld l = false)
    (hl : laneLegal (s.get F.lnLaneCfg_mode [l]) (F.lnLaneRate_kbd.of w) 0 = true)
    (hn : (s.writeReg .lnLaneRate [l] w).reg .lnLaneRate [l] ≠ s.reg .lnLaneRate [l])
    (he : (s.writeReg .lnLaneRate [l] w).flag F.lnLaneCfg_en [l] = true)
    (hr : (s.writeReg .lnLaneRate [l] w).flag F.lnLaneStat_retired [l] = false) :
    s.laneRate l w = (s.writeReg .lnLaneRate [l] w).adaptLane l :=
  (if_neg (by simp [hh, hl])).trans (if_pos ⟨hn, he, by simp [hr]⟩)

end

/-! ## Bring-up and the loss of lock (R449, R450, R453) -/

section
variable {s : State} {l : Fin 40}

theorem exec_lanePinCheckDone_of_other (h : s.stage l ≠ .pins) (fault : Fin 5) : exec (.lanePinCheckDone l fault) s = .next s :=
  if_pos h

theorem exec_lanePinCheckDone_of_good (h : s.stage l = .pins) : exec (.lanePinCheckDone l 0) s = .next (s.setStage l .adapt) :=
  (if_neg (not_not.mpr h)).trans (if_pos rfl)

theorem exec_lanePinCheckDone_of_fault (h : s.stage l = .pins) {fault : Fin 5} (hf : fault ≠ 0) :
    exec (.lanePinCheckDone l fault) s = .next ((s.put F.lnLaneStat_pin [l.val] fault).retireLane l 0) :=
  (if_neg (not_not.mpr h)).trans (if_neg fun e => hf (Fin.ext e))

section
variable (h : s.stage l = .lost ∨ s.stage l = .adapt) (ha : s.flag F.lnLaneStat_fbActive [l.val] = false)
include h ha

theorem lockLossTimeout_due : (s.stage l = .lost ∨ s.stage l = .adapt) ∧ (!s.flag F.lnLaneStat_fbActive [l.val]) = true :=
  ⟨h, by simp [ha]⟩

/-- Where it is enabled, the fall-back is tried once before the lane is retired (log entry 123). -/
theorem exec_lockLossTimeout_of_fallBack (he : s.flag F.lnLaneCfg_fbEn [l.val] = true)
    (hf : s.flag F.lnLaneStat_fbFail [l.val] = false) : exec (.lockLossTimeout l) s = .next (s.fallBack l) :=
  (if_pos (lockLossTimeout_due h ha)).trans (if_pos (by simp [he, hf]))

theorem exec_lockLossTimeout_of_retire (he : s.flag F.lnLaneCfg_fbEn [l.val] = false) :
    exec (.lockLossTimeout l) s = .next (s.retireLane l 1) :=
  (if_pos (lockLossTimeout_due h ha)).trans (if_neg (by simp [he]))

end

end

/-- Settles O32, command by command (log entry 19 for the check of each register against the other, 123 for the fall-back before the
retirement). -/
theorem laneBringUp : Obligations.LaneBringUp := by
  intro s src l w ps fault w1 legal held refused dark
  refine ⟨fun hq h => next_regAct hq (State.laneConfig_refused h) ..,
    fun hq h => ⟨next_regAct hq (State.laneConfig_refused h) .., next_regAct hq (State.laneConfig_refused h) ..⟩,
    fun hq hh hl he hwas => next_regAct hq (State.laneConfig_start hh hl he hwas) ..,
    fun hq hh hl => ⟨fun he => next_regAct hq (State.laneConfig_off hh hl he) ..,
      fun he hwas hr hlb => next_regAct hq (State.laneConfig_loopback hh hl he hwas hr hlb) ..⟩,
    fun hq hh hl hn he hr => next_regAct hq ((State.laneRate_adapt hh hl hn he hr).trans State.adaptLane_eq) ..,
    fun h => exec_lanePinCheckDone_of_other h fault,
    fun h => ⟨exec_lanePinCheckDone_of_good h, exec_lanePinCheckDone_of_fault h⟩,
    fun h => if_pos h, fun h => if_pos h, fun h => if_neg h,
    fun h ha => ⟨exec_lockLossTimeout_of_fallBack h ha, exec_lockLossTimeout_of_retire h ha⟩⟩

end Sys2Proof.Machine
end

section
/-!
PROOFS. The fall-back of a link, codewords under FEC, released words and the firmware of lanes (R443, R448, R451 to R453, R455; O33).
-/

namespace Sys2Proof.Machine

section
variable {s : State} {l : Fin 40}

/-! ## FALL_BACK_REQUEST and FALL_BACK_END (R451) -/

theorem exec_fallBackRequest_of_free (he : s.flag F.lnLaneCfg_en [l.val] = true) (hh : s.laneHeld l = false) :
    exec (.fallBackRequest l) s = .next (s.fallBack l) := if_pos (by simp [he, hh])

theorem exec_fallBackRequest_of_not_free (h : s.flag F.lnLaneCfg_en [l.val] = false ∨ s.laneHeld l = true) :
    exec (.fallBackRequest l) s = .next s := by
  refine if_neg ?_
  rcases h with h | h <;> simp [h]

theorem exec_fallBackEnd_of_inactive (h : s.flag F.lnLaneStat_fbActive [l.val] = false) (inv : BitVec 4) (rev fail : Bool) :
    exec (.fallBackEnd l inv rev fail) s = .next s := if_pos (by simp [h])

/-- A lane that was in a fall-back adapts again. -/
def State.backFrom (s : State) (l : Nat) : State := (s.put F.lnLaneStat_fbActive [l] 0).setStage l .adapt

/-- The end of the fall-back of a link of one lane, whose order cannot be reversed. -/
theorem exec_fallBackEnd_of_single (h : s.flag F.lnLaneStat_fbActive [l.val] = true) (hl : s.linkOf l = [l.val]) (inv : BitVec 4)
    (fail : Bool) :
    exec (.fallBackEnd l inv false fail) s =
      .next (((if fail then (s.backFrom l).raise F.lnLaneStat_fbFail [l.val]
          else (s.backFrom l).put F.lnLaneStat_inv [l.val] (b2n (inv.getLsbD 0))).logEv (laneSite l) 10 l 0x0802 1
        (leBytes 1 l.val ++ leBytes 1 inv.toNat ++ leBytes 1 0 ++ leBytes 1 (b2n fail))).interrupt .lanes) := by
  have part : ([(0, l.val)] : List (Nat × Nat)).filter (fun p => s.flag F.lnLaneStat_fbActive [p.2]) = [(0, l.val)] := by
    simp [h]
  refine (if_neg (by simp [h])).trans ?_
  rw [hl]
  change Host.Outcome.next ((State.logEv (List.foldl _ s (List.filter _ [(0, l.val)])) _ _ _ _ _ _).interrupt .lanes) = _
  rw [part]
  rfl

/-! ## FEC_CODEWORD_RECEIVE (R443, R453) -/

theorem exec_fecCodewordReceive_of_off (h : s.flag F.lnGrpCfg_fec [l.val / 4] = false) (wrong : Nat) :
    exec (.fecCodewordReceive l wrong) s = .next s := if_pos (by simp [h])

/-- The link of a lane, by its first lane. -/
def State.linkHead (s : State) (l : Nat) : Nat := (s.linkOf l).headD l

/-- The words of the lane's link carry no error mark, or one. -/
def State.wordsGood (s : State) (l : Nat) : State :=
  { s with lanes := { s.lanes with fecErr := s.lanes.fecErr.filter (fun j => j != s.linkHead l) } }
def State.wordsBad (s : State) (l : Nat) : State :=
  { s with lanes := { s.lanes with fecErr := s.linkHead l :: s.lanes.fecErr.filter (fun j => j != s.linkHead l) } }

/-- The uncorrectable codewords of the lane's group in the last second, with the present one. -/
def State.fecTimes (s : State) (l : Nat) : List Nat :=
  (SMap.get [] s.lanes.fecBad (l / 4)).filter (fun t => s.now (laneSite l) < t + 1000000000) ++ [s.now (laneSite l)]

section
variable (h : s.flag F.lnGrpCfg_fec [l.val / 4] = true)
include h

theorem exec_fecCodewordReceive_of_correctable {wrong : Nat} (hw : wrong ≤ 15) :
    exec (.fecCodewordReceive l wrong) s =
      .next (if wrong = 0 then s.wordsGood l else (s.wordsGood l).countUp F.lnGrpFec_corr [l.val / 4]) :=
  (if_neg (by simp [h])).trans (if_pos hw)

theorem exec_fecCodewordReceive_of_uncorrectable {wrong : Nat} (hw : 15 < wrong) (ht : (s.fecTimes l).length ≤ 1000) :
    let t := (s.wordsBad l).countUp F.lnGrpFec_uncorr [l.val / 4]
    exec (.fecCodewordReceive l wrong) s =
      .next { t with lanes := { t.lanes with fecBad := SMap.set [] t.lanes.fecBad (l.val / 4) (s.fecTimes l) } } :=
  (if_neg (by simp [h])).trans ((if_neg (Nat.not_le.mpr hw)).trans (if_neg (Nat.not_lt.mpr ht)))

end

/-! ## LANE_WORD_RELEASE (R448) -/

/-- The word that a lane receives is late, so it counts as invalid (log entry 112). -/
def State.rxLate (s : State) (l : Nat) : State :=
  { s with lanes := { s.lanes with
    rx := SMap.insert s.lanes.rx l { SMap.get default s.lanes.rx l with valid := false, err := true } } }

theorem exec_laneWordRelease_of_late (words : List (List (Fin 4))) :
    exec (.laneWordRelease l true true words) s = .next (s.lateWords l words.length) ∧
      exec (.laneWordRelease l false true words) s = .next ((s.lateWords l words.length).rxLate l) := ⟨rfl, rfl⟩

/-! ## ADAPTATION_EPOCH (R452) -/

/-- A locked lane whose firmware changes; the die's entry is written once no locked lane of it is left with another (log entry 78). -/
theorem exec_adaptationEpoch_of_other {c : Commit} (hc : s.upd.commit = some c) (hl : s.flag F.lnLaneStat_lock [l.val] = true)
    (hn : SMap.get 0 s.upd.laneFw l.val ≠ bitsOf c.slots 2 2) :
    let fw := SMap.set 0 s.upd.laneFw l.val (bitsOf c.slots 2 2)
    let t := ({ s with upd := { s.upd with laneFw := fw } } : State)
    exec (.adaptationEpoch l) s =
      .next (if (List.range 40).any (fun k => laneSite k == laneSite l && s.flag F.lnLaneStat_lock [k] &&
          SMap.get 0 fw k != bitsOf c.slots 2 2) then t
        else t.logEv (laneSite l) 10 0 0x0806 0 (leBytes 1 (laneSite l))) := by
  change execAdaptationEpoch l s = _
  rw [execAdaptationEpoch, hc]
  exact if_neg (by simp [hl, hn])

end

/-- Settles O33, command by command (log entry 78 for the entry of a die's firmware, 112 for a late word). -/
theorem laneFallBackAndFec : Obligations.LaneFallBackAndFec := by
  intro s src l g inv rev words wd wrong begun
  refine ⟨exec_fallBackRequest_of_free, exec_fallBackRequest_of_not_free, (apply_ite Host.Outcome.next _ _ _).symm,
    fun h => exec_fallBackEnd_of_inactive h inv rev false,
    fun h hl => ⟨exec_fallBackEnd_of_single h hl inv false, exec_fallBackEnd_of_single h hl inv true⟩,
    ⟨fun h => exec_fecCodewordReceive_of_off h wrong, fun h => ⟨?clean, fun hpos hw => ?corrected,
      fun hw ht => exec_fecCodewordReceive_of_uncorrectable h hw ht⟩⟩,
    ?released, rfl, fun c hc hl => exec_adaptationEpoch_of_other hc hl⟩
  case released =>
    intro far die s1
    obtain ⟨sent, received⟩ := exec_laneWordRelease_of_late (s := s) (l := l) words
    have late : s.lateWords l words.length = s1 := rfl
    rw [late] at sent received
    exact ⟨rfl, rfl, sent, received⟩
  case clean => exact exec_fecCodewordReceive_of_correctable h (Nat.zero_le 15)
  case corrected =>
    exact (exec_fecCodewordReceive_of_correctable h hw).trans (congrArg _ (if_neg (Nat.pos_iff_ne_zero.mp hpos)))

end Sys2Proof.Machine
end

section
/-!
PROOFS. Power modes: requests, the entry, and the SMBus target (R467, R468, R479 to R481; O37).
-/

namespace Sys2Proof.Machine

/-! ## PWR_MODE (R479 to R481) -/

section
variable {s : State} {q : Src} {w : Word32}

/-- In deep sleep the host does not write PWR_MODE (R481). -/
theorem State.modeCommand_of_host (h : s.mode = 2 ∧ q.requester = 1) : s.modeCommand q w = s.answer q .serr := if_pos h

theorem State.modeCommand_of_not_listed (h : mayWrite .pwrMode q = false) : s.modeCommand q w = s.answer q .serr := by
  by_cases hh : s.mode = 2 ∧ q.requester = 1
  · exact State.modeCommand_of_host hh
  · exact (if_neg hh).trans (State.command_of_not_listed h ..)

theorem next_modeCommand {t : State} (hm : mayWrite .pwrMode q = true) (hq : s.regWaits .pwrMode = false) (hs : s.mode ≠ 2)
    (ht : s.modeWrite w = t) : .next (s.modeCommand q w) = (.next (t.answer q .ok) : Out) :=
  (congrArg Host.Outcome.next (if_neg fun h => hs h.1)).trans (next_command hm hq ht ..)

end

section
variable {s : State}

/-- A mode below the present one is asked for, and the entry starts unless one is under way. -/
def State.modeEntering (s : State) (m : Nat) : State :=
  { s with pwr := { s.pwr with request := m, entry := if s.pwr.entry = 0 then 1 else s.pwr.entry } }

theorem State.modeWrite_sleep (h : (s.writeReg .pwrMode [] 1#32).mode = 0) :
    s.modeWrite 1#32 = (s.writeReg .pwrMode [] 1#32).modeEntering 1 := by
  have asks : s.modeWrite 1#32 = (s.writeReg .pwrMode [] 1#32).requestMode 1 := rfl
  rw [asks, State.requestMode, if_neg (by simp), if_pos (by rw [h]; decide)]
  rfl

/-- With the host link in L0 deep sleep is refused (R480), though mode is stored (log entry 31). -/
theorem State.modeWrite_deep_refused (h : (s.writeReg .pwrMode [] 2#32).linkL0 = true) :
    s.modeWrite 2#32 = (s.writeReg .pwrMode [] 2#32).raise F.pwrStat_refused [] := if_pos ⟨rfl, h⟩

theorem State.modeWrite_deep (h : (s.writeReg .pwrMode [] 2#32).linkL0 = false) (hm : (s.writeReg .pwrMode [] 2#32).mode < 2) :
    s.modeWrite 2#32 = (s.writeReg .pwrMode [] 2#32).modeEntering 2 :=
  (if_neg (by simp [h])).trans (if_pos hm)

end

/-! ## TAG_DRAIN_COMPLETE (R479) -/

section
variable {s : State}

theorem exec_tagDrainComplete_of_other (h : s.pwr.entry ≠ 2) : exec .tagDrainComplete s = .next s := if_neg fun e => h e.1

/-- The device is in sleep, and the entry has ended. -/
def State.asleep (s : State) : State :=
  let t := (s.put F.pwrStat_mode [] 1).cutPours
  { t with pwr := { t.pwr with entry := 0 } }

theorem exec_tagDrainComplete_of_sleep (he : s.pwr.entry = 2) (ht : s.noc.tags.all (fun e => e.2.out) = true)
    (hp : s.pwr.plan = []) (hr : s.pwr.request = 1) :
    exec .tagDrainComplete s =
      .next (if s.asleep.pwr.wakeAfter ≠ 0 then s.asleep.wakeNow s.asleep.pwr.wakeAfter else s.asleep) := by
  refine (if_pos ⟨he, ht, by simp [hp]⟩).trans ?_
  rw [hr]
  rfl

end

/-! ## The SMBus target (R468) -/

section
variable {s : State}

theorem State.smbusUp_of_heldOff (h : s.clk.phase = .heldOff) : ¬ s.smbusUp = true := by simp [State.smbusUp, h]

theorem State.smbusUp_of_clocked (h : s.clk.phase ≠ .heldOff) : s.smbusUp = true := by simpa [State.smbusUp] using h

section
variable {code : BitVec 8} (h : s.clk.phase ≠ .heldOff) (hc : code.toNat ∉ [1, 2, 3, 16])
include h hc

theorem not_smbusFirmwareCommand_idle : ¬ (!s.smbusUp || [1, 2, 3, 16].contains code.toNat) = true := by
  have free : [1, 2, 3, 16].contains code.toNat = false := by simpa using hc
  rw [State.smbusUp_of_clocked h, free]
  decide

theorem exec_smbusFirmwareCommand_of_reply (hm : s.pwr.mcRuns = true) (d : List Byte) :
    exec (.smbusFirmwareCommand code (some d)) s = .next (s.emit (.bytes "SMBus" d)) := by
  refine (if_neg (not_smbusFirmwareCommand_idle h hc)).trans ?_
  rw [hm]

theorem exec_smbusFirmwareCommand_of_none :
    exec (.smbusFirmwareCommand code none) s = .next (s.emit (.bytes "SMBus NACK" [])) := by
  refine (if_neg (not_smbusFirmwareCommand_idle h hc)).trans ?_
  cases s.pwr.mcRuns <;> rfl

end

end

/-- Settles O37, command by command (log entry 31 for requests that start no entry, 32 for the mode's code). -/
theorem powerModesAndSmbus : Obligations.PowerModesAndSmbus := by
  intro s src code reply d asked enter
  refine ⟨fun hm => ?unlisted, fun hm hq hs => ⟨fun h => next_modeCommand hm hq hs (State.modeWrite_sleep h),
      fun h => next_modeCommand hm hq hs (State.modeWrite_deep_refused h),
      fun h hmode => next_modeCommand hm hq hs (State.modeWrite_deep h hmode), next_modeCommand hm hq hs rfl⟩,
    fun hs hq => congrArg _ (State.modeCommand_of_host ⟨hs, hq⟩), exec_tagDrainComplete_of_other, exec_tagDrainComplete_of_sleep,
    fun h => ?down, fun h => ?up⟩
  case unlisted =>
    exact ⟨congrArg _ (State.modeCommand_of_not_listed hm), congrArg _ (State.modeCommand_of_not_listed hm),
      congrArg _ (State.modeCommand_of_not_listed hm)⟩
  case down =>
    have off := State.smbusUp_of_heldOff h
    exact ⟨if_neg off, if_neg off, if_neg off, if_neg off, if_pos (by simp [off])⟩
  case up =>
    have on := State.smbusUp_of_clocked h
    exact ⟨if_pos on, if_pos on, if_pos on, if_pos on,
      fun hc => ⟨fun hm => exec_smbusFirmwareCommand_of_reply h hc hm d, exec_smbusFirmwareCommand_of_none h hc⟩⟩

end Sys2Proof.Machine
end

section
/-!
PROOFS. The readback lock, captures and readback (R319 to R322; O42).
-/

namespace Sys2Proof.Machine

/-! ## FTL_RBLOCK (R322) -/

section
variable {s : State} {src : Src}

theorem exec_readbackLockRead_of_not_taken
    (h : s.get F.ftlRblock_owner [] ≠ 0 ∨ src.peeks = true ∨ src.requester ∉ [1, 10, 11]) :
    exec (.readbackLockRead src) s = .next (s.answerWord src (BitVec.ofNat 32 (s.get F.ftlRblock_owner []))) := by
  have keeps : ¬ (s.get F.ftlRblock_owner [] = 0 ∧ (!src.peeks) = true ∧ [1, 10, 11].contains src.requester = true) := by
    rintro ⟨free, reads, taker⟩
    rcases h with h | h | h
    · exact h free
    · simp [h] at reads
    · exact h (List.contains_iff_mem.mp taker)
  change Host.Outcome.next ((if _ then _ else s : State).answerWord src _) = _
  rw [if_neg keeps]

theorem exec_readbackLockRead_of_taken (h : s.get F.ftlRblock_owner [] = 0) (hp : src.peeks = false)
    (hn : src.requester ∈ [1, 10, 11]) :
    exec (.readbackLockRead src) s =
      .next ((s.put F.ftlRblock_owner [] src.requester).answerWord src (BitVec.ofNat 32 (s.get F.ftlRblock_owner []))) := by
  have takes : s.get F.ftlRblock_owner [] = 0 ∧ (!src.peeks) = true ∧ [1, 10, 11].contains src.requester = true :=
    ⟨h, by simp [hp], List.contains_iff_mem.mpr hn⟩
  change Host.Outcome.next ((if _ then _ else s : State).answerWord src _) = _
  rw [if_pos takes]

end

/-! ## FTL_RBCMD (R320 to R322) -/

theorem rbWord_fields {op die flask arg : Nat} (ho : op < 8) (hd : die < 4) (hf : flask < 64) (ha : arg < 2 ^ 16) :
    F.ftlRbcmd_op.of (rbWord op die flask arg) = op ∧ F.ftlRbcmd_die.of (rbWord op die flask arg) = die ∧
      F.ftlRbcmd_flask.of (rbWord op die flask arg) = flask ∧ F.ftlRbcmd_arg.of (rbWord op die flask arg) = arg := by
  simp only [Fld.of, wordField, bitsOf, F.ftlRbcmd_op, F.ftlRbcmd_die, F.ftlRbcmd_flask, F.ftlRbcmd_arg, rbWord, BitVec.toNat_ofNat,
    Nat.shiftRight_eq_div_pow]
  omega

section
variable {s : State} {src : Src}

theorem next_rbWrite_of_not_holds (h : s.rbHolds src = false) (w : Word32) :
    .next (s.rbWrite src w) = (.next (s.answer src .serr) : Out) :=
  congrArg Host.Outcome.next (if_neg (ne_true_of_eq_false h))

theorem next_rbWrite {t : State} {op die flask arg : Nat} (h : s.rbHolds src = true) (hq : s.regWaits .ftlRbcmd = false)
    (ho : op < 8) (hd : die < 4) (hf : flask < 64) (ha : arg < 2 ^ 16) (ht : s.rbCommand src op die flask arg = t) :
    .next (s.rbWrite src (rbWord op die flask arg)) = (.next (t.answer src .ok) : Out) := by
  obtain ⟨eo, ed, ef, ea⟩ := rbWord_fields ho hd hf ha
  rw [State.rbWrite, if_pos h]
  refine next_regAct hq ?_ ..
  rw [eo, ed, ef, ea, ht]

section
variable {op die flask arg : Nat}

theorem State.rbCommand_of_busy (hop : op ≠ 4) (hb : s.flag F.ftlRbcmd_busy [] = true) :
    s.rbCommand src op die flask arg = s := (if_neg hop).trans (if_pos hb)

theorem State.rbCommand_cancel {c : CaptureCmd} (hc : s.fab.capture = some c) (hf : c.flask = flask) :
    s.rbCommand src 4 die flask arg = ({ s with fab := { s.fab with capture := none } } : State).rbDone 0 :=
  (if_pos rfl).trans (if_pos (by simp [hc, hf]))

variable (hb : s.flag F.ftlRbcmd_busy [] = false)
include hb

theorem State.rbCommand_capture_eq :
    let t := s.pair .ftlRbtLo .ftlRbtHi []
    let u := (s.raise F.ftlRbcmd_busy []).put F.ftlRbcmd_res [] (if decide (t < s.now (flask / 16)) then 2 else 0)
    s.rbCommand src 1 die flask arg =
      if s.reloading flask then s.rbDone 1 else { u with fab := { u.fab with capture := some ⟨flask, arg % 32, t⟩ } } := by
  rw [State.rbCommand, if_neg (by decide), if_neg (ne_true_of_eq_false hb)]

theorem State.rbCommand_captureFrame_eq :
    s.rbCommand src 2 die flask arg =
      if s.reloading flask ∨ 32 ≤ arg then s.rbDone 1
      else (s.fillWin .ftlRbwin ((List.range 2048).map (fun i => s.captByte flask (2048 * arg + i)))).rbDone 0 := by
  rw [State.rbCommand, if_neg (by decide), if_neg (ne_true_of_eq_false hb)]

/-- A flask that is being reloaded is neither captured nor read (log entry 84). -/
theorem State.rbCommand_of_reloading (hop : op = 1 ∨ op = 2) (hr : s.reloading flask = true) :
    s.rbCommand src op die flask arg = s.rbDone 1 := by
  rcases hop with rfl | rfl
  · exact (State.rbCommand_capture_eq hb).trans (if_pos hr)
  · exact (State.rbCommand_captureFrame_eq hb).trans (if_pos (.inl hr))

theorem State.rbCommand_capture (hr : s.reloading flask = false) :
    let t := s.pair .ftlRbtLo .ftlRbtHi []
    let u := (s.raise F.ftlRbcmd_busy []).put F.ftlRbcmd_res [] (if decide (t < s.now (flask / 16)) then 2 else 0)
    s.rbCommand src 1 die flask arg = { u with fab := { u.fab with capture := some ⟨flask, arg % 32, t⟩ } } :=
  (State.rbCommand_capture_eq hb).trans (if_neg (ne_true_of_eq_false hr))

theorem State.rbCommand_captureFrame_of_beyond (ha : 32 ≤ arg) : s.rbCommand src 2 die flask arg = s.rbDone 1 :=
  (State.rbCommand_captureFrame_eq hb).trans (if_pos (.inr ha))

theorem State.rbCommand_captureFrame (hr : s.reloading flask = false) (ha : arg < 32) :
    s.rbCommand src 2 die flask arg =
      (s.fillWin .ftlRbwin ((List.range 2048).map (fun i => s.captByte flask (2048 * arg + i)))).rbDone 0 :=
  (State.rbCommand_captureFrame_eq hb).trans (if_neg (by simp [hr, ha]))

/-- Whether the flask of a frame is being reloaded. -/
def State.frameReloads (s : State) (die f : Nat) : Bool := (flaskOfFrame f).any (fun k => s.reloading (16 * die + k))

theorem State.rbCommand_frame_eq :
    s.rbCommand src 3 die flask arg =
      if 49152 ≤ arg ∨ s.frameReloads die arg ∨ (s.regionEnc die arg ∧ src.requester ≠ 10) then s.rbDone 1
      else (s.fillWin .ftlRbwin (s.frameBytes die arg)).rbDone 0 := by
  rw [State.rbCommand, if_neg (by decide), if_neg (ne_true_of_eq_false hb), State.frameReloads]
  cases flaskOfFrame arg <;> rfl

theorem State.rbCommand_frame_of_beyond (ha : 49152 ≤ arg) : s.rbCommand src 3 die flask arg = s.rbDone 1 :=
  (State.rbCommand_frame_eq hb).trans (if_pos (.inl ha))

/-- Only the MC reads back a region whose image was encrypted. -/
theorem State.rbCommand_frame_of_encrypted (he : s.regionEnc die arg = true) (hn : src.requester ≠ 10) :
    s.rbCommand src 3 die flask arg = s.rbDone 1 :=
  (State.rbCommand_frame_eq hb).trans (if_pos (.inr (.inr ⟨he, hn⟩)))

theorem State.rbCommand_frame (ha : arg < 49152) (he : s.regionEnc die arg = false ∨ src.requester = 10)
    (hr : ∀ k, flaskOfFrame arg = some k → s.reloading (16 * die + k) = false) :
    s.rbCommand src 3 die flask arg = (s.fillWin .ftlRbwin (s.frameBytes die arg)).rbDone 0 := by
  refine (State.rbCommand_frame_eq hb).trans (if_neg ?_)
  rintro (beyond | reloads | ⟨encrypted, other⟩)
  · exact Nat.not_le.mpr ha beyond
  · obtain ⟨k, hk, hrel⟩ := (Option.any_eq_true ..).mp reloads
    rw [hr k hk] at hrel
    exact Bool.false_ne_true hrel
  · rcases he with he | he
    · exact ne_true_of_eq_false he encrypted
    · exact other he

end

end

/-! ## CAPTURE_TAKEN (R320) -/

section
variable {s : State} {near : List Nat}

theorem exec_captureTaken_of_none (h : s.fab.capture = none) : exec (.captureTaken near) s = .next s := by
  change execCaptureTaken near s = _
  rw [execCaptureTaken, h]

variable {c : CaptureCmd} (h : s.fab.capture = some c)
include h

theorem exec_captureTaken_of_some :
    exec (.captureTaken near) s =
      if s.now (c.flask / 16) < c.t ∨ !s.netComes s.free (s.signals s.free) (c.flask / 16) c.net then .next s
      else .next ((({ s with fab := { s.fab with capture := none } } : State).captureFlask c.flask near).put F.ftlRbcmd_busy [] 0) := by
  change execCaptureTaken near s = _
  rw [execCaptureTaken, h]

theorem exec_captureTaken_of_early
    (hn : s.now (c.flask / 16) < c.t ∨ s.netComes s.free (s.signals s.free) (c.flask / 16) c.net = false) :
    exec (.captureTaken near) s = .next s := by
  refine (exec_captureTaken_of_some h).trans (if_pos ?_)
  rcases hn with hn | hn
  · exact .inl hn
  · exact .inr (by rw [hn]; rfl)

theorem exec_captureTaken_of_edge (ht : c.t ≤ s.now (c.flask / 16))
    (hn : s.netComes s.free (s.signals s.free) (c.flask / 16) c.net = true) :
    exec (.captureTaken near) s =
      .next ((({ s with fab := { s.fab with capture := none } } : State).captureFlask c.flask near).put F.ftlRbcmd_busy [] 0) := by
  refine (exec_captureTaken_of_some h).trans (if_neg ?_)
  rintro (early | still)
  · exact Nat.not_lt.mpr ht early
  · rw [hn] at still
    exact Bool.false_ne_true still

end

/-- Settles O42, command by command (log entries 10, 15 and 84). -/
theorem flaskReadback : Obligations.FlaskReadback := by
  intro s src flask net k frame die near c own ok refused done
  have capture := fun {t : State} (hh : s.rbHolds src = true) (hq : s.regWaits .ftlRbcmd = false) =>
    next_rbWrite (t := t) hh hq (op := 1) (die := 0) (flask := flask) (arg := net) (by decide) (by decide) flask.isLt (by omega)
  have captureFrame := fun {t : State} (hh : s.rbHolds src = true) (hq : s.regWaits .ftlRbcmd = false) =>
    next_rbWrite (t := t) hh hq (op := 2) (die := 0) (flask := flask) (arg := k.toNat) (by decide) (by decide) flask.isLt k.isLt
  have frameRead := fun {t : State} (hh : s.rbHolds src = true) (hq : s.regWaits .ftlRbcmd = false) =>
    next_rbWrite (t := t) hh hq (op := 3) (die := die) (flask := 0) (arg := frame.toNat) (by decide) die.isLt (by decide) frame.isLt
  refine ⟨exec_readbackLockRead_of_not_taken, exec_readbackLockRead_of_taken, fun hq => next_regAct hq rfl ..,
    fun hh => ?unheld, fun hh hq hb => ?busy, fun hh hq hb => ⟨fun hr => ?reloading, fun hr => ?idle, fun hf => ?_, fun he hn => ?_,
      fun hf he hr => ?_⟩,
    fun hh hq hc hf => ?cancel, exec_captureTaken_of_none, fun h => ⟨exec_captureTaken_of_early h, exec_captureTaken_of_edge h⟩⟩
  case unheld =>
    exact ⟨next_rbWrite_of_not_holds hh _, next_rbWrite_of_not_holds hh _, next_rbWrite_of_not_holds hh _,
      next_rbWrite_of_not_holds hh _⟩
  case busy =>
    exact ⟨capture hh hq (State.rbCommand_of_busy (by decide) hb), captureFrame hh hq (State.rbCommand_of_busy (by decide) hb),
      frameRead hh hq (State.rbCommand_of_busy (by decide) hb)⟩
  case reloading =>
    exact ⟨capture hh hq (State.rbCommand_of_reloading hb (.inl rfl) hr),
      captureFrame hh hq (State.rbCommand_of_reloading hb (.inr rfl) hr)⟩
  case idle =>
    refine ⟨(capture hh hq (State.rbCommand_capture hb hr)).trans ?_,
      fun hk => captureFrame hh hq (State.rbCommand_captureFrame_of_beyond hb hk),
      fun hk => captureFrame hh hq (State.rbCommand_captureFrame hb hr hk)⟩
    rw [Nat.mod_eq_of_lt net.isLt]
  · exact frameRead hh hq (State.rbCommand_frame_of_beyond hb hf)
  · exact frameRead hh hq (State.rbCommand_frame_of_encrypted hb he hn)
  · exact frameRead hh hq (State.rbCommand_frame hb hf he hr)
  case cancel =>
    exact next_rbWrite hh hq (by decide) (by decide) flask.isLt (by decide) (State.rbCommand_cancel hc hf)

end Sys2Proof.Machine
end

section
/-!
PROOFS. The fettler's check of a frame, its requests and the repair of a frame (R323, R325 to R329; O43).
-/

namespace Sys2Proof.Machine

/-! ## What the log and the buckets leave of the fabric -/

section
variable (s : State)

theorem State.sendMsix_fab (v : Nat) : (s.sendMsix v).fab = s.fab := by
  unfold State.sendMsix
  split <;> rfl

theorem State.logEv_fab (site kind index event sev : Nat) (payload : List Byte) :
    (s.logEv site kind index event sev payload).fab = s.fab := by
  simp only [State.logEv]
  split <;> rfl

theorem State.interrupt_ecc_fab : (s.interrupt .ecc).fab = s.fab :=
  State.sendMsix_fab { s with plic := s.plic ||| BitVec.ofNat 512 (2 ^ Irq.ecc.plic) } _

theorem State.bucket_fab (b : Nat) (loc : List Byte) : (s.bucket b loc).fab = s.fab := by
  simp only [State.bucket]
  split
  · split
    · split <;> simp only [State.interrupt_ecc_fab, State.logEv_fab] <;> rfl
    · rfl
  · rfl

end

/-! ## FETTLER_FRAME_CHECK (R323, R325, R326) -/

section
variable {s : State} {d : Nat} {f : Nat}

theorem exec_fettlerFrameCheck_of_idle {d : Fin 4} (h : s.flag F.ftlStat_scanning [d.val] = false ∨ s.runs (20 + d.val) = false) :
    exec (.fettlerFrameCheck d none false none) s = .next s := by
  refine if_pos ?_
  rcases h with h | h <;> simp [h]

/-- The next frame of the scan is checked where it stands. -/
theorem exec_fettlerFrameCheck_of_scanning {d : Fin 4} {t : State} (hs : s.flag F.ftlStat_scanning [d.val] = true)
    (hr : s.runs (20 + d.val) = true) (ht : s.checkFrame d (SMap.get 0 s.fab.at_ d.val) false = t) :
    exec (.fettlerFrameCheck d none false none) s = .next (t.scanOn d (SMap.get 0 s.fab.at_ d.val)) := by
  subst ht
  exact if_neg (by simp [hs, hr])

theorem State.checkFrame_of_unchecked (h : s.checked d f = false) (misread : Bool) : s.checkFrame d f misread = s :=
  if_pos (by simp [h])

/-- What a frame whose CRC differs from its signature `v` comes to: it is noted, and queued unless it is to be skipped. -/
def State.mismatch (s : State) (d f v : Nat) : State :=
  let t := (s.raise F.ftlStat_mism [d]).noteFailing d f
  if t.fab.skip.contains (frameKey d f) then t else (t.ftlQueue d ⟨false, v / 2 ^ 32 % 2 ^ 14, f⟩).interrupt .fettler

section
variable (h : s.checked d f = true) {v : Nat}
include h

theorem not_unchecked : ¬ (!s.checked d f) = true := by simp [h]

theorem State.checkFrame_of_clean (hv : dec53 (s.sig d f) = .clean v) :
    s.checkFrame d f false = if (crc32 (s.frame d f)).toNat = v % 2 ^ 32 then s else s.mismatch d f v := by
  rw [State.checkFrame, if_neg (not_unchecked h), hv]
  rfl

/-- A corrected signature is counted and stored again; the frame agrees with it. -/
theorem State.checkFrame_of_fixed (hv : dec53 (s.sig d f) = .fixed v) (hc : (crc32 (s.frame d f)).toNat = v % 2 ^ 32) :
    s.checkFrame d f false = ((s.raise F.ftlStat_sigCe [d]).bucket (16 * d + 7)).setSig d f (enc53 v) := by
  have same : (((s.raise F.ftlStat_sigCe [d]).bucket (16 * d + 7)).setSig d f (enc53 v)).frame d f = s.frame d f := by
    change ((s.raise F.ftlStat_sigCe [d]).bucket (16 * d + 7)).frame d f = _
    rw [State.frame, State.bucket_fab]
    rfl
  rw [State.checkFrame, if_neg (not_unchecked h), hv]
  exact if_pos (by rw [same, hc])

/-- A signature beyond correction asks for a rebuild, and its frame is not queued again. -/
theorem State.checkFrame_of_bad (hv : dec53 (s.sig d f) = .bad v) (hk : s.fab.skip.contains (frameKey d f) = false)
    (hq : (SMap.get [] s.fab.requests d).length < 16) :
    s.checkFrame d f false = ((s.raise F.ftlStat_sigUe [d]).ftlQueue d ⟨true, v / 2 ^ 32 % 2 ^ 14, f⟩).ftlSkip d f := by
  rw [State.checkFrame, if_neg (not_unchecked h), hv]
  exact (if_neg (ne_true_of_eq_false hk)).trans (if_neg (Nat.not_le.mpr hq))

end

/-- A request has joined the queue of a die. -/
def State.requestQueued (s : State) (d : Nat) (r : FtlReq) : State :=
  ({ s with fab := { s.fab with requests := SMap.set [] s.fab.requests d (SMap.get [] s.fab.requests d ++ [r]) } } : State).put
    F.ftlStat_qlevel [d] ((SMap.get [] s.fab.requests d).length + 1)

theorem State.ftlQueue_of_full (h : 16 ≤ (SMap.get [] s.fab.requests d).length) (r : FtlReq) :
    s.ftlQueue d r = s.raise F.ftlStat_ovf [d] := if_pos h

theorem State.ftlQueue_of_room (h : (SMap.get [] s.fab.requests d).length < 16) (r : FtlReq) :
    s.ftlQueue d r = s.requestQueued d r := if_neg (Nat.not_le.mpr h)

theorem State.ftlSkip_of_new (h : s.fab.skip.contains (frameKey d f) = false) :
    s.ftlSkip d f = { s with fab := { s.fab with skip := frameKey d f :: s.fab.skip } } := if_neg (ne_true_of_eq_false h)

section
variable {v : Nat}

theorem State.mismatch_of_skipped (h : s.fab.skip.contains (frameKey d f) = true) :
    s.mismatch d f v = (s.raise F.ftlStat_mism [d]).noteFailing d f := if_pos h

theorem State.mismatch_of_new (h : s.fab.skip.contains (frameKey d f) = false) :
    s.mismatch d f v =
      (((s.raise F.ftlStat_mism [d]).noteFailing d f).ftlQueue d ⟨false, v / 2 ^ 32 % 2 ^ 14, f⟩).interrupt .fettler :=
  if_neg (ne_true_of_eq_false h)

end

end

/-! ## FETTLER_REQUEST_POP (R327) -/

section
variable {s : State} {src : Src} {d : Fin 4} {fl : Option (FlashRead × FlashRead)}

theorem exec_fettlerRequestPop_of_nil (h : SMap.get [] s.fab.requests d.val = []) :
    exec (.fettlerRequestPop src d fl) s = .next (s.answerWord src 0#32) := by
  change Host.Outcome.next ((s.ftlPop src d fl).2.answerWord src (s.ftlPop src d fl).1) = _
  rw [State.ftlPop, State.ftlReqWord, h]
  cases src.peeks <;> rfl

variable {r : FtlReq} {rest : List FtlReq} (h : SMap.get [] s.fab.requests d.val = r :: rest)
include h

theorem State.ftlPop_of_cons :
    let t := ({ s with fab := { s.fab with requests := SMap.set [] s.fab.requests d.val rest } } : State).put
      F.ftlStat_qlevel [d.val] rest.length
    s.ftlPop src d fl = (BitVec.ofNat 32 (2 ^ 31 + 2 ^ 30 * b2n r.rebuild + 2 ^ 16 * (r.chunk % 2 ^ 14) + r.frame),
      if src.peeks then s else if src.requester = 10 then t.prepareRepair d r fl else t) := by
  rw [State.ftlPop, State.ftlReqWord, h]
  cases src.peeks <;> rfl

end

/-! ## FTL_RCMD (R327 to R329) -/

theorem rcmdWord_fields {op : Nat} (die : Fin 4) (frame : BitVec 16) (ho : op < 8) :
    F.ftlRcmd_op.of (BitVec.ofNat 32 (2 ^ 29 * op + 2 ^ 24 * die.val + frame.toNat)) = op ∧
      F.ftlRcmd_die.of (BitVec.ofNat 32 (2 ^ 29 * op + 2 ^ 24 * die.val + frame.toNat)) = die.val ∧
      F.ftlRcmd_frame.of (BitVec.ofNat 32 (2 ^ 29 * op + 2 ^ 24 * die.val + frame.toNat)) = frame.toNat := by
  have hd := die.isLt
  have hf := frame.isLt
  simp only [Fld.of, wordField, bitsOf, F.ftlRcmd_op, F.ftlRcmd_die, F.ftlRcmd_frame, BitVec.toNat_ofNat, Nat.shiftRight_eq_div_pow]
  omega

theorem next_rcmdWrite {s t : State} {src : Src} {op : Nat} {die : Fin 4} {frame : BitVec 16} (hn : src.requester = 10)
    (hq : s.regWaits .ftlRcmd = false) (ho : op < 8) (ht : s.rcmd op die frame.toNat = t) :
    .next (s.rcmdWrite src (BitVec.ofNat 32 (2 ^ 29 * op + 2 ^ 24 * die.val + frame.toNat))) = (.next (t.answer src .ok) : Out) := by
  obtain ⟨eo, ed, ef⟩ := rcmdWord_fields die frame ho
  rw [State.rcmdWrite, if_pos hn]
  refine next_regAct hq ?_ ..
  rw [eo, ed, ef, ht]

section
variable {s : State} {op die frame : Nat}

theorem State.rcmd_of_busy (h : s.flag F.ftlRcmd_busy [] = true) : s.rcmd op die frame = s := if_pos (.inl h)

variable (hb : s.flag F.ftlRcmd_busy [] = false) (hop : op = 1 ∨ op = 2)
include hb hop

theorem not_rcmd_idle : ¬ (s.flag F.ftlRcmd_busy [] = true ∨ op = 0 ∨ 2 < op) := by
  rcases hop with rfl | rfl <;> simp [hb]

theorem State.rcmd_refused (h : 49152 ≤ frame ∨ s.runs (20 + die) = false) : s.rcmd op die frame = s.put F.ftlRcmd_res [] 1 := by
  refine (if_neg (not_rcmd_idle hb hop)).trans (if_pos ?_)
  rcases h with h | h <;> simp [h]

theorem State.rcmd_start (hf : frame < 49152) (hr : s.runs (20 + die) = true) :
    s.rcmd op die frame =
      (((s.put F.ftlRcmd_op [] op).put F.ftlRcmd_die [] die).put F.ftlRcmd_frame [] frame).raise F.ftlRcmd_busy [] :=
  (if_neg (not_rcmd_idle hb hop)).trans (if_neg (by simp [hf, hr]))

end

/-! ## FRAME_REWRITE_DONE (R328) -/

section
variable {s : State}

theorem exec_frameRewriteDone_of_idle (h : s.flag F.ftlRcmd_busy [] = false ∨ s.load.inChunk = true) :
    exec (.frameRewriteDone none) s = .next s := by
  refine if_pos ?_
  rcases h with h | h <;> simp [h]

/-- The frame holds FTL_RBUF's bytes, and the command has ended. -/
def State.rewritten (s : State) : State :=
  (s.setFrame (s.get F.ftlRcmd_die []) (s.get F.ftlRcmd_frame []) s.rbuf).put F.ftlRcmd_busy [] 0

/-- The chunk that the signature of the frame names. -/
def State.rewrittenChunk (s : State) : Nat :=
  (dec53 (s.rewritten.sig (s.get F.ftlRcmd_die []) (s.get F.ftlRcmd_frame []))).data / 2 ^ 32 % 2 ^ 14

/-- The frame is rewritten, with a new signature where the command asks for one, which names the same chunk. -/
def State.resigned (s : State) : State :=
  if s.rewritten.get F.ftlRcmd_op [] = 2 then
    s.rewritten.setSig (s.get F.ftlRcmd_die []) (s.get F.ftlRcmd_frame []) (enc53 ((crc32 s.rbuf).toNat + 2 ^ 32 * s.rewrittenChunk))
  else s.rewritten

/-- The place that the entry of a repair names. -/
def State.repairPlace (s : State) : List Byte :=
  leBytes 1 (s.get F.ftlRcmd_die []) ++ leBytes 2 (s.get F.ftlRcmd_frame []) ++ leBytes 2 s.rewrittenChunk

variable (hb : s.flag F.ftlRcmd_busy [] = true) (hi : s.load.inChunk = false)
include hb hi

theorem not_frameRewriteDone_idle : ¬ (!s.flag F.ftlRcmd_busy [] || s.load.inChunk) = true := by simp [hb, hi]

/-- What the readback of the frame comes to: the frame's fault is settled, or it is a hard error. -/
def State.judgeRepair (t : State) (d f : Nat) (place : List Byte) : Out :=
  if (crc32 (t.frame d f)).toNat = (dec53 (t.sig d f)).data % 2 ^ 32 then
    .next ((({ t with fab := { t.fab with skip := t.fab.skip.filter (fun (x : Nat) => x != frameKey d f) } } : State).put
      F.ftlRcmd_res [] 0).logEv d 4 0 0x0404 1 place)
  else
    .next (((((t.put F.ftlRcmd_res [] 2).raise F.ftlStat_hard [d]).noteFailing d f).logEv d 4 0 0x0405 4 place).ftlSkip d f)

theorem exec_frameRewriteDone_of_busy :
    exec (.frameRewriteDone none) s =
      s.resigned.judgeRepair (s.get F.ftlRcmd_die []) (s.get F.ftlRcmd_frame []) s.repairPlace := by
  change execFrameRewriteDone none s = _
  rw [execFrameRewriteDone, if_neg (not_frameRewriteDone_idle hb hi)]
  dsimp only [Option.getD_none]
  rfl

end

/-- Settles O43, command by command (log entry 42 for the frames that are checked and skipped, 43 for the pop that prepares a repair). -/
theorem fettlerRepair : Obligations.FettlerRepair := by
  intro s src d frame fl r rest v f crc check q queue
  refine ⟨exec_fettlerFrameCheck_of_idle, fun hs hr => ⟨fun h => ?unchecked, fun h => ⟨fun hv => ?clean, fun hv hc => ?fixed,
      fun hv hk hq => ?bad⟩⟩,
    exec_fettlerRequestPop_of_nil, fun h => ?pop, fun hn => ?other, fun hn hq hb => ?busy,
    fun hn hq hb => ⟨fun hf => ?refused, fun hf hr => ?start⟩, exec_frameRewriteDone_of_idle,
    fun hb hi => ?rewritten⟩
  case unchecked => exact exec_fettlerFrameCheck_of_scanning hs hr (State.checkFrame_of_unchecked h false)
  case clean =>
    have judged := State.checkFrame_of_clean h hv
    refine ⟨fun hc => exec_fettlerFrameCheck_of_scanning hs hr (judged.trans (if_pos hc)), fun hc => ?_⟩
    have noted := judged.trans (if_neg hc)
    refine ⟨fun hk => exec_fettlerFrameCheck_of_scanning hs hr (noted.trans (State.mismatch_of_skipped hk)),
      fun hk => ⟨fun hl => ?_, fun hl => ?_⟩⟩ <;>
      refine exec_fettlerFrameCheck_of_scanning hs hr ((noted.trans (State.mismatch_of_new hk)).trans ?_)
    · rw [State.ftlQueue_of_full hl]
    · have room : (SMap.get [] ((s.raise F.ftlStat_mism [d.val]).noteFailing d f).fab.requests d.val).length < 16 := hl
      rw [State.ftlQueue_of_room room]
      rfl
  case fixed => exact exec_fettlerFrameCheck_of_scanning hs hr (State.checkFrame_of_fixed h hv hc)
  case bad =>
    refine exec_fettlerFrameCheck_of_scanning hs hr ((State.checkFrame_of_bad h hv hk hq).trans ?_)
    have room : (SMap.get [] (s.raise F.ftlStat_sigUe [d.val]).fab.requests d.val).length < 16 := hq
    rw [State.ftlQueue_of_room room]
    exact State.ftlSkip_of_new hk
  case pop =>
    intro w requests s1
    have popped : exec (.fettlerRequestPop src d fl) s =
        .next ((if src.peeks then s else if src.requester = 10 then s1.prepareRepair d r fl else s1 : State).answerWord src w) :=
      congrArg (fun p : Word32 × State => Host.Outcome.next (p.2.answerWord src p.1)) (State.ftlPop_of_cons h)
    refine ⟨fun hp => ?_, fun hp hn => ?_, fun hp hn => ?_⟩
    · rw [popped, if_pos hp]
    · rw [popped, if_neg (ne_true_of_eq_false hp), if_neg hn]
    · rw [popped, if_neg (ne_true_of_eq_false hp), if_pos hn]
  case other => exact ⟨congrArg _ (if_neg hn), congrArg _ (if_neg hn)⟩
  case busy =>
    exact ⟨next_rcmdWrite (op := 1) hn hq (by decide) (State.rcmd_of_busy hb),
      next_rcmdWrite (op := 2) hn hq (by decide) (State.rcmd_of_busy hb)⟩
  case refused =>
    exact ⟨next_rcmdWrite (op := 1) hn hq (by decide) (State.rcmd_refused hb (.inl rfl) hf),
      next_rcmdWrite (op := 2) hn hq (by decide) (State.rcmd_refused hb (.inr rfl) hf)⟩
  case start =>
    exact ⟨next_rcmdWrite (op := 1) hn hq (by decide) (State.rcmd_start hb (.inl rfl) hf hr),
      next_rcmdWrite (op := 2) hn hq (by decide) (State.rcmd_start hb (.inr rfl) hf hr)⟩
  case rewritten =>
    intro e g bytes s1 chunk s2 loc
    have rewritten : s.rewritten = s1 := rfl
    have named : s.rewrittenChunk = chunk := by rw [State.rewrittenChunk, rewritten]
    have new : s.resigned = s2 := by rw [State.resigned, rewritten, named]; rfl
    have place : s.repairPlace = loc := by rw [State.repairPlace, named]
    have judged := exec_frameRewriteDone_of_busy hb hi
    rw [new, place] at judged
    exact ⟨fun h => judged.trans (if_pos h), fun h => judged.trans (if_neg h)⟩

end Sys2Proof.Machine
end

section
/-!
PROOFS. A firmware set: staging, activation, trial, confirmation, discard and reversion (R467, R502 to R511; O44).
-/

namespace Sys2Proof.Machine

/-! ## UPD_CMD (R502) -/

section
variable {s t : State} {src : Src} {b : Bool} (hq : s.regWaits .updCmd = false)
include hq

section
variable (hm : mayWrite .updCmd src = true)
include hm

theorem exec_checkAndStage_of_listed (ht : s.checkAndStage = t) : exec (.checkAndStage src) s = .next (t.answer src .ok) :=
  next_command hm hq ht [] _

theorem exec_activate_of_listed (ht : s.activate = t) : exec (.activate src) s = .next (t.answer src .ok) :=
  next_command hm hq ht [] _

theorem exec_discardStagedSet_of_listed (ht : s.discard = t) : exec (.discardStagedSet src) s = .next (t.answer src .ok) :=
  next_command hm hq ht [] _

end

theorem exec_confirm_of_mc (hn : src.requester = 10) (ht : s.confirm b = t) :
    exec (.confirm src b) s = .next (t.answer src .ok) := by
  change Host.Outcome.next (ite _ _ _) = _
  rw [if_pos hn]
  exact next_regAct hq ht [] _

end

/-! ## CHECK_AND_STAGE (R502 to R504) -/

section
variable {s s1 : State} {m : List Byte}

theorem not_mcRuns_or_mcHalted (h : s.pwr.mcRuns = true ∧ s.pwr.mcHalted = false) : ¬ (!s.pwr.mcRuns || s.pwr.mcHalted) = true := by
  simp [h]

theorem mcRuns_or_mcHalted (h : ¬ (s.pwr.mcRuns = true ∧ s.pwr.mcHalted = false)) : (!s.pwr.mcRuns || s.pwr.mcHalted) = true := by
  cases hr : s.pwr.mcRuns <;> simp_all

/-- Where UPD_BUF points. -/
def State.updBuf (s : State) : Nat := s.get F.updBufLo_addr [] * 512 + 2 ^ 32 * s.get F.updBufHi_addr []

theorem State.checkAndStage_of_under_way (h1 : 1 ≤ s.get F.updStat_state []) (h4 : s.get F.updStat_state [] ≤ 4) :
    s.checkAndStage = s.raise F.updStat_cmdErr [] := if_pos ⟨h1, h4⟩

variable (hs : s.get F.updStat_state [] = 0 ∨ 5 ≤ s.get F.updStat_state [])
include hs

theorem not_under_way : ¬ (1 ≤ s.get F.updStat_state [] ∧ s.get F.updStat_state [] ≤ 4) := by omega

theorem State.checkAndStage_of_mc_stands (h : ¬ (s.pwr.mcRuns = true ∧ s.pwr.mcHalted = false)) : s.checkAndStage = s :=
  (if_neg (not_under_way hs)).trans (if_pos (mcRuns_or_mcHalted h))

variable (hmc : s.pwr.mcRuns = true ∧ s.pwr.mcHalted = false)
include hmc

theorem State.checkAndStage_of_unreadable (hr : memRead 8 s.updBuf s = (none, s1)) : s.checkAndStage = s1.updRefuse [] 1 0 := by
  rw [State.updBuf] at hr
  rw [State.checkAndStage, if_neg (not_under_way hs), if_neg (not_mcRuns_or_mcHalted hmc)]
  dsimp only
  rw [hr]

variable (hr : memRead 8 s.updBuf s = (some m, s1))
include hr

theorem State.checkAndStage_of_refused (he : s1.manifestError m ≠ 0) :
    s.checkAndStage = s1.updRefuse m (s1.manifestError m) 0 := by
  rw [State.updBuf] at hr
  rw [State.checkAndStage, if_neg (not_under_way hs), if_neg (not_mcRuns_or_mcHalted hmc)]
  dsimp only
  rw [hr]
  exact if_pos he

/-- A manifest that changes no component is staged as it is: there is nothing to read or to write. -/
theorem State.checkAndStage_of_unchanged (he : s1.manifestError m = 0) (hc : s1.changedEntries m = []) :
    let u : UpdSt := { s1.upd with staged := m, changed := [], newDir := s1.newEntries m [], newBoard := s1.upd.board }
    s.checkAndStage = ({ s1 with upd := u } : State).put F.updStat_state [] 2 := by
  rw [State.updBuf] at hr
  rw [State.checkAndStage, if_neg (not_under_way hs), if_neg (not_mcRuns_or_mcHalted hmc)]
  dsimp only
  rw [hr]
  dsimp only
  rw [if_neg (not_not.mpr he), hc]
  rfl

end

/-! ## ACTIVATE (R506, R508) -/

section
variable {s : State} {c : Commit}

/-- The trial record of the staged set. -/
def State.trialRecord (s : State) (c : Commit) : Commit :=
  { seq := 0, state := 1,
    slots := c.slots ^^^ (s.upd.changed.filter (fun k => decide (1 ≤ k ∧ k ≤ 4))).foldl (fun n k => n + 2 ^ (k - 1)) 0,
    prevSlots := c.slots, heat := max c.heat (heatOf s.upd.staged), dir := s.upd.newDir, prevDir := c.dir,
    manifest := s.upd.staged, prevManifest := c.manifest }

theorem State.activate_of_unstaged (h : s.get F.updStat_state [] ≠ 3) : s.activate = s.raise F.updStat_cmdErr [] := if_pos h

variable (h : s.get F.updStat_state [] = 3)
include h

theorem State.activate_of_mc_stands (hmc : ¬ (s.pwr.mcRuns = true ∧ s.pwr.mcHalted = false)) : s.activate = s :=
  (if_neg (not_not.mpr h)).trans (if_pos (mcRuns_or_mcHalted hmc))

/-- A set that leaves the MC's own firmware as it is goes on trial without a restart. -/
theorem State.activate_of_staged (hmc : s.pwr.mcRuns = true ∧ s.pwr.mcHalted = false) (hc : s.upd.commit = some c)
    (hk : s.upd.changed.contains 1 = false) :
    let u := (s.writeCommit (s.trialRecord c)).writeDirectory s.upd.newDir
    s.activate =
      (({ u with upd := { u.upd with trialLeft := 60000000000, board := s.upd.newBoard } } : State).put F.updStat_state [] 4).updLog
        0x0B02 0 (leBytes 4 (heatOf s.upd.staged) ++ leBytes 4 (s.upd.changed.foldl (fun n k => n + 2 ^ k) 0)) := by
  rw [State.activate, if_neg (not_not.mpr h), if_neg (not_mcRuns_or_mcHalted hmc), hc]
  exact if_neg (ne_true_of_eq_false hk)

end

/-! ## CONFIRM (R509, R511) -/

section
variable {s : State} {c : Commit}

theorem State.logEv_upd (site kind index event sev : Nat) (payload : List Byte) :
    (s.logEv site kind index event sev payload).upd = s.upd := by
  simp only [State.logEv]
  split <;> rfl

theorem State.updLog_upd (event sev : Nat) (payload : List Byte) : (s.updLog event sev payload).upd = s.upd := State.logEv_upd ..

theorem State.fuseLog_upd (op index : Nat) : (s.fuseLog op index).upd = s.upd := State.updLog_upd ..

theorem State.blowSvn_upd (m : List Byte) (fuse : Nat) : (s.blowSvn m fuse).upd = s.upd :=
  List.foldlRecOn (motive := fun u : State => u.upd = s.upd) _ _ rfl fun u hu e _ => by
    dsimp only
    split
    · exact hu
    · exact (State.fuseLog_upd ..).trans hu

theorem State.confirm_of_not_trial {b : Bool} (h : s.get F.updStat_state [] ≠ 4 ∨ b = false) :
    s.confirm b = s.raise F.updStat_cmdErr [] :=
  if_pos (h.imp_right fun hb => by simp [hb])

theorem State.confirm_upd (h : s.get F.updStat_state [] = 4) (hc : s.upd.commit = some c) :
    (s.confirm true).upd = { (s.writeCommit { c with state := 2 }).upd with trialLeft := 0, staged := [], changed := [] } := by
  rw [State.confirm, if_neg (by simp [h]), hc]
  dsimp only
  split <;> simp only [State.updLog_upd, State.otpRegs, State.put_upd, State.fuseLog_upd, State.blowSvn_upd] <;> rfl

end

/-! ## DISCARD_STAGED_SET, STAGING_COMPLETE, TRIAL_TIMER_EXPIRY, MC_RESTART (R467, R504, R510) -/

section
variable {s : State} {b : Bool}

theorem State.discard_of_staged (h : s.get F.updStat_state [] = 3) :
    s.discard = ({ s with upd := { s.upd with staged := [], changed := [] } } : State).put F.updStat_state [] 0 := by
  rw [State.discard, h]
  rfl

theorem State.discard_of_none_staged (h : s.get F.updStat_state [] = 0 ∨ s.get F.updStat_state [] = 5) : s.discard = s := by
  rcases h with h | h <;> rw [State.discard, h] <;> rfl

theorem State.discard_of_under_way (h : s.get F.updStat_state [] ∉ [0, 3, 5]) : s.discard = s.raise F.updStat_cmdErr [] := by
  rw [State.discard]
  split
  case h_1 e => simp [e] at h
  case h_2 e => simp [e] at h
  case h_3 e => simp [e] at h
  case h_4 => rfl

theorem exec_stagingComplete_of_not_staging (h : s.get F.updStat_state [] ≠ 2) : exec (.stagingComplete b) s = .next s := if_pos h

theorem exec_stagingComplete_of_ok (h : s.get F.updStat_state [] = 2) :
    exec (.stagingComplete true) s = .next (s.put F.updStat_state [] 3) := if_neg (not_not.mpr h)

theorem exec_stagingComplete_of_failed (h : s.get F.updStat_state [] = 2) :
    exec (.stagingComplete false) s = .next (s.updFail 0xA) := if_neg (not_not.mpr h)

theorem exec_trialTimerExpiry_of_running (h : s.get F.updStat_state [] ≠ 4 ∨ s.upd.trialLeft ≠ 0) :
    exec .trialTimerExpiry s = .next s := if_neg (by omega)

theorem exec_trialTimerExpiry_of_ended (h : s.get F.updStat_state [] = 4) (hl : s.upd.trialLeft = 0) :
    exec .trialTimerExpiry s = .next (s.revertSet 0) := if_pos ⟨h, hl⟩

theorem State.revertSet_of_commit {c : Commit} (h : s.upd.commit = some c) (cause : Nat) :
    let u := (s.writeCommit { c with state := 3, slots := c.prevSlots, dir := c.prevDir, manifest := c.prevManifest }).writeDirectory
      c.prevDir
    let u1 := ({ u with upd := { u.upd with trialLeft := 0, staged := [], changed := [] } } : State)
    s.revertSet cause = (((u1.put F.updStat_err [] 0xB).put F.updStat_state [] 0).bootMc).updLog 0x0B04 4
      (leBytes 4 (heatOf c.manifest) ++ leBytes 1 cause) := by
  rw [State.revertSet, h]

theorem exec_mcRestart_of_heldOff (h : s.clk.phase = .heldOff) : exec (.mcRestart b) s = .next s := if_pos h

theorem exec_mcRestart_of_powered (h : s.clk.phase ≠ .heldOff) :
    let u := ((s.raise F.pwrStat_mcRestart []).powerLog 0x0907 2 (leBytes 1 (b2n b))).bootMc
    exec (.mcRestart b) s = .next (if u.get F.updStat_state [] = 4 then u.revertSet 1 else u) := if_neg h

end

/-- Settles O44, command by command and by the state of the update (log entry 15 for the commands in other states, 83 for the board
record that ACTIVATE puts in force). -/
theorem setUpdate : Obligations.SetUpdate := by
  intro s s1 src b m c st ok fail mcAble buf live
  refine ⟨fun hm => ⟨?notListedStage, ?notListedActivate, ?notListedDiscard⟩, fun hn => congrArg _ (if_neg hn),
    fun hm hq => ⟨fun h1 h4 => exec_checkAndStage_of_listed hq hm (State.checkAndStage_of_under_way h1 h4),
      fun hs hmc => exec_checkAndStage_of_listed hq hm (State.checkAndStage_of_mc_stands hs hmc),
      fun h hmc => exec_activate_of_listed hq hm (State.activate_of_mc_stands h hmc),
      fun hs hmc => ⟨fun hr => exec_checkAndStage_of_listed hq hm (State.checkAndStage_of_unreadable hs hmc hr),
        fun hr he => exec_checkAndStage_of_listed hq hm (State.checkAndStage_of_refused hs hmc hr he),
        fun hr he hc => exec_checkAndStage_of_listed hq hm (State.checkAndStage_of_unchanged hs hmc hr he hc)⟩,
      fun h => exec_activate_of_listed hq hm (State.activate_of_unstaged h),
      fun h hmc hc hk => exec_activate_of_listed hq hm (State.activate_of_staged h hmc hc hk),
      fun h => exec_discardStagedSet_of_listed hq hm (State.discard_of_staged h),
      fun h => exec_discardStagedSet_of_listed hq hm (State.discard_of_none_staged h),
      fun h => exec_discardStagedSet_of_listed hq hm (State.discard_of_under_way h)⟩,
    fun hn hq => ⟨fun h => exec_confirm_of_mc hq hn (State.confirm_of_not_trial h), ?confirm, ?confirmed⟩,
    exec_stagingComplete_of_not_staging, fun h => ⟨exec_stagingComplete_of_ok h, exec_stagingComplete_of_failed h⟩,
    exec_trialTimerExpiry_of_running, exec_trialTimerExpiry_of_ended, fun h => State.revertSet_of_commit h 0,
    exec_mcRestart_of_heldOff, exec_mcRestart_of_powered⟩
  case notListedStage => exact next_command_of_not_listed hm [] _ _
  case notListedActivate => exact next_command_of_not_listed hm [] _ _
  case notListedDiscard => exact next_command_of_not_listed hm [] _ _
  case confirm =>
    intro _ hb
    subst hb
    exact exec_confirm_of_mc hq hn rfl
  case confirmed =>
    intro h hc
    rw [State.confirm_upd h hc, State.writeCommit, hc]
    exact ⟨rfl, rfl, rfl⟩

end Sys2Proof.Machine
end

section
/-!
PROOFS. What MC firmware answers: owner requests, key writes, reports, the certificate chain, the nonce (R512 to R518; O45).
-/

namespace Sys2Proof.Machine

/-! ## Whether a service has a message (R512) -/

section
variable {s : State} {c : Fin 9} {w : Nat}

theorem not_service_of_not_serves (h : s.mcServes c = false) : (!s.mcServes c || s.mbxWord c 0 != w) = true := by simp [h]

theorem service (h : s.mcServes c = true) (hw : s.mbxWord c 0 = w) : ¬ (!s.mcServes c || s.mbxWord c 0 != w) = true := by
  simp [h, hw]

end

/-! ## Owner requests (R514) -/

section
variable {s s1 : State} {c : Fin 9} {b : List Byte}

theorem State.serveOwner_of_not_serves (h : s.mcServes c = false) (p : Nat → Bool) : s.serveOwner c p = s :=
  if_pos (not_service_of_not_serves h)

/-- A request whose operation is the service's own is judged and answered. -/
theorem State.serveOwner_of_asked {p : Nat → Bool} (h : s.mcServes c = true) (hw : s.mbxWord c 0 = 0x40002)
    (hr : memRead 3 (s.mbxPair c 1) s = (some b, s1)) (hp : p (fieldAt b 0 1) = true) :
    s.serveOwner c p = (s1.ownerRequest b).2.mbxReply c 8 [(s1.ownerRequest b).1] := by
  rw [State.serveOwner, if_neg (service h hw), hr]
  exact if_pos hp

theorem State.ownerRequest_of_no_nonce (h : s.upd.nonce = none) : s.ownerRequest b = (5, s) := by
  rw [State.ownerRequest, h]
  exact if_pos (by simp)

variable {i k : Nat} {g : BitVec 256}

theorem State.ownerApply_program (hi : i < 4) (h : SMap.find? s.otp.ownerKeys i = none) :
    s.ownerApply 1 i k g = some { s with otp := { s.otp with ownerKeys := SMap.insert s.otp.ownerKeys i g } } :=
  if_pos ⟨hi, by rw [h]; rfl⟩

theorem State.ownerApply_program_refused (h : 4 ≤ i ∨ (SMap.find? s.otp.ownerKeys i).isSome = true) :
    s.ownerApply 1 i k g = none := by
  refine if_neg ?_
  rintro ⟨hi, free⟩
  rcases h with h | h
  · omega
  · simp [Option.isNone_iff_eq_none.mp free] at h

/-- A key does not revoke itself. -/
theorem State.ownerApply_revoke_self (h : i = k) : s.ownerApply 2 i k g = none := if_neg (by simp [h])

theorem State.ownerApply_hlDis_again (h : s.otp.hlDis = true) : s.ownerApply 3 i k g = none := if_pos h

theorem State.ownerApply_revoke_image (h1 : 1 ≤ i) (h4 : i ≤ 4) (h : s.otp.imageRev.getLsbD (i - 1) = false) :
    s.ownerApply 4 i k g = some { s with otp := { s.otp with imageRev := s.otp.imageRev ||| BitVec.ofNat 4 (2 ^ (i - 1)) } } :=
  if_pos ⟨h1, h4, by simp [h]⟩

theorem State.ownerApply_revoke_legacy (hi : i < 2) (h : s.otp.legacyRev.getLsbD i = false) :
    s.ownerApply 5 i k g = some { s with otp := { s.otp with legacyRev := s.otp.legacyRev ||| BitVec.ofNat 2 (2 ^ i) } } :=
  if_pos ⟨hi, by simp [h]⟩

end

/-! ## KEY_WRITE (R515) -/

section
variable {s : State} {c : Fin 9}

theorem exec_keyWrite_of_not_serves (h : s.mcServes c = false) : exec (.keyWrite c) s = .next s := if_pos (by simp [h])

/-- A slot for an image key that is neither written nor revoked. -/
def State.freeImageSlot (s : State) (i : Nat) : Prop :=
  1 ≤ i ∧ i ≤ 4 ∧ SMap.find? s.otp.imageKeys i = none ∧ s.otp.imageRev.getLsbD (i - 1) = false

/-- A slot for a legacy key that is neither written nor revoked. -/
def State.freeLegacySlot (s : State) (i : Nat) : Prop :=
  16 ≤ i ∧ i ≤ 17 ∧ SMap.find? s.otp.legacyKeys (i - 16) = none ∧ s.otp.legacyRev.getLsbD (i - 16) = false

theorem State.freeImageSlot_iff {i : Nat} : (1 ≤ i ∧ i ≤ 4 ∧ (SMap.find? s.otp.imageKeys i).isNone = true ∧
    (!s.otp.imageRev.getLsbD (i - 1)) = true) ↔ s.freeImageSlot i := by
  simp only [State.freeImageSlot, Option.isNone_iff_eq_none, Bool.not_eq_true']

theorem State.freeLegacySlot_iff {i : Nat} : (0x10 ≤ i ∧ i ≤ 0x11 ∧ (SMap.find? s.otp.legacyKeys (i - 0x10)).isNone = true ∧
    (!s.otp.legacyRev.getLsbD (i - 0x10)) = true) ↔ s.freeLegacySlot i := by
  simp only [State.freeLegacySlot, Option.isNone_iff_eq_none, Bool.not_eq_true']

theorem State.freeLegacySlot.not_image {i : Nat} (h : s.freeLegacySlot i) : ¬ s.freeImageSlot i := by
  obtain ⟨h16, -⟩ := h
  rintro ⟨-, h4, -⟩
  omega

/-- The fuses `o` are blown for the slot of the message, logged, and the message is answered. -/
def State.keyWritten (s : State) (c : Nat) (o : Otp) : State :=
  ((({ s with free := s.free + 1, otp := o } : State).otpRegs).fuseLog (Config.freeValue 8 s.free).toNat (s.mbxWord c 1)).mbxReply c 8 [0]

/-- The key that the message brings. -/
def State.writtenKey (s : State) (c : Nat) : BitVec 256 := BitVec.ofNat 256 (beNat (s.mbxBytes c 2 8))

section
variable (h : s.mcServes c = true) (hw : s.mbxWord c 0 = 0x50001) (hc : c = 0)
include h hw hc

theorem keyWrite_service : ¬ (!s.mcServes c || s.mbxWord c 0 != 0x50001 || c != 0) = true := by
  have here : (c != 0) = false := by simp [hc]
  rw [here, Bool.or_false]
  exact service h hw

theorem exec_keyWrite_of_image (hi : s.freeImageSlot (s.mbxWord c 1)) :
    exec (.keyWrite c) s =
      .next (s.keyWritten c { s.otp with imageKeys := SMap.insert s.otp.imageKeys (s.mbxWord c 1) (s.writtenKey c) }) :=
  (if_neg (keyWrite_service h hw hc)).trans (if_pos (State.freeImageSlot_iff.mpr hi))

theorem exec_keyWrite_of_legacy (hi : s.freeLegacySlot (s.mbxWord c 1)) :
    exec (.keyWrite c) s =
      .next (s.keyWritten c { s.otp with legacyKeys := SMap.insert s.otp.legacyKeys (s.mbxWord c 1 - 16) (s.writtenKey c) }) :=
  (if_neg (keyWrite_service h hw hc)).trans
    ((if_neg (hi.not_image ∘ State.freeImageSlot_iff.mp)).trans (if_pos (State.freeLegacySlot_iff.mpr hi)))

theorem exec_keyWrite_of_refused (hi : ¬ s.freeImageSlot (s.mbxWord c 1)) (hl : ¬ s.freeLegacySlot (s.mbxWord c 1)) :
    exec (.keyWrite c) s = .next (({ s with free := s.free + 1 } : State).mbxReply c 8 [5]) :=
  (if_neg (keyWrite_service h hw hc)).trans
    ((if_neg (hi ∘ State.freeImageSlot_iff.mp)).trans (if_neg (hl ∘ State.freeLegacySlot_iff.mp)))

end

end

/-! ## ATTESTATION, CERTIFICATE_CHAIN, DEVICE_NONCE (R514, R517, R518) -/

section
variable {s : State} {c : Nat} {doc : List Byte} {addr size : Nat}

theorem State.deliver_of_busy : s.deliver c true doc addr size = s.mbxReply c 8 [2, doc.length] := rfl

theorem State.deliver_of_too_small (h : size < doc.length) : s.deliver c false doc addr size = s.mbxReply c 8 [3, doc.length] :=
  if_pos h

theorem State.deliver_of_room (h : doc.length ≤ size) :
    s.deliver c false doc addr size =
      (memWrite (doc.length + 1) addr doc s).2.mbxReply c 8 [if (memWrite (doc.length + 1) addr doc s).1 then 0 else 4, doc.length] :=
  if_neg (Nat.not_lt.mpr h)

end

section
variable {s : State} {c : Fin 9} {busy : Bool}

theorem exec_attestation_of_not_serves (h : s.mcServes c = false) : exec (.attestation c busy) s = .next s :=
  if_pos (not_service_of_not_serves h)

theorem exec_certificateChain_of_not_serves (h : s.mcServes c = false) : exec (.certificateChain c busy) s = .next s :=
  if_pos (not_service_of_not_serves h)

theorem exec_deviceNonce_of_not_serves (h : s.mcServes c = false) : exec (.deviceNonce c) s = .next s :=
  if_pos (not_service_of_not_serves h)

variable (h : s.mcServes c = true)
include h

theorem exec_attestation_of_asked (hw : s.mbxWord c 0 = 0x20001) :
    let u := ({ s with free := s.free + 1 } : State)
    exec (.attestation c busy) s =
      .next (u.deliver c busy (u.report (u.mbxBytes c 1 8) s.free) (u.mbxPair c 9) (u.mbxWord c 11)) := if_neg (service h hw)

theorem exec_certificateChain_of_asked (hw : s.mbxWord c 0 = 0x30001) :
    exec (.certificateChain c busy) s =
      .next (s.deliver c busy Config.certificateChain (s.mbxPair c 1) (s.mbxWord c 3)) := if_neg (service h hw)

theorem exec_deviceNonce_of_asked (hw : s.mbxWord c 0 = 0x40001) :
    let v := Config.random s.free
    let u := ({ s with free := s.free + 1, upd := { s.upd with nonce := some v } } : State)
    exec (.deviceNonce c) s =
      .next (u.mbxReply c 10 ([0, u.mbxWord c 1] ++ (List.range 8).map (fun j => bitsOf v.toNat (32 * j + 31) (32 * j)))) :=
  if_neg (service h hw)

end

/-- Settles O45, service by service (log entry 109 for the owner's public key, 77 for the answer in one command, 10 for the free
bytes). -/
theorem ownerAndAttestation : Obligations.OwnerAndAttestation := by
  intro s s1 c busy b i k g served what owner asked reply key slot u fuse
  refine ⟨fun h => ⟨fun x hx => ?owner, exec_keyWrite_of_not_serves h, exec_attestation_of_not_serves h,
      exec_certificateChain_of_not_serves h, exec_deviceNonce_of_not_serves h⟩,
    fun h hw hr => ?asked, State.ownerRequest_of_no_nonce, State.ownerApply_program, State.ownerApply_program_refused,
    State.ownerApply_revoke_self, State.ownerApply_hlDis_again, State.ownerApply_revoke_image, State.ownerApply_revoke_legacy,
    fun h hw hc => ⟨fun h1 h4 hk hv => exec_keyWrite_of_image h hw hc ⟨h1, h4, hk, hv⟩,
      fun h1 h4 hk hv => exec_keyWrite_of_legacy h hw hc ⟨h1, h4, hk, hv⟩, exec_keyWrite_of_refused h hw hc⟩,
    exec_attestation_of_asked, fun h hw => ⟨exec_certificateChain_of_asked h hw, fun hl => ?small, fun hl => ?room⟩,
    exec_deviceNonce_of_asked⟩
  case owner =>
    have kept (p : Nat → Bool) : Host.Outcome.next (s.serveOwner c p) = (.next s : Out) :=
      congrArg _ (State.serveOwner_of_not_serves h p)
    simp only [owner, List.mem_cons, List.not_mem_nil, or_false] at hx
    rcases hx with rfl | rfl | rfl | rfl | rfl <;> exact kept _
  case asked =>
    have answered {p : Nat → Bool} (hp : p (fieldAt b 0 1) = true) : Host.Outcome.next (s.serveOwner c p) = reply :=
      congrArg _ (State.serveOwner_of_asked h hw hr hp)
    refine ⟨fun hn => answered ?_, fun hn => answered (beq_iff_eq.mpr hn), fun hn => answered (beq_iff_eq.mpr hn),
      fun hn => answered (beq_iff_eq.mpr hn), fun hn => answered (beq_iff_eq.mpr hn)⟩
    simp only [List.mem_cons, List.not_mem_nil, or_false] at hn
    simp
    omega
  case small => exact (exec_certificateChain_of_asked h hw).trans (congrArg _ (State.deliver_of_too_small hl))
  case room => exact (exec_certificateChain_of_asked h hw).trans (congrArg _ (State.deliver_of_room hl))

end Sys2Proof.Machine
end

section
/-!
PROOFS. Reset and boot of a core, its secure state, its watchdog, the page operations (R522 to R530, R537; O46).
-/

namespace Sys2Proof.Machine

/-! ## CORE_BOOT (R525, R526, R537) -/

section
variable {s s1 : State} {i : Fin 4} {img : List Byte} {u : MemUnit} {n : Nat}

/-- Whether the memory that CC_BOOT names takes commands. -/
def State.bootTrained (s : State) : Bool :=
  match s.dramGate s.bootAddr with
  | .go _ => true
  | _ => false

theorem State.bootTrained_of_go (h : s.dramGate s.bootAddr = .go u) : s.bootTrained = true := by rw [State.bootTrained, h]

theorem State.bootTrained_of_not_go (h : ∀ v, s.dramGate s.bootAddr ≠ .go v) : s.bootTrained = false := by
  rw [State.bootTrained]
  split
  case h_1 v e => exact absurd e (h v)
  case h_2 => rfl

/-- Whether a core takes part in no boot. -/
def State.bootIdle (s : State) (i : Fin 4) : Bool :=
  s.flag F.ccCoreCtrl_rst [i] || s.flag F.ccCoreCtrl_running [i] || (s.coreOf i).boot != 0 || !s.clocked || !s.bootTrained

theorem exec_coreBoot_of_idle (h : s.bootIdle i = true) : exec (.coreBoot i img) s = .next s := if_pos h

theorem exec_coreBoot_of_out_of_reset
    (h : s.flag F.ccCoreCtrl_rst [i.val] = true ∨ s.flag F.ccCoreCtrl_running [i.val] = true ∨ (s.coreOf i.val).boot ≠ 0 ∨
      s.clocked = false) : exec (.coreBoot i img) s = .next s := by
  refine exec_coreBoot_of_idle ?_
  rw [State.bootIdle]
  rcases h with h | h | h | h <;> simp [h]

theorem State.bootIdle_of_untrained (h : ∀ v, s.dramGate s.bootAddr ≠ .go v) : s.bootIdle i = true := by
  rw [State.bootIdle, State.bootTrained_of_not_go h, Bool.not_false, Bool.or_true]

/-- A halted MC serves no boot, whatever state the core is in. -/
theorem exec_coreBoot_of_mc_halted (h : s.pwr.mcRuns = true) (hh : s.pwr.mcHalted = true) : exec (.coreBoot i img) s = .next s := by
  cases hb : s.bootIdle i
  · exact (if_neg (ne_true_of_eq_false hb)).trans ((if_neg (by simp [h])).trans (if_pos hh))
  · exact exec_coreBoot_of_idle hb

section
variable (hr : s.flag F.ccCoreCtrl_rst [i.val] = false) (hn : s.flag F.ccCoreCtrl_running [i.val] = false)
  (hb : (s.coreOf i.val).boot = 0) (hc : s.clocked = true) (hg : s.dramGate s.bootAddr = .go u)
include hr hn hb hc hg

theorem not_bootIdle : ¬ s.bootIdle i = true := by simp [State.bootIdle, hr, hn, hb, hc, State.bootTrained_of_go hg]

theorem exec_coreBoot_of_no_mc (h : s.pwr.mcRuns = false) :
    exec (.coreBoot i img) s = .next (({ s with free := s.free + 1 } : State).bootFails i.val (Config.freeValue 8 s.free).toNat) :=
  (if_neg (not_bootIdle hr hn hb hc hg)).trans (if_pos (by simp [h]))

variable (h : s.pwr.mcRuns = true) (hh : s.pwr.mcHalted = false)
include h hh

/-- What a boot comes to once the chunks have been checked. -/
theorem exec_coreBoot_of_served :
    exec (.coreBoot i img) s =
      match bootChunks (img.take 512) (img.drop 512) s.bootAddr (hChunks (img.take 512)) 0 (img.drop (tableEnd (img.take 512))) s with
      | (some k, s) => .next (s.bootFails i k)
      | (none, s) =>
        let s := s.logEv 8 15 i 0x0C04 0 (leBytes 1 i ++ leBytes 4 (heatOf s.activeManifest))
        if s.flag F.dbgCfg_hold [] then .next (s.setCore i { s.coreOf i with boot := 1 }) else .next (s.startCore i) :=
  (if_neg (not_bootIdle hr hn hb hc hg)).trans ((if_neg (by simp [h])).trans (if_neg (ne_true_of_eq_false hh)))

end

end

/-! ## CORE_RESET, SEC_DROP (R522) -/

section
variable {s t : State} {src : Src} {i : Fin 4} {w : Word32}

/-- What a write to CC_COREi_CTRL by a listed writer comes to. -/
def State.coreCtrlStored (s : State) (i : Fin 4) (w : Word32) : State :=
  let s := s.writeReg .ccCoreCtrl [i] w
  let s :=
    if F.ccCoreCtrl_rst.of w = 1 then s.coreReset i
    else if !s.flag F.ccCoreCtrl_running [i] ∧ (s.coreOf i).boot = 2 then s.setCore i { s.coreOf i with boot := 0 }
    else s
  if F.ccCoreCtrl_secDrop.of w = 1 then s.secDrop i else s

theorem next_coreCtrlWrite_of_listed (hm : mayWrite .ccCoreCtrl src = true) (hq : s.regWaits .ccCoreCtrl = false)
    (ht : s.coreCtrlStored i w = t) : .next (s.coreCtrlWrite src i w) = (.next (t.answer src .ok) : Out) := by
  rw [State.coreCtrlWrite, if_pos hm]
  exact next_regAct hq ht [i.val] w

/-- The word of SEC_DROP: sec_drop is set, and rst as it stands. -/
def State.secDropWord (s : State) (i : Fin 4) : Word32 := (s.reg .ccCoreCtrl [i] &&& 0x80000000#32) ||| 0x20000000#32

theorem ccCoreCtrl_secDrop_of_or (w : Word32) : F.ccCoreCtrl_secDrop.of (w ||| 0x20000000#32) = 1 := by
  have same : F.ccCoreCtrl_secDrop.of (w ||| 0x20000000#32) = F.ccCoreCtrl_secDrop.of 0x20000000#32 := Fld.of_congr fun b hb => by
    obtain rfl : b = 29 := Nat.le_antisymm hb.2 hb.1
    simp
  rw [same]
  decide

theorem State.ccCoreCtrl_secDrop_of_secDropWord : F.ccCoreCtrl_secDrop.of (s.secDropWord i) = 1 := ccCoreCtrl_secDrop_of_or _

theorem State.ccCoreCtrl_rst_of_secDropWord : F.ccCoreCtrl_rst.of (s.secDropWord i) = s.get F.ccCoreCtrl_rst [i.val] :=
  Fld.of_congr fun b hb => by
    obtain rfl : b = 31 := Nat.le_antisymm hb.2 hb.1
    simp [State.secDropWord, F.ccCoreCtrl_rst]

theorem State.secDrop_rst_of_flag {b : Bool} (h : s.flag F.ccCoreCtrl_rst [i.val] = b) :
    F.ccCoreCtrl_rst.of (s.secDropWord i) = 1 ↔ b = true := by
  have bit : s.get F.ccCoreCtrl_rst [i.val] < 2 := Fld.of_lt _ _
  rw [State.ccCoreCtrl_rst_of_secDropWord, ← h, State.flag, bne_iff_ne]
  omega

theorem State.coreCtrlStored_reset :
    s.coreCtrlStored i 0x80000000#32 = (s.writeReg .ccCoreCtrl [i.val] 0x80000000#32).coreReset i.val := by
  have rst : F.ccCoreCtrl_rst.of 0x80000000#32 = 1 := by decide
  have keeps : F.ccCoreCtrl_secDrop.of 0x80000000#32 ≠ 1 := by decide
  rw [State.coreCtrlStored, if_pos rst, if_neg keeps]

theorem State.coreCtrlStored_drop_of_rst (h : s.flag F.ccCoreCtrl_rst [i.val] = true) :
    s.coreCtrlStored i (s.secDropWord i) =
      ((s.writeReg .ccCoreCtrl [i.val] (s.secDropWord i)).coreReset i.val).put F.ccCoreCtrl_secEn [i.val] 0 := by
  rw [State.coreCtrlStored, if_pos ((State.secDrop_rst_of_flag h).mpr rfl), if_pos State.ccCoreCtrl_secDrop_of_secDropWord]
  rfl

theorem State.coreCtrlStored_drop_of_not_rst (h : s.flag F.ccCoreCtrl_rst [i.val] = false) :
    let kept := s.writeReg .ccCoreCtrl [i.val] (s.secDropWord i)
    s.coreCtrlStored i (s.secDropWord i) =
      (if kept.flag F.ccCoreCtrl_running [i.val] = false ∧ (kept.coreOf i.val).boot = 2 then
          kept.setCore i.val { kept.coreOf i.val with boot := 0 }
        else kept).put F.ccCoreCtrl_secEn [i.val] 0 := by
  have keeps : ¬ F.ccCoreCtrl_rst.of (s.secDropWord i) = 1 := fun e => Bool.false_ne_true ((State.secDrop_rst_of_flag h).mp e)
  rw [State.coreCtrlStored, if_neg keeps, if_pos State.ccCoreCtrl_secDrop_of_secDropWord]
  simp only [Bool.not_eq_true']
  rfl

section
variable (hm : mayWrite .ccCoreCtrl src = false)
include hm

theorem exec_coreReset_of_not_listed : exec (.coreReset src i) s = .next (s.answer src .serr) := by
  have keeps : ¬ (src.requester = 2 + i.val ∧ F.ccCoreCtrl_secDrop.of 0x80000000#32 = 1) := fun h => absurd h.2 (by decide)
  exact congrArg Host.Outcome.next ((if_neg (ne_true_of_eq_false hm)).trans (if_neg keeps))

theorem exec_secDrop_of_other (hn : src.requester ≠ 2 + i.val) : exec (.secDrop src i) s = .next (s.answer src .serr) :=
  congrArg Host.Outcome.next ((if_neg (ne_true_of_eq_false hm)).trans (if_neg fun h => hn h.1))

theorem exec_secDrop_of_own (hn : src.requester = 2 + i.val) (hq : s.regWaits .ccCoreCtrl = false) :
    exec (.secDrop src i) s = .next ((s.put F.ccCoreCtrl_secEn [i.val] 0).answer src .ok) := by
  change Host.Outcome.next (s.coreCtrlWrite src i (s.secDropWord i)) = _
  rw [State.coreCtrlWrite, if_neg (ne_true_of_eq_false hm), if_pos ⟨hn, State.ccCoreCtrl_secDrop_of_secDropWord⟩]
  exact next_regAct hq rfl [i.val] _

end

end

/-! ## The watchdog (R529, R530) -/

section
variable {s : State} {src : Src} {i : Fin 4}

/-- The word of WATCHDOG_KICK. -/
def State.kickWord (s : State) (i : Fin 4) : Word32 := (s.reg .ccWdt [i] &&& 0x80FFFFFF#32) ||| 0x20000000#32

theorem ccWdt_kick_of_or (w : Word32) : F.ccWdt_kick.of (w ||| 0x20000000#32) = 1 := ccCoreCtrl_secDrop_of_or w

theorem exec_watchdogKick_of_listed (hm : mayWrite .ccWdt src = true) (hq : s.regWaits .ccWdt = false) :
    let wrote := s.writeReg .ccWdt [i.val] (s.kickWord i)
    exec (.watchdogKick src i) s =
      .next ((if wrote.flag F.ccWdt_en [i.val] = true then wrote.wdtReload i.val else wrote).answer src .ok) := by
  intro wrote
  have kicked : (F.ccWdt_kick.of (s.kickWord i) = 1 ∨ (!s.flag F.ccWdt_en [i.val]) = true) := .inl (ccWdt_kick_of_or _)
  change Host.Outcome.next (s.wdtWrite src i (s.kickWord i)) = _
  rw [State.wdtWrite, if_pos hm]
  refine next_regAct hq ?_ [i.val] _
  exact if_congr (and_iff_left kicked) rfl rfl

section
variable (hm : mayWrite .ccWdt src = false)
include hm

theorem exec_watchdogKick_of_own (hn : src.requester = 2 + i.val) (hq : s.regWaits .ccWdt = false) :
    exec (.watchdogKick src i) s =
      .next ((if s.flag F.ccWdt_en [i.val] = true then s.wdtReload i.val else s).answer src .ok) := by
  change Host.Outcome.next (s.wdtWrite src i (s.kickWord i)) = _
  rw [State.wdtWrite, if_neg (ne_true_of_eq_false hm), if_pos ⟨hn, ccWdt_kick_of_or _⟩]
  exact next_regAct hq rfl [i.val] _

theorem exec_watchdogKick_of_other (hn : src.requester ≠ 2 + i.val) :
    exec (.watchdogKick src i) s = .next (s.answer src .serr) :=
  congrArg Host.Outcome.next ((if_neg (ne_true_of_eq_false hm)).trans (if_neg fun h => hn h.1))

end

theorem exec_watchdogExpiry_of_not_due (h : s.wdtDue i.val = false) : exec (.watchdogExpiry i) s = .next s := if_pos (by simp [h])

section
variable (h : s.wdtDue i.val = true)
include h

theorem exec_watchdogExpiry_first (he : s.flag F.ccWdt_expired [i.val] = false) :
    exec (.watchdogExpiry i) s = .next (((s.raise F.ccWdt_expired [i.val]).interrupt (.wdt i.val)).wdtReload i.val) :=
  (if_neg (by simp [h])).trans (if_neg (ne_true_of_eq_false he))

theorem exec_watchdogExpiry_second (he : s.flag F.ccWdt_expired [i.val] = true) :
    exec (.watchdogExpiry i) s =
      .next (((s.coreReset i.val).raise F.ccCoreCtrl_wdtReset [i.val]).logEv 8 15 i.val 0x0C03 3 (leBytes 1 i.val)) :=
  (if_neg (by simp [h])).trans (if_pos he)

end

end

/-! ## Page operations (R523) -/

section
variable {s : State} {src : Src} {hi : BitVec 16}

/-- The address bits of a page operation leave its op as `k` gives it. -/
theorem ccCmoHi_op_of_or (k : Word32) : F.ccCmoHi_op.of (k ||| hi.setWidth 32) = F.ccCmoHi_op.of k := Fld.of_congr fun b hb => by
  have above : ¬ b < 16 := Nat.not_lt.mpr (le_trans (by decide) hb.1)
  rw [BitVec.getLsbD_or, BitVec.getLsbD_setWidth, BitVec.getLsbD_of_ge hi b (Nat.not_lt.mp above), Bool.and_false, Bool.or_false]

theorem State.cmoWrite_of_op {k : Word32} {op : Nat} (h : F.ccCmoHi_op.of k = op) :
    let t := s.writeReg .ccCmoHi [] (k ||| hi.setWidth 32)
    s.cmoWrite (k ||| hi.setWidth 32) = t.pageOp op (t.get F.ccCmoLo_addr [] + 2 ^ 20 * t.get F.ccCmoHi_addr []) := by
  rw [State.cmoWrite, ccCmoHi_op_of_or, h]

end

/-- Settles O46, command by command (log entry 82 for the requesters that get SERR, 62 for a boot that fails, 10 for the free chunk
byte). -/
theorem coreControl : Obligations.CoreControl := by
  intro s s1 src i img hi u n h serr
  refine ⟨exec_coreBoot_of_out_of_reset, fun hb => ?notServed,
    fun hr hn hb hc hg => ⟨exec_coreBoot_of_no_mc hr hn hb hc hg, fun hm hh => ?served⟩,
    fun hm hq => ⟨next_coreCtrlWrite_of_listed hm hq State.coreCtrlStored_reset,
      fun hr => next_coreCtrlWrite_of_listed hm hq (State.coreCtrlStored_drop_of_not_rst hr),
      fun hr => next_coreCtrlWrite_of_listed hm hq (State.coreCtrlStored_drop_of_rst hr)⟩,
    fun hm => ⟨exec_coreReset_of_not_listed hm, exec_secDrop_of_other hm, exec_secDrop_of_own hm⟩,
    ⟨exec_watchdogKick_of_listed, exec_watchdogKick_of_own, exec_watchdogKick_of_other⟩,
    exec_watchdogExpiry_of_not_due, fun hd => ⟨exec_watchdogExpiry_first hd, exec_watchdogExpiry_second hd⟩,
    fun hm => ⟨next_command_of_not_listed hm [] _ _, next_command_of_not_listed hm [] _ _, next_command_of_not_listed hm [] _ _⟩,
    fun hm hq => ⟨next_command hm hq (State.cmoWrite_of_op (by decide)) [] _, next_command hm hq (State.cmoWrite_of_op (by decide)) [] _,
      next_command hm hq (State.cmoWrite_of_op (by decide)) [] _⟩⟩
  case notServed =>
    obtain untrained | ⟨runs, halted⟩ := hb
    · exact exec_coreBoot_of_idle (State.bootIdle_of_untrained untrained)
    · exact exec_coreBoot_of_mc_halted runs halted
  case served =>
    intro run
    have served := exec_coreBoot_of_served (img := img) hr hn hb hc hg hm hh
    change exec (.coreBoot i img) s = match run with
      | (some k, s) => _
      | (none, s) => _ at served
    refine ⟨fun hf => ?_, fun hf => ?_⟩ <;> rw [hf] at served
    · exact served
    · exact ⟨fun hd => served.trans (if_neg (ne_true_of_eq_false hd)), fun hd => served.trans (if_pos hd)⟩

end Sys2Proof.Machine
end

section
/-!
PROOFS. What a core does at its bus and its triggers, and the unlock of the MC's debug scopes (R520, R521, R534, R538, R539; O47).
-/

namespace Sys2Proof.Machine

/-! ## CORE_IO_ACCESS (R520, R521) -/

/-- The request that an I/O access goes out as: of master 57, with the core's own tags, in the control class. -/
def ioRequest (r : Req) (prv : Fin 4) : Req :=
  { r with src := ⟨57, r.src.core, decide (prv = 3), false⟩, cls := 2,
           tag := ⟨256 * r.src.core.val % 1024 + r.tag.val % 256, by omega⟩ }

theorem ioRequest_tag (r : Req) (prv : Fin 4) : (ioRequest r prv).tag.val = 256 * r.src.core.val + r.tag.val % 256 :=
  congrArg (· + r.tag.val % 256) (Nat.mod_eq_of_lt (by omega))

section
variable {s : State} {r : Req} {kind : CoreAccess} {pc : BitVec 64} {prv : Fin 4}

theorem exec_coreIoAccess_of_none
    (h : s.hartUp r.src.core.val = false ∨ s.hartHalted r.src.core.val = true ∨ cacheable r.addr.toNat = true) :
    exec (.coreIoAccess r kind pc prv) s = .next s := by
  refine if_pos ?_
  rcases h with h | h | h <;> simp [h]

variable (h : s.hartUp r.src.core.val = true ∧ s.hartHalted r.src.core.val = false ∧ cacheable r.addr.toNat = false)
include h

theorem io_access : ¬ (cacheable r.addr.toNat || !s.hartUp r.src.core.val || s.hartHalted r.src.core.val) = true := by simp [h]

theorem exec_coreIoAccess_fetch :
    exec (.coreIoAccess r .fetch pc prv) s = .next (s.hartTrap r.src.core.val 1 (r.addr.setWidth 64) pc prv) := if_neg (io_access h)

theorem exec_coreIoAccess_lr :
    exec (.coreIoAccess r .lr pc prv) s = .next (s.hartTrap r.src.core.val 5 (r.addr.setWidth 64) pc prv) := if_neg (io_access h)

theorem exec_coreIoAccess_amo :
    exec (.coreIoAccess r .amo pc prv) s = .next (s.hartTrap r.src.core.val 7 (r.addr.setWidth 64) pc prv) := if_neg (io_access h)

theorem exec_coreIoAccess_plain_of_waits (hw : s.ioWaits r.src.core.val = true) : exec (.coreIoAccess r .plain pc prv) s = .next s :=
  (if_neg (io_access h)).trans (if_pos hw)

theorem exec_coreIoAccess_plain (hw : s.ioWaits r.src.core.val = false) :
    exec (.coreIoAccess r .plain pc prv) s = exec (.nocRequestInject (ioRequest r prv) false) s :=
  (if_neg (io_access h)).trans (if_neg (ne_true_of_eq_false hw))

end

/-! ## TRIGGER_HIT (R534) -/

section
variable {s : State} {i : Fin 4} {j : Fin 8} {x : Fin 3} {av val pc : BitVec 64} {prv : Fin 4} {regs : List (BitVec 16 × BitVec 64)}

/-- The setting of a trigger. -/
def State.tdata1 (s : State) (i : Fin 4) (j : Fin 8) : BitVec 64 := s.hreg i (0x8000 + 16 * j.val + 1)

theorem exec_triggerHit_of_none
    (h : s.hartUp i.val = false ∨ s.hartHalted i.val = true ∨ (s.tdata1 i j).getLsbD 11 = true ∨
      s.chainHits i.val (fun k => s.trigHits i.val k x.val av.toNat val.toNat prv.val) j.val = false) :
    exec (.triggerHit i j x av val prv pc regs) s = .next s := by
  rw [State.tdata1] at h
  refine if_pos ?_
  rcases h with h | h | h | h <;> simp [h]

variable (h : s.hartUp i.val = true ∧ s.hartHalted i.val = false ∧ (s.tdata1 i j).getLsbD 11 = false ∧
  s.chainHits i.val (fun k => s.trigHits i.val k x.val av.toNat val.toNat prv.val) j.val = true)
include h

/-- What a trigger that matches does is its action's affair. -/
theorem exec_triggerHit_of_match :
    exec (.triggerHit i j x av val prv pc regs) s =
      match bits64 (s.tdata1 i j) 15 12 with
      | 0 => .next ((s.mergeHregs i regs).hartTrap i 3 av pc prv)
      | 1 =>
        if (s.tdata1 i j).getLsbD 59 then
          let s1 := s.mergeHregs i regs
          .next ((s1.setHreg i csrDcsr (putBits64 (s1.hreg i csrDcsr) 1 0 prv)).enterDebug i 2 pc)
        else .next s
      | _ => .next s := by
  obtain ⟨hu, hh, hc, hm⟩ := h
  rw [State.tdata1] at hc
  refine (if_neg ?_).trans rfl
  simp only [hu, hh, hc, hm]
  decide

theorem exec_triggerHit_breakpoint (ha : bits64 (s.tdata1 i j) 15 12 = 0) :
    exec (.triggerHit i j x av val prv pc regs) s = .next ((s.mergeHregs i.val regs).hartTrap i.val 3 av pc prv) := by
  rw [exec_triggerHit_of_match h, ha]
  rfl

theorem exec_triggerHit_debug (ha : bits64 (s.tdata1 i j) 15 12 = 1) (hd : (s.tdata1 i j).getLsbD 59 = true) :
    let s1 := s.mergeHregs i.val regs
    exec (.triggerHit i j x av val prv pc regs) s =
      .next ((s1.setHreg i.val csrDcsr (putBits64 (s1.hreg i.val csrDcsr) 1 0 prv)).enterDebug i.val 2 pc) := by
  rw [exec_triggerHit_of_match h, ha]
  exact if_pos hd

theorem exec_triggerHit_no_dmode (ha : bits64 (s.tdata1 i j) 15 12 = 1) (hd : (s.tdata1 i j).getLsbD 59 = false) :
    exec (.triggerHit i j x av val prv pc regs) s = .next s := by
  rw [exec_triggerHit_of_match h, ha]
  exact if_neg (ne_true_of_eq_false hd)

theorem exec_triggerHit_no_action (ha : 2 ≤ bits64 (s.tdata1 i j) 15 12) :
    exec (.triggerHit i j x av val prv pc regs) s = .next s := by
  rw [exec_triggerHit_of_match h]
  split
  case h_1 e => omega
  case h_2 e => omega
  case h_3 => rfl

end

/-! ## DBG_UNLKCMD (R538) -/

section
variable {s t : State} {src : Src} {w : Word32} {b : List Byte}

theorem next_unlkWrite (hm : unlkMay src w = true) (hq : s.regWaits .dbgUnlkcmd = false)
    (ht : s.unlkCommand (F.dbgUnlkcmd_op.of w) = t) : .next (s.unlkWrite src w) = (.next (t.answer src .ok) : Out) := by
  rw [State.unlkWrite, if_pos hm]
  exact next_regAct hq ht [] w

theorem next_unlkWrite_of_refused (hm : unlkMay src w = false) : .next (s.unlkWrite src w) = (.next (s.answer src .serr) : Out) :=
  congrArg _ (if_neg (ne_true_of_eq_false hm))

theorem dbgUnlkcmd_op_unlock : F.dbgUnlkcmd_op.of 0x40000000#32 = 1 := by decide

theorem dbgUnlkcmd_op_relock : F.dbgUnlkcmd_op.of 0x80000000#32 = 2 := by decide

theorem unlkMay_unlock : unlkMay src 0x40000000#32 = (src.requester == 11) := by simp [unlkMay, dbgUnlkcmd_op_unlock]

theorem unlkMay_relock : unlkMay src 0x80000000#32 = (src.requester == 11 || src.requester == 10) := by
  simp [unlkMay, dbgUnlkcmd_op_relock]

theorem exec_unlock_of_other (h : src.requester ≠ 11) : exec (.unlock src) s = .next (s.answer src .serr) :=
  next_unlkWrite_of_refused (by simp [unlkMay_unlock, h])

theorem exec_relock_of_other (h11 : src.requester ≠ 11) (h10 : src.requester ≠ 10) :
    exec (.relock src) s = .next (s.answer src .serr) :=
  next_unlkWrite_of_refused (by simp [unlkMay_relock, h11, h10])

variable (hq : s.regWaits .dbgUnlkcmd = false)
include hq

theorem exec_unlock (h : src.requester = 11) (ht : s.unlkCommand 1 = t) : exec (.unlock src) s = .next (t.answer src .ok) :=
  next_unlkWrite (by simp [unlkMay_unlock, h]) hq (by rw [dbgUnlkcmd_op_unlock, ht])

theorem exec_relock (h : src.requester = 10 ∨ src.requester = 11) : exec (.relock src) s = .next (s.relock.answer src .ok) :=
  next_unlkWrite (by rcases h with h | h <;> simp [unlkMay_relock, h]) hq (by rw [dbgUnlkcmd_op_relock]; rfl)

omit hq

theorem State.unlkCommand_of_busy (h : s.flag F.dbgUnlkcmd_busy [] = true) : s.unlkCommand 1 = s := if_pos h

theorem State.unlkCommand_of_idle (h : s.flag F.dbgUnlkcmd_busy [] = false) :
    s.unlkCommand 1 = ({ s with dbg := { s.dbg with unlock := some (s.wordBytes .dbgUnlkbuf (List.range 48)) } } : State).raise
      F.dbgUnlkcmd_busy [] := if_neg (ne_true_of_eq_false h)

end

/-! ## UNLOCK_CHECK_DONE (R538, R539) -/

section
variable {s : State} {b : List Byte}

theorem exec_unlockCheckDone_of_none (h : s.dbg.unlock = none) : exec .unlockCheckDone s = .next s := by
  change execUnlockCheckDone s = _
  rw [execUnlockCheckDone, h]

/-- The request has been taken, with the result `r` shown. -/
def State.unlockJudged (s : State) (r : Nat) : State :=
  (({ s with dbg := { s.dbg with unlock := none } } : State).put F.dbgUnlkcmd_busy [] 0).put F.dbgUnlkcmd_res [] r

/-- The scopes asked for are in force beside those that already were (log entry 64). -/
def State.scopesGranted (s : State) (scope : Nat) : State :=
  let t := if scope % 2 = 1 then s.raise F.dbgCfg_mcScope [] else s
  if 2 ≤ scope then t.raise F.dbgCfg_secScope [] else t

variable (h : s.dbg.unlock = some b)
include h

theorem exec_unlockCheckDone_of_some :
    exec .unlockCheckDone s =
      .next (if s.unlockResult b = 0 then
          ((s.unlockJudged (s.unlockResult b)).scopesGranted (fieldAt b 1 1 % 4)).logEv 8 15 0 0x0C01 5
            (leBytes 1 (fieldAt b 0 1) ++ leBytes 1 (fieldAt b 1 1 % 4))
        else
          (s.unlockJudged (s.unlockResult b)).logEv 8 15 0 0x0C02 5
            (leBytes 1 (fieldAt b 0 1) ++ leBytes 1 (s.unlockResult b)) : State).newNonce := by
  change execUnlockCheckDone s = _
  rw [execUnlockCheckDone, h]
  rfl

theorem exec_unlockCheckDone_of_refused (hr : s.unlockResult b ≠ 0) :
    exec .unlockCheckDone s =
      .next ((s.unlockJudged (s.unlockResult b)).logEv 8 15 0 0x0C02 5
        (leBytes 1 (fieldAt b 0 1) ++ leBytes 1 (s.unlockResult b))).newNonce := by
  rw [exec_unlockCheckDone_of_some h, if_neg hr]

theorem exec_unlockCheckDone_of_granted {t : State} (hr : s.unlockResult b = 0)
    (ht : (s.unlockJudged (s.unlockResult b)).scopesGranted (fieldAt b 1 1 % 4) = t) :
    exec .unlockCheckDone s =
      .next (t.logEv 8 15 0 0x0C01 5 (leBytes 1 (fieldAt b 0 1) ++ leBytes 1 (fieldAt b 1 1 % 4))).newNonce := by
  rw [exec_unlockCheckDone_of_some h, if_pos hr, ht]

end

/-- Settles O47, command by command (log entry 46 for what a trap saves, 64 for the copied request and the scopes that add up). -/
theorem coreEvents : Obligations.CoreEvents := by
  intro s r src i j x av val pc prv regs kind b c io d hit live fire e
  refine ⟨exec_coreIoAccess_of_none,
    fun h => ⟨exec_coreIoAccess_fetch h, exec_coreIoAccess_lr h, exec_coreIoAccess_amo h, exec_coreIoAccess_plain_of_waits h,
      fun hw => ⟨ioRequest r prv, rfl, rfl, rfl, rfl, rfl, rfl, ioRequest_tag r prv, exec_coreIoAccess_plain h hw⟩⟩,
    exec_triggerHit_of_none,
    fun h => ⟨exec_triggerHit_breakpoint h, exec_triggerHit_debug h, exec_triggerHit_no_dmode h, exec_triggerHit_no_action h⟩,
    fun h => ⟨exec_unlock_of_other h, exec_relock_of_other h⟩,
    fun h hq => ⟨fun hb => exec_unlock hq h (State.unlkCommand_of_busy hb), fun hb => exec_unlock hq h (State.unlkCommand_of_idle hb)⟩,
    fun h hq => exec_relock hq h, exec_unlockCheckDone_of_none,
    fun h => ⟨exec_unlockCheckDone_of_refused h, fun hr hs => ?both, fun hr hs => ?mc, fun hr hs => ?sec⟩⟩
  case both => exact exec_unlockCheckDone_of_granted h hr (congrArg (State.scopesGranted _) hs)
  case mc => exact exec_unlockCheckDone_of_granted h hr (congrArg (State.scopesGranted _) hs)
  case sec => exact exec_unlockCheckDone_of_granted h hr (congrArg (State.scopesGranted _) hs)

end Sys2Proof.Machine
end

section
/-!
PROOFS. The TAP's instructions and the boundary register (R531, R532; O48).
-/

namespace Sys2Proof.Machine

section
variable {s : State} {code mode : Nat} {f : State → State}

theorem State.boundaryInstr_of_not_loaded (h : s.get F.cfgStat_loaded [] = 0) : s.boundaryInstr code mode f = f (s.tapIr code mode) :=
  if_pos h

theorem State.boundaryInstr_of_loaded (h : s.get F.cfgStat_loaded [] ≠ 0) :
    s.boundaryInstr code mode f = (s.tapIr 0xFF 0).raise F.dbgCfg_bsRef [] := if_neg h

end

section
variable {s : State} {code : BitVec 8}

theorem exec_bypass_of_unknown (h : code.toNat ∉ tapCodes) : exec (.bypass code) s = .next (s.tapIr 0xFF 0) :=
  if_neg (by simpa using h)

theorem exec_bypass_of_code (h : code.toNat ∈ tapCodes) : exec (.bypass code) s = .next s := if_pos (by simpa using h)

end

/-- Settles O48, instruction by instruction (log entry 65 for the captured cells, which come as operands). -/
theorem tapAndBoundaryScan : Obligations.TapAndBoundaryScan := by
  intro s cells load code ir scan refused
  refine ⟨rfl, rfl, rfl, fun h => ?notLoaded, fun h => ?loaded, exec_bypass_of_unknown, exec_bypass_of_code⟩
  case notLoaded =>
    have effect {t : State} {c m : Nat} {f : State → State} (ht : f (s.tapIr c m) = t) :
        Host.Outcome.next (s.boundaryInstr c m f) = (.next t : Out) :=
      congrArg _ ((State.boundaryInstr_of_not_loaded h).trans ht)
    exact ⟨effect rfl, effect rfl, effect rfl, effect rfl, effect rfl⟩
  case loaded =>
    have bypassed (c m : Nat) (f : State → State) : Host.Outcome.next (s.boundaryInstr c m f) = refused :=
      congrArg _ (State.boundaryInstr_of_loaded h)
    exact ⟨bypassed .., bypassed .., bypassed .., bypassed .., bypassed ..⟩

end Sys2Proof.Machine
end

section
/-!
PROOFS. The debug module: halting and resuming a hart, abstract accesses, the system bus, DTMCS and DMI (R533 to R537; O49).
-/

namespace Sys2Proof.Machine

/-! ## Whether the module acts on a hart (R533, R536) -/

section
variable {s : State} {h : Fin 5} {pc v a : BitVec 64} {prv : Fin 4} {regs : List (BitVec 16 × BitVec 64)} {n : BitVec 16} {w : Bool}
  {size : Fin 4}

section
variable (hd : s.dmRuns = false ∨ s.selectable h.val = false)
include hd

theorem not_able : (s.dmRuns && s.selectable h) = false := by rcases hd with hd | hd <;> simp [hd]

theorem exec_debugHalt_of_not_able : exec (.debugHalt h pc prv regs) s = .next s := if_neg (ne_true_of_eq_false (not_able hd))

theorem exec_debugResume_of_not_able : exec (.debugResume h pc regs) s = .next s := if_neg (ne_true_of_eq_false (not_able hd))

theorem exec_abstractRegisterAccess_of_not_able : exec (.abstractRegisterAccess h w n v) s = .next s :=
  if_neg (by simp [not_able hd])

theorem exec_abstractMemoryAccess_of_not_able : exec (.abstractMemoryAccess h w size a v) s = .next s :=
  if_neg (by simp [not_able hd])

end

/-- An error stands until software clears it. -/
theorem exec_abstractRegisterAccess_of_error (he : s.cmdErr ≠ 0) : exec (.abstractRegisterAccess h w n v) s = .next s :=
  if_neg (by simp [he])

theorem exec_abstractMemoryAccess_of_error (he : s.cmdErr ≠ 0) : exec (.abstractMemoryAccess h w size a v) s = .next s :=
  if_neg (by simp [he])

section
variable (hd : s.dmRuns = true ∧ s.selectable h.val = true)
include hd

theorem exec_debugHalt_of_able {t : State} (ht : s.haltHart h.val pc prv regs = t) : exec (.debugHalt h pc prv regs) s = .next t :=
  (if_pos (by simp [hd])).trans (congrArg _ ht)

theorem exec_debugResume_of_able {t : State} (ht : s.resumeHart h.val pc regs = t) : exec (.debugResume h pc regs) s = .next t :=
  (if_pos (by simp [hd])).trans (congrArg _ ht)

theorem exec_abstractRegisterAccess_of_able {t : State} (he : s.cmdErr = 0) (ht : s.abstractReg h.val w n.toNat v = t) :
    exec (.abstractRegisterAccess h w n v) s = .next t := (if_pos (by simp [hd, he])).trans (congrArg _ ht)

theorem exec_abstractMemoryAccess_of_able {t : State} (he : s.cmdErr = 0) (ht : s.abstractMem h.val w size a.toNat v = t) :
    exec (.abstractMemoryAccess h w size a v) s = .next t := (if_pos (by simp [hd, he])).trans (congrArg _ ht)

end

end

/-! ## Halt and resume (R533, R537) -/

section
variable {s : State} {h : Nat} {pc : BitVec 64} {prv : Nat} {regs : List (BitVec 16 × BitVec 64)}

theorem State.haltHart_of_halted (hh : s.hartHalted h = true) : s.haltHart h pc prv regs = s := if_pos hh

theorem State.haltHart_of_running (hh : s.hartHalted h = false) (hu : s.hartUp h = true) :
    let u := s.mergeHregs h regs
    s.haltHart h pc prv regs = (u.setHreg h csrDcsr (putBits64 (u.hreg h csrDcsr) 1 0 prv)).enterDebug h 3 pc :=
  (if_neg (ne_true_of_eq_false hh)).trans (if_pos hu)

theorem State.haltHart_of_down (hh : s.hartHalted h = false) (hu : s.hartUp h = false) :
    s.haltHart h pc prv regs = s.setCore h { s.coreOf h with haltReq := true } :=
  (if_neg (ne_true_of_eq_false hh)).trans (if_neg (ne_true_of_eq_false hu))

section
variable (hd : s.hartHalted h = false ∨ s.hartUp h = false)
include hd

theorem not_halted_or_down : (!s.hartHalted h || !s.hartUp h) = true := by rcases hd with hd | hd <;> simp [hd]

theorem State.resumeHart_of_not_halted : s.resumeHart h pc regs = s := if_pos (not_halted_or_down hd)

end

/-- A halted hart that resumes is acknowledged, and the watchdog of a core takes its full period. -/
def State.resumed (s : State) (h : Nat) : State :=
  let u := if h < 4 then s.wdtReload h else s
  u.setDm 0x11 (u.dmReg 0x11 ||| BitVec.ofNat 32 (2 ^ h))

section
variable (hd : s.hartHalted h = true ∧ s.hartUp h = true)
include hd

theorem halted_and_up : ¬ (!s.hartHalted h || !s.hartUp h) = true := by simp [hd]

theorem State.resumeHart_step (hs : ((s.resumed h).hreg h csrDcsr).getLsbD 2 = true) :
    s.resumeHart h pc regs = ((s.resumed h).mergeHregs h regs).enterDebug h 4 pc := (if_neg (halted_and_up hd)).trans (if_pos hs)

variable (hs : ((s.resumed h).hreg h csrDcsr).getLsbD 2 = false)
include hs

theorem State.resumeHart_core (hc : h < 4) : s.resumeHart h pc regs = (s.resumed h).put F.ccCoreCtrl_halted [h] 0 :=
  (if_neg (halted_and_up hd)).trans ((if_neg (ne_true_of_eq_false hs)).trans (if_pos hc))

theorem State.resumeHart_mc (hc : h = 4) :
    s.resumeHart h pc regs = { s.resumed h with pwr := { (s.resumed h).pwr with mcHalted := false } } :=
  (if_neg (halted_and_up hd)).trans ((if_neg (ne_true_of_eq_false hs)).trans (if_neg (by omega)))

end

end

/-! ## Abstract accesses (R533) -/

section
variable {s s1 : State} {h n size a : Nat} {w : Bool} {v x : BitVec 64}

theorem State.abstractReg_of_not_halted (hd : s.hartHalted h = false ∨ s.hartUp h = false) :
    s.abstractReg h w n v = s.setCmdErr 4 := if_pos (not_halted_or_down hd)

theorem State.abstractMem_of_not_halted (hd : s.hartHalted h = false ∨ s.hartUp h = false) :
    s.abstractMem h w size a v = s.setCmdErr 4 := if_pos (not_halted_or_down hd)

variable (hd : s.hartHalted h = true ∧ s.hartUp h = true)
include hd

theorem State.abstractReg_of_no_register (hn : 0x1040 ≤ n) : s.abstractReg h w n v = s.setCmdErr 2 :=
  (if_neg (halted_and_up hd)).trans (if_pos (by simp [hartRegNo, hn]))

section
variable (hn : n < 0x1040)
include hn

omit hd in
theorem is_hartRegNo : ¬ (!hartRegNo n) = true := by simp [hartRegNo, hn]

theorem State.abstractReg_read : s.abstractReg h false n v = s.setDmArg 0 (s.hartRead h n) :=
  (if_neg (halted_and_up hd)).trans (if_neg (is_hartRegNo hn))

theorem State.abstractReg_write (hw : s.hartWrite h n v = some s1) : s.abstractReg h true n v = s1 := by
  rw [State.abstractReg, if_neg (halted_and_up hd), if_neg (is_hartRegNo hn), if_pos rfl, hw]

theorem State.abstractReg_write_refused (hw : s.hartWrite h n v = none) : s.abstractReg h true n v = s.setCmdErr 3 := by
  rw [State.abstractReg, if_neg (halted_and_up hd), if_neg (is_hartRegNo hn), if_pos rfl, hw]

end

theorem State.abstractMem_of_bad_address (ha : a % 2 ^ size ≠ 0 ∨ 2 ^ 48 ≤ a) : s.abstractMem h w size a v = s.setCmdErr 5 :=
  (if_neg (halted_and_up hd)).trans (if_pos ha)

section
variable (ha : a % 2 ^ size = 0) (hl : a < 2 ^ 48)
include ha hl

omit hd in
theorem good_address : ¬ (a % 2 ^ size ≠ 0 ∨ 2 ^ 48 ≤ a) := by omega

theorem State.abstractMem_of_bus_error (hm : s.hartMem h w a (2 ^ size) v = (none, s1)) :
    s.abstractMem h w size a v = s1.setCmdErr 5 := by
  rw [State.abstractMem, if_neg (halted_and_up hd), if_neg (good_address ha hl), hm]

theorem State.abstractMem_of_done (hm : s.hartMem h w a (2 ^ size) v = (some x, s1)) :
    s.abstractMem h w size a v = if w = true then s1 else s1.setDmArg 0 x := by
  rw [State.abstractMem, if_neg (halted_and_up hd), if_neg (good_address ha hl), hm]

end

end

/-! ## SYSTEM_BUS_ACCESS (R535) -/

section
variable {s s1 : State} {w : Bool} {size : Fin 4} {a v : BitVec 64} {c : Resp} {d : List Byte}

theorem exec_systemBusAccess_of_none (h : s.dmRuns = false ∨ s.dbg.sberror ≠ 0 ∨ s.sbBusy = true) :
    exec (.systemBusAccess w size a v) s = .next s := by
  cases hr : s.dmRuns
  · exact if_neg (ne_true_of_eq_false hr)
  · have stands : s.dbg.sberror ≠ 0 ∨ s.sbBusy = true := h.resolve_left (by simp [hr])
    exact (if_pos hr).trans (congrArg _ (if_pos stands))

/-- The request of the bus master. -/
def State.sbRequest (s : State) (w : Bool) (size a : Nat) (v : BitVec 64) : Req :=
  dbgReq ⟨61, 0, false, !w && s.flag F.dbgCfg_sbPeek []⟩ (if cacheable a then 3 else 2) w a (2 ^ size) v

variable (hr : s.dmRuns = true) (he : s.dbg.sberror = 0) (hb : s.sbBusy = false)

include hr in
theorem exec_systemBusAccess_of_runs {t : State} (ht : s.sbAccess w size a.toNat v = t) :
    exec (.systemBusAccess w size a v) s = .next t := (if_pos hr).trans (congrArg _ ht)

include he hb

theorem bus_free : ¬ (s.dbg.sberror ≠ 0 ∨ s.sbBusy = true) := by simp [he, hb]

theorem State.sbAccess_of_misaligned (ha : a.toNat % 2 ^ size.val ≠ 0) :
    s.sbAccess w size a.toNat v = { s with dbg := { s.dbg with sberror := 3 } } := (if_neg (bus_free he hb)).trans (if_pos ha)

variable (ha : a.toNat % 2 ^ size.val = 0)
include ha

theorem State.sbAccess_of_no_address (hl : 2 ^ 48 ≤ a.toNat) :
    s.sbAccess w size a.toNat v = { s with dbg := { s.dbg with sberror := 2 } } :=
  (if_neg (bus_free he hb)).trans ((if_neg (not_not.mpr ha)).trans (if_pos hl))

variable (hl : a.toNat < 2 ^ 48)
include hl

/-- While the NoC takes no request of the bus master, the request waits at its endpoint and the bus is busy. -/
theorem State.sbAccess_of_waits (hi : s.injects (s.sbRequest w size a.toNat v) = false) :
    s.sbAccess w size a.toNat v = (s.setDm 0x38 (s.dmReg 0x38 ||| 0x00200000#32)).inject (s.sbRequest w size a.toNat v) :=
  (if_neg (bus_free he hb)).trans
    ((if_neg (not_not.mpr ha)).trans ((if_neg (Nat.not_le.mpr hl)).trans (if_pos (by rw [State.sbRequest] at hi; simp [hi]))))

theorem State.sbAccess_of_answered (hi : s.injects (s.sbRequest w size a.toNat v) = true)
    (hn : s.requestNow (s.sbRequest w size a.toNat v) = (some (c, d), s1)) :
    s.sbAccess w size a.toNat v = s1.sbDone w size.val c d := by
  rw [State.sbRequest] at hi hn
  rw [State.sbAccess, if_neg (bus_free he hb), if_neg (not_not.mpr ha), if_neg (Nat.not_le.mpr hl)]
  dsimp only
  rw [if_neg (by simp [hi]), hn]

end

/-! ## DTMCS and DMI (R533, R536) -/

section
variable {s : State} {word : Word32} {op : Fin 3} {adr : BitVec 7} {pc : BitVec 64} {prv : Fin 4}
  {regs : List (BitVec 16 × BitVec 64)} {e : Bool}

/-- DTMCS has shifted out its answer: version 1, 7 address bits, the status. -/
def State.dtmcsShown (s : State) : State :=
  (s.tapIr 0x10 0).emit (.bytes "TDO" (leBytes 4 (1 + 7 * 16 + 1024 * s.dmiStat)))

theorem exec_dtmcs_of_no_reset (h16 : word.getLsbD 16 = false) (h17 : word.getLsbD 17 = false) :
    exec (.dtmcs word) s = .next s.dtmcsShown :=
  congrArg Host.Outcome.next (if_neg (by rw [h16, h17]; decide))

theorem exec_dtmcs_of_reset (h : word.getLsbD 16 = true ∨ word.getLsbD 17 = true) :
    exec (.dtmcs word) s = .next (s.dtmcsShown.setDm 0x80 0#32) :=
  congrArg Host.Outcome.next (if_pos (Bool.or_eq_true_iff.mpr h))

/-- DMI has shifted out data and a status. -/
def State.dmiShown (s : State) (data : Word32) (status : Nat) : State :=
  s.emit (.bytes "TDO" (leBytes 4 data.toNat ++ leBytes 1 status))

theorem exec_dmi_of_stands (h : s.dmRuns = false) :
    exec (.dmi op adr word pc prv regs e) s = .next (((s.tapIr 0x11 0).setDm 0x80 3#32).dmiShown 0#32 3) :=
  if_pos (by rw [show (s.tapIr 0x11 0).dmRuns = false from h]; rfl)

section
variable (h : s.dmRuns = true)
include h

theorem dmi_runs : ¬ (!(s.tapIr 0x11 0).dmRuns) = true := by
  rw [show (s.tapIr 0x11 0).dmRuns = true from h]
  decide

theorem exec_dmi_of_status (hs : s.dmiStat ≠ 0) :
    exec (.dmi op adr word pc prv regs e) s = .next ((s.tapIr 0x11 0).dmiShown 0#32 s.dmiStat) :=
  (if_neg (dmi_runs h)).trans (if_pos hs)

variable (hs : s.dmiStat = 0)
include hs

theorem exec_dmi_none : exec (.dmi 0 adr word pc prv regs e) s = .next ((s.tapIr 0x11 0).dmiShown 0#32 0) :=
  (if_neg (dmi_runs h)).trans (if_neg (not_not.mpr hs))

theorem exec_dmi_read :
    exec (.dmi 1 adr word pc prv regs e) s =
      .next (((s.tapIr 0x11 0).dmRead adr.toNat).2.dmiShown ((s.tapIr 0x11 0).dmRead adr.toNat).1 0) :=
  (if_neg (dmi_runs h)).trans (if_neg (not_not.mpr hs))

theorem exec_dmi_write :
    exec (.dmi 2 adr word pc prv regs e) s =
      .next (((s.tapIr 0x11 0).dmWrite adr.toNat word pc prv.val regs e).dmiShown word 0) :=
  (if_neg (dmi_runs h)).trans (if_neg (not_not.mpr hs))

end

end

/-- Settles O49, command by command (log entry 46 for the registers' layout and the error codes). -/
theorem debugModule : Obligations.DebugModule := by
  intro s s1 h pc v a prv regs n w size word c d adr e x able halted err bus sbErr ir out
  refine ⟨fun hd => ⟨exec_debugHalt_of_not_able hd, exec_debugResume_of_not_able hd, exec_abstractRegisterAccess_of_not_able hd,
      exec_abstractMemoryAccess_of_not_able hd⟩,
    fun hd => ⟨fun hh => exec_debugHalt_of_able hd (State.haltHart_of_halted hh),
      fun hh hu => exec_debugHalt_of_able hd (State.haltHart_of_running hh hu),
      fun hh hu => exec_debugHalt_of_able hd (State.haltHart_of_down hh hu),
      fun hh => exec_debugResume_of_able hd (State.resumeHart_of_not_halted hh),
      fun hh => ⟨fun hs => exec_debugResume_of_able hd (State.resumeHart_step hh hs),
        fun hs hc => exec_debugResume_of_able hd (State.resumeHart_core hh hs hc),
        fun hs hc => exec_debugResume_of_able hd (State.resumeHart_mc hh hs hc)⟩⟩,
    fun _ he => ⟨exec_abstractRegisterAccess_of_error he, exec_abstractMemoryAccess_of_error he⟩,
    fun hd he => ⟨fun hh => ⟨exec_abstractRegisterAccess_of_able hd he (State.abstractReg_of_not_halted hh),
        exec_abstractMemoryAccess_of_able hd he (State.abstractMem_of_not_halted hh)⟩,
      fun hh => ⟨fun hn => exec_abstractRegisterAccess_of_able hd he (State.abstractReg_of_no_register hh hn),
        fun hn => ⟨exec_abstractRegisterAccess_of_able hd he (State.abstractReg_read hh hn),
          fun hw => exec_abstractRegisterAccess_of_able hd he (State.abstractReg_write hh hn hw),
          fun hw => exec_abstractRegisterAccess_of_able hd he (State.abstractReg_write_refused hh hn hw)⟩,
        fun ha => exec_abstractMemoryAccess_of_able hd he (State.abstractMem_of_bad_address hh ha),
        fun ha hl => ⟨fun hm => exec_abstractMemoryAccess_of_able hd he (State.abstractMem_of_bus_error hh ha hl hm),
          fun hm => exec_abstractMemoryAccess_of_able hd he (State.abstractMem_of_done hh ha hl hm)⟩⟩⟩,
    exec_systemBusAccess_of_none,
    fun hr he hb => ⟨fun ha => exec_systemBusAccess_of_runs hr (State.sbAccess_of_misaligned he hb ha),
      fun ha => ⟨fun hl => exec_systemBusAccess_of_runs hr (State.sbAccess_of_no_address he hb ha hl),
        fun hl => ⟨fun hi => exec_systemBusAccess_of_runs hr (State.sbAccess_of_waits he hb ha hl hi),
          fun hi hn => exec_systemBusAccess_of_runs hr (State.sbAccess_of_answered he hb ha hl hi hn)⟩⟩⟩,
    ⟨exec_dtmcs_of_no_reset, exec_dtmcs_of_reset⟩, fun hr op => exec_dmi_of_stands hr,
    fun hr hs op => exec_dmi_of_status hr hs,
    fun hr hs => ⟨exec_dmi_none hr hs, exec_dmi_read hr hs, exec_dmi_write hr hs⟩⟩

end Sys2Proof.Machine
end
